-- ==== Sys2Proof/Word.lean ====
section
/-! DEFINITION. The word types of the TX16's registers, rings and structures (spec 00 'Numbers and units'). -/

namespace Sys2Proof

/-- A byte of a structure, a register block or HBM. -/
abbrev Byte := BitVec 8

/-- A ring index or another 16-bit register field that wraps (02, R44). -/
abbrev Idx := BitVec 16

/-- A 32-bit register (20, R631). -/
abbrev Word := BitVec 32

/-- One bit for each of the 640 unit interrupt sources (03 'Interrupts', 20 R640). -/
abbrev Sources := BitVec 640

/-- One bit for each of the 64 MSI-X vectors of a function (03 R81). -/
abbrev Vectors := BitVec 64

/-- A time value of R13 and R14: unsigned seconds (48 bits) and nanoseconds (below 10^9). -/
structure Time where
  sec : Nat
  nsec : Nat
deriving DecidableEq, Repr, Inhabited

end Sys2Proof
end

