-- ==== Sys2Proof/Syntax.lean ====
section
/-! DEFINITION. The commands of the TX16 block: one constructor of `Instr` for each row of spec/opcode_table.json.
The rows of the table name no operands; each operand here is what the row's rule says arrives with it (an index, a
register value, a packet, a reading). A row of the Groom's opcode space names the accepted command it executes. -/

namespace Sys2Proof

/-- An accepted command: the function whose stall it came from and its SEQ (02 R37, R45). -/
structure CmdRef where
  fn : Nat
  seq : Word
deriving DecidableEq, Repr

/-- An ownable unit: array device, unit class of 02 R60 and instance of 03 R85. -/
structure UnitRef where
  device : Nat
  cls : Nat
  inst : Nat
deriving DecidableEq, Repr

/-- A ring index register of 20 R643 that has a READ field. -/
inductive RingReg where
  | stats (stream : Nat)
  | decOut (core : Nat)
  | encStats (core : Nat)
  | netRx (port flow : Nat)
deriving DecidableEq, Repr

/-- A register whose read captures a time value (20 R642). -/
inductive TimeReg where
  | selected
  | engine (e : Nat)
deriving DecidableEq, Repr

/-- A completion entry, with the fields of 02 R53. -/
structure Completion where
  seq : Word := 0
  opcode : Nat := 0
  status : Nat := 0
  bindEpoch : Nat := 0
  phase : Bool := false
  relayed : Bool := false
  deferred : Bool := false
  detailSize : Bool := false
  detailSpace : Nat := 0
  detail : Nat := 0
  result0 : Nat := 0
  result1 : Nat := 0
deriving DecidableEq, Repr

/-- An event record, with the fields of 02 R56. -/
structure Event where
  code : Nat := 0
  cls : Nat := 0
  device : Nat := 0
  unit : Nat := 0
  bindEpoch : Nat := 0
  time : Time := ⟨0, 0⟩
  frame : Option Nat := none
  phase : Bool := false
  detail : Nat := 0
deriving DecidableEq, Repr

/-- A Bridle packet as the ingest reassembles it (04 R123): the header block, the payload, the CRC-32 of its EOP, and
whether a break ended it before the EOP its length puts. -/
structure BrdPacket where
  hdr : List Byte
  payload : List Byte
  crc : Nat
  broken : Bool
deriving DecidableEq, Repr

/-- A CSI-2 long packet (04 R160, R162, R163). -/
structure CsiPacket where
  vc : Nat
  dataType : Nat
  payload : List Byte
  crcOk : Bool
  headerLost : Bool
deriving DecidableEq, Repr

/-- The CSI-2 short packets other than FS and FE (04 R160). -/
inductive CsiShort where
  | lineStart
  | lineEnd
  | generic
deriving DecidableEq, Repr

/-- One CTU of a coded picture's statistics (09 R345), with the QP that rate control chose for it (09 R344). -/
structure CtuStat where
  bits : Nat
  cost : Nat
  mvX : Int
  mvY : Int
  qp : Nat
  mode : Nat
  q : Int
deriving DecidableEq, Repr

/-- A motion vector: horizontal and vertical. -/
abbrev Mv := Int × Int

/-- An inter prediction unit and what the last two steps of the search made of it (09 R340): its block, its reference, whether
it is merged, its AMVP and merge predictors in quarter samples and those brought to whole samples, the vector kept in whole
samples, after the half-sample step, and at last. -/
structure PredUnit where
  x : Nat
  y : Nat
  w : Nat
  h : Nat
  ref : Nat
  merge : Bool
  preds : List Mv
  centres : List Mv
  whole : Mv
  half : Mv
  mv : Mv
deriving DecidableEq, Repr

/-- The vectors kept by the first two steps of the search of a CTU in a reference picture (09 R340). -/
structure KeptMvs where
  ref : Nat
  at4 : List Mv
  at2 : List Mv
deriving DecidableEq, Repr

/-- The motion search of a CTU, by its first luma column and row (09 R340). -/
structure CtuMotion where
  x : Nat
  y : Nat
  kept : List KeptMvs
  units : List PredUnit
deriving DecidableEq, Repr

/-- What the coding cores made of a picture (09 R326, R340, R345): parameter sets, prefix SEI NAL units, slices in tile scan
order, suffix SEI NAL units, the reconstructed planes, the motion search, where the cap cut it off, and the statistics. -/
structure CodedPic where
  paramSets : List (List Byte) := []
  seis : List (List Byte) := []
  nals : List (List Byte)
  suffix : List (List Byte) := []
  recon : List (List (List Nat)) := []
  motion : List CtuMotion := []
  cappedAt : Option Nat := none
  ctus : List CtuStat
deriving DecidableEq, Repr

/-- A fault of a byte stream: kind of 09 R360 and byte offset of the NAL unit. -/
structure DecFault where
  kind : Nat
  offset : Nat
deriving DecidableEq, Repr

/-- A picture in the decoder's buffer that may conceal another (09 R359): its picture order count and samples. -/
structure DpbPic where
  poc : Int
  luma : List (List Nat)
  cbcr : List (List (Nat × Nat))
deriving DecidableEq, Repr

/-- What the cores made of a picture (09 R355, R358, R359): its samples row by row, the CTUs that are lost or discarded, and
the other pictures in the buffer. -/
structure DecodedPic where
  luma : List (List Nat)
  cbcr : List (List (Nat × Nat))
  lost : List Nat
  dpb : List DpbPic
deriving DecidableEq, Repr

/-- Bits and errors that a PRBS checker counted since the last command, and its lock (15 R522). -/
structure PrbsSeen where
  bits : Nat
  errors : Nat
  lock : Bool
deriving DecidableEq, Repr

/-- An Ethernet frame that is neither essence nor PTP (13 R441), or a frame lost to its FCS or FEC. -/
inductive NetFrame where
  | arpRequest (senderMac senderIp ip : Nat)
  | icmpEcho (senderMac senderIp ip : Nat) (data : List Byte)
  | igmpQuery
  | other
  | fcsError
  | fecCorrected (n : Nat)
  | fecUncorrectable (n : Nat)
deriving DecidableEq, Repr

/-- PTP message kinds (13 R444). -/
inductive PtpKind where
  | sync
  | followUp
  | delayReq
  | delayResp
  | announce
  | pdelay
  | management
deriving DecidableEq, Repr

/-- The Announce content that the default data set comparison reads (13 R444). -/
structure AnnounceData where
  priority1 : Nat
  clockClass : Nat
  clockAccuracy : Nat
  variance : Nat
  priority2 : Nat
  gmIdentity : Nat
  stepsRemoved : Nat
deriving DecidableEq, Repr

/-- A received PTP message (13 R445): port identity of its sender and, in a Delay_Resp, of the port that asked; origin time in ns,
correction in 2^-16 ns. -/
structure PtpMsg where
  kind : PtpKind
  domain : Nat
  source : Nat
  requesting : Nat
  seqId : Nat
  twoStep : Bool
  originNs : Nat
  correction : Int
  announce : AnnounceData
deriving DecidableEq, Repr

/-- A received essence packet (13 R465): sub-port, addresses, RTP header and payload; for kind 9 the row and column of its data. -/
structure RxPacket where
  sub : Nat
  srcIp : Nat
  dstIp : Nat
  dstPort : Nat
  seqNo : Nat
  rtpTs : Nat
  marker : Bool
  row : Nat
  col : Nat
  data : List Byte
deriving DecidableEq, Repr

/-- An idle control block (14 R494). -/
structure IdleBlock where
  epoch : Nat
  serial : Nat
  device : Nat
  running : Bool
  thermalStop : Bool
  farPortUp : Bool
  digest : Nat
  fsTime : Time
  profile : Nat
deriving DecidableEq, Repr

/-- A halo row of a neighbour (14 R486); `bits` and `dual` say how its samples are packed (04 R125). -/
structure HaloRow where
  arrayRow : Nat
  serial : Nat
  flags : Nat
  pixels : List (Nat × Nat)
  bits : Nat
  dual : Bool
  crcOk : Bool
deriving DecidableEq, Repr

/-- A command as the leader relays it (14 R481, 02 R52): the slot's fields after step 6 of R50; `copy` marks one that the leader
has carried out itself and that every device carries out (14 'Stripes'). -/
structure RelayedCmd where
  fn : Nat
  seq : Word
  opcode : Nat
  flags : Nat
  target : Nat
  device : Nat
  bind : Nat
  region : List Byte
  number : Option Word := none
  copy : Bool := false
deriving DecidableEq, Repr

/-- What the Grooms of an array tell one another beside commands and events (log 44): a link reset; a function-level reset;
an order to a unit's safe state and that the unit has reached it; the leader's question whether a binding of a member's unit
is admitted, and the answer (a status, a reason of 03 R113 and its shortfall); the release of a removed function's unit; that a
member has done steps 1 to 3 of 03 R89 (the command, the commands returned, whether staged state went and commits were pruned,
whether the unit runs); a rebinding that has applied; the discarding of staged state of the array; a commit that a member cannot
hold; one that a member has scheduled (02 R49); a changed epoch number (02 R68). -/
inductive GroomMsg where
  | linkReset
  | functionReset (fn : Nat)
  | orderSafe (unit : UnitRef)
  | safeReached (unit : UnitRef)
  | bindAsk (fn : Nat) (seq : Word) (unit : UnitRef) (owner : Nat)
  | bindAnswer (fn : Nat) (seq : Word) (status reason shortfall : Nat)
  | release (unit : UnitRef)
  | unbound (unit : UnitRef) (cmd : Option CmdRef) (count : Nat) (staged pruned running : Bool)
  | rebound (unit : UnitRef) (owner epoch : Nat)
  | discard
  | prepareBusy (fn : Nat) (seq : Word)
  | scheduled (fn : Nat) (seq : Word)
  | number (fn : Nat) (seq epoch : Word)
  | timeRates (ppb windowNs : Nat)
deriving DecidableEq, Repr

/-- Payloads of tether packets by type (14 R477, R496, R500). -/
inductive TthBody where
  | idle (b : IdleBlock)
  | halo (r : HaloRow)
  | verdict (serial flags : Nat)
  | command (c : RelayedCmd)
  | completion (fn : Nat) (c : Completion) (results : List Byte)
  | event (fn : Nat) (e : Event)
  | lostEvents (fn n : Nat)
  | ack (cls seq : Nat)
  | time (selected timelineMinusSelected : Int)
  | stats (serial cost ctus bits target : Nat)
  | slices (serial : Nat) (nals : List (List Byte))
  | route (queue : Nat) (last : Bool) (data : List Byte)
  | merge (tap serial row first count : Nat) (last : Bool) (data : List Byte)
  | prepare (fn : Nat) (seq : Word) (mode stream frame : Nat) (time : Time)
  | prepared (fn : Nat) (seq : Word) (digest : Nat)
  | go (fn : Nat) (seq : Word) (epoch : Word)
  | stopSignal (at_ : Time)
  | groom (m : GroomMsg)
deriving DecidableEq, Repr

/-- A tether packet (14 R477): its header block, the number of payload words that came, whether its EOP CRC matched, and
what its payload says. -/
structure TthPacket where
  hdr : List Byte
  words : Nat
  crcOk : Bool
  body : TthBody
deriving DecidableEq, Repr

/-- One axis's inputs at a sampling instant (16 R529): sin and cos codes, and the SSI read where one ends. -/
structure MotInput where
  sin : Int
  cos : Int
  ssiIdleHigh : Bool
  ssiData : Nat
  ssiError : Bool
deriving DecidableEq, Repr

/-- Result of scrubbing a spare row (18 R604). -/
inductive ScrubResult where
  | clean
  | corrected (n : Nat)
  | bad
deriving DecidableEq, Repr

/-- Eye margins of 15 R524. -/
structure Margins where
  left : Nat
  right : Nat
  top : Nat
  bottom : Nat
deriving DecidableEq, Repr

/-- What a cold start finds (18 R589): strap levels, diodes in quarter degrees, whether flash reads, HBM training and the
two images' authentication succeed, the versions of the images, the two copies of the board table, and whether host-ready
comes in time. -/
structure StartInputs where
  deviceIndex : Nat
  arraySize : Nat
  diode0 : Int
  diode1 : Int
  flashReadOk : Bool
  hbmTrained : Bool
  primaryAuthentic : Bool
  recoveryAuthentic : Bool
  primaryVersion : Nat × Nat × Nat
  recoveryVersion : Nat × Nat × Nat
  tablePrimary : List Byte
  tableBackup : List Byte
  inTime : Bool
deriving DecidableEq, Repr

/-- What a warm start's checks find in HBM and the fuses (18 R593). -/
structure WarmInputs where
  signatureRowsMatch : Bool
  imageHashMatches : Bool
  cold : StartInputs
deriving DecidableEq, Repr

/-- The commands of the block, one constructor for each row of spec/opcode_table.json; each line cites the row's rule. -/
inductive Instr where
  /-- COMMAND_DOORBELL (R44). -/
  | commandDoorbell (fn : Nat) (value : Word)
  /-- COMMAND_ACCEPT (R45). -/
  | commandAccept (fn : Nat) (hostMem : List (Nat × Byte))
  /-- CPL_HEAD_WRITE (R637). -/
  | cplHeadWrite (fn : Nat) (value : Word)
  /-- EVT_HEAD_WRITE (R637). -/
  | evtHeadWrite (fn : Nat) (value : Word)
  /-- GRM_STATUS_CLEAR (R638). -/
  | grmStatusClear (fn : Nat) (value : Word)
  /-- INT_PENDING_CLEAR (R401). -/
  | intPendingClear (fn k : Nat) (value : Word)
  /-- INT_MASK_WRITE (R103). -/
  | intMaskWrite (fn k : Nat) (value : Word)
  /-- INT_VEC_ACK (R102). -/
  | intVecAck (fn : Nat) (value : Word)
  /-- INT_STALL_CLEAR (R640). -/
  | intStallClear (fn : Nat) (value : Word)
  /-- INT_STALL_MASK_WRITE (R640). -/
  | intStallMaskWrite (fn : Nat) (value : Word)
  /-- INT_ROUTE_WRITE (R101). -/
  | intRouteWrite (fn src : Nat) (value : Word)
  /-- RING_READ_ADVANCE (R645). -/
  | ringReadAdvance (fn : Nat) (ring : RingReg) (value : Word)
  /-- QUE_OCC_READ (R404). -/
  | queOccRead (fn q : Nat)
  /-- QUE_PEAK_READ (R402). -/
  | quePeakRead (fn q : Nat)
  /-- PTP_TIME_CAPTURE (R642). -/
  | ptpTimeCapture (fn : Nat) (which : TimeReg)
  /-- LNE_STAT_READ (R646). -/
  | lneStatRead (fn lane : Nat)
  /-- REGISTER_WRITE (R631). -/
  | registerWrite (fn offset : Nat) (value : Word)
  /-- MSIX_ENABLE (R103). -/
  | msixEnable (fn : Nat)
  /-- VF_ENABLE_CLEAR (R84). -/
  | vfEnableClear
  /-- NUMVFS_WRITE (R80). -/
  | numvfsWrite (value : Nat)
  /-- LINK_RESET (R62). -/
  | linkReset (hot : Bool)
  /-- LINK_UP (R65). -/
  | linkUp
  /-- FUNCTION_LEVEL_RESET (R66). -/
  | functionLevelReset (fn : Nat)
  /-- PERST_N (R587). -/
  | perstN
  /-- COLD_START (R589). -/
  | coldStart (inp : StartInputs)
  /-- HOST_READY_TIMEOUT (R595). -/
  | hostReadyTimeout
  /-- RETENTION_ENTRY (R586). -/
  | retentionEntry
  /-- RETENTION_ENTRY_TIMEOUT (R586). -/
  | retentionEntryTimeout
  /-- WARM_START (R592). -/
  | warmStart (inp : WarmInputs)
  /-- SUPPLY_UNDERVOLTAGE (R621). -/
  | supplyUndervoltage (rail : Nat)
  /-- HBM_RETENTION_LOST (R389). -/
  | hbmRetentionLost (stack : Nat)
  /-- SAFE_STATE_REACHED (R93). -/
  | safeStateReached (unit : UnitRef)
  /-- REBINDING_APPLY (R89). -/
  | rebindingApply (unit : UnitRef)
  /-- EPOCH_COMMIT_APPLY (R68). -/
  | epochCommitApply (r : CmdRef)
  /-- PROFILE_APPLY (R552). -/
  | profileApply
  /-- SYS_PROFILE_COMMIT (R73). -/
  | sysProfileCommit (r : CmdRef)
  /-- SYS_RESUME (R576). -/
  | sysResume (r : CmdRef)
  /-- SYS_LINK_POLICY (R657). -/
  | sysLinkPolicy (r : CmdRef)
  /-- SYS_INFO (R79). -/
  | sysInfo (r : CmdRef)
  /-- SYS_FUSE_PROGRAM (R579). -/
  | sysFuseProgram (r : CmdRef) (leftAfter : Option Nat)
  /-- STALL_CONFIGURE (R658). -/
  | stallConfigure (r : CmdRef)
  /-- BIND_ASSIGN (R86). -/
  | bindAssign (r : CmdRef)
  /-- BIND_RELEASE (R86). -/
  | bindRelease (r : CmdRef)
  /-- BIND_QUERY (R656). -/
  | bindQuery (r : CmdRef)
  /-- EPOCH_STAGE (R655). -/
  | epochStage (r : CmdRef)
  /-- EPOCH_COMMIT (R655). -/
  | epochCommit (r : CmdRef)
  /-- EPOCH_COMMIT_AT (R72). -/
  | epochCommitAt (r : CmdRef)
  /-- EPOCH_DISCARD (R655). -/
  | epochDiscard (r : CmdRef)
  /-- EPOCH_QUERY (R655). -/
  | epochQuery (r : CmdRef)
  /-- FUNC_SHARES (R109). -/
  | funcShares (r : CmdRef)
  /-- FUNC_QUERY (R79). -/
  | funcQuery (r : CmdRef)
  /-- FUNC_RESET_UNITS (R79). -/
  | funcResetUnits (r : CmdRef)
  /-- BRD_CONFIGURE (R137). -/
  | brdConfigure (r : CmdRef)
  /-- BRD_SPARE (R152). -/
  | brdSpare (r : CmdRef)
  /-- BRD_TRIGGER (R158). -/
  | brdTrigger (r : CmdRef)
  /-- BRD_COUNTERS (R79). -/
  | brdCounters (r : CmdRef)
  /-- CSI_CONFIGURE (R161). -/
  | csiConfigure (r : CmdRef)
  /-- CSI_COUNTERS (R79). -/
  | csiCounters (r : CmdRef)
  /-- PIPE_CONFIGURE (R75). -/
  | pipeConfigure (r : CmdRef)
  /-- PIPE_GRID_LOAD (R196). -/
  | pipeGridLoad (r : CmdRef)
  /-- PIPE_BLACK (R181). -/
  | pipeBlack (r : CmdRef)
  /-- PIPE_MERGE (R189). -/
  | pipeMerge (r : CmdRef)
  /-- PIPE_STATS (R275). -/
  | pipeStats (r : CmdRef)
  /-- PIPE_PLAY (R147). -/
  | pipePlay (r : CmdRef)
  /-- COL_LUT_LOAD (R272). -/
  | colLutLoad (r : CmdRef)
  /-- COL_MATRIX (R246). -/
  | colMatrix (r : CmdRef)
  /-- COL_WB (R237). -/
  | colWb (r : CmdRef)
  /-- COL_OUTPUT (R267). -/
  | colOutput (r : CmdRef)
  /-- COL_NR (R243). -/
  | colNr (r : CmdRef)
  /-- ZIP_CONFIGURE (R280). -/
  | zipConfigure (r : CmdRef)
  /-- ZIP_PREROLL (R295). -/
  | zipPreroll (r : CmdRef)
  /-- ZIP_FLUSH (R300). -/
  | zipFlush (r : CmdRef)
  /-- REC_EXTENTS (R302). -/
  | recExtents (r : CmdRef)
  /-- REC_START (R313). -/
  | recStart (r : CmdRef)
  /-- REC_STOP (R315). -/
  | recStop (r : CmdRef)
  /-- REC_KEY (R318). -/
  | recKey (r : CmdRef)
  /-- REC_STATUS (R316). -/
  | recStatus (r : CmdRef)
  /-- AUD_CONFIGURE (R319). -/
  | audConfigure (r : CmdRef)
  /-- ENC_OPEN (R327). -/
  | encOpen (r : CmdRef)
  /-- ENC_CLOSE (R354). -/
  | encClose (r : CmdRef)
  /-- ENC_ROI (R344). -/
  | encRoi (r : CmdRef)
  /-- ENC_RATE (R341). -/
  | encRate (r : CmdRef)
  /-- ENC_STATS (R345). -/
  | encStats (r : CmdRef)
  /-- DEC_OPEN (R334). -/
  | decOpen (r : CmdRef)
  /-- DEC_SUBMIT (R355). -/
  | decSubmit (r : CmdRef) (errs : List DecFault)
  /-- DEC_CLOSE (R79). -/
  | decClose (r : CmdRef)
  /-- MEM_HASH (R369). -/
  | memHash (r : CmdRef)
  /-- MEM_SHED_ORDER (R386). -/
  | memShedOrder (r : CmdRef)
  /-- QUEUE_CONFIGURE (R395). -/
  | queueConfigure (r : CmdRef)
  /-- QUEUE_FLUSH (R407). -/
  | queueFlush (r : CmdRef)
  /-- QUEUE_STATUS (R406). -/
  | queueStatus (r : CmdRef)
  /-- DSP_CONFIGURE (R414). -/
  | dspConfigure (r : CmdRef)
  /-- DSP_PLANE (R417). -/
  | dspPlane (r : CmdRef)
  /-- DSP_FLIP (R424). -/
  | dspFlip (r : CmdRef)
  /-- DSP_PALETTE (R79). -/
  | dspPalette (r : CmdRef)
  /-- NET_CONFIGURE (R443). -/
  | netConfigure (r : CmdRef)
  /-- NET_FLOW (R458). -/
  | netFlow (r : CmdRef)
  /-- NET_COUNTERS (R79). -/
  | netCounters (r : CmdRef)
  /-- TIME_STEER (R78). -/
  | timeSteer (r : CmdRef)
  /-- TIME_SELECT (R660). -/
  | timeSelect (r : CmdRef)
  /-- TIME_CORRECTION (R448). -/
  | timeCorrection (r : CmdRef)
  /-- TIME_READ (R79). -/
  | timeRead (r : CmdRef)
  /-- TTH_CONFIGURE (R491). -/
  | tthConfigure (r : CmdRef)
  /-- TTH_STRIPES (R483). -/
  | tthStripes (r : CmdRef)
  /-- TTH_DIGESTS (R499). -/
  | tthDigests (r : CmdRef)
  /-- TTH_HOLD_POLICY (R498). -/
  | tthHoldPolicy (r : CmdRef)
  /-- MOT_CONFIGURE (R549). -/
  | motConfigure (r : CmdRef)
  /-- MOT_OBSERVER (R540). -/
  | motObserver (r : CmdRef)
  /-- MOT_READ (R79). -/
  | motRead (r : CmdRef)
  /-- PWR_LIMITS (R581). -/
  | pwrLimits (r : CmdRef)
  /-- PWR_THERMAL_MODEL (R569). -/
  | pwrThermalModel (r : CmdRef)
  /-- PWR_READ (R79). -/
  | pwrRead (r : CmdRef)
  /-- TEST_MUCKOUT (R606). -/
  | testMuckout (r : CmdRef)
  /-- TEST_PRBS (R521). -/
  | testPrbs (r : CmdRef) (seen : PrbsSeen)
  /-- TEST_MARGIN (R524). -/
  | testMargin (r : CmdRef)
  /-- LANE_DOWN (R150). -/
  | laneDown (lane : Nat)
  /-- LANE_UP (R151). -/
  | laneUp (lane : Nat)
  /-- ALIGN_ROW (R121). -/
  | alignRow (marks seqs : List Nat)
  /-- DESKEW_FAILURE (R121). -/
  | deskewFailure (lane : Nat)
  /-- FS_PACKET (R131). -/
  | fsPacket (p : BrdPacket)
  /-- LD_PACKET (R128). -/
  | ldPacket (p : BrdPacket)
  /-- FE_PACKET (R142). -/
  | fePacket (p : BrdPacket)
  /-- EMB_PACKET (R130). -/
  | embPacket (p : BrdPacket)
  /-- TRAILER_TIMEOUT (R142). -/
  | trailerTimeout (vc : Nat)
  /-- FRAME_VERDICT (R208). -/
  | frameVerdict (stream : Nat)
  /-- ENC_ROLLBACK (R223). -/
  | encRollback (session : Nat)
  /-- TAP_PATCH_DONE (R225). -/
  | tapPatchDone (stream tap : Nat)
  /-- SPI_SCRIPT_DONE (R158). -/
  | spiScriptDone (port : Nat) (miso : List Nat)
  /-- TRIGGER_EDGE (R156). -/
  | triggerEdge (output : Nat)
  /-- TRIGGER_SCRIPT (R158). -/
  | triggerScript (output : Nat)
  /-- CSI_FS (R163). -/
  | csiFs (port vc frameNo : Nat)
  /-- CSI_LONG_PACKET (R162). -/
  | csiLongPacket (port : Nat) (p : CsiPacket)
  /-- CSI_FE (R163). -/
  | csiFe (port vc frameNo : Nat)
  /-- CSI_DPHY_ERROR (R164). -/
  | csiDphyError (port : Nat)
  /-- PIPE_FRAME_BOUNDARY (R171). -/
  | pipeFrameBoundary (pipe : Nat)
  /-- SHADING_BLEND_DONE (R200). -/
  | shadingBlendDone (stream : Nat)
  /-- RELAY_PACKET (R299). -/
  | relayPacket (channel : Nat)
  /-- NVME_WRITE_COMPLETE (R301). -/
  | nvmeWriteComplete (ssd status : Nat)
  /-- NVME_WRITE_TIMEOUT (R312). -/
  | nvmeWriteTimeout (ssd : Nat)
  /-- CHUNK_CLOSE (R310). -/
  | chunkClose
  /-- AUD_WORD_CLOCK_FRAME (R319). -/
  | audWordClockFrame (port : Nat) (samples : List Nat)
  /-- AUD_CLOCK_LOST (R321). -/
  | audClockLost (port : Nat)
  /-- AUD_CLOCK_RESTORED (R321). -/
  | audClockRestored (port : Nat)
  /-- ENC_PICTURE_START (R337). -/
  | encPictureStart (session : Nat)
  /-- ENC_PICTURE_DONE (R220). -/
  | encPictureDone (session : Nat) (pic : CodedPic)
  /-- ENC_OUTPUT_RELEASE (R351). -/
  | encOutputRelease (session : Nat)
  /-- DEC_PICTURE (R355). -/
  | decPicture (session : Nat) (pic : DecodedPic)
  /-- MEM_ESCALATION (R381). -/
  | memEscalation
  /-- MEM_RECOVERED (R383). -/
  | memRecovered
  /-- RT_RESTORED (R383). -/
  | rtRestored (port : Nat)
  /-- MEM_HOT (R371). -/
  | memHot (stack : Nat)
  /-- MEM_ECC (R390). -/
  | memEcc (pc row : Nat) (corrected : Bool)
  /-- QUEUE_PACKET_WRITE (R393). -/
  | queuePacketWrite (q : Nat) (data : List Byte)
  /-- QUEUE_PACKET_FREE (R393). -/
  | queuePacketFree (q : Nat)
  /-- CREDIT_RETURN (R393). -/
  | creditReturn (q : Nat)
  /-- QUEUE_FLUSHED (R407). -/
  | queueFlushed (q : Nat)
  /-- FLIP_POINT (R422). -/
  | flipPoint (head : Nat)
  /-- GENLOCK_EDGE (R412). -/
  | genlockEdge
  /-- GENLOCK_LOST (R413). -/
  | genlockLost (head : Nat)
  /-- TE_MISSING (R434). -/
  | teMissing (head : Nat)
  /-- NET_LINK_DOWN (R442). -/
  | netLinkDown (port sub : Nat)
  /-- NET_LINK_UP (R442). -/
  | netLinkUp (port sub : Nat)
  /-- NET_FRAME_RECEIVED (R441). -/
  | netFrameReceived (port sub : Nat) (frame : NetFrame)
  /-- PTP_MESSAGE (R445). -/
  | ptpMessage (port : Nat) (msg : PtpMsg)
  /-- PTP_MESSAGE_SEND (R449). -/
  | ptpMessageSend (port : Nat) (kind : PtpKind)
  /-- ANNOUNCE_TIMEOUT (R446). -/
  | announceTimeout (port : Nat)
  /-- TIME_STEER_APPLY (R451). -/
  | timeSteerApply (engine : Nat)
  /-- TIME_SELECT_APPLY (R452). -/
  | timeSelectApply
  /-- TIME_SLEW_DONE (R660). -/
  | timeSlewDone
  /-- SEND_SLOT (R460). -/
  | sendSlot (port flow : Nat)
  /-- ST2110_PACKET_SEND (R461). -/
  | st2110PacketSend (port flow : Nat)
  /-- QUEUE_FLOW_SEND (R464). -/
  | queueFlowSend (port flow : Nat)
  /-- RX_PACKET (R465). -/
  | rxPacket (port : Nat) (p : RxPacket)
  /-- RX_SLOT_CLOSE (R466). -/
  | rxSlotClose (port flow : Nat)
  /-- PATH_LOST (R467). -/
  | pathLost (port flow path : Nat)
  /-- TTH_PACKET (R478). -/
  | tthPacket (port : Nat) (p : TthPacket)
  /-- HALO_ROW (R487). -/
  | haloRow (port : Nat) (row : HaloRow)
  /-- TTH_ACK_TIMEOUT (R479). -/
  | tthAckTimeout (port cls : Nat)
  /-- TTH_LINK_DOWN (R480). -/
  | tthLinkDown (port lanes : Nat)
  /-- TTH_LINK_UP (R480). -/
  | tthLinkUp (port : Nat)
  /-- RELAY_TIMEOUT (R481). -/
  | relayTimeout (r : CmdRef)
  /-- IDLE_CONTROL_BLOCK (R494). -/
  | idleControlBlock
  /-- PREPARE_DEADLINE (R496). -/
  | prepareDeadline (r : CmdRef)
  /-- ARRAY_COMMIT_TIMEOUT (R497). -/
  | arrayCommitTimeout (r : CmdRef)
  /-- TIME_PACKET_SEND (R500). -/
  | timePacketSend
  /-- HOP_DELAY_MEASURE (R500). -/
  | hopDelayMeasure (delay : Int)
  /-- TIME_LOCK_LOSS (R502). -/
  | timeLockLoss
  /-- MOTION_SAMPLE (R528). -/
  | motionSample (inputs : List MotInput)
  /-- HALL_EDGE (R531). -/
  | hallEdge (axis hall clock : Nat)
  /-- HALL_ILLEGAL_TIMEOUT (R532). -/
  | hallIllegalTimeout (axis : Nat)
  /-- INPUT_BROKEN (R535). -/
  | inputBroken (axis : Nat)
  /-- INPUT_RESTORED (R537). -/
  | inputRestored (axis : Nat)
  /-- OBSERVER_LOST (R541). -/
  | observerLost (axis : Nat)
  /-- OBSERVER_REGAINED (R542). -/
  | observerRegained (axis : Nat)
  /-- STANDSTILL (R539). -/
  | standstill (axis : Nat)
  /-- MOT_PROBE (R544). -/
  | motProbe (axis : Nat) (rising : Bool) (clocks : Nat)
  /-- POWER_METER_SAMPLE (R559). -/
  | powerMeterSample (mw : List Nat)
  /-- CAP_THROTTLE_LEAVE (R560). -/
  | capThrottleLeave
  /-- DROOP_SAMPLE (R561). -/
  | droopSample (domain droop : Nat)
  /-- SNUB_STAGE_EXIT (R562). -/
  | snubStageExit (domain : Nat)
  /-- THERMAL_MODEL_UPDATE (R566). -/
  | thermalModelUpdate
  /-- THM_STOP_COMPLETE (R573). -/
  | thmStopComplete
  /-- DIODE_READ (R570). -/
  | diodeRead (diode : Nat) (quarterDeg : Int)
  /-- MODEL_DRIFT_CHECK (R570). -/
  | modelDriftCheck
  /-- MUCKOUT_SLICE_DONE (R603). -/
  | muckoutSliceDone (pipe : Nat) (crcMatch : Bool)
  /-- SPARE_ROW_SCRUB (R604). -/
  | spareRowScrub (pc bank row : Nat) (result : ScrubResult)
  /-- LANE_MARGIN_READING (R605). -/
  | laneMarginReading (lane : Nat) (m : Margins)
  /-- SYS_RST_N_ASSERTION (R584). -/
  | sysRstNAssertion
  /-- SUPPLY_RECOVERY (R621). -/
  | supplyRecovery
  /-- VF_ENABLE_SET (R80). -/
  | vfEnableSet
  /-- MSIX_MASK_WRITE (R103). -/
  | msixMaskWrite (fn : Nat) (entry : Option Nat) (mask : Bool)
  /-- PLL_LOST_LOCK (R583). -/
  | pllLostLock
  /-- REFERENCE_CLOCK_MISSING (R623). -/
  | referenceClockMissing (which : Nat)
  /-- PPS_PULSE (R616). -/
  | ppsPulse (engine : Nat)
  /-- PORT_PANIC (R380). -/
  | portPanic (port fillKib : Nat)
  /-- RT_BUFFER_OVERFLOW (R384). -/
  | rtBufferOverflow (port : Nat)
  /-- MEM_HOT_CLEARED (R371). -/
  | memHotCleared (stack : Nat)
  /-- CSI_LS_LE_PACKET (R160). -/
  | csiLsLePacket (port vc : Nat) (kind : CsiShort) (line : Nat)
  /-- DELAY_REQ_SEND (R445). -/
  | delayReqSend (port : Nat)
  /-- ARRAY_SLICES_MISSING (R493). -/
  | arraySlicesMissing (session : Nat)
  /-- NVME_HOST_ACCESS_DONE (R316). -/
  | nvmeHostAccessDone (r : CmdRef)(ok : Bool)(data : List Byte)
  /-- TEST_MARGIN_DONE (R524). -/
  | testMarginDone (lane : Nat) (m : Margins)
deriving DecidableEq, Repr

end Sys2Proof
end

