-- ==== Sys2Proof/Config.lean ====
section
/-! DEFINITION. Constants of the TX16 that the spec fixes and the free values that it leaves open.
A free value is an opaque constant: nothing can evaluate it, so a claim holds for every value of it (log 6). -/

namespace Sys2Proof.Config

/-- A fresh open value, applied to the counter `State.freeCtr` (00 R649: any value within a stated bound may occur). -/
opaque freeNat : Nat → Nat

/-- The Groom's estimate of the device load in mW (02 R73); the spec gives no formula. Applied to `State.freeCtr`. -/
opaque loadEstimateMw : Nat → Nat

/-- Hjela's built-in thermal model (17 R568): heat capacities, conductances, conductances to ambient, shares. -/
opaque thermalC : Nat → Nat
/-- Conductance of node pair number n of the built-in model, in the order of 17 R567. -/
opaque thermalG : Nat → Nat
/-- Conductance to ambient of a node of the built-in model. -/
opaque thermalGA : Nat → Nat
/-- Share of a meter to a node of the built-in model, in 1/256. -/
opaque thermalMap : Nat → Nat → Nat
/-- Node of a diode of the built-in model. -/
opaque thermalDiodeNode : Nat → Nat

/-- Uncertainty in 2^-32 ns of a timestamp taken in a domain (01 R31): the domain's period is not given. Domains: 0 and 1 the
PTP ports, 2 to 5 the heads, 8 events, 16 + i the FS of stream i, 40 and 41 received packets of a network port, 44 and 45 the
TDM ports, 48 the genlock input, 50 to 53 the motion axes. -/
opaque capturePeriod : Nat → Nat

/-- Where a timestamp of a domain lies within its uncertainty (01 R31, 00 R649): domain, a count of the domain's stamps, and
the cycle in which it was taken. -/
opaque stampSkew : Nat → Nat → Nat → Nat

/-- Clock identity of a port's PTP instance (13 R444): the spec gives none. -/
opaque clockIdentity : Nat → Nat

/-- Identification, flags and fragment offset of an IPv4 datagram of a payload (13 R464): the spec gives none. -/
opaque ipIdent : List Byte → Nat
/-- Whether a departing UDP datagram carries a checksum (13 R449: only one that is not 0 is recomputed). -/
opaque udpChecked : Bool
/-- Type of service of an ICMP echo reply (13 R441). -/
opaque echoTos : Nat
/-- Time to live of an ICMP echo reply (13 R441). -/
opaque echoTtl : Nat
/-- Type of service of a PTP message (13 R444). -/
opaque ptpTos : Nat
/-- Time to live of a PTP message (13 R444). -/
opaque ptpTtl : Nat
/-- flagField of an Announce (13 R444). -/
opaque announceFlags : Nat
/-- currentUtcOffset of an Announce (13 R444). -/
opaque announceUtcOffset : Nat
/-- timeSource of an Announce (13 R444). -/
opaque announceTimeSource : Nat
/-- The two nibbles of an ATC time address for a frame count above 39 (13 R463): the spec does not state them. -/
opaque atcFrames : Nat → Nat

/-- The bytes of a tether payload of which the spec gives no layout (14 R477). -/
opaque tthPayload : TthBody → List Byte
/-- SEQ in the header of an acknowledgement of a class and a SEQ (14 R477): the spec does not say. -/
opaque tthAckSeq : Nat → Nat → Nat

/-- Bit target that a session's rate model gives a picture (09 R342): bits per picture at the mean rate, and the model's
state, which a rollback restores (06 R219): buffer fullness, QP model, bits of recent pictures. -/
opaque rateTarget : Nat → Int → Nat → List Nat → Nat

/-- A session's QP model after a coded picture (06 R219): the model before it, the picture's bits and its mean QP. -/
opaque qpModel : Nat → Nat → Int → Nat

/-- λ × bits of a motion vector: the QP, the predictors and the vector in quarter samples (09 R340). -/
opaque vectorCost : Int → List (Int × Int) → Int × Int → Nat

/-- Whether SATD takes squares of 8 × 8 rather than 4 × 4 (09 R340). -/
opaque satdEight : Bool

/-- Firmware version in the INFO of a stall (00: Groom firmware 3.2.0). -/
def firmware : Nat × Nat × Nat := (3, 2, 0)

/-- Nominal INCREMENT of a time engine, Q32.32 ns (13 R450). -/
def nominalIncrement : Nat := 0x333333333

/-- Pixels of the elastic buffer (04 R155). -/
def elasticPixels : Nat := 98304

/-- First and last addresses of HBM that a command may name, and the coding arena's bytes (10 R362, R363). -/
def bufferBase : Nat := 0x1C0000000
/-- First address beyond HBM. -/
def hbmEnd : Nat := 0xC00000000
/-- Bytes of the coding arena. -/
def arenaBytes : Nat := 0x180000000

end Sys2Proof.Config
end

