-- ==== Sys2Proof/Machine/State.lean ====
section
/-! DEFINITION. The state of the TX16 block as plain data, with the value of every field after a cold start
(spec 00: the Reset column gives the value after a cold start; 18 R597). Where the spec gives no value the field
holds the value that log 10 names. -/

namespace Sys2Proof.Machine

/-- A sparse map from numbers: keys strictly rising (see `Tbl.wf` in Ops.lean). -/
abbrev Tbl (α : Type) := List (Nat × α)

/-- HBM or stall bytes: a listed byte is never 0, an unlisted byte reads 0 (log 2). -/
abbrev Mem := List Host.Cell

/-- A command of the Admin queue of an SSD (08 R301): Identify, Set Features, Create and Delete I/O Queue (of a completion or a
submission queue), Get Log Page. -/
inductive NvmeAdmin where
  | identify (cns nsid : Nat)
  | setFeatures (feature value : Nat)
  | createQueue (id depth : Nat) (completion : Bool)
  | deleteQueue (id : Nat) (completion : Bool)
  | getLogPage (page nsid : Nat)
deriving DecidableEq, Repr

/-- The payload identifier of an SDI link (12 R410, R411): the interface standard, the frame period in ns, the number of the
link, and the colorimetry and transfer fields. Every link is progressive 4:2:2 10-bit. -/
structure PayloadId where
  standard : Nat
  period : Nat
  link : Nat
  colorimetry : Nat
  transfer : Nat
deriving DecidableEq, Repr

/-- What has left the device at its pins and buses (log 5). -/
inductive Out where
  | msix (fn vector : Nat)
  | readData (fn offset value : Nat)
  | spi (port : Nat) (words : List Nat)
  | trigger (output : Nat) (activeLow : Bool) (pulseNs : Nat) (at_ : Time)
  | nvme (ssd nsid lba : Nat) (fua : Bool) (data : List Byte)
  | nvmeFlush (ssd : Nat)
  | nvmeAdmin (ssd : Nat) (command : NvmeAdmin)
  | nvmeHost (ssd nsid lba count : Nat) (write : Bool) (data : List Byte)
  | net (port sub : Nat) (frame : List Byte)
  | tether (port cls : Nat) (packet : List Byte) (crc : Nat) (body : TthBody)
  | dsi (head : Nat) (packets : List (List Byte))
  | dsiPacket (head : Nat) (data : List Byte)
  | sdi (head : Nat) (lanes : List Nat) (frame : Nat) (fallback : Bool) (idents : List PayloadId) (rows : List (List (Nat × Nat)))
  | hostWrite (address : Nat) (data : List Byte)
  | pps (engine : Nat)
  | uart (failCode : Nat)
deriving DecidableEq, Repr

/-- Where the device stands in its starts and stops (17 R571-R578, 18 R584-R596). -/
inductive Phase where
  | running      -- host-ready passed
  | held         -- SYS_RST_N low or a watched rail below 90 %
  | released     -- reset released, no cold start yet succeeded
  | retained     -- WARM_RST_N low, in retention
  | stopped      -- thermal STOPPED, in self-refresh
  | tripped      -- hard trip
  | halted       -- halted in the boot ROM
deriving DecidableEq, Repr

/-- The retained record of 18 R586 and R593. -/
structure Retention where
  valid : Bool
  keyHash : Nat
deriving DecidableEq, Repr

/-- The SR-IOV extended capability of F0, whose values are fixed (03 R81). -/
structure Sriov where
  totalVfs : Nat := 15
  initialVfs : Nat := 15
  firstVfOffset : Nat := 1
  vfStride : Nat := 1
  pageBytes : List Nat := [4096]
  vfBar0Bits : Nat := 64
  vfBar0Prefetchable : Bool := false
  vfBar0Bytes : Nat := 2 ^ 20
  msixEntries : Nat := 64
deriving DecidableEq, Repr

/-- The capability as the device presents it. -/
def sriov : Sriov := {}

/-- Starts, straps, fuses and the PCIe link (02, 03, 18, 19). -/
structure Sys where
  phase : Phase := .running
  sysRstLow : Bool := false
  warmRstLow : Bool := false
  railsLow : List Nat := []
  selfRefresh : Bool := false
  device : Nat := 0
  arraySize : Nat := 1
  ready : Bool := true
  startKind : Nat := 0
  fails : Nat := 0
  step : Nat := 7
  failCode : Nat := 0
  failedSincePower : Bool := false
  retention : Option Retention := none
  entryDue : Bool := false
  entryLate : Bool := false
  lost : Bool := false
  fuses : Tbl Nat := []
  version : Nat × Nat × Nat := Config.firmware
  recovery : Bool := false
  linkUp : Bool := true
  linkPolicy : Nat := 0
  vfEnable : Bool := false
  numVfs : Nat := 0
  profile : Nat := 1
  profileReq : Option (CmdRef × Nat × Nat × Nat) := none
  tableUsed : List Byte := []
  tableStates : Nat × Nat := (2, 2)
deriving DecidableEq, Repr

/-- One stall (`begun` marks the slots that the host has written since the Groom took them, log 24): resume record, rings,
window, GRM_STATUS and INT_STALL (02 R35, R67; 20 R636-R640). -/
structure Stall where
  lastAccepted : Word := 0
  lastCompleted : Word := 0
  nextSeq : Word := 1
  cmdHead : Idx := 0
  cmdTail : Idx := 0
  cplHead : Idx := 0
  cplTail : Idx := 0
  evtHead : Idx := 0
  evtTail : Idx := 0
  resetCount : Nat := 0
  resetKind : Nat := 0
  discarded : Nat := 0
  aborted : Nat := 0
  windowKib : Nat := 16
  mem : Mem := []
  begun : BitVec 64 := 0
  cpl : Tbl Completion := []
  evt : Tbl Event := []
  evtLost : Nat := 0
  evtWait : List Event := []
  memberLost : Nat := 0
  dbErr : Bool := false
  headErr : Bool := false
  resumed : Bool := false
  ready : Bool := true
  cplPend : Bool := false
  evtPend : Bool := false
  cplMask : Bool := false
  evtMask : Bool := false
deriving DecidableEq, Repr

/-- MSI-X and mask state of one function (03 R100-R103, 20 R640, R642). -/
structure FnInt where
  msixEnable : Bool := false
  fnMask : Bool := false
  vecMask : Vectors := BitVec.allOnes 64
  await : Vectors := 0
  intMask : Sources := BitVec.allOnes 640
  selLatch : Option Time := none
  engLatch : Tbl Nat := []
deriving DecidableEq, Repr

/-- INT_ROUTE_n (03 R98). -/
structure Route where
  func : Nat := 0
  vector : Nat := 2
  fixed : Bool := false
  pin : Bool := false
  enable : Bool := true
deriving DecidableEq, Repr

/-- Interrupt state: pending bits, routes that differ from reset, and the functions' parts. -/
structure Ints where
  pend : Sources := 0
  routes : Tbl Route := []
  fns : List FnInt := List.replicate 16 {}
deriving DecidableEq, Repr

/-- A rebinding that waits to apply (03 R88): the BIND command, or the removal of a function (R84); whether a member has been
asked for its admission and has not answered; on a member, whether it has done its part and awaits the leader (log 44). -/
structure Rebind where
  unit : UnitRef
  newOwner : Nat
  cmd : Option CmdRef
  asked : Bool := false
  done : Bool := false
deriving DecidableEq, Repr

/-- Ownership, binding epochs and safe states, by the unit number of `unitKey` (03 R82-R96). -/
structure Bind where
  owner : Tbl Nat := []
  epoch : Tbl Nat := []
  safe : Tbl Nat := []
  waiting : List Rebind := []
deriving DecidableEq, Repr

/-- An accepted command that has not completed (02 R46): the slot's fields, the parameter region and where results go; for
one that a member executes, whether it has been sent on; for a commit of a member, the epoch number that the leader gave; on a
member, whether it is a copy of one that the leader has carried out. A command that function-level resets have detached has 16
added to its function for each of them. -/
structure Cmd where
  fn : Nat
  seq : Word
  opcode : Nat
  flags : Nat
  target : Nat
  device : Nat
  bind : Nat
  region : List Byte
  ploc : Nat := 0
  ploff : Nat := 0
  segs : List (Nat × Nat) := []
  waiting : Bool := false
  detached : Bool := false
  relayed : Bool := false
  sent : Bool := false
  number : Option Word := none
  copy : Bool := false
deriving DecidableEq, Repr

/-- One loaded parameter block with its bulk table (02 R70, 20 R634). -/
structure CfgVal where
  blk : List Byte
  bulk : List Byte := []
  crc : Nat := 0
deriving DecidableEq, Repr

/-- A staged parameter block (02 R71): the function that staged it, its place, its value, and its number in the order of staging. -/
structure Staged where
  fn : Nat
  key : Nat
  val : CfgVal
  order : Nat := 0
deriving DecidableEq, Repr

/-- A scheduled commit with its captured image (02 R68-R72, 14 R496, R497). -/
structure Sched where
  ref : CmdRef
  detached : Bool := false
  mode : Nat
  stream : Nat
  scope : Nat
  frame : Nat
  time : Time
  expect : Nat
  img : List Staged
  digest : Nat := 0
  answers : Tbl Nat := []
  go : Bool := false
  number : Option Word := none
  differed : Nat := 0
  applied : Option (Nat × Nat) := none
deriving DecidableEq, Repr

/-- Committed configuration, the configuration in use by the units, staged state, scheduled commits, the epoch, the last epoch
number that the leader of an array has given (02 R68), and the number of blocks staged so far. -/
structure Cfg where
  committed : Tbl CfgVal := []
  active : Tbl CfgVal := []
  staged : List Staged := []
  sched : List Sched := []
  epoch : Word := 0
  assigned : Word := 0
  stagings : Nat := 0
deriving DecidableEq, Repr

/-- A delivered row: pixels (both gain samples), gain code, and the marks of 04 R145. -/
structure RowRec where
  px : List (Nat × Nat)
  gain : Nat
  seam : Bool := false
  split : Option Nat := none
  filled : Bool := false
  short : Bool := false
  long : Bool := false
  crcBad : Bool := false
deriving DecidableEq, Repr

/-- The line of a channel in progress (04 R128). -/
structure LineAcc where
  line : Nat
  px : List (Nat × Nat)
  gain : Nat
  lastGain : Nat
  split : Option Nat := none
  crcBad : Bool := false
deriving DecidableEq, Repr

/-- A Bridle channel, or a CSI-2 port (04 'Frame checks and verdicts'): whether a frame is open and whether its packets are
discarded up to the next FS; the frame's serial, the serials of group frames that other members opened and this one has not
joined; the line in progress, L, the pixels and the running CRC; the last good line, the gain code of the last packet. -/
structure Chan where
  isOpen : Bool := false
  skip : Bool := false
  serial : Nat := 0
  owed : List Nat := []
  cur : Option LineAcc := none
  lines : Nat := 0
  pixels : Nat := 0
  crc : Nat := 0xFFFFFFFF
  lastGood : Option (List (Nat × Nat)) := none
  lastGain : Nat := 0
  counters : List Nat := List.replicate 16 0
deriving DecidableEq, Repr

/-- A Bridle lane (04 R119-R122, R150). -/
structure BrdLane where
  down : Bool := false
  mark : Nat := 0xFF
deriving DecidableEq, Repr

/-- A trigger output (04 R156-R159). -/
structure Trig where
  mode : Nat := 0
  polarity : Nat := 0
  pulseNs : Nat := 0
  period : Nat := 0
  start : Time := ⟨0, 0⟩
  delayUs : Nat := 0
  port : Nat := 0
  script : List Nat := []
  nextEdge : Int := 0
  scriptDue : Nat := 0
deriving DecidableEq, Repr

/-- A script for an SPI port: a spare script or not, its words, and the command that waits for it (04 R152, R158). -/
structure SpiJob where
  spare : Bool
  words : List Nat
  ref : Option CmdRef
deriving DecidableEq, Repr

/-- A sensor-control SPI master: the script being sent, the scripts due in order, and the words last read back (04 R152,
R158). -/
structure Spi where
  sending : Option SpiJob := none
  queue : List SpiJob := []
  miso : List Nat := []
deriving DecidableEq, Repr

/-- Bridle ingest (04). Link counters: header errors, disabled-channel packets, elastic overruns, spare engagements,
peak elastic fill, ALIGN errors. `failed` holds the lanes whose logical lane waits for the spare: logical and old physical lane;
`fill` the pixels in the elastic buffer (R155). -/
structure Brd where
  chans : List Chan := List.replicate 8 {}
  lanes : List BrdLane := List.replicate 32 {}
  map : List Nat := []
  mapOk : Bool := false
  alignSeq : Option Nat := none
  link : List Nat := List.replicate 6 0
  failed : List (Nat × Nat) := []
  fill : Rat := 0
  trigs : List Trig := List.replicate 4 {}
  spis : List Spi := List.replicate 4 {}
deriving DecidableEq, Repr

/-- A frame of a stream from its FS to its end in the pipe (04 R131, R146; 06 R204). `flags` is the verdict word of R210;
`parts` the lines of each member channel with the gain code of their last packet; `held` whether its rows wait (R204);
`shade` the blocks whose shading grids a stale blend uses, where they are not the frame's own (05 R200); `tnrOut` the slot of the
TNR buffer that takes its output, by its address; `tnr` the address and the serial of its reference; `estGen` and `tnrGen` what the
stream's counts were at its FS, `tapGen` the rings of its taps. -/
structure Frame where
  serial : Nat
  time : Time
  epoch : Nat
  cfg : Tbl CfgVal := []
  parts : Tbl (List (RowRec × Nat)) := []
  held : Bool := false
  tnr : Option (Nat × Nat) := none
  tnrOut : Option Nat := none
  est : Tbl Int := []
  estDone : Bool := false
  estGen : Nat := 0
  tnrGen : Nat := 0
  tapGen : List Nat := [0, 0, 0, 0]
  splitTold : Bool := false
  source : Nat := 0
  sensorFrame : Nat := 0
  gainFs : Nat := 0
  exposure : Nat := 0
  sensorData : List Byte := []
  joined : List Nat := []
  ended : List Nat := []
  rows : List RowRec := []
  flags : Nat := 0
  decided : Bool := false
  released : Nat := 0
  slot : Option Nat := none
  lens : List Nat := [0, 0, 0]
  lensBad : Bool := false
  stale : Bool := false
  weights : List Nat := [0, 0, 0]
  shade : Tbl CfgVal := []
  motion : List Byte := []
  emb : List (List Byte) := []
  counts : List Nat := [0, 0, 0, 0]
  embErr : Bool := false
  lines : Nat := 0
  feLines : Nat := 0
  pixels : Nat := 0
  fePixels : Nat := 0
  tapSlots : List (Option Nat) := [none, none, none, none]
  halo : Tbl (List HaloRow) := []
  colour : Nat := 0
deriving DecidableEq, Repr

/-- A slot of a tap ring (06 R224-R227): rows written and the frame's state (0 writing, 1 COMMITTED, 2 RETRACTED); rows that
this device and each merging device have written (14 R491); `blk` is the `COL.OUTPUT` block under which it was opened,
`since` the time on F at which the frame was COMMITTED (13 R460). -/
structure TapSlot where
  serial : Nat
  rows : Nat := 0
  state : Nat := 0
  verdict : Nat := 0
  blk : List Byte := []
  patchFrom : Option Nat := none
  patched : Bool := false
  own : Nat := 0
  parts : Tbl Nat := []
  time : Time := ⟨0, 0⟩
  since : Nat := 0
deriving DecidableEq, Repr

/-- A committed frame of a ring, handed on to its pipe: its slot, its metadata record so far, the configuration of its
epoch, the serial of its TNR reference, whether the statistics ring had a slot for it at its FS, the blend of a stale frame,
the counts of the column estimate and of the tap rings at its FS, the tap slots taken once the pipe has started it, and
whether it will not be written back (01 R22, 04 R144, R146; 05 R200; 07 R241, R276; 10 R384). -/
structure ReadyFrame where
  slot : Nat
  serial : Nat
  epoch : Nat
  cfg : Tbl CfgVal
  record : List Byte
  tnr : Option Nat := none
  statsOk : Bool := true
  stale : Bool := false
  weights : List Nat := [0, 0, 0]
  shade : Tbl CfgVal := []
  estGen : Nat := 0
  tapGen : List Nat := [0, 0, 0, 0]
  tapSlots : List (Option Nat) := [none, none, none, none]
  unwritten : Bool := false
deriving DecidableEq, Repr

/-- A pipe stream (05, 06, 07). Ring slot states: 0 free, 1 being written, 2 handed on, 3 in the pipe. `cfg` is the
configuration of the last frame that started at the ingest; `shade` the blocks of the last blend; `tnrRef` the address and
serial of the TNR reference of stream 0 in-line, `lastGood` the serial of another stream's, `tnrBuf` the serials whose
outputs the TNR buffer holds, by address; `estGen`, `tnrGen` and `tapGen` count the commits that end the column estimate and
the TNR reference and the rings of each tap, and `colGen` is the `estGen` of the frame that formed the estimate; `unwritten`
counts frames that were not written back; `statsSlot` the next slot of the statistics ring; `records` the metadata records
in the Groom region, by serial. -/
structure StreamSt where
  nextSerial : Nat := 0
  known : Bool := false
  cfg : Tbl CfgVal := []
  frames : List Frame := []
  ring : Tbl Nat := []
  ready : List ReadyFrame := []
  play : Option Nat := none
  v : Nat := 0
  wasReady : Bool := false
  colEst : Tbl Int := []
  colGen : Nat := 0
  estGen : Nat := 0
  lens : List Nat := [0, 0, 0]
  lensBad : Bool := false
  lensHeld : Bool := false
  blendDone : Bool := false
  weights : List Nat := [0, 0, 0]
  shade : Tbl CfgVal := []
  frozen : Bool := false
  tnrRef : Option (Nat × Nat) := none
  tnrGen : Nat := 0
  tnrBuf : Tbl Nat := []
  lastGood : Option Nat := none
  statsRd : Nat := 0
  statsWr : Nat := 0
  statsSlot : Nat := 0
  statsDropped : Nat := 0
  unwritten : Nat := 0
  taps : List (Tbl TapSlot) := [[], [], [], []]
  tapGen : List Nat := [0, 0, 0, 0]
  lastSerial : Nat := 0
  lastVerdict : Nat := 0
  lastRetracted : Option (Nat × Time × Nat) := none
  fsTick : Nat := 0
  fsTime : Time := ⟨0, 0⟩
  records : Tbl (List Byte) := []
deriving DecidableEq, Repr

/-- A record published, or waiting for its verdict, in a pre-roll ring (08 R292-R297). -/
structure RingEntry where
  no : Nat
  serial : Nat
  verdict : Nat
  stream : Nat
  off : Nat
  payload : Bool
  time : Time
  epoch : Nat
  record : List Byte
  metaRec : List Byte
  audio : List Byte := []
deriving DecidableEq, Repr

/-- A frame that a capture group codes (08 R283-R290): the group's parameters, its place in the ring once a block row is
there, the rows not yet coded, the block rows done and the K0 of the next. -/
structure ZipWork where
  serial : Nat
  blk : List Byte
  off : Option Nat := none
  rows : List RowRec := []
  done : List (List Byte) := []
  k : List (Nat × Nat) := []
deriving DecidableEq, Repr

/-- A capture group, by its lowest channel (08 R279-R297): the frames being coded; the ring (base and bytes) and its write
position, counted on; the frames in the ring; the next publication number that the recorder takes; the last serial it
recorded; frames lost to it (first serial, count) and not yet noted. -/
structure Group where
  work : List ZipWork := []
  ring : Nat × Nat := (0, 0)
  wr : Nat := 0
  entries : List RingEntry := []
  recNext : Nat := 0
  recLast : Option Nat := none
  lost : List (Nat × Nat × Nat) := []
deriving DecidableEq, Repr

/-- A relay channel, Z14 or Z15 (08 R299, R300). -/
structure Relay where
  next : Nat := 0
  offset : Nat := 0
  gap : Bool := false
deriving DecidableEq, Repr

/-- A media extent (02 'REC.EXTENTS', 08 R302). -/
structure Extent where
  nsid : Nat
  lba : Nat
  count : Nat
  tag : Nat
deriving DecidableEq, Repr

/-- An SSD as the recorder found it (08 R301): bytes of an LBA, namespaces with their size in LBAs, ×4 link; its extents in
order, the bytes of them that the open chunk and earlier ones take, and where the open chunk starts; whether its I/O queues are
created (log 36). -/
structure Ssd where
  present : Bool := true
  x4 : Bool := true
  lbaBytes : Nat := 4096
  spaces : Tbl Nat := [(1, 0x10000000)]
  extents : List Extent := []
  pos : Nat := 0
  base : Nat := 0
  lowTold : Bool := false
  attached : Bool := false
deriving DecidableEq, Repr

/-- A recording Write outstanding (08 R312), with the chunk and the offset it writes, or the Flush of a chunk that closes. -/
structure NvmeWrite where
  ssd : Nat
  nsid : Nat
  lba : Nat
  fua : Bool
  data : List Byte
  chunk : Nat
  off : Nat
  flush : Bool := false
  retried : Bool := false
deriving DecidableEq, Repr

/-- An entry of the chunk index (08 R308). -/
structure IndexEntry where
  serial : Nat
  verdict : Nat
  stream : Nat
  flags : Nat
  off : Nat
  len : Nat
  metaOff : Nat
  time : Time
deriving DecidableEq, Repr

/-- A run of audio between changes of the ports that give samples: its channels, RATE, and the sample frames of each port that no
audio record has taken (08 R320, R321). -/
structure AudioSeg where
  chans : Nat := 0
  rate : Nat := 0
  frames : List (List (Time × List Nat)) := [[], []]
deriving DecidableEq, Repr

/-- An access of `REC.STATUS` OP 1 or 2 that has not completed, sent or waiting for a place in I/O pair 2 (08 R301, R316). -/
structure HostAccess where
  ref : CmdRef
  write : Bool
  ssd : Nat
  nsid : Nat
  lba : Nat
  count : Nat
  data : List Byte := []
deriving DecidableEq, Repr

/-- The recorder (08 R301-R318). States: 0 idle, 1 recording, 2 waiting for media, 3 stopping. `body` is the open chunk from
offset 4,096 on and `sent` the offset up to which it has gone to the media; `carry` the rest of a record that was cut;
`closing` the reason for which the chunk is to close; `published` counts publications, `startNo` is its value at `REC.START`
and `firstNo` the recording's first. `closePhase` is the step of R310 that a close has reached, `stopReason` the reason of
the stop and `thermal` says that an orderly thermal stop ends the recording at `cutoff`. `lastSerial` and `frames` count
closed chunks. -/
structure Rec where
  state : Nat := 0
  zmask : Nat := 0
  stripe : Nat := 0
  keySlot : Nat := 0xFF
  preroll : Nat := 0
  chunkMib : Nat := 256
  audioMask : Nat := 0
  tag : Nat := 0
  start : Time := ⟨0, 0⟩
  begun : Bool := false
  startCmd : Option CmdRef := none
  stopCmds : List CmdRef := []
  stopAt : Option Nat := none
  ssds : List Ssd := [{}, {}]
  chunkOpen : Bool := false
  chunkNo : Nat := 0
  fileTag : Nat := 0
  openTime : Time := ⟨0, 0⟩
  body : List Byte := []
  sent : Nat := 4096
  index : List IndexEntry := []
  carry : Option (RingEntry × List Byte) := none
  closing : Option Nat := none
  closePhase : Nat := 0
  stopReason : Nat := 2
  thermal : Bool := false
  lastSerial : Nat := 0
  frames : Nat := 0
  bytes : Nat := 0
  writes : List NvmeWrite := []
  keys : Tbl (Nat × List Byte) := []
  host : List HostAccess := []
  cutoff : Option Time := none
  published : Nat := 0
  startNo : Nat := 0
  firstNo : Nat := 0
  audio : List AudioSeg := []
deriving DecidableEq, Repr

/-- A TDM port (08 R319-R321) and its last 48 word-clock frames (13 R462). -/
structure Tdm where
  lost : Bool := false
  restart : Bool := false
  recent : List (Time × List Nat) := []
deriving DecidableEq, Repr

/-- The checkpoint of an encode session (06 R219): GOP and refresh position; buffer fullness, QP model and bits of recent
pictures; the last coded picture and its picture order count; the reference picture set; the ROI map in force; substitutions
counted; NUM_REFS, SLICE_ROWS and SAO in effect. OUT_QUEUE needs no position: nothing of a picture is written before its
verdict (R220). -/
structure Ckpt where
  gop : Nat
  refresh : Nat
  cycle : Nat := 0
  fullness : Int
  lastCoded : Option Nat
  poc : Nat
  qpModel : Nat := 0
  recent : List Nat := []
  refs : List Nat := []
  roi : List Byte := []
  substituted : Nat := 0
  numRefs : Nat := 1
  sliceRows : Nat := 0
  sao : Bool := false
deriving DecidableEq, Repr

/-- A picture of an encode session from its start to the release of its output (06 R219-R223, 09 R337-R353): its checkpoint,
whether it is an IRAP picture, whether its reference was substituted, its picture order count, bit target and cap, the
configuration that it is coded under, its reference pictures, its refresh band (first CTU column and columns) and cycle, its
tile columns (core, first CTU column, columns; 09 R332), what the cores made of it, its frame's verdict once known, and its
rows and bytes that have entered; `total` is the array target that its target is a share of, `ticks` the periods since the
last IRAP picture, `gap` whether pictures were dropped before it, `idle` the empty periods after it, and `noStats` whether
its statistics are lost (10 R384). -/
structure EncPic where
  serial : Nat
  time : Time
  epoch : Nat
  ckpt : Ckpt
  irap : Bool
  subst : Bool
  late : Bool
  poc : Nat
  target : Nat
  cap : Nat
  cfg : Tbl CfgVal := []
  refs : List Nat := []
  band : Option (Nat × Nat) := none
  cycle : Nat := 0
  total : Nat := 0
  ticks : Option Nat := none
  gap : Bool := false
  idle : Nat := 0
  noStats : Bool := false
  tiles : List (Nat × Nat × Nat) := []
  filler : Nat := 0
  coded : Option CodedPic := none
  verdict : Option Nat := none
  rows : Nat := 0
  input : List Byte := []
deriving DecidableEq, Repr

/-- A frame that waits to be coded: serial, FS time, epoch and its configuration (01 R22), the rows of its tap that have entered the
session, and the picture so far in the tap's slot layout (09 R336). -/
structure EncFrame where
  serial : Nat
  time : Time
  epoch : Nat
  cfg : Tbl CfgVal := []
  rows : Nat := 0
  input : List Byte := []
deriving DecidableEq, Repr

/-- A reconstructed picture in the DPB of an encode session: serial, whether its frame is COMMITTED, its luma plane (06 R219,
R221); its picture order count, and the refresh cycle in which its CTU columns before `edge` are refreshed (09 R339). -/
structure RefPic where
  serial : Nat
  good : Bool
  luma : List (List Nat)
  poc : Nat := 0
  cycle : Nat := 0
  edge : Nat := 0
deriving DecidableEq, Repr

/-- The statistics of an array member for a picture (14 R493): cost, CTUs, bits and target. -/
structure PeerStats where
  cost : Nat
  ctus : Nat
  bits : Nat
  target : Nat
deriving DecidableEq, Repr

/-- An encode session (09 R327-R354): GOP position, refresh position and cycle, the SPS and PPS last written, HRD buffer
fullness, QP model, bits of recent pictures newest first, the decoded picture buffer newest first, the ROI map in force,
SAO, NUM_REFS and SLICE_ROWS in effect, the last coded picture and its picture order count, pictures in the cores, frames
waiting, output in the hold area, and the array's statistics and slices by serial and device. -/
structure EncSess where
  id : Nat
  core : Nat
  cores : Nat
  gop : Nat := 0
  refresh : Nat := 0
  cycle : Nat := 0
  sets : List (List Byte) := []
  fullness : Option Int := none
  qpModel : Nat := 0
  recent : List Nat := []
  dpb : List RefPic := []
  roi : List Byte := []
  sao : Bool := false
  lastCoded : Option Nat := none
  poc : Nat := 0
  numRefs : Nat := 1
  sliceRows : Nat := 0
  pics : List EncPic := []
  waiting : List EncFrame := []
  packets : List (List Byte) := []
  gap : Bool := false
  pictures : Nat := 0
  substituted : Nat := 0
  statRd : Nat := 0
  statWr : Nat := 0
  statDropped : Nat := 0
  lateTold : Bool := false
  closing : Option CmdRef := none
  array : Tbl (Tbl PeerStats) := []
  slices : Tbl (Tbl (List (List Byte))) := []
  due : List EncPic := []
deriving DecidableEq, Repr

/-- A picture in a slot of a decode ring: its output count, FORMAT and size (09 R355). -/
structure DecPic where
  count : Nat
  format : Nat
  width : Nat
  height : Nat
deriving DecidableEq, Repr

/-- An access unit of a decode session, in decoding order (09 R355-R359): the NAL units of its SPS and PPS, its coded video
sequence and picture order count, whether it is an IRAP picture and whether it is output, the pictures that are there for it
to refer to and whether one is missing, its slices by address and offset, whether an error of them loses CTUs, its picture
hash with its offset, whether all of it has been submitted, and whether every picture that it waits for in output order has.
-/
structure DecAu where
  sps : List Byte
  pps : List Byte
  cvs : Nat
  poc : Int
  lsb : Nat
  irap : Bool
  out : Bool
  refs : List Int
  missing : Bool
  slices : List (Nat × Nat)
  broken : Bool := false
  hash : Option (List Byte × Nat) := none
  whole : Bool := false
  flush : Bool := false
deriving DecidableEq, Repr

/-- Where a decode session's parser is: outside an access unit, in one, or in one that is skipped (09 R357). -/
inductive DecOpen where
  | none
  | taking
  | skipping
deriving DecidableEq, Repr

/-- A decode session (09 R329, R334, R355-R359): number, lowest core and mask, its `DEC.OPEN` block, the ring's indexes and
the pictures in its slots, output count, parameter sets, whether an IRAP picture must come, how the cores share the picture
last decoded, the access units that wait for their output, the parser's place, whether a new coded video sequence begins and
the number of the last, whether RASL pictures of its IRAP picture are skipped, the picture order count that the next one
counts on from, the reference pictures of the decoded picture buffer, and the samples of pictures by their sequence. -/
structure DecSess where
  id : Nat
  core : Nat
  cores : Nat
  blk : List Byte
  rd : Nat := 0
  wr : Nat := 0
  count : Nat := 0
  pics : Tbl DecPic := []
  sets : List (List Byte) := []
  waitIrap : Bool := true
  work : List (Nat × Nat × Nat) := []
  aus : List DecAu := []
  parse : DecOpen := .none
  fresh : Bool := true
  cvs : Nat := 0
  noRasl : Bool := true
  poc : Int := 0
  kept : List Int := []
  known : List (Nat × DpbPic) := []
deriving DecidableEq, Repr

/-- The coding cores (09). -/
structure Cod where
  nextId : Nat := 0
  enc : List EncSess := []
  dec : List DecSess := []
deriving DecidableEq, Repr

/-- A real-time port (10 R374, R380-R384). -/
structure RtPort where
  fill : Nat := 0
  panic : Bool := false
  critical : Bool := false
  shed : Bool := false
  due : Bool := false
deriving DecidableEq, Repr

/-- The memory fabric's escalation and the stacks' sensors (10 R371, R381-R383). -/
structure Fabric where
  ports : List RtPort := List.replicate 16 {}
  step : Nat := 0
  scale : Nat := 100
  beStopped : Bool := false
  order : List Nat := []
  since : Nat := 0
  lastShed : Option Nat := none
  hot : List Bool := [false, false]
deriving DecidableEq, Repr

/-- A credited queue (11). -/
structure Queue where
  configured : Bool := false
  size : Nat := 0
  maxPacket : Nat := 0
  level : Nat := 0
  limit : Nat := 0
  base : Nat := 0
  prod : Nat × Nat := (0, 0)
  cons : Nat × Nat := (0, 0)
  occ : Nat := 0
  credits : Nat := 0
  returning : Nat := 0
  packets : List (List Byte) := []
  reading : Bool := false
  crossings : Nat := 0
  peak : Nat := 0
  discarded : Nat := 0
  flushes : List CmdRef := []
  flushDue : Bool := false
deriving DecidableEq, Repr

/-- An update that waits for a flip point (12 R424, R425). -/
structure FlipReq where
  ref : CmdRef
  atTime : Option Time
  plane : Nat
  kind : Nat
  rect : Nat × Nat × Nat × Nat
  data : List Byte
deriving DecidableEq, Repr

/-- A video plane's picture: its serial or output count, its slot, its layout and place in HBM, and whether its retraction
has been told (12 R422, R435; 06 R226). -/
structure PlanePic where
  serial : Nat
  slot : Nat
  format : Nat
  width : Nat
  height : Nat
  base : Nat
  full : Bool
  bt2020 : Bool
  told : Bool := false
deriving DecidableEq, Repr

/-- The head frame in progress: what its flip record will hold, the rows missing at its flip point, what it pushes and the
DSI packets that follow (12 R425, R430, R435). -/
structure FlipRec where
  frame : Nat
  v0 : Nat
  v1 : Nat
  time : Time
  flags : Nat
  written : List Nat
  rects : List (Nat × Nat × Nat × Nat)
  push : Nat
  packets : List (List Byte)
deriving DecidableEq, Repr

/-- A display head (12). Fallback causes in the order of R437; `fbRow` is the first row of the head frame in progress that
shows the fallback colour, `gap` the time between the last two genlock edges, and `lastStart` the grid time in ns at which
that frame began (12 R412). -/
structure Head where
  frames : Nat := 0
  flips : Nat := 0
  genlockLost : Bool := false
  gap : Int := 0
  edge : Option Int := none
  phaseErr : Int := 0
  measured : Int := 0
  fallback : List Nat := []
  vids : List (Option PlanePic) := [none, none]
  prev : List (Option PlanePic) := [none, none]
  front : List (Option Nat) := [none, none]
  palette : List (Tbl Nat) := [[], []]
  requests : List FlipReq := []
  cells : Tbl Bool := []
  idle : Nat := 0
  ulps : Bool := false
  current : Option FlipRec := none
  fbRow : Option Nat := none
  lastStart : Option Int := none
deriving DecidableEq, Repr

/-- A receive slot (13 R466); `seqs` holds the sequence numbers of its packets. -/
structure RxSlot where
  ts : Nat
  first : Time
  written : Nat := 0
  late : Nat := 0
  paths : Nat := 0
  seqs : List Nat := []
  marker : Bool := false
deriving DecidableEq, Repr

/-- A flow of a port (13 R456-R467); `closed` holds RTP timestamp, sequence number and path of what opened the closed slots, newest
first. -/
structure FlowSt where
  seqNo : Nat := 0
  slotAt : Option Int := none
  frame : Option Nat := none
  last : Option Nat := none
  sent : Nat := 0
  total : Nat := 0
  repeatTs : Option Nat := none
  stopped : Bool := false
  lost : List Bool := [false, false]
  rd : Nat := 0
  wr : Nat := 0
  slots : List RxSlot := []
  closed : List (Nat × Nat × Nat) := []
  lateAt : Option Nat := none
  dropped : Option Nat := none
deriving DecidableEq, Repr

/-- A master that a PTP instance has heard (13 R446; IEEE 1588-2019 clause 9.3.2.4): its port identity, its last Announce, and the
ticks at which its last two came. -/
structure Foreign where
  source : Nat
  data : AnnounceData
  ticks : List Nat
deriving DecidableEq, Repr

/-- PTP instance of a port (13 R444-R449). Port states are those of IEEE 1588: 4 LISTENING, 6 MASTER, 8 UNCALIBRATED, 9
SLAVE. A slave holds t1 to t4 of the exchange, and the Sync's correction until its Follow_Up; a master its sequence numbers,
one a message type, and the number and egress time of its last Sync. -/
structure Ptp where
  state : Nat := 4
  foreign : List Foreign := []
  master : Option AnnounceData := none
  masterId : Nat := 0
  t1 : Option Int := none
  t2 : Option Int := none
  t3 : Option Int := none
  t4 : Option Int := none
  syncSeq : Nat := 0
  reqSeq : Nat := 0
  syncCorr : Int := 0
  txSeq : Nat := 0
  announceSeq : Nat := 0
  nextReq : Nat := 0
  sent : Option (Nat × Int) := none
  pathDelay : Int := 0
deriving DecidableEq, Repr

/-- A network port (13). Counters in the order of NET.COUNTERS. -/
structure NetPort where
  up : List Bool := [false, false, false, false]
  counters : List Nat := List.replicate 16 0
  flows : List FlowSt := List.replicate 32 {}
  ptp : Ptp := {}
  corr : Tbl (Int × Int) := []
deriving DecidableEq, Repr

/-- A time engine (13 R450): time in 2^-32 ns, INCREMENT, whether a steering has been applied, and the steering due. -/
structure Engine where
  time : Nat := 0
  incr : Nat := Config.nominalIncrement
  steered : Bool := false
  due : Option CmdRef := none
deriving DecidableEq, Repr

/-- Network time (13 R450-R455, R660): Δ and Φ in 2^-32 ns; on a member of an array the leader's F − S as last told (14 R501). -/
structure TimeSt where
  engines : List Engine := [{}, {}]
  sel : Nat := 0
  delta : Int := 0
  phi : Int := 0
  slewPpb : Nat := 1000
  windowNs : Nat := 50
  auto : Bool := false
  due : List CmdRef := []
  slewing : Bool := false
  slewUs : Nat := 0
  lead : Option Int := none
deriving DecidableEq, Repr

/-- A tether port (14 R478-R480). -/
structure TthPort where
  up : Bool := false
  txSeq : Tbl Nat := []
  rxSeq : Tbl Nat := []
  window : Tbl (List (Nat × TthBody × Nat)) := []
  discarded : Nat := 0
deriving DecidableEq, Repr

/-- The tether and the array (14); `queues` holds producer and consumer of the queues that members have configured, by device
and queue (03 R87); `verdicts` holds the other devices' verdict words by serial and
device (R489), `early` the halo rows of each side that came before their frame's FS, `pipe0` SOURCE, WIDTH and HEIGHT of the
members' stream 0 as last configured (R483), `routeParts` what has come of a queue packet, by queue and source (R491). -/
structure Tth where
  ports : List TthPort := [{}, {}]
  blocks : Tbl (IdleBlock × Nat) := []
  hold : Bool := true
  retractOnLink : Bool := false
  relayMs : Nat := 20
  diverged : Nat := 0
  held : Bool := false
  matches_ : Nat := 0
  lastMatch : Option Nat := none
  timedOut : List (CmdRef × Nat) := []
  backlog : List (Nat × Event) := []
  backlogLost : Tbl Nat := []
  verdicts : Tbl (Tbl Nat) := []
  early : Tbl (List HaloRow) := []
  locked : Bool := false
  goodTimes : Nat := 0
  hopDelay : Int := 0
  unreachable : Nat := 0
  queues : Tbl ((Nat × Nat) × (Nat × Nat)) := []
  everLocked : Bool := false
  pipe0 : Tbl (Nat × Nat × Nat) := []
  routeParts : Tbl (List Byte) := []
deriving DecidableEq, Repr

/-- A high-speed lane (15 R521-R526, 20 R646). Of the last PCIe equalisation, by rate class: the preset that it asked of its
partner, and the coefficients that its partner had its transmitter apply (15 R512). -/
structure Lane where
  syncErr : Nat := 0
  downs : Nat := 0
  locked : Bool := false
  gen : Bool := false
  chk : Bool := false
  pattern : Nat := 0
  loopback : Nat := 0
  inject : Nat := 0
  rate : Nat := 0
  prbsLock : Bool := false
  errors : Nat := 0
  bits : Nat := 0
  override : Option (List Byte) := none
  low : Bool := false
  margin : Nat := 0
  reading : Option CmdRef := none
  asked : Tbl Nat := []
  applied : Tbl Nat := []
deriving DecidableEq, Repr

/-- A motion axis (16): position, speed, last legal Hall state and its sector, the angle of the last sample, the way of the
sectors that an unlocked Hall axis has entered since, the observer
(θ̂ and ω̂ with 16 fractional bits), the count of consistent edges, the runs of bad and good samples. -/
structure Axis where
  p : Int := 0
  speed : Int := 0
  hall : Nat := 0
  sector : Nat := 0
  angle : Nat := 0
  turned : Int := 0
  offset : Int := 0
  wait : Nat := 0
  theta : Int := 0
  omega : Int := 0
  locked : Bool := false
  lockRun : Nat := 0
  edgeRun : Nat := 0
  edgeDir : Int := 1
  lastEdge : Option Nat := none
  period : Nat := 0
  illegal : Option Nat := none
  broken : Bool := false
  badRun : Nat := 0
  goodRun : Nat := 0
  still : Bool := false
  stillRef : Int := 0
  unref : Bool := false
  overspeed : Bool := false
  history : List Int := []
  lens : Nat := 0
  goodLens : Option Nat := none
  counters : List Nat := [0, 0, 0, 0]
  probeP : Int := 0
  stamp : Int := 0
deriving DecidableEq, Repr

/-- Droop state of a power domain (17 R561-R565). -/
structure Droop where
  v : Nat := 0
  stage : Nat := 0
  count : Nat := 0
  entries : Nat := 0
  previous : Nat := 0
  interval : Nat := 0
  told : Bool := false
deriving DecidableEq, Repr

/-- Power metering and snubbing (17 R558-R565). -/
structure Pwr where
  meters : List Nat := List.replicate 24 0
  window : List (List Nat) := []
  throttle : Bool := false
  below : Nat := 0
  droops : List Droop := List.replicate 24 {}
deriving DecidableEq, Repr

/-- Thermal supervision (17 R566-R578). Temperatures in degrees as exact fractions; `warn` and `hot` are WARN and THROTTLE,
`stop` is 0 outside a thermal stop, 1 in STOPPING and 2 in STOPPED. -/
structure Thm where
  nodes : List Rat := List.replicate 12 25
  diodes : List Rat := [25, 25]
  tAmb : Rat := 45
  drift : Bool := false
  builtin : Bool := true
  warn : Bool := false
  hot : Bool := false
  stop : Nat := 0
  stopAt : Time := ⟨0, 0⟩
  cooled : Bool := false
  tripLow : Bool := false
deriving DecidableEq, Repr

/-- Muck-out of one pipe (18 R599-R603): the next slice, the slice running (and whether it runs again after a difference),
the marks of failed slices, the slice to run again in the next window, slices skipped, slices that the cycle has covered, what
remains of the window and what it had at its opening in µs, and whether the next eligible window is used (Taut). -/
structure MckPipe where
  next : Nat := 0
  cur : Option (Nat × Bool) := none
  failed : Nat := 0
  retry : Option Nat := none
  again : Option Nat := none
  skipped : Nat := 0
  covered : Nat := 0
  left : Nat := 0
  opening : Nat := 0
  turn : Bool := true
deriving DecidableEq, Repr

/-- Muck-out (18 R599-R606). -/
structure Mck where
  flags : Nat := 7
  guardUs : Nat := 20
  scrubMbps : Nat := 200
  dwell : Nat := 20
  minWidth : Nat := 16
  minHeight : Nat := 8
  pipes : List MckPipe := [{}, {}, {}]
  cycles : Nat := 0
  lastMs : Nat := 0
  cycleTick : Nat := 0
  rows : Tbl Bool := []
  badRows : Tbl Bool := []
  ecc : Nat := 0
  lanes : Tbl Bool := []
  lanesRead : Nat := 0
  lanesLow : Nat := 0
  lowNow : Nat := 0
  faults : Nat := 0
deriving DecidableEq, Repr

/-- Low-speed outputs and sideband inputs (19 R616, R617; 20 R647); SDI_EN and the outputs of the network modules are computed from
what drives them. -/
structure Pins where
  rpPerst : Nat := 0
  sideband : Nat := 0
  floating : Bool := false
deriving DecidableEq, Repr

/-- The whole block. -/
structure State where
  pending : List Instr := []
  out : List Out := []
  freeCtr : Nat := 0
  tick : Nat := 0
  sys : Sys := {}
  stalls : List Stall := List.replicate 16 {}
  ints : Ints := {}
  bind : Bind := {}
  cmds : List Cmd := []
  cfg : Cfg := {}
  brd : Brd := {}
  csi : List Chan := List.replicate 4 {}
  streams : List StreamSt := List.replicate 17 {}
  pipes : List (Option Nat) := [none, none, none]
  groups : Tbl Group := []
  relays : List Relay := [{}, {}]
  recorder : Rec := {}
  tdm : List Tdm := [{}, {}]
  cod : Cod := {}
  fabric : Fabric := {}
  hbm : Mem := []
  queues : Tbl Queue := []
  heads : List Head := List.replicate 4 {}
  net : List NetPort := [{}, {}]
  time : TimeSt := {}
  tth : Tth := {}
  lanes : List Lane := List.replicate 72 {}
  axes : List Axis := List.replicate 4 {}
  pwr : Pwr := {}
  thm : Thm := {}
  mck : Mck := {}
  pins : Pins := {}
deriving DecidableEq, Repr

/-- The reasons a step may fault. No row of the table stops the machine (INVENTORY 'Faults'). -/
inductive Fault where
  /-- Raised by no meaning: every error of the spec is a status, a counter, an event or an interrupt source. Safe. -/
  | none_
deriving DecidableEq, Repr

/-- The reasons a step may be refused. -/
inductive Refusal where
  /-- Raised by an arm of `exec` for a command that has no meaning yet, by the mnemonic of its row. Safe. -/
  | notModelled (mnemonic : String)
deriving DecidableEq, Repr

/-- The records that F0 finds after a cold start with no valid board table (18 R591, 15 R517, 17 R568). -/
def bootStall : Stall :=
  { evtTail := 3, evtPend := true
    evt := [(0, { code := 0x0003, detail := 0x000701, phase := true }),
            (1, { code := 0x0004, detail := 0x0A, phase := true }),
            (2, { code := 0xA008, cls := 0xA0, phase := true })] }

/-- The machine after a cold start at host-ready (18 R591, R597): a lone device of index 0, both copies of the board
table invalid, every unit owned by F0 and idle, Haul (log 1); the link is up, so the lanes of the endpoint are locked. -/
def State.reset : State :=
  { stalls := bootStall :: List.replicate 15 {}
    ints := { pend := (1#640 <<< 632) ||| (1#640 <<< 626) }
    lanes := List.replicate 64 {} ++ List.replicate 4 { locked := true } ++ List.replicate 4 {}
    pins := { rpPerst := 3 } }

end Sys2Proof.Machine
end

