-- ==== Sys2Proof/Machine/Ops.lean ====
section
/-! DEFINITION. The named operations over the state: sparse maps, HBM bytes, structures in little-endian bytes (00 R3),
CRCs, time (13 R450-R453), units and ownership (03 R85-R87), interrupt sources (03 R97-R105), completions and events
(02 R53-R57). -/

namespace Sys2Proof.Machine

/-! ## Sparse maps in canonical form -/

/-- The value at a key. -/
def Tbl.find? {α : Type} : Tbl α → Nat → Option α
  | [], _ => none
  | (k, v) :: t, n => if k = n then some v else Tbl.find? t n

/-- The value at a key, or the value an unlisted key has. -/
def Tbl.get {α : Type} (d : α) (t : Tbl α) (n : Nat) : α := (Tbl.find? t n).getD d

/-- Lists a key with a value, in its place. -/
def Tbl.set {α : Type} : Tbl α → Nat → α → Tbl α
  | [], n, v => [(n, v)]
  | (k, w) :: t, n, v =>
    if n < k then (n, v) :: (k, w) :: t else if n = k then (n, v) :: t else (k, w) :: Tbl.set t n v

/-- Takes a key from the list. -/
def Tbl.erase {α : Type} : Tbl α → Nat → Tbl α
  | [], _ => []
  | (k, w) :: t, n => if k = n then t else (k, w) :: Tbl.erase t n

/-- Writes a value, and lists it only where it differs from what an unlisted key has. -/
def Tbl.put {α : Type} [DecidableEq α] (d : α) (t : Tbl α) (n : Nat) (v : α) : Tbl α :=
  if v = d then Tbl.erase t n else Tbl.set t n v

/-- Changes the value at a key, where one is listed. -/
def Tbl.modify {α : Type} (t : Tbl α) (n : Nat) (f : α → α) : Tbl α :=
  t.map fun e => if e.1 = n then (e.1, f e.2) else e

/-- Keys strictly rising from a bound. -/
def Tbl.above {α : Type} : Nat → Tbl α → Bool
  | _, [] => true
  | b, (k, _) :: t => decide (b ≤ k) && Tbl.above (k + 1) t

/-- The canonical form of a table: keys strictly rising. -/
def Tbl.wf {α : Type} (t : Tbl α) : Bool := Tbl.above 0 t

/-- The canonical form of a byte memory: addresses strictly rising, no listed byte 0 (log 2). -/
def Mem.wf (m : Mem) : Bool := Tbl.above 0 m && m.all fun c => c.2 != 0

/-- The byte at an address. -/
def Mem.byte (m : Mem) (a : Nat) : Byte := Tbl.get 0 m a

/-- Writes a byte. -/
def Mem.write (m : Mem) (a : Nat) (b : Byte) : Mem := Tbl.put 0 m a b

/-- The bytes from an address on. -/
def Mem.read (m : Mem) (a : Nat) : Nat → List Byte
  | 0 => []
  | n + 1 => Mem.byte m a :: Mem.read m (a + 1) n

/-- Writes bytes from an address on. -/
def Mem.writes (m : Mem) (a : Nat) : List Byte → Mem
  | [] => m
  | b :: bs => Mem.writes (Mem.write m a b) (a + 1) bs

/-- Clears every byte from `a` to `a + n - 1`, as they read 0. -/
def Mem.clear (m : Mem) (a n : Nat) : Mem := m.filter fun c => decide (c.1 < a) || decide (a + n ≤ c.1)

/-! ## Little-endian structures -/

/-- The `n` low bytes of a number, least significant first (00 R3). -/
def leBytes : Nat → Nat → List Byte
  | 0, _ => []
  | n + 1, v => BitVec.ofNat 8 v :: leBytes n (v / 256)

/-- The number that bytes hold, least significant first. -/
def leNat : List Byte → Nat
  | [] => 0
  | b :: bs => b.toNat + 256 * leNat bs

/-- The field of `size` bytes at `off` of a structure; bytes beyond its end read 0. -/
def fieldAt (b : List Byte) (off size : Nat) : Nat := leNat ((b.drop off).take size)

/-- Bit `i` of a number. -/
def bit (v i : Nat) : Bool := v / 2 ^ i % 2 == 1

/-- A Bool as a bit. -/
def b2n (b : Bool) : Nat := if b then 1 else 0

/-- The two's-complement value of the `w` low bits. -/
def signed (w v : Nat) : Int :=
  let r := v % 2 ^ w
  if r < 2 ^ (w - 1) then r else (r : Int) - 2 ^ w

/-- The `w` low bits of a two's-complement number. -/
def unsigned (w : Nat) (v : Int) : Nat := (v % (2 ^ w : Int)).toNat

/-- A time value in its ten bytes (00 R14). -/
def timeBytes (t : Time) : List Byte := leBytes 4 t.nsec ++ leBytes 6 t.sec

/-- The time value at an offset (00 R14). -/
def timeAt (b : List Byte) (off : Nat) : Time := ⟨fieldAt b (off + 4) 6, fieldAt b off 4⟩

/-- Rounds up to a multiple. -/
def alignUp (v a : Nat) : Nat := (v + a - 1) / a * a

/-- Division rounded up. -/
def cdiv (a b : Nat) : Nat := (a + b - 1) / b

/-- Cuts bytes into pieces of at most `n`. -/
def pieces (n : Nat) (b : List Byte) : List (List Byte) :=
  (List.range (cdiv b.length (max n 1))).map fun k => (b.drop (k * max n 1)).take (max n 1)

/-- Nearest integer of a quotient, halves away from zero. -/
def roundDiv (a b : Int) : Int := if a < 0 then -((-a * 2 + b) / (2 * b)) else (a * 2 + b) / (2 * b)

/-- A value held within bounds. -/
def clampI (lo hi v : Int) : Int := if v < lo then lo else if hi < v then hi else v

/-- The absolute value as a natural number. -/
def absI (v : Int) : Nat := v.natAbs

/-! ## CRCs -/

/-- One bit of a CRC register that is not reflected. -/
def crcBit (w poly c : Nat) : Nat :=
  if bit c (w - 1) then (2 * c) % 2 ^ w ^^^ poly else (2 * c) % 2 ^ w

/-- One byte of a CRC that is not reflected. -/
def crcByte (w poly c : Nat) (b : Byte) : Nat :=
  let c0 := c ^^^ (b.toNat * 2 ^ (w - 8))
  crcBit w poly (crcBit w poly (crcBit w poly (crcBit w poly
    (crcBit w poly (crcBit w poly (crcBit w poly (crcBit w poly c0)))))))

/-- CRC-64/ECMA-182 continued from a register value (02 R70). -/
def crc64From (c : Nat) (bs : List Byte) : Nat := bs.foldl (crcByte 64 0x42F0E1EBA9EA3693) c

/-- CRC-64/ECMA-182 (02 R70). -/
def crc64 (bs : List Byte) : Nat := crc64From 0 bs

/-- One bit of a reflected CRC register. -/
def crcBitR (poly c : Nat) : Nat := if c % 2 = 1 then (c / 2) ^^^ poly else c / 2

/-- One byte of a reflected CRC. -/
def crcByteR (poly c : Nat) (b : Byte) : Nat :=
  crcBitR poly (crcBitR poly (crcBitR poly (crcBitR poly
    (crcBitR poly (crcBitR poly (crcBitR poly (crcBitR poly (c ^^^ b.toNat))))))))

/-- CRC-8, polynomial 0x07, initial value 0 (04 R124, 08 R285). -/
def crc8 (bs : List Byte) : Nat := bs.foldl (crcByte 8 0x07) 0

/-- A CRC-32 register of IEEE 802.3 continued over bytes (04 R126). -/
def crc32From (c : Nat) (bs : List Byte) : Nat := bs.foldl (crcByteR 0xEDB88320) c

/-- The value of a CRC-32 register after its final inversion. -/
def crc32End (c : Nat) : Nat := c ^^^ 0xFFFFFFFF

/-- CRC-32 of IEEE 802.3. -/
def crc32 (bs : List Byte) : Nat := crc32End (crc32From 0xFFFFFFFF bs)

/-- The low `n` bits of a number, least significant first. -/
def bitsLsb : Nat → Nat → List Bool
  | 0, _ => []
  | n + 1, v => (v % 2 == 1) :: bitsLsb n (v / 2)

/-- Bits, least significant first, as a number. -/
def ofBitsLsb : List Bool → Nat
  | [] => 0
  | b :: bs => b2n b + 2 * ofBitsLsb bs

/-- Bits packed least significant first into bytes (04 R125). -/
def packLsb : Nat → List Bool → List Byte
  | 0, _ => []
  | n + 1, bs => BitVec.ofNat 8 (ofBitsLsb (bs.take 8)) :: packLsb n (bs.drop 8)

/-- The bits of pixels, one or two samples each (04 R125). -/
def pixelBits (bits : Nat) (dual : Bool) (px : List (Nat × Nat)) : List Bool :=
  px.flatMap fun p => bitsLsb bits p.1 ++ if dual then bitsLsb bits p.2 else []

/-! ## Free values -/

/-- An open value below a bound; `bump` follows every draw (00 R649, log 6). -/
def draw (s : State) (bound : Nat) : Nat := Config.freeNat s.freeCtr % (bound + 1)

/-- Moves on to the next free value. -/
def bump (s : State) : State := { s with freeCtr := s.freeCtr + 1 }

/-! ## Time -/

/-- Units of 2^-32 ns in a second. -/
def secUnits : Nat := 1000000000 * 2 ^ 32

/-- The range of an engine: 48 bits of seconds (13 R450). -/
def timeRange : Nat := 2 ^ 48 * secUnits

/-- The seconds and nanoseconds of a count of 2^-32 ns. -/
def toTime (v : Int) : Time :=
  let u := (v % (timeRange : Int)).toNat
  ⟨u / secUnits, u % secUnits / 2 ^ 32⟩

/-- A time value in nanoseconds. -/
def timeNs (t : Time) : Nat := t.sec * 1000000000 + t.nsec

/-- A time in nanoseconds as a time value. -/
def nsTime (n : Int) : Time := toTime (n * 2 ^ 32)

/-- The time of the selected engine, E, in 2^-32 ns. -/
def engineE (s : State) : Nat := (s.time.engines.getD s.time.sel {}).time

/-- The selected time S = E + Δ (13 R452). -/
def selectedUnits (s : State) : Int := engineE s + s.time.delta

/-- The selected time as a time value. -/
def now (s : State) : Time := toTime (selectedUnits s)

/-- The selected time in nanoseconds. -/
def nowNs (s : State) : Nat := timeNs (now s)

/-- The selected time as a domain stamps it, off by at most one period of the domain's clock (01 R31): `n` counts the stamps of
the domain. The deviation is an open value (log 6). -/
def stampTime (s : State) (domain n : Nat) : Time :=
  let p := Config.capturePeriod domain
  toTime (selectedUnits s + (Config.stampSkew domain n s.tick % (2 * p + 1) : Nat) - p)

/-- The time that a stream's next frame takes at its FS (04 R131). -/
def fsStamp (s : State) (i : Nat) : Time := stampTime s (16 + i) (s.streams.getD i {}).nextSerial

/-- The frame timeline F = E + Φ (13 R453), in nanoseconds. -/
def frameNs (s : State) : Nat := timeNs (toTime (engineE s + s.time.phi))

/-! ## Units, functions, owners -/

/-- First unit number and count of a class of 03 R85. Classes that share a unit share the numbers. -/
def classUnits : Nat → Option (Nat × Nat)
  | 0x10 => some (0, 1)
  | 0x11 => some (1, 4)
  | 0x20 => some (5, 17)
  | 0x21 => some (5, 17)
  | 0x30 => some (22, 16)
  | 0x31 => some (38, 1)
  | 0x32 => some (39, 2)
  | 0x40 => some (41, 6)
  | 0x41 => some (41, 6)
  | 0x51 => some (47, 128)
  | 0x60 => some (175, 4)
  | 0x70 => some (179, 2)
  | 0x71 => some (181, 2)
  | 0x90 => some (183, 4)
  | _ => none

/-- The classes in the order of their unit numbers. -/
def unitClasses : List Nat := [0x10, 0x11, 0x20, 0x30, 0x31, 0x32, 0x40, 0x51, 0x60, 0x70, 0x71, 0x90]

/-- The unit number of an ownable unit of a device. -/
def unitKey (dev cls inst : Nat) : Option Nat :=
  match classUnits cls with
  | some (b, n) => if inst < n then some (dev * 256 + b + inst) else none
  | none => none

/-- The unit that a unit number names. -/
def unitRef (key : Nat) : UnitRef :=
  let k := key % 256
  match unitClasses.find? fun c => match classUnits c with
      | some (b, n) => decide (b ≤ k) && decide (k < b + n)
      | none => false with
  | some c => ⟨key / 256, c, k - ((classUnits c).getD (0, 0)).1⟩
  | none => ⟨key / 256, 0, 0⟩

/-- Owner of a unit (03 R82: F0 after a cold start). -/
def ownerOf (s : State) (key : Nat) : Nat := Tbl.get 0 s.bind.owner key

/-- Binding epoch of a unit (03 R82: 1 after a cold start). -/
def epochOf (s : State) (key : Nat) : Nat := Tbl.get 1 s.bind.epoch key

/-- Whether a function exists (03 R80). -/
def fnExists (s : State) (f : Nat) : Bool := f == 0 || (s.sys.vfEnable && decide (f ≤ s.sys.numVfs) && decide (f < 16))

/-- Whether a unit is ordered to its safe state or in it (03 R93): 0 no, 1 ordered, 2 reached. -/
def safeOf (s : State) (key : Nat) : Nat := Tbl.get 0 s.bind.safe key

/-- Unit number of a unit of this device. -/
def myUnit (s : State) (cls inst : Nat) : Nat := (unitKey s.sys.device cls inst).getD 0

/-- Whether this device is the array's leader, or a lone device (14 R473). -/
def isLeader (s : State) : Bool := s.sys.device == 0

/-- Whether a unit neither is nor goes to its safe state. -/
def unitLive (s : State) (cls inst : Nat) : Bool := safeOf s (myUnit s cls inst) == 0

/-- Whether the Groom, the fabric and the endpoint are clocked: not in a reset, in retention or after a hard trip, and in
STOPPED only once the device has cooled (17 R573, R575). -/
def groomOn (s : State) : Bool :=
  s.sys.ready && (s.sys.phase == .running || (s.sys.phase == .stopped && s.thm.cooled))

/-! ## Stalls -/

/-- The stall of a function. -/
def stall (s : State) (f : Nat) : Stall := s.stalls.getD f {}

/-- Changes the stall of a function. -/
def modStall (f : Nat) (g : Stall → Stall) (s : State) : State := { s with stalls := s.stalls.modify f g }

/-- Adds to what has left the device (log 5). -/
def emit (o : Out) (s : State) : State := { s with out := s.out ++ [o] }

/-- Interrupt state of a function. -/
def fnInt (s : State) (f : Nat) : FnInt := s.ints.fns.getD f {}

/-- Changes the interrupt state of a function. -/
def modFnInt (f : Nat) (g : FnInt → FnInt) (s : State) : State :=
  { s with ints := { s.ints with fns := s.ints.fns.modify f g } }

/-! ## Interrupt sources -/

/-- The unit of the RT port that a port source follows (10 R390). -/
def rtUnit : Nat → Option Nat
  | 0 => some 0
  | 1 => some 5
  | 4 => some 175
  | 5 => some 176
  | 6 => some 177
  | 7 => some 178
  | 8 => some 179
  | 10 => some 179
  | 9 => some 180
  | 11 => some 180
  | _ => none

/-- The unit, by its number on a device of index 0, of an interrupt source (04 R165, 07 R278, 08 R325, 09 R361, 10 R390,
11 R398, 12 R439, 13 R472, 16 R551). -/
def sourceUnit (n : Nat) : Option Nat :=
  if n < 76 then some 0
  else if n < 96 then some (1 + (n - 76) / 5)
  else if n < 128 then some 5
  else if n < 192 then some (6 + (n - 128) / 4)
  else if n < 264 then some (41 + (n - 192) / 12)
  else if n < 280 then some (22 + (n - 264))
  else if n < 296 then some (22 + (n - 280))
  else if n < 304 then some 38
  else if n < 306 then some (39 + (n - 304))
  else if n < 320 then none
  else if n < 336 then rtUnit (n - 320)
  else if n < 352 then rtUnit (n - 336)
  else if n < 368 then none
  else if n < 496 then some (47 + (n - 368))
  else if n < 528 then some (175 + (n - 496) / 8)
  else if n < 544 then some (179 + (n - 528) / 8)
  else if n < 560 then some (181 + (n - 544) / 8)
  else if n < 592 then none
  else if n < 616 then some (183 + (n - 592) / 6)
  else none

/-- Whether a real-time port is shed (10 R384). -/
def portShed (s : State) (k : Nat) : Bool := (s.fabric.ports.getD k {}).shed

/-- INT_ROUTE_n (03 R98). -/
def routeOf (s : State) (n : Nat) : Route := Tbl.get {} s.ints.routes n

/-- The function that a source goes to (03 R98, R99). -/
def targetOf (s : State) (n : Nat) : Nat :=
  let r := routeOf s n
  if r.fixed then (if fnExists s r.func then r.func else 0)
  else match sourceUnit n with
    | some k => ownerOf s (s.sys.device * 256 + k)
    | none => 0

/-- Whether a source is pending. -/
def isPending (s : State) (n : Nat) : Bool := s.ints.pend.getLsbD n

/-- Whether a function's mask bit of a source is set. -/
def isMasked (s : State) (f n : Nat) : Bool := (fnInt s f).intMask.getLsbD n

/-- Whether a function may send the message of a vector (03 R102, R103, R105). -/
def canSend (s : State) (f v : Nat) : Bool :=
  groomOn s && s.sys.linkUp && isLeader s && (fnInt s f).msixEnable && !(fnInt s f).fnMask &&
    !(fnInt s f).vecMask.getLsbD v

/-- Sends the message of a vector, which then awaits acknowledgement (03 R102). -/
def sendVector (f v : Nat) (s : State) : State :=
  { s with out := s.out ++ [.msix f v]
           ints := { s.ints with fns := s.ints.fns.modify f fun x => { x with await := x.await ||| (1#64 <<< v) } } }

/-- Signals a vector that is not awaiting acknowledgement (03 R102, R103). -/
def trySignal (f v : Nat) (s : State) : State :=
  if canSend s f v && !(fnInt s f).await.getLsbD v then sendVector f v s else s

/-- Vector of a source at its target. -/
def vectorOf (s : State) (n : Nat) : Nat := (routeOf s n).vector

/-- Whether a vector of a function has a pending, unmasked source (03 R102, 20 R640). -/
def vectorDue (s : State) (f v : Nat) : Bool :=
  if v = 0 then (stall s f).cplPend && !(stall s f).cplMask
  else if v = 1 then (stall s f).evtPend && !(stall s f).evtMask
  else (List.range 640).any fun n =>
    isPending s n && vectorOf s n == v && targetOf s n == f && !isMasked s f n

/-- Signals a vector again where a source of it is pending (03 R102, R103). -/
def resignal (f v : Nat) (s : State) : State := if vectorDue s f v then trySignal f v s else s

/-- The completion interrupt source of a stall (02 R55, 03 R97). -/
def raiseCpl (f : Nat) (s : State) : State :=
  let s1 := modStall f (fun x => { x with cplPend := true }) s
  if (stall s f).cplMask || (stall s f).cplPend then s1 else trySignal f 0 s1

/-- The event interrupt source of a stall (03 R97). -/
def raiseEvt (f : Nat) (s : State) : State :=
  let s1 := modStall f (fun x => { x with evtPend := true }) s
  if (stall s f).evtMask || (stall s f).evtPend then s1 else trySignal f 1 s1

/-! ## Completions and events -/

/-- PHASE of a free-running index of a ring (02 R54). -/
def phaseOf (idx : Idx) (size : Nat) : Bool := idx.toNat / size % 2 == 0

/-- Entries in use between two free-running indices. -/
def used (tail head : Idx) : Nat := (tail - head).toNat

/-- TIME of an event for a function: the Groom's stamp (02 R56, 01 R31). -/
def eventTime (f : Nat) (s : State) : Time := stampTime s 8 ((stall s f).evtTail.toNat + 65536 * f + 2 ^ 20 * s.out.length)

/-- Writes an event record to a ring that has a free entry (02 R56). -/
def writeEvent (f : Nat) (e : Event) (s : State) : State :=
  raiseEvt f (modStall f (fun x =>
    { x with evt := Tbl.set x.evt (x.evtTail.toNat % 256) { e with phase := phaseOf x.evtTail 256 }
             evtTail := x.evtTail + 1 }) s)

/-- Changes a tether port. -/
def modPort (p : Nat) (g : TthPort → TthPort) (s : State) : State :=
  { s with tth := { s.tth with ports := s.tth.ports.modify p g } }

/-- Whether a tether packet is kept until it is acknowledged (14 R478); an acknowledgement is not (log 44). -/
def tthKept (cls : Nat) (b : TthBody) : Bool :=
  match b with
  | .verdict _ _ => true
  | .ack _ _ => false
  | _ => decide (2 ≤ cls)

/-- Whether a port sends a class: it is up, in Slack classes 0 and 2 only (17 R553), and class 0 alone while it is shed
(14 R504). -/
def tthOpen (s : State) (p cls : Nat) : Bool :=
  (s.tth.ports.getD p {}).up && (s.sys.profile != 3 || cls == 0 || cls == 2) &&
    (cls == 0 || !(s.fabric.ports.getD (12 + p) {}).shed)

/-- TYPE of a payload (14 R477; stop signals as log 44 says). -/
def bodyType : TthBody → Nat
  | .idle _ => 1
  | .halo _ => 2
  | .verdict _ _ => 3
  | .command _ => 4
  | .completion _ _ _ => 5
  | .event _ _ => 6
  | .lostEvents _ _ => 6
  | .ack _ _ => 7
  | .time _ _ => 8
  | .stats _ _ _ _ _ => 9
  | .slices _ _ => 10
  | .route _ _ _ => 11
  | .merge _ _ _ _ _ _ _ => 11
  | .prepare _ _ _ _ _ _ => 12
  | .prepared _ _ _ => 12
  | .go _ _ _ => 12
  | .stopSignal _ => 12
  | .groom _ => 12

/-- The bytes of an idle control block (14 R494). -/
def idleBytes (x : IdleBlock) : List Byte :=
  leBytes 4 x.epoch ++ leBytes 2 x.serial ++ leBytes 1 x.device ++
    leBytes 1 (b2n x.running + 2 * b2n x.thermalStop + 4 * b2n x.farPortUp) ++ leBytes 8 x.digest ++ timeBytes x.fsTime ++
    leBytes 1 x.profile ++ leBytes 5 0

/-- The bytes of a halo row: its header and its packed samples (14 R486, 04 R125). -/
def haloBytes (x : HaloRow) : List Byte :=
  leBytes 2 x.arrayRow ++ leBytes 2 x.serial ++ leBytes 1 x.flags ++ leBytes 3 0 ++
    packLsb (8 * cdiv (x.pixels.length * x.bits * (1 + b2n x.dual)) 64) (pixelBits x.bits x.dual x.pixels)

/-- The payload of a tether packet, padded to words, at most 256 of them (14 R477); where the spec gives no layout, an open
value. -/
def tthPayload (b : TthBody) : List Byte :=
  let d := match b with
    | .idle x => idleBytes x
    | .halo x => haloBytes x
    | _ => (Config.tthPayload b).take 2048
  d ++ List.replicate (8 * cdiv d.length 8 - d.length) 0

/-- A tether packet on its way: the header and the payload words, and the CRC-32 that its EOP carries (14 R477, 04 R126). -/
def tthOut (p cls seq : Nat) (b : TthBody) (route : Nat) : Out :=
  let w := tthPayload b
  let h := leBytes 1 (bodyType b) ++ leBytes 1 route ++ leBytes 2 seq ++ leBytes 2 (w.length / 8) ++ [0]
  let k := h ++ leBytes 1 (crc8 h) ++ w
  .tether p cls k (crc32 k) b

/-- Sends a tether packet with a ROUTE byte on a port: it takes the next SEQ of its class; a retransmitted packet joins the
window, of which at most 64 packets are on their way (14 R477-R479). -/
def tthPut (p cls : Nat) (b : TthBody) (route : Nat) (s : State) : State :=
  let x := s.tth.ports.getD p {}
  let q := Tbl.get 0 x.txSeq cls
  let w := Tbl.get [] x.window cls
  let s1 := modPort p (fun y =>
    { y with txSeq := Tbl.set y.txSeq cls ((q + 1) % 65536)
             window := if tthKept cls b then Tbl.set y.window cls (w ++ [(q, b, route)]) else y.window }) s
  if tthOpen s p cls && (!tthKept cls b || decide (w.length < 64)) then emit (tthOut p cls q b route) s1 else s1

/-- Sends a packet of this device. -/
def tthSend (p cls : Nat) (b : TthBody) (dst : Nat) (bcast : Bool) (s : State) : State :=
  tthPut p cls b (s.sys.device + 4 * dst + 16 * b2n bcast) s

/-- Sends again from the first unacknowledged packet of a class (14 R479). -/
def tthResend (p cls : Nat) (s : State) : State :=
  if tthOpen s p cls then
    ((Tbl.get [] (s.tth.ports.getD p {}).window cls).take 64).foldl (fun t e => emit (tthOut p cls e.1 e.2.1 e.2.2) t) s
  else s

/-- The port on which a device lies: T0 towards lower devices, T1 towards higher ones (14 R474). -/
def portTo (s : State) (d : Nat) : Nat := if d < s.sys.device then 0 else 1

/-- Sends on every wired port (14 R474, R478). -/
def tthBroadcast (cls : Nat) (b : TthBody) (s : State) : State :=
  let s1 := if s.sys.device = 0 then s else tthSend 0 cls b 0 true s
  if s.sys.device + 1 < s.sys.arraySize then tthSend 1 cls b 0 true s1 else s1

/-- A member's event for a stall of the leader: sent, or kept while the leader cannot be reached, up to 1,024, and counted
beyond (14 R482). -/
def memberEvent (f : Nat) (e : Event) (s : State) : State :=
  if (s.tth.ports.getD 0 {}).up then tthSend 0 2 (.event f e) 0 false s
  else if s.tth.backlog.length < 1024 then { s with tth := { s.tth with backlog := s.tth.backlog ++ [(f, e)] } }
  else { s with tth := { s.tth with backlogLost := Tbl.set s.tth.backlogLost f (Tbl.get 0 s.tth.backlogLost f + 1) } }

/-- An event for a function: written, or counted while the ring is full (02 R57); discarded for a function that does not
exist (03 R84). A member sends it to the leader (14 R482). -/
def postEvent (f : Nat) (e : Event) (s : State) : State :=
  if !isLeader s then memberEvent f e s
  else if !fnExists s f then s
  else if 256 ≤ used (stall s f).evtTail (stall s f).evtHead then
    modStall f (fun x => { x with evtLost := x.evtLost + 1 }) s
  else writeEvent f e s

/-- An event of a unit of this device, for its owner, tagged with its binding epoch (02 R56, 03 R89). -/
def unitEvent (code cls inst : Nat) (frame : Option Nat) (detail : Nat) (s : State) : State :=
  let key := myUnit s cls inst
  postEvent (ownerOf s key)
    { code := code, cls := cls, device := s.sys.device, unit := inst, bindEpoch := epochOf s key
      time := eventTime (ownerOf s key) s
      frame := frame, detail := detail } s

/-- An event of a block that no function owns: to F0, with binding epoch 0 (log 11). -/
def sysEvent (code cls unit detail : Nat) (s : State) : State :=
  postEvent 0 { code := code, cls := cls, device := s.sys.device, unit := unit, time := eventTime 0 s, detail := detail } s

/-- A source becomes pending: never while ENABLE is 0; the message of its vector goes out under 03 R102. A member sends
`EV_MEMBER_SOURCE` in its place and clears the source (03 R105). -/
def raise (n : Nat) (s : State) : State :=
  if !(routeOf s n).enable then s
  else if !isLeader s then
    postEvent (targetOf s n)
      { code := 0x8007, cls := 0x80, device := s.sys.device, time := eventTime (targetOf s n) s, detail := n + s.sys.device * 1024 } s
  else
    let f := targetOf s n
    let s1 := { s with ints := { s.ints with pend := s.ints.pend ||| (1#640 <<< n) } }
    if isPending s n || isMasked s f n then s1 else trySignal f (vectorOf s n) s1

/-- What a command answers with: the fields of its completion (02 R53), and the bytes of its results over the parameter
region (02 R651). -/
structure Reply where
  status : Nat := 0
  deferred : Bool := false
  detailSize : Bool := false
  detailSpace : Nat := 0
  detail : Nat := 0
  result0 : Nat := 0
  result1 : Nat := 0
  data : List Byte := []
deriving DecidableEq, Repr

/-- Writes a completion entry (02 R53-R55). -/
def writeCpl (f : Nat) (c : Completion) (notify : Bool) (s : State) : State :=
  let s1 := modStall f (fun x =>
    { x with cpl := Tbl.set x.cpl (x.cplTail.toNat % 128) { c with phase := phaseOf x.cplTail 128 }
             cplTail := x.cplTail + 1 }) s
  if notify then raiseCpl f s1 else s1

/-- The SEQ before one (02 R45). -/
def prevSeq (q last : Word) : Word := if q = 1 then (if last = 0 then 0 else 0xFFFFFFFF) else q - 1

/-- LAST_COMPLETED after the commands that remain (02 R67). -/
def lastDone (s : State) (f : Nat) : Word :=
  match s.cmds.find? fun c => c.fn == f && !c.detached with
  | some c => prevSeq c.seq (stall s f).lastCompleted
  | none => (stall s f).lastAccepted

/-- The completion of a command under a reply. -/
def replyCpl (c : Cmd) (bind : Nat) (relayed : Bool) (r : Reply) : Completion :=
  { seq := c.seq, opcode := c.opcode, status := r.status, bindEpoch := bind, relayed := relayed, deferred := r.deferred
    detailSize := r.detailSize, detailSpace := r.detailSpace, detail := r.detail, result0 := r.result0
    result1 := r.result1 }

/-- Whether a command is the one a reference names. -/
def Cmd.is (c : Cmd) (r : CmdRef) : Bool := c.fn == r.fn && c.seq == r.seq && !c.detached

/-- Takes a command from the accepted ones. -/
def dropCmd (c : Cmd) (s : State) : State :=
  { s with cmds := s.cmds.filter fun x => !(x.fn == c.fn && x.seq == c.seq && x.detached == c.detached) }

/-- Bytes laid over the segments of a descriptor, in order (02 R651). -/
def hostWrites : List (Nat × Nat) → List Byte → List Out
  | [], _ => []
  | (a, n) :: t, bs => (if bs.take n = [] then [] else [.hostWrite a (bs.take n)]) ++ hostWrites t (bs.drop n)

/-- Results over the parameter region, with RESULT_TO_PAYLOAD set (02 R651). -/
def writeResults (c : Cmd) (bs : List Byte) (s : State) : State :=
  if !bit c.flags 4 then s
  else if c.ploc = 1 then modStall c.fn (fun x => { x with mem := Mem.writes x.mem (0x10000 + c.ploff) bs }) s
  else if c.ploc = 2 then { s with out := s.out ++ hostWrites c.segs bs }
  else s

/-- Completes an accepted command: its results, a completion entry in its stall, LAST_COMPLETED advanced and NOTIFY
signalled; a member sends the completion to the leader; the completion of a detached command is discarded (02 R66), and a copy
has none. -/
def completeWith (c : Cmd) (bind : Nat) (relayed : Bool) (r : Reply) (s : State) : State :=
  let s1 := dropCmd c s
  if c.detached || c.copy then s1
  else if !isLeader s then tthSend 0 2 (.completion c.fn (replyCpl c bind true r) r.data) 0 false s1
  else
    writeCpl c.fn (replyCpl c bind relayed r) (bit c.flags 2)
      (modStall c.fn (fun x => { x with lastCompleted := lastDone s1 c.fn }) (writeResults c r.data s1))

/-- Completes a command under the binding epoch that step 6 passed it with (02 R53). -/
def complete (c : Cmd) (r : Reply) (s : State) : State := completeWith c c.bind false r s

/-- The answer `ST_OK` with two results. -/
def okReply (r0 r1 : Nat) : Reply := { result0 := r0, result1 := r1 }

/-- The answer `ST_BAD_PARAM` with the offset of a field (02 R53). -/
def badParam (off : Nat) : Reply := { status := 0x11, detail := off }

/-- The answer `ST_BAD_PARAM` with a required size in bytes (02 R53, DETAIL_SIZE). -/
def badSize (bytes : Nat) : Reply := { status := 0x11, detailSize := true, detail := cdiv bytes 4096 }

/-- The first refusal of a list of checks. -/
def firstFail : List (Option Reply) → Option Reply
  | [] => none
  | some r :: _ => some r
  | none :: t => firstFail t

/-- A refusal where a condition fails. -/
def need (ok : Bool) (r : Reply) : Option Reply := if ok then none else some r

/-! ## Configuration in use -/

/-- The place of a parameter block: opcode, unit instance, slot. -/
def cfgKey (op unit slot : Nat) : Nat := op * 65536 + unit * 256 + slot

/-- The block that a unit works with now. -/
def activeBlk (s : State) (op unit slot : Nat) : Option (List Byte) :=
  (Tbl.find? s.cfg.active (cfgKey op unit slot)).map (·.blk)

/-- The committed block of a unit. -/
def committedBlk (s : State) (op unit slot : Nat) : Option (List Byte) :=
  (Tbl.find? s.cfg.committed (cfgKey op unit slot)).map (·.blk)

/-- Changes a stream. -/
def modStream (i : Nat) (g : StreamSt → StreamSt) (s : State) : State := { s with streams := s.streams.modify i g }

/-- A stream. -/
def stream (s : State) (i : Nat) : StreamSt := s.streams.getD i {}

/-- Bytes of HBM written by a unit; an access outside the map of 10 R365 is dropped and raises source 360 (10 R390). -/
def hbmWrite (a : Nat) (bs : List Byte) (s : State) : State :=
  if a + bs.length ≤ Config.hbmEnd then { s with hbm := Mem.writes s.hbm a bs } else raise 360 s

/-- Changes a lane. -/
def modLane (l : Nat) (g : Lane → Lane) (s : State) : State := { s with lanes := s.lanes.modify l g }

/-- A lane. -/
def lane (s : State) (l : Nat) : Lane := s.lanes.getD l {}

/-- The receivers of some lanes lock, or lose their lock, which is counted (20 R646). -/
def lanesTurn (up : Bool) (l : List Nat) (s : State) : State :=
  l.foldl (fun t k => modLane k (fun x => { x with locked := up, downs := if up || !x.locked then x.downs else min 255 (x.downs + 1) }) t) s

/-- Whether a loopback forces a lane's interface off (15 R523). -/
def forcedOff (s : State) (l : Nat) : Bool := (lane s l).loopback != 0

/-- A unit's read of HBM: one outside the map of 10 R365 is dropped, what it would have brought is as of a memory that nothing has
written, and source 360 is raised (10 R390). -/
def hbmTouch (a n : Nat) (s : State) : State := if a + n ≤ Config.hbmEnd then s else raise 360 s

/-- Bytes of HBM. -/
def hbmRead (s : State) (a n : Nat) : List Byte := Mem.read s.hbm a n

end Sys2Proof.Machine
end

