-- ==== Sys2Proof/Machine/Ciphers.lean ====
section
/-! DEFINITION. AES-256-XTS of IEEE 1619, which encrypts a chunk's data units (08 R317), and SHA-384, the digest of the board
table (15 R516, R520). Both functions are the named standards' (log 55). -/

namespace Sys2Proof.Machine

/-! ## AES-256 (08 R317) -/

/-- A byte times x in GF(2^8) with the polynomial x^8 + x^4 + x^3 + x + 1. -/
def gfDouble (a : Nat) : Nat := if a < 128 then 2 * a else (2 * a) % 256 ^^^ 0x1B

/-- Product of two bytes in GF(2^8), over `n` bits of the second. -/
def gfMulBits : Nat → Nat → Nat → Nat
  | 0, _, _ => 0
  | n + 1, a, b => (if b % 2 = 1 then a else 0) ^^^ gfMulBits n (gfDouble a) (b / 2)

/-- Product of two bytes in GF(2^8). -/
def gfMul (a b : Nat) : Nat := gfMulBits 8 a b

/-- Inverse of a byte in GF(2^8), its 254th power; 0 for 0. -/
def gfInv (a : Nat) : Nat :=
  let a2 := gfMul a a
  let a4 := gfMul a2 a2
  let a8 := gfMul a4 a4
  let a16 := gfMul a8 a8
  let a32 := gfMul a16 a16
  let a64 := gfMul a32 a32
  let a128 := gfMul a64 a64
  gfMul a2 (gfMul a4 (gfMul a8 (gfMul a16 (gfMul a32 (gfMul a64 a128)))))

/-- A byte rotated left. -/
def rotByte (a n : Nat) : Nat := a * 2 ^ n % 256 ||| a / 2 ^ (8 - n)

/-- A value of the AES S-box: the inverse, then the affine map. -/
def sBoxOf (a : Nat) : Nat :=
  let b := gfInv a
  b ^^^ rotByte b 1 ^^^ rotByte b 2 ^^^ rotByte b 3 ^^^ rotByte b 4 ^^^ 0x63

/-- The AES S-box. -/
def sBox : List Nat := (List.range 256).map sBoxOf

/-- The S-box on each byte. -/
def subBytes (box l : List Nat) : List Nat := l.map fun b => box.getD b 0

/-- Byte-wise exclusive or. -/
def xorBytes (a b : List Nat) : List Nat := List.zipWith (· ^^^ ·) a b

/-- The next words of the key schedule: word `i` from the word before it and the word eight before it; words are kept newest
first. -/
def keyWords (box : List Nat) : Nat → Nat → List (List Nat) → List (List Nat)
  | 0, _, ws => ws
  | n + 1, i, ws =>
    let w := ws.headD []
    let t := if i % 8 = 0 then xorBytes (subBytes box (w.drop 1 ++ w.take 1)) [2 ^ (i / 8 - 1), 0, 0, 0]
      else if i % 8 = 4 then subBytes box w else w
    keyWords box n (i + 1) (xorBytes (ws.getD 7 []) t :: ws)

/-- The fifteen round keys of a 32-byte key. -/
def roundKeys (box key : List Nat) : List (List Nat) :=
  let ws := (keyWords box 52 8 ((List.range 8).map fun i => (key.drop (4 * i)).take 4).reverse).reverse
  (List.range 15).map fun r => ((ws.drop (4 * r)).take 4).flatten

/-- ShiftRows: byte r of column c comes from column c + r. -/
def shiftRows (s : List Nat) : List Nat := (List.range 16).map fun n => s.getD ((n + 4 * (n % 4)) % 16) 0

/-- MixColumns. -/
def mixColumns (s : List Nat) : List Nat :=
  (List.range 16).map fun n =>
    let at_ (k : Nat) : Nat := s.getD (n / 4 * 4 + (n + k) % 4) 0
    gfDouble (at_ 0) ^^^ (gfDouble (at_ 1) ^^^ at_ 1) ^^^ at_ 2 ^^^ at_ 3

/-- AES-256 of a block of 16 bytes under its round keys. -/
def aesBlock (box : List Nat) (ks : List (List Nat)) (b : List Nat) : List Nat :=
  let s := ((ks.drop 1).take 13).foldl (fun s k => xorBytes (mixColumns (shiftRows (subBytes box s))) k)
    (xorBytes b (ks.getD 0 []))
  xorBytes (shiftRows (subBytes box s)) (ks.getD 14 [])

/-- A tweak times α in GF(2^128), bytes least significant first. -/
def tweakDouble (t : Nat) : Nat := 2 * t % 2 ^ 128 ^^^ (if t < 2 ^ 127 then 0 else 0x87)

/-- The blocks of a data unit, each under its tweak. -/
def xtsBlocks (box : List Nat) (ks : List (List Nat)) : Nat → Nat → List Nat → List Nat
  | 0, _, _ => []
  | n + 1, t, data =>
    let m := (leBytes 16 t).map (·.toNat)
    xorBytes (aesBlock box ks (xorBytes (data.take 16) m)) m ++ xtsBlocks box ks n (tweakDouble t) (data.drop 16)

/-- AES-256-XTS of a data unit of whole blocks: the first half of the key encrypts the blocks and the second the tweak
(08 R317, IEEE 1619). -/
def aesXts (key : List Byte) (tweak : Nat) (data : List Byte) : List Byte :=
  let box := sBox
  let k := key.map (·.toNat)
  let t := aesBlock box (roundKeys box ((k.drop 32).take 32)) ((leBytes 16 tweak).map (·.toNat))
  (xtsBlocks box (roundKeys box (k.take 32)) (data.length / 16) (leNat (t.map fun b => BitVec.ofNat 8 b))
    (data.map (·.toNat))).map fun b => BitVec.ofNat 8 b

/-! ## SHA-384 (15 R516, R520) -/

/-- The largest n-bit number whose `e`-th power is at most `v`, found bit by bit from the top. -/
def rootBits (e v : Nat) : Nat → Nat → Nat
  | 0, r => r
  | n + 1, r => rootBits e v n (if (r + 2 ^ n) ^ e ≤ v then r + 2 ^ n else r)

/-- The first 64 bits of the fractional part of a root of a number. -/
def rootFraction (e p : Nat) : Nat := rootBits e (p * 2 ^ (64 * e)) 70 0 % 2 ^ 64

/-- The first 80 primes: the numbers from 2 to 409 that no smaller one from 2 divides. -/
def shaPrimes : List Nat := ((List.range 410).drop 2).filter fun n => ((List.range 21).drop 2).all fun d => n % d != 0 || d == n

/-- A 64-bit word rotated right. -/
def ror64 (x n : Nat) : Nat := x / 2 ^ n ||| x * 2 ^ (64 - n) % 2 ^ 64

/-- The message schedule: the next `n` words, kept newest first. -/
def shaSchedule : Nat → List Nat → List Nat
  | 0, ws => ws
  | n + 1, ws =>
    let w2 := ws.getD 1 0
    let w15 := ws.getD 14 0
    let s1 := ror64 w2 19 ^^^ ror64 w2 61 ^^^ w2 / 64
    let s0 := ror64 w15 1 ^^^ ror64 w15 8 ^^^ w15 / 128
    shaSchedule n ((s1 + ws.getD 6 0 + s0 + ws.getD 15 0) % 2 ^ 64 :: ws)

/-- One round on the working variables a to h. -/
def shaRound (v : List Nat) (kw : Nat) : List Nat :=
  let a := v.getD 0 0
  let e := v.getD 4 0
  let ch := (e &&& v.getD 5 0) ^^^ ((2 ^ 64 - 1 - e) &&& v.getD 6 0)
  let t1 := v.getD 7 0 + (ror64 e 14 ^^^ ror64 e 18 ^^^ ror64 e 41) + ch + kw
  let maj := (a &&& v.getD 1 0) ^^^ (a &&& v.getD 2 0) ^^^ (v.getD 1 0 &&& v.getD 2 0)
  let t2 := (ror64 a 28 ^^^ ror64 a 34 ^^^ ror64 a 39) + maj
  [(t1 + t2) % 2 ^ 64, a, v.getD 1 0, v.getD 2 0, (v.getD 3 0 + t1) % 2 ^ 64, e, v.getD 5 0, v.getD 6 0]

/-- A block of 128 bytes into the hash value. -/
def shaBlock (ks h : List Nat) (b : List Byte) : List Nat :=
  let w := (List.range 16).map fun i => leNat ((b.drop (8 * i)).take 8).reverse
  let ws := (shaSchedule 64 w.reverse).reverse
  List.zipWith (fun x y => (x + y) % 2 ^ 64) h ((List.zipWith (· + ·) ks ws).foldl shaRound h)

/-- SHA-384 of a byte string: its 48 bytes, the first at the lowest address, as the fuse field holds them (15 R520, log 20). -/
def sha384 (m : List Byte) : Nat :=
  let ks := shaPrimes.map (rootFraction 3)
  let h0 := ((shaPrimes.drop 8).take 8).map (rootFraction 2)
  let pad := m ++ [0x80] ++ List.replicate ((239 - m.length % 128) % 128) 0 ++ (leBytes 16 (8 * m.length)).reverse
  let h := (List.range (pad.length / 128)).foldl (fun h k => shaBlock ks h ((pad.drop (128 * k)).take 128)) h0
  leNat ((h.take 6).flatMap fun x => (leBytes 8 x).reverse)

end Sys2Proof.Machine
end

