-- ==== Sys2Proof/Machine/Board.lean ====
section
/-! DEFINITION. The board table of the serial flash (15 R514-R520): its directory, its sections, and what a copy is worth. -/

namespace Sys2Proof.Machine

/-- The directory of a board table: TYPE, COUNT and OFFSET of each section (15 R515). -/
def boardDir (b : List Byte) : List (Nat × Nat × Nat) :=
  (List.range (min 16 (fieldAt b 6 2))).map fun k =>
    (fieldAt b (0x20 + 8 * k) 1, fieldAt b (0x22 + 8 * k) 2, fieldAt b (0x24 + 8 * k) 4)

/-- Bytes of an entry of a section TYPE (15 R518, R519; 17 R567). -/
def entrySize (type : Nat) : Nat := [0, 16, 12, 8, 656].getD type 0

/-- The entries of the sections of a TYPE. -/
def boardEntries (b : List Byte) (type : Nat) : List (List Byte) :=
  ((boardDir b).filter (·.1 == type)).flatMap fun e =>
    (List.range e.2.1).map fun k => (b.drop (e.2.2 + entrySize type * k)).take (entrySize type)

/-- The thermal section of a board table: its entry of 656 bytes (17 R567). -/
def thermalSection (b : List Byte) : List Byte := (boardEntries b 4).headD []

/-- RX_CORR and TX_CORR of an interface in 2⁻¹⁶ ns (15 R519): 0 without an entry. -/
def boardCorr (b : List Byte) (iface sub mode : Nat) : Int × Int :=
  match (boardEntries b 2).find? fun e => fieldAt e 0 1 == iface && fieldAt e 1 1 == sub && fieldAt e 2 1 == mode with
  | some e => (signed 32 (fieldAt e 4 4), signed 32 (fieldAt e 8 4))
  | none => (0, 0)

/-! ## Lanes (15 R508) -/

/-- Rate classes that a lane accepts (15 R508). -/
def laneClasses (l : Nat) : List Nat :=
  if l < 32 then [1, 2, 3, 4]
  else if l < 48 then [0x0C]
  else if l < 56 then [0x08]
  else if l < 64 then [0x10, 0x11, 0x12, 0x13, 0x14]
  else if l < 68 then [0x10, 0x11, 0x12, 0x13]
  else [0x18, 0x19, 0x1A, 0x1B]

/-- Whether a lane receives (15 R508). -/
def laneReceives (l : Nat) : Bool := decide (l < 68)

/-- Whether a lane transmits (15 R508). -/
def laneTransmits (l : Nat) : Bool := decide (32 ≤ l)

/-- Whether the settings of a lane, bytes 0x4 to 0xF of an entry, are within the ranges of 15 R518. -/
def settingsOk (l : Nat) (b : List Byte) : Bool :=
  let f (o : Nat) : Nat := fieldAt b o 1
  let pcie := decide (56 ≤ l) && decide (l < 68)
  let small (o : Nat) (n : Int) : Bool := decide (-n ≤ signed 8 (f o)) && decide (signed 8 (f o) < n)
  (if laneTransmits l then decide (50 ≤ f 0) && decide (f 0 ≤ 150) &&
      (if pcie then decide (f 1 ≤ 10) && f 2 == 0 else decide (f 1 ≤ 15) && decide (f 2 ≤ 31) && decide (f 1 + f 2 ≤ 32))
    else f 0 == 0 && f 1 == 0 && f 2 == 0) &&
  (if laneReceives l then decide (f 3 ≤ 15) && decide (f 4 ≤ 31) && small 5 64 && small 6 32 && small 7 32 &&
      decide (-16 ≤ signed 8 (f 8)) && decide (signed 8 (f 8) ≤ 16)
    else f 3 == 0 && f 4 == 0 && f 5 == 0 && f 6 == 0 && f 7 == 0 && f 8 == 0) &&
  fieldAt b 9 3 == 0

/-- The default settings of a lane, bytes 0x4 to 0xF (15 R518). -/
def defaultSettings (l : Nat) : List Byte :=
  let tx : List Nat := if !laneTransmits l then [0, 0, 0]
    else if 56 ≤ l ∧ l < 68 then [100, 7, 0] else [100, 0, 8]
  let rx : List Nat := if laneReceives l then [6, 16, 0, 0, 0, 0] else [0, 0, 0, 0, 0, 0]
  (tx ++ rx ++ [0, 0, 0]).map fun v => BitVec.ofNat 8 v

/-- The settings that a lane takes at a rate class: its entry, that of the next higher class that the lane accepts, or the
defaults (15 R511). -/
def tableSettings (b : List Byte) (l cls : Nat) : List Byte :=
  let mine := (boardEntries b 1).filter fun e => fieldAt e 0 1 == l
  let at_ (c : Nat) := mine.find? fun e => fieldAt e 1 1 == c
  let next := (laneClasses l).find? fun c => decide (cls < c)
  match at_ cls, next.bind at_ with
  | some e, _ => e.drop 4
  | none, some e => e.drop 4
  | none, none => defaultSettings l

/-- The settings in force on a lane at a rate class: its override, else those of the table (15 R511, R526). -/
def laneSettings (s : State) (l cls : Nat) : List Byte := (lane s l).override.getD (tableSettings s.sys.tableUsed l cls)

/-- The PCIe equalisation of a lane at a rate class (15 R512): as requester it asks for the preset of its TX_PRE and takes the
first response; as responder its transmitter, and nothing else, takes the coefficients that the partner asks for, a free value
(log 6). -/
def equaliseAt (cls l : Nat) (s : State) : State :=
  bump (modLane l (fun x => { x with
    asked := Tbl.set x.asked cls (fieldAt (laneSettings s l cls) 1 1)
    applied := Tbl.set x.applied cls (draw s (2 ^ 18 - 1)) }) s)

/-- The equalisation of some lanes, at the rates that have one: 8 GT/s and above. -/
def equalise (classes lanes : List Nat) (s : State) : State :=
  lanes.foldl (fun t l => classes.foldl (fun u c => equaliseAt c l u) t) s

/-- The lanes of the endpoint (15 R508). -/
def endpointLanes : List Nat := [64, 65, 66, 67]

/-- The equalisation of the endpoint, Gen4, whose receivers lock (15 R508, R512; 20 R646). -/
def equaliseEndpoint (s : State) : State := lanesTurn true endpointLanes (equalise [0x12, 0x13] endpointLanes s)

/-- The equalisation of the root port, Gen5 (15 R508, R512). -/
def equaliseRoot (s : State) : State := equalise [0x12, 0x13, 0x14] ((List.range 8).map (56 + ·)) s

/-! ## What a copy is worth (15 R516) -/

/-- Whether a lane entry is within its ranges (15 R516, R518). -/
def laneEntryOk (e : List Byte) : Bool :=
  let l := fieldAt e 0 1
  let flags := fieldAt e 2 1
  decide (l < 72) && (laneClasses l).contains (fieldAt e 1 1) && decide (flags < 4) && fieldAt e 3 1 == 0 &&
    (laneReceives l || !bit flags 0) && (laneTransmits l || !bit flags 1) && settingsOk l (e.drop 4)

/-- Whether the thermal entry is within its ranges (17 R567). -/
def thermalOk (e : List Byte) : Bool :=
  ((List.range 12).all fun i => fieldAt e (4 * i) 4 != 0) &&
    ((List.range 24).all fun n => ((List.range 12).map fun i => fieldAt e (0x168 + 12 * n + i) 1).sum == 256) &&
    decide (fieldAt e 0x288 1 < 10) && decide (fieldAt e 0x289 1 < 10)

/-- The bytes of a table, LENGTH of them, with TABLE_CRC taken as 0. -/
def crcImage (b : List Byte) : List Byte :=
  let t := b.take (fieldAt b 8 4)
  t.take 0x10 ++ List.replicate 8 0 ++ t.drop 0x18

/-- Whether no element holds a relation with a later one. -/
def noPair {α : Type} (r : α → α → Bool) : List α → Bool
  | [] => true
  | x :: l => (l.all fun y => !r x y) && noPair r l

/-- First and last byte, one past, of a section. -/
def sectionSpan (e : Nat × Nat × Nat) : Nat × Nat := (e.2.2, e.2.2 + entrySize e.1 * e.2.1)

/-- Whether two sections overlap. -/
def spansMeet (x y : Nat × Nat × Nat) : Bool :=
  decide ((sectionSpan x).1 < (sectionSpan y).2) && decide ((sectionSpan y).1 < (sectionSpan x).2)

/-- Whether a copy keeps every rule of 15 R516 but the lock. -/
def copyOk (b : List Byte) : Bool :=
  let len := fieldAt b 8 4
  let n := fieldAt b 6 2
  let dir := boardDir b
  fieldAt b 0 4 == 0x4C425854 && fieldAt b 4 2 == 1 && decide (1 ≤ n) && decide (n ≤ 16) && decide (len ≤ 65536) &&
    decide (0x20 + 8 * n ≤ len) && decide (len ≤ b.length) && fieldAt b 0x10 8 == crc64 (crcImage b) &&
    (dir.all fun e => decide ((sectionSpan e).2 ≤ len) && e.2.2 % 16 == 0) && noPair spansMeet dir &&
    ((boardEntries b 1).all laneEntryOk) &&
    noPair (fun x y => fieldAt x 0 2 == fieldAt y 0 2) (boardEntries b 1) && ((boardEntries b 4).all thermalOk)

/-- State of a copy before the choice: 1 valid, 2 invalid, 3 hash mismatch under lock (15 R516, R517, R520). -/
def copyState (lock : Nat) (b : List Byte) : Nat :=
  if !copyOk b then 2 else if lock ≠ 0 ∧ sha384 (b.take (fieldAt b 8 4)) ≠ lock then 3 else 1

/-- The table in use and the states of the copies, primary first (15 R514, R517). -/
def chooseTable (lock : Nat) (primary backup : List Byte) : List Byte × (Nat × Nat) :=
  let p := copyState lock primary
  let q := copyState lock backup
  if p = 1 then (primary, (0, q)) else if q = 1 then (backup, (p, 0)) else ([], (p, q))

end Sys2Proof.Machine
end

