-- ==== Sys2Proof/Machine/Flags.lean ====
section
/-! DEFINITION. The status words that the host reads: GRM_STATUS (20 R638), FNC_STATUS (20 R639), BOOT_STATUS (18 R598),
INT_STALL (20 R640), the lane and fabric words (20 R646, R647), and the resume record and INFO of a stall (02 R67, R652). -/

namespace Sys2Proof.Machine

/-- GRM_STATUS (20 R638). -/
def grmStatus (x : Stall) : Nat := b2n x.dbErr + 2 * b2n x.headErr + 4 * b2n x.resumed + 8 * b2n x.ready

/-- The thermal state: 0 normal, 1 WARN, 2 THROTTLE, 3 STOPPING, 4 STOPPED (17 R571, 'PWR.READ'). -/
def thermalState (s : State) : Nat :=
  if s.thm.stop = 2 then 4 else if s.thm.stop = 1 then 3 else if s.thm.hot then 2 else if s.thm.warn then 1 else 0

/-- Whether a function owns at least one unit (20 R639). -/
def ownsAny (s : State) (f : Nat) : Bool :=
  if f = 0 then (List.range 187).any fun k => ownerOf s (s.sys.device * 256 + k) == 0
  else s.bind.owner.any fun e => e.2 == f

/-- FNC_STATUS (20 R639). -/
def fncStatus (s : State) (f : Nat) : Nat :=
  f + 2 ^ 4 * s.sys.profile + 2 ^ 6 * thermalState s + 2 ^ 9 * s.sys.linkPolicy + 2 ^ 10 * b2n (ownsAny s f) +
    2 ^ 11 * s.sys.device + 2 ^ 13 * (s.sys.arraySize - 1)

/-- BOOT_STATUS (18 R598). -/
def bootStatus (s : State) : Nat :=
  b2n s.sys.ready + 2 * s.sys.startKind + 2 ^ 3 * s.sys.fails + 2 ^ 8 * s.sys.step + 2 ^ 16 * s.sys.failCode

/-- INT_STALL (20 R640). -/
def intStall (x : Stall) : Nat :=
  b2n x.cplPend + 2 * b2n x.evtPend + 2 ^ 8 * b2n x.cplMask + 2 ^ 9 * b2n x.evtMask

/-- The panic mask of the RT ports (20 R647). -/
def panicMask (s : State) : Nat :=
  (List.range 16).foldl (fun a p => a + if (s.fabric.ports.getD p {}).panic then 2 ^ p else 0) 0

/-- Whether thermal or cap throttle is in force (17 R560, R572). -/
def throttled (s : State) : Bool := s.thm.hot || s.pwr.throttle

/-- MEM_PORT_p (20 R647). -/
def memPort (p : RtPort) : Nat :=
  p.fill % 4096 + 2 ^ 16 * b2n p.panic + 2 ^ 17 * b2n p.critical + 2 ^ 18 * b2n p.shed

/-- MEM_ESC (20 R647). -/
def memEsc (s : State) : Nat := s.fabric.step + 2 ^ 8 * s.fabric.scale + 2 ^ 16 * panicMask s

/-- LNE_STAT_l (20 R646). -/
def lneStat (l : Lane) : Nat :=
  l.syncErr % 65536 + 2 ^ 16 * (l.downs % 256) + 2 ^ 24 * b2n l.locked + 2 ^ 25 * b2n l.prbsLock +
    2 ^ 26 * b2n (l.gen || l.chk) + 2 ^ 27 * b2n l.override.isSome + 2 ^ 28 * b2n l.low

/-- PTP_SELECT (20 R641). -/
def ptpSelect (s : State) : Nat := s.time.sel + 2 * b2n (s.time.delta != 0) + 4 * b2n s.time.auto

/-- QUE_OCC_q (11 R404). -/
def queOcc (q : Queue) : Nat := q.occ % 2 ^ 21 + 2 ^ 24 * (q.crossings % 256)

/-- QUE_PEAK_q (11 R405). -/
def quePeak (q : Queue) : Nat := q.peak % 2 ^ 21

/-- The resume record (02 R67). DEDUCED (log 58): LINK_POLICY is the policy in force (R657) after a function-level reset too,
though R67 sets the fields of the record to 0 then. -/
def resumeRecord (x : Stall) (policy : Nat) : List Byte :=
  leBytes 4 x.lastAccepted.toNat ++ leBytes 4 x.lastCompleted.toNat ++ leBytes 4 x.nextSeq.toNat ++
  leBytes 2 x.cmdHead.toNat ++ leBytes 2 x.cmdTail.toNat ++ leBytes 2 x.cplHead.toNat ++ leBytes 2 x.cplTail.toNat ++
  leBytes 2 x.evtHead.toNat ++ leBytes 2 x.evtTail.toNat ++ leBytes 4 x.resetCount ++ leBytes 1 x.resetKind ++
  leBytes 1 policy ++ leBytes 2 0 ++ leBytes 4 x.discarded ++ leBytes 4 x.aborted ++ leBytes 24 0

/-- INFO of a stall (02 R652). -/
def infoRecord (s : State) (f : Nat) : List Byte :=
  leBytes 1 s.sys.version.1 ++ leBytes 1 s.sys.version.2.1 ++ leBytes 1 s.sys.version.2.2 ++ leBytes 1 f ++
  leBytes 2 (stall s f).windowKib ++ leBytes 1 s.sys.device ++ leBytes 1 s.sys.arraySize ++ leBytes 56 0

/-- A completion entry in its 32 bytes (02 R53). -/
def cplBytes (c : Completion) : List Byte :=
  leBytes 4 c.seq.toNat ++ leBytes 2 c.opcode ++ leBytes 2 c.status ++ leBytes 2 c.bindEpoch ++
  leBytes 2 (b2n c.phase + 2 * b2n c.relayed + 4 * b2n c.deferred + 8 * b2n c.detailSize + 16 * c.detailSpace) ++
  leBytes 4 c.detail ++ leBytes 8 c.result0 ++ leBytes 8 c.result1

/-- An event record in its 32 bytes (02 R56). -/
def evtBytes (e : Event) : List Byte :=
  leBytes 2 e.code ++ leBytes 1 e.cls ++ leBytes 1 e.device ++ leBytes 2 e.unit ++ leBytes 2 e.bindEpoch ++
  timeBytes e.time ++ leBytes 2 (e.frame.getD 0) ++ leBytes 2 (b2n e.phase + 2 * b2n e.frame.isSome) ++
  leBytes 2 0 ++ leBytes 8 e.detail

/-- The 32 bytes of an entry of a ring, 0 where none was written (log 10). -/
def entryBytes {α : Type} (f : α → List Byte) (t : Tbl α) (i : Nat) : List Byte :=
  match Tbl.find? t i with
  | some e => f e
  | none => leBytes 32 0

/-- Byte `o` of a stall as the host reads it (02 R35). -/
def stallByte (s : State) (f o : Nat) : Byte :=
  let x := stall s f
  if o < 0x40 then (resumeRecord x s.sys.linkPolicy).getD o 0
  else if o < 0x80 then (infoRecord s f).getD (o - 0x40) 0
  else if o < 0x1000 then 0
  else if o < 0x2000 then Mem.byte x.mem o
  else if o < 0x3000 then (entryBytes cplBytes x.cpl ((o - 0x2000) / 32)).getD (o % 32) 0
  else if o < 0x5000 then (entryBytes evtBytes x.evt ((o - 0x3000) / 32)).getD (o % 32) 0
  else if o < 0x10000 then 0
  else if o < 0x10000 + 1024 * x.windowKib then Mem.byte x.mem o
  else 0

/-- The last margin reading of a lane is kept in its LNE_MARGIN word, each margin at most 32 steps (15 R524, 20 R646). -/
def marginWord (m : Margins) : Nat :=
  min 32 m.left + 2 ^ 8 * min 32 m.right + 2 ^ 16 * min 32 m.top + 2 ^ 24 * min 32 m.bottom

end Sys2Proof.Machine
end

