-- ==== Sys2Proof/Machine/Operands.lean ====
section
/-! DEFINITION. The parameter blocks of the Groom's opcodes: each field with its offset, size and the values it may hold
(02 R5, R37-R40, R648-R650 and the tables of the blocks' chapters), the opcodes' properties (02 R61, R651, R79), and the
command slot. -/

namespace Sys2Proof.Machine

/-- What a field may hold. A field whose values depend on another field is `any` here and judged with its relation. -/
inductive Chk where
  | rsv
  | any
  | rng (lo hi : Nat)
  | bits (mask : Nat)
  | oneOf (vs : List Nat)
  | mul (lo hi step : Nat)
  | srng (lo hi : Int)
  | zeroOr (lo hi : Nat)
  | l24
  | s24
  | time
deriving DecidableEq, Repr

/-- Whether a field of `size` bytes may hold a value (00 R4, R5, R11, R15). -/
def Chk.ok (c : Chk) (size v : Nat) : Bool :=
  match c with
  | .rsv => v == 0
  | .any => true
  | .rng lo hi => decide (lo ≤ v) && decide (v ≤ hi)
  | .bits m => v &&& m == v
  | .oneOf vs => vs.contains v
  | .mul lo hi k => decide (lo ≤ v) && decide (v ≤ hi) && v % k == 0
  | .srng lo hi => decide (lo ≤ signed (8 * size) v) && decide (signed (8 * size) v ≤ hi)
  | .zeroOr lo hi => v == 0 || (decide (lo ≤ v) && decide (v ≤ hi))
  | .l24 => decide (v < 2 ^ 24)
  | .s24 => if bit v 23 then v / 2 ^ 23 == 2 ^ 9 - 1 else decide (v < 2 ^ 23)
  | .time => decide (v % 2 ^ 32 ≤ 999999999)

/-- A field of a parameter block, of `cnt` elements of `size` bytes; `loc` marks a parameter local to a device (02 R70),
`bulk` the bulk data that follows. -/
structure Fld where
  off : Nat
  size : Nat
  chk : Chk
  cnt : Nat := 1
  loc : Bool := false
  bulk : Bool := false
deriving DecidableEq, Repr

/-- An array of `n` elements of one kind. -/
def arr (off size n : Nat) (c : Chk) : Fld := { off := off, size := size, chk := c, cnt := n }

/-- `n` copies of a group of fields, `stride` bytes apart. -/
def reps (n stride : Nat) (fs : List Fld) : List Fld :=
  (List.range n).flatMap fun i => fs.map fun f => { f with off := f.off + stride * i }

/-- A field that is not an array. -/
def fld (off size : Nat) (c : Chk) : Fld := { off := off, size := size, chk := c }

/-- A field that is local to a device: it stays out of the digest (14 R495). -/
def lfld (off size : Nat) (c : Chk) : Fld := { off := off, size := size, chk := c, loc := true }

/-- Reserved bytes. -/
def rsv (off size : Nat) : Fld := fld off size .rsv

/-- Bulk data after a block of `off` bytes. -/
def bulkAt (off : Nat) : Fld := { off := off, size := 0, chk := .any, bulk := true }

/-- Bytes of the block that a layout defines (02 R650). -/
def blockLen (l : List Fld) : Nat := l.foldl (fun m f => max m (f.off + f.size * f.cnt)) 0

/-- Offsets of the elements of a block that hold a value they may not (log 13). -/
def fieldFaults (l : List Fld) (b : List Byte) : List Nat :=
  l.flatMap fun f => ((List.range f.cnt).map fun i => f.off + f.size * i).filter fun o => !f.chk.ok f.size (fieldAt b o f.size)

/-- The refusal for faulty fields: the lowest offset (02 R53). -/
def lowestFault : List Nat → Option Reply
  | [] => none
  | a :: l => some (badParam (l.foldl min a))

/-- An offset where a condition fails. -/
def faultIf (bad : Bool) (off : Nat) : List Nat := if bad then [off] else []

/-- What the Groom knows of an opcode: its block, whether it is staged, its reset class, whether bulk data follows, and the
bytes of its results over the parameter region. -/
structure OpInfo where
  lay : List Fld
  staged : Bool := false
  classC : Bool := false
  bulk : Bool := false
  result : Nat := 0
  needs : Bool := false
deriving DecidableEq, Repr

/-! ## Central commands (02, 03) -/

/-- `SYS.PROFILE_COMMIT` (02 'Central commands'). -/
def laySysProfile : List Fld := [fld 0 1 (.rng 0 3), fld 1 1 (.bits 1), rsv 2 2, fld 4 4 .any]
/-- `SYS.LINK_POLICY` (02 R657). -/
def laySysPolicy : List Fld := [fld 0 1 (.rng 0 1), rsv 1 7]
/-- `STALL.CONFIGURE` (02 R658). -/
def layStall : List Fld := [fld 0 1 .any, rsv 1 1, fld 2 2 (.mul 4 64 4), rsv 4 4]
/-- `BIND.ASSIGN`, `BIND.RELEASE` and `BIND.QUERY` (02 'Central commands', R656); the values are judged under 03 R86. -/
def layBind : List Fld := [fld 0 1 .any, fld 1 1 .any, fld 2 2 .any, fld 4 2 .any, rsv 6 2]
/-- `EPOCH.COMMIT_AT` (02 R72). -/
def layCommitAt : List Fld :=
  [fld 0 1 (.rng 0 2), fld 1 1 (.rng 0 16), fld 2 1 (.rng 0 2), rsv 3 1, fld 4 2 .any, fld 6 10 .time, fld 0x10 8 .any,
   rsv 0x18 8]
/-- `EPOCH.COMMIT`: MODE, FRAME and TIME may hold any value (02 R655). -/
def layCommit : List Fld :=
  [fld 0 1 .any, fld 1 1 (.rng 0 16), fld 2 1 (.rng 0 2), rsv 3 1, fld 4 2 .any, fld 6 10 .any, fld 0x10 8 .any, rsv 0x18 8]
/-- `EPOCH.STAGE` and `EPOCH.DISCARD`: only SCOPE is used, every other byte is reserved (02 R655). -/
def layScope : List Fld := [rsv 0 2, fld 2 1 (.rng 0 2), rsv 3 1, arr 4 1 28 .rsv]
/-- `FUNC.SHARES` (03 'Shares', R106). -/
def layShares : List Fld :=
  [fld 0 1 (.rng 1 15), fld 1 1 (.rng 0 6), fld 2 1 (.rng 0 64), fld 3 1 (.rng 0 64), fld 4 4 .any, rsv 8 8]
/-- `FUNC.QUERY` and `FUNC.RESET_UNITS`: the spec gives no block but names the function as the parameter (log 14). -/
def layFunc : List Fld := [fld 0 1 (.rng 0 15)]

/-! ## Bridle and CSI-2 (04) -/

/-- `BRD.CONFIGURE`. -/
def layBrdConfigure : List Fld :=
  [fld 0 1 (.rng 1 255), fld 1 1 (.rng 0 3), fld 2 1 .any, fld 3 1 (.rng 0 2), fld 4 1 (.rng 0 3), fld 5 1 (.bits 3),
   fld 6 2 (.rng 2 100), fld 8 4 .any, fld 0xC 1 (.rng 1 64), fld 0xD 1 (.bits 1), rsv 0xE 2, arr 0x10 2 8 .any]
/-- `BRD.SPARE`. -/
def layBrdSpare : List Fld := [fld 0 1 (.rng 0 1), fld 1 1 (.rng 0 4), fld 2 1 (.rng 0 111), rsv 3 1, arr 4 4 4 .any]
/-- `BRD.TRIGGER`. -/
def layBrdTrigger : List Fld :=
  [fld 0 1 (.rng 0 3), fld 1 1 (.rng 0 3), fld 2 1 (.rng 0 1), fld 3 1 (.rng 0 16), fld 4 4 (.rng 8 1000000), fld 8 8 .any,
   fld 0x10 10 .time, fld 0x1A 2 .any, fld 0x1C 1 (.rng 0 3), rsv 0x1D 3, arr 0x20 4 16 .any]
/-- `BRD.COUNTERS`. -/
def layBrdCounters : List Fld := [fld 0 1 (.rng 0 8), fld 1 1 (.bits 1)]
/-- `CSI.CONFIGURE`. -/
def layCsiConfigure : List Fld :=
  [fld 0 1 (.oneOf [1, 2, 4]), fld 1 1 (.rng 0 3), fld 2 1 (.rng 0x2B 0x2E), fld 3 1 (.bits 3), fld 4 2 (.rng 80 2500),
   fld 6 2 (.rng 0 4096), rsv 8 8]

/-! ## Pipes (02, 04, 05, 07) -/

/-- `PIPE.CONFIGURE` (02 'Central commands'). -/
def layPipeConfigure : List Fld :=
  [fld 0 2 (.rng 0 16), fld 2 1 (.rng 0 4), fld 3 1 .any, fld 4 2 (.mul 64 16384 16), fld 6 2 (.mul 16 8640 2),
   fld 8 1 (.rng 0 4), fld 9 1 (.oneOf [10, 12, 14, 16]), fld 0xA 1 (.rng 0 1), fld 0xB 1 (.bits 0xF),
   fld 0xC 4 (.rng 100000 4000000000), lfld 0x10 8 .any, fld 0x18 2 (.rng 0 1024), fld 0x1A 2 .any, fld 0x1C 4 .any,
   fld 0x20 4 (.bits 1), fld 0x24 4 (.bits 0x3F)]
/-- `PIPE.PLAY` (04 R147). -/
def layPipePlay : List Fld :=
  [fld 0 1 (.bits 3), rsv 1 3, fld 4 4 (.mul 0 4294967295 64), fld 8 4 .any, rsv 0xC 4, fld 0x10 8 .any, bulkAt 0x18]
/-- `PIPE.GRID_LOAD` (02 'Central commands'). -/
def layPipeGridLoad : List Fld :=
  [fld 0 1 (.rng 0 2), fld 1 1 .any, fld 2 2 .any, fld 4 2 .any, rsv 6 2, fld 8 4 .any, rsv 0xC 4, fld 0x10 8 .any,
   arr 0x18 2 3 .any, rsv 0x1E 2, bulkAt 0x20]
/-- `PIPE.BLACK` (05 R181). -/
def layPipeBlack : List Fld :=
  [fld 0 1 (.bits 0x1F), fld 1 1 (.mul 0 64 2), fld 2 2 (.mul 0 256 16), fld 4 2 (.mul 0 256 16), fld 6 1 (.rng 0 8),
   fld 7 1 .any, fld 8 2 .any, rsv 0xA 2, fld 0xC 4 .l24, rsv 0x10 16, arr 0x20 4 8 (.rng 0 0xFFFFF),
   arr 0x40 4 8 (.rng 0 0xFFFFF)]
/-- `PIPE.MERGE` (05 R189). -/
def layPipeMerge : List Fld :=
  [fld 0 1 (.bits 1), fld 1 1 (.rng 2 16), fld 2 1 (.rng 0 2), fld 3 1 (.oneOf [0, 1, 2, 3, 0xFF]),
   fld 4 1 (.oneOf [0, 1, 2, 3, 0xFF]), fld 5 1 (.oneOf [0, 1, 2, 3, 0xFF]), rsv 6 2, arr 8 2 3 .any, rsv 0xE 2] ++
  reps 2 0x10 [fld 0x10 4 .any, fld 0x14 4 .any, fld 0x18 4 .l24, fld 0x1C 4 .l24]
/-- `PIPE.STATS` (07 R275). -/
def layPipeStats : List Fld :=
  [fld 0 1 (.bits 1), rsv 1 3, fld 4 4 .l24, lfld 8 8 .any, fld 0x10 2 .any, rsv 0x12 2, fld 0x14 4 .any]
/-- `COL.LUT_LOAD`: DATA_CRC at 0x10 and DATA at 0x18 (02 'Central commands'). -/
def layColLut : List Fld :=
  [fld 0 1 (.rng 0 4), fld 1 1 (.rng 0 3), fld 2 1 (.rng 0 3), rsv 3 1, fld 4 4 .any, rsv 8 8, fld 0x10 8 .any, bulkAt 0x18]
/-- `COL.MATRIX` (07 R246); M is judged where BUILTIN is clear. -/
def layColMatrix : List Fld :=
  [fld 0 1 (.rng 0 4), fld 1 1 (.bits 3), fld 2 1 .any, fld 3 1 (.rng 0 3), arr 4 4 9 .any, rsv 0x28 8]
/-- `COL.WB` (07 R238). -/
def layColWb : List Fld := [arr 0 4 4 (.rng 0 0xFFFFFF), fld 0x10 4 .l24, rsv 0x14 12]
/-- `COL.OUTPUT` (07 R269). -/
def layColOutput : List Fld :=
  [fld 0 1 (.rng 0 3), fld 1 1 (.rng 0 6), fld 2 1 (.rng 0 4), fld 3 1 (.rng 0 2), arr 4 2 4 (.mul 0 65534 2),
   fld 0xC 2 (.mul 64 16384 2), fld 0xE 2 (.mul 16 8640 2), fld 0x10 1 (.oneOf [1, 2, 4, 8, 16]), fld 0x11 1 .any,
   fld 0x12 1 (.rng 0 1), fld 0x13 1 (.oneOf [0, 1, 2, 3, 0xFF]), fld 0x14 1 (.oneOf [0, 1, 2, 3, 0xFF]),
   fld 0x15 1 (.oneOf [0, 1, 2, 3, 0xFF]), fld 0x16 1 (.bits 7), rsv 0x17 1, arr 0x18 1 3 .any, rsv 0x1B 1, fld 0x1C 4 .any,
   arr 0x20 2 4 (.rng 0 1023), fld 0x28 4 .any, fld 0x2C 4 (.bits 0x3FFFFFFF), fld 0x30 4 (.bits 0x3FFFFFFF), rsv 0x34 4,
   lfld 0x38 8 .any, fld 0x40 2 .any, rsv 0x42 2, fld 0x44 4 .any]
/-- `COL.NR` (07 R243). -/
def layColNr : List Fld :=
  [fld 0 1 (.bits 3), rsv 1 1, fld 2 2 (.rng 0 256), rsv 4 4, lfld 8 8 .any, fld 0x10 4 .any, rsv 0x14 12, arr 0x20 4 16 .l24,
   arr 0x60 1 16 .any, arr 0x70 1 16 .any]
/-! ## Compressor, recorder, audio (02, 08) -/

/-- `ZIP.CONFIGURE` (08 R280). -/
def layZipConfigure : List Fld :=
  [lfld 0 2 .any, fld 2 1 (.rng 0 1), fld 3 1 (.rng 0 1), fld 4 2 (.rng 0 16), fld 6 1 (.rng 0 15), fld 7 1 (.rng 0 2),
   fld 8 2 .any, fld 0xA 2 .any, fld 0xC 1 (.bits 0xF), rsv 0xD 1, lfld 0xE 2 (.rng 0 127)]
/-- `ZIP.PREROLL` (08 R295). -/
def layZipPreroll : List Fld := [lfld 0 8 .any, fld 8 8 (.mul 0 (2 ^ 64) 4096)]
/-- `REC.EXTENTS` (02 'Central commands'). -/
def layRecExtents : List Fld :=
  [fld 0 1 (.rng 0 1), fld 1 1 (.bits 1), fld 2 2 (.rng 1 4096), fld 4 4 .any, rsv 8 8, bulkAt 0x10]
/-- `REC.START` (02 'Central commands'). -/
def layRecStart : List Fld :=
  [fld 0 2 .any, fld 2 1 (.rng 0 2), fld 3 1 (.oneOf [0, 1, 2, 3, 4, 5, 6, 7, 0xFF]), fld 4 4 .any, fld 8 4 (.rng 4 1024),
   fld 0xC 2 .any, rsv 0xE 2, fld 0x10 4 .any, fld 0x14 10 .time, rsv 0x1E 2]
/-- `REC.STOP` (08 R314). -/
def layRecStop : List Fld := [fld 0 1 (.rng 0 1), rsv 1 1, fld 2 2 .any]
/-- `REC.KEY` (08 R317). -/
def layRecKey : List Fld := [fld 0 1 (.rng 0 7), fld 1 1 (.bits 1), rsv 2 6, fld 8 8 .any, arr 0x10 1 64 .any]
/-- `REC.STATUS` (08 R315). -/
def layRecStatus : List Fld :=
  [fld 0 1 (.rng 0 2), fld 1 1 (.rng 0 1), rsv 2 2, fld 4 4 .any, fld 8 8 .any, fld 0x10 4 .any, rsv 0x14 4]
/-- `AUD.CONFIGURE` (08 R319). -/
def layAudConfigure : List Fld := [fld 0 1 (.rng 1 8), fld 1 1 (.rng 0 1), fld 2 1 (.oneOf [24, 32]), fld 3 1 (.bits 3)]

/-! ## Coding (02, 09) -/

/-- `ENC.OPEN` (02 'Central commands'). -/
def layEncOpen : List Fld :=
  [lfld 0 1 (.bits 0x3F), fld 1 1 (.oneOf [1, 2, 4]), fld 2 1 .any, fld 3 1 (.rng 0 1), fld 4 2 .any, fld 6 2 .any,
   fld 8 4 .any, fld 0xC 1 (.rng 0 3), fld 0xD 1 (.rng 0 1), fld 0xE 2 .any, fld 0x10 4 .any, fld 0x14 4 .any,
   fld 0x18 1 (.rng 0 1), fld 0x19 1 (.rng 0 3), fld 0x1A 2 .any, lfld 0x1C 2 (.rng 0 127), fld 0x1E 2 (.rng 0 16)]
/-- `ENC.CLOSE` and `DEC.CLOSE` take SESSION. -/
def laySession : List Fld := [fld 0 2 .any]
/-- `ENC.RATE` (09). -/
def layEncRate : List Fld :=
  [fld 0 2 .any, fld 2 1 .any, fld 3 1 .any, fld 4 1 .any, fld 5 1 .any, fld 6 2 (.rng 100 10000), fld 8 4 .any,
   fld 0xC 4 .any, fld 0x10 1 .any, fld 0x11 1 (.rng 0 1), fld 0x12 2 (.rng 256 8952), fld 0x14 1 (.rng 1 2),
   fld 0x15 1 (.bits 3), rsv 0x16 2]
/-- `ENC.ROI` (09): COUNT regions are judged with the session's picture, the reserved bytes of all eight (00 R5; log 20). -/
def layEncRoi : List Fld :=
  [fld 0 2 .any, fld 2 1 (.rng 0 8), rsv 3 1] ++
  reps 8 8 [fld 4 2 .any, fld 6 1 .any, fld 7 2 .any, fld 9 1 .any, fld 0xA 1 .any, rsv 0xB 1]
/-- `ENC.STATS` (09). -/
def layEncStats : List Fld :=
  [fld 0 2 .any, fld 2 1 (.bits 1), rsv 3 1, fld 4 2 (.bits 0x7F), rsv 6 2, lfld 8 8 .any, fld 0x10 4 .any]
/-- `DEC.OPEN` (09). -/
def layDecOpen : List Fld :=
  [fld 0 1 (.bits 0x3F), fld 1 1 (.oneOf [1, 2, 4]), fld 2 1 .any, fld 3 1 (.bits 3), fld 4 2 (.rng 64 16384),
   fld 6 2 (.rng 16 8640), fld 8 8 .any, fld 0x10 2 (.rng 2 64), rsv 0x12 2, fld 0x14 4 .any]
/-- `DEC.SUBMIT` (09). -/
def layDecSubmit : List Fld := [fld 0 2 .any, fld 2 1 (.bits 3), rsv 3 1, fld 4 4 .any, rsv 8 8, bulkAt 0x10]

/-! ## Memory and queues (02, 10, 11) -/

/-- `MEM.HASH` (10). -/
def layMemHash : List Fld :=
  [arr 0 8 6 .any, arr 0x30 8 4 .any, fld 0x50 1 (.bits 1), fld 0x51 1 (.rng 1 64), fld 0x52 2 (.rng 16 4096), rsv 0x54 12]
/-- `MEM.SHED_ORDER` (10). -/
def layMemShed : List Fld :=
  [arr 0 1 16 (.rng 0 15), fld 0x10 1 (.rng 10 70), fld 0x11 1 (.rng 25 75), fld 0x12 1 (.rng 0 94), fld 0x13 1 (.rng 1 16),
   fld 0x14 2 (.rng 16 1000), rsv 0x16 10]
/-- `QUEUE.CONFIGURE` (02 'Central commands'). -/
def layQueueConfigure : List Fld :=
  [fld 0 4 (.mul 64 67108864 64), fld 4 4 (.mul 64 16384 64), fld 8 4 .any, fld 0xC 4 .any, fld 0x10 8 .any,
   fld 0x18 1 .any, fld 0x19 1 .any, fld 0x1A 1 .any, fld 0x1B 1 .any]

/-! ## Display (12) -/

/-- A colour of three 10-bit components. -/
def colour30 : Chk := .bits 0x3FFFFFFF
/-- `DSP.CONFIGURE`. -/
def layDspConfigure : List Fld :=
  [fld 0 2 .any, fld 2 2 .any, fld 4 4 .any, fld 8 1 .any, fld 9 1 (.rng 0 2), fld 0xA 1 (.rng 0 1),
   fld 0xB 1 (.oneOf [0, 1, 2, 3, 0xFF]), fld 0xC 4 .any, fld 0x10 10 .time, rsv 0x1A 2, fld 0x1C 4 colour30,
   fld 0x20 4 colour30, fld 0x24 1 (.rng 0 1), fld 0x25 1 (.bits 3), fld 0x26 2 .any, fld 0x28 2 .any, rsv 0x2A 2,
   lfld 0x2C 8 .any, fld 0x34 2 .any, rsv 0x36 2]
/-- `DSP.PLANE`. -/
def layDspPlane : List Fld :=
  [fld 0 1 (.rng 0 3), fld 1 1 (.rng 0 1), fld 2 1 (.rng 0 2), fld 3 1 (.rng 0 1), fld 4 2 .any, fld 6 1 (.bits 3), fld 7 1 (.bits 3),
   fld 8 2 (.mul 0 65535 2), fld 0xA 2 (.mul 0 65535 2), fld 0xC 2 .any, fld 0xE 2 (.mul 0 65535 2),
   fld 0x10 2 (.mul 0 65535 2), fld 0x12 1 (.bits 7),
   fld 0x13 1 (.rng 0 1), rsv 0x14 4, lfld 0x18 8 .any]
/-- `DSP.FLIP`. -/
def layDspFlip : List Fld :=
  [fld 0 1 (.rng 0 1), fld 1 1 (.bits 3), fld 2 1 (.bits 1), rsv 3 1, arr 4 2 4 .any, fld 0xC 10 .time, rsv 0x16 2, fld 0x18 4 .any,
   rsv 0x1C 4, fld 0x20 8 .any, bulkAt 0x28]
/-- `DSP.PALETTE`. -/
def layDspPalette : List Fld := [fld 0 1 (.rng 2 3), fld 1 1 .any, fld 2 2 (.rng 1 256), rsv 4 4, bulkAt 8]

/-! ## Network and time (13) -/

/-- `NET.CONFIGURE`. -/
def layNetConfigure : List Fld :=
  [fld 0 1 (.oneOf [0, 1, 0xFF]), fld 1 1 (.rng 0 1), fld 2 1 (.oneOf [0, 1, 0xFF]), fld 3 1 (.rng 0 2), fld 4 1 .any,
   fld 5 1 (.srng (-7) 1), fld 6 1 (.srng (-3) 1), fld 7 1 (.srng (-7) 5), fld 8 1 (.rng 2 10), fld 9 1 .any, fld 0xA 1 .any,
   fld 0xB 1 (.bits 1), lfld 0xC 4 .any, fld 0x10 2 (.rng 1500 9000), fld 0x12 2 .any, lfld 0x14 6 .any, rsv 0x1A 6]
/-- `NET.FLOW`. -/
def layNetFlow : List Fld :=
  [fld 0 1 (.rng 0 31), fld 1 1 (.oneOf [0, 1, 2, 3, 4, 5, 9, 10, 11]), fld 2 1 (.bits 3), fld 3 1 (.bits 1),
   fld 4 2 (.bits 0x1F), fld 6 1 (.bits 3), fld 7 1 (.bits 3), lfld 8 2 (.bits 0x7F), fld 0xA 2 .any, fld 0xC 1 (.bits 3),
   fld 0xD 1 (.bits 0x7F), fld 0xE 2 (.bits 0x7FF), lfld 0x10 4 .any, fld 0x14 4 .any, fld 0x18 4 .any, fld 0x1C 2 .any,
   fld 0x1E 1 .any, fld 0x1F 1 .any] ++
  reps 2 20 [fld 0x20 4 .any, lfld 0x24 4 .any, fld 0x28 2 .any, fld 0x2A 2 .any, fld 0x2C 6 .any, fld 0x32 2 .any] ++
  [lfld 0x48 8 .any, fld 0x50 2 (.bits 0x1FF), fld 0x52 2 (.bits 0xF), fld 0x54 4 .any, fld 0x58 2 .any, fld 0x5A 2 .any, fld 0x5C 4 .any,
   fld 0x60 4 .any]
/-- `NET.COUNTERS`. -/
def layNetCounters : List Fld := [fld 0 1 (.rng 0 1), fld 1 1 (.bits 1)]
/-- `TIME.STEER` (02 R78): a field that ACTION does not use may hold any value. -/
def layTimeSteer : List Fld :=
  [fld 0 1 (.rng 0 1), fld 1 1 (.bits 7), rsv 2 2, fld 4 8 .any, fld 0xC 8 .any, fld 0x14 10 .any, rsv 0x1E 2]
/-- `TIME.SELECT`. -/
def layTimeSelect : List Fld :=
  [fld 0 1 (.rng 0 1), fld 1 1 (.bits 3), rsv 2 2, fld 4 4 (.rng 100 100000), fld 8 4 (.rng 0 1000000)]
/-- `TIME.CORRECTION`. -/
def layTimeCorrection : List Fld := [fld 0 1 (.rng 0 1), fld 1 1 (.rng 0 3), rsv 2 2, fld 4 4 .any, fld 8 4 .any]
/-- `TIME.READ`. -/
def layTimeRead : List Fld := [fld 0 1 (.rng 0 1)]

/-! ## Tether (14) -/

/-- `TTH.CONFIGURE`: of the entries beyond ROUTES the reserved bytes alone are judged (00 R5; log 20). -/
def layTthConfigure : List Fld :=
  [fld 0 2 (.rng 100 10000), fld 2 1 (.rng 0 8), rsv 3 5] ++
  reps 8 16 [lfld 8 1 .any, lfld 9 1 .any, lfld 0xA 2 .any, lfld 0xC 1 .any, rsv 0xD 1, lfld 0xE 2 .any,
    lfld 0x10 4 .any, rsv 0x14 4]
/-- `TTH.STRIPES`. DEDUCED (log 58): the stripe origin that 14 R495 names local is what the stripes' widths give, so these are
local and DEVICES is not. -/
def layTthStripes : List Fld :=
  [fld 0 1 (.rng 2 4), fld 1 1 (.bits 1), fld 2 2 (.mul 16 17280 2), fld 4 4 .any, { arr 8 2 4 .any with loc := true },
   fld 0x10 2 (.rng 10 1000), rsv 0x12 14]
/-- `TTH.HOLD_POLICY`. -/
def layTthHold : List Fld := [fld 0 1 (.bits 3), rsv 1 1, fld 2 2 (.rng 1 1000), rsv 4 4]

/-! ## Motion (16) -/

/-- `MOT.CONFIGURE`. -/
def layMotConfigure : List Fld :=
  [fld 0 1 (.rng 0 3), fld 1 1 (.bits 0x1F), fld 2 1 (.rng 1 16), fld 3 1 (.rng 8 32), fld 4 2 (.rng 0 10000),
   fld 6 2 (.rng 100 10000), fld 8 2 .any, fld 0xA 2 (.rng 0 32767), fld 0xC 2 (.rng 1 1000), fld 0xE 1 (.rng 1 16),
   fld 0xF 1 (.rng 1 40), fld 0x10 2 .any, rsv 0x12 2, fld 0x14 4 .any, fld 0x18 4 .any, fld 0x1C 4 .any]
/-- `MOT.OBSERVER`. -/
def layMotObserver : List Fld :=
  [fld 0 2 .any, fld 2 2 .any, fld 4 2 .any, fld 6 1 (.rng 5 90), fld 7 1 (.bits 1)]
/-- FLAGS with CLEAR alone: `MOT.READ` and `PWR.READ`. -/
def layFlags : List Fld := [fld 0 1 (.bits 1)]

/-! ## Power, fuses and test (15, 17, 18) -/

/-- `PWR.LIMITS`. -/
def layPwrLimits : List Fld :=
  [fld 0 1 (.zeroOr 12 32), fld 1 1 (.rng 1 8), fld 2 1 (.rng 0 3), fld 3 1 (.rng 0 1), fld 4 4 (.zeroOr 5000 4294967295),
   fld 8 4 (.rng 10 1000), rsv 0xC 4]
/-- `PWR.THERMAL_MODEL`. -/
def layPwrThermal : List Fld := [fld 0 2 (.srng (-10240) 21760), fld 2 1 (.bits 1)]
/-- `SYS.FUSE_PROGRAM`: fuse field and value; the spec gives no layout (log 20). FIELD 0 lane-table lock, 1 key hash. -/
def laySysFuse : List Fld := [fld 0 1 (.rng 0 1), rsv 1 7, fld 8 48 .any]
/-- `TEST.MUCKOUT`. -/
def layMuckout : List Fld :=
  [fld 0 1 (.rng 0 2), fld 1 1 (.bits 0xF), fld 2 2 (.rng 10 1000), fld 4 2 (.rng 50 2000), fld 6 1 (.rng 16 30),
   fld 7 1 .any, fld 8 1 .any, rsv 9 7]
/-- `TEST.PRBS`. -/
def layPrbs : List Fld :=
  [fld 0 1 (.rng 0 71), fld 1 1 (.rng 0 5), fld 2 1 (.rng 0 5), fld 3 1 (.rng 0 3), fld 4 1 (.bits 3), fld 5 1 (.zeroOr 10 31),
   fld 6 2 .any]
/-- `TEST.MARGIN`; the last three bytes of SETTINGS are reserved (15 R518). -/
def layMargin : List Fld :=
  [fld 0 1 (.rng 0 71), fld 1 1 (.rng 0 2), fld 2 1 (.rng 20 40), rsv 3 1, fld 4 4 .any, fld 8 9 .any, rsv 0x11 3]

end Sys2Proof.Machine
end

