-- ==== Sys2Proof/Machine/Opcodes.lean ====
section
/-! DEFINITION. The opcodes that are defined, with their properties (02 R60, R61, R79 and the blocks' chapters). -/

namespace Sys2Proof.Machine

/-- What the Groom knows of an opcode; none where its class or verb is not defined (02 R60). -/
def opInfo (op : Nat) : Option OpInfo :=
  match op with
  | 0x0001 => some { lay := laySysProfile }
  | 0x0002 => some { lay := [] }
  | 0x0003 => some { lay := laySysPolicy }
  | 0x0004 => some { lay := [] }
  | 0x0005 => some { lay := laySysFuse }
  | 0x0101 => some { lay := layStall }
  | 0x0201 => some { lay := layBind, classC := true }
  | 0x0202 => some { lay := layBind, classC := true }
  | 0x0203 => some { lay := layBind }
  | 0x0301 => some { lay := layScope }
  | 0x0302 => some { lay := layCommit, classC := true }
  | 0x0303 => some { lay := layCommitAt, classC := true }
  | 0x0304 => some { lay := layScope, classC := true }
  | 0x0305 => some { lay := [] }
  | 0x0401 => some { lay := layShares, staged := true }
  | 0x0402 => some { lay := layFunc }
  | 0x0403 => some { lay := layFunc }
  | 0x1001 => some { lay := layBrdConfigure, staged := true }
  | 0x1002 => some { lay := layBrdSpare, staged := true }
  | 0x1003 => some { lay := layBrdTrigger }
  | 0x1004 => some { lay := layBrdCounters, result := 64, needs := true }
  | 0x1101 => some { lay := layCsiConfigure, staged := true }
  | 0x1102 => some { lay := [] }
  | 0x2001 => some { lay := layPipeConfigure, staged := true }
  | 0x2002 => some { lay := layPipeGridLoad, staged := true, bulk := true }
  | 0x2003 => some { lay := layPipeBlack, staged := true }
  | 0x2004 => some { lay := layPipeMerge, staged := true }
  | 0x2005 => some { lay := layPipeStats, staged := true }
  | 0x2006 => some { lay := layPipePlay, bulk := true }
  | 0x2101 => some { lay := layColLut, staged := true, bulk := true }
  | 0x2102 => some { lay := layColMatrix, staged := true }
  | 0x2103 => some { lay := layColWb, staged := true }
  | 0x2104 => some { lay := layColOutput, staged := true }
  | 0x2105 => some { lay := layColNr, staged := true }
  | 0x3001 => some { lay := layZipConfigure, staged := true }
  | 0x3002 => some { lay := layZipPreroll, staged := true }
  | 0x3003 => some { lay := [], classC := true }
  | 0x3101 => some { lay := layRecExtents, bulk := true }
  | 0x3102 => some { lay := layRecStart }
  | 0x3103 => some { lay := layRecStop, classC := true }
  | 0x3104 => some { lay := layRecKey }
  | 0x3105 => some { lay := layRecStatus }
  | 0x3201 => some { lay := layAudConfigure, staged := true }
  | 0x4001 => some { lay := layEncOpen, staged := true }
  | 0x4002 => some { lay := laySession }
  | 0x4003 => some { lay := layEncRoi, staged := true }
  | 0x4004 => some { lay := layEncRate, staged := true }
  | 0x4005 => some { lay := layEncStats, staged := true }
  | 0x4101 => some { lay := layDecOpen }
  | 0x4102 => some { lay := layDecSubmit, bulk := true }
  | 0x4103 => some { lay := laySession }
  | 0x5001 => some { lay := layMemHash, staged := true }
  | 0x5002 => some { lay := layMemShed, staged := true }
  | 0x5101 => some { lay := layQueueConfigure }
  | 0x5102 => some { lay := [], classC := true }
  | 0x5103 => some { lay := [] }
  | 0x6001 => some { lay := layDspConfigure, staged := true }
  | 0x6002 => some { lay := layDspPlane, staged := true }
  | 0x6003 => some { lay := layDspFlip, bulk := true }
  | 0x6004 => some { lay := layDspPalette, bulk := true }
  | 0x7001 => some { lay := layNetConfigure, staged := true }
  | 0x7002 => some { lay := layNetFlow, staged := true }
  | 0x7003 => some { lay := layNetCounters, result := 64, needs := true }
  | 0x7101 => some { lay := layTimeSteer, classC := true }
  | 0x7102 => some { lay := layTimeSelect, classC := true }
  | 0x7103 => some { lay := layTimeCorrection }
  | 0x7104 => some { lay := layTimeRead, result := 32 }
  | 0x8001 => some { lay := layTthConfigure, staged := true }
  | 0x8002 => some { lay := layTthStripes, staged := true }
  | 0x8003 => some { lay := [], result := 96, needs := true }
  | 0x8004 => some { lay := layTthHold }
  | 0x9001 => some { lay := layMotConfigure, staged := true }
  | 0x9002 => some { lay := layMotObserver, staged := true }
  | 0x9003 => some { lay := layFlags, result := 32, needs := true }
  | 0xA001 => some { lay := layPwrLimits, staged := true }
  | 0xA002 => some { lay := layPwrThermal }
  | 0xA003 => some { lay := layFlags, result := 256, needs := true }
  | 0xB001 => some { lay := layMuckout, result := 64 }
  | 0xB002 => some { lay := layPrbs }
  | 0xB003 => some { lay := layMargin }
  | _ => none

/-- Layout of an opcode. -/
def layOf (op : Nat) : List Fld := ((opInfo op).map (·.lay)).getD []

/-- The fields of the table of an opcode: those of its layout, GAIN0 and GAIN1 of `PIPE.MERGE` and SETTINGS of `TEST.MARGIN`
whole (05 'PIPE.MERGE', 15 R524). -/
def tableFields (op : Nat) : List Fld :=
  if op = 0x2004 then (layPipeMerge.filter fun f => decide (f.off < 0x10)) ++ [fld 0x10 16 .any, fld 0x20 16 .any]
  else if op = 0xB003 then (layMargin.filter fun f => decide (f.off < 8)) ++ [fld 8 12 .any]
  else layOf op

/-- The staged opcodes in ascending order (02 R79, 20 R634). -/
def stagedOps : List Nat :=
  [0x0401, 0x1001, 0x1002, 0x1101, 0x2001, 0x2002, 0x2003, 0x2004, 0x2005, 0x2101, 0x2102, 0x2103,
   0x2104, 0x2105, 0x3001, 0x3002, 0x3201, 0x4001, 0x4003, 0x4004, 0x4005, 0x5001, 0x5002, 0x6001,
   0x6002, 0x7001, 0x7002, 0x8001, 0x8002, 0x9001, 0x9002, 0xA001]

end Sys2Proof.Machine
end

