-- ==== Sys2Proof/Machine/Groom.lean ====
section
/-! DEFINITION. The Groom's handling of commands (02): the slot, acceptance with steps 1 to 6 of R50, when an accepted
command may start, steps 7 to 12, and its completion. -/

namespace Sys2Proof.Machine

/-! ## The command slot (02 R37) -/

/-- A command slot's fields. -/
structure Slot where
  raw : List Byte
  seq : Word
  opcode : Nat
  flags : Nat
  target : Nat
  device : Nat
  bind : Nat
  ploff : Nat
  pllen : Nat
  desc : Nat
deriving DecidableEq, Repr

/-- The fields of the 64 bytes of a slot. -/
def Slot.of (b : List Byte) : Slot :=
  { raw := b, seq := BitVec.ofNat 32 (fieldAt b 0 4), opcode := fieldAt b 4 2, flags := fieldAt b 6 2
    target := fieldAt b 8 2, device := fieldAt b 0xA 1, bind := fieldAt b 0xC 2, ploff := fieldAt b 0x10 4
    pllen := fieldAt b 0x14 4, desc := fieldAt b 0x18 8 }

/-- PLOC, FLAGS[1:0]. -/
def Slot.ploc (x : Slot) : Nat := x.flags % 4

/-- Unit class, OPCODE[15:8]. -/
def Slot.cls (x : Slot) : Nat := x.opcode / 256

/-- The slot that GRM_CMD_HEAD names. -/
def slotAt (x : Stall) : Slot := Slot.of (Mem.read x.mem (0x1000 + 64 * (x.cmdHead.toNat % 64)) 64)

/-! ## Host memory and descriptors (02 R40, R41) -/

/-- Bytes of host memory; none where a byte cannot be read. -/
def hostRead (m : List (Nat × Byte)) (a n : Nat) : Option (List Byte) :=
  (List.range n).mapM fun i => (m.find? fun e => e.1 == a + i).map (·.2)

/-- The answer `ST_BAD_DESCRIPTOR`. -/
def badDescriptor : Reply := { status := 0x14 }
/-- The answer `ST_PAYLOAD_TOO_LARGE`. -/
def tooLarge : Reply := { status := 0x12 }

/-- The segments of a descriptor list of `count` entries. -/
def segments (l : List Byte) (count : Nat) : List (Nat × Nat) :=
  (List.range count).map fun k => (fieldAt l (16 * k) 8, fieldAt l (16 * k + 8) 4)

/-- Whether the entries of a list are legal: aligned addresses, reserved bytes 0, lengths a multiple of 64 but for the
last (02 R40, R41). -/
def segmentsOk (l : List Byte) (count : Nat) : Bool :=
  (List.range count).all fun k =>
    fieldAt l (16 * k) 8 % 64 == 0 && fieldAt l (16 * k + 12) 4 == 0 &&
      (k + 1 == count || fieldAt l (16 * k + 8) 4 % 64 == 0)

/-- The segments that a descriptor names and the bytes they hold, up to PLLEN (02 R39-R41, R650). DESIGN CHOICE (log 18):
the spec speaks of a failed read of the list alone; a segment with a byte that cannot be read fails in the same way. -/
def descriptor (m : List (Nat × Byte)) (desc pllen : Nat) : Except Reply (List (Nat × Nat) × List Byte) :=
  match hostRead m desc 16 with
  | none => .error badDescriptor
  | some h =>
    let count := fieldAt h 0 4
    let total := fieldAt h 4 4
    if 16777216 < total then .error tooLarge
    else if desc % 64 ≠ 0 ∨ count < 1 ∨ 4096 < count ∨ fieldAt h 8 8 ≠ 0 then .error badDescriptor
    else match hostRead m (desc + 16) (16 * count) with
      | none => .error badDescriptor
      | some l =>
        let segs := segments l count
        if !segmentsOk l count || (segs.map (·.2)).sum ≠ total then .error badDescriptor
        else match segs.mapM fun g => hostRead m g.1 g.2 with
          | none => .error badDescriptor
          | some bs => .ok (segs, (bs.flatten).take pllen)

/-! ## Step 3 (02 R653) -/

/-- A refusal with an offset in the command slot. -/
def badSlot (off : Nat) : Reply := { status := 0x11, detail := off, detailSpace := 1 }

/-- Check 1: the lowest faulty field of the slot. -/
def slotFault (x : Slot) : Option Reply :=
  firstFail [need (x.ploc != 3 && x.flags / 32 == 0) (badSlot 0x06), need (fieldAt x.raw 0xB 1 == 0) (badSlot 0x0B),
    need (fieldAt x.raw 0xE 2 == 0) (badSlot 0x0E)]

/-- The first byte of the parameter region, where the region has one that can be read: in IMM, in the window (whose bytes
above its size read 0, 02 R35), or in the first segment of the descriptor. -/
def firstByte (st : Stall) (hostMem : List (Nat × Byte)) (x : Slot) : Option Byte :=
  if x.ploc = 0 then x.raw[0x20]?
  else if x.pllen = 0 then none
  else if x.ploc = 1 then
    some (if x.ploff < 1024 * st.windowKib then Mem.byte st.mem (0x10000 + x.ploff) else 0)
  else ((hostRead hostMem (x.desc + 16) 8).bind fun a => hostRead hostMem (leNat a) 1).bind (·.head?)

/-- Whether an opcode requires RESULT_TO_PAYLOAD; `TEST.MUCKOUT` does with ACTION 1 (18 R606). -/
def needsResult (st : Stall) (hostMem : List (Nat × Byte)) (i : OpInfo) (x : Slot) : Bool :=
  i.needs || (x.opcode == 0xB001 && firstByte st hostMem x == some 1)

/-- Check 4: RESULT_TO_PAYLOAD is set where the opcode requires it, and not with PLOC 0. -/
def resultFlagOk (need : Bool) (x : Slot) : Bool := (bit x.flags 4 || !need) && !(bit x.flags 4 && x.ploc == 0)

/-- Bytes of the results of an opcode over its parameter region: `REC.STATUS` with OP 1 returns the LBAs it reads
(08 R316), every other opcode the bytes of its table. `lba` gives the bytes of an LBA of an SSD. -/
def resultLen (lba : Nat → Nat) (i : OpInfo) (op : Nat) (region : List Byte) : Nat :=
  if op = 0x3105 ∧ fieldAt region 0 1 = 1 then fieldAt region 0x10 4 * lba (fieldAt region 1 1) else i.result

/-- Check 5 and the parameter region: the window (02 R39), the descriptor, or IMM. -/
def regionOf (st : Stall) (hostMem : List (Nat × Byte)) (x : Slot) : Except Reply (List (Nat × Nat) × List Byte) :=
  if x.ploc = 1 then
    if 1024 * st.windowKib < x.ploff + x.pllen then .error tooLarge
    else .ok ([], Mem.read st.mem (0x10000 + x.ploff) x.pllen)
  else if x.ploc = 2 then descriptor hostMem x.desc x.pllen
  else .ok ([], x.raw.drop 0x20)

/-- Offset of the first field of a table that a region does not wholly hold (02 R653 check 6; log 13). -/
def notHeld (lay : List Fld) (len : Nat) : Option Nat :=
  ((lay.filter fun f => decide (len < f.off + f.size * f.cnt)).map (·.off)).foldl
    (fun m o => match m with
      | none => some o
      | some a => some (min a o)) none

/-- Check 6: the region holds the block, bulk data is not carried in IMM, and results fit (02 R650, R651, R653). -/
def regionFault (lba : Nat → Nat) (i : OpInfo) (x : Slot) (region : List Byte) : Option Reply :=
  firstFail [
    (notHeld (tableFields x.opcode) region.length).map badParam,
    need (!(i.bulk && x.ploc == 0)) (badParam (blockLen i.lay)),
    need (!(bit x.flags 4) || decide (resultLen lba i x.opcode region ≤ region.length)) (badSlot 0x14)]

/-- Step 3 of R50, in the order of R653. -/
def step3 (lba : Nat → Nat) (st : Stall) (hostMem : List (Nat × Byte)) (i : OpInfo) (x : Slot) :
    Except Reply (List (Nat × Nat) × List Byte) :=
  match firstFail [slotFault x, need (!(i.classC && x.ploc == 2)) (badSlot 0x06),
      need (x.ploc != 1 || x.ploff % 64 == 0) (badSlot 0x10),
      need (resultFlagOk (needsResult st hostMem i x) x) (badSlot 0x06)] with
  | some r => .error r
  | none =>
    match regionOf st hostMem x with
    | .error r => .error r
    | .ok (segs, region) =>
      match regionFault lba i x region with
      | some r => .error r
      | none => .ok (segs, region)

/-- Bytes of an LBA of an SSD (08 R301). -/
def lbaBytes (s : State) (d : Nat) : Nat := (s.recorder.ssds.getD d {}).lbaBytes

/-! ## Steps 4 to 6 (02 R50, 03 R87) -/

/-- Whether an array device answers (14 R505); this device always does. -/
def reachable (s : State) (d : Nat) : Bool := d == s.sys.device || (decide (d < s.sys.arraySize) && !bit s.tth.unreachable d)

/-- Step 4: the device, then TARGET. -/
def step4 (s : State) (x : Slot) : Option Reply :=
  firstFail [need (reachable s x.device) { status := 0x80 },
    need (match classUnits x.cls with
      | some (_, n) => decide (x.target < n)
      | none => x.target == 0) (badSlot 0x08)]

/-- Whether a function owns the unit that a slot names. -/
def ownsTarget (s : State) (f : Nat) (x : Slot) : Bool :=
  match unitKey x.device x.cls x.target with
  | some k => ownerOf s k == f
  | none => false

/-- The classes that only F0 may use; class 0x80 only F0 of the leader (02 R60). -/
def f0Classes : List Nat := [0x00, 0x02, 0x04, 0x50, 0xA0, 0xB0, 0x80]

/-- Producer and consumer of a queue of a device of the array; the leader knows those of the queues that it has relayed the
configuration of (02 R52). -/
def queueEnds (s : State) (dev q : Nat) : (Nat × Nat) × (Nat × Nat) :=
  if dev = s.sys.device then ((Tbl.get {} s.queues q).prod, (Tbl.get {} s.queues q).cons)
  else Tbl.get ((0, 0), (0, 0)) s.tth.queues (dev * 256 + q)

/-- The rest of 03 R87: what a function that does not own the target may issue. -/
def nonOwnerMay (s : State) (f : Nat) (x : Slot) : Bool :=
  match x.opcode with
  | 0x7104 => true
  | 0x5103 =>
    let (prod, cons) := queueEnds s x.device x.target
    (match unitKey x.device prod.1 prod.2 with
      | some k => ownerOf s k == f
      | none => false) ||
    (match unitKey x.device cons.1 cons.2 with
      | some k => ownerOf s k == f
      | none => false)
  | _ => false

/-- The channels of a capture group: those of its newest block (08 R279). -/
def groupMask (s : State) (z : Nat) : Nat :=
  let k := cfgKey 0x3001 z 0
  match (((s.cfg.sched.flatMap (·.img)) ++ s.cfg.staged).filter fun e => e.key == k).getLast? with
  | some e => fieldAt e.val.blk 0 2
  | none => fieldAt (((Tbl.find? s.cfg.committed k).map (·.blk)).getD []) 0 2

/-- The units beside its target that a command acts on and its function must own: the channels of a capture group (08 R279),
the cores of a session that it opens (09 R329), and the other port of a flow on two paths (13 R457). -/
def namedUnits (s : State) (x : Slot) (region : List Byte) : List (Nat × Nat) :=
  match x.opcode with
  | 0x3001 => ((List.range 16).filter (bit (fieldAt region 0 2))).map fun z => (0x30, z)
  | 0x3002 => ((List.range 16).filter (bit (groupMask s x.target))).map fun z => (0x30, z)
  | 0x4001 => ((List.range 6).filter (bit (fieldAt region 0 1))).map fun k => (0x40, k)
  | 0x4101 => ((List.range 6).filter (bit (fieldAt region 0 1))).map fun k => (0x40, k)
  | 0x7002 => if fieldAt region 1 1 ≠ 0 ∧ fieldAt region 2 1 = 2 then [(0x70, 1 - x.target)] else []
  | _ => []

/-- Whether a function owns every unit that a command names. -/
def ownsNamed (s : State) (f : Nat) (x : Slot) (region : List Byte) : Bool :=
  (namedUnits s x region).all fun e => match unitKey x.device e.1 e.2 with
    | some k => ownerOf s k == f
    | none => false

/-- Step 5: ownership and the reserved commands (03 R87). -/
def mayIssue (s : State) (f : Nat) (x : Slot) (region : List Byte) : Bool :=
  if f0Classes.contains x.cls || x.opcode == 0x7102 then f == 0
  else if x.cls = 0x01 then f == 0 || fieldAt region 0 1 == f
  else if x.opcode = 0x0305 then true
  else if x.cls = 0x03 then f == 0 || fieldAt region 2 1 == 0
  else (ownsTarget s f x && ownsNamed s f x region) || nonOwnerMay s f x

/-- Whether step 6 judges BIND_EPOCH: the issuing function owns the target (03 R87). -/
def judgesEpoch (s : State) (f : Nat) (x : Slot) : Bool := ownsTarget s f x && x.opcode != 0x7102

/-- The binding epoch of a slot's target. -/
def targetEpoch (s : State) (x : Slot) : Nat := ((unitKey x.device x.cls x.target).map (epochOf s)).getD 0

/-! ## Acceptance (02 R45-R48) -/

/-- Commands of a stall that have been accepted and have not completed. -/
def outstanding (s : State) (f : Nat) : Nat := (s.cmds.filter fun c => c.fn == f && !c.detached).length

/-- Whether a completion entry is free for another command (02 R48). -/
def cplFree (s : State) (f : Nat) : Bool :=
  decide (used (stall s f).cplTail (stall s f).cplHead + outstanding s f < 128)

/-- The expected number after one (02 R45). -/
def seqSucc (q : Word) : Word := if q = 0xFFFFFFFF then 1 else q + 1

/-- The command that a slot holds. -/
def slotCmd (f : Nat) (x : Slot) (bind : Nat) (segs : List (Nat × Nat)) (region : List Byte) : Cmd :=
  { fn := f, seq := x.seq, opcode := x.opcode, flags := x.flags, target := x.target, device := x.device, bind := bind
    region := region, ploc := x.ploc, ploff := x.ploff, segs := segs }

/-- A command that the Groom refuses at acceptance: it counts as accepted and completed (02 R45, R67). -/
def refuseAt (f : Nat) (x : Slot) (bind : Nat) (r : Reply) (s : State) : State :=
  completeWith (slotCmd f x 0 [] []) bind false r s

/-- The unit of a command. -/
def Cmd.unit (c : Cmd) : Option Nat := unitKey c.device (c.opcode / 256) c.target

/-- Whether two accepted commands are the same. -/
def Cmd.same (a b : Cmd) : Bool := a.fn == b.fn && a.seq == b.seq && a.detached == b.detached

/-- Commands accepted before one. -/
def earlier (s : State) (c : Cmd) : List Cmd := s.cmds.takeWhile fun x => !x.same c

/-- Whether a command is a commit. -/
def Cmd.commit (c : Cmd) : Bool := c.opcode == 0x0302 || c.opcode == 0x0303

/-- Whether a rebinding of a unit waits to apply (03 R88). -/
def rebinding (s : State) (u : Option Nat) : Bool :=
  s.bind.waiting.any fun w => unitKey w.unit.device w.unit.cls w.unit.inst == u && u.isSome

/-- Whether an earlier command keeps one from being sent on to its member: it is of the same unit and waits itself, or
BARRIER waits for it; what has gone to the same member is ordered there (02 R49, log 25). -/
def holdsRelay (c e : Cmd) : Bool :=
  e.fn == c.fn && e.detached == c.detached &&
    ((e.relayed && !e.sent && e.unit.isSome && e.unit == c.unit) ||
      (bit c.flags 3 && !(e.relayed && e.sent && e.device == c.device) && !(e.waiting && e.commit)))

/-- Whether a command that a member executes may be sent on now (02 R49, 03 R88). -/
def mayRelay (s : State) (c : Cmd) : Bool := !(earlier s c).any (holdsRelay c) && !rebinding s c.unit

/-- The next epoch number: in an array the leader assigns it for every device (02 R68). -/
def nextNumber (s : State) : Word := if s.sys.arraySize = 1 then s.cfg.epoch + 1 else s.cfg.assigned + 1

/-- What a commit's block asks for: its mode, stream, frame and time (02 R72); `EPOCH.COMMIT` acts as MODE 0 (R655). -/
structure Target where
  mode : Nat
  stream : Nat
  frame : Nat
  time : Time
deriving DecidableEq, Repr

/-- The target of a commit command. -/
def Cmd.target_ (c : Cmd) : Target :=
  ⟨if c.opcode = 0x0302 then 0 else fieldAt c.region 0 1, fieldAt c.region 1 1, fieldAt c.region 4 2, timeAt c.region 6⟩

/-- Whether a serial is later than another, modulo 2^16 (01 R20). -/
def later (a b : Nat) : Bool := a != b && decide ((a + 65536 - b) % 65536 < 32768)

/-- Whether a target comes before another: the next frame before a named one, an earlier frame of one stream, an earlier time.
DESIGN CHOICE (log 58): of a frame and a time neither comes first. -/
def Target.before (a b : Target) : Bool :=
  (a.mode == 0 && b.mode != 0) || (a.mode == 1 && b.mode == 1 && a.stream == b.stream && later b.frame a.frame) ||
    (a.mode == 2 && b.mode == 2 && decide (timeNs a.time < timeNs b.time))

/-- The commits that have an epoch number of the leader's and have not applied: those of members, and those of the array with GO
(02 R68, 14 R496). -/
def numbered (s : State) : List (CmdRef × Target × Nat) :=
  (s.cmds.filterMap fun c =>
    if c.relayed && c.commit then c.number.map fun n => (⟨c.fn, c.seq⟩, c.target_, n.toNat) else none) ++
  s.cfg.sched.filterMap fun x =>
    if x.scope == 2 && x.applied.isNone then x.number.map fun n => (x.ref, ⟨x.mode, x.stream, x.frame, x.time⟩, n.toNat)
    else none

/-- Inserts a number in ascending order. -/
def insertNat (n : Nat) : List Nat → List Nat
  | [] => [n]
  | m :: l => if n ≤ m then n :: m :: l else m :: insertNat n l

/-- Gives a commit another epoch number, here and on the members. -/
def renumberCommit (r : CmdRef) (n : Nat) (s : State) : State :=
  let w := BitVec.ofNat 32 n
  tthBroadcast 2 (.groom (.number r.fn r.seq w))
    { s with cmds := s.cmds.map fun c => if c.fn = r.fn ∧ c.seq = r.seq ∧ c.relayed then { c with number := some w } else c
             cfg := { s.cfg with sched := s.cfg.sched.map fun x => if x.ref = r then { x with number := some w } else x } }

/-- The epoch number of a commit that comes before the numbered ones that a test picks: it takes the lowest of theirs, and each of
these the next; where there are none, the next number of all (02 R68). -/
def giveNumber (after : CmdRef × Target × Nat → Bool) (s : State) : Word × State :=
  let l := (numbered s).filter after
  let next := (nextNumber s).toNat
  let ns := l.foldl (fun a e => insertNat e.2.2 a) []
  let moved := l.foldl (fun t e => renumberCommit e.1 ((ns.find? fun n => decide (e.2.2 < n)).getD next) t) s
  (BitVec.ofNat 32 (ns.headD next), { moved with cfg := { moved.cfg with assigned := BitVec.ofNat 32 next } })

/-- Sends an accepted command on to the member it addresses; a commit takes its epoch number with it (02 R52, R68, 14 R481). -/
def relayOut (c : Cmd) (s : State) : State :=
  let (n, s1) := if c.commit then
      let (w, t) := giveNumber (fun e => c.target_.before e.2.1) s
      (some w, t)
    else (none, s)
  tthSend (portTo s c.device) 2 (.command
    { fn := c.fn, seq := c.seq, opcode := c.opcode, flags := c.flags, target := c.target, device := c.device
      bind := c.bind, region := c.region, number := n }) c.device false
    { s1 with cmds := s1.cmds.map fun x => if x.same c then { x with sent := true, number := n } else x }

/-- Sends on every command of a member that may be sent now. -/
def relayDue (s : State) : State :=
  (s.cmds.filter fun c => c.relayed && !c.sent).foldl (fun t c => if mayRelay t c then relayOut c t else t) s

/-- Whether the leader executes a command for every device, as it holds ownership for the array (02 R52; log 25). -/
def leaderHeld (op : Nat) : Bool := op / 256 == 0x02

/-- A command that has passed step 6 joins the accepted ones; one addressed to a member is relayed (02 R52). -/
def enqueue (c : Cmd) (s : State) : State :=
  if c.device = s.sys.device ∨ leaderHeld c.opcode then { s with cmds := s.cmds ++ [c] }
  else relayDue { s with cmds := s.cmds ++ [{ c with relayed := true }] }

/-- Steps 2 to 6 of R50 for the slot of an accepted command. -/
def judge (f : Nat) (x : Slot) (hostMem : List (Nat × Byte)) (s : State) : State :=
  match opInfo x.opcode with
  | none => refuseAt f x 0 { status := 0x10 } s
  | some i =>
    match step3 (lbaBytes s) (stall s f) hostMem i x with
    | .error r => refuseAt f x 0 r s
    | .ok (segs, region) =>
      match step4 s x with
      | some r => refuseAt f x 0 r s
      | none =>
        if !mayIssue s f x region then refuseAt f x 0 { status := 0x20 } s
        else if judgesEpoch s f x then
          if x.bind ≠ targetEpoch s x then refuseAt f x (targetEpoch s x) { status := 0x21 } s
          else enqueue (slotCmd f x x.bind segs region) s
        else enqueue (slotCmd f x 0 segs region) s

/-- GRM_CMD_HEAD passes a slot (02 R45). -/
def takeSlot (f : Nat) (s : State) : State :=
  modStall f (fun x => { x with cmdHead := x.cmdHead + 1
                                begun := x.begun &&& ~~~(1#64 <<< (x.cmdHead.toNat % 64)) }) s

/-- The record of an accepted command (02 R45, R67). -/
def countAccepted (f : Nat) (q : Word) (s : State) : State :=
  modStall f (fun x => { x with lastAccepted := q, nextSeq := seqSucc q }) s

/-- A command whose SEQ is not the expected one completes and is not accepted (02 R45). -/
def refuseSeq (f : Nat) (x : Slot) (s : State) : State :=
  writeCpl f { seq := x.seq, opcode := x.opcode, status := 0x13 } (bit x.flags 2) s

/-- The Groom takes in the next command of a stall, where one exists and a completion entry is free (02 R42, R45, R48). -/
def acceptNext (f : Nat) (hostMem : List (Nat × Byte)) (s : State) : State :=
  let x := slotAt (stall s f)
  if (stall s f).cmdHead = (stall s f).cmdTail ∨ !cplFree s f then s
  else if x.seq ≠ (stall s f).nextSeq then refuseSeq f x (takeSlot f s)
  else judge f x hostMem (countAccepted f x.seq (takeSlot f s))

/-- COMMAND_ACCEPT (02 R45-R53). -/
def execCommandAccept (fn : Nat) (hostMem : List (Nat × Byte)) (s : State) : Host.Outcome State Fault Refusal :=
  .next (if isLeader s && groomOn s && fnExists s fn then acceptNext fn hostMem s else s)

/-! ## When a command may start (02 R49, 03 R88) -/

/-- The accepted command that a reference names: the one with its function and number, else one that a function-level reset
detached from the function's stall. -/
def findCmd (s : State) (r : CmdRef) : Option Cmd :=
  match s.cmds.find? fun c => c.fn == r.fn && c.seq == r.seq with
  | some c => some c
  | none => s.cmds.find? fun c => c.fn % 16 == r.fn && c.seq == r.seq

/-- Whether an earlier command holds a command of the same stall back: it is of the same unit and has not started (or
steers time and has not applied), or BARRIER waits for it (02 R49); a scheduled commit counts as completed. -/
def holdsBack (c e : Cmd) : Bool :=
  e.fn == c.fn && e.detached == c.detached &&
    (((!e.waiting || e.opcode == 0x7101 || e.opcode == 0x7102) && e.unit.isSome && e.unit == c.unit) ||
      (bit c.flags 3 && !(e.waiting && e.commit)))

/-- Whether a command executes on this device. -/
def executesHere (s : State) (c : Cmd) : Bool :=
  (c.device == s.sys.device || leaderHeld c.opcode) && !c.relayed && groomOn s

/-- The command that a reference names, where it has the opcode and may start. -/
def startable (s : State) (r : CmdRef) (op : Nat) : Option Cmd :=
  match findCmd s r with
  | none => none
  | some c =>
    if c.opcode == op && executesHere s c && !c.waiting && !(earlier s c).any (holdsBack c) && !rebinding s c.unit then some c
    else none

/-- Refuses a command; a refusal for power has used an estimate of the load, so the next one is fresh (log 6). -/
def refuse (c : Cmd) (r : Reply) (s : State) : State := complete c r (if r.status = 0x31 then bump s else s)

/-- Starts a command: its first failing check completes it, and otherwise its effect happens (02 R50, R51). -/
def runCmd (r : CmdRef) (op : Nat) (chk : State → Cmd → Option Reply) (eff : Cmd → State → State) (s : State) : State :=
  match startable s r op with
  | none => s
  | some c =>
    match chk s c with
    | some rep => refuse c rep s
    | none => eff c s

/-- A command that waits for its apply step or its end: it has started (02 R62). -/
def setWaiting (c : Cmd) (s : State) : State :=
  { s with cmds := s.cmds.map fun x => if x.same c then { x with waiting := true } else x }

/-! ## Steps 7 to 12 -/

/-- Step 7 over the fields of a block and the offsets of failed relations (02 R53). -/
def blockFault (lay : List Fld) (b : List Byte) (more : List Nat) : Option Reply := lowestFault (fieldFaults lay b ++ more)

/-- `n` bytes of bulk data after a block (02 R38). -/
def bulkBytes (lay : List Fld) (b : List Byte) (n : Nat) : List Byte := (b.drop (blockLen lay)).take n

/-- The answer `ST_DATA_CRC`. -/
def dataCrc : Reply := { status := 0x15 }
/-- The answer `ST_BUSY`. -/
def busy : Reply := { status := 0x01 }

/-- The opcodes that a device in thermal stop takes; `REC.STATUS` with OP 0 only (17 R574). -/
def stopAllows (c : Cmd) : Bool :=
  [0x0002, 0x0004, 0x0003, 0x0101, 0xA003, 0xA002, 0x7104, 0x0305, 0x0203, 0x0402].contains c.opcode ||
    (c.opcode == 0x3105 && fieldAt c.region 0 1 == 0)

/-- A buffer that a block names: offset of its address field, first address, length. -/
def buffersOf (op : Nat) (b : List Byte) : List (Nat × Nat × Nat) :=
  match op with
  | 0x2001 => if fieldAt b 2 1 = 0 then [] else [(0x10, fieldAt b 0x10 8, fieldAt b 0x18 2 * fieldAt b 0x1C 4)]
  | 0x2005 => if bit (fieldAt b 0 1) 0 then [(8, fieldAt b 8 8, fieldAt b 0x10 2 * fieldAt b 0x14 4)] else []
  | 0x2104 => [(0x38, fieldAt b 0x38 8, fieldAt b 0x40 2 * fieldAt b 0x44 4)]
  | 0x2105 => if bit (fieldAt b 0 1) 1 then [(8, fieldAt b 8 8, fieldAt b 0x10 4)] else []
  | 0x3002 => [(0, fieldAt b 0 8, fieldAt b 8 8)]
  | 0x4005 => if bit (fieldAt b 2 1) 0 then [(8, fieldAt b 8 8, fieldAt b 4 2 * fieldAt b 0x10 4)] else []
  | 0x4101 => [(8, fieldAt b 8 8, fieldAt b 0x10 2 * fieldAt b 0x14 4)]
  | 0x5101 => [(0x10, fieldAt b 0x10 8, fieldAt b 0 4)]
  | 0x6001 => [(0x2C, fieldAt b 0x2C 8, fieldAt b 0x34 2 * 32)]
  | 0x6002 => if fieldAt b 2 1 = 2 then [(0x18, fieldAt b 0x18 8, 2 * alignUp (fieldAt b 0xE 2 * fieldAt b 0x10 2) 4096)] else []
  | 0x7002 => if 9 ≤ fieldAt b 1 1 then [(0x48, fieldAt b 0x48 8, fieldAt b 0x50 2 * fieldAt b 0x54 4)] else []
  | _ => []

/-- Step 8: `ST_DEVICE_STOPPED` in a thermal stop, and for a command that names HBM while the Groom waits to enter
self-refresh (10 R387, 17 R574). -/
def stopped (s : State) (c : Cmd) : Option Reply :=
  need ((s.thm.stop == 0 || stopAllows c) && !(s.sys.entryDue && !(buffersOf c.opcode c.region).isEmpty)) { status := 0x70 }

/-- Whether a unit's class lies in the Slack set: the head and the port that `PWR.LIMITS` names, queues and time engines
(17 R553). -/
def inSlackSet (s : State) (cls inst : Nat) : Bool :=
  let b := (committedBlk s 0xA001 0 0).getD [0, 4, 2, 0]
  match cls with
  | 0x60 => inst == fieldAt b 2 1
  | 0x70 => inst == fieldAt b 3 1
  | 0x51 => true
  | 0x71 => true
  | _ => (classUnits cls).isNone

/-- Opcodes that configure or start a unit (17 R555). -/
def configures (op : Nat) : Bool :=
  stagedOps.contains op || [0x1003, 0x2006, 0x3102, 0x4101, 0x4102, 0x6003, 0x6004].contains op

/-- Step 10 under Slack: a command that would configure or start a unit outside the Slack set (17 R555). -/
def slackDenied (s : State) (c : Cmd) : Option Reply :=
  need (s.sys.profile != 3 || inSlackSet s (c.opcode / 256) c.target || !configures c.opcode)
    { status := 0x31, detail := Config.loadEstimateMw s.freeCtr % 2 ^ 32 }

/-- Step 11 for a unit that has been ordered to its safe state and has not reached it (02 R66). -/
def safePending (s : State) (c : Cmd) : Option Reply :=
  need (match c.unit with
    | some k => safeOf s k != 1
    | none => true) busy

/-- Steps 7 to 11 in the order of R50: the block, its sizes and CRC, the stop, admission, power, the unit. -/
def inOrder (s : State) (c : Cmd) (s7 s9 s10 s11 : Option Reply) : Option Reply :=
  firstFail [s7, stopped s c, s9, slackDenied s c, s10, safePending s c, s11]

/-! ## Staged and committed configuration (02 R68-R71, 20 R634) -/

/-- The function's staged block joins the staged state; it takes the place of the one staged for the same parameters. -/
def putStaged (e : Staged) (l : List Staged) : List Staged := (l.filter fun x => x.key != e.key) ++ [e]

/-- The value of a parameter block that a command carries. -/
def valOf (lay : List Fld) (c : Cmd) (bulkLen : Nat) : CfgVal :=
  let b := bulkBytes lay c.region bulkLen
  { blk := c.region.take (blockLen lay), bulk := b, crc := crc64 b }

/-- Writes a block into shadow state (02 'Epoch commit and digest'). -/
def stagePut (f key : Nat) (v : CfgVal) (s : State) : State :=
  { s with cfg := { s.cfg with staged := putStaged ⟨f, key, v, s.cfg.stagings⟩ s.cfg.staged, stagings := s.cfg.stagings + 1 } }

/-- The effect of a staged command: the block enters shadow state and the command completes with DEFERRED. -/
def stageCmd (lay : List Fld) (bulkLen key : Nat) (c : Cmd) (s : State) : State :=
  complete c { deferred := true } (stagePut c.fn key (valOf lay c bulkLen) s)

/-- A configuration with an image laid over it. -/
def overlay (base : Tbl CfgVal) (img : List Staged) : Tbl CfgVal := img.foldl (fun t e => Tbl.set t e.key e.val) base

/-- The configuration that would result from committing everything staged and scheduled so far (03 R108). -/
def resulting (s : State) : Tbl CfgVal := overlay (s.cfg.sched.foldl (fun t x => overlay t x.img) s.cfg.committed) s.cfg.staged

/-- A block of a configuration. -/
def blkIn (t : Tbl CfgVal) (op unit slot : Nat) : Option (List Byte) := (Tbl.find? t (cfgKey op unit slot)).map (·.blk)

/-- The block of a unit in the resulting configuration. -/
def resBlk (s : State) (op unit slot : Nat) : Option (List Byte) := blkIn (resulting s) op unit slot

/-- The staged state in a scope: the function's own, or the device's (02 R72). -/
def stagedIn (s : State) (f scope : Nat) : List Staged :=
  if scope = 0 then s.cfg.staged.filter (·.fn == f) else s.cfg.staged

/-- Slots of a command that has several values of its fields (20 R634; log 19). -/
def opSlots (op : Nat) : List Nat :=
  match op with
  | 0x2002 => [0, 1, 2, 3, 4, 5, 6, 7, 8, 9, 16, 17]
  | 0x2101 => (List.range 4).flatMap fun o => (List.range 4).flatMap fun g => (List.range 4).map fun k => o * 16 + g * 4 + k
  | 0x2102 => [0, 1, 2, 3, 4]
  | 0x2104 => [0, 1, 2, 3]
  | 0x6002 => [0, 1, 2, 3]
  | 0x7002 => List.range 32
  | _ => [0]

/-- Instances of a class in the canonical image; `FUNC.SHARES` has one for each virtual function (log 19). -/
def opUnits (op : Nat) : List Nat :=
  if op / 256 = 0x04 then (List.range 15).map (· + 1)
  else match classUnits (op / 256) with
    | some (_, n) => List.range n
    | none => [0]

/-- The value of a field over all instances and slots of a configuration. -/
def imageField (t : Tbl CfgVal) (op : Nat) (f : Fld) : List Byte :=
  (opUnits op).flatMap fun u => (opSlots op).flatMap fun k =>
    match Tbl.find? t (cfgKey op u k) with
    | some v => if f.bulk then leBytes 8 v.crc else (v.blk.drop f.off).take (f.size * f.cnt)
    | none => leBytes (if f.bulk then 8 else f.size * f.cnt) 0

/-- The parameters of a class in the order of their ordinals: reserved fields are none (20 R634). -/
def classParams (cls : Nat) : List (Nat × Fld) :=
  (stagedOps.filter fun op => op / 256 == cls).flatMap fun op =>
    ((tableFields op).filter fun f => f.chk != .rsv).map fun f => (op, f)

/-- The classes with staged commands, ascending. -/
def imageClasses : List Nat := (stagedOps.map (· / 256)).dedup

/-- The canonical image of a configuration: identifier, length and value of each parameter that is not local (02 R70). -/
def canonicalImage (t : Tbl CfgVal) : List Byte :=
  imageClasses.flatMap fun cls =>
    ((classParams cls).zipIdx).flatMap fun e =>
      if e.1.2.loc then []
      else
        let v := imageField t e.1.1 e.1.2
        leBytes 2 (cls * 256 + e.2) ++ leBytes 2 v.length ++ v

/-- The digest of a configuration (02 R70). -/
def digest (t : Tbl CfgVal) : Nat := crc64 (canonicalImage t)

/-- The digest that `EPOCH.STAGE` of a scope returns (02 R655). -/
def stageDigest (s : State) (f scope : Nat) : Nat := digest (overlay s.cfg.committed (stagedIn s f scope))

end Sys2Proof.Machine
end

