-- ==== Sys2Proof/Machine/Geometry.lean ====
section
/-! DEFINITION. What a configuration says of streams, taps, sessions, heads and flows: the fields of the parameter blocks
that several chapters read, frame sizes (04 R145, R146, 07 R266), and the HBM buffers that a block names (10 R363). -/

namespace Sys2Proof.Machine

/-- A rate of 10⁹ / period, in frames per second (10 R377). -/
def perSec (period : Nat) : Rat := 1000000000 / period

/-! ## Pipe streams -/

/-- `PIPE.CONFIGURE` of a stream in a configuration. -/
structure PipeCfg where
  source : Nat
  index : Nat
  width : Nat
  height : Nat
  cfa : Nat
  bits : Nat
  dual : Bool
  weight : Nat
  period : Nat
  ringBase : Nat
  ringSlots : Nat
  lineTol : Nat
  slotBytes : Nat
  retractCrc : Bool
  outputs : Nat
deriving DecidableEq, Repr

/-- The fields of a block of `PIPE.CONFIGURE`. -/
def PipeCfg.of (b : List Byte) : PipeCfg :=
  { source := fieldAt b 2 1, index := fieldAt b 3 1, width := fieldAt b 4 2, height := fieldAt b 6 2, cfa := fieldAt b 8 1
    bits := fieldAt b 9 1, dual := fieldAt b 0xA 1 == 1, weight := fieldAt b 0xB 1, period := fieldAt b 0xC 4
    ringBase := fieldAt b 0x10 8, ringSlots := fieldAt b 0x18 2, lineTol := fieldAt b 0x1A 2, slotBytes := fieldAt b 0x1C 4
    retractCrc := bit (fieldAt b 0x20 4) 0, outputs := fieldAt b 0x24 4 }

/-- The configuration of a stream. -/
def pipeIn (t : Tbl CfgVal) (i : Nat) : Option PipeCfg := (blkIn t 0x2001 i 0).map PipeCfg.of

/-- P, the samples of a pixel (04 R145). -/
def PipeCfg.planes (p : PipeCfg) : Nat := if p.dual then 2 else 1

/-- Line pitch LP (04 R145). -/
def PipeCfg.pitch (p : PipeCfg) : Nat := 64 * cdiv (8 + cdiv (p.width * p.bits * p.planes) 8) 64

/-- Frame size F (04 R145). -/
def PipeCfg.frameBytes (p : PipeCfg) : Nat := 4096 * cdiv (4096 + p.height * p.pitch) 4096

/-- Metadata record size M (04 R146). -/
def PipeCfg.metaBytes (p : PipeCfg) : Nat := 64 * cdiv (20524 + p.height) 64

/-- Whether a stream is written or read by Bridle. -/
def PipeCfg.bridle (p : PipeCfg) : Bool := decide (p.source ≤ 1)

/-- Optical-black margins of a stream: OB_TOP, OB_LEFT, OB_RIGHT (05 'Black'); in a stripe stream OB_LEFT counts on device
0 only and OB_RIGHT on the last device only (14 R485). -/
def obOf (s : State) (t : Tbl CfgVal) (i : Nat) : Nat × Nat × Nat :=
  let b := (blkIn t 0x2003 i 0).getD []
  let stripe := i == 0 && bit (fieldAt ((blkIn t 0x8002 0 0).getD []) 1 1) 0
  (fieldAt b 1 1,
   if stripe && s.sys.device != 0 then 0 else fieldAt b 2 2,
   if stripe && s.sys.device + 1 != s.sys.arraySize then 0 else fieldAt b 4 2)

/-- Active width and height Wa × Ha. -/
def activeArea (s : State) (t : Tbl CfgVal) (i : Nat) (p : PipeCfg) : Nat × Nat :=
  let o := obOf s t i
  (p.width - o.2.1 - o.2.2, p.height - o.1)

/-! ## Taps -/

/-- `COL.OUTPUT` of a tap of a stream. -/
structure TapCfg where
  encoding : Nat
  format : Nat
  kernel : Nat
  crop : Nat × Nat × Nat × Nat
  outW : Nat
  outH : Nat
  div : Nat
  phase : Nat
  full : Bool
  ringBase : Nat
  ringSlots : Nat
  slotBytes : Nat
deriving DecidableEq, Repr

/-- The fields of a block of `COL.OUTPUT`. -/
def TapCfg.of (b : List Byte) : TapCfg :=
  { encoding := fieldAt b 1 1, format := fieldAt b 2 1, kernel := fieldAt b 3 1
    crop := (fieldAt b 4 2, fieldAt b 6 2, fieldAt b 8 2, fieldAt b 0xA 2)
    outW := fieldAt b 0xC 2, outH := fieldAt b 0xE 2, div := fieldAt b 0x10 1, phase := fieldAt b 0x11 1
    full := fieldAt b 0x12 1 == 1, ringBase := fieldAt b 0x38 8, ringSlots := fieldAt b 0x40 2, slotBytes := fieldAt b 0x44 4 }

/-- The configuration of tap `k` of stream `i`. -/
def tapIn (t : Tbl CfgVal) (i k : Nat) : Option TapCfg := (blkIn t 0x2104 i k).map TapCfg.of

/-- The H.273 code points of an encoding other than 0: primaries, transfer characteristics, matrix coefficients (07 R260). -/
def h273Of : Nat → List Nat
  | 1 => [1, 1, 1]
  | 2 => [9, 16, 9]
  | 3 => [9, 18, 9]
  | 4 => [2, 2, 0]
  | 5 => [2, 8, 0]
  | _ => [9, 14, 9]

/-- The colour description that every consumer of a tap signals: COLOUR_DESC for ENCODING 0 (07 R260). -/
def h273 (b : List Byte) : List Nat :=
  if fieldAt b 1 1 = 0 then (List.range 3).map fun k => fieldAt b (0x18 + k) 1 else h273Of (fieldAt b 1 1)

/-- Bytes of a slot of a picture of a FORMAT (07 R266). -/
def pictureBytes (format w h : Nat) : Nat :=
  let line := match format with
    | 0 => 12 * w
    | 1 => 6 * w
    | 4 => w
    | _ => 2 * w
  let p := alignUp line 256
  let luma := alignUp (p * h) 4096
  match format with
  | 0 => p * h
  | 1 => p * h
  | 2 => luma + p * h
  | _ => luma + p * h / 2

/-- Bytes of a tap's slot (07 R266). -/
def TapCfg.bytes (x : TapCfg) : Nat := pictureBytes x.format x.outW x.outH

/-- Key of slot `n` of a tap's ring; `gen` counts the rings that the tap has had (07 R270). -/
def slotKey (gen n : Nat) : Nat := 64 * gen + n
/-- The ring of a slot's key. -/
def slotGen (key : Nat) : Nat := key / 64

/-- `COL.OUTPUT` under which a slot was opened. -/
def TapSlot.cfg (y : TapSlot) : TapCfg := TapCfg.of y.blk

/-- First address of a slot by its key. -/
def TapSlot.base (y : TapSlot) (key : Nat) : Nat := y.cfg.ringBase + key % 64 * y.cfg.slotBytes

/-- Whether a slot waits for its patch (06 R225). -/
def TapSlot.unpatched (y : TapSlot) : Bool := y.state == 2 && y.patchFrom.isSome && !y.patched

/-- Whether a tap processes a serial (07 R249). -/
def inPhase (x : TapCfg) (serial : Nat) : Bool := serial % x.div == x.phase

/-- Whether tap `k` of a stream is written back (OUTPUTS[5:2] of `PIPE.CONFIGURE`). -/
def writesBack (p : PipeCfg) (k : Nat) : Bool := bit p.outputs (2 + k)

/-! ## Coding sessions -/

/-- `ENC.OPEN` of a core. -/
structure EncCfg where
  mask : Nat
  profile : Nat
  level : Nat
  source : Nat
  width : Nat
  height : Nat
  period : Nat
  rcMode : Nat
  runAhead : Bool
  gop : Nat
  kbps : Nat
  maxKbps : Nat
  gradual : Bool
  tap : Nat
  refreshPeriod : Nat
  queue : Nat
  stream : Nat
deriving DecidableEq, Repr

/-- The fields of a block of `ENC.OPEN`. -/
def EncCfg.of (b : List Byte) : EncCfg :=
  { mask := fieldAt b 0 1, profile := fieldAt b 1 1, level := fieldAt b 2 1, source := fieldAt b 3 1, width := fieldAt b 4 2
    height := fieldAt b 6 2, period := fieldAt b 8 4, rcMode := fieldAt b 0xC 1, runAhead := fieldAt b 0xD 1 == 1
    gop := fieldAt b 0xE 2, kbps := fieldAt b 0x10 4, maxKbps := fieldAt b 0x14 4, gradual := fieldAt b 0x18 1 == 1
    tap := fieldAt b 0x19 1, refreshPeriod := fieldAt b 0x1A 2, queue := fieldAt b 0x1C 2, stream := fieldAt b 0x1E 2 }

/-- The open session of a core. -/
def encIn (t : Tbl CfgVal) (core : Nat) : Option EncCfg := (blkIn t 0x4001 core 0).map EncCfg.of

/-- Whether a tap runs: it is configured, and its stream writes it back or a coding session names it (07 'Output taps'). -/
def tapRuns (t : Tbl CfgVal) (i k : Nat) : Bool :=
  match pipeIn t i with
  | some p => (tapIn t i k).isSome && (writesBack p k || (List.range 6).any fun c =>
      match encIn t c with
      | some e => e.stream == i && e.tap == k
      | none => false)
  | none => false

/-- `ENC.RATE` of a session, or the defaults (09). -/
structure RateCfg where
  kbps : Nat
  maxKbps : Nat
  vbvMs : Nat
  sliceRows : Nat
  rtp : Bool
  rtpMax : Nat
  refs : Nat
  qpI : Nat
  qpP : Nat
  qpMin : Int
  qpMax : Int
  sao : Bool
  hash : Bool
deriving DecidableEq, Repr

/-- The rate parameters of the session of a core. -/
def rateIn (t : Tbl CfgVal) (core : Nat) (e : EncCfg) : RateCfg :=
  match blkIn t 0x4004 core 0 with
  | none => { kbps := e.kbps, maxKbps := e.maxKbps, vbvMs := 1000, sliceRows := 0, rtp := false, rtpMax := 1400, refs := 1
              qpI := 27, qpP := 30, qpMin := 0, qpMax := 51, sao := true, hash := false }
  | some b =>
    { kbps := if fieldAt b 8 4 = 0 then e.kbps else fieldAt b 8 4
      maxKbps := if fieldAt b 0xC 4 = 0 then e.maxKbps else fieldAt b 0xC 4
      vbvMs := fieldAt b 6 2, sliceRows := fieldAt b 0x10 1, rtp := fieldAt b 0x11 1 == 1, rtpMax := fieldAt b 0x12 2
      refs := fieldAt b 0x14 1, qpI := fieldAt b 4 1, qpP := fieldAt b 5 1, qpMin := signed 8 (fieldAt b 2 1)
      qpMax := signed 8 (fieldAt b 3 1), sao := bit (fieldAt b 0x15 1) 0, hash := bit (fieldAt b 0x15 1) 1 }

/-- B, the bytes of one picture of a session: its tap's slot layout (09 'Coding arena'). -/
def encPicture (e : EncCfg) : Nat :=
  pictureBytes (if e.profile = 1 then 4 else if e.profile = 2 then 3 else 2) e.width e.height

/-- The hold area of a session in bytes (09 R334). -/
def holdBytes (e : EncCfg) (maxKbps : Nat) : Nat := max 4194304 (4 * maxKbps * e.period / 8000000)

/-! ## Heads -/

/-- `DSP.CONFIGURE` of a head. -/
structure HeadCfg where
  width : Nat
  height : Nat
  period : Nat
  links : Nat
  sync : Nat
  lock : Bool
  mirror : Nat
  phaseNs : Nat
  start : Time
  format : Nat
  flags : Nat
  mbps : Nat
  ulpsFrames : Nat
  ringBase : Nat
  ringSlots : Nat
deriving DecidableEq, Repr

/-- The fields of a block of `DSP.CONFIGURE`. -/
def HeadCfg.of (b : List Byte) : HeadCfg :=
  { width := fieldAt b 0 2, height := fieldAt b 2 2, period := fieldAt b 4 4, links := fieldAt b 8 1, sync := fieldAt b 9 1
    lock := fieldAt b 0xA 1 == 1, mirror := fieldAt b 0xB 1, phaseNs := fieldAt b 0xC 4, start := timeAt b 0x10
    format := fieldAt b 0x24 1, flags := fieldAt b 0x25 1, mbps := fieldAt b 0x26 2, ulpsFrames := fieldAt b 0x28 2
    ringBase := fieldAt b 0x2C 8, ringSlots := fieldAt b 0x34 2 }

/-- The configuration of a head. -/
def headIn (t : Tbl CfgVal) (h : Nat) : Option HeadCfg := (blkIn t 0x6001 h 0).map HeadCfg.of

/-- `DSP.PLANE` of a head. -/
structure PlaneCfg where
  plane : Nat
  enable : Bool
  source : Nat
  hold : Bool
  stream : Nat
  tap : Nat
  zoom : Nat
  x : Nat
  y : Nat
  leadRows : Nat
  ovW : Nat
  ovH : Nat
  decEncoding : Nat
  decFull : Bool
  ovBase : Nat
deriving DecidableEq, Repr

/-- The fields of a block of `DSP.PLANE`. -/
def PlaneCfg.of (b : List Byte) : PlaneCfg :=
  { plane := fieldAt b 0 1, enable := fieldAt b 1 1 == 1, source := fieldAt b 2 1, hold := fieldAt b 3 1 == 1
    stream := fieldAt b 4 2, tap := fieldAt b 6 1, zoom := fieldAt b 7 1, x := fieldAt b 8 2, y := fieldAt b 0xA 2
    leadRows := fieldAt b 0xC 2, ovW := fieldAt b 0xE 2, ovH := fieldAt b 0x10 2, decEncoding := fieldAt b 0x12 1
    decFull := fieldAt b 0x13 1 == 1, ovBase := fieldAt b 0x18 8 }

/-- The configuration of plane `k` of a head. -/
def planeIn (t : Tbl CfgVal) (h k : Nat) : Option PlaneCfg := (blkIn t 0x6002 h k).map PlaneCfg.of

/-- A decode session by its number. -/
def decSession (s : State) (n : Nat) : Option DecSess := s.cod.dec.find? (·.id == n)

/-- Size of a video plane: its tap's output, or the largest picture of the decode session (12 R418). -/
def planeSize (s : State) (t : Tbl CfgVal) (x : PlaneCfg) : Nat × Nat :=
  if x.source = 1 then
    match decSession s x.stream with
    | some d => (fieldAt d.blk 4 2, fieldAt d.blk 6 2)
    | none => (0, 0)
  else if x.source = 0 then
    match tapIn t x.stream x.tap with
    | some k => (k.outW, k.outH)
    | none => (0, 0)
  else (x.zoom * x.ovW, x.zoom * x.ovH)

/-- Bytes that a head reads for a plane in a head frame (10 R377, 12 'Worked example'). -/
def planeBytes (s : State) (t : Tbl CfgVal) (x : PlaneCfg) : Nat :=
  if x.source = 1 then
    match decSession s x.stream with
    | some d => pictureBytes 2 (fieldAt d.blk 4 2) (fieldAt d.blk 6 2)
    | none => 0
  else if x.source = 0 then ((tapIn t x.stream x.tap).map TapCfg.bytes).getD 0
  else x.ovW * x.ovH

/-! ## Flows -/

/-- `NET.FLOW` of a port. -/
structure FlowCfg where
  flow : Nat
  kind : Nat
  paths : Nat
  live : Bool
  stream : Nat
  tap : Nat
  subport : Nat
  queue : Nat
  audio : Nat
  sender : Nat
  payloadType : Nat
  packing : Nat
  ssrc : Nat
  txOffset : Nat
  rateKbps : Nat
  leadRows : Nat
  dst : List (Nat × Nat × Nat)
  ringBase : Nat
  ringSlots : Nat
  skewMs : Nat
  slotBytes : Nat
  width : Nat
  height : Nat
  tcOffset : Int
  period : Nat
  dscp : Nat
  ttl : Nat
  link : List (Nat × Nat × Nat)
deriving DecidableEq, Repr

/-- The fields of a block of `NET.FLOW`; `dst` holds DST_IP, SRC_IP and DST_PORT of each path, `link` SRC_PORT, DST_MAC and VLAN. -/
def FlowCfg.of (b : List Byte) : FlowCfg :=
  { flow := fieldAt b 0 1, kind := fieldAt b 1 1, paths := fieldAt b 2 1, live := fieldAt b 3 1 == 1
    stream := fieldAt b 4 2, tap := fieldAt b 6 1, subport := fieldAt b 7 1, queue := fieldAt b 8 2
    audio := fieldAt b 0xA 2, sender := fieldAt b 0xC 1, payloadType := fieldAt b 0xD 1, packing := fieldAt b 0xE 2
    ssrc := fieldAt b 0x10 4, txOffset := fieldAt b 0x14 4, rateKbps := fieldAt b 0x18 4, leadRows := fieldAt b 0x1C 2
    dst := [(fieldAt b 0x20 4, fieldAt b 0x24 4, fieldAt b 0x28 2), (fieldAt b 0x34 4, fieldAt b 0x38 4, fieldAt b 0x3C 2)]
    ringBase := fieldAt b 0x48 8, ringSlots := fieldAt b 0x50 2, skewMs := fieldAt b 0x52 2, slotBytes := fieldAt b 0x54 4
    width := fieldAt b 0x58 2, height := fieldAt b 0x5A 2, tcOffset := signed 32 (fieldAt b 0x5C 4), period := fieldAt b 0x60 4
    dscp := fieldAt b 0x1E 1, ttl := fieldAt b 0x1F 1
    link := [(fieldAt b 0x2A 2, fieldAt b 0x2C 6, fieldAt b 0x32 2), (fieldAt b 0x3E 2, fieldAt b 0x40 6, fieldAt b 0x46 2)] }

/-- Whether a KIND of a flow is one that sends (13 R456). -/
def sendingKind (k : Nat) : Bool := decide (1 ≤ k) && decide (k < 9)

/-- Flow `f` of port `p`, where one is configured. -/
def flowIn (t : Tbl CfgVal) (p f : Nat) : Option FlowCfg :=
  match (blkIn t 0x7002 p f).map FlowCfg.of with
  | some x => if x.kind = 0 then none else some x
  | none => none

/-- Channels of an audio mask. -/
def maskCount (m n : Nat) : Nat := ((List.range n).filter (bit m)).length

/-! ## HBM buffers (10 R363) -/

/-- The table of a tap's slots. -/
def tapTable (s : State) (i k : Nat) : Tbl TapSlot := (stream s i).taps.getD k []

/-- Whether a slot of a tap is held by a reader: a head's plane, a flow, or a coding session that reads the tap
(06 R224). A plane holds the slot of the picture that it took last (12 R422). -/
def tapHeld (s : State) (i k slot serial : Nat) : Bool :=
  ((List.range 4).any fun h => (List.range 2).any fun pl => match planeIn s.cfg.active h pl with
    | some x => x.enable && x.source == 0 && x.stream == i && x.tap == k &&
        (match (s.heads.getD h {}).vids.getD pl none with
          | some q => q.slot == slot
          | none => false)
    | none => false) ||
  ((List.range 2).any fun p => (List.range 32).any fun f => match flowIn s.cfg.active p f with
    | some x => (x.kind == 1 || x.kind == 3) && x.stream == i && x.tap == k &&
        (((s.net.getD p {}).flows.getD f {}).frame == some slot)
    | none => false) ||
  (s.cod.enc.any fun e => match encIn s.cfg.active e.core with
    | some x => x.source == 1 && x.stream == i && x.tap == k && ((e.waiting.any fun q => q.serial == serial) || e.pics.any fun q =>
        q.serial == serial && q.coded.isNone)
    | none => false)

/-- The buffers of a list of blocks by place: place, first address, length. -/
def buffersIn (l : List (Nat × CfgVal)) : List (Nat × Nat × Nat) :=
  l.flatMap fun e => (buffersOf (e.1 / 65536) e.2.blk).map fun b => (e.1, b.2.1, b.2.2)

/-- Rings that a reader still holds a slot of, whether any state names them or not: those of taps, and those of frames that
a pipe has not finished (07 R270, 10 R363). -/
def heldBuffers (s : State) : List (Nat × Nat × Nat) :=
  buffersIn ((List.range s.streams.length).flatMap fun i =>
    ((List.range 4).flatMap fun k => ((tapTable s i k).filter fun e => e.2.state == 0 || tapHeld s i k e.1 e.2.serial).map fun e =>
      (cfgKey 0x2104 i k, ({ blk := e.2.blk } : CfgVal))) ++
    ((stream s i).frames.map (·.cfg) ++ (stream s i).ready.map (·.cfg)).filterMap fun t =>
      (blkIn t 0x2001 i 0).map fun b => (cfgKey 0x2001 i 0, ({ blk := b } : CfgVal)))

/-- Every buffer of committed, scheduled and staged state, and every one that a reader holds. -/
def namedBuffers (s : State) : List (Nat × Nat × Nat) :=
  buffersIn s.cfg.committed ++ buffersIn (s.cfg.sched.flatMap fun x => x.img.map fun e => (e.key, e.val)) ++
    buffersIn (s.cfg.staged.map fun e => (e.key, e.val)) ++ heldBuffers s ++
    (s.queues.filter (·.2.configured)).map (fun q => (cfgKey 0x5101 (q.1 % 256) 0, q.2.base, q.2.size)) ++
    s.cod.dec.map fun d => (cfgKey 0x4101 d.core 0, fieldAt d.blk 8 8, fieldAt d.blk 0x10 2 * fieldAt d.blk 0x14 4)

/-- Whether two buffers share a byte. -/
def overlaps (a n b m : Nat) : Bool := decide (a < b + m) && decide (b < a + n)

/-- Offsets of the address fields of a block whose buffer is not 4 KiB aligned, lies outside the buffer range, or shares
bytes with another buffer; a buffer named again unchanged is the same buffer (10 R363; log 21). -/
def bufferFaults (s : State) (op key : Nat) (b : List Byte) : List Nat :=
  ((buffersOf op b).filter fun x =>
    x.2.1 % 4096 != 0 || decide (x.2.1 < Config.bufferBase) || decide (Config.hbmEnd < x.2.1 + x.2.2) ||
      (namedBuffers s).any fun y => overlaps x.2.1 x.2.2 y.2.1 y.2.2 && !(y.1 == key && y.2 == x.2)).map (·.1)

/-! ## What streams carry from frame to frame (05 R179, 07 R242) -/

/-- `PIPE.BLACK` of a stream, or its defaults (05 R181). -/
def blackBlk (t : Tbl CfgVal) (i : Nat) : List Byte :=
  (blkIn t 0x2003 i 0).getD
    (leBytes 6 0 ++ [4, 32] ++ leBytes 2 0x100 ++ leBytes 2 0 ++ leBytes 4 2048 ++ leBytes 80 0)

/-- `COL.NR` of a stream, or its defaults (07 R243). -/
def nrBlk (t : Tbl CfgVal) (i : Nat) : List Byte := (blkIn t 0x2105 i 0).getD (leBytes 2 0 ++ leBytes 2 256 ++ leBytes 124 0)

/-- Slot of `PIPE.GRID_LOAD` for a KIND and INDEX: shading grids 0-7, defect maps 8 and 9, column tables 16 and 17. -/
def gridSlot (kind index : Nat) : Nat := kind * 8 + index

/-- A table of a stream. -/
def tableIn (t : Tbl CfgVal) (op i slot : Nat) : Option CfgVal := Tbl.find? t (cfgKey op i slot)

/-- Whether a commit changes what the column estimate rests on (05 R179). -/
def estimateRestarts (old new : Tbl CfgVal) (i : Nat) : Bool :=
  let a := blackBlk old i
  let b := blackBlk new i
  a.take 2 != b.take 2 || a.drop 0x20 != b.drop 0x20 ||
    [0, 1].any fun g => tableIn old 0x2002 i (gridSlot 2 g) != tableIn new 0x2002 i (gridSlot 2 g)

/-- Whether a commit ends the TNR reference (07 R242). -/
def tnrRestarts (old new : Tbl CfgVal) (i : Nat) : Bool :=
  let geo (t : Tbl CfgVal) := (pipeIn t i).map fun p => (p.width, p.height, p.cfa)
  geo old != geo new || ((blackBlk old i).drop 1).take 5 != ((blackBlk new i).drop 1).take 5 ||
    bit (fieldAt (nrBlk old i) 0 1) 1 != bit (fieldAt (nrBlk new i) 0 1) 1

/-- The TNR reference of a stream ends: its frames refer to nothing that came before (07 R242). -/
def endTnr (x : StreamSt) : StreamSt := { x with tnrGen := x.tnrGen + 1, tnrRef := none, lastGood := none }

/-- What a commit ends of the streams: the column estimate of those whose black correction it changes (05 R179), the TNR reference
of those whose area or TNR flag it changes (07 R242). -/
def endCarried (old new : Tbl CfgVal) (s : State) : State :=
  (List.range 17).foldl (fun t i =>
    let t1 := if estimateRestarts old new i then modStream i (fun x => { x with estGen := x.estGen + 1 }) t else t
    if tnrRestarts old new i then modStream i endTnr t1 else t1) s

/-- The column estimate that a frame begins with: nothing where a commit has ended it since the frame that formed it (05 R179). -/
def estBase (x : StreamSt) (gen : Nat) : Tbl Int := if x.colGen = gen then x.colEst else []

end Sys2Proof.Machine
end

