-- ==== Sys2Proof/Machine/RawCodec.lean ====
section
/-! DEFINITION. The raw bitstream (08 R283-R294): blocks, prediction, Rice codes, frame records; and the sample packing of
04 R125. -/

namespace Sys2Proof.Machine

/-- Bits packed most significant first into bytes, the last padded with 0 bits (08 R286). -/
def packMsb (bs : List Bool) : List Byte :=
  (List.range (cdiv bs.length 8)).map fun i =>
    let g := (bs.drop (8 * i)).take 8
    BitVec.ofNat 8 (ofBitsLsb ((g ++ List.replicate (8 - g.length) false).reverse))

/-- The pixels that a payload carries (04 R125). -/
def unpackPixels (bits : Nat) (dual : Bool) : Nat → Nat → List (Nat × Nat)
  | 0, _ => []
  | n + 1, v =>
    if dual then (v % 2 ^ bits, v / 2 ^ bits % 2 ^ bits) :: unpackPixels bits dual n (v / 2 ^ (2 * bits))
    else (v % 2 ^ bits, 0) :: unpackPixels bits dual n (v / 2 ^ bits)

/-- What the coder works with: sample width, planes, CFA or monochrome, ERROR_BOUND, GAIN_RATIO. -/
structure ZipCtx where
  bits : Nat
  dual : Bool
  mono : Bool
  err : Nat
  ratio : Nat
deriving DecidableEq, Repr

/-- maxval (08 R284). -/
def zipMax (c : ZipCtx) : Int := 2 ^ c.bits - 1

/-- range (08 R287). -/
def zipRange (c : ZipCtx) : Nat := (2 ^ c.bits - 1 + 2 * c.err) / (2 * c.err + 1) + 1

/-- ceil_log2 (08 R287). -/
def ceilLog2 (n : Nat) : Nat := if n ≤ 1 then 0 else Nat.log2 (n - 1) + 1

/-- The prediction without the inter-gain term, from a plane's reconstructed values in raster order (08 R287). -/
def predBase (c : ZipCtx) (recon : List Int) (x y : Nat) : Int :=
  let t := if c.mono then 1 else 2
  let at_ (xx yy : Nat) : Int := recon.getD (16 * yy + xx) 0
  if x < t ∧ y < t then 2 ^ (c.bits - 1)
  else if x < t then at_ x (y - t)
  else if y < t then at_ (x - t) y
  else
    let a := at_ (x - t) y
    let c0 := at_ x (y - t)
    let d := at_ (x - t) (y - t)
    if max a c0 ≤ d then min a c0 else if d ≤ min a c0 then max a c0 else a + c0 - d

/-- The prediction of plane `pl` (08 R287). -/
def predFull (c : ZipCtx) (pl : Nat) (rec0 recon : List Int) (x y : Nat) : Int :=
  let p := predBase c recon x y
  if pl = 1 ∧ c.ratio ≠ 0 then
    let g := rec0.getD (16 * y + x) 0 - predBase c rec0 x y
    clampI 0 (zipMax c) (p + (g * c.ratio + 32768) / 65536)
  else p

/-- The quantised residual and the reconstructed value of a sample (08 R287). -/
def quantise (c : ZipCtx) (p s : Int) : Int × Int :=
  let e : Int := c.err
  let st := 2 * e + 1
  let range : Int := zipRange c
  let r := s - p
  let q0 := if 0 ≤ r then (r + e) / st else -((-r + e) / st)
  let q1 := if q0 < 0 then q0 + range else q0
  let q := if (range + 1) / 2 ≤ q1 then q1 - range else q1
  let v0 := p + q * st
  let v := if v0 < -e then v0 + range * st else if zipMax c + e < v0 then v0 - range * st else v0
  (q, clampI 0 (zipMax c) v)

/-- The Rice state of a plane: n, a, the last k, and the bits so far, last first (08 R288). -/
structure RiceSt where
  n : Nat := 1
  a : Nat
  k : Nat := 0
  out : List Bool := []
deriving DecidableEq, Repr

/-- The smallest k with n << k at least a, at most a limit (08 R288). -/
def riceK (n a limit : Nat) : Nat := ((List.range limit).find? fun k => decide (a ≤ n * 2 ^ k)).getD limit

/-- The Rice code of a mapped value (08 R288). -/
def riceCode (bq : Nat) (st : RiceSt) (m : Nat) : RiceSt :=
  let k := riceK st.n st.a (min 15 bq)
  let u := m / 2 ^ k
  let code := if u < 24 then List.replicate u false ++ [true] ++ (bitsLsb k m).reverse
    else List.replicate 24 false ++ [true] ++ (bitsLsb bq m).reverse
  let a := st.a + m
  let n := st.n + 1
  if n = 32 then { n := 16, a := a / 2, k := k, out := code.reverse ++ st.out }
  else { n := n, a := a, k := k, out := code.reverse ++ st.out }

/-- Codes the samples of a plane in raster order; returns the state and the reconstructed plane. -/
def codePlane (c : ZipCtx) (pl : Nat) (rec0 : List Int) : List Nat → Nat → RiceSt → List Int → RiceSt × List Int
  | [], _, st, recon => (st, recon)
  | s :: ss, i, st, recon =>
    let p := predFull c pl rec0 recon (i % 16) (i / 16)
    let (q, v) := quantise c p s
    let m : Nat := if 0 ≤ q then (2 * q).toNat else (-2 * q - 1).toNat
    codePlane c pl rec0 ss (i + 1) (riceCode (ceilLog2 (zipRange c)) st m) (recon ++ [v])

/-- A block's bytes and the final k of its planes, from its samples and the K0 of its planes (08 R284-R290). -/
def codeBlock (c : ZipCtx) (px : List (Nat × Nat)) (k0 : Nat × Nat) : List Byte × (Nat × Nat) :=
  let s0 := px.map (·.1)
  let s1 := px.map (·.2)
  let (r0, rec0) := codePlane c 0 [] s0 0 { a := 2 ^ k0.1 } []
  let r1 : RiceSt := if c.dual then (codePlane c 1 rec0 s1 0 { a := 2 ^ k0.2 } []).1 else { a := 1, k := 0 }
  let rice := r0.out.reverse ++ if c.dual then r1.out.reverse else []
  let rawBytes := cdiv (px.length * (if c.dual then 2 else 1) * c.bits) 8
  let riceBytes := cdiv rice.length 8
  let raw := decide (rawBytes ≤ riceBytes)
  let payload :=
    if raw then packMsb ((s0.flatMap fun v => (bitsLsb c.bits v).reverse) ++
      if c.dual then s1.flatMap fun v => (bitsLsb c.bits v).reverse else [])
    else packMsb rice
  let hdr := leBytes 2 (payload.length + 2048 * b2n raw + 4096 * k0.1) ++ leBytes 1 (if c.dual then k0.2 else 0)
  (hdr ++ leBytes 1 (crc8 hdr) ++ payload, (r0.k, r1.k))

/-- The pixels of block `i` of a block row, in raster order. -/
def blockPixels (rows : List RowRec) (i : Nat) : List (Nat × Nat) :=
  rows.flatMap fun r => (List.range 16).map fun j => r.px.getD (16 * i + j) (0, 0)

/-- A block row: its bytes and the K0 of each column's next block (08 R283, R290). -/
def codeBlockRow (c : ZipCtx) (width : Nat) (rows : List RowRec) (ks : List (Nat × Nat)) : List Byte × List (Nat × Nat) :=
  let first := (c.bits / 2 - 2, c.bits / 2 - 2)
  let out := (List.range (width / 16)).map fun i => codeBlock c (blockPixels rows i) (ks.getD i first)
  (out.flatMap (·.1), out.map (·.2))

/-- Bytes of the largest coded block (08 R291). -/
def maxBlock (c : ZipCtx) (h : Nat) : Nat := 4 + cdiv (16 * h * (if c.dual then 2 else 1) * c.bits) 8

/-- Start of the payload in a frame record (08 R293). -/
def payloadStart (blockRows : Nat) : Nat := 64 + 64 * cdiv (4 * blockRows) 64

/-- Bytes of the worst-case frame record (08 R291, R295). -/
def worstRecord (c : ZipCtx) (width height : Nat) : Nat :=
  let n := cdiv height 16
  let h := height - 16 * ((height - 1) / 16)
  alignUp (payloadStart n + (width / 16) * ((n - 1) * maxBlock c 16 + maxBlock c h)) 64

/-- The header of a record (08 R292). -/
def recordHeader (type flags serial length stream : Nat) : List Byte :=
  leBytes 4 0x43525854 ++ leBytes 1 type ++ leBytes 1 flags ++ leBytes 2 serial ++ leBytes 4 length ++ leBytes 1 stream ++
    leBytes 1 1 ++ leBytes 2 0

/-- A list of bytes padded to a multiple of `a`. -/
def padAlign (a : Nat) (l : List Byte) : List Byte := l ++ List.replicate (alignUp l.length a - l.length) 0

/-- The frame record of completed block rows; a row not completed has 0xFFFF_FFFF in the row table (08 R293, R294). -/
def frameRecord (c : ZipCtx) (serial streamNo width height cfa verdict epoch : Nat) (t : Time)
    (done : List (List Byte)) : List Byte :=
  let n := cdiv height 16
  let payload := done.flatMap id
  let offs := (List.range n).map fun i =>
    if i < done.length then (done.take i).foldl (fun a d => a + d.length) 0 else 0xFFFFFFFF
  let table := offs.flatMap (leBytes 4)
  let start := payloadStart n
  let total := alignUp (start + payload.length) 64
  let body :=
    leBytes 2 width ++ leBytes 2 height ++ leBytes 1 cfa ++ leBytes 1 c.bits ++ leBytes 1 (if c.dual then 2 else 1) ++
    leBytes 1 c.err ++ leBytes 2 c.ratio ++ leBytes 2 verdict ++ leBytes 4 epoch ++ timeBytes t ++ leBytes 2 n ++
    leBytes 4 payload.length ++ leBytes 4 (crc32 (table ++ payload)) ++ leBytes 4 total ++ leBytes 8 0
  let head := recordHeader 1 0 serial total streamNo ++ body ++ table
  padAlign 64 (head ++ List.replicate (start - head.length) 0 ++ payload)

end Sys2Proof.Machine
end

