-- ==== Sys2Proof/Machine/Admit.lean ====
section
/-! DEFINITION. Memory guarantees g(u) (10 R377, 09 R335, 13 R468, 14 R503), the ceiling (10 R378), and admission
(03 R107-R114). Every quantity is taken from the state that would result from committing everything staged and accepted
(03 R108). -/

namespace Sys2Proof.Machine

/-- Whole MB/s of a figure in bytes per second, rounded up (10 R377). -/
def wholeMB (x : Rat) : Nat := (x / 1000000).ceil.toNat

/-- Traffic of Bridle ingest (10 R377). -/
def gBridle (t : Tbl CfgVal) : Rat :=
  ((List.range 17).map fun i => match pipeIn t i with
    | some p =>
      if p.source = 1 then ((p.frameBytes + p.metaBytes : Nat) : Rat) * perSec p.period
      else if p.source = 0 then (p.metaBytes : Rat) * perSec p.period else 0
    | none => 0).sum

/-- Traffic of a CSI-2 port. -/
def gCsi (t : Tbl CfgVal) (port : Nat) : Rat :=
  ((List.range 17).map fun i => match pipeIn t i with
    | some p => if p.source = 2 ∧ p.index = port then ((p.frameBytes + p.metaBytes : Nat) : Rat) * perSec p.period else 0
    | none => 0).sum

/-- Traffic of the write-back taps of a stream. -/
def gTaps (t : Tbl CfgVal) (i : Nat) (p : PipeCfg) : Rat :=
  ((List.range 4).map fun k => match tapIn t i k with
    | some x => if writesBack p k then (x.bytes : Rat) * perSec p.period / x.div else 0
    | none => 0).sum

/-- Traffic of a pipe stream. -/
def gPipe (s : State) (t : Tbl CfgVal) (i : Nat) : Rat :=
  match pipeIn t i with
  | none => 0
  | some p =>
    let r := perSec p.period
    let a := activeArea s t i p
    (if p.source = 0 then 0 else (p.frameBytes : Rat) * r) + gTaps t i p +
      (if bit (fieldAt ((blkIn t 0x2105 i 0).getD []) 0 1) 1 then (6 * (a.1 * a.2) : Nat) * r else 0) +
      (match blkIn t 0x2005 i 0 with
        | some b => if bit (fieldAt b 0 1) 0 then (fieldAt b 0x14 4 : Rat) * r else 0
        | none => 0)

/-- Traffic of a capture group, by its lowest channel. -/
def gGroup (t : Tbl CfgVal) (z : Nat) : Rat :=
  match blkIn t 0x3001 z 0 with
  | none => 0
  | some b =>
    if fieldAt b 2 1 ≠ 0 then 0
    else match pipeIn t (fieldAt b 4 2) with
      | some p => ((p.width * p.height * fieldAt b 0xA 2 : Nat) : Rat) / 2048 * perSec p.period
      | none => 0

/-- Traffic of a compressor channel: its group's, or for a relay channel the group it relays. -/
def gZip (t : Tbl CfgVal) (z : Nat) : Rat :=
  match blkIn t 0x3001 z 0 with
  | none => 0
  | some b => if fieldAt b 2 1 = 1 then gGroup t (fieldAt b 0xC 1) else gGroup t z

/-- Traffic of the recorder from `REC.START` until `REC.STOP` completes. -/
def gRecorder (s : State) (t : Tbl CfgVal) : Rat :=
  if s.recorder.state = 0 then 0
  else ((List.range 16).map fun z => if bit s.recorder.zmask z then gGroup t z else 0).sum

/-- Traffic of the encode session of a core (09 R335). -/
def gEnc (t : Tbl CfgVal) (core : Nat) : Rat :=
  match encIn t core with
  | none => 0
  | some e =>
    let x := rateIn t core e
    let r := perSec e.period
    r * (1 + 3 / 2 * x.refs + (if e.source = 0 then 2 else 1)) * encPicture e + (2 * x.maxKbps * 125 : Nat) +
      (match blkIn t 0x4005 core 0 with
        | some b => if bit (fieldAt b 2 1) 0 then (fieldAt b 0x10 4 : Rat) * r else 0
        | none => 0)

/-- The head whose planes a head shows: H0's for the pair (12 'Planes and composition'). -/
def planeHead (t : Tbl CfgVal) (h : Nat) : Nat :=
  if h = 1 then (match headIn t 0 with
    | some x => if x.lock then 0 else 1
    | none => 1) else h

/-- Share of a plane's columns within a head's own half of a locked pair (12 R427). -/
def halfShare (s : State) (t : Tbl CfgVal) (h : Nat) (x : PlaneCfg) : Rat :=
  match headIn t 0 with
  | some c =>
    let w := (planeSize s t x).1
    if !c.lock || decide (2 ≤ h) || w == 0 then 1
    else if h = 0 then ((min (x.x + w) c.width - min x.x c.width : Nat) : Rat) / w
    else ((max (x.x + w) c.width - max x.x c.width : Nat) : Rat) / w
  | none => 1

/-- Traffic of a head. -/
def gHead (s : State) (t : Tbl CfgVal) (h : Nat) : Rat :=
  match headIn t (planeHead t h) with
  | none => 0
  | some c =>
    ((List.range 4).map fun k => match planeIn t (planeHead t h) k with
      | some x => if x.enable then (planeBytes s t x : Rat) * halfShare s t h x * perSec c.period else 0
      | none => 0).sum

/-- Traffic of a flow (13 R468). -/
def gFlow (t : Tbl CfgVal) (x : FlowCfg) : Rat :=
  let frame (bytes : TapCfg → Nat) : Rat := match tapIn t x.stream x.tap, pipeIn t x.stream with
    | some k, some p => (bytes k : Rat) * perSec p.period / k.div
    | _, _ => 0
  match x.kind with
  | 1 => frame TapCfg.bytes
  | 3 => frame fun _ => 4096
  | 2 => (3 * maskCount x.audio 16 * 48000 : Nat)
  | 10 => (3 * maskCount x.audio 16 * 48000 : Nat)
  | 4 => (2 * x.rateKbps * 125 : Nat)
  | 5 => (2 * x.rateKbps * 125 : Nat)
  | 9 => (x.slotBytes : Rat) * perSec x.period
  | 11 => 64000
  | _ => 0

/-- Guarantee of the flows of a port, each rounded up (13 R468). -/
def gNet (t : Tbl CfgVal) (port : Nat) : Nat :=
  ((List.range 32).map fun f => match flowIn t port f with
    | some x => wholeMB (gFlow t x)
    | none => 0).sum

/-- Traffic of a tether port: halos, routes and array slices (14 R503). -/
def gTether (s : State) (t : Tbl CfgVal) (port : Nat) : Rat :=
  let wired := if port = 0 then s.sys.device != 0 else decide (s.sys.device + 1 < s.sys.arraySize)
  let st := (blkIn t 0x8002 0 0).getD []
  let halo : Rat := match pipeIn t 0 with
    | some p =>
      if bit (fieldAt st 1 1) 0 then
        ((2 * (8 + 8 * cdiv (32 * p.planes * p.bits) 64) * fieldAt st 2 2 : Nat) : Rat) * perSec p.period else 0
    | none => 0
  let rt := (blkIn t 0x8001 0 0).getD []
  let routes : Nat := ((List.range (fieldAt rt 2 1)).map fun i =>
    let a := fieldAt rt (9 + 16 * i) 1
    let b := fieldAt rt (0xC + 16 * i) 1
    let lo := if port = 0 then s.sys.device - 1 else s.sys.device
    if min a b ≤ lo ∧ lo < max a b then 2 * fieldAt rt (0x10 + 16 * i) 4 * 125 else 0).sum
  let slices : Nat := ((List.range 6).map fun c => match encIn t c with
    | some e => if e.rcMode = 3 then 2 * (rateIn t c e).maxKbps * 125 else 0
    | none => 0).sum
  if wired then halo + routes + slices else 0

/-- g(u) of an ownable unit of this device, by its number, in MB/s. -/
def guarantee (s : State) (t : Tbl CfgVal) (u : Nat) : Nat :=
  if u = 0 then wholeMB (gBridle t)
  else if u < 5 then wholeMB (gCsi t (u - 1))
  else if u < 22 then wholeMB (gPipe s t (u - 5))
  else if u < 38 then wholeMB (gZip t (u - 22))
  else if u = 38 then wholeMB (gRecorder s t)
  else if u < 41 then (if (blkIn t 0x3201 (u - 39) 0).isSome then 4 else 0)
  else if u < 47 then wholeMB (gEnc t (u - 41))
  else if u < 175 then 0
  else if u < 179 then wholeMB (gHead s t (u - 175))
  else if u < 181 then gNet t (u - 179)
  else 0

/-- The units that have a guarantee. -/
def guaranteed : List Nat := (List.range 47) ++ (List.range 6).map (· + 175)

/-- A(Fn) (03 R107); the tether ports, which nobody owns, count for F0. -/
def held (s : State) (t : Tbl CfgVal) (f : Nat) : Nat :=
  ((guaranteed.filter fun u => ownerOf s (s.sys.device * 256 + u) == f).map (guarantee s t)).sum +
    if f = 0 then wholeMB (gTether s t 0) + wholeMB (gTether s t 1) else 0

/-- The values of a field of `FUNC.SHARES` of a function in committed, scheduled and staged state. -/
def shareValues (s : State) (f off size : Nat) : List Nat :=
  let k := cfgKey 0x0401 f 0
  (((Tbl.find? s.cfg.committed k).toList ++ ((s.cfg.sched.flatMap (·.img)) ++ s.cfg.staged).filterMap fun e =>
    if e.key = k then some e.val else none).map fun v => fieldAt v.blk off size)

/-- A share of a function: an increase counts from its acceptance, a decrease from its commit (03 R109). -/
def share (s : State) (f off size : Nat) : Nat := (shareValues s f off size).foldl max 0

/-- G (03 R107). -/
def totalG (s : State) (t : Tbl CfgVal) : Nat := ((List.range 15).map fun k => share s (k + 1) 4 4).sum + held s t 0

/-- P of a profile, in percent (17 R552). -/
def profilePct (profile : Nat) : Nat := [60, 70, 55, 10].getD profile 70

/-- `MEM.SHED_ORDER` in a configuration, or its defaults (10). -/
def shedBlk (t : Tbl CfgVal) : List Byte :=
  (blkIn t 0x5002 0 0).getD
    ([12, 13, 8, 9, 10, 11, 4, 5, 6, 7, 15, 14, 3, 2, 1, 0, 70, 50, 87, 2, 64] ++ leBytes 11 0)

/-- C of a profile (10 R378). -/
def ceiling (t : Tbl CfgVal) (profile : Nat) : Nat := 16384 * min (profilePct profile) (fieldAt (shedBlk t) 0x10 1)

/-- Rate of Pipe B and of Pipe C in a profile, in pixels per second (17 R552). -/
def pipeRate (profile : Nat) : Nat := [10000000000, 10000000000, 5000000000, 0].getD profile 0

/-- Whether a tap's output rate exceeds its pipe's under a profile (07 R250); Pipe A makes 20 Gpix/s. -/
def tapTooFast (profile : Nat) (t : Tbl CfgVal) (i k : Nat) : Bool :=
  match pipeIn t i, tapIn t i k with
  | some p, some x =>
    let rate := if i = 0 then 20000000000 else pipeRate profile
    decide (rate * (p.period * x.div) < x.outW * x.outH * 1000000000)
  | _, _ => false

/-- Streams of Pipe B and of Pipe C. -/
def pipeStreams (c : Bool) : List Nat := (List.range 8).map fun i => i + if c then 9 else 1

/-- Sum of the SLICE_WEIGHTs of the configured streams of a pipe that satisfy a test. -/
def weightSum (t : Tbl CfgVal) (c : Bool) (p : Nat → Bool) : Nat :=
  (((pipeStreams c).filter p).map fun i => ((pipeIn t i).map (·.weight)).getD 0).sum

/-- Whether a stream belongs to a function. -/
def ownsStream (s : State) (f i : Nat) : Bool := ownerOf s (myUnit s 0x20 i) == f

/-- Whether the weights of a function's streams on a pipe exceed its share (03 R111). -/
def overWeight (s : State) (t : Tbl CfgVal) : Bool :=
  (List.range 15).any fun k => [false, true].any fun c =>
    decide (share s (k + 1) (if c then 3 else 2) 1 < weightSum t c (ownsStream s (k + 1)))

/-- Whether the pixel rate of some stream of a pipe exceeds R × w / W (03 R111). -/
def overRate (t : Tbl CfgVal) (profile : Nat) : Bool :=
  [false, true].any fun c => (pipeStreams c).any fun i => match pipeIn t i with
    | some p =>
      let w := weightSum t c fun _ => true
      decide (pipeRate profile * p.weight * p.period < p.width * p.height * 1000000000 * w)
    | none => false

/-- Coding cores that a function owns. -/
def coresOf (s : State) (f : Nat) : Nat := ((List.range 6).filter fun c => ownerOf s (myUnit s 0x40 c) == f).length

/-- The answer `ST_ADMISSION_DENIED` with its reason (03 R113). -/
def denied (reason shortfall : Nat) : Reply := { status := 0x30, detail := shortfall, result0 := reason }

/-- The largest excess of a function above its share, where one exists. DESIGN CHOICE (log 50): where several functions exceed
their shares, 03 R113 does not say whose shortfall DETAIL holds; it holds the largest. -/
def shareExcess (s : State) (t : Tbl CfgVal) : Nat :=
  ((List.range 15).map fun k => held s t (k + 1) - share s (k + 1) 4 4).foldl max 0

/-- The memory limits of 03 R107: within them, or neither G nor an A(Fk) above its share is raised. -/
def memoryDenied (s s' : State) : Option Reply :=
  let t := resulting s
  let t' := resulting s'
  let c := ceiling t' s'.sys.profile
  if shareExcess s' t' = 0 ∧ totalG s' t' ≤ c then none
  else if totalG s' t' ≤ totalG s t ∧ (List.range 15).all (fun k =>
      decide (held s' t' (k + 1) ≤ share s' (k + 1) 4 4) || decide (held s' t' (k + 1) ≤ held s t (k + 1))) then none
  else if 0 < shareExcess s' t' then some (denied 1 (shareExcess s' t'))
  else some (denied 2 (totalG s' t' - c))

/-- Reason 3 of 03 R113. -/
def weightDenied (s' : State) : Option Reply := need (!overWeight s' (resulting s')) (denied 3 0)

/-- Reason 4 of 03 R113. -/
def rateDenied (s' : State) : Option Reply := need (!overRate (resulting s') s'.sys.profile) (denied 4 0)

/-- Reason 5 of 03 R113. -/
def coresDenied (s s' : State) : Option Reply :=
  need ((List.range 15).all fun k => decide (coresOf s' (k + 1) ≤ share s' (k + 1) 1 1) ||
    decide (coresOf s' (k + 1) ≤ coresOf s (k + 1))) (denied 5 0)

/-- The owners of the units once a rebinding has applied. -/
def ownersAfter (t : Tbl Nat) (w : Rebind) : Tbl Nat :=
  match unitKey w.unit.device w.unit.cls w.unit.inst with
  | some u => Tbl.put 0 t u w.newOwner
  | none => t

/-- A state with every rebinding and the profile that wait applied, which admission judges (03 R108). -/
def settled (s : State) : State :=
  { s with bind := { s.bind with owner := s.bind.waiting.foldl ownersAfter s.bind.owner }
           sys := { s.sys with profile := (s.sys.profileReq.map (·.2.1)).getD s.sys.profile } }

/-- The refusal of a command that makes C smaller than G (10 R379). -/
def ceilingDenied (s s' : State) : Option Reply :=
  let c := ceiling (resulting s') s'.sys.profile
  let g := totalG s' (resulting s')
  need (decide (g ≤ c) || decide (ceiling (resulting s) s.sys.profile ≤ c)) (denied 2 (g - c))

/-- Step 9 for a command that leads from a state to another: the lowest-numbered reason (03 R107, R108, R111-R113). -/
def admission (s s' : State) : Option Reply :=
  let a := settled s
  let b := settled s'
  firstFail [memoryDenied a b, weightDenied b, rateDenied b, coresDenied a b]

/-- Admission of a staged command: against the state with its block staged (03 R108). -/
def admitStaged (s : State) (f key : Nat) (v : CfgVal) : Option Reply := admission s (stagePut f key v s)

/-! ## Pre-roll rings (08 R295, 17 R556) -/

/-- What a group's records are coded with: its stream's samples and its own block of `ZIP.CONFIGURE`. -/
def zipCtx (p : PipeCfg) (b : List Byte) : ZipCtx :=
  { bits := p.bits, dual := p.dual, mono := p.cfa == 4, err := if fieldAt b 3 1 = 1 then fieldAt b 6 1 else 0
    ratio := fieldAt b 8 2 }

/-- Bytes that the ring of a capture group must hold: twice its worst-case record, and in Haul and Ease one second at
PLAN_BITS (08 R295, 17 R552, R556). -/
def ringNeed (t : Tbl CfgVal) (profile z : Nat) : Nat :=
  match blkIn t 0x3001 z 0 with
  | none => 0
  | some b =>
    match pipeIn t (fieldAt b 4 2) with
    | none => 0
    | some p =>
      max (2 * worstRecord (zipCtx p b) p.width p.height)
        (if profile = 1 ∨ profile = 2 then (gGroup t z).ceil.toNat else 0)

/-- The size that a ring of a configuration lacks, where one is too small. -/
def ringShort (t : Tbl CfgVal) (profile : Nat) : Option Reply :=
  firstFail ((List.range 16).map fun z => match blkIn t 0x3002 z 0 with
    | some b => need (decide (ringNeed t profile z ≤ fieldAt b 8 8)) (badSize (ringNeed t profile z))
    | none => none)

/-! ## The general form of a staged command -/

/-- Judges a staged command that has no checks beyond its fields, relations (`more`) and sizes (`size`). -/
def stagedCheck (lay : List Fld) (bulkLen key : Nat) (more : List Nat) (size : Option Reply) (s11 : Option Reply)
    (s : State) (c : Cmd) : Option Reply :=
  inOrder s c
    (firstFail [blockFault lay c.region (more ++ bufferFaults s c.opcode key c.region), size])
    (admitStaged s c.fn key (valOf lay c bulkLen)) none s11

end Sys2Proof.Machine
end

