-- ==== Sys2Proof/Machine/Axis.lean ====
section
/-! DEFINITION. What other blocks read of a motion axis (16 R543-R547): its configuration, GOOD, the lens value, the flags
word, the motion section of a frame's metadata; and the shading latch of 05 R197 and R198. -/

namespace Sys2Proof.Machine

/-- An axis. -/
def axis (s : State) (a : Nat) : Axis := s.axes.getD a {}

/-- Changes an axis. -/
def modAxis (a : Nat) (g : Axis → Axis) (s : State) : State := { s with axes := s.axes.modify a g }

/-- `MOT.CONFIGURE` of an axis in a configuration, or its defaults (16). -/
def motBlk (t : Tbl CfgVal) (a : Nat) : List Byte :=
  (blkIn t 0x9001 a 0).getD
    ([0, 0, 2, 25] ++ leBytes 2 200 ++ leBytes 2 2000 ++ leBytes 2 8192 ++ leBytes 2 30000 ++ leBytes 2 50 ++ [1, 4] ++
      leBytes 8 0 ++ leBytes 4 0x10000 ++ leBytes 4 0)

/-- `MOT.OBSERVER` of an axis in a configuration, or its defaults (16). -/
def obsBlk (t : Tbl CfgVal) (a : Nat) : List Byte :=
  (blkIn t 0x9002 a 0).getD (leBytes 2 5461 ++ leBytes 2 1024 ++ leBytes 2 16 ++ [25, 1])

/-- TYPE of an axis. -/
def motType (t : Tbl CfgVal) (a : Nat) : Nat := fieldAt (motBlk t a) 0 1

/-- Whether the observer of an axis runs: a Hall axis with it enabled (16 R540). -/
def observes (t : Tbl CfgVal) (a : Nat) : Bool := motType t a == 1 && bit (fieldAt (obsBlk t a) 7 1) 0

/-- GOOD (16 R543). -/
def motGood (s : State) (a : Nat) : Bool :=
  motType s.cfg.active a != 0 && !(axis s a).broken && (!observes s.cfg.active a || (axis s a).locked)

/-- The lens value of a position (16 R543). -/
def lensOf (b : List Byte) (p : Int) : Nat :=
  (clampI 0 65535 ((p - signed 32 (fieldAt b 0x14 4)) * signed 32 (fieldAt b 0x18 4) / 65536)).toNat

/-- The axis flags word (16 R547). -/
def motFlags (s : State) (a : Nat) : Nat :=
  let x := axis s a
  b2n (motGood s a) + 2 * b2n x.broken + 4 * b2n (observes s.cfg.active a && !x.locked) + 8 * b2n x.still +
    16 * b2n x.unref + 32 * b2n x.illegal.isSome + 64 * b2n x.overspeed

/-- A speed in its four bytes: held at the ends of the range (log 34). -/
def speedBytes (v : Int) : List Byte := leBytes 4 (unsigned 32 (clampI (-(2 ^ 31)) (2 ^ 31 - 1) v))

/-- The motion section of a frame's metadata (16 R546). -/
def motionSection (s : State) (fs : Time) : List Byte :=
  (List.range 4).flatMap fun a =>
    let x := axis s a
    leBytes 4 (unsigned 32 x.p) ++ speedBytes x.speed ++ leBytes 2 x.lens ++ leBytes 2 (motFlags s a) ++
      leBytes 4 (unsigned 32 ((timeNs fs : Int) - x.stamp))

/-- OVERSPEED tells of the samples since the previous frame (16 R547). -/
def clearOverspeed (s : State) : State := { s with axes := s.axes.map fun x => { x with overspeed := false } }

/-! ## The shading latch -/

/-- `PIPE.MERGE` of a stream in a configuration, or its defaults (05 R189). -/
def mergeBlk (t : Tbl CfgVal) (i : Nat) : List Byte := (blkIn t 0x2004 i 0).getD ([0, 4, 0, 0xFF, 0xFF, 0xFF] ++ leBytes 42 0)

/-- One value of a latch, and whether its axis had no good position (05 R197, R198, 16 R545). -/
def latchOne (s : State) (b : List Byte) (k : Nat) : Nat × Bool :=
  let a := fieldAt b (3 + k) 1
  let fixed := fieldAt b (8 + 2 * k) 2
  if a = 0xFF then (fixed, false)
  else if motGood s a then ((axis s a).lens, false)
  else ((axis s a).goodLens.getD fixed, true)

/-- Takes the lens position of a stream under a configuration; the blend of the latch has not been formed yet. -/
def takeLens (t : Tbl CfgVal) (i : Nat) (held : Bool) (s : State) : State :=
  let l := (List.range 3).map (latchOne s (mergeBlk t i))
  modStream i (fun x => { x with lens := l.map (·.1), lensBad := l.any (·.2), lensHeld := held, blendDone := false }) s

/-- The latch at the end of a stream's frame: after a commit its next frame keeps the position at the commit (05 R197). -/
def latchLens (t : Tbl CfgVal) (i : Nat) (s : State) : State := if (stream s i).lensHeld then s else takeLens t i false s

/-- The first frame of every configured stream after a commit uses the position at the commit (05 R197). -/
def latchAtCommit (s : State) : State :=
  ((List.range 17).filter fun i => (pipeIn s.cfg.committed i).isSome).foldl (fun t i => takeLens t.cfg.committed i true t) s

end Sys2Proof.Machine
end

