-- ==== Sys2Proof/Machine/HbmMap.lean ====
section
/-! DEFINITION. The map of HBM (10 R365-R368): the pseudo-channel, bank group, bank, row and stack of an address, and what a
change of the hash does to the bytes. -/

namespace Sys2Proof.Machine

/-- The masks after a cold start: PC_MASK[0] to [5], then BANK_MASK[0] to [3] (10 R368). -/
def defaultMasks : List Nat :=
  [0x104100000, 0x208200000, 0x410400000, 0x820800000, 0x41000000, 0x82000000, 0x1100000, 0x2200000, 0x4400000, 0x8800000]

/-- The masks in force in a state: those of `MEM.HASH`, or the defaults (10 R368, 'MEM.HASH'). -/
def hashMasks (t : Tbl CfgVal) : List Nat :=
  match blkIn t 0x5001 0 0 with
  | none => defaultMasks
  | some b => if bit (fieldAt b 0x50 1) 0 then defaultMasks else (List.range 10).map fun k => fieldAt b (8 * k) 8

/-- The parity of a number's low 36 bits. -/
def parity (n : Nat) : Nat := ((List.range 36).map fun i => n / 2 ^ i % 2).sum % 2

/-- Bit of an address that a mask hashes: PC bit i is bit 8 + i, BA bit j 16 + j and BG bit j 18 + j (10 R365, R366). -/
def hashedBit (k : Nat) : Nat := if k < 6 then 8 + k else 10 + k

/-- The bits of an address that the masks turn over (10 R366). -/
def hashDelta (masks : List Nat) (a : Nat) : Nat :=
  (masks.zipIdx.map fun m => parity (a &&& m.1) * 2 ^ hashedBit m.2).sum

/-- An address with its PC, BA and BG bits hashed. The masks see bits [35:20] alone, so hashing twice gives the address back
(10 R367). -/
def hashAddr (masks : List Nat) (a : Nat) : Nat := a ^^^ hashDelta masks a

/-- A place in the stacks (10 R365). -/
structure Location where
  pc : Nat
  column : Nat
  bank : Nat
  group : Nat
  row : Nat
  stackId : Nat
deriving DecidableEq, Repr

/-- The place of an address under some masks; none outside the map (10 R365, R366). -/
def location (masks : List Nat) (a : Nat) : Option Location :=
  let h := hashAddr masks a
  if 3 ≤ a / 2 ^ 34 then none
  else some
    { pc := h / 2 ^ 8 % 64, column := h / 2 ^ 14 % 4, bank := h / 2 ^ 16 % 4, group := h / 2 ^ 18 % 4, row := h / 2 ^ 20 % 2 ^ 14
      stackId := h / 2 ^ 34 }

/-- HBM after a change of the masks: the bytes stay at their places, so an address reads what stands at its new place (log 52). -/
def remapHbm (old new : List Nat) (m : Mem) : Mem :=
  if old = new then m else m.foldl (fun t c => Mem.write t (hashAddr new (hashAddr old c.1)) c.2) []

/-- A commit that changes the masks in use changes the place of every address. -/
def remapAfter (old : Tbl CfgVal) (s : State) : State :=
  { s with hbm := remapHbm (hashMasks old) (hashMasks s.cfg.active) s.hbm }

end Sys2Proof.Machine
end

