-- ==== Sys2Proof/Machine/Packets.lean ====
section
/-! DEFINITION. The frames that a network port sends, byte for byte (13 R441, R444, R449, R457, R463, R464): Ethernet, ARP, IPv4,
ICMP, IGMPv3, UDP, RTP, PTP and the ancillary packet. What the standards leave to the sender is a constant of Config (log 28). -/

namespace Sys2Proof.Machine

/-- Bytes of a number, most significant first. -/
def beBytes (n v : Nat) : List Byte := (leBytes n v).reverse

/-- Whether an IPv4 address is a multicast group. -/
def isMulticast (ip : Nat) : Bool := ip / 2 ^ 28 == 0xE

/-! ## Ethernet (13 R441) -/

/-- The MAC address of a multicast group (13 'NET.FLOW'; RFC 1112). -/
def groupMac (ip : Nat) : Nat := 0x01005E000000 + ip % 2 ^ 23

/-- MAC address of a port: that of `NET.CONFIGURE`, or that of the board table, 0 without an entry (13 R443, 15 R519). -/
def portMac (s : State) (p : Nat) : Nat :=
  let own := fieldAt ((activeBlk s 0x7001 p 0).getD []) 0x14 6
  if own ≠ 0 then own
  else (((boardEntries s.sys.tableUsed 3).find? fun e => fieldAt e 0 1 == p).map fun e => fieldAt e 2 6).getD 0

/-- Address of a port. -/
def portIp (s : State) (p : Nat) : Nat := fieldAt ((activeBlk s 0x7001 p 0).getD []) 0xC 4

/-- The IEEE 802.1Q tag that a field laid out as PTP_VLAN asks for. -/
def vlanTag (v : Nat) : List Byte :=
  if bit v 15 then [0x81, 0x00] ++ beBytes 2 (v / 2 ^ 12 % 8 * 2 ^ 13 + v % 2 ^ 12) else []

/-- A frame from its destination address to its FCS, padded to 64 bytes. -/
def etherFrame (s : State) (p dst vlan etherType : Nat) (payload : List Byte) : List Byte :=
  let b := beBytes 6 dst ++ beBytes 6 (portMac s p) ++ vlanTag vlan ++ beBytes 2 etherType ++ payload
  let f := b ++ List.replicate (60 - b.length) 0
  f ++ leBytes 4 (crc32 f)

/-- Whether the MAC supports a frame: up to MTU + 18 bytes, or MTU + 22 with a tag (13 R441). -/
def frameFits (mtu : Nat) (f : List Byte) : Bool :=
  decide (f.length ≤ mtu + (if (f.drop 12).take 2 = [0x81, 0x00] then 22 else 18))

/-- The answer to an ARP request for the port's address (13 R441; RFC 826). -/
def arpReply (s : State) (p mac ip : Nat) : List Byte :=
  etherFrame s p mac 0 0x0806 (beBytes 2 1 ++ beBytes 2 0x0800 ++ [6, 4] ++ beBytes 2 2 ++ beBytes 6 (portMac s p) ++
    beBytes 4 (portIp s p) ++ beBytes 6 mac ++ beBytes 4 ip)

/-! ## IPv4 -/

/-- Where an IPv4 datagram goes and how it is marked. -/
structure IpPath where
  mac : Nat
  vlan : Nat
  tos : Nat
  ttl : Nat
  dst : Nat
  src : Nat
deriving DecidableEq, Repr

/-- The sum of the 16-bit words of a list of bytes. -/
def wordSum : List Byte → Nat
  | a :: b :: l => a.toNat * 256 + b.toNat + wordSum l
  | [a] => a.toNat * 256
  | [] => 0

/-- The Internet checksum (RFC 1071). -/
def inetChecksum (b : List Byte) : Nat :=
  let n := wordSum b
  65535 - (if n = 0 then 0 else (n - 1) % 65535 + 1)

/-- The IPv4 header of a datagram (RFC 791). -/
def ipHeader (x : IpPath) (protocol : Nat) (options payload : List Byte) : List Byte :=
  let h (sum : Nat) : List Byte :=
    beBytes 1 (0x45 + options.length / 4) ++ beBytes 1 x.tos ++ beBytes 2 (20 + options.length + payload.length) ++
      beBytes 4 (Config.ipIdent payload) ++ beBytes 1 x.ttl ++ beBytes 1 protocol ++ beBytes 2 sum ++ beBytes 4 x.src ++
      beBytes 4 x.dst ++ options
  h (inetChecksum (h 0))

/-- A datagram of a port as a frame. -/
def ipFrame (s : State) (p : Nat) (x : IpPath) (protocol : Nat) (options payload : List Byte) : List Byte :=
  etherFrame s p x.mac x.vlan 0x0800 (ipHeader x protocol options payload ++ payload)

/-- The answer to an ICMP echo request for the port's address: `data` from its identifier on (13 R441; RFC 792). -/
def echoReply (s : State) (p mac ip : Nat) (data : List Byte) : List Byte :=
  let x : IpPath := { mac := mac, vlan := 0, tos := Config.echoTos, ttl := Config.echoTtl, dst := ip, src := portIp s p }
  ipFrame s p x 1 [] ([0, 0] ++ beBytes 2 (inetChecksum data) ++ data)

/-- An IGMPv3 membership report of a group: record type 4 where it is joined, 2 in answer to a query, from any source (13 R441;
RFC 3376). -/
def igmpReport (s : State) (p kind group : Nat) : List Byte :=
  let x : IpPath := { mac := groupMac 0xE0000016, vlan := 0, tos := 0xC0, ttl := 1, dst := 0xE0000016, src := portIp s p }
  let m (sum : Nat) : List Byte :=
    [0x22, 0] ++ beBytes 2 sum ++ beBytes 2 0 ++ beBytes 2 1 ++ beBytes 1 kind ++ [0, 0, 0] ++ beBytes 4 group
  ipFrame s p x 2 [0x94, 0x04, 0, 0] (m (inetChecksum (m 0)))

/-! ## UDP and RTP (13 R464; RFC 768, RFC 3550) -/

/-- A UDP datagram as an IPv4 payload. A checksum that is sent is never 0; the spec does not say whether one is (13 R449). -/
def udpPayload (x : IpPath) (srcPort dstPort : Nat) (data : List Byte) : List Byte :=
  let n := 8 + data.length
  let h (sum : Nat) : List Byte := beBytes 2 srcPort ++ beBytes 2 dstPort ++ beBytes 2 n ++ beBytes 2 sum
  let c := inetChecksum (beBytes 4 x.src ++ beBytes 4 x.dst ++ beBytes 2 17 ++ beBytes 2 n ++ h 0 ++ data)
  h (if Config.udpChecked then (if c = 0 then 0xFFFF else c) else 0) ++ data

/-- A UDP datagram of a port as a frame. -/
def udpFrame (s : State) (p : Nat) (x : IpPath) (srcPort dstPort : Nat) (data : List Byte) : List Byte :=
  ipFrame s p x 17 [] (udpPayload x srcPort dstPort data)

/-- The RTP header of a packet. -/
def rtpHeader (payloadType seqNo ts ssrc : Nat) (marker : Bool) : List Byte :=
  [0x80] ++ beBytes 1 (payloadType % 128 + 128 * b2n marker) ++ beBytes 2 (seqNo % 65536) ++ beBytes 4 ts ++ beBytes 4 ssrc

/-! ## PTP (13 R444, R449; IEEE 1588-2019 clause 13) -/

/-- The multicast address of PTP (13 R444). -/
def ptpGroup : Nat := 0xE0000181

/-- Port identity of a port's PTP instance: its clock identity and port number 1. -/
def portIdentity (p : Nat) : Nat := Config.clockIdentity p * 65536 + 1

/-- messageType of a message that the instance sends. -/
def ptpType : PtpKind → Nat
  | .sync => 0
  | .delayReq => 1
  | .pdelay => 2
  | .followUp => 8
  | .delayResp => 9
  | .announce => 0xB
  | .management => 0xD

/-- controlField of a message. -/
def ptpControl : PtpKind → Nat
  | .sync => 0
  | .delayReq => 1
  | .followUp => 2
  | .delayResp => 3
  | .management => 4
  | _ => 5

/-- A time in ns as a timestamp of 10 bytes. -/
def ptpTime (ns : Nat) : List Byte := beBytes 6 (ns / 1000000000) ++ beBytes 4 (ns % 1000000000)

/-- A message of a port's PTP instance as a frame: flags, correctionField in 2⁻¹⁶ ns, logMessageInterval, and what follows the
header. Event messages go to port 319, the others to 320. -/
def ptpFrame (s : State) (p : Nat) (kind : PtpKind) (seqId flags : Nat) (correction : Int) (interval : Nat) (body : List Byte) :
    List Byte :=
  let b := (activeBlk s 0x7001 p 0).getD []
  let x : IpPath :=
    { mac := groupMac ptpGroup, vlan := fieldAt b 0x12 2, tos := Config.ptpTos, ttl := Config.ptpTtl, dst := ptpGroup, src := portIp s p }
  let port := if ptpType kind < 8 then 319 else 320
  udpFrame s p x port port
    (beBytes 1 (ptpType kind) ++ [0x12] ++ beBytes 2 (34 + body.length) ++ beBytes 1 (fieldAt b 4 1) ++ [0] ++ beBytes 2 flags ++
      beBytes 8 (unsigned 64 correction) ++ beBytes 4 0 ++ beBytes 10 (portIdentity p) ++ beBytes 2 seqId ++
      beBytes 1 (ptpControl kind) ++ beBytes 1 interval ++ body)

/-- The integer nanoseconds of a stamp in 2⁻¹⁶ ns, as a timestamp (13 R449). -/
def stampTimestamp (v : Int) : List Byte := ptpTime (v / 65536).toNat

/-- The fraction of a stamp that its timestamp leaves, in 2⁻¹⁶ ns (13 R449). -/
def stampFraction (v : Int) : Int := v % 65536

/-- What follows the header of an Announce. -/
def announceBody (a : AnnounceData) : List Byte :=
  ptpTime 0 ++ beBytes 2 Config.announceUtcOffset ++ [0] ++ beBytes 1 a.priority1 ++ beBytes 1 a.clockClass ++
    beBytes 1 a.clockAccuracy ++ beBytes 2 a.variance ++ beBytes 1 a.priority2 ++ beBytes 8 a.gmIdentity ++
    beBytes 2 a.stepsRemoved ++ beBytes 1 Config.announceTimeSource

/-! ## The ancillary time code packet (13 R463; RFC 8331, ST 291-1, ST 12-2) -/

/-- A 10-bit word of an ancillary packet: its byte, even parity, and the inverse of that. -/
def ancWord (v : Nat) : Nat :=
  let odd := ((List.range 8).filter (bit v)).length % 2
  v % 256 + 256 * odd + 512 * (1 - odd)

/-- The checksum word of an ancillary packet: the sum of the low nine bits, and the inverse of its highest. -/
def ancChecksum (l : List Nat) : Nat :=
  let n := ((l.map (· % 512)).sum) % 512
  n + 512 * (1 - n / 256)

/-- The sixteen user words of an ATC_LTC packet of a time address: a nibble of the address each, with binary groups and
distributed binary bits of 0; hours, minutes, seconds, and the two nibbles of the frame count. -/
def atcWords (h m s units tens : Nat) : List Nat :=
  [units, 0, tens, 0, s % 10, 0, s / 10, 0, m % 10, 0, m / 10, 0, h % 10, 0, h / 10, 0].map fun v => ancWord (16 * (v % 16))

/-- Units and tens of a frame count; the two bits of tens hold no count above 39, for which both are open values (log 28). -/
def frameDigits (n : Nat) : Nat × Nat :=
  if n < 40 then (n % 10, n / 10) else (Config.atcFrames n % 16, Config.atcFrames n / 16 % 4)

/-- The payload of an ST 2110-40 packet that holds one ATC_LTC packet, on no particular line: extended sequence number, length and
count, the packet's place, and its words. -/
def ancPayload (seqNo h m s frames : Nat) : List Byte :=
  let d := frameDigits frames
  let words := [ancWord 0x60, ancWord 0x60, ancWord 16] ++ atcWords h m s d.1 d.2
  let place := (0x7FF * 2 ^ 12 + 0xFFF) * 2 ^ 8
  beBytes 2 (seqNo / 65536) ++ beBytes 2 32 ++ beBytes 1 1 ++ beBytes 3 0 ++
    beBytes 32 ((words ++ [ancChecksum words]).foldl (fun v w => v * 1024 + w) place * 2 ^ 24)

end Sys2Proof.Machine
end

