-- ==== Sys2Proof/Machine/Epoch.lean ====
section
/-! DEFINITION. Configuration epochs (02 R68-R72, R654, R655; 14 R496): staging, commits and their application; and the
commands of the classes SYS, STALL, EPOCH and FUNC (02, 03). -/

namespace Sys2Proof.Machine

/-! ## Which units switch when (02 R69) -/

/-- Whether a stream receives frames: its last FS lies at most two frame periods back (log 22). -/
def streamRuns (s : State) (i : Nat) : Bool :=
  match pipeIn s.cfg.committed i with
  | some p => (stream s i).known && decide ((s.tick - (stream s i).fsTick) * 16 ≤ 10 * p.period)
  | none => false

/-- Opcode of a place. -/
def keyOp (key : Nat) : Nat := key / 65536
/-- Unit instance of a place. -/
def keyUnit (key : Nat) : Nat := key / 256 % 256
/-- Slot of a place. -/
def keySlot (key : Nat) : Nat := key % 256

/-- Whether a place of a configuration serves a stream: what its frames work with (01 R22). -/
def serves (t : Tbl CfgVal) (i key : Nat) : Bool :=
  let unit := keyUnit key
  match keyOp key / 256 with
  | 0x20 => unit == i
  | 0x21 => unit == i
  | 0x80 => keyOp key == 0x8002 && i == 0
  | 0x10 => ((pipeIn t i).map PipeCfg.bridle).getD false
  | 0x11 => ((pipeIn t i).map fun p => p.source == 2 && p.index == unit).getD false
  | 0x30 => ((blkIn t 0x3001 unit 0).map fun b => fieldAt b 2 1 == 0 && fieldAt b 4 2 == i).getD false
  | 0x40 => ((encIn t unit).map (·.stream == i)).getD false
  | _ => false

/-- The streams that a place serves. -/
def streamsOf (s : State) (key : Nat) : List Nat := (List.range 17).filter fun i => serves s.cfg.committed i key

/-- Whether a place switches later than the commit: its streams run, or it is a head, a sending flow or a motion axis. -/
def switchesLater (s : State) (key : Nat) : Bool :=
  keyOp key / 256 == 0x60 || keyOp key / 256 == 0x90 ||
    (keyOp key == 0x7002 && sendingKind (fieldAt ((blkIn s.cfg.active 0x7002 (keyUnit key) (keySlot key)).getD []) 1 1)) ||
    (streamsOf s key).any (streamRuns s)

/-- Takes the committed values of the places that satisfy a test into use. -/
def switchKeys (p : Nat → Bool) (s : State) : State :=
  let kept := s.cfg.active.filter fun e => !p e.1
  let now := (s.cfg.committed.filter fun e => p e.1).foldl (fun t e => Tbl.set t e.1 e.2) kept
  { s with cfg := { s.cfg with active := now } }

/-- The units that serve a stream switch at the start of its frame (01 R22, 02 R69). -/
def switchStream (i : Nat) (s : State) : State := switchKeys (fun k => serves s.cfg.committed i k) s

/-! ## Safe states end with a commit (03 R96) -/

/-- The ownable unit of a place. -/
def keyUnitNo (s : State) (key : Nat) : Option Nat := unitKey s.sys.device (keyOp key / 256) (keyUnit key)

/-- Whether a unit waits for its release from a function that has ceased to exist (03 R84). -/
def releasing (s : State) (u : Nat) : Bool :=
  s.bind.waiting.any fun w => w.cmd.isNone && unitKey w.unit.device w.unit.cls w.unit.inst == some u

/-- The unit of a configured place leaves its safe state where its owner committed it (03 R96), but not while it waits for its
release (03 R84). -/
def leaveSafe (e : Staged) (s : State) : State :=
  match keyUnitNo s e.key with
  | some u =>
    if ownerOf s u = e.fn ∧ safeOf s u = 2 ∧ !releasing s u then { s with bind := { s.bind with safe := Tbl.erase s.bind.safe u } } else s
  | none => s

/-- A unit leaves its safe state by its start command (03 R96). -/
def startLeavesSafe (cls inst : Nat) (s : State) : State :=
  { s with bind := { s.bind with safe := Tbl.erase s.bind.safe (myUnit s cls inst) } }

/-! ## Sessions -/

/-- Whether a place is named in committed, scheduled or staged state. -/
def named (s : State) (key : Nat) : Bool :=
  (Tbl.find? s.cfg.committed key).isSome || s.cfg.staged.any (·.key == key) || s.cfg.sched.any fun x => x.img.any (·.key == key)

/-- Encode sessions whose opening is no longer named end (02 R655 `EPOCH.DISCARD`). -/
def sweepSessions (s : State) : State :=
  { s with cod := { s.cod with enc := s.cod.enc.filter fun e => named s (cfgKey 0x4001 e.core 0) } }

/-! ## Network ports -/

/-- A network port. -/
def netPort (s : State) (p : Nat) : NetPort := s.net.getD p {}

/-- Changes a network port. -/
def modNet (p : Nat) (g : NetPort → NetPort) (s : State) : State := { s with net := s.net.modify p g }

/-- Mode of a port in a configuration: 0xFF is off. -/
def portMode (t : Tbl CfgVal) (p : Nat) : Nat := ((blkIn t 0x7001 p 0).map fun b => fieldAt b 0 1).getD 0xFF

/-- Adds to a saturating counter of a port (13 'Counters'). -/
def countAt (p i n : Nat) (s : State) : State :=
  modNet p (fun x => { x with counters := x.counters.modify i fun v => min (v + n) 0xFFFFFFFF }) s

/-- Sub-port of a flow: SUBPORT in mode 1, else 0 (13 R440). -/
def flowSub (s : State) (p sub : Nat) : Nat := if portMode s.cfg.active p = 1 then sub else 0

/-- Whether a sub-port of a port that is not off has its link up (13 R440, R442). -/
def linkIsUp (s : State) (p sub : Nat) : Bool := portMode s.cfg.active p != 0xFF && (netPort s p).up.getD sub false

/-- MTU of a port in a configuration. -/
def portMtu (t : Tbl CfgVal) (p : Nat) : Nat := ((blkIn t 0x7001 p 0).map fun b => fieldAt b 0x10 2).getD 1500

/-- Sends a frame where the link is up; the MAC sends none that is longer than it supports (13 R441). -/
def netTx (p sub : Nat) (frame : List Byte) (s : State) : State :=
  if linkIsUp s p sub && frameFits (portMtu s.cfg.active p) frame then countAt p 1 1 (emit (.net p sub frame) s) else s

/-- The port of a flow's path (13 'Flows'). -/
def pathPort (p i : Nat) : Nat := if i = 0 then p else 1 - p

/-- The groups that a flow joins: port of the path, sub-port, address. -/
def flowGroups (p : Nat) (x : FlowCfg) : List (Nat × Nat × Nat) :=
  if x.kind < 9 then []
  else ((List.range (min x.paths 2)).map fun i => (pathPort p i, x.subport, (x.dst.getD i (0, 0, 0)).1)).filter fun g =>
    isMulticast g.2.2

/-- The group that a port joins for the PTP instance of a block of `NET.CONFIGURE` (13 R444). -/
def ptpGroups (p : Nat) (b : List Byte) : List (Nat × Nat × Nat) :=
  if fieldAt b 0 1 = 0xFF ∨ fieldAt b 2 1 = 0xFF then [] else [(p, 0, ptpGroup)]

/-- Reports the groups that an image's flows and PTP instances join (13 R441). -/
def joinGroups (img : List Staged) (s : State) : State :=
  (img.flatMap fun e =>
    if keyOp e.key = 0x7002 then flowGroups (keyUnit e.key) (FlowCfg.of e.val.blk)
    else if keyOp e.key = 0x7001 then ptpGroups (keyUnit e.key) e.val.blk else []).foldl
    (fun t g => netTx g.1 (flowSub t g.1 g.2.1) (igmpReport t g.1 4 g.2.2) t) s

/-! ## Commits -/

/-- The scheduled commit of a command; where the function's stall has none of that number, one that a function-level reset
detached from it. -/
def findSched (s : State) (r : CmdRef) : Option Sched :=
  match s.cfg.sched.find? (·.ref == r) with
  | some x => some x
  | none => s.cfg.sched.find? fun x => x.ref.fn % 16 == r.fn && x.ref.seq == r.seq

/-- Takes a scheduled commit from the list. -/
def dropSched (r : CmdRef) (s : State) : State :=
  { s with cfg := { s.cfg with sched := s.cfg.sched.filter (·.ref != r) } }

/-- A captured image returns to staging; of two values of one place the one staged later stays (02 R71). -/
def returnImage (x : Sched) (s : State) : State :=
  let l := s.cfg.staged
  { s with cfg := { s.cfg with staged :=
      (x.img.filter fun e => !l.any fun y => y.key == e.key && decide (e.order ≤ y.order)) ++
        (l.filter fun y => !x.img.any fun e => e.key == y.key && decide (y.order < e.order)) } }

/-- Whether the target of a scheduled commit has come (02 R68, R69, R72, R654). -/
def isDue (s : State) (x : Sched) : Bool :=
  match x.mode with
  | 0 => true
  | 1 => decide (((stream s x.stream).nextSerial + 65536 - x.frame) % 65536 < 32768)
  | _ => decide (timeNs x.time ≤ frameNs s)

/-- Returns the images of scheduled commits that do not apply (02 R71). -/
def returnImages (l : List Sched) (s : State) : State :=
  l.foldl (fun t x => returnImage x (dropSched x.ref t)) s

/-- Whether a commit of the whole array runs in two phases (14 R496, 02 R655). -/
def arrayWide (s : State) (x : Sched) : Bool := x.scope == 2 && decide (1 < s.sys.arraySize)

/-- A member that has no GO at the FS of a commit's target returns its image to staging (14 R496). -/
def returnUngone (s : State) : State :=
  if isLeader s then s
  else returnImages (s.cfg.sched.filter fun x => arrayWide s x && !x.go && isDue s x) s

/-- Whether a frame of a stream is decided and its verdict not yet delivered. -/
def verdictWaits (s : State) (i : Nat) : Bool := (stream s i).frames.any (·.decided)

/-- Whether a scheduled commit may apply now: it is due, a commit of the array has GO, no earlier commit of the same
reference stream is due (02 R68), and no verdict of that stream that is due at the boundary is left (01 R23); in a thermal stop
up to 200 ms from its signal (17 R573). -/
def mayApply (s : State) (x : Sched) : Bool :=
  isDue s x && !(s.thm.stop != 0 && decide (timeNs s.thm.stopAt + 200000000 < nowNs s)) && x.applied.isNone && (!arrayWide s x || x.go) &&
    !(x.mode != 2 && verdictWaits s x.stream) && (s.cfg.sched.takeWhile (·.ref != x.ref)).all fun y =>
      y.stream != x.stream || !isDue s y || y.applied.isSome || (arrayWide s y && !y.go)

/-- The accepted command of a scheduled commit. -/
def schedCmd (s : State) (x : Sched) : Option Cmd :=
  s.cmds.find? fun c => c.fn == x.ref.fn && c.seq == x.ref.seq && c.detached == x.detached

/-- The epoch number that a commit takes when it applies: the one that the leader gave it, or the next of this device, before
those of the array's commits that have GO (02 R68). -/
def takeNumber (x : Sched) (s : State) : Word × State :=
  match x.number with
  | some n => (n, s)
  | none => giveNumber (fun e => s.cfg.sched.any (·.ref == e.1)) s

/-- V of the streams whose `PIPE.CONFIGURE` a commit applies is 0 (05 R171, log 50). -/
def zeroService (keys : List Nat) (s : State) : State :=
  (keys.filter fun k => keyOp k == 0x2001).foldl (fun t k => modStream (keyUnit k) (fun x => { x with v := 0 }) t) s

/-- Applies an image under an epoch number: the committed state, the number, the units that switch at once, safe states (02 R68,
R69), what the streams no longer carry on (05 R179, 07 R242), the map of HBM (10 R366). -/
def applyImage (x : Sched) (n : Word) (s : State) : State :=
  let s1 : State := { s with cfg := { s.cfg with committed := overlay s.cfg.committed x.img, epoch := n } }
  let keys := x.img.map (·.key)
  latchAtCommit <| remapAfter s.cfg.active <| endCarried s.cfg.committed s1.cfg.committed <| zeroService keys
    (joinGroups x.img (x.img.foldl (fun t e => leaveSafe e t) (switchKeys (fun k => keys.contains k && !switchesLater s1 k) s1)))

/-- Answers a commit with its epoch number and digest (02 R72, R655). -/
def completeCommit (x : Sched) (more : Nat) (s : State) : State :=
  match schedCmd s x with
  | some c => complete c (okReply (s.cfg.epoch.toNat + more) (digest s.cfg.committed)) s
  | none => s

/-- Notes that a commit of the array has applied: the target's serial, its epoch number, and the digest after it (02 R655,
14 R497). -/
def noteApplied (x : Sched) (serial number : Nat) (s : State) : State :=
  { s with cfg := { s.cfg with sched := s.cfg.sched.map fun y =>
      if y.ref = x.ref then { y with applied := some (serial, number), digest := digest s.cfg.committed } else y } }

/-- Applies a scheduled commit. A commit of the array waits for the idle control blocks (14 R497). -/
def applyCommit (x : Sched) (s : State) : State :=
  let (n, s1) := takeNumber x s
  if arrayWide s x then
    if isLeader s then noteApplied x (stream s 0).nextSerial n.toNat (applyImage x n s1)
    else applyImage x n (dropSched x.ref s1)
  else completeCommit x 0 (applyImage x n (dropSched x.ref s1))

/-- EPOCH_COMMIT_APPLY (02 R68, R69, R654): the boundary of a scheduled commit has come. -/
def execEpochCommitApply (r : CmdRef) (s : State) : Host.Outcome State Fault Refusal :=
  .next (match findSched s r with
    | some x => if groomOn s && mayApply s x then applyCommit x s else s
    | none => s)

/-! ## The EPOCH commands -/

/-- SCOPE of a block of an EPOCH command; on a device alone SCOPE 2 acts as SCOPE 1 (02 R655). -/
def scopeOf (s : State) (b : List Byte) : Nat :=
  if fieldAt b 2 1 = 2 ∧ s.sys.arraySize = 1 then 1 else fieldAt b 2 1

/-- A commit as its block says (02 R72, R655): `EPOCH.COMMIT` acts as MODE 0. -/
def schedOf (s : State) (c : Cmd) : Sched :=
  { ref := ⟨c.fn, c.seq⟩, detached := c.detached, mode := c.target_.mode, stream := c.target_.stream, scope := scopeOf s c.region
    frame := c.target_.frame, time := c.target_.time, expect := fieldAt c.region 0x10 8
    img := stagedIn s c.fn (scopeOf s c.region), digest := stageDigest s c.fn (scopeOf s c.region), number := c.number }

/-- Whether the target has passed (02 R72). DESIGN CHOICE (log 58): a time that equals the frame timeline's present nanosecond has
passed. -/
def isLate (s : State) (x : Sched) : Bool :=
  match x.mode with
  | 1 => (stream s x.stream).known &&
      decide (((stream s x.stream).nextSerial + 65535 - x.frame) % 65536 < 32768)
  | 2 => decide (timeNs x.time ≤ frameNs s)
  | _ => false

/-- The scheduled commits that have not applied (02 R71). -/
def waitingCommits (s : State) : List Sched := s.cfg.sched.filter fun x => x.applied.isNone

/-- Steps 7 to 12 of a commit (02 R50, R69, R71, R72, 14 R498, R505). -/
def commitCheck (lay : List Fld) (s : State) (c : Cmd) : Option Reply :=
  let x := schedOf s c
  firstFail [
    inOrder s c
      (blockFault lay c.region (faultIf (x.mode == 1 && (pipeIn s.cfg.committed x.stream).isNone) 0)) none none none,
    need (decide ((waitingCommits s).length < 4)) busy,
    need (!(arrayWide s x && s.tth.held && s.tth.hold)) { status := 0x60 },
    need (!(arrayWide s x && s.tth.unreachable != 0)) { status := 0x80 },
    need (!isLate s x) { status := 0x61 },
    need (x.expect == 0 || x.expect == x.digest) { status := 0x62 }]

/-- Captures the staged image and schedules the commit (02 R71); a commit of the array sends PREPARE (14 R496), and a member tells
the leader that it has scheduled one (02 R49, log 44). DESIGN CHOICE (log 58): a commit is accepted, in the words of R71 and R72,
when it starts and has passed its checks; what is staged until then is in its image and its digest. -/
def scheduleCommit (c : Cmd) (s : State) : State :=
  let x := schedOf s c
  let s1 : State := { s with cfg := { s.cfg with
    sched := s.cfg.sched ++ [x]
    staged := if x.scope = 0 then s.cfg.staged.filter (·.fn != c.fn) else [] } }
  let s2 := setWaiting c s1
  if !isLeader s then tthSend 0 2 (.groom (.scheduled c.fn c.seq)) 0 false s2
  else if arrayWide s x then tthBroadcast 2 (.prepare c.fn c.seq x.mode x.stream x.frame x.time) s2
  else s2

/-- Checks of EPOCH_COMMIT. -/
def checkEpochCommit (t : State) (c : Cmd) : Option Reply := commitCheck layCommit t c

/-- EPOCH_COMMIT (02 R655). -/
def execEpochCommit (r : CmdRef) (s : State) : Host.Outcome State Fault Refusal :=
  .next (runCmd r 0x0302 checkEpochCommit scheduleCommit s)

/-- Checks of EPOCH_COMMIT_AT. -/
def checkEpochCommitAt (t : State) (c : Cmd) : Option Reply := commitCheck layCommitAt t c

/-- EPOCH_COMMIT_AT (02 R72). -/
def execEpochCommitAt (r : CmdRef) (s : State) : Host.Outcome State Fault Refusal :=
  .next (runCmd r 0x0303 checkEpochCommitAt scheduleCommit s)

/-- Steps 7 and 8 of a command whose block alone is judged. -/
def plainCheck (lay : List Fld) (s : State) (c : Cmd) : Option Reply :=
  inOrder s c (blockFault lay c.region []) none none none

/-- Checks of EPOCH_STAGE. -/
def checkEpochStage (t : State) (c : Cmd) : Option Reply := plainCheck layScope t c

/-- Effect of EPOCH_STAGE. -/
def effectEpochStage (c : Cmd) (t : State) : State :=
  complete c (okReply 0 (stageDigest t c.fn (scopeOf t c.region))) t

/-- EPOCH_STAGE (02 R655). -/
def execEpochStage (r : CmdRef) (s : State) : Host.Outcome State Fault Refusal :=
  .next (runCmd r 0x0301 checkEpochStage effectEpochStage s)

/-- Drops the staged state in a scope (02 R655). -/
def discardStaged (f scope : Nat) (s : State) : State :=
  sweepSessions { s with cfg := { s.cfg with staged := if scope = 0 then s.cfg.staged.filter (·.fn != f) else [] } }

/-- Checks of EPOCH_DISCARD. -/
def checkEpochDiscard (t : State) (c : Cmd) : Option Reply := plainCheck layScope t c

/-- Effect of EPOCH_DISCARD; SCOPE 2 drops the staged state of every device (log 44). -/
def effectEpochDiscard (c : Cmd) (t : State) : State :=
  let scope := scopeOf t c.region
  let t1 := if scope = 2 ∧ isLeader t then tthBroadcast 2 (.groom .discard) t else t
  complete c {} (discardStaged c.fn scope t1)

/-- EPOCH_DISCARD (02 R655). -/
def execEpochDiscard (r : CmdRef) (s : State) : Host.Outcome State Fault Refusal :=
  .next (runCmd r 0x0304 checkEpochDiscard effectEpochDiscard s)

/-- Checks of EPOCH_QUERY. -/
def checkEpochQuery (t : State) (c : Cmd) : Option Reply := plainCheck [] t c

/-- Effect of EPOCH_QUERY. -/
def effectEpochQuery (c : Cmd) (t : State) : State :=
  complete c (okReply t.cfg.epoch.toNat (digest t.cfg.committed)) t

/-- EPOCH_QUERY (02 R655). -/
def execEpochQuery (r : CmdRef) (s : State) : Host.Outcome State Fault Refusal :=
  .next (runCmd r 0x0305 checkEpochQuery effectEpochQuery s)

/-! ## SYS commands -/

/-- Power cap of a profile in mW (17 R552). -/
def profileCap (p : Nat) : Nat := [60000, 65000, 40000, 5000].getD p 65000

/-- `PWR.LIMITS` in a configuration, or its defaults (17). -/
def limitsBlk (t : Tbl CfgVal) : List Byte := (blkIn t 0xA001 0 0).getD ([0, 4, 2, 0] ++ leBytes 4 0 ++ leBytes 4 100 ++ leBytes 4 0)

/-- Effective cap of a profile, with the CAP_MW in force (17 R557): a CAP_MW above the profile's cap is set to 0 with the
profile (17 R581). -/
def effectiveCap (t : Tbl CfgVal) (p : Nat) : Nat :=
  let cap := fieldAt (limitsBlk t) 4 4
  if cap ≠ 0 ∧ cap < profileCap p then cap else profileCap p

/-- The larger of DECLARED_LOAD_MW and the Groom's estimate (02 R73). -/
def loadOf (s : State) (declared : Nat) : Nat := max declared (Config.loadEstimateMw s.freeCtr % 2 ^ 32)

/-- RESULT0 of `SYS.PROFILE_COMMIT`: G and the ceiling of the requested profile. -/
def profileResult0 (s : State) (p : Nat) : Nat :=
  totalG (settled s) (resulting s) % 2 ^ 32 + 2 ^ 32 * ceiling (resulting s) p

/-- RESULT1 of `SYS.PROFILE_COMMIT`: the load and the cap. -/
def profileResult1 (s : State) (p declared : Nat) : Nat := loadOf s declared + 2 ^ 32 * effectiveCap s.cfg.active p

/-- Whether a unit outside the Slack set is configured, or a plane or flow reads from one (17 R555). -/
def outsideSlack (s : State) : Bool :=
  ((resulting s).any fun e => !inSlackSet s (keyOp e.1 / 256) (keyUnit e.1)) || s.recorder.state != 0 || !s.cod.dec.isEmpty

/-- Whether stream 0 is in-line in committed, scheduled or staged state (06 R206). -/
def inlineAnywhere (s : State) : Bool :=
  ((Tbl.find? s.cfg.committed (cfgKey 0x2001 0 0)).toList ++
    (((s.cfg.sched.flatMap (·.img)) ++ s.cfg.staged).filter (·.key == cfgKey 0x2001 0 0)).map (·.val)).any fun v =>
      fieldAt v.blk 2 1 == 0

/-- Steps 7 to 10 of `SYS.PROFILE_COMMIT` (02 R73, 03 R114, 06 R206, 07 R250, 17 R555, R556); one request waits at a time (log
23). -/
def profileCheck (s : State) (c : Cmd) : Option Reply :=
  let p := fieldAt c.region 0 1
  let declared := fieldAt c.region 4 4
  let t := resulting s
  inOrder s c
    (firstFail [
      blockFault laySysProfile c.region (faultIf (p == 3 && inlineAnywhere s) 0 ++
        faultIf ((List.range 17).any fun i => (List.range 4).any (tapTooFast p t i)) 0),
      if p = 1 ∨ p = 2 then ringShort t p else none])
    (need (decide (totalG (settled s) t ≤ ceiling t p) && !overRate t p)
      { status := 0x30, detail := totalG (settled s) t - ceiling t p, result0 := profileResult0 s p })
    (firstFail [
      need (decide (loadOf s declared ≤ effectiveCap s.cfg.active p))
        { status := 0x31, detail := loadOf s declared - effectiveCap s.cfg.active p, result0 := profileResult0 s p
          result1 := profileResult1 s p declared },
      need (!(p == 3 && outsideSlack s))
        { status := 0x31, detail := Config.loadEstimateMw s.freeCtr % 2 ^ 32, result0 := profileResult0 s p
          result1 := profileResult1 s p declared }])
    (need s.sys.profileReq.isNone busy)

/-- A profile takes effect: its settings, and CAP_MW of `PWR.LIMITS` becomes 0 where the profile's cap is below it
(17 R552, R581); source 627 (17 R583). -/
def setProfile (p : Nat) (s : State) : State :=
  let fix (t : Tbl CfgVal) : Tbl CfgVal :=
    if profileCap p < fieldAt (limitsBlk t) 4 4 then
      Tbl.set t (cfgKey 0xA001 0 0) { blk := (limitsBlk t).take 4 ++ leBytes 4 0 ++ (limitsBlk t).drop 8 }
    else t
  raise 627 { s with sys := { s.sys with profile := p }
                     cfg := { s.cfg with committed := fix s.cfg.committed, active := fix s.cfg.active } }

/-- `SYS.PROFILE_COMMIT` past its checks (02 'Central commands'). -/
def profileEffect (c : Cmd) (s : State) : State :=
  let p := fieldAt c.region 0 1
  let r0 := profileResult0 s p
  let r1 := profileResult1 s p (fieldAt c.region 4 4)
  let s1 := bump s
  if bit (fieldAt c.region 1 1) 0 then complete c (okReply r0 r1) s1
  else if (List.range 17).any (streamRuns s) then
    setWaiting c { s1 with sys := { s1.sys with profileReq := some (⟨c.fn, c.seq⟩, p, r0, r1) } }
  else complete c (okReply r0 r1) (setProfile p s1)

/-- SYS_PROFILE_COMMIT (02 R73). -/
def execSysProfileCommit (r : CmdRef) (s : State) : Host.Outcome State Fault Refusal :=
  .next (runCmd r 0x0001 profileCheck profileEffect s)

/-- The requested profile applies at the frame boundary (02 'Central commands', 17 R552). -/
def applyProfile (s : State) : State :=
  match s.sys.profileReq with
  | none => s
  | some (r, p, r0, r1) =>
    let s1 := setProfile p { s with sys := { s.sys with profileReq := none } }
    match s1.cmds.find? fun c => c.fn == r.fn && c.seq == r.seq with
    | some c => complete c (okReply r0 r1) s1
    | none => s1

/-- PROFILE_APPLY (17 R552, 02 'Central commands'). -/
def execProfileApply (s : State) : Host.Outcome State Fault Refusal := .next (if groomOn s then applyProfile s else s)

/-- A temperature as signed Q8.8 in 16 bits. -/
def q88 (t : Rat) : Nat := unsigned 16 (t * 256).floor

/-- The modelled Tj: the hottest of nodes 0 to 9 of the model (17 R569). -/
def modelTj (s : State) : Rat := (s.thm.nodes.take 10).foldl max (s.thm.nodes.getD 0 0)

/-- The Tj used: the modelled one, or a diode's where the model has drifted (17 R570). -/
def usedTj (s : State) : Rat :=
  if s.thm.drift then max (modelTj s) (max (s.thm.diodes.getD 0 0) (s.thm.diodes.getD 1 0)) else modelTj s

/-- Ends a thermal stop (17 R576); the retained HBM is in use again. -/
def endStop (s : State) : State :=
  if s.thm.stop = 0 then s
  else { s with thm := { s.thm with stop := 0, cooled := false, warn := false, hot := false }
                sys := { s.sys with phase := .running, selfRefresh := false } }

/-- Checks of SYS_RESUME. -/
def checkSysResume (t : State) (c : Cmd) : Option Reply :=
  firstFail [plainCheck [] t c,
    need (t.thm.stop == 0 || decide (usedTj t < 90)) { status := 0x50, detail := q88 (modelTj t) }]

/-- Effect of SYS_RESUME. -/
def effectSysResume (c : Cmd) (t : State) : State :=
  complete c {} (endStop t)

/-- SYS_RESUME (17 R576). -/
def execSysResume (r : CmdRef) (s : State) : Host.Outcome State Fault Refusal :=
  .next (runCmd r 0x0002 checkSysResume effectSysResume s)

/-- Checks of SYS_LINK_POLICY. -/
def checkSysLinkPolicy (t : State) (c : Cmd) : Option Reply := plainCheck laySysPolicy t c

/-- Effect of SYS_LINK_POLICY. -/
def effectSysLinkPolicy (c : Cmd) (t : State) : State :=
  complete c {} { t with sys := { t.sys with linkPolicy := fieldAt c.region 0 1 } }

/-- SYS_LINK_POLICY (02 R657). -/
def execSysLinkPolicy (r : CmdRef) (s : State) : Host.Outcome State Fault Refusal :=
  .next (runCmd r 0x0003 checkSysLinkPolicy effectSysLinkPolicy s)

/-- Results that the spec states no layout for (log 14). -/
def openResults (c : Cmd) (s : State) : State :=
  complete c (okReply (Config.freeNat s.freeCtr % 2 ^ 64) (Config.freeNat (s.freeCtr + 1) % 2 ^ 64)) (bump (bump s))

/-- Checks of SYS_INFO. -/
def checkSysInfo (t : State) (c : Cmd) : Option Reply := plainCheck [] t c

/-- SYS_INFO (02 R79): the spec states no results (log 14). -/
def execSysInfo (r : CmdRef) (s : State) : Host.Outcome State Fault Refusal :=
  .next (runCmd r 0x0004 checkSysInfo openResults s)

/-! ## STALL and FUNC commands -/

/-- Checks of `STALL.CONFIGURE` (02 R36, R658). -/
def stallCheck (s : State) (c : Cmd) : Option Reply :=
  let f := fieldAt c.region 0 1
  inOrder s c (blockFault layStall c.region (faultIf (!fnExists s f || decide (16 ≤ f)) 0)) none none
    (need (!s.cmds.any fun x => x.fn == f && !x.detached && !(x.fn == c.fn && x.seq == c.seq)) busy)

/-- Sets the payload window; bytes above a smaller one are lost (02 R36). -/
def setWindow (f kib : Nat) (s : State) : State :=
  modStall f (fun x => { x with windowKib := kib
                                mem := if kib < x.windowKib then Mem.clear x.mem (0x10000 + 1024 * kib) 65536 else x.mem }) s

/-- Effect of STALL_CONFIGURE. -/
def effectStallConfigure (c : Cmd) (t : State) : State :=
  complete c {} (setWindow (fieldAt c.region 0 1) (fieldAt c.region 2 2) t)

/-- STALL_CONFIGURE (02 R36, R658). -/
def execStallConfigure (r : CmdRef) (s : State) : Host.Outcome State Fault Refusal :=
  .next (runCmd r 0x0101 stallCheck effectStallConfigure s)

/-- Checks of `FUNC.SHARES`: a decrease below what the function holds is refused, and the block is admitted as any staged
one; the lowest-numbered reason counts (03 R106, R109, R113). A decrease is one from the share that counts now (R109). -/
def sharesCheck (s : State) (c : Cmd) : Option Reply :=
  let f := fieldAt c.region 0 1
  let s0 := settled s
  let s1 := settled (stagePut c.fn (cfgKey 0x0401 f 0) (valOf layShares c 0) s)
  let t := resulting s
  let less (off size : Nat) : Bool := decide (fieldAt c.region off size < share s f off size)
  let below (off size has : Nat) : Bool := less off size && decide (fieldAt c.region off size < has)
  inOrder s c (blockFault layShares c.region [])
    (firstFail [
      need (!below 4 4 (held s0 t f)) (denied 1 (held s0 t f - fieldAt c.region 4 4)),
      memoryDenied s0 s1,
      need (!(below 2 1 (weightSum t false (ownsStream s0 f)) || below 3 1 (weightSum t true (ownsStream s0 f)))) (denied 3 0),
      weightDenied s1, rateDenied s1,
      need (!below 1 1 (coresOf s0 f)) (denied 5 0),
      coresDenied s0 s1])
    none none

/-- Effect of FUNC_SHARES. -/
def effectFuncShares (c : Cmd) (t : State) : State :=
  stageCmd layShares 0 (cfgKey 0x0401 (fieldAt c.region 0 1) 0) c t

/-- FUNC_SHARES (03 R106, R109). -/
def execFuncShares (r : CmdRef) (s : State) : Host.Outcome State Fault Refusal :=
  .next (runCmd r 0x0401 sharesCheck effectFuncShares s)

/-- Checks of the commands that name a function: it exists (log 14). -/
def funcCheck (s : State) (c : Cmd) : Option Reply :=
  inOrder s c (blockFault layFunc c.region (faultIf (!fnExists s (fieldAt c.region 0 1)) 0)) none none none

/-- FUNC_QUERY (02 R79): the spec states no results (log 14). -/
def execFuncQuery (r : CmdRef) (s : State) : Host.Outcome State Fault Refusal :=
  .next (runCmd r 0x0402 funcCheck openResults s)

/-! ## Safe states of a function's units (03 R93, R95) -/

/-- Orders a unit to its safe state; one already in it stays there (03 R93). The leader orders a member's unit through the
member (log 44). -/
def orderSafe (u : Nat) (s : State) : State :=
  let ordered : State := { s with bind := { s.bind with safe := Tbl.set s.bind.safe u 1 } }
  if u / 256 = s.sys.device ∨ !isLeader s then (if safeOf s u = 0 then ordered else s)
  else tthSend 1 2 (.groom (.orderSafe (unitRef u))) (u / 256) false ordered

/-- The units of this device that a function owns. -/
def unitsOf (s : State) (f : Nat) : List Nat :=
  ((List.range 187).map fun k => s.sys.device * 256 + k).filter fun u => ownerOf s u == f

/-- Every unit of the array that a function owns. -/
def allUnitsOf (s : State) (f : Nat) : List Nat :=
  ((List.range s.sys.arraySize).flatMap fun d => (List.range 187).map fun k => d * 256 + k).filter fun u => ownerOf s u == f

/-- Orders every unit of a function to its safe state. -/
def orderUnits (f : Nat) (s : State) : State := (unitsOf s f).foldl (fun t u => orderSafe u t) s

/-- Effect of FUNC_RESET_UNITS. -/
def effectFuncResetUnits (c : Cmd) (t : State) : State :=
  complete c {} (orderUnits (fieldAt c.region 0 1) t)

/-- FUNC_RESET_UNITS (02 R79): the units of the function go to their safe states (log 14). -/
def execFuncResetUnits (r : CmdRef) (s : State) : Host.Outcome State Fault Refusal :=
  .next (runCmd r 0x0403 funcCheck effectFuncResetUnits s)

end Sys2Proof.Machine
end

