-- ==== Sys2Proof/WellFormed.lean ====
section
/-! DEFINITION. Which commands are well formed: every index lies in the range the spec gives the thing it names. A command
that is not well formed names nothing that the device has, and its meaning changes nothing (log 4). -/

namespace Sys2Proof

/-- A function number (03 R80). -/
def fnOk (f : Nat) : Bool := decide (f < 16)

/-- A reference to a command of an existing stall with a SEQ of 02 R37. -/
def CmdRef.wf (r : CmdRef) : Bool := fnOk r.fn && r.seq != 0

/-- An ownable unit's class and instance (03 R85). -/
def UnitRef.wf (u : UnitRef) : Bool :=
  decide (u.device < 4) &&
  match u.cls with
  | 0x10 => u.inst == 0
  | 0x11 => decide (u.inst < 4)
  | 0x20 => decide (u.inst < 17)
  | 0x21 => decide (u.inst < 17)
  | 0x30 => decide (u.inst < 16)
  | 0x31 => u.inst == 0
  | 0x32 => decide (u.inst < 2)
  | 0x40 => decide (u.inst < 6)
  | 0x41 => decide (u.inst < 6)
  | 0x51 => decide (u.inst < 128)
  | 0x60 => decide (u.inst < 4)
  | 0x70 => decide (u.inst < 2)
  | 0x71 => decide (u.inst < 2)
  | 0x90 => decide (u.inst < 4)
  | _ => false

/-- A ring index register that 20 R643 lists. -/
def RingReg.wf : RingReg → Bool
  | .stats s => decide (s < 17)
  | .decOut c => decide (c < 6)
  | .encStats c => decide (c < 6)
  | .netRx p f => decide (p < 2) && decide (f < 32)

/-- A time readout that 20 R641 lists. -/
def TimeReg.wf : TimeReg → Bool
  | .selected => true
  | .engine e => decide (e < 2)

/-- The operands of a command lie in the ranges the spec gives the things they name. -/
def Instr.wf : Instr → Bool
  | .commandDoorbell fn _ => fnOk fn
  | .commandAccept fn _ => fnOk fn
  | .cplHeadWrite fn _ => fnOk fn
  | .evtHeadWrite fn _ => fnOk fn
  | .grmStatusClear fn _ => fnOk fn
  | .intPendingClear fn k _ => fnOk fn && decide (k < 20)
  | .intMaskWrite fn k _ => fnOk fn && decide (k < 20)
  | .intVecAck fn _ => fnOk fn
  | .intStallClear fn _ => fnOk fn
  | .intStallMaskWrite fn _ => fnOk fn
  | .intRouteWrite fn src _ => fnOk fn && decide (src < 640)
  | .ringReadAdvance fn ring _ => fnOk fn && ring.wf
  | .queOccRead fn q => fnOk fn && decide (q < 128)
  | .quePeakRead fn q => fnOk fn && decide (q < 128)
  | .ptpTimeCapture fn which => fnOk fn && which.wf
  | .lneStatRead fn lane => fnOk fn && decide (lane < 72)
  | .registerWrite fn offset _ => fnOk fn && decide (offset % 4 = 0)
  | .msixEnable fn => fnOk fn
  | .vfEnableClear => true
  | .numvfsWrite _ => true
  | .linkReset _ => true
  | .linkUp => true
  | .functionLevelReset fn => fnOk fn
  | .perstN => true
  | .coldStart _ => true
  | .hostReadyTimeout => true
  | .retentionEntry => true
  | .retentionEntryTimeout => true
  | .warmStart _ => true
  | .supplyUndervoltage rail => decide (rail < 4)
  | .hbmRetentionLost stack => decide (stack < 2)
  | .safeStateReached unit => unit.wf
  | .rebindingApply unit => unit.wf
  | .epochCommitApply r => r.wf
  | .profileApply => true
  | .sysProfileCommit r => r.wf
  | .sysResume r => r.wf
  | .sysLinkPolicy r => r.wf
  | .sysInfo r => r.wf
  | .sysFuseProgram r _ => r.wf
  | .stallConfigure r => r.wf
  | .bindAssign r => r.wf
  | .bindRelease r => r.wf
  | .bindQuery r => r.wf
  | .epochStage r => r.wf
  | .epochCommit r => r.wf
  | .epochCommitAt r => r.wf
  | .epochDiscard r => r.wf
  | .epochQuery r => r.wf
  | .funcShares r => r.wf
  | .funcQuery r => r.wf
  | .funcResetUnits r => r.wf
  | .brdConfigure r => r.wf
  | .brdSpare r => r.wf
  | .brdTrigger r => r.wf
  | .brdCounters r => r.wf
  | .csiConfigure r => r.wf
  | .csiCounters r => r.wf
  | .pipeConfigure r => r.wf
  | .pipeGridLoad r => r.wf
  | .pipeBlack r => r.wf
  | .pipeMerge r => r.wf
  | .pipeStats r => r.wf
  | .pipePlay r => r.wf
  | .colLutLoad r => r.wf
  | .colMatrix r => r.wf
  | .colWb r => r.wf
  | .colOutput r => r.wf
  | .colNr r => r.wf
  | .zipConfigure r => r.wf
  | .zipPreroll r => r.wf
  | .zipFlush r => r.wf
  | .recExtents r => r.wf
  | .recStart r => r.wf
  | .recStop r => r.wf
  | .recKey r => r.wf
  | .recStatus r => r.wf
  | .audConfigure r => r.wf
  | .encOpen r => r.wf
  | .encClose r => r.wf
  | .encRoi r => r.wf
  | .encRate r => r.wf
  | .encStats r => r.wf
  | .decOpen r => r.wf
  | .decSubmit r _ => r.wf
  | .decClose r => r.wf
  | .memHash r => r.wf
  | .memShedOrder r => r.wf
  | .queueConfigure r => r.wf
  | .queueFlush r => r.wf
  | .queueStatus r => r.wf
  | .dspConfigure r => r.wf
  | .dspPlane r => r.wf
  | .dspFlip r => r.wf
  | .dspPalette r => r.wf
  | .netConfigure r => r.wf
  | .netFlow r => r.wf
  | .netCounters r => r.wf
  | .timeSteer r => r.wf
  | .timeSelect r => r.wf
  | .timeCorrection r => r.wf
  | .timeRead r => r.wf
  | .tthConfigure r => r.wf
  | .tthStripes r => r.wf
  | .tthDigests r => r.wf
  | .tthHoldPolicy r => r.wf
  | .motConfigure r => r.wf
  | .motObserver r => r.wf
  | .motRead r => r.wf
  | .pwrLimits r => r.wf
  | .pwrThermalModel r => r.wf
  | .pwrRead r => r.wf
  | .testMuckout r => r.wf
  | .testPrbs r _ => r.wf
  | .testMargin r => r.wf
  | .laneDown lane => decide (lane < 32)
  | .laneUp lane => decide (lane < 32)
  | .alignRow _ _ => true
  | .deskewFailure lane => decide (lane < 32)
  | .fsPacket _ => true
  | .ldPacket _ => true
  | .fePacket _ => true
  | .embPacket _ => true
  | .trailerTimeout vc => decide (vc < 8)
  | .frameVerdict stream => decide (stream < 17)
  | .encRollback _ => true
  | .tapPatchDone stream tap => decide (stream < 17) && decide (tap < 4)
  | .spiScriptDone port _ => decide (port < 4)
  | .triggerEdge output => decide (output < 4)
  | .triggerScript output => decide (output < 4)
  | .csiFs port vc _ => decide (port < 4) && decide (vc < 4)
  | .csiLongPacket port _ => decide (port < 4)
  | .csiFe port vc _ => decide (port < 4) && decide (vc < 4)
  | .csiDphyError port => decide (port < 4)
  | .pipeFrameBoundary pipe => decide (pipe < 3)
  | .shadingBlendDone stream => decide (stream < 17)
  | .relayPacket channel => decide (channel < 2)
  | .nvmeWriteComplete ssd _ => decide (ssd < 2)
  | .nvmeWriteTimeout ssd => decide (ssd < 2)
  | .chunkClose => true
  | .audWordClockFrame port _ => decide (port < 2)
  | .audClockLost port => decide (port < 2)
  | .audClockRestored port => decide (port < 2)
  | .encPictureStart _ => true
  | .encPictureDone _ _ => true
  | .encOutputRelease _ => true
  | .decPicture _ _ => true
  | .memEscalation => true
  | .memRecovered => true
  | .rtRestored port => decide (port < 16)
  | .memHot stack => decide (stack < 2)
  | .memEcc pc _ _ => decide (pc < 64)
  | .queuePacketWrite q _ => decide (q < 128)
  | .queuePacketFree q => decide (q < 128)
  | .creditReturn q => decide (q < 128)
  | .queueFlushed q => decide (q < 128)
  | .flipPoint head => decide (head < 4)
  | .genlockEdge => true
  | .genlockLost head => decide (head < 4)
  | .teMissing head => decide (head < 4)
  | .netLinkDown port sub => decide (port < 2) && decide (sub < 4)
  | .netLinkUp port sub => decide (port < 2) && decide (sub < 4)
  | .netFrameReceived port sub _ => decide (port < 2) && decide (sub < 4)
  | .ptpMessage port _ => decide (port < 2)
  | .ptpMessageSend port _ => decide (port < 2)
  | .announceTimeout port => decide (port < 2)
  | .timeSteerApply engine => decide (engine < 2)
  | .timeSelectApply => true
  | .timeSlewDone => true
  | .sendSlot port flow => decide (port < 2) && decide (flow < 32)
  | .st2110PacketSend port flow => decide (port < 2) && decide (flow < 32)
  | .queueFlowSend port flow => decide (port < 2) && decide (flow < 32)
  | .rxPacket port p => decide (port < 2) && decide (p.sub < 4)
  | .rxSlotClose port flow => decide (port < 2) && decide (flow < 32)
  | .pathLost port flow path => decide (port < 2) && decide (flow < 32) && decide (path < 2)
  | .tthPacket port _ => decide (port < 2)
  | .haloRow port _ => decide (port < 2)
  | .tthAckTimeout port _ => decide (port < 2)
  | .tthLinkDown port _ => decide (port < 2)
  | .tthLinkUp port => decide (port < 2)
  | .relayTimeout r => r.wf
  | .idleControlBlock => true
  | .prepareDeadline r => r.wf
  | .arrayCommitTimeout r => r.wf
  | .timePacketSend => true
  | .hopDelayMeasure _ => true
  | .timeLockLoss => true
  | .motionSample _ => true
  | .hallEdge axis hall _ => decide (axis < 4) && decide (hall < 8)
  | .hallIllegalTimeout axis => decide (axis < 4)
  | .inputBroken axis => decide (axis < 4)
  | .inputRestored axis => decide (axis < 4)
  | .observerLost axis => decide (axis < 4)
  | .observerRegained axis => decide (axis < 4)
  | .standstill axis => decide (axis < 4)
  | .motProbe axis _ _ => decide (axis < 4)
  | .powerMeterSample _ => true
  | .capThrottleLeave => true
  | .droopSample domain _ => decide (domain < 24)
  | .snubStageExit domain => decide (domain < 24)
  | .thermalModelUpdate => true
  | .thmStopComplete => true
  | .diodeRead diode _ => decide (diode < 2)
  | .modelDriftCheck => true
  | .muckoutSliceDone pipe _ => decide (pipe < 3)
  | .spareRowScrub pc _ _ _ => decide (pc < 64)
  | .laneMarginReading lane _ => decide (lane < 72)
  | .sysRstNAssertion => true
  | .supplyRecovery => true
  | .vfEnableSet => true
  | .msixMaskWrite fn entry _ => fnOk fn && decide (entry.getD 0 < 64)
  | .pllLostLock => true
  | .referenceClockMissing which => decide (which < 3)
  | .ppsPulse engine => decide (engine < 2)
  | .portPanic port _ => decide (port < 16)
  | .rtBufferOverflow port => decide (port < 16)
  | .memHotCleared stack => decide (stack < 2)
  | .csiLsLePacket port vc _ _ => decide (port < 4) && decide (vc < 4)
  | .delayReqSend port => decide (port < 2)
  | .arraySlicesMissing _ => true
  | .nvmeHostAccessDone r _ _ => r.wf
  | .testMarginDone lane _ => decide (lane < 72)

end Sys2Proof
end

