-- ==== Sys2Proof/Machine/HostRegs.lean ====
section
/-! DEFINITION. The registers of a function's BAR (20) and the rows of the host's register accesses. -/

namespace Sys2Proof.Machine

/-- Whether a register access of a function reaches the device: the function exists, the link is up, host-ready has passed. -/
def hostOk (s : State) (f : Nat) : Bool :=
  fnExists s f && s.sys.linkUp && groomOn s && isLeader s

/-! ## What a register reads as -/

/-- A word with bit `j` where `p j` holds. -/
def bitsWhere (p : Nat → Bool) : Nat := (List.range 32).foldl (fun a j => a + if p j then 2 ^ j else 0) 0

/-- INT_PENDING_k as a function sees it (03 R100). -/
def viewPending (s : State) (f k : Nat) : Nat := bitsWhere fun j => isPending s (32 * k + j) && targetOf s (32 * k + j) == f

/-- INT_MASK_k as a function sees it (03 R100). -/
def viewMask (s : State) (f k : Nat) : Nat := bitsWhere fun j => isMasked s f (32 * k + j) && targetOf s (32 * k + j) == f

/-- INT_ROUTE_n (03 R98): FUNC reads the current target under AUTO. -/
def viewRoute (s : State) (n : Nat) : Nat :=
  let r := routeOf s n
  (if r.fixed then r.func else targetOf s n) + 2 ^ 4 * r.vector + 2 ^ 10 * b2n r.fixed + 2 ^ 11 * b2n r.pin +
    2 ^ 12 * b2n r.enable

/-- INT_N is low while a source with PIN set is pending (03 R104), and in the halt of 18 R596. -/
def intN (s : State) : Bool :=
  s.sys.phase == .halted || s.ints.routes.any fun e => e.2.pin && isPending s e.1

/-- The READ and WRITE fields of a ring index register, and the unit that owns the ring (20 R643, R644). -/
def ringOf (s : State) : RingReg → Nat × Nat × Nat
  | .stats i => (myUnit s 0x20 i, (stream s i).statsRd, (stream s i).statsWr)
  | .decOut c => match s.cod.dec.find? (·.core == c) with
    | some d => (myUnit s 0x40 c, d.rd, d.wr)
    | none => (myUnit s 0x40 c, 0, 0)
  | .encStats c => match s.cod.enc.find? (·.core == c) with
    | some e => (myUnit s 0x40 c, e.statRd, e.statWr)
    | none => (myUnit s 0x40 c, 0, 0)
  | .netRx p f =>
    let x := ((s.net.getD p {}).flows.getD f {})
    (myUnit s 0x70 p, x.rd, x.wr)

/-- A ring index register; 0 in a function that does not own the ring's unit (20 R643). -/
def viewRing (s : State) (f : Nat) (r : RingReg) : Nat :=
  let x := ringOf s r
  if ownerOf s x.1 == f then x.2.1 + 65536 * x.2.2 else 0

/-- A queue (11). -/
def queue (s : State) (q : Nat) : Queue := Tbl.get {} s.queues q

/-- Changes a queue. -/
def modQueue (q : Nat) (g : Queue → Queue) (s : State) : State :=
  { s with queues := Tbl.put {} s.queues q (g (queue s q)) }

/-- Parts of the selected time latched for a function (20 R642). -/
def viewSel (s : State) (f part : Nat) : Nat :=
  match (fnInt s f).selLatch with
  | none => 0
  | some t => if part = 0 then t.sec % 2 ^ 32 else t.sec / 2 ^ 32

/-- Parts of an engine's time latched for a function (20 R642). -/
def viewEng (s : State) (f e part : Nat) : Nat :=
  match Tbl.find? (fnInt s f).engLatch e with
  | none => 0
  | some v =>
    if part = 1 then v % secUnits / 2 ^ 32
    else if part = 2 then v / secUnits % 2 ^ 32 else v / secUnits / 2 ^ 32

/-- The value of the register at an offset, side effects apart; an offset that no table lists reads 0 (20 R630, R631). -/
def readReg (s : State) (f o : Nat) : Nat :=
  let x := stall s f
  if o % 4 ≠ 0 then 0
  else if o < 0x1000 then
    match o with
    | 0x004 => x.cmdHead.toNat
    | 0x008 => x.cplHead.toNat
    | 0x00C => x.cplTail.toNat
    | 0x010 => x.evtHead.toNat
    | 0x014 => x.evtTail.toNat
    | 0x018 => grmStatus x
    | _ => 0
  else if o < 0x2000 then
    match o with
    | 0x1000 => fncStatus s f
    | 0x1004 => s.cfg.epoch.toNat
    | 0x1008 => bootStatus s
    | _ => 0
  else if o < 0x2050 then viewPending s f ((o - 0x2000) / 4)
  else if o < 0x2080 then 0
  else if o < 0x20D0 then viewMask s f ((o - 0x2080) / 4)
  else if o = 0x2104 then intStall x
  else if o < 0x3000 then 0
  else if o < 0x4000 then
    match o with
    | 0x3000 => ptpSelect s
    | 0x3004 => (now s).nsec
    | 0x3008 => viewSel s f 0
    | 0x300C => viewSel s f 1
    | 0x3010 => (s.time.engines.getD 0 {}).time % 2 ^ 32
    | 0x3014 => viewEng s f 0 1
    | 0x3018 => viewEng s f 0 2
    | 0x301C => viewEng s f 0 3
    | 0x3020 => (s.time.engines.getD 1 {}).time % 2 ^ 32
    | 0x3024 => viewEng s f 1 1
    | 0x3028 => viewEng s f 1 2
    | 0x302C => viewEng s f 1 3
    | _ => 0
  else if o < 0x4400 then
    let q := (o - 0x4000) / 8
    if ownerOf s (myUnit s 0x51 q) ≠ f then 0
    else if o % 8 = 0 then queOcc (queue s q) else quePeak (queue s q)
  else if o < 0x5000 then 0
  else if o < 0x5044 then viewRing s f (.stats ((o - 0x5000) / 4))
  else if 0x5080 ≤ o ∧ o < 0x5098 then viewRing s f (.decOut ((o - 0x5080) / 4))
  else if 0x50C0 ≤ o ∧ o < 0x50D8 then viewRing s f (.encStats ((o - 0x50C0) / 4))
  else if 0x5100 ≤ o ∧ o < 0x5200 then viewRing s f (.netRx ((o - 0x5100) / 128) ((o - 0x5100) % 128 / 4))
  else if 0x5200 ≤ o ∧ o < 0x5210 then
    if ownerOf s (myUnit s 0x60 ((o - 0x5200) / 4)) == f then (s.heads.getD ((o - 0x5200) / 4) {}).flips % 2 ^ 32 else 0
  else if 0x20000 ≤ o ∧ o < 0x40000 then
    leNat ((List.range 4).map fun i => stallByte s f (o - 0x20000 + i))
  else if f ≠ 0 then 0
  else if 0x100000 ≤ o ∧ o < 0x100A00 then viewRoute s ((o - 0x100000) / 4)
  else if 0x101000 ≤ o ∧ o < 0x101240 then
    let l := s.lanes.getD ((o - 0x101000) / 8) {}
    if o % 8 = 0 then lneStat l else l.margin
  else if 0x102000 ≤ o ∧ o < 0x102040 then memPort (s.fabric.ports.getD ((o - 0x102000) / 4) {})
  else if o = 0x102040 then memEsc s
  else if o = 0x102044 then s.pins.sideband
  else 0

/-! ## Doorbell, ring heads, status -/

/-- Whether a doorbell value takes effect, or changes nothing (02 R44). -/
def doorbellOk (h p v : Idx) : Bool :=
  v == p || decide ((p - h).toNat ≤ (v - h).toNat) && decide ((v - h).toNat ≤ 64)

/-- A write to GRM_CMD_DOORBELL (02 R44): bits [31:16] are reserved. -/
def doorbellWrite (f : Nat) (value : Word) (s : State) : State :=
  modStall f (fun x =>
    let v : Idx := value.setWidth 16
    if doorbellOk x.cmdHead x.cmdTail v then { x with cmdTail := v } else { x with dbErr := true }) s

/-- A write to GRM_CPL_HEAD (20 R637): ignored with HEAD_ERR where it would pass the producer. -/
def cplHeadSet (f : Nat) (value : Word) (s : State) : State :=
  modStall f (fun x =>
    let v : Idx := value.setWidth 16
    if (v - x.cplHead).toNat ≤ (x.cplTail - x.cplHead).toNat then { x with cplHead := v } else { x with headErr := true }) s

/-- Writes the bound records that wait for entries (03 R94), as entries free. -/
def drainWaiting (f : Nat) : List Event → State → State
  | [], s => modStall f (fun x => { x with evtWait := [] }) s
  | e :: es, s =>
    if used (stall s f).evtTail (stall s f).evtHead < 256 then drainWaiting f es (writeEvent f e s)
    else modStall f (fun x => { x with evtWait := e :: es }) s

/-- After entries free: `EV_EVENTS_LOST` with the count, before any later event (02 R57), then the waiting records. -/
def eventsFreed (f : Nat) (s : State) : State :=
  let x := stall s f
  let s1 :=
    if 0 < x.evtLost ∧ used x.evtTail x.evtHead < 256 then
      writeEvent f { code := 0x0001, device := s.sys.device, time := eventTime f s, detail := x.evtLost }
        (modStall f (fun y => { y with evtLost := 0 }) s)
    else s
  drainWaiting f (stall s1 f).evtWait s1

/-- A write to GRM_EVT_HEAD (20 R637). -/
def evtHeadSet (f : Nat) (value : Word) (s : State) : State :=
  let v : Idx := value.setWidth 16
  let x := stall s f
  if (v - x.evtHead).toNat ≤ (x.evtTail - x.evtHead).toNat then
    eventsFreed f (modStall f (fun y => { y with evtHead := v }) s)
  else modStall f (fun y => { y with headErr := true }) s

/-- A write to GRM_STATUS: W1C of DB_ERR, HEAD_ERR and RESUMED (20 R638). -/
def grmStatusWrite (f : Nat) (value : Word) (s : State) : State :=
  modStall f (fun x =>
    { x with dbErr := x.dbErr && !value.getLsbD 0
             headErr := x.headErr && !value.getLsbD 1
             resumed := x.resumed && !value.getLsbD 2 }) s

/-! ## Interrupt registers -/

/-- Clears the pending bit of a source. -/
def unpend (n : Nat) (s : State) : State := { s with ints := { s.ints with pend := s.ints.pend &&& ~~~(1#640 <<< n) } }

/-- Whether a queue's occupancy is above its notice level, a level of 0 being off (11 R395, R401). -/
def noticeDue (s : State) (q : Nat) : Bool := (queue s q).level != 0 && decide ((queue s q).level / 64 < (queue s q).occ)

/-- Clears a source by W1C; a level notice whose occupancy is above its level sets again (11 R401). -/
def clearSource (n : Nat) (s : State) : State :=
  let s1 := unpend n s
  if 368 ≤ n ∧ n < 496 then (if noticeDue s (n - 368) then raise n s1 else s1) else s1

/-- A write to INT_PENDING_k: W1C of the sources routed to the function (03 R100). -/
def pendingWrite (f k : Nat) (value : Word) (s : State) : State :=
  (List.range 32).foldl (fun t j =>
    if value.getLsbD j && isPending t (32 * k + j) && targetOf t (32 * k + j) == f then clearSource (32 * k + j) t else t) s

/-- A write to INT_MASK_k: the sources routed to the function take the bits, and an unmasked pending source signals its
vector (03 R100, R103). -/
def maskWrite (f k : Nat) (value : Word) (s : State) : State :=
  (List.range 32).foldl (fun t j =>
    let n := 32 * k + j
    if targetOf t n == f then
      let t1 := modFnInt f (fun x =>
        { x with intMask := if value.getLsbD j then x.intMask ||| (1#640 <<< n) else x.intMask &&& ~~~(1#640 <<< n) }) t
      if !value.getLsbD j && isMasked t f n && isPending t n then trySignal f (vectorOf t n) t1 else t1
    else t) s

/-- A write to INT_VEC_ACK: the vector no longer awaits, and is signalled at once where a source is pending (03 R102). -/
def vecAck (f : Nat) (value : Word) (s : State) : State :=
  let v := value.toNat % 64
  resignal f v (modFnInt f (fun x => { x with await := x.await &&& ~~~(1#64 <<< v) }) s)

/-- A write to INT_STALL: W1C of CPL and EVT, and the two mask bits (20 R640); unmasking signals the vector (03 R103). -/
def intStallWrite (f : Nat) (value : Word) (s : State) : State :=
  let old := stall s f
  let s1 := modStall f (fun x =>
    { x with cplPend := x.cplPend && !value.getLsbD 0, evtPend := x.evtPend && !value.getLsbD 1
             cplMask := value.getLsbD 8, evtMask := value.getLsbD 9 }) s
  let s2 := if old.cplMask then resignal f 0 s1 else s1
  if old.evtMask then resignal f 1 s2 else s2

/-- Whether the condition of a source holds by itself, so that the source sets again at a new target (03 R101). A level
notice's condition is its latch (11 R403); a stack above 85 °C, the built-in thermal model and the recovery image are
conditions that last; every other source names an event (log 12). -/
def conditionHolds (s : State) (n : Nat) : Bool :=
  if 368 ≤ n ∧ n < 496 then isPending s n
  else if n = 354 then s.fabric.hot.getD 0 false
  else if n = 355 then s.fabric.hot.getD 1 false
  else if n = 626 then s.thm.builtin
  else if n = 634 then s.sys.recovery
  else false

/-- A source whose route has moved to another function: cleared at the old target, masked at the new one, and set there
where its condition holds (03 R101). -/
def rerouted (before : State) (n : Nat) (s : State) : State :=
  if targetOf before n = targetOf s n then s
  else
    let f := targetOf s n
    let s1 := modFnInt f (fun x => { x with intMask := x.intMask ||| (1#640 <<< n) }) (unpend n s)
    if conditionHolds before n then raise n s1 else s1

/-- Applies 03 R101 to every source whose target differs from what it was. -/
def reroutedAll (before s : State) : State := (List.range 640).foldl (fun t n => rerouted before n t) s

/-- The route that a write to INT_ROUTE_n leaves (03 R98, R99). -/
def routeWritten (r : Route) (value : Word) : Route :=
  let v := value.toNat / 16 % 64
  { func := if value.getLsbD 10 then value.toNat % 16 else r.func
    vector := if v < 2 then 2 else v
    fixed := value.getLsbD 10, pin := value.getLsbD 11, enable := value.getLsbD 12 }

/-- A write to INT_ROUTE_n (03 R98-R101), in F0's BAR only. A source with ENABLE 0 is never pending; a pending source
that keeps its target and takes another vector signals it (log 12). -/
def routeWrite (f n : Nat) (value : Word) (s : State) : State :=
  if f ≠ 0 then s
  else
    let r := routeWritten (routeOf s n) value
    let s1 : State := { s with ints := { s.ints with routes := Tbl.put {} s.ints.routes n r } }
    let s2 := if r.enable then s1 else unpend n s1
    let s3 := rerouted s n s2
    if targetOf s n = targetOf s3 n ∧ vectorOf s n ≠ vectorOf s3 n ∧ isPending s3 n ∧ !isMasked s3 (targetOf s3 n) n then
      trySignal (targetOf s3 n) (vectorOf s3 n) s3
    else s3

/-- The vectors of a function that have a pending, unmasked source. -/
def dueVectors (s : State) (f : Nat) : List Nat :=
  ((if vectorDue s f 0 then [0] else []) ++ (if vectorDue s f 1 then [1] else []) ++
    (((List.range 640).filter fun n => isPending s n && targetOf s n == f && !isMasked s f n).map (vectorOf s))).dedup

/-- Signals a vector whether or not it awaits acknowledgement (03 R103: after MSI-X is enabled again every vector with a
pending, unmasked source is signalled). -/
def forceSignal (f v : Nat) (s : State) : State := if canSend s f v then sendVector f v s else s

/-- The Groom raises again the stall source of every stall that holds an entry not yet consumed (02 R64). -/
def stallSourcesAgain (f : Nat) (s : State) : State :=
  modStall f (fun x => { x with cplPend := x.cplPend || decide (0 < used x.cplTail x.cplHead)
                                evtPend := x.evtPend || decide (0 < used x.evtTail x.evtHead) }) s

/-- MSI-X Enable is set for a function (03 R103, 02 R64). -/
def msixOn (f : Nat) (s : State) : State :=
  let s1 := modFnInt f (fun x => { x with msixEnable := true }) (stallSourcesAgain f s)
  (dueVectors s1 f).foldl (fun t v => forceSignal f v t) s1

/-- A write to an MSI-X table entry's mask or the function mask; unmasking signals (03 R103). -/
def msixMask (f : Nat) (entry : Option Nat) (mask : Bool) (s : State) : State :=
  let s1 := modFnInt f (fun x => match entry with
    | some v => { x with vecMask := if mask then x.vecMask ||| (1#64 <<< v) else x.vecMask &&& ~~~(1#64 <<< v) }
    | none => { x with fnMask := mask }) s
  if mask then s1
  else match entry with
    | some v => resignal f v s1
    | none => (dueVectors s1 f).foldl (fun t v => trySignal f v t) s1

/-! ## Rings with a READ field -/

/-- Whether a new READ frees slots: neither backwards nor beyond WRITE (20 R645). -/
def readOk (rd wr v : Nat) : Bool := decide ((v + 65536 - rd) % 65536 ≤ (wr + 65536 - rd) % 65536)

/-- Puts a new READ into its ring. -/
def setRead (r : RingReg) (v : Nat) (s : State) : State :=
  match r with
  | .stats i => modStream i (fun x => { x with statsRd := v }) s
  | .decOut c => { s with cod := { s.cod with dec := s.cod.dec.map fun d => if d.core == c then { d with rd := v } else d } }
  | .encStats c => { s with cod := { s.cod with enc := s.cod.enc.map fun e => if e.core == c then { e with statRd := v } else e } }
  | .netRx p f => { s with net := s.net.modify p fun n => { n with flows := n.flows.modify f fun x => { x with rd := v } } }

/-- A write to the READ field of a ring index register, by the owner of the ring's unit (20 R643-R645). -/
def readAdvance (f : Nat) (r : RingReg) (value : Word) (s : State) : State :=
  let x := ringOf s r
  let v := value.toNat % 65536
  if ownerOf s x.1 == f && readOk x.2.1 x.2.2 v then setRead r v s else s

/-! ## Reads with side effects -/

/-- A read of QUE_OCC_q: CROSSINGS is read and cleared, in the owner's BAR (11 R404). -/
def occRead (f q : Nat) (s : State) : State :=
  if ownerOf s (myUnit s 0x51 q) == f then
    emit (.readData f (0x4000 + 8 * q) (queOcc (queue s q))) (modQueue q (fun x => { x with crossings := 0 }) s)
  else emit (.readData f (0x4000 + 8 * q) 0) s

/-- A read of QUE_PEAK_q: PEAK is read and loaded with the occupancy (11 R402). -/
def peakRead (f q : Nat) (s : State) : State :=
  if ownerOf s (myUnit s 0x51 q) == f then
    emit (.readData f (0x4004 + 8 * q) (quePeak (queue s q))) (modQueue q (fun x => { x with peak := x.occ }) s)
  else emit (.readData f (0x4004 + 8 * q) 0) s

/-- A capturing read of the selected or an engine's time (20 R642). -/
def timeCapture (f : Nat) (w : TimeReg) (s : State) : State :=
  match w with
  | .selected => emit (.readData f 0x3004 (now s).nsec) (modFnInt f (fun x => { x with selLatch := some (now s) }) s)
  | .engine e =>
    let t := (s.time.engines.getD e {}).time
    emit (.readData f (0x3010 + 16 * e) (t % 2 ^ 32)) (modFnInt f (fun x => { x with engLatch := Tbl.set x.engLatch e t }) s)

/-- A read of LNE_STAT_l clears SYNC_ERR and DOWN_COUNT, in F0's BAR only (20 R646). -/
def laneStatRead (f l : Nat) (s : State) : State :=
  if f ≠ 0 then emit (.readData f (0x101000 + 8 * l) 0) s
  else emit (.readData f (0x101000 + 8 * l) (lneStat (s.lanes.getD l {})))
    { s with lanes := s.lanes.modify l fun x => { x with syncErr := 0, downs := 0 } }

/-! ## Any write -/

/-- A word written to the command ring or the payload window of a function's stall (02 R35, log 7). -/
def stallWrite (f o : Nat) (value : Word) (s : State) : State :=
  if (0x1000 ≤ o ∧ o < 0x2000) ∨ (0x10000 ≤ o ∧ o + 4 ≤ 0x10000 + 1024 * (stall s f).windowKib) then
    modStall f (fun x => { x with
      mem := Mem.writes x.mem o (leBytes 4 value.toNat)
      begun := if o < 0x2000 then x.begun ||| (1#64 <<< ((o - 0x1000) / 64)) else x.begun }) s
  else s

/-- The ring index register at an offset (20 R643). -/
def ringAt (o : Nat) : Option RingReg :=
  if 0x5000 ≤ o ∧ o < 0x5044 then some (.stats ((o - 0x5000) / 4))
  else if 0x5080 ≤ o ∧ o < 0x5098 then some (.decOut ((o - 0x5080) / 4))
  else if 0x50C0 ≤ o ∧ o < 0x50D8 then some (.encStats ((o - 0x50C0) / 4))
  else if 0x5100 ≤ o ∧ o < 0x5200 then some (.netRx ((o - 0x5100) / 128) ((o - 0x5100) % 128 / 4))
  else none

/-- A write of an aligned word at an offset of a function's BAR; an offset that no table lists ignores it (20 R631). -/
def regWrite (f o : Nat) (value : Word) (s : State) : State :=
  if o % 4 ≠ 0 then s
  else if o = 0x000 then doorbellWrite f value s
  else if o = 0x008 then cplHeadSet f value s
  else if o = 0x010 then evtHeadSet f value s
  else if o = 0x018 then grmStatusWrite f value s
  else if 0x2000 ≤ o ∧ o < 0x2050 then pendingWrite f ((o - 0x2000) / 4) value s
  else if 0x2080 ≤ o ∧ o < 0x20D0 then maskWrite f ((o - 0x2080) / 4) value s
  else if o = 0x2100 then vecAck f value s
  else if o = 0x2104 then intStallWrite f value s
  else if 0x20000 ≤ o ∧ o < 0x40000 then stallWrite f (o - 0x20000) value s
  else if 0x100000 ≤ o ∧ o < 0x100A00 then routeWrite f ((o - 0x100000) / 4) value s
  else match ringAt o with
    | some r => readAdvance f r value s
    | none => s

/-! ## The rows -/

/-- An effect that the host's access has where it reaches the device. -/
def whenHost (f : Nat) (g : State → State) (s : State) : State := if hostOk s f then g s else s

/-- COMMAND_DOORBELL (02 R42-R44). -/
def execCommandDoorbell (fn : Nat) (value : Word) (s : State) : Host.Outcome State Fault Refusal :=
  .next (whenHost fn (doorbellWrite fn value) s)

/-- CPL_HEAD_WRITE (20 R637). -/
def execCplHeadWrite (fn : Nat) (value : Word) (s : State) : Host.Outcome State Fault Refusal :=
  .next (whenHost fn (cplHeadSet fn value) s)

/-- EVT_HEAD_WRITE (20 R637, 02 R57). -/
def execEvtHeadWrite (fn : Nat) (value : Word) (s : State) : Host.Outcome State Fault Refusal :=
  .next (whenHost fn (evtHeadSet fn value) s)

/-- GRM_STATUS_CLEAR (20 R638). -/
def execGrmStatusClear (fn : Nat) (value : Word) (s : State) : Host.Outcome State Fault Refusal :=
  .next (whenHost fn (grmStatusWrite fn value) s)

/-- INT_PENDING_CLEAR (03 R100, 11 R401). -/
def execIntPendingClear (fn k : Nat) (value : Word) (s : State) : Host.Outcome State Fault Refusal :=
  .next (whenHost fn (fun t => if k < 20 then pendingWrite fn k value t else t) s)

/-- INT_MASK_WRITE (03 R100, R103). -/
def execIntMaskWrite (fn k : Nat) (value : Word) (s : State) : Host.Outcome State Fault Refusal :=
  .next (whenHost fn (fun t => if k < 20 then maskWrite fn k value t else t) s)

/-- INT_VEC_ACK (03 R102). -/
def execIntVecAck (fn : Nat) (value : Word) (s : State) : Host.Outcome State Fault Refusal :=
  .next (whenHost fn (vecAck fn value) s)

/-- INT_STALL_CLEAR (20 R640). -/
def execIntStallClear (fn : Nat) (value : Word) (s : State) : Host.Outcome State Fault Refusal :=
  .next (whenHost fn (intStallWrite fn value) s)

/-- INT_STALL_MASK_WRITE (20 R640, 03 R103). -/
def execIntStallMaskWrite (fn : Nat) (value : Word) (s : State) : Host.Outcome State Fault Refusal :=
  .next (whenHost fn (intStallWrite fn value) s)

/-- INT_ROUTE_WRITE (03 R98-R101). -/
def execIntRouteWrite (fn src : Nat) (value : Word) (s : State) : Host.Outcome State Fault Refusal :=
  .next (whenHost fn (fun t => if src < 640 then routeWrite fn src value t else t) s)

/-- RING_READ_ADVANCE (20 R645). -/
def execRingReadAdvance (fn : Nat) (ring : RingReg) (value : Word) (s : State) : Host.Outcome State Fault Refusal :=
  .next (whenHost fn (readAdvance fn ring value) s)

/-- QUE_OCC_READ (11 R404). -/
def execQueOccRead (fn q : Nat) (s : State) : Host.Outcome State Fault Refusal :=
  .next (whenHost fn (fun t => if q < 128 then occRead fn q t else t) s)

/-- QUE_PEAK_READ (11 R402, R405). -/
def execQuePeakRead (fn q : Nat) (s : State) : Host.Outcome State Fault Refusal :=
  .next (whenHost fn (fun t => if q < 128 then peakRead fn q t else t) s)

/-- PTP_TIME_CAPTURE (20 R642). -/
def execPtpTimeCapture (fn : Nat) (which : TimeReg) (s : State) : Host.Outcome State Fault Refusal :=
  .next (whenHost fn (fun t => if which.wf then timeCapture fn which t else t) s)

/-- LNE_STAT_READ (20 R646). -/
def execLneStatRead (fn lane : Nat) (s : State) : Host.Outcome State Fault Refusal :=
  .next (whenHost fn (fun t => if lane < 72 then laneStatRead fn lane t else t) s)

/-- REGISTER_WRITE (20 R631). -/
def execRegisterWrite (fn offset : Nat) (value : Word) (s : State) : Host.Outcome State Fault Refusal :=
  .next (whenHost fn (regWrite fn offset value) s)

/-- MSIX_ENABLE (03 R103, 02 R64). -/
def execMsixEnable (fn : Nat) (s : State) : Host.Outcome State Fault Refusal :=
  .next (whenHost fn (msixOn fn) s)

/-- MSIX_MASK_WRITE (03 R103). -/
def execMsixMaskWrite (fn : Nat) (entry : Option Nat) (mask : Bool) (s : State) : Host.Outcome State Fault Refusal :=
  .next (whenHost fn (msixMask fn entry mask) s)

end Sys2Proof.Machine
end

