-- ==== Sys2Proof/Machine/Binding.lean ====
section
/-! DEFINITION. Ownership: the BIND commands, rebinding, the functions' life, link resets and function-level reset
(02 R61-R67, 03 R80-R96, 18 R587). -/

namespace Sys2Proof.Machine

/-! ## BIND commands (02 'Central commands', R656; 03 R86, R110-R112) -/

/-- The unit that a block of a BIND command names on the device of its slot. -/
def bindUnit (c : Cmd) : UnitRef := ⟨c.device, fieldAt c.region 0 1, fieldAt c.region 2 2⟩

/-- Offsets of CLASS, UNIT and FUNCTION where they name nothing (03 R86). -/
def bindFaults (s : State) (c : Cmd) : List Nat :=
  let u := bindUnit c
  faultIf (classUnits u.cls).isNone 0 ++
  faultIf (match classUnits u.cls with
    | some (_, n) => decide (n ≤ u.inst)
    | none => false) 2 ++
  faultIf (c.opcode == 0x0201 && (!fnExists s (fieldAt c.region 1 1) || decide (16 ≤ fieldAt c.region 1 1))) 1

/-- The unit number that a BIND command names. -/
def bindKey (c : Cmd) : Nat := (unitKey (bindUnit c).device (bindUnit c).cls (bindUnit c).inst).getD 0

/-- The new owner: FUNCTION, or F0 for a release. -/
def bindOwner (c : Cmd) : Nat := if c.opcode = 0x0201 then fieldAt c.region 1 1 else 0

/-- Changes the owner of a unit. -/
def setOwner (u f : Nat) (s : State) : State := { s with bind := { s.bind with owner := Tbl.put 0 s.bind.owner u f } }

/-- Whether the heads are a locked pair (12 R426). -/
def pairLocked (s : State) : Bool :=
  match headIn s.cfg.committed 0 with
  | some x => x.lock
  | none => false

/-- Whether a unit of this device may not be bound now: a head of a locked pair (12 R426), or a core of an open session of two
or more cores (09 R333). -/
def unitBusy (s : State) (u : UnitRef) : Bool :=
  u.device == s.sys.device &&
    ((u.cls == 0x60 && decide (u.inst < 2) && pairLocked s) ||
      ((u.cls == 0x40 || u.cls == 0x41) &&
        (s.cod.enc.any (fun e => bit e.cores u.inst && decide (2 ≤ maskCount e.cores 6)) ||
          s.cod.dec.any fun d => bit d.cores u.inst && decide (2 ≤ maskCount d.cores 6))))

/-- Whether a unit may not be bound now: it is busy, or its rebinding waits (log 23). -/
def bindBusy (s : State) (c : Cmd) : Bool := unitBusy s (bindUnit c) || rebinding s (some (bindKey c))

/-- A rebinding that joins those that wait. -/
def addRebind (w : Rebind) (s : State) : State := { s with bind := { s.bind with waiting := s.bind.waiting ++ [w] } }

/-- The rebinding that a BIND command asks for. -/
def bindRebind (c : Cmd) : Rebind := { unit := bindUnit c, newOwner := bindOwner c, cmd := some ⟨c.fn, c.seq⟩ }

/-- Checks of `BIND.ASSIGN` and `BIND.RELEASE` (03 R86, R108, R110); a binding of a member's unit is judged for admission by
that member, whose units and shares it concerns (02 R52, log 25). -/
def bindCheck (s : State) (c : Cmd) : Option Reply :=
  inOrder s c
    (firstFail [blockFault layBind c.region (bindFaults s c),
      need (fieldAt c.region 4 2 == epochOf s (bindKey c)) { status := 0x21 }])
    (if c.device = s.sys.device then admission s (addRebind (bindRebind c) s) else none) none
    (need (!bindBusy s c) busy)

/-- A rebinding waits for the unit to end what it executes (03 R88); that of a member's unit first asks the member. -/
def bindEffect (c : Cmd) (s : State) : State :=
  if c.device = s.sys.device then setWaiting c (addRebind (bindRebind c) s)
  else setWaiting c (tthSend 1 2 (.groom (.bindAsk c.fn c.seq (bindUnit c) (bindOwner c))) c.device false
    (addRebind { bindRebind c with asked := true } s))

/-- BIND_ASSIGN (03 R86, R110-R112). -/
def execBindAssign (r : CmdRef) (s : State) : Host.Outcome State Fault Refusal :=
  .next (runCmd r 0x0201 bindCheck bindEffect s)

/-- BIND_RELEASE (03 R86, R110). -/
def execBindRelease (r : CmdRef) (s : State) : Host.Outcome State Fault Refusal :=
  .next (runCmd r 0x0202 bindCheck bindEffect s)

/-- Checks of `BIND.QUERY` (02 R656). -/
def bindQueryCheck (s : State) (c : Cmd) : Option Reply :=
  inOrder s c (blockFault layBind c.region (bindFaults s c)) none none none

/-- Effect of BIND_QUERY. -/
def effectBindQuery (c : Cmd) (t : State) : State :=
  complete c (okReply (epochOf t (bindKey c) + 2 ^ 16 * ownerOf t (bindKey c)) 0) t

/-- BIND_QUERY (02 R656). -/
def execBindQuery (r : CmdRef) (s : State) : Host.Outcome State Fault Refusal :=
  .next (runCmd r 0x0203 bindQueryCheck effectBindQuery s)

/-! ## A rebinding applies (03 R89-R92) -/

/-- Whether a unit runs, for DETAIL[16] of `EV_UNIT_BOUND` (03 R90). DESIGN CHOICE (log 50): the spec does not say when a
unit runs; here one of this device runs that has a committed block, or records, decodes or queues, and is not ordered to its
safe state. A time engine, and a unit of another device, never count as running. -/
def unitRuns (s : State) (u : Nat) : Bool :=
  safeOf s u == 0 &&
    (s.cfg.committed.any (fun e => keyUnitNo s e.1 == some u) ||
      (u == myUnit s 0x31 0 && s.recorder.state != 0) ||
      s.cod.dec.any (fun d => myUnit s 0x40 d.core == u) ||
      s.queues.any fun q => q.2.configured && myUnit s 0x51 q.1 == u)

/-- Commands that wait for an apply step of their own: they have changed nothing yet (02 R62). -/
def awaitsApply (c : Cmd) : Bool := [0x0001, 0x6003, 0x6004, 0x7101].contains c.opcode && c.waiting

/-- Whether a command has not started: accepted, and neither executing here nor sent on to the member that executes it. -/
def notStarted (c : Cmd) : Bool := if c.relayed then !c.sent else !c.waiting || awaitsApply c

/-- Whether a command of a unit is queued to it (03 R89). -/
def queuedTo (u : Nat) (c : Cmd) : Bool := c.unit == some u && notStarted c

/-- Whether a command is executing on a unit (03 R88). -/
def executingOn (u : Nat) (c : Cmd) : Bool := c.unit == some u && !notStarted c

/-- Removes what a command that ends before its apply step had asked for. -/
def withdraw (c : Cmd) (s : State) : State :=
  let r : CmdRef := ⟨c.fn, c.seq⟩
  { s with heads := s.heads.map fun h => { h with requests := h.requests.filter (·.ref != r) }
           time := { s.time with engines := s.time.engines.map fun e => if e.due = some r then { e with due := none } else e }
           sys := { s.sys with profileReq := match s.sys.profileReq with
             | some (q, x) => if q = r then none else some (q, x)
             | none => none } }

/-- Step 2 of 03 R89. -/
def returnQueued (u epoch : Nat) (s : State) : State :=
  (s.cmds.filter (queuedTo u)).foldl (fun t c => completeWith c epoch false { status := 0x21 } (withdraw c t)) s

/-- Step 3 of 03 R89: staged state and captured parameters of the unit go. -/
def discardUnit (u : Nat) (s : State) : State :=
  sweepSessions { s with cfg := { s.cfg with
    staged := s.cfg.staged.filter fun e => keyUnitNo s e.key != some u
    sched := s.cfg.sched.map fun x => { x with img := x.img.filter fun e => keyUnitNo s e.key != some u } } }

/-- The binding epoch after one (03 R83). -/
def nextEpoch (e : Nat) : Nat := if e = 65535 then 1 else e + 1

/-- An event about a unit for a function. -/
def bindEvent (code f : Nat) (r : UnitRef) (epoch detail : Nat) (s : State) : State :=
  postEvent f { code := code, cls := r.cls, device := r.device, unit := r.inst, bindEpoch := epoch, time := eventTime f s
                detail := detail } s

/-- Tells a member of the owner and the binding epoch of its unit (02 R52, log 44). -/
def tellOwner (r : UnitRef) (f epoch : Nat) (s : State) : State :=
  if r.device = s.sys.device then s else tthSend 1 2 (.groom (.rebound r f epoch)) r.device false s

/-- What steps 2 and 3 of 03 R89 have done at the device of a unit, for the events of R90: the commands returned, whether staged
state was discarded and scheduled commits were pruned, and whether the unit runs. -/
structure Unbound where
  count : Nat := 0
  staged : Bool := false
  pruned : Bool := false
  running : Bool := false
deriving DecidableEq, Repr

/-- What steps 2 and 3 of 03 R89 are to do to a unit on this device. -/
def unboundOf (u : Nat) (s : State) : Unbound :=
  { count := (s.cmds.filter (queuedTo u)).length, staged := s.cfg.staged.any fun e => keyUnitNo s e.key == some u
    pruned := s.cfg.sched.any fun x => x.img.any fun e => keyUnitNo s e.key == some u, running := unitRuns s u }

/-- Steps 2 and 3 of 03 R89 on this device. -/
def unbind (u : Nat) (s : State) : State := discardUnit u (returnQueued u (epochOf s u) s)

/-- Applies a rebinding in the order of 03 R89, then the routes' targets (03 R101) and the command's completion; `far` is what the
member whose unit it is has done before. DESIGN CHOICE (log 50): CLASS of both events, for a unit that two classes share, is the
class that the BIND command named. -/
def applyRebind (w : Rebind) (far : Unbound) (s : State) : State :=
  let u := (unitKey w.unit.device w.unit.cls w.unit.inst).getD 0
  let old := epochOf s u
  let new := nextEpoch old
  let here := unboundOf u s
  let s0 : State := { s with bind := { s.bind with waiting := s.bind.waiting.filter (· != w) } }
  let s2 := bindEvent 0x0201 (ownerOf s u) w.unit old ((here.count + far.count) % 65536 +
    2 ^ 16 * b2n (here.staged || far.staged) + 2 ^ 17 * b2n (here.pruned || far.pruned)) (unbind u s0)
  let s3 : State :=
    { s2 with bind := { s2.bind with epoch := Tbl.put 1 s2.bind.epoch u new, owner := Tbl.put 0 s2.bind.owner u w.newOwner } }
  let s4 := tellOwner w.unit w.newOwner new
    (bindEvent 0x0202 w.newOwner w.unit new (new + 2 ^ 16 * b2n (unitRuns s3 u || far.running)) (reroutedAll s2 s3))
  match w.cmd with
  | some r => match findCmd s4 r with
    | some c => complete c (okReply new 0) s4
    | none => s4
  | none => s4

/-- A member's part of a rebinding of its unit: steps 2 and 3 of 03 R89, of which it tells the leader, and the unit takes no command
until the leader has done the rest (log 44). -/
def unbindFor (w : Rebind) (u : Nat) (s : State) : State :=
  let x := unboundOf u s
  tthSend 0 2 (.groom (.unbound w.unit w.cmd x.count x.staged x.pruned x.running)) 0 false
    (unbind u { s with bind := { s.bind with waiting := s.bind.waiting.map fun y => if y = w then { y with done := true } else y } })

/-- REBINDING_APPLY (03 R88, R89): between two commands of the unit, on its own device; the release of a removed function's unit
follows its safe state (03 R84). -/
def execRebindingApply (unit : UnitRef) (s : State) : Host.Outcome State Fault Refusal :=
  .next (match s.bind.waiting.find? fun w => unitKey w.unit.device w.unit.cls w.unit.inst == unitKey unit.device unit.cls unit.inst with
    | some w =>
      match unitKey unit.device unit.cls unit.inst with
      | some u =>
        if groomOn s && unit.device == s.sys.device && !s.cmds.any (executingOn u) && !w.asked && !w.done &&
            (w.cmd.isSome || safeOf s u == 2) then
          if isLeader s then applyRebind w {} s else unbindFor w u s
        else s
      | none => s
    | none => s)

/-! ## Virtual functions (03 R80, R84) -/

/-- The unit numbers of the array that a function owns, for functions other than F0. -/
def ownedBy (s : State) (f : Nat) : List Nat := (s.bind.owner.filter fun e => e.2 == f).map (·.1)

/-- The release of a unit joins the rebindings that wait, before the others (03 R84): these find the removed function's ownership
ended. -/
def addRelease (r : UnitRef) (s : State) : State :=
  { s with bind := { s.bind with waiting := { unit := r, newOwner := 0, cmd := none } :: s.bind.waiting } }

/-- Tells a member of the release of its unit (log 44). -/
def tellRelease (r : UnitRef) (s : State) : State :=
  if r.device = s.sys.device then s else tthSend 1 2 (.groom (.release r)) r.device false s

/-- The units of a function that ceases to exist go to their safe state and then to F0 (03 R84). -/
def releaseUnits (f : Nat) (s : State) : State :=
  (ownedBy s f).foldl (fun t u => orderSafe u (tellRelease (unitRef u) (addRelease (unitRef u) t))) s

/-- A rebinding that waits towards a function that ceases to exist leads to F0 (03 R84, log 23). -/
def redirect (keep : Nat) (w : Rebind) : Rebind := if keep < w.newOwner then { w with newOwner := 0 } else w

/-- Ends the functions above a number (03 R84); fixed routes to them go to F0 (03 R99, R101). -/
def endFunctions (keep : Nat) (g : State → State) (s : State) : State :=
  let gone := ((List.range 15).map (· + 1)).filter fun f => fnExists s f && decide (keep < f)
  let s1 := gone.foldl (fun t f => releaseUnits f t) s
  reroutedAll s (g { s1 with bind := { s1.bind with waiting := s1.bind.waiting.map (redirect keep) } })

/-- Clears VF Enable. -/
def clearVf (s : State) : State := { s with sys := { s.sys with vfEnable := false } }

/-- Whether the endpoint's configuration space answers: on the leader, with the link up. -/
def configOk (s : State) : Bool := s.sys.linkUp && groomOn s && isLeader s

/-- VF_ENABLE_CLEAR (03 R84). -/
def execVfEnableClear (s : State) : Host.Outcome State Fault Refusal :=
  .next (if configOk s then endFunctions 0 clearVf s else s)

/-- VF_ENABLE_SET (03 R80, R99). -/
def execVfEnableSet (s : State) : Host.Outcome State Fault Refusal :=
  .next (if configOk s then reroutedAll s { s with sys := { s.sys with vfEnable := true } } else s)

/-- NUMVFS_WRITE (03 R80, R81, R84): a value above TotalVFs is ignored. -/
def execNumvfsWrite (value : Nat) (s : State) : Host.Outcome State Fault Refusal :=
  .next (if configOk s && decide (value ≤ sriov.totalVfs) then
    endFunctions value (fun t => { t with sys := { t.sys with numVfs := value } }) s else s)

/-! ## Link resets (02 R62-R65, 18 R587) -/

/-- Whether a command has reset class C. -/
def isClassC (c : Cmd) : Bool := ((opInfo c.opcode).map (·.classC)).getD false

/-- Whether a link reset aborts a command here: class A, not yet at its apply step (02 R62). One that was sent on to a member
is aborted there, which the leader tells of the reset (log 44); a copy of one that the leader has carried out is past its apply
step. -/
def aborts (c : Cmd) : Bool := !c.detached && !c.copy && !isClassC c && notStarted c

/-- Tells the members of a link reset or of a function-level reset (log 44). -/
def tellMembers (m : GroomMsg) (s : State) : State := if isLeader s then tthBroadcast 2 (.groom m) s else s

/-- Aborts the commands of a link reset. -/
def abortAll (s : State) : State :=
  (s.cmds.filter aborts).foldl (fun t c =>
    modStall c.fn (fun x => { x with aborted := x.aborted + 1 }) (complete c { status := 0x40 } (withdraw c t))) s

/-- The record of a link reset in every stall (02 R67). -/
def recordReset (kind : Nat) (s : State) : State :=
  { s with stalls := s.stalls.map fun x => { x with resetCount := (x.resetCount + 1) % 2 ^ 32, resetKind := kind, aborted := 0 } }

/-- MSI-X Enable is cleared in every function (03 R103). -/
def msixOff (s : State) : State :=
  { s with ints := { s.ints with fns := s.ints.fns.map fun x => { x with msixEnable := false } } }

/-- Under link policy SAFE every unit goes to its safe state (02 R63). -/
def safeAll (s : State) : State :=
  if s.sys.linkPolicy = 1 then (List.range 187).foldl (fun t k => orderSafe (s.sys.device * 256 + k) t) s else s

/-- A link reset of a kind: the link goes down, class A commands abort, and the policy is applied. -/
def linkLost (kind : Nat) (s : State) : State :=
  tellMembers .linkReset (safeAll (abortAll (recordReset kind (msixOff (lanesTurn false endpointLanes
    { s with sys := { s.sys with linkUp := false } })))))

/-- LINK_RESET (02 R62-R64): a hot reset or a link-down. -/
def execLinkReset (hot : Bool) (s : State) : Host.Outcome State Fault Refusal :=
  .next (if groomOn s && isLeader s && s.sys.linkUp then linkLost (if hot then 1 else 2) s else s)

/-- The endpoint's configuration space at its reset values (18 R587). -/
def clearConfig (s : State) : State := { s with sys := { s.sys with vfEnable := false, numVfs := 0 } }

/-- PERST_N (18 R587): a link-down of kind 4, with the configuration space reset. -/
def execPerstN (s : State) : Host.Outcome State Fault Refusal :=
  .next (if groomOn s && isLeader s then endFunctions 0 clearConfig (linkLost 4 s) else s)

/-- The slots beyond the last landed doorbell, by ring place. -/
def beyondDoorbell (x : Stall) : List Nat :=
  let n := used x.cmdTail x.cmdHead
  (List.range (64 - n)).map fun k => (x.cmdTail.toNat + k) % 64

/-- Clears the slots beyond the last landed doorbell; those that the host had begun to write are counted (02 R65). -/
def clearSlots (x : Stall) : Stall :=
  let l := beyondDoorbell x
  { x with
    discarded := (l.filter fun k => x.begun.getLsbD k && (Mem.read x.mem (0x1000 + 64 * k) 64).any (· != 0)).length
    mem := l.foldl (fun m k => Mem.clear m (0x1000 + 64 * k) 64) x.mem
    begun := l.foldl (fun b k => b &&& ~~~(1#64 <<< k)) x.begun
    resumed := true }

/-- After a stop has cooled, F0 learns of it once the link is up (17 R575). -/
def coolEvent (s : State) : State :=
  if s.thm.stop = 2 ∧ s.thm.cooled then raise 619 (sysEvent 0xA006 0xA0 0 (q88 (modelTj s)) s) else s

/-- LINK_UP (02 R64, R65; 15 R512; 20 R638). -/
def execLinkUp (s : State) : Host.Outcome State Fault Refusal :=
  .next (if groomOn s && isLeader s && !s.sys.linkUp then
    coolEvent (equaliseEndpoint { s with sys := { s.sys with linkUp := true }, stalls := s.stalls.map clearSlots }) else s)

/-! ## Function-level reset (02 R66, R67; 03 R94) -/

/-- A reference after a function-level reset of a function: the commands of the stall before it keep apart from those after it. -/
def elder (f : Nat) (r : CmdRef) : CmdRef := if r.fn % 16 = f then { r with fn := r.fn + 16 } else r

/-- The references that the units hold to the commands that wait for them, after a function-level reset of a function. -/
def elderRefs (f : Nat) (s : State) : State :=
  let g := elder f
  let job (j : SpiJob) : SpiJob := { j with ref := j.ref.map g }
  { s with
    bind := { s.bind with waiting := s.bind.waiting.map fun w => { w with cmd := w.cmd.map g } }
    brd := { s.brd with spis := s.brd.spis.map fun p => { p with sending := p.sending.map job, queue := p.queue.map job } }
    recorder := { s.recorder with
      startCmd := s.recorder.startCmd.map g, stopCmds := s.recorder.stopCmds.map g
      host := s.recorder.host.map fun h => { h with ref := g h.ref } }
    cod := { s.cod with enc := s.cod.enc.map fun x => { x with closing := x.closing.map g } }
    queues := s.queues.map fun q => (q.1, { q.2 with flushes := q.2.flushes.map g })
    time := { s.time with
      engines := s.time.engines.map fun e => { e with due := e.due.map g }
      due := s.time.due.map g }
    lanes := s.lanes.map fun l => { l with reading := l.reading.map g } }

/-- The parts of a scheduled commit that a function-level reset leaves: none of SCOPE 0 of the function, and no parameters
of its units (02 R66 step 1). -/
def resetSched (f : Nat) (s : State) : List Sched :=
  (s.cfg.sched.filter fun x => !(x.ref.fn == f && x.scope == 0)).map fun x =>
    { x with detached := x.detached || x.ref.fn == f, ref := elder f x.ref
             img := x.img.filter fun e => match keyUnitNo s e.key with
               | some u => ownerOf s u != f
               | none => true }

/-- Whether a function-level reset of its function leaves a command running: class C, no scheduled commit of SCOPE 0, and not
one that was sent on to a member, which detaches it there; or a copy of one that the leader has carried out (02 R66 steps 1 and
2). -/
def survives (s : State) (c : Cmd) : Bool :=
  c.copy || isClassC c && !(c.relayed && c.sent) && !(s.cfg.sched.any fun x => x.ref.fn == c.fn && x.ref.seq == c.seq && x.scope == 0)

/-- The commands that a function-level reset leaves: those of other stalls, and detached those of its own that survive. -/
def resetCmds (f : Nat) (s : State) : List Cmd :=
  (s.cmds.filter fun c => c.fn != f || survives s c).map fun c =>
    { c with fn := (elder f ⟨c.fn, c.seq⟩).fn, detached := c.detached || c.fn == f }

/-- A stall after a function-level reset (02 R66 step 5, R67). -/
def resetStall (x : Stall) : Stall :=
  { windowKib := x.windowKib, resetCount := (x.resetCount + 1) % 2 ^ 32, resetKind := 3 }

/-- Writes an event as entries free (03 R94): it is not counted as lost. -/
def eventWhenFree (f : Nat) (e : Event) (s : State) : State :=
  if (stall s f).evtWait.isEmpty && decide (used (stall s f).evtTail (stall s f).evtHead < 256) then writeEvent f e s
  else modStall f (fun x => { x with evtWait := x.evtWait ++ [e] }) s

/-- `EV_UNIT_BOUND` for each unit of a function (03 R94). -/
def boundAgain (f : Nat) (s : State) : State :=
  (allUnitsOf s f).foldl (fun t u =>
    let r := unitRef u
    eventWhenFree f { code := 0x0202, cls := r.cls, device := r.device, unit := r.inst, bindEpoch := epochOf t u
                      time := eventTime f t, detail := epochOf t u + 2 ^ 16 * b2n (unitRuns t u) } t) s

/-- Steps 1 to 3 of a function-level reset of one function (02 R66): what class A commands had asked for goes, class C ones
run on. -/
def resetCommands (f : Nat) (s : State) : State :=
  let s1 := (s.cmds.filter fun c => c.fn == f && !survives s c).foldl (fun t c => withdraw c t) s
  sweepSessions (elderRefs f { s1 with
    cfg := { s1.cfg with sched := resetSched f s1, staged := s1.cfg.staged.filter (·.fn != f) }, cmds := resetCmds f s1 })

/-- A function-level reset of one function, on every device of the array. -/
def resetFunction (f : Nat) (s : State) : State :=
  let s1 := tellMembers (.functionReset f) (resetCommands f s)
  let s2 := (allUnitsOf s1 f).foldl (fun t u => orderSafe u t) s1
  boundAgain f (modFnInt f (fun _ => {}) (modStall f resetStall s2))

/-- FUNCTION_LEVEL_RESET (02 R66): that of F0 resets every function and returns the routes to their reset values. -/
def execFunctionLevelReset (fn : Nat) (s : State) : Host.Outcome State Fault Refusal :=
  .next (if !(configOk s && fnExists s fn) then s
    else if fn = 0 then
      let t := ((List.range 16).filter (fnExists s)).foldl (fun t f => resetFunction f t) s
      reroutedAll t { t with ints := { t.ints with routes := [] } }
    else resetFunction fn s)

end Sys2Proof.Machine
end

