-- ==== Sys2Proof/Machine/Clock.lean ====
section
/-! DEFINITION. What a cycle of the time engines' 312.5 MHz clock does (13 R450-R453); a step on an empty queue is one
(log 3). -/

namespace Sys2Proof.Machine

/-- A value moved towards a goal by at most `d`. -/
def towards (v goal : Int) (d : Nat) : Int :=
  if v < goal then min goal (v + d) else max goal (v - d)

/-- SLEW_PPB × 10⁻⁹ of the time that an engine ran from `a` to `b`, in 2⁻³² ns. -/
def slewStep (ppb a b : Nat) : Nat := b * ppb / 1000000000 - a * ppb / 1000000000

/-- One cycle of an engine (13 R450). -/
def engineCycle (e : Engine) : Engine := { e with time := (e.time + e.incr) % timeRange }

/-- One cycle of the time engines, Δ and Φ (13 R450, R452, R453); on a member of an array Φ moves towards the leader's F − S
(14 R501). -/
def timeCycle (x : TimeSt) : TimeSt :=
  let e := x.engines.getD x.sel {}
  let d := slewStep x.slewPpb e.time (e.time + e.incr)
  let delta := towards x.delta 0 d
  { x with engines := x.engines.map engineCycle, delta := delta, phi := towards x.phi (x.lead.getD delta) d }

/-- The clock domains that a snub stretches (17 R558). -/
inductive Stretched where
  | pipe | zrec | code | fab | grm | hbc0 | hbc1
deriving DecidableEq, Repr

/-- The power domains whose snub stretches a clock domain (17 R558). -/
def stretchedBy : Stretched → List Nat
  | .pipe => [0, 1, 2]
  | .zrec => [3]
  | .code => [4, 5]
  | .fab => [6]
  | .grm => [7]
  | .hbc0 => [8]
  | .hbc1 => [9]

/-- The stage at which a clock domain runs: the deepest that any of its power domains requests (17 R563). -/
def clockStage (s : State) (d : Stretched) : Nat := ((stretchedBy d).map fun n => (s.pwr.droops.getD n {}).stage).foldl max 0

/-- Percent of its frequency at which a clock runs at a stage (17 R561). -/
def clockPercent (stage : Nat) : Nat := [100, 75, 50].getD stage 50

/-- Whether the time engines are clocked: a start has succeeded and HBM is not in self-refresh (01 R33). -/
def enginesClocked (s : State) : Bool := s.sys.phase == .running && !s.sys.selfRefresh

/-- Whether the time engines advance: they do so from step 1 of a start on (13 R450). -/
def enginesRun (s : State) : Bool := enginesClocked s || s.sys.phase == .released

/-- A step on an empty queue: a cycle of the engines, and the Groom sends on the commands of members that waited for an
earlier one (log 3, log 25). -/
def clockTick (s : State) : State :=
  let t : State := { s with tick := s.tick + 1, time := if enginesRun s then timeCycle s.time else s.time }
  if isLeader s && groomOn s then relayDue t else t

end Sys2Proof.Machine
end

