-- ==== Sys2Proof/Machine/Front.lean ====
section
/-! DEFINITION. The front corrections of a pipe on the rows of a frame (05 R174-R202): black level, normalisation, defect
correction, merge, range seams and lens shading, on exact integers. -/

namespace Sys2Proof.Machine

/-- rnd(a / b): halves towards plus infinity (05 R176). -/
def rnd (a : Int) (b : Nat) : Int := (2 * a + b) / (2 * (b : Int))

/-- A shading grid as loaded (05 R195): columns, rows, lens tags, bulk bytes. -/
structure Grid where
  cols : Nat
  rows : Nat
  tags : List Nat
  bytes : List Byte
deriving DecidableEq, Repr

/-- What the front works with for one frame: geometry (the rows it works on, and those of the whole frame), the blocks of
`PIPE.BLACK` and `PIPE.MERGE`, the column tables, the column estimate, the defect maps by gain code, the grids and the blend
weights, and the columns of this device: the first and how many. -/
structure FrontCtx where
  width : Nat
  height : Nat
  full : Nat
  dual : Bool
  mono : Bool
  black : List Byte
  merge : List Byte
  tables : List (List Byte)
  est : Tbl Int
  maps : List (List Byte)
  grids : List (Option Grid)
  weights : List Nat
  gainFs : Nat
  own : Nat × Nat
deriving DecidableEq, Repr

/-- CFA position (05 R174). -/
def cfaPos (mono : Bool) (x y : Nat) : Nat := if mono then 0 else 2 * (y % 2) + x % 2

/-- Gain code of a pixel: the new code from the split column onward (04 R149, 05 R193). -/
def gainAt (r : RowRec) (x : Nat) : Nat :=
  match r.split with
  | some c => if c ≤ x then 1 - r.gain else r.gain
  | none => r.gain

/-- Sample `k` of a pixel. -/
def sampleAt (r : RowRec) (x k : Nat) : Nat :=
  let p := r.px.getD x (0, 0)
  if k = 0 then p.1 else p.2

/-- BLACK[g][c][k] (05 'PIPE.BLACK'). -/
def blackLevel (c : FrontCtx) (g pos k : Nat) : Int := fieldAt c.black (0x20 + 0x20 * g + 4 * (2 * pos + k)) 4

/-- A FLAGS bit of `PIPE.BLACK`. -/
def blackFlag (c : FrontCtx) (i : Nat) : Bool := bit (fieldAt c.black 0 1) i

/-- OB_TOP, OB_LEFT and OB_RIGHT. -/
def obTop (c : FrontCtx) : Nat := fieldAt c.black 1 1
/-- OB_LEFT. -/
def obLeft (c : FrontCtx) : Nat := fieldAt c.black 2 2
/-- OB_RIGHT. -/
def obRight (c : FrontCtx) : Nat := fieldAt c.black 4 2

/-- Column table T[g][k][x]: two 4-byte values a column (05 R177, log 15). -/
def tableAt (c : FrontCtx) (g k x : Nat) : Int :=
  if blackFlag c 0 then signed 32 (fieldAt (c.tables.getD g []) (8 * x + 4 * k) 4) else 0

/-- Key of the column estimate E[g][k][x]. -/
def estKey (g k x : Nat) : Nat := (2 * g + k) * 65536 + x

/-- E[g][k][x], where its enable is set (05 R177). -/
def estAt (c : FrontCtx) (g k x : Nat) : Int := if blackFlag c 1 then Tbl.get 0 c.est (estKey g k x) else 0

/-- The two samples, or the one. -/
def samplesOf (dual : Bool) : List Nat := if dual then [0, 1] else [0]

/-- Whether a column belongs to this device: its counters take in no other (05 R187, R202, R203). -/
def ownColumn (c : FrontCtx) (x : Nat) : Bool := decide (c.own.1 ≤ x) && decide (x < c.own.1 + c.own.2)

/-- The column estimate after the OB_TOP rows of a frame (05 R178). DESIGN CHOICE: a GAIN_SPLIT row counts whole under its first
gain code (log 50). -/
def columnEstimate (c : FrontCtx) (rows : List RowRec) : Tbl Int :=
  if !blackFlag c 1 then c.est
  else
    let ob := (rows.take (obTop c)).zipIdx
    ([0, 1].flatMap fun g => (samplesOf c.dual).map fun k => (g, k)).foldl (fun acc gk =>
      let (g, k) := gk
      let good := ob.filter fun r => r.1.gain == g && !r.1.filled && !r.1.crcBad
      if good.isEmpty then acc
      else (List.range c.width).foldl (fun a x =>
        let total : Int := good.foldl (fun t r =>
          t + (16 * (sampleAt r.1 x k : Int) - blackLevel c g (cfaPos c.mono x r.2) k - tableAt c g k x)) 0
        let m := rnd total good.length
        let e := Tbl.get 0 a (estKey g k x)
        Tbl.put 0 a (estKey g k x) (e + (m - e) / 2 ^ fieldAt c.black 6 1)) acc) c.est

/-- The row estimate r(y, k) (05 R180); a filled row has 0. -/
def rowEstimate (c : FrontCtx) (r : RowRec) (y k : Nat) : Int :=
  if !blackFlag c 2 || r.filled || obLeft c == 0 then 0
  else
    let total : Int := (List.range (obLeft c)).foldl (fun t x =>
      let g := gainAt r x
      t + (16 * (sampleAt r x k : Int) - blackLevel c g (cfaPos c.mono x y) k - tableAt c g k x - estAt c g k x)) 0
    let cl : Int := fieldAt c.black 8 2
    clampI (-cl) cl (rnd total (obLeft c))

/-- NORM_H or NORM_L of a gain code (05 'PIPE.MERGE'). -/
def normOf (c : FrontCtx) (g k : Nat) : Int := fieldAt c.merge (0x10 + 0x10 * g + 4 * k) 4

/-- The normalisation of each row: NORM_H, NORM_L and whether the row is in a seam blend (05 R190-R193). The accumulator
holds the values of the row before, and the blend in progress: its row and where it started from. -/
def normRows (c : FrontCtx) : List RowRec → (Int × Int) → Option (Nat × Int × Int) → List (Int × Int × Bool)
  | [], _, _ => []
  | r :: rs, prev, blend =>
    let b := fieldAt c.merge 1 1
    let plain := (normOf c r.gain 0, normOf c r.gain 1)
    if r.split.isSome then
      (plain.1, plain.2, false) :: normRows c rs (normOf c (1 - r.gain) 0, normOf c (1 - r.gain) 1) none
    else
      let start : Option (Nat × Int × Int) :=
        if r.seam && bit (fieldAt c.merge 0 1) 0 then some (0, prev.1, prev.2)
        else match blend with
          | some (j, h, l) => if !r.seam && decide (j + 1 < b) then some (j + 1, h, l) else none
          | none => none
      match start with
      | some (j, h, l) =>
        let n := (h + rnd ((plain.1 - h) * (j + 1)) (b + 1), l + rnd ((plain.2 - l) * (j + 1)) (b + 1))
        (n.1, n.2, true) :: normRows c rs n start
      | none => (plain.1, plain.2, false) :: normRows c rs plain none

/-- The rows of a frame with their normalisation, from the FS gain code on (05 R192). -/
def normPlan (c : FrontCtx) (rows : List RowRec) : List (Int × Int × Bool) :=
  normRows c rows (normOf c c.gainFs 0, normOf c c.gainFs 1) none

/-- The normalised value v of a sample (05 R177, R182). DESIGN CHOICE: an optical-black row read as the neighbour of an active row
takes a row estimate and the frame's new E as an active row does (log 50). -/
def normalised (c : FrontCtx) (plan : List (Int × Int × Bool)) (rows : List RowRec) (x y k : Nat) : Int :=
  match rows[y]? with
  | none => 0
  | some r =>
    let g := gainAt r x
    let d : Int := 16 * (sampleAt r x k : Int) - (blackLevel c g (cfaPos c.mono x y) k + tableAt c g k x + estAt c g k x +
      rowEstimate c r y k)
    let n := plan.getD y (0, 0, false)
    let nn := if g = r.gain then (if k = 0 then n.1 else n.2.1) else normOf c g k
    rnd (d * nn) (2 ^ 26)

/-- Coordinates outside the frame are reflected (05 R185). -/
def reflect (v : Int) (size : Nat) : Nat :=
  if v < 0 then (-v).toNat else if (size : Int) ≤ v then (2 * ((size : Int) - 1) - v).toNat else v.toNat

/-- The pixels that a defect map marks, entry by entry (05 R183). -/
def mapMarks (mono : Bool) (m : List Byte) (x y : Nat) : Bool :=
  (List.range (m.length / 8)).any fun i =>
    let ex := fieldAt m (8 * i) 2
    let ey := fieldAt m (8 * i + 2) 2
    let run := fieldAt m (8 * i + 4) 1 % 16
    let step := if mono then 1 else 2
    ey == y && decide (ex ≤ x) && (x - ex) % step == 0 && decide ((x - ex) / step ≤ run)

/-- Whether a pixel is marked in the map of its own gain code (05 R185). -/
def marked (c : FrontCtx) (rows : List RowRec) (x y : Nat) : Bool :=
  match rows[y]? with
  | none => false
  | some r => mapMarks c.mono (c.maps.getD (gainAt r x) []) x y

/-- One same-colour step. -/
def stepOf (c : FrontCtx) : Nat := if c.mono then 1 else 2

/-- The rule of 05 R185 for a replacement from the neighbours l, r, u, n (none where unusable) and the output of the
nearest preceding same-colour pixel of the row. -/
def replacement (l r u n : Option Int) (before : Int) : Int :=
  let pair (a b : Int) : Int := rnd (a + b) 2
  match l, r, u, n with
  | some a, some b, some d, some e => if absI (a - b) ≤ absI (d - e) then pair a b else pair d e
  | some a, some b, _, _ => pair a b
  | _, _, some d, some e => pair d e
  | _, _, _, _ =>
    let us := [l, r, u, n].filterMap id
    if us.isEmpty then before else rnd (us.foldl (· + ·) 0) us.length

/-- Values of a row after static correction, in column order; `done` holds the outputs so far, last first (05 R185). -/
def staticRow (c : FrontCtx) (val : Nat → Nat → Int) (mk : Nat → Nat → Bool) (y : Nat) : Nat → Nat → List Int → List Int
  | 0, _, done => done.reverse
  | n + 1, x, done =>
    let st := stepOf c
    let v :=
      if blackFlag c 3 && mk x y then
        let at_ (dx dy : Int) : Option Int :=
          let xx := reflect ((x : Int) + dx) c.width
          let yy := reflect ((y : Int) + dy) c.height
          if mk xx yy then none else some (val xx yy)
        replacement (at_ (-st) 0) (at_ st 0) (at_ 0 (-st)) (at_ 0 st) (done.getD (st - 1) 0)
      else val x y
    staticRow c val mk y n (x + 1) (v :: done)

/-- A row after static and dynamic correction for one sample; returns the values and the samples replaced dynamically
(05 R185-R187). -/
def correctedRow (c : FrontCtx) (plan : List (Int × Int × Bool)) (rows : List RowRec) (y k : Nat) : List Int × Nat :=
  let val := fun x yy => normalised c plan rows x yy k
  let mk := fun x yy => marked c rows x yy
  let srow := fun yy => staticRow c val mk yy c.width 0 []
  let st := stepOf c
  let here := srow y
  if !blackFlag c 4 then (here, 0)
  else
    let up := srow (reflect ((y : Int) - st) c.height)
    let down := srow (reflect ((y : Int) + st) c.height)
    (List.range c.width).foldl (fun (acc : List Int × Nat) x =>
      let v := here.getD x 0
      if blackFlag c 3 && mk x y then (acc.1 ++ [v], acc.2)
      else
        let xl := reflect ((x : Int) - st) c.width
        let xr := reflect ((x : Int) + st) c.width
        let nb := [up.getD xl 0, up.getD x 0, up.getD xr 0, here.getD xl 0, here.getD xr 0, down.getD xl 0,
          down.getD x 0, down.getD xr 0]
        let hi := nb.foldl max (nb.headD 0)
        let lo := nb.foldl min (nb.headD 0)
        let m : Int := fieldAt c.black 0xC 4 + (fieldAt c.black 7 1 : Int) * max hi 0 / 256
        if hi + m < v ∨ v < lo - m then
          let yu := reflect ((y : Int) - st) c.height
          let yd := reflect ((y : Int) + st) c.height
          let use (xx yy : Nat) (w : Int) : Option Int := if blackFlag c 3 && mk xx yy then none else some w
          let w := replacement (use xl y (here.getD xl 0)) (use xr y (here.getD xr 0)) (use x yu (up.getD x 0))
            (use x yd (down.getD x 0)) (if x < st then 0 else here.getD (x - st) 0)
          (acc.1 ++ [w], acc.2 + b2n (ownColumn c x))
        else (acc.1 ++ [v], acc.2)) ([], 0)

/-- The merge of a pixel's samples under its gain code (05 R188). -/
def mergePixel (c : FrontCtx) (g : Nat) (vh vl : Int) : Int :=
  if !c.dual then vh
  else
    let lo : Int := fieldAt c.merge (0x18 + 0x10 * g) 4
    let hi : Int := fieldAt c.merge (0x1C + 0x10 * g) 4
    let w : Int := if vh ≤ lo then 0 else if hi ≤ vh then 65536 else (vh - lo) * 65536 / (hi - lo)
    rnd (vh * (65536 - w) + vl * w) 65536

/-- SHADE_MODE. -/
def shadeMode (c : FrontCtx) : Nat := fieldAt c.merge 2 1

/-- A blend weight from two tags (05 R199). -/
def blendWeight (v t0 t1 : Nat) : Nat :=
  if t0 = t1 then 0
  else
    let d : Int := (t1 : Int) - t0
    let a : Int := ((v : Int) - t0) * 65536
    let q : Int := if d < 0 then rnd (-a) d.natAbs else rnd a d.natAbs
    (clampI 0 65536 q).toNat

/-- The weights wf, wz, wi for a lens position (05 R199). -/
def blendWeights (grids : List (Option Grid)) (lens : List Nat) : List Nat :=
  let tag (i j : Nat) : Nat := match grids.getD i none with
    | some g => g.tags.getD j 0
    | none => match grids.getD 0 none with
      | some g => g.tags.getD j 0
      | none => 0
  [blendWeight (lens.getD 0 0) (tag 0 0) (tag 1 0), blendWeight (lens.getD 1 0) (tag 0 1) (tag 2 1),
   blendWeight (lens.getD 2 0) (tag 0 2) (tag 4 2)]

/-- Gain of a node for a CFA position in the blended grid (05 R199). -/
def nodeGain (c : FrontCtx) (i j pos : Nat) : Int :=
  let node (n : Nat) : Int := match c.grids.getD n none with
    | some g => fieldAt g.bytes (8 * (j * g.cols + i) + 2 * pos) 2
    | none => 0
  if shadeMode c = 1 then node 0
  else
    let w (n : Nat) (b : Nat) : Int := if bit n b then c.weights.getD b 0 else 65536 - c.weights.getD b 0
    let total : Int := (List.range 8).foldl (fun t n => t + w n 0 * w n 1 * w n 2 * node n) 0
    min (rnd total (2 ^ 48)) 0xFFFF

/-- The interpolated shading gain at active coordinates (05 R201). DESIGN CHOICE: with no grid 0 loaded the gain is 4,096; another
grid that is not loaded has gain 0 and the tags of grid 0 (log 50). -/
def shadingGain (c : FrontCtx) (x y wa ha pos : Nat) : Int :=
  match c.grids.getD 0 none with
  | none => 4096
  | some g0 =>
    let p := x * (g0.cols - 1) * 65536 / (wa - 1)
    let q := y * (g0.rows - 1) * 65536 / (ha - 1)
    let i := p / 65536
    let t : Int := p % 65536
    let j := q / 65536
    let u : Int := q % 65536
    let i1 := min (i + 1) (g0.cols - 1)
    let j1 := min (j + 1) (g0.rows - 1)
    let s : Int := 65536
    rnd (nodeGain c i j pos * (s - t) * (s - u) + nodeGain c i1 j pos * t * (s - u) +
      nodeGain c i j1 pos * (s - t) * u + nodeGain c i1 j1 pos * t * u) (2 ^ 32)

/-- What the front makes of a row of the active area: L24 values, pixels replaced statically, samples replaced dynamically,
pixels clamped (05 R187, R202). -/
structure FrontRow where
  px : List Nat := []
  statics : Nat := 0
  dynamics : Nat := 0
  clipped : Nat := 0
deriving DecidableEq, Repr

/-- Pixels replaced statically and samples replaced dynamically in a row (05 R187). -/
def replacedIn (c : FrontCtx) (rows : List RowRec) (y : Nat) : Nat × Nat :=
  let plan := normPlan c rows
  (if blackFlag c 3 then ((List.range c.width).filter fun x => ownColumn c x && marked c rows x y).length else 0,
   (correctedRow c plan rows y 0).2 + if c.dual then (correctedRow c plan rows y 1).2 else 0)

/-- The front's output for delivered row `y`, an active row (05 R166, R202). -/
def frontRow (c : FrontCtx) (rows : List RowRec) (y : Nat) : FrontRow :=
  let plan := normPlan c rows
  let h := correctedRow c plan rows y 0
  let l := if c.dual then correctedRow c plan rows y 1 else ([], 0)
  let wa := c.width - obLeft c - obRight c
  let ha := c.full - obTop c
  let r := rows.getD y { px := [], gain := 0 }
  let st := if blackFlag c 3 then ((List.range c.width).filter fun x => ownColumn c x && marked c rows x y).length else 0
  (List.range wa).foldl (fun (acc : FrontRow) xa =>
    let x := xa + obLeft c
    let v := mergePixel c (gainAt r x) (h.1.getD x 0) (l.1.getD x 0)
    let g := if shadeMode c = 0 then 4096 else shadingGain c xa (y - obTop c) wa ha (cfaPos c.mono x y)
    let o := rnd (v * g) 4096
    { acc with px := acc.px ++ [(clampI 0 16777215 o).toNat]
               clipped := acc.clipped + if ownColumn c x ∧ (o < 0 ∨ 16777215 < o) then 1 else 0 })
    { px := [], statics := st, dynamics := h.2 + l.2, clipped := 0 }

end Sys2Proof.Machine
end

