-- ==== Sys2Proof/Machine/Reals.lean ====
section
/-! DEFINITION. The real functions that the spec names, as fixed-point numbers with 96 fractional bits: the Lanczos kernel
(07 R254), the encodings' transfer functions (07 R260, R261) and atan2 (16 R534); and the built-in output matrices (07 R246) as
exact rationals. A result is off by less than 2^-70, far below what the roundings of those rules distinguish (log 55). -/

namespace Sys2Proof.Machine

/-- 1.0 as a fixed-point number. -/
def fixOne : Int := 2 ^ 96

/-- A ratio as a fixed-point number. -/
def fixOf (num : Int) (den : Nat) : Int := num * fixOne / den

/-- Product of fixed-point numbers. -/
def fixMul (a b : Int) : Int := a * b / fixOne

/-- Quotient of fixed-point numbers. -/
def fixDiv (a b : Int) : Int := a * fixOne / b

/-- π, rounded down. -/
def fixPi : Int := 0x3243F6A8885A308D313198A2E

/-- Sum of a power series of `n` terms: each term is the one before it by `next`, numbered from `k`. -/
def fixSeries (next : Nat → Int → Int) : Nat → Nat → Int → Int
  | 0, _, _ => 0
  | n + 1, k, t => t + fixSeries next n (k + 1) (next k t)

/-- e^x for |x| ≤ 1: the Taylor series. -/
def fixExpSmall (x : Int) : Int := fixSeries (fun k t => fixMul t x / (k + 1)) 40 0 fixOne

/-- ln((1 + z) / (1 - z)) for |z| ≤ 1/3: twice the series of artanh. -/
def fixLnRatio (z : Int) : Int :=
  2 * fixSeries (fun k t => fixMul t (fixMul z z) * (2 * k + 1) / (2 * k + 3)) 40 0 z

/-- ln 2. -/
def fixLn2 : Int := fixLnRatio (fixOne / 3)

/-- ln x for x > 0: the power of two of x and the mantissa in [1, 2). -/
def fixLn (x : Int) : Int :=
  let e : Int := (Nat.log2 x.toNat : Int) - 96
  let m := if 0 ≤ e then x / 2 ^ e.toNat else x * 2 ^ (-e).toNat
  e * fixLn2 + fixLnRatio (fixDiv (m - fixOne) (m + fixOne))

/-- e^x: the nearest lower multiple of ln 2, and the rest. -/
def fixExp (x : Int) : Int :=
  let e := x / fixLn2
  let m := fixExpSmall (x - e * fixLn2)
  if 0 ≤ e then m * 2 ^ e.toNat else m / 2 ^ (-e).toNat

/-- x^y for x > 0, and 0 for x = 0. -/
def fixPow (x y : Int) : Int := if x ≤ 0 then 0 else fixExp (fixMul y (fixLn x))

/-- sin of an angle of at most π / 2. -/
def fixSin (x : Int) : Int :=
  fixSeries (fun k t => -(fixMul t (fixMul x x)) / ((2 * k + 2) * (2 * k + 3))) 30 0 x

/-- sin(π × num / den): the angle is brought to a quarter turn. -/
def fixSinPi (num : Int) (den : Nat) : Int :=
  let n := (num + den) % (2 * den) - den
  let h : Int := if 2 * n > den then (den : Int) - n else if 2 * n < -(den : Int) then -(den : Int) - n else n
  fixSin (fixMul fixPi (fixOf h den))

/-- atan t for 0 ≤ t ≤ 1: Euler's series. -/
def fixAtan (t : Int) : Int :=
  let d := fixOne + fixMul t t
  let r := fixDiv (fixMul t t) d
  fixSeries (fun k a => fixMul a r * (2 * k + 2) / (2 * k + 3)) 110 0 (fixDiv t d)

/-- The 16-bit code of atan2(s, c), nearest; code 0 where both are 0 (16 R534). -/
def atan2Code (s c : Int) : Nat :=
  let a : Int := s.natAbs
  let b : Int := c.natAbs
  if a = 0 ∧ b = 0 then 0
  else
    let turn (x : Int) : Int := rnd (x * 32768) fixPi.toNat
    let q := if a ≤ b then turn (fixAtan (fixDiv a b)) else 16384 - turn (fixAtan (fixDiv b a))
    let h := if c < 0 then 32768 - q else q
    ((if s < 0 then -h else h) % 65536).toNat

/-! ## The Lanczos kernel (07 R254) -/

/-- Coefficient rnd(1,024 × s × sinc(x) × sinc(x / 3)) with x = num / den and s = sn / sd, where sinc(x) = sin(πx) / (πx)
(07 R254). -/
def lanczosCoeff (num : Int) (den sn sd : Nat) : Int :=
  if num = 0 then rnd (1024 * sn) sd
  else if (3 * den : Int) ≤ num.natAbs then 0
  else
    let px := fixMul fixPi (fixOf num den)
    let k := fixMul (fixDiv (fixSinPi num den) px) (fixDiv (3 * fixSinPi num (3 * den)) px)
    rnd (1024 * sn * k) (sd * fixOne.toNat)

/-! ## Transfer functions (07 R260, R261) -/

/-- The BT.709 OETF. -/
def oetf709 (x : Int) : Int :=
  if x < fixOf 18 1000 then 9 * x / 2
  else fixMul (fixOf 1099 1000) (fixPow x (fixOf 45 100)) - fixOf 99 1000

/-- The ST 2084 inverse EOTF of x cd/m², capped at 10,000. -/
def inversePq (x : Int) : Int :=
  let p := fixPow (min (x / 10000) fixOne) (fixOf 2610 16384)
  fixPow (fixDiv (fixOf 3424 4096 + fixMul (fixOf 2413 128) p) (fixOne + fixMul (fixOf 2392 128) p)) (fixOf 2523 32)

/-- The BT.2100 HLG OETF, its argument capped at 1.0. -/
def oetfHlg (x : Int) : Int :=
  let e := min x fixOne
  let a := fixOf 17883277 100000000
  if 12 * e ≤ fixOne then fixPow (3 * e) (fixOne / 2)
  else fixMul a (fixLn (12 * e - (fixOne - 4 * a))) + (fixOne / 2 - fixMul a (fixLn (4 * a)))

/-- The ACEScct encoding. -/
def acesCct (x : Int) : Int :=
  if x ≤ fixOf 78125 10000000 then fixMul (fixOf 105402377416545 10000000000000) x + fixOf 729055341958355 10000000000000000
  else fixDiv (fixDiv (fixLn x) fixLn2 + fixOf 972 100) (fixOf 1752 100)

/-- 65,536 × F(x_n / 65,536 × ENC_SCALE), rounded, of a built-in shaper: encoding, ENC_SCALE as U16.16 and segment start x_n
(07 R260, R261). -/
def shaperReal (enc scale xn : Nat) : Int :=
  let x := fixOf (xn * scale) (2 ^ 32)
  let f := match enc with
    | 2 => inversePq x
    | 3 => oetfHlg x
    | 4 => acesCct x
    | _ => oetf709 x
  rnd (65536 * f) fixOne.toNat

/-! ## Built-in output matrices (07 R246) -/

/-- A 3 × 3 matrix of rationals, row by row. -/
abbrev Mat3 := List Rat

/-- Element of a row and a column. -/
def matAt (m : Mat3) (i j : Nat) : Rat := m.getD (3 * i + j) 0

/-- Product of two matrices. -/
def matMul (a b : Mat3) : Mat3 :=
  (List.range 9).map fun n => ((List.range 3).map fun k => matAt a (n / 3) k * matAt b k (n % 3)).sum

/-- A matrix by a column. -/
def matVec (m : Mat3) (v : List Rat) : List Rat :=
  (List.range 3).map fun i => ((List.range 3).map fun k => matAt m i k * v.getD k 0).sum

/-- Inverse of a matrix, by cofactors. -/
def matInv (m : Mat3) : Mat3 :=
  let cof (i j : Nat) : Rat :=
    matAt m ((i + 1) % 3) ((j + 1) % 3) * matAt m ((i + 2) % 3) ((j + 2) % 3) -
      matAt m ((i + 1) % 3) ((j + 2) % 3) * matAt m ((i + 2) % 3) ((j + 1) % 3)
  let det := ((List.range 3).map fun j => matAt m 0 j * cof 0 j).sum
  (List.range 9).map fun n => cof (n % 3) (n / 3) / det

/-- A diagonal matrix. -/
def matDiag (v : List Rat) : Mat3 := (List.range 9).map fun n => if n / 3 = n % 3 then v.getD (n / 3) 0 else 0

/-- XYZ of a chromaticity, with Y = 1. -/
def xyzOf (x y : Rat) : List Rat := [x / y, 1, (1 - x - y) / y]

/-- Primaries and white point of the standards, as chromaticities: 0 BT.709, 1 BT.2020, 2 ACES AP1, 3 ACES AP0. The z of AP0's
and of every primary is 1 - x - y. -/
def primaries : Nat → List Rat × (Rat × Rat)
  | 0 => ([64 / 100, 33 / 100, 30 / 100, 60 / 100, 15 / 100, 6 / 100], (3127 / 10000, 3290 / 10000))
  | 1 => ([708 / 1000, 292 / 1000, 170 / 1000, 797 / 1000, 131 / 1000, 46 / 1000], (3127 / 10000, 3290 / 10000))
  | 2 => ([713 / 1000, 293 / 1000, 165 / 1000, 830 / 1000, 128 / 1000, 44 / 1000], (32168 / 100000, 33767 / 100000))
  | _ => ([7347 / 10000, 2653 / 10000, 0, 1, 1 / 10000, -(770 / 10000)], (32168 / 100000, 33767 / 100000))

/-- RGB of a set of primaries to XYZ, white at Y = 1. -/
def toXyz (set : Nat) : Mat3 :=
  let (p, w) := primaries set
  let m := (List.range 9).map fun n =>
    let x := p.getD (2 * (n % 3)) 0
    let y := p.getD (2 * (n % 3) + 1) 0
    if n / 3 = 0 then x else if n / 3 = 1 then y else 1 - x - y
  matMul m (matDiag (matVec (matInv m) (xyzOf w.1 w.2)))

/-- The Bradford cone matrix. -/
def bradford : Mat3 :=
  [8951 / 10000, 2664 / 10000, -(1614 / 10000), -(7502 / 10000), 17135 / 10000, 367 / 10000, 389 / 10000, -(685 / 10000),
   10296 / 10000]

/-- Bradford adaptation from one set's white point to another's (07 R246). -/
def adaptation (a b : Nat) : Mat3 :=
  let wa := (primaries a).2
  let wb := (primaries b).2
  if wa = wb then matDiag [1, 1, 1]
  else
    let ca := matVec bradford (xyzOf wa.1 wa.2)
    let cb := matVec bradford (xyzOf wb.1 wb.2)
    matMul (matInv bradford) (matMul (matDiag ((List.range 3).map fun i => cb.getD i 0 / ca.getD i 1)) bradford)

/-- Primaries of WORKING (07 R245). -/
def workingSet (w : Nat) : Nat := if w = 0 then 1 else if w = 1 then 2 else 3

/-- Primaries of an ENCODING (07 R260). -/
def encodingSet (enc : Nat) : Nat := match enc with
  | 1 => 0
  | 4 => 2
  | 5 => 3
  | _ => 1

/-- A real coefficient as S24: 524,288 is 1.0, rounded to nearest with ties away from zero (00 'Numbers and units'). -/
def toS24 (q : Rat) : Int := if q < 0 then -(rnd (-q.num * 524288) q.den) else rnd (q.num * 524288) q.den

/-- Coefficients of the built-in output matrix of a WORKING and an ENCODING before their row correction (07 R246). -/
def builtinMatrix (w enc : Nat) : List Int :=
  let a := workingSet w
  let b := encodingSet enc
  if a = b then (matDiag [1, 1, 1]).map toS24
  else (matMul (matInv (toXyz b)) (matMul (adaptation a b) (toXyz a))).map toS24

end Sys2Proof.Machine
end

