-- ==== Sys2Proof/Machine/Colour.lean ====
section
/-! DEFINITION. The colour stages on a frame's rows (07 R232-R274): white balance, temporal and spatial noise reduction,
demosaic, matrices, adaptation, statistics, and the taps' crop, scaler, encoding, formats and overlays. -/

namespace Sys2Proof.Machine

/-- A pixel of three channels. -/
structure Rgb where
  r : Int
  g : Int
  b : Int
deriving DecidableEq, Repr

/-- The largest L24 code (00 R9). -/
def l24Max : Int := 16777215

/-- A value clamped to L24. -/
def toL24 (v : Int) : Int := clampI 0 l24Max v

/-- The channel of a pixel, 0 R, 1 G, 2 B. -/
def Rgb.ch (p : Rgb) : Nat → Int
  | 0 => p.r
  | 1 => p.g
  | _ => p.b

/-- The value of a row image at reflected coordinates (05 R185). -/
def at2 (img : List (List Int)) (w h : Nat) (x y : Int) : Int := (img.getD (reflect y h) []).getD (reflect x w) 0

/-- White balance of a mosaic value (07 R237); GAIN[0] alone in monochrome (07 R236). -/
def whiteBalance (wb : List Byte) (pos : Nat) (x : Int) : Int := min l24Max (rnd (x * fieldAt wb (4 * pos) 4) 65536)

/-- Index of the noise table: the octave of a value (07 'Noise reduction'). -/
def octave (x : Int) : Nat := if x < 512 then 0 else Nat.log2 x.toNat - 8

/-- Index k of a difference at a centre value (07 R239). -/
def noiseIndex (nr : List Byte) (x d : Int) : Nat :=
  let s := fieldAt nr (0x20 + 4 * octave x) 4
  if s = 0 then 15 else min 15 (4 * d.natAbs / s)

/-- Temporal noise reduction of a mosaic value against its reference (07 R240). -/
def tnrPixel (nr : List Byte) (x r : Int) : Int :=
  x + rnd ((r - x) * fieldAt nr (0x70 + noiseIndex nr x (x - r)) 1) 256

/-- Colour of a CFA position, 0 R, 1 G, 2 B (05 R174, 02 'PIPE.CONFIGURE'). -/
def cfaColour (cfa pos : Nat) : Nat :=
  match cfa, pos with
  | 0, 0 => 0 | 0, 3 => 2 | 0, _ => 1
  | 1, 1 => 0 | 1, 2 => 2 | 1, _ => 1
  | 2, 2 => 0 | 2, 1 => 2 | 2, _ => 1
  | _, 3 => 0 | _, 0 => 2 | _, _ => 1

/-- The green value formed at a red or blue site (07 R238, steps 1 and 2). -/
def greenAt (img : List (List Int)) (w h : Nat) (edge : Int) (x y : Int) : Int :=
  let p := fun dx dy => at2 img w h (x + dx) (y + dy)
  let c := p 0 0
  let gh := rnd (2 * (p (-1) 0 + p 1 0) + 2 * c - p (-2) 0 - p 2 0) 4
  let dh : Int := (p (-1) 0 - p 1 0).natAbs + (2 * c - p (-2) 0 - p 2 0).natAbs
  let gv := rnd (2 * (p 0 (-1) + p 0 1) + 2 * c - p 0 (-2) - p 0 2) 4
  let dv : Int := (p 0 (-1) - p 0 1).natAbs + (2 * c - p 0 (-2) - p 0 2).natAbs
  toL24 (if dh + edge < dv then gh else if dv + edge < dh then gv else rnd (gh + gv) 2)

/-- Demosaic of one pixel (07 R238); monochrome gives three equal channels (07 R236). -/
def demosaicPixel (img : List (List Int)) (w h cfa : Nat) (edge : Int) (x y : Nat) : Rgb :=
  let xi : Int := x
  let yi : Int := y
  let p := fun (dx dy : Int) => at2 img w h (xi + dx) (yi + dy)
  if cfa = 4 then ⟨p 0 0, p 0 0, p 0 0⟩
  else
    let colour := fun (xx yy : Nat) => cfaColour cfa (2 * (yy % 2) + xx % 2)
    let g := fun (dx dy : Int) =>
      greenAt img w h edge (reflect (xi + dx) w : Int) (reflect (yi + dy) h : Int)
    let here := colour x y
    if here = 1 then
      let gg := p 0 0
      let hc := colour (x + 1) y
      let horiz := toL24 (gg + rnd ((p (-1) 0 - g (-1) 0) + (p 1 0 - g 1 0)) 2)
      let vert := toL24 (gg + rnd ((p 0 (-1) - g 0 (-1)) + (p 0 1 - g 0 1)) 2)
      if hc = 0 then ⟨horiz, gg, vert⟩ else ⟨vert, gg, horiz⟩
    else
      let gg := g 0 0
      let other := toL24 (gg + rnd ((p (-1) (-1) - g (-1) (-1)) + (p 1 (-1) - g 1 (-1)) + (p (-1) 1 - g (-1) 1) +
        (p 1 1 - g 1 1)) 4)
      if here = 0 then ⟨p 0 0, gg, other⟩ else ⟨other, gg, p 0 0⟩

/-- Demosaic of a mosaic (07 R238). -/
def demosaic (img : List (List Int)) (cfa : Nat) (edge : Int) : List (List Rgb) :=
  let h := img.length
  let w := (img.headD []).length
  (List.range h).map fun y => (List.range w).map fun x => demosaicPixel img w h cfa edge x y

/-- The pixel at reflected coordinates. -/
def rgbAt (img : List (List Rgb)) (w h : Nat) (x y : Int) : Rgb := (img.getD (reflect y h) []).getD (reflect x w) ⟨0, 0, 0⟩

/-- Spatial noise reduction of one channel of a pixel (07 R239). -/
def snrChannel (nr : List Byte) (win : List Int) (x : Int) : Int :=
  let sums := win.foldl (fun (a : Int × Int) p =>
    let wt : Int := fieldAt nr (0x60 + noiseIndex nr x (p - x)) 1
    (a.1 + wt * p, a.2 + wt)) (256 * x, 256)
  let y := rnd sums.1 sums.2.toNat
  x + rnd ((y - x) * fieldAt nr 2 2) 256

/-- Spatial noise reduction of an image (07 R239). -/
def snrImage (nr : List Byte) (img : List (List Rgb)) : List (List Rgb) :=
  if !bit (fieldAt nr 0 1) 0 then img
  else
    let h := img.length
    let w := (img.headD []).length
    let offs : List (Int × Int) := ([-2, -1, 0, 1, 2] : List Int).flatMap fun dy =>
      (([-2, -1, 0, 1, 2] : List Int).map fun dx => (dx, dy)).filter fun o => !(o.1 == 0 && o.2 == 0)
    (List.range h).map fun y => (List.range w).map fun x =>
      let win := offs.map fun o => rgbAt img w h ((x : Int) + o.1) ((y : Int) + o.2)
      let c := rgbAt img w h x y
      ⟨snrChannel nr (win.map (·.r)) c.r, snrChannel nr (win.map (·.g)) c.g, snrChannel nr (win.map (·.b)) c.b⟩

/-- The nine S24 coefficients of a matrix laid out as M of `COL.MATRIX` (07 R246). -/
def coeffs (b : List Byte) (off : Nat) : List Int := (List.range 9).map fun i => signed 32 (fieldAt b (off + 4 * i) 4)

/-- A 3 × 3 matrix on a pixel, and the components that it clamped (07 R244, R234). -/
def applyMatrix (m : List Int) (p : Rgb) : Rgb × Nat :=
  let row (i : Nat) : Int := rnd (m.getD (3 * i) 0 * p.r + m.getD (3 * i + 1) 0 * p.g + m.getD (3 * i + 2) 0 * p.b) (2 ^ 19)
  let v := [row 0, row 1, row 2]
  (⟨toL24 (v.getD 0 0), toL24 (v.getD 1 0), toL24 (v.getD 2 0)⟩, (v.filter fun x => x != toL24 x).length)

/-- Components clamped in some columns of an image: the first and how many; a device counts its own (07 R277, 14 R485). -/
def clampedIn (cols : Nat × Nat) (out : List (List (Rgb × Nat))) : Nat :=
  (out.map fun r => (((r.drop cols.1).take cols.2).map (·.2)).sum).sum

/-- A matrix on an image, and the components that it clamped in some columns. -/
def matrixImage (m : List Int) (cols : Nat × Nat) (img : List (List Rgb)) : List (List Rgb) × Nat :=
  let out := img.map fun r => r.map (applyMatrix m)
  (out.map fun r => r.map (·.1), clampedIn cols out)

/-- Index and fraction of the adaptation tiles along one axis (07 R248). -/
def tileIndex (x tiles : Nat) : Nat × Nat :=
  if x < 32 then (0, 0)
  else
    let i := (x - 32) / 64
    if tiles ≤ i + 1 then (tiles - 1, 0) else (i, (x - 32) % 64)

/-- The interpolated adaptation matrix of a pixel (07 R247, R248). -/
def adaptMatrix (map : List Byte) (tx ty x y : Nat) : List Int :=
  let (i, t) := tileIndex x tx
  let (j, u) := tileIndex y ty
  let i1 := min (i + 1) (tx - 1)
  let j1 := min (j + 1) (ty - 1)
  (List.range 9).map fun k =>
    let m := fun a b => signed 32 (fieldAt map (36 * (b * tx + a) + 4 * k) 4)
    let t' : Int := t
    let u' : Int := u
    rnd (m i j * (64 - t') * (64 - u') + m i1 j * t' * (64 - u') + m i j1 * (64 - t') * u' + m i1 j1 * t' * u') 4096

/-- Adaptation of an image, and the components clamped in some columns; `x0` is the array column of the first column (07 R248). -/
def adaptImage (map : List Byte) (tx ty x0 : Nat) (cols : Nat × Nat) (img : List (List Rgb)) : List (List Rgb) × Nat :=
  let out := img.zipIdx.map fun r => r.1.zipIdx.map fun p => applyMatrix (adaptMatrix map tx ty (x0 + p.2) r.2) p.1
  (out.map fun r => r.map (·.1), clampedIn cols out)

/-! ## Statistics -/

/-- Histogram bin of a value (07 R274). -/
def histBin (x : Nat) : Nat :=
  if x < 512 then x / 32 else
    let e := Nat.log2 x
    16 * (e - 8) + (x - 2 ^ e) / 2 ^ (e - 4)

/-- The 256 bins of a channel in their bytes (07 R275). -/
def histBytes (img : List (List Rgb)) (ch : Nat) : List Byte :=
  let bins : Tbl Nat := img.foldl (fun a r => r.foldl (fun b p =>
    let i := histBin (p.ch ch).toNat
    Tbl.set b i (Tbl.get 0 b i + 1)) a) []
  (List.range 256).flatMap fun i => leBytes 4 (min (Tbl.get 0 bins i) 0xFFFFFFFF)

/-- A tile's record: means, FOCUS, CLIPPED (07 R274, R275), over the columns from `lo` below `hi` and the rows of the image. -/
def tileBytes (img : List (List Rgb)) (w lo hi clip tx ty : Nat) : List Byte :=
  let h := img.length
  let xs := (List.range 64).filterMap fun i => if lo ≤ 64 * tx + i ∧ 64 * tx + i < hi then some (64 * tx + i) else none
  let ys := (List.range 64).filterMap fun i => if 64 * ty + i < h then some (64 * ty + i) else none
  let pts := ys.flatMap fun y => xs.map fun x => (x, y)
  let n := pts.length
  let sum (f : Nat → Nat → Int) : Int := pts.foldl (fun a p => a + f p.1 p.2) 0
  let px := fun (x y : Int) => rgbAt img w h x y
  let mean (c : Nat) : Int := rnd (sum fun x y => (px x y).ch c) n
  let focus := rnd (sum fun x y =>
    ((4 * (px x y).g - (px ((x : Int) - 1) y).g - (px ((x : Int) + 1) y).g - (px x ((y : Int) - 1)).g -
      (px x ((y : Int) + 1)).g).natAbs : Int)) (16 * n)
  let clipped := (pts.filter fun p =>
    let q := px p.1 p.2
    decide ((clip : Int) ≤ q.r) || decide ((clip : Int) ≤ q.g) || decide ((clip : Int) ≤ q.b)).length
  leBytes 4 (mean 0).toNat ++ leBytes 4 (mean 1).toNat ++ leBytes 4 (mean 2).toNat ++
    leBytes 2 (min focus 65535).toNat ++ leBytes 2 clipped

/-- A statistics record (07 R275) of an active area of `w` columns and `h` rows; the columns from `lo` below `hi` and the rows
that the image holds are counted (06 R229, 07 R276, 14 R485). -/
def statsRecord (img : List (List Rgb)) (w h lo hi clip serial verdict epoch : Nat) : List Byte :=
  let tx := cdiv w 64
  let ty := cdiv h 64
  let own := img.map fun r => (r.take hi).drop lo
  leBytes 2 serial ++ leBytes 2 verdict ++ leBytes 2 tx ++ leBytes 2 ty ++ leBytes 4 epoch ++
    leBytes 4 (img.length * (min hi w - lo)) ++ leBytes 48 0 ++
    histBytes own 0 ++ histBytes own 1 ++ histBytes own 2 ++
    (List.range ty).flatMap fun j => (List.range tx).flatMap fun i => tileBytes img w lo (min hi w) clip i j

/-! ## Taps: crop and scale -/

/-- The box factor (07 R252). -/
def boxFactor (crop out : Nat) : Nat := if crop ≤ 4 * out then 1 else if crop ≤ 8 * out then 2 else 4

/-- Average of groups of `f` values (07 R252). -/
def boxAverage (f : Nat) (l : List Int) : List Int :=
  (List.range (l.length / f)).map fun i => rnd (((l.drop (f * i)).take f).foldl (· + ·) 0) f

/-- The cubic kernel with a = -0.5 at num / den, times 1024 × sn / sd, rounded (07 R254, log 16). -/
def cubicCoeff (num : Int) (den sn sd : Nat) : Int :=
  let a : Int := num.natAbs
  let d : Int := den
  let v : Int := if a ≤ d then 3 * a ^ 3 - 5 * a ^ 2 * d + 2 * d ^ 3
    else if a < 2 * d then -(a ^ 3) + 5 * a ^ 2 * d - 8 * a * d ^ 2 + 4 * d ^ 3 else 0
  rnd (1024 * sn * v) (2 * den ^ 3 * sd)

/-- Coefficient k of a phase before the correction of its sum (07 R254). -/
def rawCoeff (kernel taps inLen out phase k : Nat) : Int :=
  let d64 : Int := 64 * ((k : Int) - (taps / 2 - 1 : Nat)) - phase
  let (sn, sd) := if out < inLen then (out, inLen) else (1, 1)
  let num := d64 * sn
  let den := 64 * sd
  match kernel with
  | 0 => if (num.natAbs : Int) < den then rnd (1024 * sn * ((den : Int) - num.natAbs)) (sd * den) else 0
  | 1 => cubicCoeff num den sn sd
  | _ => lanczosCoeff num den sn sd

/-- The coefficients of a phase: the difference from 1,024 goes to the largest, the lowest k on ties (07 R254). -/
def phaseCoeffs (kernel taps inLen out phase : Nat) : List Int :=
  let raw := (List.range taps).map fun k => rawCoeff kernel taps inLen out phase k
  let top := raw.foldl max (raw.headD 0)
  let i := raw.findIdx (· == top)
  raw.modify i (· + (1024 - raw.foldl (· + ·) 0))

/-- Filters one line of box-averaged values to `out` values (07 R253, R254). -/
def scaleLine (kernel taps out : Nat) (l : List Int) : List Int :=
  let n := l.length
  (List.range out).map fun j =>
    let p : Int := (2 * (j : Int) + 1) * n * 2 ^ 15 / out - 2 ^ 15
    let ip := p / 65536
    let phase := (p % 65536 / 1024).toNat
    let cs := phaseCoeffs kernel taps n out phase
    let total := cs.zipIdx.foldl (fun (a : Int) c =>
      a + c.1 * l.getD (reflect (ip + (c.2 : Int) - (taps / 2 - 1 : Nat)) n) 0) 0
    toL24 (rnd total 1024)

/-- Transposes an image of `w` columns. -/
def transpose (w : Nat) (img : List (List Int)) : List (List Int) :=
  (List.range w).map fun x => img.map fun r => r.getD x 0

/-- Scales one channel: columns first, then rows (07 R252-R254, log 16). -/
def scaleChannel (kernel outW outH : Nat) (img : List (List Int)) : List (List Int) :=
  let cw := (img.headD []).length
  let rows := img.map fun r =>
    if cw = outW then r else scaleLine kernel 8 outW (boxAverage (boxFactor cw outW) r)
  let ch := img.length
  if ch = outH then rows
  else transpose outH ((transpose outW rows).map fun c => scaleLine kernel 6 outH (boxAverage (boxFactor ch outH) c))

/-! ## Taps: encoding -/

/-- Segment, start and width of a shaper (07 R255). -/
def shaperSegment (x : Nat) : Nat × Nat × Nat :=
  if x < 1024 then (x / 16, x / 16 * 16, 16)
  else
    let e := Nat.log2 x
    let m := (x - 2 ^ e) / 2 ^ (e - 6)
    (64 * (e - 9) + m, 2 ^ e + m * 2 ^ (e - 6), 2 ^ (e - 6))

/-- Start of segment n (07 R255, R261). -/
def segmentStart (n : Nat) : Nat :=
  if n < 64 then 16 * n else
    let e := n / 64 + 9
    2 ^ e + n % 64 * 2 ^ (e - 6)

/-- ENC_SCALE with its default (07 R260, R261). -/
def encScale (enc v : Nat) : Nat :=
  if v ≠ 0 then v else match enc with
    | 2 => 203 * 65536
    | 3 => 17364
    | _ => 65536

/-- A node of a built-in or loaded shaper (07 R255, R261). -/
def shaperNodeAt (table : Option (List Byte)) (enc scale ch n : Nat) : Int :=
  match table with
  | some t => fieldAt t (4 * (961 * ch + n)) 4
  | none => clampI 0 65536 (shaperReal enc (encScale enc scale) (segmentStart n))

/-- The shaper on one value (07 R255). -/
def shaperValue (node : Nat → Int) (x : Nat) : Int :=
  let (n, start, width) := shaperSegment x
  node n + rnd ((node (n + 1) - node n) * ((x : Int) - start)) width

/-- A node of a 3D LUT (07 R256). -/
def lutNode (t : List Byte) (n a b c ch : Nat) : Int := fieldAt t (12 * (a + n * b + n * n * c) + 4 * ch) 4

/-- The 3D LUT on a pixel of N17 values: tetrahedral interpolation (07 R257). -/
def lutPixel (t : List Byte) (n : Nat) (p : Rgb) : Rgb :=
  let s : Int := if n = 65 then 1024 else 2048
  let idx (v : Int) : Int := min (v / s) ((n : Int) - 2)
  let i := [idx p.r, idx p.g, idx p.b]
  let f := [p.r - s * idx p.r, p.g - s * idx p.g, p.b - s * idx p.b]
  let fv (k : Nat) : Int := f.getD k 0
  let order : List Nat :=
    if fv 1 ≤ fv 0 ∧ fv 2 ≤ fv 0 then (if fv 2 ≤ fv 1 then [0, 1, 2] else [0, 2, 1])
    else if fv 0 < fv 1 ∧ fv 2 ≤ fv 1 then (if fv 2 ≤ fv 0 then [1, 0, 2] else [1, 2, 0])
    else if fv 1 ≤ fv 0 then [2, 0, 1] else [2, 1, 0]
  let node (ax : List Nat) (ch : Nat) : Int :=
    let o (k : Nat) : Nat := (i.getD k 0).toNat + if ax.contains k then 1 else 0
    lutNode t n (o 0) (o 1) (o 2) ch
  let out (ch : Nat) : Int :=
    let c0 := node [] ch
    let c1 := node (order.take 1) ch
    let c2 := node (order.take 2) ch
    let c3 := node [0, 1, 2] ch
    rnd (s * c0 + fv (order.getD 0 0) * (c1 - c0) + fv (order.getD 1 0) * (c2 - c1) + fv (order.getD 2 0) * (c3 - c2))
      s.toNat
  ⟨out 0, out 1, out 2⟩

/-- A tone curve on one value (07 R258). -/
def toneValue (t : List Byte) (ch : Nat) (v : Int) : Int :=
  let i := min (v / 64).toNat 1023
  let node (k : Nat) : Int := fieldAt t (4 * (1025 * ch + k)) 4
  node i + rnd ((node (i + 1) - node i) * (v - 64 * i)) 64

/-- Whether an encoding uses the BT.2020 coefficients (07 R260). -/
def is2020 (enc descM : Nat) : Bool := enc == 2 || enc == 3 || enc == 6 || (enc == 0 && descM == 9)

/-- Y′CbCr of N17 values (07 R263). -/
def toYcc (c2020 : Bool) (p : Rgb) : Rgb :=
  let (kr, kg, kb, cb, cr) : Int × Int × Int × Int × Int :=
    if c2020 then (17216, 44434, 3886, 34834, 44443) else (13933, 46871, 4732, 35318, 41615)
  let y := rnd (kr * p.r + kg * p.g + kb * p.b) 65536
  ⟨y, rnd ((p.b - y) * cb) 65536, rnd ((p.r - y) * cr) 65536⟩

/-- Luma code of a depth and range (07 R264). -/
def lumaCode (bits : Nat) (full : Bool) (y : Int) : Int :=
  match bits, full with
  | 10, false => clampI 4 1019 (64 + rnd (y * 876) 65536)
  | 10, true => clampI 0 1023 (rnd (y * 1023) 65536)
  | _, false => clampI 1 254 (16 + rnd (y * 219) 65536)
  | _, true => clampI 0 255 (rnd (y * 255) 65536)

/-- Chroma code of a depth and range (07 R264). -/
def chromaCode (bits : Nat) (full : Bool) (c : Int) : Int :=
  match bits, full with
  | 10, false => clampI 4 1019 (512 + rnd (c * 896) 65536)
  | 10, true => clampI 0 1023 (512 + rnd (c * 1023) 65536)
  | _, false => clampI 1 254 (128 + rnd (c * 224) 65536)
  | _, true => clampI 0 255 (128 + rnd (c * 255) 65536)

/-- What a tap works with: its `COL.OUTPUT` block, its output matrix and its tables. -/
structure TapCtx where
  blk : List Byte
  matrix : List Int
  shaper : Option (List Byte)
  lut : Option (List Byte × Nat)
  tone : Option (List Byte)
deriving DecidableEq, Repr

/-- OUT_W of a tap. -/
def tapW (c : TapCtx) : Nat := fieldAt c.blk 0xC 2
/-- OUT_H of a tap. -/
def tapH (c : TapCtx) : Nat := fieldAt c.blk 0xE 2

/-- Bytes of a line, its pitch, the start of the chroma plane and the bytes of a slot for a format (07 R266). -/
def tapLayout (fmt w h : Nat) : Nat × Nat × Nat × Nat :=
  let line := match fmt with
    | 0 => 12 * w
    | 1 => 6 * w
    | 4 => w
    | _ => 2 * w
  let p := alignUp line 256
  let c := alignUp (p * h) 4096
  let slot := match fmt with
    | 0 => p * h
    | 1 => p * h
    | 2 => c + p * h
    | _ => c + p * (h / 2)
  (line, p, c, slot)

/-- The crop window of a tap in an active area (07 R251). -/
def cropOf (blk : List Byte) (wa ha : Nat) : Nat × Nat × Nat × Nat :=
  let x := fieldAt blk 4 2
  let y := fieldAt blk 6 2
  let w := fieldAt blk 8 2
  let h := fieldAt blk 0xA 2
  (x, y, if w = 0 then wa - x else w, if h = 0 then ha - y else h)

/-- The crop and the scaler of a tap on working RGB (07 R251-R254). -/
def tapScale (c : TapCtx) (wa ha : Nat) (img : List (List Rgb)) : List (List Rgb) :=
  let (cx, cy, cw, ch) := cropOf c.blk wa ha
  let crop := (img.drop cy |>.take ch).map fun r => (r.drop cx).take cw
  let k := fieldAt c.blk 3 1
  let plane (f : Rgb → Int) := scaleChannel k (tapW c) (tapH c) (crop.map fun r => r.map f)
  let rs := plane (·.r)
  let gs := plane (·.g)
  let bs := plane (·.b)
  (List.range (tapH c)).map fun y => (List.range (tapW c)).map fun x =>
    ⟨(rs.getD y []).getD x 0, (gs.getD y []).getD x 0, (bs.getD y []).getD x 0⟩

/-- Shaper, 3D LUT and tone curve of a pixel (07 R255-R258). -/
def tapEncode (c : TapCtx) (p : Rgb) : Rgb :=
  let enc := fieldAt c.blk 1 1
  let sc := fieldAt c.blk 0x1C 4
  let sh (ch : Nat) (v : Int) : Int := shaperValue (shaperNodeAt c.shaper enc sc ch) v.toNat
  let a : Rgb := ⟨sh 0 p.r, sh 1 p.g, sh 2 p.b⟩
  let b := match c.lut with
    | some (t, n) => lutPixel t n a
    | none => a
  match c.tone with
  | some t => ⟨toneValue t 0 b.r, toneValue t 1 b.g, toneValue t 2 b.b⟩
  | none => b

/-- Zebra and peaking of a pixel's codes; `y10` is the luma plane before the overlay in 10-bit units (07 R268, R269). -/
def overlayPixel (blk : List Byte) (y10 : List (List Int)) (w h x y : Nat) (code : Rgb) (bits : Nat) : Rgb :=
  let ov := fieldAt blk 0x16 1
  let v := at2 y10 w h x y
  let colour (off : Nat) : Rgb :=
    let k := fieldAt blk off 4
    let q (n : Nat) : Int := if bits = 8 then (n / 4 : Nat) else n
    ⟨q (k % 1024), q (k / 1024 % 1024), q (k / 2 ^ 20 % 1024)⟩
  let inZ (i : Nat) : Bool := bit ov i && decide ((fieldAt blk (0x20 + 4 * i) 2 : Int) ≤ v) &&
    decide (v ≤ (fieldAt blk (0x22 + 4 * i) 2 : Int))
  let lap := 4 * v - at2 y10 w h ((x : Int) - 1) y - at2 y10 w h ((x : Int) + 1) y - at2 y10 w h x ((y : Int) - 1) -
    at2 y10 w h x ((y : Int) + 1)
  if bit ov 2 && decide (fieldAt blk 0x28 4 < lap.natAbs) then colour 0x30
  else if inZ 0 && decide ((x + y) % 16 < 8) then colour 0x2C
  else if inZ 1 && decide (8 ≤ (x + y) % 16) then colour 0x2C
  else code

/-- A line's bytes padded to the pitch. -/
def padTo (n : Nat) (l : List Byte) : List Byte := l ++ List.replicate (n - l.length) 0

/-- The bytes of a tap's slot for a frame of working RGB, and the components that its output matrix clamped
(07 R249-R269) in some columns of its first `count` rows. -/
def tapFrame (c : TapCtx) (wa ha count : Nat) (cols : Nat × Nat) (img : List (List Rgb)) : List Byte × Nat :=
  let fmt := fieldAt c.blk 2 1
  let w := tapW c
  let h := tapH c
  let (_, pitch, cstart, _) := tapLayout fmt w h
  let scaled := tapScale c wa ha img
  let (mat, all) := matrixImage c.matrix cols scaled
  let clipped := if h ≤ count then all else (matrixImage c.matrix cols (scaled.take count)).2
  if fmt = 0 then
    (mat.flatMap fun r => padTo pitch (r.flatMap fun p =>
      leBytes 4 p.r.toNat ++ leBytes 4 p.g.toNat ++ leBytes 4 p.b.toNat), clipped)
  else
    let encd := mat.map fun r => r.map (tapEncode c)
    if fmt = 1 then
      let q (v : Int) : Nat := (clampI 0 65535 (rnd (v * 65535) 65536)).toNat
      (encd.flatMap fun r => padTo pitch (r.flatMap fun p => leBytes 2 (q p.r) ++ leBytes 2 (q p.g) ++ leBytes 2 (q p.b)),
        clipped)
    else
      let bits := if fmt = 4 then 8 else 10
      let full := fieldAt c.blk 0x12 1 == 1
      let ycc := encd.map fun r => r.map (toYcc (is2020 (fieldAt c.blk 1 1) (fieldAt c.blk 0x1A 1)))
      let luma := ycc.map fun r => r.map fun p => lumaCode bits full p.r
      let y10 := luma.map fun r => r.map fun v => if bits = 8 then 4 * v else v
      let half (f : Rgb → Int) : List (List Int) := ycc.map fun r =>
        let l := r.map f
        (List.range (w / 2)).map fun i =>
          rnd (l.getD (reflect (2 * (i : Int) - 1) w) 0 + 2 * l.getD (2 * i) 0 + l.getD (reflect (2 * (i : Int) + 1) w) 0) 4
      let cbs := half (·.g)
      let crs := half (·.b)
      let rowsC := if fmt = 2 then h else h / 2
      let cAt (pl : List (List Int)) (i x : Nat) : Int :=
        if fmt = 2 then (pl.getD i []).getD x 0
        else rnd ((pl.getD (2 * i) []).getD x 0 + (pl.getD (2 * i + 1) []).getD x 0) 2
      let ov (x y : Nat) (code : Rgb) : Rgb := overlayPixel c.blk y10 w h x y code bits
      let cell (v : Int) : List Byte := if fmt = 4 then leBytes 1 v.toNat else leBytes 2 v.toNat
      let lumaBytes := (List.range h).flatMap fun y => padTo pitch ((List.range w).flatMap fun x =>
        cell (ov x y ⟨at2 luma w h x y, 0, 0⟩).r)
      let chromaBytes := (List.range rowsC).flatMap fun i => padTo pitch ((List.range (w / 2)).flatMap fun x =>
        let yy := if fmt = 2 then i else 2 * i
        let p := ov (2 * x) yy ⟨0, chromaCode bits full (cAt cbs i x), chromaCode bits full (cAt crs i x)⟩
        cell p.g ++ cell p.b)
      (padTo cstart lumaBytes ++ chromaBytes, clipped)

end Sys2Proof.Machine
end

