-- ==== Sys2Proof/Machine/StreamConfig.lean ====
section
/-! DEFINITION. The staged commands of Bridle, CSI-2 ports, pipes and colour stages (04, 05, 07): the relations among their
fields and with the rest of the resulting configuration. -/

namespace Sys2Proof.Machine

/-! ## Bridle (04 R133-R138, R161, R206, R484) -/

/-- The channels of a mask, ascending. -/
def maskBits (m : Nat) : List Nat := (List.range 8).filter (bit m)

/-- Streams of a configuration with a SOURCE, with their blocks. -/
def sourced (t : Tbl CfgVal) (src : Nat) : List (Nat × PipeCfg) :=
  (List.range 17).filterMap fun i => match pipeIn t i with
    | some p => if p.source = src then some (i, p) else none
    | none => none

/-- The channels that streams name, one list a stream. -/
def bridleMasks (t : Tbl CfgVal) : List (List Nat) := (sourced t 0 ++ sourced t 1).map fun e => maskBits e.2.index

/-- GROUP_MODE of a configuration. -/
def groupMode (t : Tbl CfgVal) : Nat := fieldAt ((blkIn t 0x1001 0 0).getD []) 3 1

/-- Width of a channel's lines: WIDTH, or WIDTH/n in COLUMN mode (04 R133). -/
def chanWidth (t : Tbl CfgVal) (p : PipeCfg) : Nat :=
  if p.source = 0 ∧ groupMode t = 1 then p.width / max 1 (maskBits p.index).length else p.width

/-- Rows of a channel: HEIGHT, or HEIGHT/n in ROW mode (04 R133, R142). -/
def chanHeight (t : Tbl CfgVal) (p : PipeCfg) : Nat :=
  if p.source = 0 ∧ groupMode t = 2 then p.height / max 1 (maskBits p.index).length else p.height

/-- The stream that names a channel (04 R132). -/
def vcStream (t : Tbl CfgVal) (vc : Nat) : Option (Nat × PipeCfg) :=
  (sourced t 0 ++ sourced t 1).find? fun e => bit e.2.index vc

/-- LINE_TIME_NS of a channel. -/
def lineTime (b : List Byte) (vc : Nat) : Nat := fieldAt b (0x10 + 2 * vc) 2

/-- Demand of the enabled channels in bits per nanosecond (04 R137). DESIGN CHOICE (log 58): a channel that no stream names has no
width and demands nothing. -/
def demand (t : Tbl CfgVal) (b : List Byte) : Rat :=
  ((maskBits (fieldAt b 2 1)).map fun v => match vcStream t v with
    | some (_, p) => ((64 * (cdiv (chanWidth t p * p.bits * p.planes) 64 + 3) : Nat) : Rat) / lineTime b v
    | none => 0).sum

/-- Payload of a lane in Gb/s (04 R116). -/
def lanePayload (b : List Byte) : Nat := [16, 12, 8, 4].getD (fieldAt b 1 1) 0

/-- N, the lanes that carry data (04 R117). -/
def dataLanes (t : Tbl CfgVal) : Nat :=
  4 * (maskBits (fieldAt ((blkIn t 0x1001 0 0).getD []) 0 1)).length -
    (if fieldAt ((blkIn t 0x1002 0 0).getD []) 0 1 = 1 then 1 else 0)

/-- Whether the enabled channels exceed the link's capacity (04 R137). -/
def overLink (t : Tbl CfgVal) : Bool :=
  match blkIn t 0x1001 0 0 with
  | some b => decide ((dataLanes t * lanePayload b * 31 : Nat) / 32 < demand t b)
  | none => false

/-- Whether the Pipe A group exceeds the burst rate of Pipe A (04 R138). -/
def overBurst (t : Tbl CfgVal) : Bool :=
  match blkIn t 0x1001 0 0 with
  | some b => (sourced t 0).any fun e => (maskBits e.2.index).any fun v =>
      decide (20 * lineTime b v < e.2.width * (if groupMode t = 2 then (maskBits e.2.index).length else 1))
  | none => false

/-- Whether the Pipe A group suits GROUP_MODE and its members have equal line times (04 R133, R135). -/
def groupOk (t : Tbl CfgVal) : Bool :=
  (sourced t 0).all fun e =>
    let m := maskBits e.2.index
    let n := m.length
    [1, 2, 4].contains n &&
    (match blkIn t 0x1001 0 0 with
      | some b => m.all (fun v => lineTime b v == lineTime b (m.headD 0)) &&
          (match groupMode t with
            | 0 => n == 1
            | 1 => e.2.width % (16 * n) == 0
            | _ => e.2.height % n == 0)
      | none => true)

/-- Whether a stream with SOURCE 1 names one channel and no channel is named twice (04 R134). -/
def channelsOk (t : Tbl CfgVal) : Bool :=
  (sourced t 1).all (fun e => (maskBits e.2.index).length == 1) && decide ((bridleMasks t).flatten.Nodup)

/-- The relations that `BRD.CONFIGURE`, `BRD.SPARE` and `PIPE.CONFIGURE` judge together. -/
def linkOk (t : Tbl CfgVal) : Bool := groupOk t && channelsOk t && !overLink t && !overBurst t

/-- The resulting configuration with the block of a command. -/
def withBlock (s : State) (c : Cmd) (key : Nat) (lay : List Fld) (bulkLen : Nat) : Tbl CfgVal :=
  Tbl.set (resulting s) key (valOf lay c bulkLen)

/-- Relations of `BRD.CONFIGURE`. -/
def brdFaults (s : State) (c : Cmd) : List Nat :=
  let b := c.region
  let t := withBlock s c (cfgKey 0x1001 0 0) layBrdConfigure 0
  ((maskBits (fieldAt b 2 1)).flatMap fun v => faultIf (lineTime b v == 0) 2) ++ faultIf (!(groupOk t && channelsOk t)) 3 ++
    faultIf (overLink t || overBurst t) 0

/-- Checks of BRD_CONFIGURE. -/
def checkBrdConfigure (t : State) (c : Cmd) : Option Reply :=
  stagedCheck layBrdConfigure 0 (cfgKey 0x1001 0 0) (brdFaults t c) none none t c

/-- Effect of BRD_CONFIGURE. -/
def effectBrdConfigure (c : Cmd) (t : State) : State := stageCmd layBrdConfigure 0 (cfgKey 0x1001 0 0) c t

/-- BRD_CONFIGURE (04 R137, R138). -/
def execBrdConfigure (r : CmdRef) (s : State) : Host.Outcome State Fault Refusal :=
  .next (runCmd r 0x1001 checkBrdConfigure effectBrdConfigure s)

/-- Relations of `BRD.SPARE`; SUBST[6:2] is at most 27 (04 'BRD.SPARE'). -/
def spareFaults (s : State) (c : Cmd) : List Nat :=
  faultIf (overLink (withBlock s c (cfgKey 0x1002 0 0) layBrdSpare 0)) 0

/-- Checks of BRD_SPARE. -/
def checkBrdSpare (t : State) (c : Cmd) : Option Reply :=
  stagedCheck layBrdSpare 0 (cfgKey 0x1002 0 0) (spareFaults t c) none none t c

/-- Effect of BRD_SPARE. -/
def effectBrdSpare (c : Cmd) (t : State) : State := stageCmd layBrdSpare 0 (cfgKey 0x1002 0 0) c t

/-- BRD_SPARE (04 R152). -/
def execBrdSpare (r : CmdRef) (s : State) : Host.Outcome State Fault Refusal :=
  .next (runCmd r 0x1002 checkBrdSpare effectBrdSpare s)

/-! ## CSI-2 (04 R161) -/

/-- Sample bits of a CSI-2 data type (04 R160). -/
def csiBits (dt : Nat) : Nat := 10 + 2 * (dt - 0x2B)

/-- Whether a port and its stream agree (04 R161). -/
def csiOk (t : Tbl CfgVal) (port : Nat) : Bool :=
  let l := (sourced t 2).filter fun e => e.2.index == port
  decide (l.length ≤ 1) &&
    match blkIn t 0x1101 port 0 with
    | some b => l.all fun e => !e.2.dual && e.2.bits == csiBits (fieldAt b 2 1) &&
        decide (e.2.width * e.2.height * e.2.bits * 1000000000 * 10 ≤ 9 * fieldAt b 0 1 * fieldAt b 4 2 * 1000000 * e.2.period)
    | none => l.all fun e => !e.2.dual

/-- Checks of CSI_CONFIGURE. -/
def checkCsiConfigure (t : State) (c : Cmd) : Option Reply :=
  let key := cfgKey 0x1101 c.target 0
  stagedCheck layCsiConfigure 0 key (faultIf (!csiOk (withBlock t c key layCsiConfigure 0) c.target) 0) none none t c

/-- Effect of CSI_CONFIGURE. -/
def effectCsiConfigure (c : Cmd) (t : State) : State :=
  stageCmd layCsiConfigure 0 (cfgKey 0x1101 c.target 0) c t

/-- CSI_CONFIGURE (04 R161). -/
def execCsiConfigure (r : CmdRef) (s : State) : Host.Outcome State Fault Refusal :=
  .next (runCmd r 0x1101 checkCsiConfigure effectCsiConfigure s)

/-- Checks of CSI_COUNTERS. -/
def checkCsiCounters (t : State) (c : Cmd) : Option Reply := plainCheck [] t c

/-- CSI_COUNTERS (02 R79): the spec gives no block and no results (log 14). -/
def execCsiCounters (r : CmdRef) (s : State) : Host.Outcome State Fault Refusal :=
  .next (runCmd r 0x1102 checkCsiCounters openResults s)

/-! ## Blocks with their defaults -/

/-- `PIPE.STATS` of a stream, or its defaults (07 R275). -/
def statsBlk (t : Tbl CfgVal) (i : Nat) : List Byte := (blkIn t 0x2005 i 0).getD (leBytes 4 0 ++ leBytes 4 0xFF0000 ++ leBytes 16 0)

/-- `COL.MATRIX` of a slot, or its defaults (07 R246). -/
def matrixBlk (t : Tbl CfgVal) (i k : Nat) : List Byte :=
  (blkIn t 0x2102 i k).getD ([BitVec.ofNat 8 k, if k = 0 then 0 else 2, 1, 0] ++ leBytes 44 0)

/-- `COL.WB` of a stream, or its defaults (07 R238). -/
def wbBlk (t : Tbl CfgVal) (i : Nat) : List Byte :=
  (blkIn t 0x2103 i 0).getD ((List.replicate 4 (leBytes 4 0x10000)).flatten ++ leBytes 4 1024 ++ leBytes 12 0)

/-- Slot of `COL.LUT_LOAD`: KIND 0 and 1 share the 3D slots; adaptation maps belong to the stream (07 R271). -/
def lutSlot (kind out slot : Nat) : Nat :=
  match kind with
  | 0 => out * 16 + slot
  | 1 => out * 16 + slot
  | 2 => out * 16 + 4 + slot
  | 3 => out * 16 + 8 + slot
  | _ => 12 + slot

/-- Whether stripes are enabled, for stream 0 (14 R483-R485). -/
def striped (t : Tbl CfgVal) (i : Nat) : Bool := i == 0 && bit (fieldAt ((blkIn t 0x8002 0 0).getD []) 1 1) 0

/-- Width of the frame that tables and coordinates refer to: ARRAY_WIDTH in a stripe stream (14 R485). -/
def frameWidth (t : Tbl CfgVal) (i : Nat) (p : PipeCfg) : Nat :=
  if striped t i then fieldAt ((blkIn t 0x8002 0 0).getD []) 4 4 else p.width

/-- The active area that tiles, crops and grids refer to: the array's in a stripe stream (05 R175, 14 R485). -/
def activeOf (t : Tbl CfgVal) (i : Nat) (p : PipeCfg) : Nat × Nat :=
  let b := blackBlk t i
  (frameWidth t i p - fieldAt b 2 2 - fieldAt b 4 2, p.height - fieldAt b 1 1)

/-- Tiles of an active area (07 R247). -/
def tilesOf (a : Nat × Nat) : Nat × Nat := (cdiv a.1 64, cdiv a.2 64)

/-! ## Relations of a stream's blocks -/

/-- Whether the active area is too narrow, and too low (05 R175). -/
def areaSmall (s : State) (t : Tbl CfgVal) (i : Nat) : Bool × Bool :=
  match pipeIn t i with
  | some p =>
    let o := obOf s t i
    (decide (p.width < 64 + o.2.1 + o.2.2), decide (p.height < 16 + o.1))
  | none => (false, false)

/-- Size that the TNR buffer lacks (07 R243). -/
def tnrShort (t : Tbl CfgVal) (i : Nat) (wa ha : Nat) : Option Reply :=
  match pipeIn t i with
  | some p =>
    let nr := nrBlk t i
    let need_ := (if i = 0 ∧ p.source = 0 then 4 else 2) * alignUp (wa * ha * 3) 4096
    need (!bit (fieldAt nr 0 1) 1 || decide (need_ ≤ fieldAt nr 0x10 4)) (badSize need_)
  | none => none

/-- The TNR buffer of a stream against its own active area. -/
def tnrCheck (s : State) (t : Tbl CfgVal) (i : Nat) : Option Reply :=
  match pipeIn t i with
  | some p =>
    let a := activeArea s t i p
    tnrShort t i a.1 a.2
  | none => none

/-- Whether ADAPT is set with a map that does not fit the active area, or with none (07 R247, R273). -/
def adaptBad (t : Tbl CfgVal) (i : Nat) : Bool :=
  let m := matrixBlk t i 0
  bit (fieldAt m 1 1) 0 &&
    match pipeIn t i, tableIn t 0x2101 i (lutSlot 4 0 (fieldAt m 3 1)) with
    | some p, some v =>
      let (tx, ty) := tilesOf (activeOf t i p)
      v.bulk.length != 36 * tx * ty
    | none, some _ => false
    | _, none => true

/-- Whether one direction of the scaler is legal (07 R251, R252). -/
def scaleOk (crop out : Nat) : Bool :=
  decide (crop ≤ 16 * out) && decide (out ≤ 2 * crop) && decide (crop ≤ 4 * (boxFactor crop out * out)) &&
    crop % boxFactor crop out == 0

/-- Whether the crop window lies in the active area with legal scales (07 R251): horizontally and vertically. -/
def cropOk (b : List Byte) (a : Nat × Nat) : Bool × Bool :=
  let (x, y, w, h) := cropOf b a.1 a.2
  (decide (x + w ≤ a.1) && decide (0 < w) && scaleOk w (fieldAt b 0xC 2),
   decide (y + h ≤ a.2) && decide (0 < h) && scaleOk h (fieldAt b 0xE 2))

/-- Whether a tap of a stream has a crop window or a scale that the active area does not allow (07 R251). -/
def cropBad (t : Tbl CfgVal) (i : Nat) : Bool :=
  match pipeIn t i with
  | some p => (List.range 4).any fun k => match blkIn t 0x2104 i k with
    | some b => !((cropOk b (activeOf t i p)).1 && (cropOk b (activeOf t i p)).2)
    | none => false
  | none => false

/-- Whether the working space and the encodings suit the built-in matrices (07 R246). -/
def builtinBad (t : Tbl CfgVal) (i k : Nat) : Bool :=
  bit (fieldAt (matrixBlk t i (k + 1)) 1 1) 1 &&
    (fieldAt (matrixBlk t i 0) 2 1 == 3 || match tapIn t i k with
      | some x => x.encoding == 0
      | none => false)

/-- The gain codes that a stream can use: the lines of a CSI-2 port carry none, and are code 0 (04 R160; 05 R181, log 33). -/
def gainCodes (p : PipeCfg) : List Nat := if p.source = 2 then [0] else [0, 1]

/-- COL_TABLE without a column table of the frame's width for a gain code that the stream can use (05 R181). -/
def columnsBad (t : Tbl CfgVal) (i : Nat) : Bool :=
  bit (fieldAt (blackBlk t i) 0 1) 0 &&
    match pipeIn t i with
    | some p => (gainCodes p).any fun g => match tableIn t 0x2002 i (gridSlot 2 g) with
        | some v => fieldAt v.blk 2 2 != frameWidth t i p
        | none => true
    | none => true

/-! ## PIPE.CONFIGURE (02 'Central commands', R75; 04 R134-R138, R161; 06 R206; 14 R484) -/

/-- The fields of `PIPE.CONFIGURE`; a stripe stream's HEIGHT goes up to 17,280 (14 R484). -/
def pipeLayout (stripes : Bool) : List Fld :=
  if stripes then layPipeConfigure.map fun f => if f.off = 6 then { f with chk := .mul 16 17280 2 } else f else layPipeConfigure

/-- Whether a stripe configuration is committed or staged, for stream 0. -/
def stripesNamed (s : State) (i : Nat) : Bool := i == 0 && named s (cfgKey 0x8002 0 0)

/-- Speculation depth D of a profile (06 R205). -/
def depth (profile : Nat) : Nat := [2, 2, 1, 0].getD profile 0

/-- Relations of `PIPE.CONFIGURE`. -/
def pipeFaults (s : State) (c : Cmd) : List Nat :=
  let i := c.target
  let key := cfgKey 0x2001 i 0
  let t := withBlock s c key layPipeConfigure 0
  let p := PipeCfg.of c.region
  let n := (maskBits p.index).length
  let small := areaSmall s t i
  faultIf (fieldAt c.region 0 2 != i) 0 ++
  faultIf (p.source == 0 && i != 0) 0 ++ faultIf (p.source == 0 && depth s.sys.profile == 0) 2 ++
  faultIf ((p.source == 2 && decide (3 < p.index)) || (p.source == 3 && decide (1 < p.index))) 2 ++
  faultIf (decide (p.source ≤ 1) && !linkOk t) 2 ++ faultIf (p.source == 2 && !csiOk t p.index) 2 ++
  faultIf (i != 0 && (p.weight == 0 || decide (8 < p.weight))) 0 ++
  faultIf (p.source == 0 && p.ringBase % 4096 != 0) 0x10 ++
  faultIf (stripesNamed s i && decide (8640 < p.height) && !(groupMode t == 2 && decide (p.height ≤ 8640 * n))) 2 ++
  faultIf small.1 4 ++ faultIf small.2 6 ++
  faultIf (adaptBad t i) 4 ++ faultIf (cropBad t i) 4 ++ faultIf ((List.range 4).any (tapTooFast s.sys.profile t i)) 0xC ++
  faultIf (columnsBad t i) 4

/-- Sizes that `PIPE.CONFIGURE` leaves too small (02 R75, 07 R243, 08 R295). -/
def pipeSizes (s : State) (c : Cmd) : Option Reply :=
  let p := PipeCfg.of c.region
  firstFail [need (p.source == 0 || (decide (p.frameBytes ≤ p.slotBytes) && decide (2 ≤ p.ringSlots)))
      (badSize p.frameBytes),
    tnrCheck s (withBlock s c (cfgKey 0x2001 c.target 0) layPipeConfigure 0) c.target,
    ringShort (withBlock s c (cfgKey 0x2001 c.target 0) layPipeConfigure 0) s.sys.profile]

/-- Checks of PIPE_CONFIGURE. -/
def checkPipeConfigure (t : State) (c : Cmd) : Option Reply :=
  stagedCheck (pipeLayout (stripesNamed t c.target)) 0 (cfgKey 0x2001 c.target 0) (pipeFaults t c) (pipeSizes t c) none t c

/-- Effect of PIPE_CONFIGURE. -/
def effectPipeConfigure (c : Cmd) (t : State) : State :=
  stageCmd layPipeConfigure 0 (cfgKey 0x2001 c.target 0) c t

/-- PIPE_CONFIGURE (02 R75). -/
def execPipeConfigure (r : CmdRef) (s : State) : Host.Outcome State Fault Refusal :=
  .next (runCmd r 0x2001 checkPipeConfigure effectPipeConfigure s)

/-! ## PIPE.GRID_LOAD (05 R183, R184, R195, R196) -/

/-- Whether the entries of a defect map are ascending, do not overlap and lie in the frame (05 R183, R184); `from_` is the
last pixel marked so far. -/
def mapOk (mono : Bool) (w h : Nat) (m : List Byte) : Nat → Nat → Option (Nat × Nat × Nat × Nat) → Bool
  | 0, _, _ => true
  | n + 1, o, prev =>
    let x := fieldAt m o 2
    let y := fieldAt m (o + 2) 2
    let rest := fieldAt m (o + 4) 4
    let run := rest % 16
    let last := x + (if mono then run else 2 * run)
    let phase := if mono then 0 else x % 2
    let (ordered, e0, e1) := match prev with
      | none => (true, 0, 0)
      | some (py, px, e0, e1) => if py = y then (decide (px < x), e0, e1) else (decide (py < y), 0, 0)
    let free := decide ((if phase = 0 then e0 else e1) ≤ x)
    ordered && free && decide (rest < 16) && decide (last < w) && decide (y < h) &&
      mapOk mono w h m n (o + 8) (some (y, x, if phase = 0 then last + 1 else e0, if phase = 1 then last + 1 else e1))

/-- Whether the gains of a monochrome grid's unused positions are 0 (05 R195). -/
def gridMonoOk (m : List Byte) : Bool := (List.range (m.length / 8)).all fun i => fieldAt m (8 * i + 2) 6 == 0

/-- Faults of the bulk data of `PIPE.GRID_LOAD` by KIND (05 R183, R184, R195; log 15 for the column table). DESIGN CHOICE
(log 58): for a stream without `PIPE.CONFIGURE` a map is judged as colour in 65,536 columns and rows, and grids are not
judged as monochrome. -/
def gridFaults (s : State) (c : Cmd) : List Nat :=
  let b := c.region
  let i := c.target
  let t := resulting s
  let kind := fieldAt b 0 1
  let idx := fieldAt b 1 1
  let cols := fieldAt b 2 2
  let rows := fieldAt b 4 2
  let len := fieldAt b 8 4
  let data := bulkBytes layPipeGridLoad b len
  let mono := match pipeIn t i with
    | some p => p.cfa == 4
    | none => false
  faultIf (decide (b.length < 0x20 + len)) 8 ++
  match kind with
  | 0 =>
    faultIf (decide (7 < idx)) 0 ++ faultIf (decide (cols < 2) || decide (128 < cols)) 2 ++
    faultIf (decide (rows < 2) || decide (128 < rows)) 4 ++ faultIf (len != 8 * cols * rows) 0 ++
    faultIf (mono && !gridMonoOk data) 0 ++
    faultIf (idx != 0 && fieldAt (mergeBlk t i) 2 1 == 2 &&
      (match tableIn t 0x2002 i 0 with
        | some g => fieldAt g.blk 2 2 != cols || fieldAt g.blk 4 2 != rows
        | none => false)) 1
  | 1 =>
    faultIf (decide (1 < idx)) 0 ++ faultIf (cols != 0) 0 ++ faultIf (rows != 0) 0 ++
    faultIf (len % 8 != 0 || decide (2097152 < len)) 0 ++
    faultIf (match pipeIn t i with
      | some p => !mapOk mono (frameWidth t i p) p.height data (len / 8) 0 none
      | none => !mapOk mono 65536 65536 data (len / 8) 0 none) 0
  | _ => faultIf (decide (1 < idx)) 0 ++ faultIf (len != 8 * cols) 0

/-- Checks of PIPE_GRID_LOAD. -/
def checkPipeGridLoad (t : State) (c : Cmd) : Option Reply :=
  let len := fieldAt c.region 8 4
  let key := cfgKey 0x2002 c.target (gridSlot (fieldAt c.region 0 1) (fieldAt c.region 1 1))
  stagedCheck layPipeGridLoad len key (gridFaults t c)
    (need (crc64 (bulkBytes layPipeGridLoad c.region len) == fieldAt c.region 0x10 8) dataCrc) none t c

/-- Effect of PIPE_GRID_LOAD. -/
def effectPipeGridLoad (c : Cmd) (t : State) : State :=
  stageCmd layPipeGridLoad (fieldAt c.region 8 4)
    (cfgKey 0x2002 c.target (gridSlot (fieldAt c.region 0 1) (fieldAt c.region 1 1))) c t

/-- PIPE_GRID_LOAD (05 R196). -/
def execPipeGridLoad (r : CmdRef) (s : State) : Host.Outcome State Fault Refusal :=
  .next (runCmd r 0x2002 checkPipeGridLoad effectPipeGridLoad s)

/-! ## PIPE.BLACK, PIPE.MERGE, PIPE.STATS (05 R181, R189; 07 R275; 14 R485) -/

/-- Relations of `PIPE.BLACK`. DESIGN CHOICE: for a stream without `PIPE.CONFIGURE` nothing that depends on its gain mode is
judged, and COL_TABLE is refused (05 R181, log 50). -/
def blackFaults (s : State) (c : Cmd) : List Nat :=
  let b := c.region
  let i := c.target
  let t := withBlock s c (cfgKey 0x2003 i 0) layPipeBlack 0
  let flags := fieldAt b 0 1
  let small := areaSmall s t i
  let single := match pipeIn t i with
    | some p => !p.dual
    | none => false
  faultIf (bit flags 1 && fieldAt b 1 1 == 0) 0 ++ faultIf (bit flags 2 && fieldAt b 2 2 == 0) 0 ++ faultIf (columnsBad t i) 0 ++
  faultIf (striped t i && bit flags 2) 0 ++ faultIf (striped t i && fieldAt b 2 2 % 64 != 0) 2 ++
  faultIf small.1 2 ++ faultIf small.2 1 ++ faultIf (adaptBad t i || cropBad t i) 1 ++
  ((List.range 16).flatMap fun n => faultIf (single && n % 2 == 1 && fieldAt b (0x20 + 4 * n) 4 != 0) (0x20 + 4 * n))

/-- Checks of PIPE_BLACK. -/
def checkPipeBlack (t : State) (c : Cmd) : Option Reply :=
  let key := cfgKey 0x2003 c.target 0
  stagedCheck layPipeBlack 0 key (blackFaults t c) (tnrCheck t (withBlock t c key layPipeBlack 0) c.target) none t c

/-- Effect of PIPE_BLACK. -/
def effectPipeBlack (c : Cmd) (t : State) : State :=
  stageCmd layPipeBlack 0 (cfgKey 0x2003 c.target 0) c t

/-- PIPE_BLACK (05 R181). -/
def execPipeBlack (r : CmdRef) (s : State) : Host.Outcome State Fault Refusal :=
  .next (runCmd r 0x2003 checkPipeBlack effectPipeBlack s)

/-- Relations of `PIPE.MERGE` (05 R189). DESIGN CHOICE: for a stream without `PIPE.CONFIGURE` nothing that depends on its gain
mode is judged (log 50). -/
def mergeFaults (s : State) (c : Cmd) : List Nat :=
  let b := c.region
  match pipeIn (resulting s) c.target with
  | some p => [0x10, 0x20].flatMap fun o =>
      if p.dual then faultIf (decide (fieldAt b (o + 0xC) 4 ≤ fieldAt b (o + 8) 4)) (o + 8)
      else [4, 8, 0xC].flatMap fun k => faultIf (fieldAt b (o + k) 4 != 0) (o + k)
  | none => []

/-- Checks of PIPE_MERGE. -/
def checkPipeMerge (t : State) (c : Cmd) : Option Reply :=
  stagedCheck layPipeMerge 0 (cfgKey 0x2004 c.target 0) (mergeFaults t c) none none t c

/-- Effect of PIPE_MERGE. -/
def effectPipeMerge (c : Cmd) (t : State) : State :=
  stageCmd layPipeMerge 0 (cfgKey 0x2004 c.target 0) c t

/-- PIPE_MERGE (05 R189). -/
def execPipeMerge (r : CmdRef) (s : State) : Host.Outcome State Fault Refusal :=
  .next (runCmd r 0x2004 checkPipeMerge effectPipeMerge s)

/-- Bytes of a statistics record of a stream (07 R275). -/
def statsBytes (t : Tbl CfgVal) (i : Nat) : Nat :=
  match pipeIn t i with
  | some p =>
    let (tx, ty) := tilesOf (activeOf t i p)
    3136 + 16 * tx * ty
  | none => 3136

/-- Checks of PIPE_STATS. -/
def checkPipeStats (t : State) (c : Cmd) : Option Reply :=
  let b := c.region
  let n := statsBytes (resulting t) c.target
  stagedCheck layPipeStats 0 (cfgKey 0x2005 c.target 0) (faultIf (decide (64 < fieldAt b 0x10 2)) 0x10)
    (need (decide (n ≤ fieldAt b 0x14 4) && decide (2 ≤ fieldAt b 0x10 2)) (badSize n)) none t c

/-- Effect of PIPE_STATS. -/
def effectPipeStats (c : Cmd) (t : State) : State :=
  stageCmd layPipeStats 0 (cfgKey 0x2005 c.target 0) c t

/-- PIPE_STATS (07 R275). -/
def execPipeStats (r : CmdRef) (s : State) : Host.Outcome State Fault Refusal :=
  .next (runCmd r 0x2005 checkPipeStats effectPipeStats s)

/-! ## COL.LUT_LOAD (07 R247, R256-R259, R271, R272) -/

/-- LENGTH of a table of a KIND. -/
def lutLength (t : Tbl CfgVal) (i kind : Nat) : Nat :=
  match kind with
  | 0 => 3295500
  | 1 => 431244
  | 2 => 11532
  | 3 => 12300
  | _ => match pipeIn t i with
    | some p =>
      let (tx, ty) := tilesOf (activeOf t i p)
      36 * tx * ty
    | none => 0

/-- Whether every value of a table is N17, or an S24 coefficient in an adaptation map (07 R259, R247). -/
def lutValuesOk (kind : Nat) (data : List Byte) : Bool :=
  (List.range (data.length / 4)).all fun k =>
    let v := fieldAt data (4 * k) 4
    if kind = 4 then Chk.ok .s24 4 v else decide (v ≤ 65536)

/-- Whether a configuration selects a slot of tables (07 R272). -/
def selects (t : Tbl CfgVal) (i kind out slot : Nat) : Bool :=
  let o := (blkIn t 0x2104 i out).getD []
  let picks (off : Nat) : Bool := (blkIn t 0x2104 i out).isSome && fieldAt o off 1 == slot
  match kind with
  | 2 => picks 0x14
  | 3 => picks 0x15
  | 4 => bit (fieldAt (matrixBlk t i 0) 1 1) 0 && fieldAt (matrixBlk t i 0) 3 1 == slot
  | _ => picks 0x13

/-- Whether committed state, staged state or a scheduled commit selects a slot (07 R272). -/
def lutInUse (s : State) (i kind out slot : Nat) : Bool :=
  ([s.cfg.committed, s.cfg.active, overlay [] s.cfg.staged] ++ s.cfg.sched.map fun x => overlay [] x.img).any fun t => selects t i kind out slot

/-- Relations of `COL.LUT_LOAD`. -/
def lutFaults (s : State) (c : Cmd) : List Nat :=
  let b := c.region
  let kind := fieldAt b 0 1
  let len := fieldAt b 4 4
  faultIf (kind == 4 && fieldAt b 2 1 != 0) 0 ++ faultIf (len != lutLength (resulting s) c.target kind) 0 ++
  faultIf (decide (b.length < 0x18 + len)) 4 ++ faultIf (!lutValuesOk kind (bulkBytes layColLut b len)) 0

/-- Place of a table that `COL.LUT_LOAD` names. -/
def lutKey (c : Cmd) : Nat :=
  cfgKey 0x2101 c.target (lutSlot (fieldAt c.region 0 1) (fieldAt c.region 2 1) (fieldAt c.region 1 1))

/-- Checks of COL_LUT_LOAD. -/
def checkColLutLoad (t : State) (c : Cmd) : Option Reply :=
  let b := c.region
  let len := fieldAt b 4 4
  stagedCheck layColLut len (lutKey c) (lutFaults t c)
    (need (crc64 (bulkBytes layColLut b len) == fieldAt b 0x10 8) dataCrc)
    (need (!lutInUse t c.target (fieldAt b 0 1) (fieldAt b 2 1) (fieldAt b 1 1)) busy) t c

/-- Effect of COL_LUT_LOAD. -/
def effectColLutLoad (c : Cmd) (t : State) : State :=
  stageCmd layColLut (fieldAt c.region 4 4) (lutKey c) c t

/-- COL_LUT_LOAD (07 R272, 02 R76). -/
def execColLutLoad (r : CmdRef) (s : State) : Host.Outcome State Fault Refusal :=
  .next (runCmd r 0x2101 checkColLutLoad effectColLutLoad s)

/-! ## COL.MATRIX, COL.WB, COL.NR (07 R237, R243, R246) -/

/-- Relations of `COL.MATRIX`: a slot's own block, and for the working space the blocks loaded and those of configured taps (07
R246). -/
def matrixFaults (s : State) (c : Cmd) : List Nat :=
  let b := c.region
  let i := c.target
  let slot := fieldAt b 0 1
  let flags := fieldAt b 1 1
  let t := withBlock s c (cfgKey 0x2102 i slot) layColMatrix 0
  faultIf (slot != 0 && bit flags 0) 0 ++ faultIf (slot == 0 && bit flags 1) 0 ++ faultIf (decide (3 < fieldAt b 2 1)) 2 ++
  (if bit flags 1 then [] else (List.range 9).flatMap fun k => faultIf (!Chk.ok .s24 4 (fieldAt b (4 + 4 * k) 4)) (4 + 4 * k)) ++
  faultIf (slot == 0 && adaptBad t i) 0 ++
  faultIf ((List.range 4).any fun k => (slot == k + 1 ||
    (slot == 0 && ((tapIn t i k).isSome || (blkIn t 0x2102 i (k + 1)).isSome))) && builtinBad t i k) 0

/-- Checks of COL_MATRIX. -/
def checkColMatrix (t : State) (c : Cmd) : Option Reply :=
  stagedCheck layColMatrix 0 (cfgKey 0x2102 c.target (fieldAt c.region 0 1)) (matrixFaults t c) none none t c

/-- Effect of COL_MATRIX. -/
def effectColMatrix (c : Cmd) (t : State) : State :=
  stageCmd layColMatrix 0 (cfgKey 0x2102 c.target (fieldAt c.region 0 1)) c t

/-- COL_MATRIX (07 R246). -/
def execColMatrix (r : CmdRef) (s : State) : Host.Outcome State Fault Refusal :=
  .next (runCmd r 0x2102 checkColMatrix effectColMatrix s)

/-- Checks of COL_WB. -/
def checkColWb (t : State) (c : Cmd) : Option Reply :=
  stagedCheck layColWb 0 (cfgKey 0x2103 c.target 0) [] none none t c

/-- Effect of COL_WB. -/
def effectColWb (c : Cmd) (t : State) : State :=
  stageCmd layColWb 0 (cfgKey 0x2103 c.target 0) c t

/-- COL_WB (07 R237). -/
def execColWb (r : CmdRef) (s : State) : Host.Outcome State Fault Refusal :=
  .next (runCmd r 0x2103 checkColWb effectColWb s)

/-- Checks of COL_NR. -/
def checkColNr (t : State) (c : Cmd) : Option Reply :=
  let key := cfgKey 0x2105 c.target 0
  stagedCheck layColNr 0 key [] (tnrCheck t (withBlock t c key layColNr 0) c.target) none t c

/-- Effect of COL_NR. -/
def effectColNr (c : Cmd) (t : State) : State :=
  stageCmd layColNr 0 (cfgKey 0x2105 c.target 0) c t

/-- COL_NR (07 R243). -/
def execColNr (r : CmdRef) (s : State) : Host.Outcome State Fault Refusal :=
  .next (runCmd r 0x2105 checkColNr effectColNr s)

/-! ## COL.OUTPUT (07 R250-R252, R260, R262, R267, R268, R273; 14 R490) -/

/-- Formats that an encoding allows (07 R260). -/
def formatOk (enc fmt : Nat) : Bool :=
  match enc with
  | 4 => fmt == 1
  | 5 => fmt == 0
  | _ => decide (1 ≤ fmt) && decide (fmt ≤ 4)

/-- Whether a slot field selects a slot that holds no table of a KIND (07 R273). -/
def slotEmpty (t : Tbl CfgVal) (i tap slot : Nat) (kinds : List Nat) : Bool :=
  slot != 0xFF && match tableIn t 0x2101 i (lutSlot (kinds.headD 0) tap slot) with
    | some v => !kinds.contains (fieldAt v.blk 0 1)
    | none => true

/-- First output column that each device writes (14 R490): the columns whose integer position lies in its stripe. -/
def stripeColumns (t : Tbl CfgVal) (i dev : Nat) (p : PipeCfg) (b : List Byte) : List Nat :=
  let st := (blkIn t 0x8002 0 0).getD []
  let a := activeOf t i p
  let (cx, _, cw, _) := cropOf b a.1 a.2
  let out := fieldAt b 0xC 2
  let f := boxFactor cw out
  let lo := ((List.range dev).map fun d => fieldAt st (8 + 2 * d) 2).sum
  let hi := lo + fieldAt st (8 + 2 * dev) 2
  (List.range out).filter fun j =>
    let pos : Int := ((2 * (j : Int) + 1) * (cw / f : Nat) * 2 ^ 15 / out - 2 ^ 15) / 65536
    let col : Int := (max pos 0) * f + cx + fieldAt (blackBlk t i) 2 2
    decide ((lo : Int) ≤ col) && decide (col < hi)

/-- Relations of `COL.OUTPUT`. -/
def outputFaults (s : State) (c : Cmd) : List Nat :=
  let b := c.region
  let i := c.target
  let tap := fieldAt b 0 1
  let t := withBlock s c (cfgKey 0x2104 i tap) layColOutput 0
  let enc := fieldAt b 1 1
  let fmt := fieldAt b 2 1
  let crop := match pipeIn t i with
    | some p => cropOk b (activeOf t i p)
    | none => (true, true)
  faultIf (!formatOk enc fmt) 1 ++ faultIf (!crop.1) 4 ++ faultIf (!crop.2) 6 ++
  faultIf (decide (fieldAt b 0x10 1 ≤ fieldAt b 0x11 1)) 0x10 ++ faultIf (tapTooFast s.sys.profile t i tap) 0xC ++
  faultIf (decide (3 ≤ fmt) && fieldAt b 0xE 2 % 4 != 0) 2 ++ faultIf (fieldAt b 0x16 1 != 0 && decide (fmt < 2)) 2 ++
  faultIf (decide (64 < fieldAt b 0x40 2)) 0x40 ++
  faultIf (slotEmpty t i tap (fieldAt b 0x13 1) [0, 1]) 0 ++ faultIf (slotEmpty t i tap (fieldAt b 0x14 1) [2]) 0 ++
  faultIf (slotEmpty t i tap (fieldAt b 0x15 1) [3]) 0 ++ faultIf (enc == 0 && fieldAt b 0x14 1 == 0xFF) 1 ++
  faultIf (builtinBad t i tap) 0 ++
  faultIf (match pipeIn t i with
    | some p => striped t i && (List.range s.sys.arraySize).any fun d => (stripeColumns t i d p b).headD 0 % 2 == 1
    | none => false) 4

/-- Checks of COL_OUTPUT. -/
def checkColOutput (t : State) (c : Cmd) : Option Reply :=
  let b := c.region
  let x := TapCfg.of b
  stagedCheck layColOutput 0 (cfgKey 0x2104 c.target (fieldAt b 0 1)) (outputFaults t c)
    (need (decide (x.bytes ≤ x.slotBytes) && decide (2 ≤ x.ringSlots)) (badSize x.bytes)) none t c

/-- Effect of COL_OUTPUT. -/
def effectColOutput (c : Cmd) (t : State) : State :=
  stageCmd layColOutput 0 (cfgKey 0x2104 c.target (fieldAt c.region 0 1)) c t

/-- COL_OUTPUT (07 R267, R269). -/
def execColOutput (r : CmdRef) (s : State) : Host.Outcome State Fault Refusal :=
  .next (runCmd r 0x2104 checkColOutput effectColOutput s)

end Sys2Proof.Machine
end

