-- ==== Sys2Proof/Machine/Develop.lean ====
section
/-! DEFINITION. Developing a frame (05, 06, 07): what the front and the colour stages make of a frame's rows under the
configuration of its epoch, the write-back taps, statistics, the TNR reference, ring slots and metadata records (04 R145,
R146). -/

namespace Sys2Proof.Machine

/-! ## Stripes (14 R483-R487) -/

/-- A stripe's first column. -/
def stripeOrigin (t : Tbl CfgVal) (dev : Nat) : Nat :=
  let st := (blkIn t 0x8002 0 0).getD []
  ((List.range dev).map fun d => fieldAt st (8 + 2 * d) 2).sum

/-- The neighbours' sides of a stripe device: 0 through T0, 1 through T1. -/
def haloSides (s : State) : List Nat :=
  (if s.sys.device = 0 then [] else [0]) ++ if s.sys.device + 1 < s.sys.arraySize then [1] else []

/-- The 32 columns that a device's own edge gives in place of a halo: reflected (14 R487, R505). -/
def reflectedHalo (side : Nat) (px : List (Nat × Nat)) : List (Nat × Nat) :=
  (List.range 32).map fun i =>
    if side = 0 then px.getD (32 - i) (0, 0) else px.getD (px.length - 2 - i) (0, 0)

/-- The halo of a row on a side: as it arrived, or reflected while the link is down. -/
def haloOf (s : State) (fr : Frame) (side y : Nat) (px : List (Nat × Nat)) : List (Nat × Nat) :=
  match (Tbl.get [] fr.halo side).find? fun h => h.arrayRow == y with
  | some h => if h.crcOk then h.pixels else reflectedHalo side px
  | none => if (s.tth.ports.getD side {}).up then [] else reflectedHalo side px

/-- A row in array coordinates: the stripe and its halos, nothing elsewhere (14 R485-R487). -/
def arrayRow (s : State) (fr : Frame) (y : Nat) (r : RowRec) : RowRec :=
  let x0 := stripeOrigin fr.cfg s.sys.device
  let left := if s.sys.device = 0 then [] else haloOf s fr 0 y r.px
  let right := if s.sys.device + 1 < s.sys.arraySize then haloOf s fr 1 y r.px else []
  { r with px := List.replicate (x0 - left.length) (0, 0) ++ left ++ r.px ++ right
           split := r.split.map (· + x0) }

/-- The rows that the front works on. -/
def frontRows (s : State) (i : Nat) (fr : Frame) : List RowRec :=
  if striped fr.cfg i then fr.rows.zipIdx.map fun e => arrayRow s fr e.2 e.1 else fr.rows

/-! ## The front and the colour stages -/

/-- Bulk data of a table, empty where none is loaded. -/
def tableBytes (t : Tbl CfgVal) (op i slot : Nat) : List Byte := ((tableIn t op i slot).map (·.bulk)).getD []

/-- The shading grids of a stream. -/
def gridsOf (t : Tbl CfgVal) (i : Nat) : List (Option Grid) :=
  (List.range 8).map fun k => (tableIn t 0x2002 i (gridSlot 0 k)).map fun v =>
    { cols := fieldAt v.blk 2 2, rows := fieldAt v.blk 4 2, tags := (List.range 3).map fun j => fieldAt v.blk (0x18 + 2 * j) 2
      bytes := v.bulk }

/-- Columns of a device's own stripe in its frames: all of them without stripes (14 R485). -/
def ownColumns (s : State) (t : Tbl CfgVal) (i : Nat) (p : PipeCfg) : Nat × Nat :=
  if striped t i then (stripeOrigin t s.sys.device, p.width) else (0, p.width)

/-- The active columns of a device: first and one past the last, in active coordinates (14 R485). -/
def ownActive (s : State) (t : Tbl CfgVal) (i : Nat) (p : PipeCfg) : Nat × Nat :=
  let o := ownColumns s t i p
  let left := fieldAt (blackBlk t i) 2 2
  (o.1 - left, min (activeOf t i p).1 (o.1 + o.2 - left))

/-- OB_TOP of a stream. -/
def obTopOf (t : Tbl CfgVal) (i : Nat) : Nat := fieldAt (blackBlk t i) 1 1

/-- What the front works with for a frame: its configuration, and the grids of an earlier blend where its own is stale
(05 R200). -/
def frontCtx (s : State) (i : Nat) (p : PipeCfg) (fr : Frame) : FrontCtx :=
  let t := fr.cfg
  { width := frameWidth t i p, height := p.height, full := p.height, dual := p.dual, mono := p.cfa == 4, black := blackBlk t i
    merge := mergeBlk t i, tables := [tableBytes t 0x2002 i (gridSlot 2 0), tableBytes t 0x2002 i (gridSlot 2 1)]
    est := fr.est, maps := [tableBytes t 0x2002 i (gridSlot 1 0), tableBytes t 0x2002 i (gridSlot 1 1)]
    grids := gridsOf (if fr.shade.isEmpty then t else fr.shade) i, weights := fr.weights, gainFs := fr.gainFs
    own := ownColumns s t i p }

/-- The active rows of a frame that the front has put out: rows from `limit` on are not there yet. -/
def frontImage (c : FrontCtx) (rows : List RowRec) (limit : Nat) : List FrontRow :=
  (List.range (c.height - obTop c)).map fun ya =>
    if ya + obTop c < limit then frontRow c rows (ya + obTop c)
    else { px := List.replicate (c.width - obLeft c - obRight c) 0 }

/-- A developed frame: the front's rows, the output of temporal noise reduction, working RGB at stage 14, and the components
that the camera matrix and the adaptation clamped; `replaced` counts what the front replaced in the optical-black rows. -/
structure Developed where
  front : List FrontRow
  replaced : Nat × Nat := (0, 0)
  tnr : List (List Int)
  img : List (List Rgb)
  matClipped : Nat
  adClipped : Nat
deriving DecidableEq, Repr

/-- Bytes of a TNR buffer slot (07 R243). -/
def tnrSlotBytes (a : Nat × Nat) : Nat := alignUp (a.1 * a.2 * 3) 4096

/-- The values of a TNR reference: three bytes a pixel of the device's own active columns, row by row (log 31). -/
def tnrRead (s : State) (base wa ha : Nat) : List (List Int) :=
  (List.range ha).map fun y => (List.range wa).map fun x => (leNat (hbmRead s (base + 3 * (y * wa + x)) 3) : Int)

/-- Temporal noise reduction of a mosaic against a reference that begins at column `lo` (07 R240, R242): a pixel for which
there is no reference value, in the halo of a stripe, passes unchanged (log 31). -/
def tnrImage (nr : List Byte) (lo : Nat) (ref : Option (List (List Int))) (img : List (List Int)) : List (List Int) :=
  match ref with
  | none => img
  | some r => img.zipIdx.map fun e => e.1.zipIdx.map fun q =>
      match (if q.2 < lo then none else (r.getD e.2 [])[q.2 - lo]?) with
      | some v => tnrPixel nr q.1 v
      | none => q.1

/-- Array column of the first active column, for adaptation (07 R248). -/
def adaptOrigin : Nat := 0

/-- The stages 8 to 14 on the front's rows (07 R232); a device counts what is clamped in its own columns. -/
def colourStages (t : Tbl CfgVal) (i : Nat) (p : PipeCfg) (own : Nat × Nat) (ref : Option (List (List Int))) (front : List FrontRow) :
    Developed :=
  let wb := wbBlk t i
  let nr := nrBlk t i
  let mono := p.cfa == 4
  let balanced := front.zipIdx.map fun e => e.1.px.zipIdx.map fun q => whiteBalance wb (cfaPos mono q.2 e.2) (q.1 : Int)
  let reduced := if bit (fieldAt nr 0 1) 1 then tnrImage nr own.1 ref balanced else balanced
  let rgb := snrImage nr (demosaic reduced p.cfa (fieldAt wb 0x10 4))
  let m := matrixBlk t i 0
  let cols := (own.1, own.2 - own.1)
  let (cam, c1) := matrixImage (coeffs m 4) cols rgb
  if bit (fieldAt m 1 1) 0 then
    let (tx, ty) := tilesOf (activeOf t i p)
    let (ad, c2) := adaptImage (tableBytes t 0x2101 i (lutSlot 4 0 (fieldAt m 3 1))) tx ty adaptOrigin cols cam
    { front := front, tnr := reduced, img := ad, matClipped := c1, adClipped := c2 }
  else { front := front, tnr := reduced, img := cam, matClipped := c1, adClipped := 0 }

/-- The reference of a frame's temporal noise reduction, where it was written (07 R241). -/
def tnrOf (s : State) (t : Tbl CfgVal) (i : Nat) (p : PipeCfg) (ref : Option (Nat × Nat)) : Option (List (List Int)) :=
  let a := activeArea s t i p
  ref.map fun e => tnrRead s e.1 a.1 a.2

/-- A frame developed from its rows up to a limit, at which the front's neighbourhoods end (`cut`) or with those of the frame. -/
def developFrame (s : State) (i : Nat) (p : PipeCfg) (fr : Frame) (limit : Nat) (cut : Bool) : Developed :=
  let c := frontCtx s i p fr
  let c1 := if cut then { c with height := limit } else c
  let rows := frontRows s i fr
  let black := (List.range (min (obTop c1) limit)).map (replacedIn c1 rows)
  { colourStages fr.cfg i p (ownActive s fr.cfg i p) (tnrOf s fr.cfg i p fr.tnr) (frontImage c1 rows limit) with
    replaced := ((black.map (·.1)).sum, (black.map (·.2)).sum) }

/-! ## Taps (06 R224, R225; 07 R249-R270) -/

/-- The output matrix of a tap: loaded, or the built-in one with its row sums made 524,288 (07 R246). -/
def outputMatrix (t : Tbl CfgVal) (i k : Nat) : List Int :=
  let m := matrixBlk t i (k + 1)
  if bit (fieldAt m 1 1) 1 then
    let w := fieldAt (matrixBlk t i 0) 2 1
    let enc := ((tapIn t i k).map (·.encoding)).getD 0
    let raw := builtinMatrix w enc
    (List.range 9).map fun n =>
      let row := n / 3
      let sum := raw.getD (3 * row) 0 + raw.getD (3 * row + 1) 0 + raw.getD (3 * row + 2) 0
      raw.getD n 0 + if n = 4 * row then 524288 - sum else 0
  else coeffs m 4

/-- What a tap of a stream works with. -/
def tapCtx (t : Tbl CfgVal) (i k : Nat) : TapCtx :=
  let b := (blkIn t 0x2104 i k).getD []
  let tab (off kind : Nat) : Option CfgVal := if fieldAt b off 1 = 0xFF then none else tableIn t 0x2101 i (lutSlot kind k (fieldAt b off 1))
  { blk := b, matrix := outputMatrix t i k, shaper := (tab 0x14 2).map (·.bulk)
    lut := (tab 0x13 0).map fun v => (v.bulk, if fieldAt v.blk 0 1 = 0 then 65 else 33)
    tone := (tab 0x15 3).map (·.bulk) }

/-- Whether a tap runs: it is written back, or a session of the coding link names it (07 'Output taps'). -/
def tapUsed (t full : Tbl CfgVal) (i k : Nat) (p : PipeCfg) : Bool :=
  (tapIn t i k).isSome &&
    (writesBack p k || (i == 0 && bit p.outputs 1 && (List.range 6).any fun c => match encIn full c with
      | some e => e.source == 0 && e.tap == k
      | none => false))

/-- The last active row that an output row of a tap takes in, box factor and six taps included (07 R252-R254). -/
def lastInput (b : List Byte) (ha j : Nat) : Nat :=
  let (_, cy, _, ch) := cropOf b 0 ha
  let out := fieldAt b 0xE 2
  if ch = out then cy + j
  else
    let f := boxFactor ch out
    let pos : Int := ((2 * (j : Int) + 1) * (ch / f : Nat) * 2 ^ 15 / out - 2 ^ 15) / 65536
    cy + min (ch - 1) (f * (pos + 3).toNat + f - 1)

/-- Following rows that the front waits for: two, or one in monochrome (05 R173). DESIGN CHOICE (log 58): twice as many
where both STATIC_DEFECT and DYN_DEFECT are set, since detection compares with neighbours that are statically corrected from
theirs (05 R186). -/
def frontDelay (t : Tbl CfgVal) (i : Nat) (p : PipeCfg) : Nat :=
  let flags := fieldAt (blackBlk t i) 0 1
  (if p.cfa = 4 then 1 else 2) * if bit flags 3 && bit flags 4 then 2 else 1

/-- The rows of a tap that are determined once some of the active rows are released: the front waits for `front` following rows,
demosaic for three further rows, spatial noise reduction for two, then the scaler's, and one output row for peaking (07 R235,
log 31). -/
def tapRowsReady (b : List Byte) (front ha active : Nat) (ended : Bool) : Nat :=
  let out := fieldAt b 0xE 2
  if ended then out
  else
    let have_ := active - (front + 5)
    let peak := bit (fieldAt b 0x16 1) 2
    ((List.range out).filter fun j =>
      decide (lastInput b ha (if peak then min (out - 1) (j + 1) else j) < have_)).length

/-- Offset and length in a slot of the columns from `c0` on of an output row; a chroma row of 4:2:0 goes with the second of
its two rows (07 R266). -/
def rowSpans (fmt w h y c0 n : Nat) : List (Nat × Nat) :=
  let (_, p, c, _) := tapLayout fmt w h
  match fmt with
  | 0 => [(y * p + 12 * c0, 12 * n)]
  | 1 => [(y * p + 6 * c0, 6 * n)]
  | 2 => [(y * p + 2 * c0, 2 * n), (c + y * p + 2 * c0, 2 * n)]
  | 3 => (y * p + 2 * c0, 2 * n) :: if y % 2 = 1 then [(c + y / 2 * p + 2 * c0, 2 * n)] else []
  | _ => (y * p + c0, n) :: if y % 2 = 1 then [(c + y / 2 * p + c0, n)] else []

/-- Writes rows of a picture into a slot. -/
def writeRows (base fmt w h c0 n a b : Nat) (bytes : List Byte) (s : State) : State :=
  ((List.range (b - a)).flatMap fun j => rowSpans fmt w h (a + j) c0 n).foldl
    (fun t e => hbmWrite (base + e.1) ((bytes.drop e.1).take e.2) t) s

/-- First output column of a device and how many it writes: all of them without stripes (14 R490). -/
def myColumns (s : State) (t : Tbl CfgVal) (i : Nat) (p : PipeCfg) (b : List Byte) : Nat × Nat :=
  if striped t i then
    let l := stripeColumns t i s.sys.device p b
    (l.headD 0, l.length)
  else (0, fieldAt b 0xC 2)

/-- How often a tap's ring has changed. -/
def tapGenOf (s : State) (i k : Nat) : Nat := (stream s i).tapGen.getD k 0

/-- Changes a slot of a tap. -/
def modTapSlot (i k slot : Nat) (g : TapSlot → TapSlot) (s : State) : State :=
  modStream i (fun x => { x with taps := x.taps.modify k fun t => Tbl.modify t slot g }) s

/-- The most recent COMMITTED slot of a tap. -/
def newestCommitted (l : Tbl TapSlot) : Option (Nat × TapSlot) :=
  (l.filter fun e => e.2.state == 1).foldl (fun m e => match m with
    | none => some e
    | some b => if later e.2.serial b.2.serial then some e else some b) none

/-- A slot of a tap that is free of all its readers: the lowest-numbered one that holds no frame worth keeping, and the most
recent COMMITTED one only where there is no other (06 R224, log 31). A slot whose patch is still to come is not free (06
R225). `gen` is the frame's ring of the tap (07 R270). -/
def freeTapSlot (s : State) (i k gen slots : Nat) : Option Nat :=
  let l := tapTable s i k
  let free (n : Nat) : Bool := match Tbl.find? l n with
    | none => true
    | some e => e.state != 0 && !e.unpatched && !tapHeld s i k n e.serial
  let keep := (newestCommitted l).map (·.1)
  let keys := (List.range slots).map fun n => slotKey gen n
  match keys.find? fun n => free n && keep != some n with
  | some n => some n
  | none => keys.find? free

/-- Whether every write-back target of a stream has a free slot (05 R170). -/
def targetsFree (s : State) (t : Tbl CfgVal) (i : Nat) (p : PipeCfg) (gens : List Nat) : Bool :=
  (List.range 4).all fun k => match tapIn t i k with
    | some x => !writesBack p k || (freeTapSlot s i k (gens.getD k 0) x.ringSlots).isSome
    | none => true

/-- Takes a slot of each write-back tap in phase for a frame; the second list holds the taps that have none free. -/
def takeTapSlots (s : State) (t : Tbl CfgVal) (i : Nat) (p : PipeCfg) (serial : Nat) (gens : List Nat) : List (Option Nat) × List Nat :=
  let want := (List.range 4).map fun k => match tapIn t i k with
    | some x => if writesBack p k && inPhase x serial then some (freeTapSlot s i k (gens.getD k 0) x.ringSlots) else none
    | none => none
  (want.map fun w => w.getD none, (List.range 4).filter fun k => want.getD k none == some none)

/-- Drops the slots of earlier rings of a tap that no reader holds (07 R270). -/
def dropOldSlots (i k : Nat) (s : State) : State :=
  let gen := tapGenOf s i k
  let keep (l : Tbl TapSlot) : Tbl TapSlot := l.filter fun e => slotGen e.1 == gen || e.2.state == 0 || tapHeld s i k e.1 e.2.serial
  modStream i (fun x => { x with taps := x.taps.modify k keep }) s

/-- Opens the slots taken for a frame under its configuration. -/
def openTapSlots (cfg : Tbl CfgVal) (i serial : Nat) (time : Time) (slots : List (Option Nat)) (s : State) : State :=
  (List.range 4).foldl (fun t k =>
    let fresh : TapSlot := { serial := serial, time := time, blk := (blkIn cfg 0x2104 i k).getD [] }
    match slots.getD k none with
    | some n => modStream i (fun x => { x with taps := x.taps.modify k fun l => Tbl.set l n fresh }) (dropOldSlots i k t)
    | none => t) s

/-- The routes of `TTH.CONFIGURE` in use: KIND, source device and SRC, destination device and DST. -/
def routesOf (t : Tbl CfgVal) : List (Nat × (Nat × Nat) × (Nat × Nat)) :=
  let b := (blkIn t 0x8001 0 0).getD []
  (List.range (fieldAt b 2 1)).map fun i =>
    (fieldAt b (8 + 16 * i) 1, (fieldAt b (9 + 16 * i) 1, fieldAt b (0xA + 16 * i) 2),
      (fieldAt b (0xC + 16 * i) 1, fieldAt b (0xE + 16 * i) 2))

/-- The devices whose columns merge into a tap of this one (14 R491). -/
def mergeSources (s : State) (k : Nat) : List Nat :=
  ((routesOf s.cfg.active).filter fun r => r.1 == 2 && r.2.2 == (s.sys.device, k)).map (·.2.1.1)

/-- The rows of a slot: those that this device and every merging device have written (14 R491). -/
def countRows (sources : List Nat) (y : TapSlot) : TapSlot :=
  { y with rows := (sources.map fun d => Tbl.get 0 y.parts d).foldl min y.own }

/-- Sends rows `a` to `b` of this device's columns of a tap to the devices into whose taps they merge, in packets of at most 128
columns (14 R491, log 44). -/
def sendMerge (k serial : Nat) (x : TapCfg) (c0 n a b : Nat) (bytes : List Byte) (s : State) : State :=
  ((routesOf s.cfg.active).filter fun r => r.1 == 2 && r.2.1 == (s.sys.device, k)).foldl (fun t r =>
    (List.range (b - a)).foldl (fun u j =>
      let parts := max 1 (cdiv n 128)
      (List.range parts).foldl (fun v m =>
        let c := c0 + 128 * m
        let k := min 128 (n - 128 * m)
        let data := (rowSpans x.format x.outW x.outH (a + j) c k).flatMap fun e => (bytes.drop e.1).take e.2
        tthSend (portTo v r.2.2.1) 4 (.merge r.2.2.2 serial (a + j) c k (m + 1 == parts) data) r.2.2.1 false v) u) t) s

/-- Completes a tap slot from the same tap's slot of the most recent COMMITTED frame since its configuration was committed, or
with code 0 (06 R225). -/
def patchSlot (i k key : Nat) (s : State) : State :=
  match Tbl.find? (tapTable s i k) key with
  | none => s
  | some y =>
    let x := y.cfg
    let first := y.patchFrom.getD x.outH
    let size := pictureBytes x.format x.outW x.outH
    let bytes := match newestCommitted ((tapTable s i k).filter fun e => e.2.blk == y.blk) with
      | some (n, z) => hbmRead s (z.base n) size
      | none => List.replicate size 0
    modTapSlot i k key (fun z => { z with rows := x.outH, patched := true })
      (writeRows (y.base key) x.format x.outW x.outH 0 x.outW first x.outH bytes s)

/-- Completes the slots of a tap that wait for their patch; source 104 + tap for stream 0 (06 R225, 07 R278). -/
def patchPending (i k : Nat) (s : State) : State :=
  let due := ((tapTable s i k).filter fun e => e.2.unpatched).map (·.1)
  if due.isEmpty then s else raise (104 + k) (due.foldl (fun t n => patchSlot i k n t) s)

/-- Writes the rows of a tap that are determined and not yet written (06 R224), after the patches of earlier frames (06 R225). -/
def writeTap (i k : Nat) (p : PipeCfg) (fr : Frame) (d : Developed) (active : Nat) (ended : Bool) (s : State) : State :=
  match fr.tapSlots.getD k none, tapIn fr.cfg i k with
  | some slot, some x =>
    let c := tapCtx fr.cfg i k
    let a := activeOf fr.cfg i p
    let done := ((Tbl.find? (tapTable s i k) slot).map (·.own)).getD 0
    let ready := tapRowsReady c.blk (frontDelay fr.cfg i p) a.2 active ended
    let (c0, n) := myColumns s fr.cfg i p c.blk
    let bytes := (tapFrame c a.1 a.2 x.outH (c0, n) d.img).1
    let sources := if striped fr.cfg i then mergeSources s k else []
    if ready ≤ done then s
    else
      let s0 := patchPending i k s
      let s1 := modTapSlot i k slot (fun y => countRows sources { y with own := ready })
        (writeRows (x.ringBase + slot % 64 * x.slotBytes) x.format x.outW x.outH c0 n done ready bytes s0)
      if striped fr.cfg i then sendMerge k fr.serial x c0 n done ready bytes s1 else s1
  | _, _ => s

/-- Writes what every tap of a frame can write. -/
def writeTaps (i : Nat) (p : PipeCfg) (fr : Frame) (d : Developed) (active : Nat) (ended : Bool) (s : State) : State :=
  (List.range 4).foldl (fun t k => writeTap i k p fr d active ended t) s

/-- The slots of a COMMITTED frame go to the HOLD readers (06 R215). -/
def commitTapSlots (i : Nat) (slots : List (Option Nat)) (verdict : Nat) (s : State) : State :=
  (List.range 4).foldl (fun t k => match slots.getD k none with
    | some n => modTapSlot i k n (fun y => { y with state := 1, verdict := verdict, since := frameNs t }) t
    | none => t) s

/-- A retracted frame's slots: where one is not complete the patch starts at its first unwritten row (06 R225). -/
def retractTapSlots (i : Nat) (slots : List (Option Nat)) (verdict : Nat) (s : State) : State :=
  (List.range 4).foldl (fun t k => match slots.getD k none with
    | some n => modTapSlot i k n (fun y =>
        { y with state := 2, verdict := verdict, patchFrom := if y.rows < y.cfg.outH then some y.rows else none }) t
    | none => t) s

/-- TAP_PATCH_DONE (06 R225): the patches of a tap of stream 0 complete; source 104 + tap. -/
def execTapPatchDone (stream_ tap : Nat) (s : State) : Host.Outcome State Fault Refusal :=
  .next (if !enginesClocked s || stream_ != 0 || decide (3 < tap) then s else patchPending 0 tap s)

/-! ## Sources that differ between stream 0 and the others (07 R278) -/

/-- Source of a stream: `first` for stream 0, or its own source `other`. -/
def streamSource (i first other : Nat) (s : State) : State := raise (if i = 0 then first else 128 + 4 * (i - 1) + other) s

/-! ## Statistics (07 R274-R276) -/

/-- Whether statistics are enabled. -/
def statsOn (t : Tbl CfgVal) (i : Nat) : Bool := bit (fieldAt (statsBlk t i) 0 1) 0

/-- Whether the statistics ring has a slot for one more frame beside `pending` (07 R276). -/
def statsFree (s : State) (t : Tbl CfgVal) (i pending : Nat) : Bool :=
  decide (((stream s i).statsWr + 65536 - (stream s i).statsRd) % 65536 + pending < fieldAt (statsBlk t i) 0x10 2)

/-- Publishes a statistics record in the next slot of the ring (07 R275, R276). -/
def publishStats (i : Nat) (t : Tbl CfgVal) (p : PipeCfg) (serial verdict epoch : Nat) (img : List (List Rgb)) (s : State) : State :=
  let b := statsBlk t i
  let a := activeOf t i p
  let slot := (stream s i).statsSlot % fieldAt b 0x10 2
  let own := ownActive s t i p
  let rec_ := statsRecord img a.1 a.2 own.1 own.2 (fieldAt b 4 4) serial verdict epoch
  let s1 := hbmWrite (fieldAt b 8 8 + slot * fieldAt b 0x14 4) rec_ s
  let s2 := modStream i (fun x => { x with statsWr := (x.statsWr + 1) % 65536, statsSlot := (slot + 1) % fieldAt b 0x10 2 }) s1
  streamSource i 97 1 (unitEvent 0x2002 0x20 i (some serial) (serial + 2 ^ 16 * slot) s2)

/-- A frame's record is dropped and counted (07 R276). -/
def dropStats (i : Nat) (s : State) : State :=
  streamSource i 98 1 (modStream i (fun x => { x with statsDropped := min 0xFFFFFFFF (x.statsDropped + 1) }) s)

/-! ## The TNR reference (07 R240-R243) -/

/-- Whether temporal noise reduction is on. -/
def tnrOn (t : Tbl CfgVal) (i : Nat) : Bool := bit (fieldAt (nrBlk t i) 0 1) 1

/-- Address of a slot of the TNR buffer (07 R243). -/
def tnrAddr (s : State) (t : Tbl CfgVal) (i : Nat) (p : PipeCfg) (n : Nat) : Nat :=
  fieldAt (nrBlk t i) 8 8 + n * tnrSlotBytes (activeArea s t i p)

/-- The slot of the TNR buffer that a frame of stream 0 in-line takes: one that no frame in flight writes or refers to and that
does not hold the reference (07 R240, R243). -/
def freeTnrSlot (s : State) (t : Tbl CfgVal) (p : PipeCfg) : Nat :=
  let x := stream s 0
  let used := x.frames.flatMap (fun f => f.tnrOut.toList ++ (f.tnr.map (·.1)).toList) ++ (x.tnrRef.map (·.1)).toList
  let slots := (List.range 4).map (tnrAddr s t 0 p)
  (slots.find? fun a => !used.contains a).getD (slots.headD 0)

/-- Writes the output of temporal noise reduction at an address of the TNR buffer: the device's own active columns (07 R240). -/
def writeTnr (i : Nat) (t : Tbl CfgVal) (p : PipeCfg) (address : Nat) (img : List (List Int)) (s : State) : State :=
  if !tnrOn t i then s
  else
    let own := ownActive s t i p
    let data := img.flatMap fun r => ((r.take own.2).drop own.1).flatMap fun v => leBytes 3 v.toNat
    hbmWrite address data s

/-- The output of a frame of stream 0 in-line, whatever its verdict; that of a COMMITTED frame becomes the reference, unless the
reference has ended since its FS (07 R240-R242). -/
def keepTnr (t : Tbl CfgVal) (p : PipeCfg) (fr : Frame) (img : List (List Int)) (s : State) : State :=
  match fr.tnrOut with
  | none => s
  | some slot =>
    let s1 := writeTnr 0 t p slot img s
    if bit fr.flags 0 || !tnrOn t 0 || fr.tnrGen != (stream s 0).tnrGen then s1
    else modStream 0 (fun x => { x with tnrRef := some (slot, fr.serial) }) s1

/-- Where the output of a serial stands, of a stream through memory. -/
def tnrHolding (s : State) (i serial : Nat) : Option Nat := (List.find? (fun e => e.2 == serial) (stream s i).tnrBuf).map (·.1)

/-- The output of a frame of a stream through memory goes to the slot that does not hold its reference; the buffer then holds the
two (07 R240, R241). -/
def keepTnrThrough (i : Nat) (t : Tbl CfgVal) (p : PipeCfg) (fr : Frame) (img : List (List Int)) (s : State) : State :=
  if !tnrOn t i then s
  else
    let first := tnrAddr s t i p 0
    let to_ := if fr.tnr.map (·.1) = some first then tnrAddr s t i p 1 else first
    modStream i (fun x => { x with tnrBuf := Tbl.set (fr.tnr.toList) to_ fr.serial }) (writeTnr i t p to_ img s)

/-- Colour marks of a frame that starts with a reference: 1 TNR_RESTART, 2 TNR_REF_OLD (07 R241, R242). -/
def tnrMarks (t : Tbl CfgVal) (i serial : Nat) (ref : Option (Nat × Nat)) : Nat :=
  if !tnrOn t i then 0
  else match ref with
    | none => 1
    | some e => if (e.2 + 1) % 65536 = serial then 0 else 2

/-! ## Ring slots (04 R145) -/

/-- Line flags of a row. -/
def lineFlags (r : RowRec) : Nat :=
  r.gain % 2 + 2 * b2n r.seam + 4 * b2n r.split.isSome + 8 * b2n r.filled + 16 * b2n r.short + 32 * b2n r.long + 64 * b2n r.crcBad

/-- The record of a line. -/
def lineRecord (p : PipeCfg) (r : RowRec) : List Byte :=
  padTo p.pitch (leBytes 1 (lineFlags r) ++ leBytes 1 0 ++ leBytes 2 (r.split.getD 0) ++ leBytes 4 0 ++
    packLsb (p.pitch - 8) (pixelBits p.bits p.dual r.px))

/-- A row as a slot's line record gives it. -/
def rowOfRecord (p : PipeCfg) (b : List Byte) : RowRec :=
  let f := fieldAt b 0 1
  { px := unpackPixels p.bits p.dual p.width (leNat (b.drop 8)), gain := f % 2, seam := bit f 1
    split := if bit f 2 then some (fieldAt b 2 2) else none, filled := bit f 3, short := bit f 4, long := bit f 5, crcBad := bit f 6 }

/-- Address of a ring slot. -/
def ringAddr (p : PipeCfg) (slot : Nat) : Nat := p.ringBase + slot * p.slotBytes

/-- The rows of a ring slot. -/
def slotRows (s : State) (p : PipeCfg) (slot : Nat) : List RowRec :=
  (List.range p.height).map fun y => rowOfRecord p (hbmRead s (ringAddr p slot + 0x1000 + p.pitch * y) p.pitch)

/-- The header of a ring slot. -/
def slotHeader (i : Nat) (p : PipeCfg) (fr : Frame) : List Byte :=
  padTo 4096 (leBytes 2 fr.serial ++ leBytes 2 fr.flags ++ leBytes 1 i ++ leBytes 1 p.planes ++ leBytes 1 p.bits ++
    leBytes 1 ((fr.rows.head?.map (·.gain)).getD fr.gainFs) ++ timeBytes fr.time ++ leBytes 2 fr.sensorFrame ++
    leBytes 4 fr.exposure ++ leBytes 2 p.width ++ leBytes 2 p.height ++ leBytes 4 p.pitch ++
    fr.lens.flatMap (leBytes 2) ++ leBytes 1 (b2n fr.lensBad) ++ leBytes 1 p.cfa)

/-! ## Metadata records (04 R146, 05 R203, 07 R277, 16 R546) -/

/-- The ingest section. -/
def ingestSection (fr : Frame) : List Byte :=
  leBytes 2 fr.sensorFrame ++ leBytes 1 fr.gainFs ++
    leBytes 1 (b2n fr.embErr + 2 * b2n (fr.source == 2) + 4 * b2n (fr.source == 4)) ++ leBytes 4 fr.exposure ++
    padTo 24 fr.sensorData ++ fr.counts.flatMap (leBytes 4) ++ leBytes 2 fr.lines ++ leBytes 2 fr.feLines ++
    leBytes 4 fr.pixels ++ leBytes 4 fr.fePixels ++ leBytes 4 0

/-- The front section of a frame with the front's rows. -/
def frontSection (c : FrontCtx) (fr : Frame) (d : Developed) (height : Nat) : List Byte :=
  let plan := normPlan c fr.rows
  let blend := plan.any fun e => e.2.2
  let seams := (fr.rows.filter (·.seam)).length
  let first := fr.rows.zipIdx.find? fun e => e.1.split.isSome
  let sum (f : FrontRow → Nat) (black : Nat) : Nat := min 0xFFFFFFFF ((d.front.map f).sum + black)
  let flags := b2n (seams != 0) + 2 * b2n first.isSome + 4 * b2n fr.lensBad + 8 * b2n fr.stale + 16 * b2n blend
  leBytes 1 flags ++ leBytes 1 ((fr.rows.head?.map (·.gain)).getD 0) ++ leBytes 2 seams ++ leBytes 4 (sum (·.statics) d.replaced.1) ++
    leBytes 4 (sum (·.dynamics) d.replaced.2) ++ leBytes 4 (sum (·.clipped) 0) ++ fr.lens.flatMap (leBytes 2) ++ leBytes 2 0 ++
    fr.weights.flatMap (leBytes 4) ++
    leBytes 8 (match first with
      | some (r, y) => r.split.getD 0 + 2 ^ 16 * y + 2 ^ 32
      | none => 0) ++
    (List.range height).flatMap fun y => match fr.rows[y]? with
      | some r => leBytes 1 (r.gain % 2 + 2 * b2n r.seam + 4 * b2n (plan.getD y (0, 0, false)).2.2 + 8 * b2n r.split.isSome +
          16 * b2n r.filled + 32 * b2n r.short + 64 * b2n r.long + 128 * b2n r.crcBad)
      | none => [0]

/-- The taps of a frame that processed it, with the components that their matrices clamped in this device's columns of the rows that
the released rows determine; rows that never came are zeros, which no such row takes in. -/
def tapsUsed (s : State) (i : Nat) (p : PipeCfg) (fr : Frame) (img : List (List Rgb)) : List (Option Nat) :=
  let a := activeOf fr.cfg i p
  let rows (k : Nat) : Nat := tapRowsReady ((blkIn fr.cfg 0x2104 i k).getD []) (frontDelay fr.cfg i p) a.2 (fr.released - obTopOf fr.cfg i)
    (fr.released == p.height)
  let whole := img ++ List.replicate (a.2 - img.length) (List.replicate a.1 ⟨0, 0, 0⟩)
  (List.range 4).map fun k => match tapIn fr.cfg i k with
    | some x =>
      let c := tapCtx fr.cfg i k
      if tapUsed fr.cfg s.cfg.active i k p && inPhase x fr.serial then
        some (tapFrame c a.1 a.2 (rows k) (myColumns s fr.cfg i p c.blk) whole).2
      else none
    | none => none

/-- The colour section. -/
def colourSection (t : Tbl CfgVal) (i : Nat) (marks : Nat) (d : Developed) (taps : List (Option Nat)) : List Byte :=
  let m := matrixBlk t i 0
  let adapt := bit (fieldAt m 1 1) 0
  leBytes 1 (marks + 4 * b2n adapt) ++ leBytes 1 (taps.zipIdx.map fun e => b2n e.1.isSome * 2 ^ e.2).sum ++
    leBytes 2 (if adapt then fieldAt m 3 1 else 0xFFFF) ++ leBytes 4 (min 0xFFFFFFFF d.matClipped) ++
    leBytes 4 (min 0xFFFFFFFF d.adClipped) ++ taps.flatMap (fun c => leBytes 4 (min 0xFFFFFFFF (c.getD 0))) ++ leBytes 4 0

/-- A metadata record with its sections. -/
def metaRecord (s : State) (i : Nat) (p : PipeCfg) (fr : Frame) (colour front : List Byte) (sections : Nat) : List Byte :=
  padTo p.metaBytes (
    leBytes 4 0x41544D48 ++ leBytes 1 1 ++ leBytes 1 i ++ leBytes 2 fr.serial ++ leBytes 4 p.metaBytes ++ leBytes 2 fr.flags ++
    leBytes 2 p.height ++ timeBytes fr.time ++ leBytes 2 0 ++ leBytes 4 fr.epoch ++ leBytes 1 s.sys.device ++
    leBytes 1 sections ++ leBytes 2 0 ++ (List.range 4).flatMap (fun k => leBytes 4 (fr.emb.getD k []).length) ++ leBytes 12 0 ++
    padTo 64 (ingestSection fr) ++ padTo 32 colour ++ leBytes 32 0 ++ padTo 64 fr.motion ++ leBytes 3840 0 ++
    (List.range 4).flatMap (fun k => padTo 4096 ((fr.emb.getD k []).take 4096)) ++ front)

/-- The record of a frame that a pipe has processed. -/
def fullRecord (s : State) (i : Nat) (p : PipeCfg) (fr : Frame) (d : Developed) : List Byte :=
  metaRecord s i p fr (colourSection fr.cfg i (fr.colour % 16) d (tapsUsed s i p fr d.img))
    (frontSection (frontCtx s i p fr) fr d p.height) 0xF

/-- A frame's metadata record stands in the Groom region (04 R146; log 43). -/
def noteRecord (i serial : Nat) (b : List Byte) (s : State) : State :=
  modStream i (fun x => { x with records := Tbl.set x.records serial b }) s

/-- Whether the front or a matrix clamped a value of a frame (07 R278, source 103). -/
def anyClipped (s : State) (i : Nat) (p : PipeCfg) (fr : Frame) (d : Developed) : Bool :=
  d.front.any (fun r => r.clipped != 0) || d.matClipped != 0 || d.adClipped != 0 ||
    (tapsUsed s i p fr d.img).any fun c => c.getD 0 != 0

/-! ## The start of a frame (02 R69, 05 R171, R179, R197-R200, 07 R242, 06 R225) -/

/-- The blocks of a stream that its frames work with (01 R22). -/
def streamCfg (t : Tbl CfgVal) (i : Nat) : Tbl CfgVal := t.filter fun e => serves t i e.1

/-- Whether a tap's ring differs between two configurations (07 R270). -/
def ringChanges (old new : Tbl CfgVal) (i k : Nat) : Bool :=
  let ring (t : Tbl CfgVal) := (tapIn t i k).map fun x => (x.ringBase, x.ringSlots, x.slotBytes)
  ring old != ring new

/-- Base, slots and slot size of a stream's frame ring. -/
def frameRing (t : Tbl CfgVal) (i : Nat) : Option (Nat × Nat × Nat) := (pipeIn t i).map fun p => (p.ringBase, p.ringSlots, p.slotBytes)

/-- A stream takes a configuration into use at the start of a frame: a new ring of a tap begins empty, while the slots of the old
one stay for the readers that hold them (07 R270). -/
def enterConfig (i : Nat) (new : Tbl CfgVal) (s : State) : State :=
  let old := (stream s i).cfg
  if old = new then s
  else modStream i (fun x =>
    { x with
      cfg := new
      ring := if frameRing old i = frameRing new i then x.ring else []
      tapGen := x.tapGen.zipIdx.map fun e => if ringChanges old new i e.2 then e.1 + 1 else e.1 }) s

/-- The units of a stream switch at the start of its frame. -/
def startConfig (i : Nat) (s : State) : State :=
  let s1 := switchStream i s
  enterConfig i (streamCfg s1.cfg.active i) s1

/-- The next serial of a stream is taken (04 R131); a retraction of long ago is forgotten, whose serial would come again. -/
def takeSerial (i : Nat) (time : Time) (s : State) : State :=
  modStream i (fun x =>
    { x with
      nextSerial := (x.nextSerial + 1) % 65536
      known := true
      fsTick := s.tick
      fsTime := time
      lastRetracted := x.lastRetracted.filter fun r => decide ((x.nextSerial + 65536 - r.1) % 65536 < 16384) }) s

/-- The first frame marked SHADING_FROZEN, and the first after it that is not, are told (05 R198); the rule gives DETAIL no
layout: an open value (log 6). -/
def tellFrozen (i serial : Nat) (bad : Bool) (s : State) : State :=
  if bad = (stream s i).frozen then s
  else streamSource i 99 2 (bump (unitEvent (if bad then 0x2004 else 0x2005) 0x20 i (some serial) (draw s (2 ^ 64 - 1))
    (modStream i (fun x => { x with frozen := bad }) s)))

/-- A gain split is told once a frame (05 R193). -/
def tellSplit (i serial : Nat) (rows : List RowRec) (s : State) : State :=
  match rows.zipIdx.find? fun e => e.1.split.isSome with
  | some (r, y) => streamSource i 100 2 (unitEvent 0x2003 0x20 i (some serial) (y + 2 ^ 16 * r.split.getD 0) s)
  | none => s

/-- SHADING_BLEND_DONE (05 R199, R200): the blend of the latch is complete. -/
def execShadingBlendDone (stream_ : Nat) (s : State) : Host.Outcome State Fault Refusal :=
  .next (if enginesClocked s && !(stream s stream_).blendDone then
    modStream stream_ (fun x =>
      { x with
        blendDone := true
        weights := blendWeights (gridsOf s.cfg.committed stream_) x.lens
        shade := s.cfg.committed.filter fun e => keyOp e.1 == 0x2002 && keyUnit e.1 == stream_ }) s
    else s)

end Sys2Proof.Machine
end

