-- ==== Sys2Proof/Machine/Compose.lean ====
section
/-! DEFINITION. What a display head sends (12 R416-R420, R429-R433): planes in HBM, composition at 4:2:2 and 4:4:4, the
changed cells of a command-mode panel and the rectangles that they make. -/

namespace Sys2Proof.Machine

/-! ## Planes -/

/-- A luma sample of a picture in 10 bits (07 R266, 12 R419). -/
def picLuma (s : State) (p : PlanePic) (x y : Nat) : Nat :=
  let (_, pitch, _, _) := tapLayout p.format p.width p.height
  if p.format = 4 then 4 * leNat (hbmRead s (p.base + y * pitch + x) 1)
  else leNat (hbmRead s (p.base + y * pitch + 2 * x) 2)

/-- A stored chroma sample, Cb for `k` = 0 and Cr for 1, of chroma row `i` and column pair `c`. -/
def picChromaAt (s : State) (p : PlanePic) (c i k : Nat) : Int :=
  let (_, pitch, start, _) := tapLayout p.format p.width p.height
  if p.format = 4 then 4 * leNat (hbmRead s (p.base + start + i * pitch + 2 * c + k) 1)
  else leNat (hbmRead s (p.base + start + i * pitch + 4 * c + 2 * k) 2)

/-- The chroma of an even column of a row; 4:2:0 is filtered vertically, with rows reflected at the edges (12 R419). -/
def picChroma (s : State) (p : PlanePic) (c y k : Nat) : Int :=
  if p.format = 2 then picChromaAt s p c y k
  else
    let h := p.height / 2
    let i := y / 2
    let o : Int := if y % 2 = 0 then (i : Int) - 1 else (i : Int) + 1
    rnd (3 * picChromaAt s p c i k + picChromaAt s p c (reflect o h) k) 4

/-- The chroma of any column, for 4:4:4 (12 R420). -/
def picChroma444 (s : State) (p : PlanePic) (x y k : Nat) : Int :=
  if x % 2 = 0 then picChroma s p (x / 2) y k
  else rnd (picChroma s p ((x - 1) / 2) y k + picChroma s p (reflect ((x : Int) + 1) p.width / 2) y k) 2

/-- A video plane as a head shows it: its place, its picture, the one before it, the rows that are written, those that were
written at the flip point, and which of the rows between the scan reached too early, bit by bit. -/
structure VideoView where
  x : Nat
  y : Nat
  cur : PlanePic
  prev : Option PlanePic
  rows : Nat
  start : Nat
  early : Nat
deriving DecidableEq, Repr

/-- Whether the scan reached a row before it was written or patched (06 R226). -/
def VideoView.isLate (v : VideoView) (y : Nat) : Bool := decide (v.rows ≤ y) || (decide (v.start ≤ y) && bit v.early y)

/-- The rows of a plane's picture that the scan reached too early. -/
def VideoView.lateRows (v : VideoView) : List Nat := (List.range v.cur.height).filter v.isLate

/-- The picture and the coordinates in it at a place of the raster; a row not yet written comes from the previous picture
(06 R226). -/
def VideoView.at_ (v : VideoView) (x y : Nat) : Option (PlanePic × Nat × Nat) :=
  if x < v.x ∨ v.x + v.cur.width ≤ x ∨ y < v.y ∨ v.y + v.cur.height ≤ y then none
  else some (if v.isLate (y - v.y) then v.prev.getD v.cur else v.cur, x - v.x, y - v.y)

/-- An overlay plane as a head shows it: place, zoom, size, front buffer and palette. -/
structure OverlayView where
  x : Nat
  y : Nat
  zoom : Nat
  w : Nat
  h : Nat
  base : Nat
  palette : Tbl Nat
deriving DecidableEq, Repr

/-- The palette entry of an overlay at a place of the raster. -/
def OverlayView.at_ (s : State) (o : OverlayView) (x y : Nat) : Option Nat :=
  if x < o.x ∨ o.x + o.zoom * o.w ≤ x ∨ y < o.y ∨ o.y + o.zoom * o.h ≤ y then none
  else some (Tbl.get 0 o.palette (leNat (hbmRead s (o.base + (y - o.y) / o.zoom * o.w + (x - o.x) / o.zoom) 1)))

/-- Component `k` of a colour of three 10-bit components, 0 Y′, 1 Cb, 2 Cr. -/
def component (v k : Nat) : Nat := v / 1024 ^ k % 1024

/-- The blend of an overlay entry with what lies beneath (12 R416). -/
def blend (entry k : Nat) (u : Int) : Int :=
  let a : Int := entry / 2 ^ 32 % 256
  rnd (a * component entry k + (255 - a) * u) 255

/-- What a head composes: background, video planes and overlays from the bottom up. -/
structure Scene where
  background : Nat
  videos : List VideoView
  overlays : List OverlayView
deriving DecidableEq, Repr

/-- One component of the video beneath the overlays, from a sampler of pictures. -/
def videoAt (sample : PlanePic → Nat → Nat → Int) (bg : Nat) (l : List VideoView) (x y : Nat) : Int :=
  l.foldl (fun u v => match v.at_ x y with
    | some (p, px, py) => sample p px py
    | none => u) bg

/-- One component with the overlays on it. -/
def overlaid (s : State) (l : List OverlayView) (k x y : Nat) (u : Int) : Int :=
  l.foldl (fun w o => match o.at_ s x y with
    | some e => blend e k w
    | none => w) u

/-- Luma of a pixel (12 R416). -/
def sceneLuma (s : State) (c : Scene) (x y : Nat) : Int :=
  overlaid s c.overlays 0 x y (videoAt (fun p px py => (picLuma s p px py : Int)) (component c.background 0) c.videos x y)

/-- Chroma of an even column at 4:2:2: component 1 is Cb, 2 is Cr (12 R419). -/
def sceneChroma (s : State) (c : Scene) (k x y : Nat) : Int :=
  overlaid s c.overlays k x y
    (videoAt (fun p px py => picChroma s p (px / 2) py (k - 1)) (component c.background k) c.videos x y)

/-- Chroma of any column at 4:4:4 (12 R420). -/
def sceneChroma444 (s : State) (c : Scene) (k x y : Nat) : Int :=
  overlaid s c.overlays k x y
    (videoAt (fun p px py => picChroma444 s p px py (k - 1)) (component c.background k) c.videos x y)

/-- A row of an SDI head's raster from column `x0` on: luma, and Cb or Cr by turns (12 R410, R419). -/
def sdiRow (s : State) (c : Scene) (x0 width y : Nat) : List (Nat × Nat) :=
  (List.range width).map fun i =>
    let x := x0 + i
    ((sceneLuma s c x y).toNat, (sceneChroma s c (1 + x % 2) (x - x % 2) y).toNat)

/-- A raster of one colour. -/
def flatRow (colour x0 width : Nat) : List (Nat × Nat) :=
  (List.range width).map fun i => (component colour 0, component colour (1 + (x0 + i) % 2))

/-- Coefficients of an encoding: KR, KG, KB, CBS, CRS (07 R263). -/
def yccCoeffs (c2020 : Bool) : Nat × Nat × Nat × Nat × Nat :=
  if c2020 then (17216, 44434, 3886, 34834, 44443) else (13933, 46871, 4732, 35318, 41615)

/-- One 4:4:4 pixel as R′G′B′ of `n` bits (12 R420; log 30). -/
def toRgb (c2020 full : Bool) (n : Nat) (y cb cr : Int) : Nat × Nat × Nat :=
  let (kr, kg, kb, cbs, crs) := yccCoeffs c2020
  let l := rnd ((y - 64) * 65536) (if full then 1023 else 876)
  let b := rnd ((cb - 512) * 65536) (if full then 1023 else 896)
  let r := rnd ((cr - 512) * 65536) (if full then 1023 else 896)
  let r' := l + rnd (r * 65536) crs
  let b' := l + rnd (b * 65536) cbs
  let g' := rnd (65536 * l - kr * r' - kb * b') kg
  let q (v : Int) : Nat := (rnd (clampI 0 65536 v * (2 ^ n - 1)) 65536).toNat
  (q r', q g', q b')

/-- Encoding and range of a place: those of the topmost video plane there, else ENCODING 1 in narrow range (log 30). -/
def rangeAt (c : Scene) (x y : Nat) : Bool × Bool :=
  c.videos.foldl (fun m v => match v.at_ x y with
    | some (p, _, _) => (p.bt2020, p.full)
    | none => m) (false, false)

/-- A row of a rectangle of a DSI head (12 R420). -/
def dsiRow (s : State) (c : Scene) (n x0 width y : Nat) : List (Nat × Nat × Nat) :=
  (List.range width).map fun i =>
    let x := x0 + i
    let e := rangeAt c x y
    toRgb e.1 e.2 n (sceneLuma s c x y) (sceneChroma444 s c 1 x y) (sceneChroma444 s c 2 x y)

/-! ## Changed cells (12 R429, R430) -/

/-- Key of a cell of 32 × 32 pixels. -/
def cellKey (cx cy : Nat) : Nat := cy * 256 + cx

/-- Marks the cells that a rectangle of the raster covers. -/
def markCells (w h : Nat) (r : Nat × Nat × Nat × Nat) (t : Tbl Bool) : Tbl Bool :=
  let (x, y, rw, rh) := r
  let x1 := min (x + rw) w
  let y1 := min (y + rh) h
  if x1 ≤ x ∨ y1 ≤ y then t
  else (List.range ((y1 - 1) / 32 + 1 - y / 32)).foldl (fun a j =>
    (List.range ((x1 - 1) / 32 + 1 - x / 32)).foldl (fun b i => Tbl.set b (cellKey (x / 32 + i) (y / 32 + j)) true) a) t

/-- The span of changed cells of a cell row: first and last column. -/
def cellSpan (t : Tbl Bool) (cy : Nat) : Option (Nat × Nat) :=
  let l := (t.filter fun e => e.1 / 256 == cy).map fun e => e.1 % 256
  match l with
  | [] => none
  | a :: r => some (r.foldl min a, r.foldl max a)

/-- Spans by cell rows, merged where consecutive rows have the same: first row, last row, first and last column. -/
def mergeSpans : List (Nat × Nat × Nat) → List (Nat × Nat × Nat × Nat)
  | [] => []
  | (y, a, b) :: t =>
    match mergeSpans t with
    | (y0, y1, c, d) :: r => if y0 = y + 1 ∧ c = a ∧ d = b then (y, y1, a, b) :: r else (y, y, a, b) :: (y0, y1, c, d) :: r
    | [] => [(y, y, a, b)]

/-- A block of cells as a rectangle clipped to the raster. -/
def cellRect (w h : Nat) (m : Nat × Nat × Nat × Nat) : Nat × Nat × Nat × Nat :=
  let (y0, y1, a, b) := m
  (32 * a, 32 * y0, min (32 * b + 32) w - 32 * a, min (32 * y1 + 32) h - 32 * y0)

/-- The rectangles of the changed cells, or their bounding box beyond 16 (12 R430). -/
def changedRects (w h : Nat) (t : Tbl Bool) : List (Nat × Nat × Nat × Nat) :=
  let spans := (List.range (cdiv h 32)).filterMap fun cy => (cellSpan t cy).map fun p => (cy, p.1, p.2)
  let m := mergeSpans spans
  if m.length ≤ 16 then m.map (cellRect w h)
  else
    let y0 := (spans.map (·.1)).foldl min h
    let y1 := (spans.map (·.1)).foldl max 0
    let a := (spans.map (·.2.1)).foldl min w
    let b := (spans.map (·.2.2)).foldl max 0
    [cellRect w h (y0, y1, a, b)]

/-- Bits of a DSI pixel. -/
def dsiBits (format : Nat) : Nat := if format = 0 then 24 else 30

/-! ## DSI packets (12 R428, R430; MIPI DSI, log 30) -/

/-- The header bits that each bit of the ECC of a packet header covers. -/
def eccMasks : List (List Nat) :=
  [[0, 1, 2, 4, 5, 7, 10, 11, 13, 16, 20, 21, 22, 23], [0, 1, 3, 4, 6, 8, 10, 12, 14, 17, 20, 21, 22, 23],
    [0, 2, 3, 5, 6, 9, 11, 12, 15, 18, 20, 21, 22], [1, 2, 3, 7, 8, 9, 13, 14, 15, 19, 20, 21, 23],
    [4, 5, 6, 7, 8, 9, 16, 17, 18, 19, 20, 22, 23], [10, 11, 12, 13, 14, 15, 16, 17, 18, 19, 21, 22, 23]]

/-- ECC of a packet header of three bytes. -/
def headerEcc (hdr : List Byte) : Nat :=
  let v := leNat hdr
  (eccMasks.zipIdx.map fun m => (m.1.map fun i => v / 2 ^ i % 2).sum % 2 * 2 ^ m.2).sum

/-- A DCS long write: header of data type 0x39, payload, checksum. -/
def dcsLongWrite (payload : List Byte) : List Byte :=
  let hdr : List Byte := 0x39 :: leBytes 2 payload.length
  hdr ++ leBytes 1 (headerEcc hdr) ++ payload ++ leBytes 2 (payload.foldl (crcByteR 0x8408) 0xFFFF)

/-- The bytes of a row of pixels: R, G, B bytes, or four pixels of 30 bits in 15 bytes, the first in the low bits. -/
def pixelBytes (format : Nat) (row : List (Nat × Nat × Nat)) : List Byte :=
  if format = 0 then row.flatMap fun p => leBytes 1 p.1 ++ leBytes 1 p.2.1 ++ leBytes 1 p.2.2
  else (List.range (cdiv row.length 4)).flatMap fun k =>
    leBytes 15 ((((row.drop (4 * k)).take 4).zipIdx.map fun e => (e.1.1 + 1024 * e.1.2.1 + 1048576 * e.1.2.2) * 2 ^ (30 * e.2)).sum)

/-- The packets of a rectangle: set_column_address, set_page_address, then write_memory_start or write_memory_continue for
each line (12 R430). -/
def rectPackets (format : Nat) (r : Nat × Nat × Nat × Nat) (rows : List (List (Nat × Nat × Nat))) : List (List Byte) :=
  let span (first n : Nat) : List Byte := beBytes 2 first ++ beBytes 2 (first + n - 1)
  dcsLongWrite (0x2A :: span r.1 r.2.2.1) :: dcsLongWrite (0x2B :: span r.2.1 r.2.2.2) ::
    rows.zipIdx.map fun e => dcsLongWrite ((if e.2 = 0 then 0x2C else 0x3C) :: pixelBytes format e.1)

/-- Bytes of the push of a rectangle (12 R433). -/
def pushBytes (bits : Nat) (r : Nat × Nat × Nat × Nat) : Nat := r.2.2.2 * (7 + cdiv (r.2.2.1 * bits) 8) + 22

end Sys2Proof.Machine
end

