-- ==== Sys2Proof/Machine/Display.lean ====
section
/-! DEFINITION. The display heads (12; 06 R226, R227): configuration checks, flip points, flip records, fallback colour,
genlock, and the commands of class DSP. -/

namespace Sys2Proof.Machine

/-- A head. -/
def head (s : State) (h : Nat) : Head := s.heads.getD h {}

/-- Changes a head. -/
def modHead (h : Nat) (g : Head → Head) (s : State) : State := { s with heads := s.heads.modify h g }

/-- Whether a configuration locks H1 to H0 (12 R426). -/
def pairIn (t : Tbl CfgVal) : Bool := ((headIn t 0).map (·.lock)).getD false

/-- Whether a head is configured, by itself or as half of the pair (12 R426). -/
def headOn (t : Tbl CfgVal) (h : Nat) : Bool := (headIn t (if h = 1 ∧ pairIn t then 0 else h)).isSome

/-- Whether a head is an SDI head. -/
def isSdi (h : Nat) : Bool := decide (h < 2)

/-! ## DSP.CONFIGURE (12 R410, R414, R426, R433) -/

/-- Head frame periods of 23.98 to 30 Hz (12 R410). -/
def slowPeriods : List Nat := [41708333, 41666666, 40000000, 33366666, 33333333]
/-- Head frame periods of 50 to 60 Hz. -/
def midPeriods : List Nat := [20000000, 16683333, 16666666]
/-- Head frame periods of 100 to 120 Hz. -/
def fastPeriods : List Nat := [10000000, 8341666, 8333333]

/-- The rasters, rates and link counts of an SDI head (12 R410). -/
def sdiLegal (w h period links : Nat) : Bool :=
  (w == 1920 && h == 1080 && links == 1 && (slowPeriods ++ midPeriods).contains period) ||
  ((w == 3840 || w == 4096) && h == 2160 &&
    ((links == 1 && (slowPeriods ++ midPeriods).contains period) || (links == 2 && fastPeriods.contains period)))

/-- The lanes of an SDI head with a link count (12 R409). -/
def headLanes (h links : Nat) : List Nat := (List.range links).map (· + 2 * h)

/-- Whether a lane is used by the other SDI head in dual link, in committed or staged state. -/
def otherDual (s : State) (h lane : Nat) : Bool :=
  [s.cfg.committed, resulting s].any fun t => match headIn t (1 - h) with
    | some x => x.links == 2 && (headLanes (1 - h) 2).contains lane
    | none => false

/-- Faults of an SDI head (12 R410, R414); a DSI field is set where it holds neither 0 nor its default (log 30). -/
def sdiFaults (s : State) (h : Nat) (b : List Byte) : List Nat :=
  let x := HeadCfg.of b
  faultIf (!sdiLegal x.width x.height x.period x.links) 0 ++
  faultIf (x.links == 2 && (headLanes h 2).contains x.mirror) 8 ++
  faultIf (x.mirror != 0xFF && otherDual s h x.mirror) 0xB ++
  faultIf (h != 0 && x.lock) 0xA ++
  faultIf (x.format != 0) 0x24 ++ faultIf (x.flags != 0 && x.flags != 3) 0x25 ++ faultIf (x.mbps != 0) 0x26 ++
  faultIf (x.ulpsFrames != 0 && x.ulpsFrames != 60) 0x28

/-- Whether the full-raster push exceeds 0.9 of the head frame period (12 R414, R433). -/
def pushTooLong (x : HeadCfg) : Bool :=
  decide (9 * x.period * (x.links * x.mbps) < 80000 * pushBytes (dsiBits x.format) (0, 0, x.width, x.height))

/-- Faults of a DSI head (12 'DSP.CONFIGURE', R414). -/
def dsiFaults (b : List Byte) : List Nat :=
  let x := HeadCfg.of b
  faultIf (decide (x.width < 64) || decide (4096 < x.width) || x.width % 4 != 0) 0 ++
  faultIf (decide (x.height < 16) || decide (4096 < x.height)) 2 ++
  faultIf (!([1, 2, 4].contains x.links)) 8 ++ faultIf x.lock 0xA ++ faultIf (x.mirror != 0xFF) 0xB ++
  faultIf (decide (x.mbps < 80) || decide (2500 < x.mbps)) 0x26 ++ faultIf (x.ulpsFrames == 0) 0x28 ++
  faultIf (pushTooLong x) 0

/-- Relations of `DSP.CONFIGURE`. -/
def headFaults (s : State) (h : Nat) (b : List Byte) : List Nat :=
  let x := HeadCfg.of b
  faultIf (decide (x.period ≤ x.phaseNs)) 4 ++
  faultIf (decide (x.ringSlots < 2) || decide (256 < x.ringSlots)) 0x34 ++
  (if isSdi h then sdiFaults s h b else dsiFaults b)

/-- While the pair is locked a command to H1 is refused (12 R426). -/
def pairRefuses (s : State) (c : Cmd) : Bool := c.target == 1 && pairIn s.cfg.committed

/-- Checks of `DSP.CONFIGURE`: the two heads of a pair have one owner (12 R426). -/
def dspConfigureCheck (s : State) (c : Cmd) : Option Reply :=
  firstFail [
    need (!(c.target == 0 && fieldAt c.region 0xA 1 == 1) || ownerOf s (myUnit s 0x60 1) == c.fn) { status := 0x20 },
    need (!pairRefuses s c) (badParam 0),
    stagedCheck layDspConfigure 0 (cfgKey 0x6001 c.target 0) (headFaults s c.target c.region) none none s c]

/-- Effect of DSP_CONFIGURE. -/
def effectDspConfigure (c : Cmd) (t : State) : State :=
  stageCmd layDspConfigure 0 (cfgKey 0x6001 c.target 0) c t

/-- DSP_CONFIGURE (12 R414). -/
def execDspConfigure (r : CmdRef) (s : State) : Host.Outcome State Fault Refusal :=
  .next (runCmd r 0x6001 dspConfigureCheck effectDspConfigure s)

/-! ## DSP.PLANE (12 R417, R418) -/

/-- Raster of a head, or of the pair (12 R426). -/
def rasterIn (t : Tbl CfgVal) (h : Nat) : Nat × Nat :=
  match headIn t h with
  | some x => (if h = 0 ∧ x.lock then 2 * x.width else x.width, x.height)
  | none => (0, 0)

/-- Enabled planes of all heads that name a tap. -/
def planesOnTap (t : Tbl CfgVal) (i k : Nat) : Nat :=
  ((List.range 4).flatMap fun h => (List.range 2).filter fun p => match planeIn t h p with
    | some x => x.enable && x.source == 0 && x.stream == i && x.tap == k
    | none => false).length

/-- ENCODING and range of a video plane. -/
def planeEncoding (t : Tbl CfgVal) (x : PlaneCfg) : Nat × Bool :=
  if x.source = 1 then (x.decEncoding, x.decFull)
  else match tapIn t x.stream x.tap with
    | some k => (k.encoding, k.full)
    | none => (0, false)

/-- Faults of a video plane; `t` holds the plane itself. -/
def videoFaults (s : State) (t : Tbl CfgVal) (h : Nat) (x : PlaneCfg) : List Nat :=
  let (w, hh) := rasterIn t h
  let tap := tapIn t x.stream x.tap
  let e := planeEncoding t x
  faultIf (decide (1 < x.source)) 0 ++
  (if x.source = 0 then
    faultIf (decide (16 < x.stream)) 4 ++ faultIf (decide (3 < x.tap)) 6 ++
    faultIf (match tap with
      | some k => decide (k.format < 2) || !tapRuns t x.stream x.tap || decide (k.ringSlots < 2 + planesOnTap t x.stream x.tap) ||
          decide (w < x.x + k.outW) || decide (hh < x.y + k.outH)
      | none => true) 4 ++
    faultIf (!x.hold && (x.leadRows == 0 || decide (((tap.map (·.outH)).getD 0) < x.leadRows))) 4
  else
    faultIf (decSession s x.stream).isNone 4 ++ faultIf (decide (w ≤ x.x) || decide (hh ≤ x.y)) 8 ++
    faultIf (!([1, 2, 3, 6].contains x.decEncoding)) 0x12) ++
  faultIf (isSdi h && e.2) 4 ++
  faultIf (isSdi h && x.enable && (match planeIn t h (1 - x.plane) with
    | some y => y.enable && planeEncoding t y != e
    | none => false)) 4

/-- Faults of an overlay plane. -/
def overlayFaults (t : Tbl CfgVal) (h : Nat) (x : PlaneCfg) : List Nat :=
  let (w, hh) := rasterIn t h
  faultIf (x.source != 2) 0 ++ faultIf (x.zoom != 1 && x.zoom != 2) 7 ++
  faultIf (x.ovW == 0 || x.ovW % 2 != 0) 0xE ++ faultIf (x.ovH == 0 || x.ovH % 2 != 0) 0x10 ++
  faultIf (decide (w < x.x + x.zoom * x.ovW) || decide (hh < x.y + x.zoom * x.ovH)) 7

/-- Relations of `DSP.PLANE`, of a plane that is not enabled too (12 R417). -/
def planeFaults (s : State) (c : Cmd) : List Nat :=
  let x := PlaneCfg.of c.region
  let t := Tbl.set (resulting s) (cfgKey 0x6002 c.target x.plane) (valOf layDspPlane c 0)
  if x.plane < 2 then videoFaults s t c.target x else overlayFaults t c.target x

/-- Checks of DSP_PLANE. -/
def checkDspPlane (t : State) (c : Cmd) : Option Reply :=
  firstFail [need (!pairRefuses t c) (badParam 0),
    stagedCheck layDspPlane 0 (cfgKey 0x6002 c.target (fieldAt c.region 0 1)) (planeFaults t c) none none t c]

/-- Effect of DSP_PLANE. -/
def effectDspPlane (c : Cmd) (t : State) : State :=
  stageCmd layDspPlane 0 (cfgKey 0x6002 c.target (fieldAt c.region 0 1)) c t

/-- DSP_PLANE (12 R417). -/
def execDspPlane (r : CmdRef) (s : State) : Host.Outcome State Fault Refusal :=
  .next (runCmd r 0x6002 checkDspPlane effectDspPlane s)

/-! ## DSP.FLIP and DSP.PALETTE (12 R424, R425) -/

/-- X, Y, W, H of a block of `DSP.FLIP`. -/
def flipRect (b : List Byte) : Nat × Nat × Nat × Nat := (fieldAt b 4 2, fieldAt b 6 2, fieldAt b 8 2, fieldAt b 0xA 2)

/-- Relations of `DSP.FLIP`. -/
def flipFaults (s : State) (c : Cmd) : List Nat :=
  let b := c.region
  let (x, y, w, h) := flipRect b
  let len := fieldAt b 0x18 4
  faultIf (decide (b.length < 0x28 + len)) 0x18 ++
  (if fieldAt b 0 1 = 1 then faultIf (isSdi c.target) 0 ++ faultIf (len == 0 || decide (4096 < len)) 0x18
  else
    faultIf (fieldAt b 1 1 != 2 && fieldAt b 1 1 != 3) 1 ++ faultIf (len != w * h) 4 ++
    faultIf (match planeIn s.cfg.committed c.target (fieldAt b 1 1) with
      | some p => decide (p.ovW < x + w) || decide (p.ovH < y + h)
      | none => true) 1)

/-- Checks of `DSP.FLIP`. -/
def flipCheck (s : State) (c : Cmd) : Option Reply :=
  inOrder s c
    (firstFail [need (!pairRefuses s c) (badParam 0), blockFault layDspFlip c.region (flipFaults s c),
      need (crc64 (bulkBytes layDspFlip c.region (fieldAt c.region 0x18 4)) == fieldAt c.region 0x20 8) dataCrc]) none none none

/-- An update that waits for a flip point. -/
def addRequest (q : FlipReq) (h : Nat) (c : Cmd) (s : State) : State :=
  setWaiting c (modHead h (fun x => { x with requests := x.requests ++ [q] }) s)

/-- Effect of DSP_FLIP. -/
def effectDspFlip (c : Cmd) (t : State) : State :=
  let b := c.region
  addRequest
    { ref := ⟨c.fn, c.seq⟩, atTime := if bit (fieldAt b 2 1) 0 then some (timeAt b 0xC) else none
      plane := fieldAt b 1 1, kind := fieldAt b 0 1, rect := flipRect b
      data := bulkBytes layDspFlip b (fieldAt b 0x18 4) } c.target c t

/-- DSP_FLIP (12 R424, R425). -/
def execDspFlip (r : CmdRef) (s : State) : Host.Outcome State Fault Refusal :=
  .next (runCmd r 0x6003 flipCheck effectDspFlip s)

/-- Relations of `DSP.PALETTE`. -/
def paletteFaults (b : List Byte) : List Nat :=
  let n := fieldAt b 2 2
  faultIf (decide (256 < fieldAt b 1 1 + n)) 1 ++ faultIf (decide (b.length < 8 + 8 * n)) 2 ++
  (List.range n).flatMap fun i =>
    faultIf (bit (fieldAt b (8 + 8 * i) 4) 30 || bit (fieldAt b (8 + 8 * i) 4) 31 || fieldAt b (13 + 8 * i) 3 != 0) (8 + 8 * i)

/-- Checks of DSP_PALETTE. -/
def checkDspPalette (t : State) (c : Cmd) : Option Reply :=
  inOrder t c
    (firstFail [need (!pairRefuses t c) (badParam 0), blockFault layDspPalette c.region (paletteFaults c.region)]) none none none

/-- Effect of DSP_PALETTE. -/
def effectDspPalette (c : Cmd) (t : State) : State :=
  addRequest
    { ref := ⟨c.fn, c.seq⟩, atTime := none, plane := fieldAt c.region 0 1, kind := 2, rect := (fieldAt c.region 1 1, 0, 0, 0)
      data := bulkBytes layDspPalette c.region (8 * fieldAt c.region 2 2) } c.target c t

/-- DSP_PALETTE (12 'Flips'). -/
def execDspPalette (r : CmdRef) (s : State) : Host.Outcome State Fault Refusal :=
  .next (runCmd r 0x6004 checkDspPalette effectDspPalette s)

/-! ## Pictures of a plane (12 R422) -/

/-- The slots of a tap (06 R224). -/
def tapOf (s : State) (i k : Nat) : Tbl TapSlot := (stream s i).taps.getD k []

/-- The slot of a tap that holds a serial. -/
def slotOf (s : State) (i k serial : Nat) : Option TapSlot := (List.find? (fun e => e.2.serial == serial) (tapOf s i k)).map (·.2)

/-- A picture of a tap, as its slot was opened (07 R270). -/
def tapPic (e : Nat × TapSlot) : PlanePic :=
  let t := e.2.cfg
  { serial := e.2.serial, slot := e.1, format := t.format, width := t.outW, height := t.outH
    base := e.2.base e.1, full := t.full, bt2020 := is2020 t.encoding (fieldAt e.2.blk 0x1A 1) }

/-- Whether a serial is newer than a picture's (12 R422). -/
def newerPic (cur : Option PlanePic) (serial : Nat) : Bool :=
  match cur with
  | none => true
  | some p => p.serial != serial && decide ((serial + 65536 - p.serial) % 65536 < 32768)

/-- The best of a list under an order. -/
def bestBy {α : Type} (better : α → α → Bool) : List α → Option α
  | [] => none
  | a :: l => some (l.foldl (fun m e => if better e m then e else m) a)

/-- The picture that a plane of SOURCE 0 takes. -/
def takeTap (s : State) (x : PlaneCfg) (cur : Option PlanePic) : Option PlanePic :=
  let ok := fun (e : Nat × TapSlot) =>
    newerPic cur e.2.serial && if x.hold then e.2.state == 1 else decide (x.leadRows ≤ e.2.rows)
  (bestBy (fun a b : Nat × TapSlot => decide ((a.2.serial + 65536 - b.2.serial) % 65536 < 32768)) ((tapOf s x.stream x.tap).filter ok)).map tapPic

/-- The pictures of a decode ring that are published and not freed, in output order (09 R355). -/
def decPictures (d : DecSess) : List (Nat × DecPic) :=
  let slots := max 1 (fieldAt d.blk 0x10 2)
  (List.range ((d.wr + 65536 - d.rd) % 65536)).filterMap fun i =>
    let n := (d.rd + i) % 65536 % slots
    (Tbl.find? d.pics n).map fun p => (n, p)

/-- The picture that a plane of SOURCE 1 takes: the next in output order. -/
def takeDec (s : State) (x : PlaneCfg) (cur : Option PlanePic) : Option PlanePic :=
  match decSession s x.stream with
  | none => none
  | some d =>
    ((decPictures d).find? fun e => newerPic cur (e.2.count % 65536)).map fun e =>
      { serial := e.2.count % 65536, slot := e.1, format := e.2.format, width := e.2.width, height := e.2.height
        base := fieldAt d.blk 8 8 + e.1 * fieldAt d.blk 0x14 4, full := x.decFull
        bt2020 := x.decEncoding != 1 }

/-- The new picture of a plane at a flip point, where it takes one. -/
def takePicture (s : State) (x : PlaneCfg) (cur : Option PlanePic) : Option PlanePic :=
  if !x.enable then none else if x.source = 0 then takeTap s x cur else takeDec s x cur

/-- Whether frames were passed over between two pictures of a plane (12 R423). -/
def skipped (s : State) (x : PlaneCfg) (cur new : Option PlanePic) : Bool :=
  match cur, new with
  | some a, some b =>
    x.source == 0 && decide (((tapIn s.cfg.active x.stream x.tap).map (·.div)).getD 1 < (b.serial + 65536 - a.serial) % 65536)
  | _, _ => false

/-- Rows of a plane's picture that are written: all of a picture that is not in a tap's slot any more. -/
def writtenRows (s : State) (x : PlaneCfg) (p : PlanePic) : Nat :=
  if x.source = 0 then ((slotOf s x.stream x.tap p.serial).map (·.rows)).getD p.height else p.height

/-- Verdict word of a plane's frame; 0 for SOURCE 1 (12 R435). -/
def picVerdict (s : State) (x : PlaneCfg) (p : PlanePic) : Nat :=
  if x.source = 0 then ((slotOf s x.stream x.tap p.serial).map (·.verdict)).getD 0 else 0

/-! ## The scene of a head -/

/-- The video planes of a head as it shows them, with the rows written at the flip point. Which of the rows written later the scan
reached too early is an open value (00 R649, log 6). -/
def videoViews (s : State) (h : Nat) (start : List Nat) : List VideoView :=
  (List.range 2).filterMap fun k =>
    match planeIn s.cfg.active h k, ((head s h).vids.getD k none) with
    | some x, some p => if x.enable then
        some { x := x.x, y := x.y, cur := p, prev := (head s h).prev.getD k none, rows := writtenRows s x p
               start := start.getD k 0, early := Config.freeNat (s.freeCtr + k) } else none
    | _, _ => none

/-- First address of an overlay's buffer. -/
def overlayBuffer (x : PlaneCfg) (n : Nat) : Nat := x.ovBase + n * alignUp (x.ovW * x.ovH) 4096

/-- The overlay planes of a head as it shows them: transparent until their first update (12 R416). -/
def overlayViews (s : State) (h : Nat) : List OverlayView :=
  (List.range 2).filterMap fun k =>
    match planeIn s.cfg.active h (k + 2), ((head s h).front.getD k none) with
    | some x, some n => if x.enable then
        some { x := x.x, y := x.y, zoom := x.zoom, w := x.ovW, h := x.ovH, base := overlayBuffer x n
               palette := (head s h).palette.getD k [] } else none
    | _, _ => none

/-- What a head composes. -/
def sceneOf (s : State) (h : Nat) (start : List Nat) : Scene :=
  { background := fieldAt ((activeBlk s 0x6001 h 0).getD []) 0x20 4, videos := videoViews s h start, overlays := overlayViews s h }

/-- FALLBACK of a head. -/
def fallbackOf (s : State) (h : Nat) : Nat := fieldAt ((activeBlk s 0x6001 h 0).getD []) 0x1C 4

/-! ## Fallback (12 R437) -/

/-- The head that signals for a head: H0 for the pair (12 R439). -/
def signalHead (s : State) (h : Nat) : Nat := if h = 1 ∧ pairIn s.cfg.active then 0 else h

/-- Marks the whole raster of a panel. -/
def markAll (h : Nat) (s : State) : State :=
  match headIn s.cfg.active h with
  | some c =>
    if isSdi h then s else modHead h (fun y => { y with cells := markCells c.width c.height (0, 0, c.width, c.height) y.cells }) s
  | none => s

/-- The causes of a head's fallback; a panel whose fallback begins or ends is pushed whole. -/
def setFallback (h : Nat) (l : List Nat) (s : State) : State :=
  let s1 := modHead h (fun x => { x with fallback := l }) s
  if (head s h).fallback.isEmpty == l.isEmpty then s1 else markAll h s1

/-- Fallback that begins within a head frame shows from the next line on; which line that is stays open (12 R437, log 6). -/
def fallBackRow (h : Nat) (s : State) : State :=
  if (head s h).fbRow.isSome ∨ (head s (signalHead s h)).current.isNone then s
  else bump (modHead h (fun x => { x with fbRow := some (draw s (((headIn s.cfg.active (signalHead s h)).map (·.height)).getD 0)) }) s)

/-- A head shows its fallback colour for a cause that it did not have. -/
def fallBack (h cause : Nat) (s : State) : State :=
  if (head s h).fallback.contains cause then s
  else
    let k := signalHead s h
    raise (496 + 8 * k + 3) (unitEvent 0x6002 0x60 k none (h + 4 * cause + 2 ^ 32 * ((head s k).frames % 2 ^ 32))
      (fallBackRow h (setFallback h ((head s h).fallback ++ [cause]) s)))

/-- The causes of R437 that hold at a flip point; a buffer that ran empty counts until the end of its head frame. -/
def causesNow (s : State) (h : Nat) : List Nat :=
  (if safeOf s (myUnit s 0x60 h) = 2 then [0] else []) ++ (if portShed s (4 + h) then [1] else []) ++
    if s.thm.stop ≠ 0 then [3] else []

/-- Brings the causes of a head up to date at a flip point. -/
def judgeFallback (h : Nat) (s : State) : State :=
  let now := causesNow s h
  let s1 := now.foldl (fun t c => fallBack h c t) (setFallback h ((head s h).fallback.filter now.contains) s)
  modHead h (fun x => { x with fbRow := if x.fallback.isEmpty then none else some 0 }) s1

/-! ## The end of a head frame -/

/-- The colour description of the first enabled video plane of a head (12 R411, log 30). -/
def headColour (s : State) (h : Nat) : Option (List Nat) :=
  ((List.range 2).filterMap fun k => match planeIn s.cfg.active h k with
    | some x =>
      if !x.enable then none
      else if x.source = 1 then some (h273Of x.decEncoding)
      else if x.source = 0 then (blkIn s.cfg.active 0x2104 x.stream x.tap).map h273
      else none
    | none => none).head?

/-- Colorimetry and transfer fields of the payload identifier (12 R411): colorimetry 0 BT.709, 2 BT.2020, 3 unknown; transfer
0 SDR, 1 HLG, 2 PQ, 3 unspecified, as SMPTE ST 352 codes them (log 30). -/
def payloadColour (d : List Nat) : Nat × Nat :=
  (if d.getD 0 0 = 1 then 0 else if d.getD 0 0 = 9 then 2 else 3,
    if d.getD 1 0 = 16 then 2 else if d.getD 1 0 = 18 then 1 else if d.getD 1 0 = 1 ∨ d.getD 1 0 = 14 then 0 else 3)

/-- The interface standard of a raster and rate by its ST number: 292-1, 425-1, 2081-10, 2082-10, 2082-11 (12 R410). -/
def sdiStandard (c : HeadCfg) : Nat :=
  if c.links = 2 then 208211
  else if c.width = 1920 then (if slowPeriods.contains c.period then 2921 else 4251)
  else if slowPeriods.contains c.period then 208110 else 208210

/-- The payload identifiers of a head's lanes; a lane that mirrors another sends that one's. With no video plane enabled the colour
fields are open (12 R409, R411, log 30). -/
def payloadIds (s : State) (h : Nat) (c : HeadCfg) (lanes : List Nat) : List PayloadId :=
  let col := match headColour s (signalHead s h) with
    | some d => payloadColour d
    | none => (draw (bump (bump s)) 3, draw (bump (bump (bump s))) 3)
  lanes.map fun l =>
    { standard := sdiStandard c, period := c.period, link := if c.links = 2 ∧ l % 2 = 1 then 1 else 0, colorimetry := col.1, transfer := col.2 }

/-- Whether a row of the head frame in progress shows the fallback colour (12 R437). -/
def rowFallsBack (s : State) (h y : Nat) : Bool := match (head s h).fbRow with
  | some k => decide (k ≤ y)
  | none => false

/-- Lanes that send a copy of one of some lanes: the second lanes of single-link heads whose MIRROR names them (12 R409). -/
def mirrorLanes (s : State) (l : List Nat) : List Nat :=
  ([0, 1].filter fun h => match headIn s.cfg.active h with
    | some c => c.links == 1 && l.contains c.mirror && !l.contains (2 * h + 1)
    | none => false).map fun h => 2 * h + 1

/-- The SDI lanes that carry a head's frame: its own, those that mirror them, and those that mirror these (12 R409). -/
def sdiLanes (s : State) (h links : Nat) : List Nat :=
  let own := headLanes h links
  let l := own ++ mirrorLanes s own
  l ++ mirrorLanes s l

/-- What an SDI head sent in a head frame, from its column `x0` on. -/
def sdiOut (s : State) (scene : Scene) (h x0 frame : Nat) (c : HeadCfg) : Out :=
  .sdi h (sdiLanes s h c.links) frame (head s h).fbRow.isSome (payloadIds s h c (sdiLanes s h c.links))
    ((List.range c.height).map fun y =>
      if rowFallsBack s h y then flatRow (fallbackOf s (signalHead s h)) x0 c.width else sdiRow s scene x0 c.width y)

/-- A row of a rectangle that a DSI head pushes. -/
def pushedRow (s : State) (scene : Scene) (h n : Nat) (r : Nat × Nat × Nat × Nat) (j : Nat) : List (Nat × Nat × Nat) :=
  let fb := fallbackOf s h
  if rowFallsBack s h (r.2.1 + j) then
    List.replicate r.2.2.1 (toRgb false false n (component fb 0) (component fb 1) (component fb 2))
  else dsiRow s scene n r.1 r.2.2.1 (r.2.1 + j)

/-- What a DSI head pushed in a head frame (12 R428, R430). -/
def dsiOut (s : State) (scene : Scene) (h : Nat) (c : HeadCfg) (rects : List (Nat × Nat × Nat × Nat)) : Out :=
  .dsi h (rects.flatMap fun r => rectPackets c.format r
    ((List.range r.2.2.2).map (pushedRow s scene h (if c.format = 0 then 8 else 10) r)))

/-- The bytes of a flip record (12 R435). -/
def flipRecord (f : FlipRec) (verdict under : Nat) : List Byte :=
  leBytes 4 f.frame ++ leBytes 2 f.v0 ++ leBytes 2 f.v1 ++ timeBytes f.time ++ leBytes 2 verdict ++ leBytes 2 f.flags ++
    leBytes 2 (min under 65535) ++ leBytes 4 f.push ++ leBytes 4 0

/-- Rows of a head's video planes that are written. -/
def rowsNow (s : State) (h : Nat) : List Nat :=
  (List.range 2).map fun k => match planeIn s.cfg.active h k, (head s h).vids.getD k none with
    | some x, some p => writtenRows s x p
    | _, _ => 0

/-- The rectangle of a view in the raster. -/
def viewRect (v : VideoView) : Nat × Nat × Nat × Nat := (v.x, v.y, v.cur.width, v.cur.height)

/-- A video plane of a retracted frame was shown: the event, once for each picture; on a DSI head its cells change
(06 R226, 12 R432). -/
def tellRetracted (h k frame : Nat) (c : HeadCfg) (s : State) : State :=
  match planeIn s.cfg.active h k, (head s h).vids.getD k none with
  | some x, some p =>
    let v := picVerdict s x p
    if p.told || !bit v 0 then s
    else
      let s1 := modHead h (fun y => { y with
        vids := y.vids.set k (some { p with told := true })
        cells := if isSdi h then y.cells else markCells c.width c.height (x.x, x.y, p.width, p.height) y.cells }) s
      raise (496 + 8 * h + 1) (unitEvent 0x6001 0x60 h none (p.serial + 2 ^ 16 * v + 2 ^ 32 * (frame % 2 ^ 32)) s1)
  | _, _ => s

/-- Rows that the scan or the push reached before they were written (06 R226). -/
def underrunRows (s : State) (h : Nat) (f : FlipRec) : Nat := ((videoViews s h f.written).map fun v => v.lateRows.length).sum

/-- The underrun of a head frame: event and source; on a DSI head the missing rows stay changed (12 R432, R438, R439). -/
def tellUnderrun (h n frame : Nat) (late : List VideoView) (c : HeadCfg) (s : State) : State :=
  let s1 := if isSdi h then s else modHead h (fun y => { y with
    cells := late.foldl (fun t v => v.lateRows.foldl (fun u r =>
      markCells c.width c.height (v.x, v.y + r, v.cur.width, 1) u) t) y.cells }) s
  if n = 0 then s1
  else raise (496 + 8 * h + 2) (unitEvent 0x6003 0x60 h none (h + 2 ^ 16 * min n 65535 + 2 ^ 32 * (frame % 2 ^ 32)) s1)

/-- What a head frame sent, once it has ended. -/
def emitFrame (h : Nat) (c : HeadCfg) (f : FlipRec) (s : State) : State :=
  let scene := sceneOf s h f.written
  if isSdi h then
    let s1 := emit (sdiOut s scene h 0 f.frame c) s
    if h = 0 ∧ c.lock then emit (sdiOut s scene 1 c.width f.frame c) s1 else s1
  else
    let s1 := if f.rects.isEmpty then s else emit (dsiOut s scene h c f.rects) s
    f.packets.foldl (fun t p => emit (.dsiPacket h p) t) s1

/-- The reads of a head's planes (10 R390). -/
def touchPlanes (h : Nat) (s : State) : State :=
  let t := ((head s h).vids.filterMap id).foldl (fun u p => hbmTouch p.base (pictureBytes p.format p.width p.height) u) s
  (overlayViews s h).foldl (fun u o => hbmTouch o.base (o.w * o.h) u) t

/-- Ends the head frame in progress: what it sent, its flip record, its events (12 R435, 06 R226). -/
def endHeadFrame (h : Nat) (s : State) : State :=
  match (head s h).current, headIn s.cfg.active h with
  | some f, some c =>
    let u := underrunRows s h f
    let verdict := match planeIn s.cfg.active h 0, (head s h).vids.getD 0 none with
      | some x, some p => picVerdict s x p
      | _, _ => 0
    let fb := (head s h).fbRow.isSome || (h == 0 && c.lock && (head s 1).fbRow.isSome)
    let f1 := { f with flags := if fb then f.flags ||| 0x40 else f.flags }
    let s1 := bump (bump (bump (bump (emitFrame h c f s))))
    let s2 := hbmWrite (c.ringBase + (head s h).flips % max 1 c.ringSlots * 32) (flipRecord f1 verdict u) s1
    let s3 := setFallback h ((head s2 h).fallback.filter (· != 2))
      (modHead h (fun y => { y with flips := (y.flips + 1) % 2 ^ 32, current := none, fbRow := none }) (touchPlanes h s2))
    tellUnderrun h u f.frame (videoViews s h f.written) c (tellRetracted h 1 f.frame c (tellRetracted h 0 f.frame c s3))
  | _, _ => modHead h (fun y => { y with current := none }) s

/-! ## A flip point -/

/-- Whether a commit restarts a head (12 R415). -/
def restarts (a b : HeadCfg) : Bool :=
  a.width != b.width || a.height != b.height || a.period != b.period || a.links != b.links || a.sync != b.sync ||
    a.lock != b.lock

/-- A head restarts: the count of head frames, the event and the source. -/
def restartHead (h period : Nat) (s : State) : State :=
  raise (496 + 8 * h + 6) (unitEvent 0x6007 0x60 h none (h + 2 ^ 32 * period)
    (modHead h (fun y => { y with frames := 0, lastStart := none }) s))

/-- Whether two configurations of a plane show the same source; one that is not enabled shows none. -/
def sameSource (a b : Option PlaneCfg) : Bool :=
  match a, b with
  | some x, some y => y.enable && x.source == y.source && x.stream == y.stream && x.tap == y.tap
  | _, _ => false

/-- The other half of a pair that a commit of H0 locks or unlocks restarts with it; unlocked, it tells so itself (12 R415, R439). -/
def restartHalf (h : Nat) (before after : Tbl CfgVal) (s : State) : State :=
  if h ≠ 0 ∨ pairIn before = pairIn after then s
  else match headIn after 1 with
    | some b => if pairIn after then modHead 1 (fun y => { y with frames := 0, lastStart := none }) s else restartHead 1 b.period s
    | none => modHead 1 (fun y => { y with frames := 0, lastStart := none }) s

/-- A head takes its committed configuration into use, H0 with that of H1 where the two are a pair before or after (02 R69,
12 R415, R426): a plane of another source has no picture yet, and a change of planes marks the whole raster of a panel (12
R429). -/
def switchHead (h : Nat) (s : State) : State :=
  let both := h == 0 && (pairIn s.cfg.active || pairIn s.cfg.committed)
  let s1 := switchKeys (fun k => keyOp k / 256 == 0x60 && (keyUnit k == h || (both && keyUnit k == 1))) s
  let keep := fun k => sameSource (planeIn s.cfg.active h k) (planeIn s1.cfg.active h k)
  let changed := (List.range 4).any (fun k => planeIn s.cfg.active h k != planeIn s1.cfg.active h k) ||
    headIn s.cfg.active h != headIn s1.cfg.active h
  let s2 := modHead h (fun y => { y with
    vids := y.vids.zipIdx.map fun e => if keep e.2 then e.1 else none
    prev := y.prev.zipIdx.map fun e => if keep e.2 then e.1 else none
    cells := match headIn s1.cfg.active h with
      | some c => if changed then markCells c.width c.height (0, 0, c.width, c.height) y.cells else y.cells
      | none => y.cells }) s1
  match headIn s.cfg.active h, headIn s1.cfg.active h with
  | some a, some b => restartHalf h s.cfg.active s1.cfg.active (if restarts a b then restartHead h b.period s2 else s2)
  | _, _ => restartHalf h s.cfg.active s1.cfg.active s2

/-- A video plane takes its picture at a flip point (12 R422). -/
def flipPlane (h k : Nat) (c : HeadCfg) (s : State) : State :=
  match planeIn s.cfg.active h k with
  | none => s
  | some x =>
    match takePicture s x ((head s h).vids.getD k none) with
    | none => s
    | some p =>
      modHead h (fun y => { y with
        prev := y.prev.set k (y.vids.getD k none)
        vids := y.vids.set k (some p)
        cells := if isSdi h then y.cells else markCells c.width c.height (x.x, x.y, p.width, p.height) y.cells }) s

/-- Whether an update is due at a flip time (12 R424). -/
def flipDue (t : Nat) (q : FlipReq) : Bool :=
  match q.atTime with
  | none => true
  | some a => decide (timeNs a ≤ t)

/-- Writes the rows of an overlay update into a buffer. -/
def overlayWrite (base ovW : Nat) (r : Nat × Nat × Nat × Nat) (data : List Byte) (s : State) : State :=
  (List.range r.2.2.2).foldl (fun t j =>
    hbmWrite (base + (r.2.1 + j) * ovW + r.1) ((data.drop (j * r.2.2.1)).take r.2.2.1) t) s

/-- An overlay update: into the back buffer, a swap, and into the new back buffer (12 R424). -/
def applyOverlay (h : Nat) (c : HeadCfg) (q : FlipReq) (s : State) : State :=
  match planeIn s.cfg.active h q.plane with
  | none => s
  | some x =>
    let k := q.plane - 2
    let n := ((head s h).front.getD k none).getD 1
    let s1 := overlayWrite (overlayBuffer x n) x.ovW q.rect q.data (overlayWrite (overlayBuffer x (1 - n)) x.ovW q.rect q.data s)
    let r := (x.x + x.zoom * q.rect.1, x.y + x.zoom * q.rect.2.1, x.zoom * q.rect.2.2.1, x.zoom * q.rect.2.2.2)
    modHead h (fun y => { y with
      front := y.front.set k (some (1 - n))
      cells := if isSdi h then y.cells else markCells c.width c.height r y.cells }) s1

/-- A palette update (12 'Flips', R429). -/
def applyPalette (h : Nat) (c : HeadCfg) (q : FlipReq) (s : State) : State :=
  let k := q.plane - 2
  let add := fun (t : Tbl Nat) => (List.range (q.data.length / 8)).foldl (fun a i =>
    Tbl.put 0 a (q.rect.1 + i) (fieldAt q.data (8 * i) 5)) t
  modHead h (fun y => { y with
    palette := y.palette.modify k add
    cells := match planeIn s.cfg.active h q.plane with
      | some x => if isSdi h then y.cells
          else markCells c.width c.height (x.x, x.y, x.zoom * x.ovW, x.zoom * x.ovH) y.cells
      | none => y.cells }) s

/-- RESULT1 of `DSP.FLIP` (12 'Flips'). -/
def flipResult1 (t : Time) : Nat := t.nsec + 2 ^ 32 * (t.sec % 2 ^ 32)

/-- Answers an update at the flip point where it applied. -/
def answerFlip (h : Nat) (t : Time) (q : FlipReq) (s : State) : State :=
  match findCmd s q.ref with
  | some c =>
    if q.kind = 2 then complete c {} s
    else complete c (okReply ((head s h).frames % 2 ^ 32) (flipResult1 t)) (raise (496 + 8 * h + 5) s)
  | none => s

/-- Applies one due update; a DSI packet waits for the end of the push (12 R425). -/
def applyRequest (h : Nat) (c : HeadCfg) (t : Time) (q : FlipReq) (s : State) : State :=
  answerFlip h t q (match q.kind with
    | 0 => applyOverlay h c q s
    | 2 => applyPalette h c q s
    | _ => s)

/-- The updates due at a flip point, in order (12 R424). -/
def applyRequests (h : Nat) (c : HeadCfg) (t : Time) (due : List FlipReq) (s : State) : State :=
  due.foldl (fun u q => applyRequest h c t q u)
    (modHead h (fun y => { y with requests := y.requests.filter fun q => !due.contains q }) s)

/-- What a DSI head pushes: its changed rectangles, and its idle count and ULPS (12 R430, R431). -/
def pushFrame (h : Nat) (c : HeadCfg) (packets : Bool) (s : State) : State × List (Nat × Nat × Nat × Nat) :=
  if isSdi h then (s, [])
  else
    let r := changedRects c.width c.height (head s h).cells
    (modHead h (fun y =>
      let idle := if r.isEmpty then y.idle + 1 else 0
      { y with cells := [], idle := idle
               ulps := (r.isEmpty && !packets) && (y.ulps || (bit c.flags 1 && decide (c.ulpsFrames ≤ idle))) }) s, r)

/-- The flip time: the flip point, or the first packet of a push, which follows the ULPS exit of 1 ms (12 R431, R436), with
the uncertainty of 01 R31. -/
def flipTime (s : State) (h : Nat) (afterUlps : Bool) : Time :=
  let u := Config.capturePeriod (2 + h)
  toTime (selectedUnits s + (draw s (2 * u) : Nat) - u + if afterUlps then 1000000 * 2 ^ 32 else 0)

/-- FLAGS of a flip record at the flip point (12 R435). -/
def flipFlags (s s1 : State) (h : Nat) (due : List FlipReq) (noPush pair : Bool) : Nat :=
  let vid (t : State) (k : Nat) : Option PlanePic := (head t h).vids.getD k none
  let isNew (k : Nat) : Bool := (vid s1 k).isSome && (vid s k).map (·.serial) != (vid s1 k).map (·.serial)
  let same (k : Nat) : Bool := (vid s1 k).isSome && !isNew k
  let skip : Bool := match planeIn s1.cfg.active h 0 with
    | some x => isNew 0 && skipped s1 x (vid s 0) (vid s1 0)
    | none => false
  b2n (isNew 0) + 2 * b2n (same 0) + 4 * b2n skip + 8 * b2n (isNew 1) + 16 * b2n (same 1) +
    32 * b2n (due.any fun q => q.kind != 1) + 128 * b2n noPush + 256 * b2n pair

/-- The newest start of a head frame that its timing calls for, in ns: under SYNC 1 PHASE_NS after the last edge of the genlock
reference, or after its continuation at the last measured period; under SYNC 2 a time START_TIME + PHASE_NS + k × FRAME_PERIOD_NS
of F (12 R412, R413). Free run follows the crystal, which State holds no clock of (log 3). -/
def frameGrid (s : State) (h : Nat) (c : HeadCfg) : Option Int :=
  let y := head s h
  let newest (base t period : Int) : Int := if period ≤ 0 then base else base + (t - base) / period * period
  if c.sync = 2 then some (newest ((timeNs c.start : Int) + c.phaseNs) (frameNs s) c.period)
  else if c.sync = 1 then y.edge.map fun e =>
    let base := e - y.phaseErr + c.phaseNs
    if y.genlockLost then newest base (nowNs s) y.measured else base
  else none

/-- Whether the flip point of a head has come: its frame starts at a time of the grid that has passed and has begun no frame yet; so
does that of a panel's internal timer, where no TE edge gives its own (12 R412, R421). -/
def frameDue (s : State) (h : Nat) : Bool :=
  match headIn s.cfg.active h with
  | none => true
  | some c =>
    if !isSdi h && bit c.flags 0 then true
    else match frameGrid s h c with
      | some g => decide (g ≤ if c.sync = 2 then (frameNs s : Int) else nowNs s) && match (head s h).lastStart with
          | some l => decide (l < g)
          | none => true
      | none => c.sync != 1 || (head s h).genlockLost

/-- The flip point itself, under the configuration in use (12 R421-R436). -/
def beginHeadFrame (h : Nat) (c : HeadCfg) (s : State) : State :=
  let s0 := judgeFallback h (if h = 0 ∧ c.lock then judgeFallback 1 s else s)
  let s1 := modHead h (fun y => { y with frames := y.frames + 1, lastStart := frameGrid s h c }) s0
  let s2 := if safeOf s (myUnit s 0x60 h) = 2 then s1 else flipPlane h 1 c (flipPlane h 0 c s1)
  let pic (k : Nat) : Nat := (((head s2 h).vids.getD k none).map (·.serial)).getD 0
  let due := (head s2 h).requests.filter (flipDue (nowNs s2))
  let packets := (due.filter (·.kind == 1)).map (·.data)
  let pushes := !(pushFrame h c true (applyRequests h c ⟨0, 0⟩ due s2)).2.isEmpty
  let t := flipTime s2 h ((head s2 h).ulps && pushes)
  let s3 := bump (applyRequests h c t due s2)
  let (s4, rects) := pushFrame h c (!packets.isEmpty) s3
  let f : FlipRec :=
    { frame := (head s4 h).frames % 2 ^ 32, v0 := pic 0, v1 := pic 1, time := t
      flags := flipFlags s1 s4 h due (!isSdi h && rects.isEmpty) (h == 0 && c.lock)
      written := rowsNow s4 h, rects := rects, push := (rects.map (pushBytes (dsiBits c.format))).sum, packets := packets }
  raise (496 + 8 * h) (modHead h (fun y => { y with current := some f }) s4)

/-- FLIP_POINT (12 R412, R415, R421-R437): H1 of a locked pair flips with H0. -/
def execFlipPoint (head : Nat) (s : State) : Host.Outcome State Fault Refusal :=
  .next (if !enginesClocked s || decide (3 < head) || !frameDue s head then s
    else
      let s1 := switchHead head (endHeadFrame head s)
      if head = 1 ∧ pairIn s1.cfg.active then s1
      else match headIn s1.cfg.active head with
        | some c => beginHeadFrame head c s1
        | none => s1)

/-! ## Genlock and TE (12 R412, R413, R434) -/

/-- Heads that take their timing from genlock. -/
def genlocked (s : State) (h : Nat) : Bool := ((headIn s.cfg.active h).map fun c => c.sync == 1).getD false

/-- The offset of an edge from a head's continued timing: the nearest of its periods. -/
def phaseOff (t e m : Int) : Int :=
  if m ≤ 0 then 0 else
    let d := (t - e) % m
    if m < 2 * d then d - m else d

/-- Genlock lost or regained: the event, and on an SDI head its source (12 R413, R439). -/
def tellGenlock (code h : Nat) (s : State) : State :=
  let s1 := unitEvent code 0x60 h none h s
  if isSdi h then raise (496 + 8 * signalHead s h + 4) s1 else s1

/-- A genlock edge at a head (12 R412, R413): what the edge lies off the head's timing is taken up at no more than 1 µs in a second,
whether an edge jumped or edges return after a loss. The period measured is the last that two edges in a row have had. -/
def onEdge (t : Int) (h : Nat) (s : State) : State :=
  let y := head s h
  match y.edge with
  | none => modHead h (fun z => { z with edge := some t }) s
  | some e =>
    let d := t - e
    let rate := (d / 1000000).toNat
    let m := if y.measured ≤ 0 then d else y.measured
    let off := towards (y.phaseErr + phaseOff t e m) 0 rate
    let s1 := modHead h (fun z =>
      { z with edge := some t, gap := d, phaseErr := off, measured := if (d - y.gap).natAbs ≤ rate then d else m
               genlockLost := z.genlockLost && decide (10 < off.natAbs) }) s
    if y.genlockLost && decide (off.natAbs ≤ 10) then tellGenlock 0x6005 h s1 else s1

/-- GENLOCK_EDGE (12 R412). -/
def execGenlockEdge (s : State) : Host.Outcome State Fault Refusal :=
  .next (if enginesClocked s then
    let time := timeNs (stampTime s 48 0)
    [0, 1, 2, 3].foldl (fun t h => if genlocked s h then onEdge time h t else t) s else s)

/-- GENLOCK_LOST (12 R413): the head goes on at its last measured period. -/
def execGenlockLost (head : Nat) (s : State) : Host.Outcome State Fault Refusal :=
  .next (if enginesClocked s && genlocked s head && !(Machine.head s head).genlockLost then
    tellGenlock 0x6004 head (modHead head (fun y => { y with genlockLost := true }) s) else s)

/-- TE_MISSING (12 R434): the head runs from its internal timer. -/
def execTeMissing (head : Nat) (s : State) : Host.Outcome State Fault Refusal :=
  .next (match headIn s.cfg.active head with
    | some c =>
      if enginesClocked s && !isSdi head && bit c.flags 0 then
        raise (496 + 8 * head + 4) (unitEvent 0x6006 0x60 head none head s) else s
    | none => s)

end Sys2Proof.Machine
end

