-- ==== Sys2Proof/Machine/Hevc.lean ====
section
/-! DEFINITION. H.265 syntax as far as the spec states what it holds (09 R326-R328, R332, R338, R339, R357): NAL units, parameter
sets, slice headers and SEI messages are read, and what an encode session writes is held against the rules. The syntax is that of
ITU-T H.265 clauses 7.3, D.2 and E.2 (log 37). -/

namespace Sys2Proof.Machine

/-! ## Bits -/

/-- A reader of a bit string; it fails at the end or at a value out of range. -/
abbrev Reader := StateT (List Bool) Option

/-- The bits of bytes, most significant first. -/
def bitsOf (b : List Byte) : List Bool := b.flatMap fun x => (List.range 8).map fun i => x.getLsbD (7 - i)

/-- u(n). -/
def readU (n : Nat) : Reader Nat := fun l =>
  if l.length < n then none else some ((l.take n).foldl (fun a b => 2 * a + b2n b) 0, l.drop n)

/-- A flag. -/
def readFlag : Reader Bool := do return (← readU 1) == 1

/-- ue(v). -/
def readUe : Reader Nat := fun l =>
  let z := (l.takeWhile (!·)).length
  if 31 < z then none else (readU (z + 1)).run (l.drop z) |>.map fun r => (r.1 - 1, r.2)

/-- se(v). -/
def readSe : Reader Int := do
  let k ← readUe
  return if k % 2 = 1 then ((k + 1) / 2 : Nat) else -((k / 2 : Nat) : Int)

/-- Fails unless a condition holds. -/
def insist (p : Bool) : Reader Unit := fun l => if p then some ((), l) else none

/-- Repeats a reader. -/
def readMany {α : Type} (r : Reader α) : Nat → Reader (List α)
  | 0 => return []
  | n + 1 => do
    let x ← r
    return x :: (← readMany r n)

/-- A reader of what a flag announces. -/
def readIf {α : Type} (p : Bool) (r : Reader α) : Reader (Option α) := if p then some <$> r else return none

/-! ## NAL units -/

/-- Type of a NAL unit. -/
def nalType (n : List Byte) : Nat := (n.getD 0 0).toNat / 2 % 64

/-- The raw payload of a NAL unit: emulation prevention bytes are left out. -/
def rbsp : List Byte → Nat → List Byte
  | [], _ => []
  | b :: l, z => if z ≥ 2 ∧ b = 3 then rbsp l 0 else b :: rbsp l (if b = 0 then z + 1 else 0)

/-- Bits of a NAL unit after its header of two bytes. -/
def nalBits (n : List Byte) : List Bool := bitsOf (rbsp (n.drop 2) 0)

/-- The NAL units of a byte stream, each with its offset: they lie between start codes 00 00 01; zero bytes before a start
code belong to none (H.265 Annex B). -/
def nalUnits (b : List Byte) : List (Nat × List Byte) :=
  let starts := (List.range b.length).filter fun i => (b.drop i).take 3 == [0, 0, 1]
  (List.range starts.length).map fun k =>
    let o := starts.getD k 0 + 3
    let e := starts.getD (k + 1) b.length
    (o, (((b.drop o).take (e - o)).reverse.dropWhile (· == 0)).reverse)

/-! ## Parameter sets -/

/-- General profile, tier and level of a profile_tier_level structure. -/
structure Ptl where
  profile : Nat
  high : Bool
  level : Nat
deriving DecidableEq, Repr

/-- profile_tier_level with its sub-layers. -/
def readPtl (subLayers : Nat) : Reader Ptl := do
  let _ ← readU 2
  let high ← readFlag
  let profile ← readU 5
  let _ ← readU 80
  let level ← readU 8
  let subs ← readMany (do return (← readFlag, ← readFlag)) subLayers
  let _ ← readU (if subLayers = 0 then 0 else 2 * (8 - subLayers))
  let _ ← subs.foldlM (fun _ f => readU (88 * b2n f.1 + 8 * b2n f.2)) 0
  return { profile := profile, high := high, level := level }

/-- HRD parameters (H.265 E.2.2): whether they are those of decoding units too; the scales of bit rates and buffer sizes;
the lengths of the initial, removal and output delays; each buffer with its bit rate, its size and cbr_flag; and how many
buffers the highest sub-layer has. -/
structure Hrd where
  sub : Bool
  scales : Nat × Nat
  lens : Nat × Nat × Nat
  cpbs : List (Nat × Nat × Bool)
  top : Nat
deriving DecidableEq, Repr

/-- The video usability information of an SPS that the spec names (09 R328): full range flag, colour description, whether pictures
carry field information, ticks and time scale, and HRD parameters where they are there. -/
structure Vui where
  fullRange : Bool := false
  colour : Option (List Nat) := none
  fields : Bool := false
  timing : Option (Nat × Nat) := none
  hrd : Option Hrd := none
deriving DecidableEq, Repr

/-- The HRD parameters of one sub-layer: bit_rate_value, cpb_size_value and cbr_flag of its buffers. -/
def readHrdLayer (kinds : Nat) (sub : Bool) : Reader (List (Nat × Nat × Bool)) := do
  let general ← readFlag
  let within ← if general then pure true else readFlag
  let _ ← readIf within readUe
  let low ← if within then pure false else readFlag
  let n ← if low then pure 0 else readUe
  insist (decide (n ≤ 31))
  let l ← readMany (readMany (do
    let rate ← readUe
    let size ← readUe
    let _ ← readIf sub (do return (← readUe, ← readUe))
    return (rate + 1, size + 1, ← readFlag)) (n + 1)) kinds
  return l.flatten

/-- hrd_parameters with common information, or with that of parameters before it: the numbers of kinds, then the rest. -/
def readHrd (common : Option (Nat × Hrd)) (subLayers : Nat) : Reader (Nat × Hrd) := do
  let (kinds, h) ← match common with
    | some c => pure c
    | none => do
      let nal ← readFlag
      let vcl ← readFlag
      if nal || vcl then
        let sub ← readFlag
        let _ ← readU (19 * b2n sub)
        let rate ← readU 4
        let size ← readU 4
        let _ ← readU (4 * b2n sub)
        let a ← readU 5
        let b ← readU 5
        let c ← readU 5
        pure (b2n nal + b2n vcl, ({ sub := sub, scales := (rate, size), lens := (a + 1, b + 1, c + 1), cpbs := [], top := 0 } : Hrd))
      else pure (0, ({ sub := false, scales := (0, 0), lens := (24, 24, 24), cpbs := [], top := 0 } : Hrd))
  let layers ← readMany (readHrdLayer kinds h.sub) (subLayers + 1)
  return (kinds, { h with
    cpbs := layers.flatten.map fun c => (c.1 * 2 ^ (6 + h.scales.1), c.2.1 * 2 ^ (4 + h.scales.2), c.2.2)
    top := ((layers.getLast?).getD []).length })

/-- vui_parameters. -/
def readVui (subLayers : Nat) : Reader Vui := do
  let _ ← readIf (← readFlag) (do if (← readU 8) = 255 then readU 32 else pure 0)
  let _ ← readIf (← readFlag) readFlag
  let signal ← readIf (← readFlag) (do
    let _ ← readU 3
    let full ← readFlag
    return (full, ← readIf (← readFlag) (readMany (readU 8) 3)))
  let _ ← readIf (← readFlag) (readMany readUe 2)
  let _ ← readU 2
  let fields ← readFlag
  let _ ← readIf (← readFlag) (readMany readUe 4)
  let timing ← readIf (← readFlag) (do
    let ticks ← readU 32
    let scale ← readU 32
    let _ ← readIf (← readFlag) readUe
    return (ticks, scale, ← readIf (← readFlag) (readHrd none subLayers)))
  let _ ← readIf (← readFlag) (do
    let _ ← readU 3
    readMany readUe 5)
  return { fullRange := (signal.map (·.1)).getD false, colour := signal.bind (·.2), fields := fields
           timing := timing.map fun t => (t.1, t.2.1), hrd := timing.bind fun t => t.2.2.map (·.2) }

/-- scaling_list_data. -/
def readScaling : Reader Unit := do
  let one (size : Nat) : Reader Unit := do
    if ← readFlag then
      let _ ← readIf (decide (1 < size)) readSe
      let _ ← readMany readSe (min 64 (2 ^ (4 + 2 * size)))
    else
      let _ ← readUe
  let _ ← readMany (one 0) 6
  let _ ← readMany (one 1) 6
  let _ ← readMany (one 2) 6
  let _ ← readMany (one 3) 2

/-- A short-term reference picture set: differences of picture order count, of the pictures before and then of those after, each
nearest first, with whether the picture itself refers to them. -/
abbrev Rps := List (Int × Bool)

/-- Puts a difference among others by its size. -/
def putRps (e : Int × Bool) : Rps → Rps
  | [] => [e]
  | x :: l => if e.1.natAbs ≤ x.1.natAbs then e :: x :: l else x :: putRps e l

/-- Differences in the order of a set. -/
def orderRps (l : Rps) : Rps :=
  (l.filter fun e => decide (e.1 < 0)).foldr putRps [] ++ (l.filter fun e => decide (0 < e.1)).foldr putRps []

/-- Differences from their steps, one way. -/
def runRps (sign : Int) : Int → List (Nat × Bool) → Rps
  | _, [] => []
  | d, e :: l => (d + sign * (e.1 + 1), e.2) :: runRps sign (d + sign * (e.1 + 1)) l

/-- Reads something for each entry of a list. -/
def readEach {α β : Type} (f : α → Reader β) : List α → Reader (List β)
  | [] => return []
  | a :: l => do
    let b ← f a
    return b :: (← readEach f l)

/-- st_ref_pic_set after other sets, in an SPS or in a slice header (H.265 7.3.7, 7.4.8). -/
def readRps (sets : List Rps) (slice : Bool) : Reader Rps := do
  let inter ← if sets.isEmpty then pure false else readFlag
  if inter then
    let back ← if slice then readUe else pure 0
    insist (decide (back < sets.length))
    let sign ← readFlag
    let size ← readUe
    let d : Int := if sign then -(size + 1 : Nat) else (size + 1 : Nat)
    let l ← readEach (fun e => do
      let used ← readFlag
      let keep ← if used then pure true else readFlag
      return ((e.1 + d, used), keep)) (sets.getD (sets.length - 1 - back) [] ++ [(0, false)])
    return orderRps ((l.filter (·.2)).map (·.1))
  else
    let neg ← readUe
    let pos ← readUe
    insist (decide (neg + pos ≤ 16))
    let a ← readMany (do return (← readUe, ← readFlag)) neg
    let b ← readMany (do return (← readUe, ← readFlag)) pos
    return runRps (-1) 0 a ++ runRps 1 0 b

/-- The short-term reference picture sets of an SPS. -/
def readRpsList : Nat → List Rps → Reader (List Rps)
  | 0, sets => return sets
  | n + 1, sets => do readRpsList n (sets ++ [← readRps sets false])

/-- What an SPS says (09 R326-R328, R338, R357): the size of its coded pictures, and the first column and row, the width and the
height of the conformance window. -/
structure Sps where
  id : Nat
  vps : Nat
  ptl : Ptl
  chroma : Nat
  coded : Nat × Nat
  corner : Nat × Nat
  width : Nat
  height : Nat
  bits : Nat × Nat
  pocBits : Nat
  reorder : List Nat
  blocks : List Nat
  scaling : Bool
  amp : Bool
  sao : Bool
  pcm : Bool
  rps : List Rps
  longTerm : Bool
  longRefs : List (Nat × Bool)
  tmvp : Bool
  vui : Option Vui
deriving DecidableEq, Repr

/-- seq_parameter_set_rbsp, up to its VUI. -/
def readSps : Reader Sps := do
  let vps ← readU 4
  let subs ← readU 3
  insist (decide (subs ≤ 6))
  let _ ← readFlag
  let ptl ← readPtl subs
  let id ← readUe
  insist (decide (id ≤ 15))
  let chroma ← readUe
  insist (decide (chroma ≤ 3))
  let _ ← readIf (chroma == 3) readFlag
  let w ← readUe
  let h ← readUe
  let win := ((← readIf (← readFlag) (readMany readUe 4)).getD [])
  let cw := if chroma = 1 ∨ chroma = 2 then 2 else 1
  let ch := if chroma = 1 then 2 else 1
  let bitsY ← readUe
  let bitsC ← readUe
  insist (decide (bitsY ≤ 8) && decide (bitsC ≤ 8))
  let poc ← readUe
  insist (decide (poc ≤ 12))
  let all ← readFlag
  let order ← readMany (readMany readUe 3) (if all then subs + 1 else 1)
  let blocks ← readMany readUe 6
  let scaling ← readFlag
  let _ ← readIf scaling (do readIf (← readFlag) readScaling)
  let amp ← readFlag
  let sao ← readFlag
  let pcm ← readFlag
  let _ ← readIf pcm (do
    let _ ← readU 8
    let _ ← readMany readUe 2
    readFlag)
  let sets ← readUe
  insist (decide (sets ≤ 64))
  let rps ← readRpsList sets []
  let long ← readFlag
  let longRefs ← readIf long (do
    let n ← readUe
    insist (decide (n ≤ 32))
    readMany (do return (← readU (poc + 4), ← readFlag)) n)
  let tmvp ← readFlag
  let _ ← readFlag
  let vui ← readIf (← readFlag) (readVui subs)
  return {
    id := id, vps := vps, ptl := ptl, chroma := chroma, coded := (w, h), corner := (cw * win.getD 0 0, ch * win.getD 2 0)
    width := w - cw * (win.getD 0 0 + win.getD 1 0)
    height := h - ch * (win.getD 2 0 + win.getD 3 0), bits := (8 + bitsY, 8 + bitsC), pocBits := poc + 4
    reorder := order.map fun o => o.getD 1 0, blocks := blocks.take 4, scaling := scaling, amp := amp, sao := sao, pcm := pcm
    rps := rps, longTerm := long, longRefs := longRefs.getD [], tmvp := tmvp, vui := vui }

/-- video_parameter_set_rbsp, up to its extensions: its number and its profile, tier and level. -/
def readVps : Reader (Nat × Ptl) := do
  let id ← readU 4
  let _ ← readU 8
  let subs ← readU 3
  insist (decide (subs ≤ 6))
  let _ ← readFlag
  insist ((← readU 16) == 0xFFFF)
  let ptl ← readPtl subs
  let all ← readFlag
  let _ ← readMany (readMany readUe 3) (if all then subs + 1 else 1)
  let most ← readU 6
  let sets ← readUe
  insist (decide (sets ≤ 1023))
  let _ ← readMany (readU (most + 1)) sets
  let _ ← readIf (← readFlag) (do
    let _ ← readU 64
    let _ ← readIf (← readFlag) readUe
    let n ← readUe
    insist (decide (n ≤ sets + 1))
    readVpsHrds subs none n)
  let _ ← readFlag
  return (id, ptl)
where
  /-- The HRD parameters of a VPS. -/
  readVpsHrds (subs : Nat) : Option (Nat × Hrd) → Nat → Reader Unit
    | _, 0 => return ()
    | before, n + 1 => do
      let _ ← readUe
      let own ← if before.isSome then readFlag else pure true
      readVpsHrds subs (some (← readHrd (if own then none else before) subs)) n

/-- What a PPS says (09 R326, R332): its tiles as columns and rows with their sizes where they are not uniform. -/
structure Pps where
  id : Nat
  sps : Nat
  dependent : Bool
  outputFlag : Bool
  extraBits : Nat
  transformSkip : Bool
  cuQpDelta : Bool
  weighted : Bool
  wavefront : Bool
  tiles : Option (Nat × Nat × Option (List Nat × List Nat))
  loopFilter : Bool
deriving DecidableEq, Repr

/-- The tiles of a PPS and loop_filter_across_tiles_enabled_flag. -/
def readTiles : Reader ((Nat × Nat × Option (List Nat × List Nat)) × Bool) := do
  let cols ← readUe
  let rows ← readUe
  insist (decide (cols < 64) && decide (rows < 64))
  let sizes ← readIf (!(← readFlag)) (do return (← readMany readUe cols, ← readMany readUe rows))
  return ((cols + 1, rows + 1, sizes.map fun z => (z.1.map (· + 1), z.2.map (· + 1))), ← readFlag)

/-- pic_parameter_set_rbsp, up to its extensions. -/
def readPps : Reader Pps := do
  let id ← readUe
  insist (decide (id ≤ 63))
  let sps ← readUe
  insist (decide (sps ≤ 15))
  let dependent ← readFlag
  let output ← readFlag
  let extra ← readU 3
  let _ ← readU 2
  let _ ← readMany readUe 2
  let _ ← readSe
  let _ ← readFlag
  let skip ← readFlag
  let qp ← readFlag
  let _ ← readIf qp readUe
  let _ ← readMany readSe 2
  let _ ← readFlag
  let weightedP ← readFlag
  let weightedB ← readFlag
  let _ ← readFlag
  let tiled ← readFlag
  let wavefront ← readFlag
  let tiles ← readIf tiled readTiles
  let _ ← readFlag
  let _ ← readIf (← readFlag) (do
    let _ ← readFlag
    let off ← readFlag
    readIf (!off) (readMany readSe 2))
  let _ ← readIf (← readFlag) readScaling
  let _ ← readFlag
  let _ ← readUe
  let _ ← readFlag
  let _ ← readFlag
  return {
    id := id, sps := sps, dependent := dependent, outputFlag := output, extraBits := extra, transformSkip := skip, cuQpDelta := qp
    weighted := weightedP || weightedB, wavefront := wavefront, tiles := tiles.map (·.1), loopFilter := (tiles.map (·.2)).getD true }

/-! ## Tiles and slices (09 R332) -/

/-- CTU columns and rows of a picture. -/
def ctuSize (w h : Nat) : Nat × Nat := (cdiv w 64, cdiv h 64)

/-- Sizes of `n` parts of `c`, under the formula of 09 R332. -/
def evenParts (c n : Nat) : List Nat := (List.range n).map fun i => (i + 1) * c / n - i * c / n

/-- Sizes of parts of `k` of `c`, the last taking the rest; one part where `k` is 0. -/
def stepParts (c k : Nat) : List Nat :=
  if k = 0 then [c] else (List.range (cdiv c k)).map fun j => min k (c - k * j)

/-- First positions of parts of some sizes. -/
def partStarts (l : List Nat) : List Nat := (List.range l.length).map fun i => (l.take i).sum

/-- Addresses of the first CTUs of the tiles of a part of a picture `c` CTU columns wide, whose columns start at `first`: in
tile scan order. With one column of all of it these are its bands. -/
def tileStarts (c first : Nat) (cols rows : List Nat) : List Nat :=
  (partStarts rows).flatMap fun y => (partStarts cols).map fun x => y * c + first + x

/-- The tile columns and rows that a PPS gives a picture. -/
def Pps.layout (p : Pps) (c r : Nat) : List Nat × List Nat :=
  match p.tiles with
  | none => ([c], [r])
  | some (n, m, none) => (evenParts c n, evenParts r m)
  | some (_, _, some (w, h)) => (w ++ [c - w.sum], h ++ [r - h.sum])

/-- Bits that a slice segment address takes in a picture of `n` CTUs. -/
def addressBits (n : Nat) : Nat := if n ≤ 1 then 0 else Nat.log2 (n - 1) + 1

/-- A slice segment header as far as its reference pictures: whether it is the picture's first, whether it is dependent, its
PPS and address; slice_type (0 B, 1 P, 2 I), whether the picture is output, the low bits of the picture order count, the
short-term set, and the long-term pictures by their low bits, the cycles of the high bits where they are given, and whether
the picture refers to them. -/
structure SliceHead where
  first : Bool
  dep : Bool
  pps : Nat
  address : Nat
  kind : Nat := 2
  out : Bool := true
  lsb : Nat := 0
  rps : Rps := []
  longs : List (Nat × Option Nat × Bool) := []
deriving DecidableEq, Repr

/-- The cycles of long-term pictures, which are coded as differences. -/
def sumCycles : Nat → List (Nat × Option Nat × Bool) → List (Nat × Option Nat × Bool)
  | _, [] => []
  | d, e :: l => let c := d + e.2.1.getD 0
    (e.1, e.2.1.map fun _ => c, e.2.2) :: sumCycles c l

/-- The long-term pictures of a slice header. -/
def readLongs (q : Sps) : Reader (List (Nat × Option Nat × Bool)) := do
  let k ← if q.longRefs.isEmpty then pure 0 else readUe
  let m ← readUe
  insist (decide (k + m ≤ 32))
  let cycle : Reader (Option Nat) := do readIf (← readFlag) readUe
  let a ← readMany (do
    let e := q.longRefs.getD (← readU (addressBits q.longRefs.length)) (0, false)
    return (e.1, ← cycle, e.2)) k
  let b ← readMany (do
    let lsb ← readU q.pocBits
    let used ← readFlag
    return (lsb, ← cycle, used)) m
  return sumCycles 0 a ++ sumCycles 0 b

/-- The PPS that a slice segment names, and whether the segment is the picture's first. -/
def readSlicePps (typ : Nat) : Reader (Nat × Bool) := do
  let first ← readFlag
  let _ ← readIf (decide (16 ≤ typ) && decide (typ ≤ 23)) readFlag
  return (← readUe, first)

/-- The short-term reference picture set of a slice: one of the SPS, or its own. -/
def readSliceRps (q : Sps) : Reader Rps := do
  if ← readFlag then
    let k ← readU (addressBits q.rps.length)
    return q.rps.getD k []
  else readRps q.rps true

/-- slice_segment_header under its parameter sets, in a picture of `n` CTUs (H.265 7.3.6.1). -/
def readSlice (typ n : Nat) (q : Sps) (p : Pps) : Reader SliceHead := do
  let (id, first) ← readSlicePps typ
  let dep ← if first || !p.dependent then pure false else readFlag
  let address ← if first then pure 0 else readU (addressBits n)
  if dep then return { first := first, dep := true, pps := id, address := address }
  else
    let _ ← readU p.extraBits
    let kind ← readUe
    insist (decide (kind ≤ 2))
    let out ← if p.outputFlag then readFlag else pure true
    if typ = 19 ∨ typ = 20 then return { first := first, dep := false, pps := id, address := address, kind := kind, out := out }
    else
      let lsb ← readU q.pocBits
      let rps ← readSliceRps q
      let longs ← if q.longTerm then readLongs q else pure []
      return { first := first, dep := false, pps := id, address := address, kind := kind, out := out, lsb := lsb, rps := rps, longs := longs }

/-- Whether lists of numbers hold the same ones. -/
def sameInts (a b : List Int) : Bool := a.all b.contains && b.all a.contains

/-- Whether slice NAL units are those of a picture of `n` CTUs: one slice for each address, I slices of an IDR picture, or P slices
of a TRAIL_R picture with its picture order count and its references, by their differences from it (09 R326, R332, R337, R338). -/
def slicesOk (q : Sps) (p : Pps) (nals : List (List Byte)) (irap : Bool) (n poc : Nat) (refs : List Int) (addresses : List Nat) : Bool :=
  nals.length == addresses.length && (List.zip nals addresses).all fun e =>
    let typ := nalType e.1
    (if irap then typ == 19 || typ == 20 else typ == 1) && match (readSlice typ n q p).run (nalBits e.1) with
      | some (h, _) => h.first == (e.2 == 0) && !h.dep && h.address == e.2 && h.kind == (if irap then 2 else 1) &&
          (irap || (h.lsb == poc % 2 ^ q.pocBits && sameInts ((h.rps.filter (·.2)).map (·.1)) refs))
      | none => false

/-! ## SEI messages (09 R326, R339) -/

/-- A number of an SEI message coded in bytes of 255 and a last one. -/
def seiNumber : List Byte → Nat × List Byte
  | [] => (0, [])
  | b :: l => if b = 255 then let r := seiNumber l
      (255 + r.1, r.2) else (b.toNat, l)

/-- The SEI messages of a NAL unit: payload types and payloads. -/
def seiMessages : Nat → List Byte → List (Nat × List Byte)
  | 0, _ => []
  | n + 1, l =>
    if l = [] ∨ l = [0x80] then []
    else
      let (typ, l1) := seiNumber l
      let (len, l2) := seiNumber l1
      (typ, l2.take len) :: seiMessages n (l2.drop len)

/-- The SEI messages of some NAL units. -/
def seisOf (nals : List (List Byte)) : List (Nat × List Byte) :=
  nals.flatMap fun n => let b := rbsp (n.drop 2) 0
    seiMessages b.length b

/-- A buffering period message: the initial delays of the buffers (H.265 D.2.2). -/
def readBuffering (h : Hrd) : Reader (List Nat) := do
  let (a, b, c) := h.lens
  let _ ← readUe
  let alt ← if h.sub then pure false else readFlag
  let _ ← readU (if alt then b + c else 0)
  let _ ← readU (1 + b)
  readMany (do
    let d ← readU a
    let _ ← readU a
    let _ ← readU (if alt || h.sub then 2 * a else 0)
    return d) h.top

/-- A picture timing message: the removal delay, at least 1, and the output delay (H.265 D.2.3). -/
def readTiming (fields : Bool) (h : Hrd) : Reader (Nat × Nat) := do
  let _ ← readU (7 * b2n fields)
  let a ← readU h.lens.2.1
  return (a + 1, ← readU h.lens.2.2)

/-- One bit into the CRC of a decoded picture hash. -/
def hashBit (crc : Nat) (b : Bool) : Nat := (2 * crc + b2n b) % 65536 ^^^ (if crc < 32768 then 0 else 0x1021)

/-- CRC of a plane in the decoded picture hash (H.265 D.3.19). -/
def planeCrc (bits : Nat) (rows : List (List Nat)) : Nat :=
  let sample (crc v : Nat) : Nat :=
    let low := (List.range 8).foldl (fun c i => hashBit c (bit v (7 - i))) crc
    if 8 < bits then (List.range 8).foldl (fun c i => hashBit c (bit v (15 - i))) low else low
  (List.range 16).foldl (fun c _ => hashBit c false) (rows.foldl (fun c r => r.foldl sample c) 0xFFFF)

/-- Bytes of a plane as the checksum and the MD5 of a decoded picture take them. -/
def hashedBytes (bits : Nat) (rows : List (List Nat)) : List Byte :=
  rows.flatMap fun r => r.flatMap fun v => leBytes (if 8 < bits then 2 else 1) v

/-- Checksum of a plane (H.265 D.3.19). -/
def planeSum (bits : Nat) (rows : List (List Nat)) : Nat :=
  ((rows.zipIdx.map fun r => (r.1.zipIdx.map fun v =>
    let m := (v.2 % 256) ^^^ (r.2 % 256) ^^^ (v.2 / 256) ^^^ (r.2 / 256)
    ((v.1 % 256) ^^^ m) + if 8 < bits then (v.1 / 256) ^^^ m else 0).sum).sum) % 2 ^ 32

/-- Payload of the decoded picture hash SEI in its CRC form. -/
def hashPayload (bits : Nat) (planes : List (List (List Nat))) : List Byte :=
  BitVec.ofNat 8 1 :: planes.flatMap fun p => (leBytes 2 (planeCrc bits p)).reverse

/-! ## MD5 (RFC 1321) -/

/-- The additive constants of the 64 steps. -/
def md5Table : List Nat :=
  [0xd76aa478, 0xe8c7b756, 0x242070db, 0xc1bdceee, 0xf57c0faf, 0x4787c62a, 0xa8304613, 0xfd469501,
   0x698098d8, 0x8b44f7af, 0xffff5bb1, 0x895cd7be, 0x6b901122, 0xfd987193, 0xa679438e, 0x49b40821,
   0xf61e2562, 0xc040b340, 0x265e5a51, 0xe9b6c7aa, 0xd62f105d, 0x02441453, 0xd8a1e681, 0xe7d3fbc8,
   0x21e1cde6, 0xc33707d6, 0xf4d50d87, 0x455a14ed, 0xa9e3e905, 0xfcefa3f8, 0x676f02d9, 0x8d2a4c8a] ++
  [0xfffa3942, 0x8771f681, 0x6d9d6122, 0xfde5380c, 0xa4beea44, 0x4bdecfa9, 0xf6bb4b60, 0xbebfbc70,
   0x289b7ec6, 0xeaa127fa, 0xd4ef3085, 0x04881d05, 0xd9d4d039, 0xe6db99e5, 0x1fa27cf8, 0xc4ac5665,
   0xf4292244, 0x432aff97, 0xab9423a7, 0xfc93a039, 0x655b59c3, 0x8f0ccc92, 0xffeff47d, 0x85845dd1,
   0x6fa87e4f, 0xfe2ce6e0, 0xa3014314, 0x4e0811a1, 0xf7537e82, 0xbd3af235, 0x2ad7d2bb, 0xeb86d391]

/-- The rotations of a round. -/
def md5Shifts : Nat → List Nat
  | 0 => [7, 12, 17, 22]
  | 1 => [5, 9, 14, 20]
  | 2 => [4, 11, 16, 23]
  | _ => [6, 10, 15, 21]

/-- One step of MD5 on the four words. -/
def md5Step (m : List (BitVec 32)) (w : BitVec 32 × BitVec 32 × BitVec 32 × BitVec 32) (i : Nat) :
    BitVec 32 × BitVec 32 × BitVec 32 × BitVec 32 :=
  let (a, b, c, d) := w
  let (f, g) := match i / 16 with
    | 0 => ((b &&& c) ||| (~~~b &&& d), i)
    | 1 => ((d &&& b) ||| (~~~d &&& c), (5 * i + 1) % 16)
    | 2 => (b ^^^ c ^^^ d, (3 * i + 5) % 16)
    | _ => (c ^^^ (b ||| ~~~d), 7 * i % 16)
  let x := a + f + BitVec.ofNat 32 (md5Table.getD i 0) + m.getD g 0
  (d, b + x.rotateLeft ((md5Shifts (i / 16)).getD (i % 4) 0), b, c)

/-- MD5 of bytes. -/
def md5 (data : List Byte) : List Byte :=
  let l := data ++ [0x80] ++ leBytes ((119 - data.length % 64) % 64) 0 ++ leBytes 8 (8 * data.length)
  let (a, b, c, d) := (List.range (l.length / 64)).foldl (fun (w : BitVec 32 × BitVec 32 × BitVec 32 × BitVec 32) k =>
    let m := (List.range 16).map fun j => BitVec.ofNat 32 (leNat ((l.drop (64 * k + 4 * j)).take 4))
    let v := (List.range 64).foldl (md5Step m) w
    (w.1 + v.1, w.2.1 + v.2.1, w.2.2.1 + v.2.2.1, w.2.2.2 + v.2.2.2)) (0x67452301#32, 0xefcdab89#32, 0x98badcfe#32, 0x10325476#32)
  [a, b, c, d].flatMap fun w => leBytes 4 w.toNat

/-- Whether a decoded picture hash message is that of planes, each with its bit depth: MD5, CRC or checksum (09 R326, R358). -/
def hashMatches (payload : List Byte) (planes : List (Nat × List (List Nat))) : Bool :=
  payload.drop 1 == planes.flatMap fun p => match (payload.getD 0 0).toNat with
    | 0 => md5 (hashedBytes p.1 p.2)
    | 1 => (leBytes 2 (planeCrc p.1 p.2)).reverse
    | _ => (leBytes 4 (planeSum p.1 p.2)).reverse

end Sys2Proof.Machine
end

