-- ==== Sys2Proof/Machine/Queue.lean ====
section
/-! DEFINITION. Credited queues (11): credits, occupancy, the level notice, flushes and the commands of class QUEUE. -/

namespace Sys2Proof.Machine

/-- Credits that a packet costs (11 R391). -/
def packetCost (data : List Byte) : Nat := cdiv data.length 64

/-- K of a configuration (11 R391). -/
def creditLimit (size initial : Nat) : Nat := if initial = 0 then size / 64 else initial

/-! ## QUEUE.CONFIGURE -/

/-- Whether a block of another unit names a queue: OUT_QUEUE of a session or relay channel, QUEUE of a flow, the queues of
a route on this device (11 R396). -/
def blockNamesQueue (s : State) (q key : Nat) (b : List Byte) : Bool :=
  match keyOp key with
  | 0x4001 => fieldAt b 0x1C 2 == q
  | 0x3001 => fieldAt b 2 1 == 1 && fieldAt b 0xE 2 == q
  | 0x7002 => (fieldAt b 1 1 == 4 || fieldAt b 1 1 == 5) && fieldAt b 8 2 == q
  | 0x8001 => (List.range (fieldAt b 2 1)).any fun i =>
      fieldAt b (8 + 16 * i) 1 == 1 &&
        ((fieldAt b (9 + 16 * i) 1 == s.sys.device && fieldAt b (0xA + 16 * i) 2 == q) ||
          (fieldAt b (0xC + 16 * i) 1 == s.sys.device && fieldAt b (0xE + 16 * i) 2 == q))
  | _ => false

/-- Whether committed, staged or scheduled configuration names a queue. -/
def queueNamed (s : State) (q : Nat) : Bool :=
  s.cfg.committed.any (fun e => blockNamesQueue s q e.1 e.2.blk) ||
    (s.cfg.staged ++ s.cfg.sched.flatMap (·.img)).any fun e => blockNamesQueue s q e.key e.val.blk

/-- Whether a queue is idle (11 R396). -/
def queueIdle (s : State) (q : Nat) : Bool :=
  (queue s q).occ == 0 && (queue s q).credits == (queue s q).limit && !queueNamed s q

/-- Offsets of the relations that `QUEUE.CONFIGURE` breaks: the lowest field that takes part in each, SIZE where
INITIAL_CREDIT is 0 (02 R53, R77, 11 R395). -/
def queueFaults (b : List Byte) : List Nat :=
  let size := fieldAt b 0 4
  let maxp := fieldAt b 4 4
  let level := fieldAt b 8 4
  let k := creditLimit size (fieldAt b 0xC 4)
  let dflt := fieldAt b 0xC 4 == 0
  faultIf (decide (size < 2 * maxp)) 0 ++ faultIf (decide (size / 64 < fieldAt b 0xC 4)) 0 ++
  faultIf (decide (64 * k < 2 * maxp)) (if dflt then 0 else 4) ++ faultIf (level % 64 != 0) 8 ++
  faultIf (level != 0 && decide (64 * k < level + 64)) (if dflt then 0 else 8)

/-- Checks of `QUEUE.CONFIGURE`. -/
def queueCheck (s : State) (c : Cmd) : Option Reply :=
  inOrder s c
    (blockFault layQueueConfigure c.region
      (queueFaults c.region ++ bufferFaults s 0x5101 (cfgKey 0x5101 c.target 0) c.region)) none none
    (need (queueIdle s c.target) busy)

/-- A queue as a block configures it; a flush that waits is still to come (11 R392, R407, R659). -/
def queueOf (b : List Byte) (before : Queue) : Queue :=
  let k := creditLimit (fieldAt b 0 4) (fieldAt b 0xC 4)
  { configured := true, size := fieldAt b 0 4, maxPacket := fieldAt b 4 4, level := fieldAt b 8 4, limit := k
    base := fieldAt b 0x10 8, prod := (fieldAt b 0x18 1, fieldAt b 0x19 1), cons := (fieldAt b 0x1A 1, fieldAt b 0x1B 1)
    credits := k, flushes := before.flushes, flushDue := before.flushDue }

/-- Effect of QUEUE_CONFIGURE. -/
def effectQueueConfigure (c : Cmd) (t : State) : State :=
  complete c {} (startLeavesSafe 0x51 c.target (modQueue c.target (queueOf c.region) t))

/-- QUEUE_CONFIGURE (11 R395, R659): the start command of a queue (03 R96). -/
def execQueueConfigure (r : CmdRef) (s : State) : Host.Outcome State Fault Refusal :=
  .next (runCmd r 0x5101 queueCheck effectQueueConfigure s)

/-! ## Packets -/

/-- Whether an increase of occupancy is an upward crossing (11 R398). -/
def crosses (q : Queue) (n : Nat) : Bool :=
  decide (q.occ ≤ q.level / 64) && decide (q.level / 64 < q.occ + n)

/-- Whether a producer may write a packet: it holds the packet's whole cost (11 R393, R394). -/
def queueTakes (s : State) (q : Nat) (data : List Byte) : Bool :=
  let x := queue s q
  x.configured && decide (data.length ≤ x.maxPacket) && decide (packetCost data ≤ x.credits) && safeOf s (myUnit s 0x51 q) != 2

/-- A queue with a packet written (11 R393, R399, R402). -/
def queueAdd (data : List Byte) (x : Queue) : Queue :=
  let n := packetCost data
  { x with occ := x.occ + n, credits := x.credits - n, packets := x.packets ++ [data], peak := max x.peak (x.occ + n)
           crossings := if crosses x n then min 255 (x.crossings + 1) else x.crossings }

/-- A producer writes a packet, unit by unit; a crossing sets the notice, which LEVEL 0 disables (11 R395, R399). -/
def queueWrite (q : Nat) (data : List Byte) (s : State) : State :=
  let s1 := modQueue q (queueAdd data) s
  if crosses (queue s q) (packetCost data) ∧ (queue s q).level ≠ 0 then raise (368 + q) s1 else s1

/-- QUEUE_PACKET_WRITE (11 R393). -/
def execQueuePacketWrite (q : Nat) (data : List Byte) (s : State) : Host.Outcome State Fault Refusal :=
  .next (if enginesClocked s && decide (0 < data.length) && queueTakes s q data then queueWrite q data s else s)

/-- A queue with its oldest packet freed: the credits are on their way to the producer (11 R393). -/
def queueFree (x : Queue) : Queue :=
  match x.packets with
  | [] => x
  | p :: l => { x with packets := l, occ := x.occ - packetCost p, returning := x.returning + packetCost p, reading := false }

/-- The destination of the queue route of a queue whose consumer is the tether: device and queue (14 R491). -/
def routeDest (s : State) (q : Nat) : Option (Nat × Nat) :=
  let b := (blkIn s.cfg.active 0x8001 0 0).getD []
  ((List.range (fieldAt b 2 1)).find? fun i =>
    fieldAt b (8 + 16 * i) 1 == 1 && fieldAt b (9 + 16 * i) 1 == s.sys.device && fieldAt b (0xA + 16 * i) 2 == q).map fun i =>
      (fieldAt b (0xC + 16 * i) 1, fieldAt b (0xE + 16 * i) 2)

/-- The oldest packet of a queue goes out on its route, as route data split into packets of at most 2,048 bytes (14 R491). -/
def sendRoute (q : Nat) (s : State) : State :=
  if (queue s q).cons.1 ≠ 0x80 then s
  else match routeDest s q, (queue s q).packets with
    | some (d, n), p :: _ =>
      let l := pieces 2048 p
      l.zipIdx.foldl (fun t e => tthSend (portTo t d) 4 (.route n (e.2 + 1 == l.length) e.1) d false t) s
    | _, _ => s

/-- Whether the consumer of a queue reads its oldest packet: a flow has begun to send it, or it goes out on its route (11
R393, 13 R464, 14 R491). -/
def consumerReads (s : State) (q : Nat) : Bool := (queue s q).reading || ((queue s q).cons.1 == 0x80 && (routeDest s q).isSome)

/-- QUEUE_PACKET_FREE (11 R393): the consumer has read all of the oldest packet; the tether has sent it on its route. -/
def execQueuePacketFree (q : Nat) (s : State) : Host.Outcome State Fault Refusal :=
  .next (if enginesClocked s && (queue s q).configured && !(queue s q).packets.isEmpty && consumerReads s q then
    modQueue q queueFree (sendRoute q s)
    else s)

/-- CREDIT_RETURN (11 R393): the credits of freed packets reach the producer. -/
def execCreditReturn (q : Nat) (s : State) : Host.Outcome State Fault Refusal :=
  .next (if enginesClocked s && decide (0 < (queue s q).returning) then
    modQueue q (fun x => { x with credits := x.credits + x.returning, returning := 0 }) s else s)

/-! ## Flush (11 R407, R408) -/

/-- The packets that a flush discards: all but the one that the consumer has begun to read. -/
def flushed (x : Queue) : List (List Byte) := if x.reading then x.packets.drop 1 else x.packets

/-- Units of a list of packets. -/
def unitsOfPackets (l : List (List Byte)) : Nat := (l.map packetCost).sum

/-- A queue after a flush. -/
def queueFlush (x : Queue) : Queue :=
  let n := unitsOfPackets (flushed x)
  { x with packets := if x.reading then x.packets.take 1 else [], occ := x.occ - n, credits := x.credits + n
           discarded := min 0xFFFFFFFF (x.discarded + (flushed x).length), flushes := [], flushDue := false }

/-- DETAIL and RESULT0 of a flush. -/
def flushDetail (x : Queue) : Nat := (flushed x).length % 65536 + 2 ^ 16 * (unitsOfPackets (flushed x) % 2 ^ 32)

/-- The sequence of 11 R407 at a packet boundary: the discard, the credits, the event, the completions (11 R408). -/
def flushQueue (q : Nat) (s : State) : State :=
  let x := queue s q
  let s1 := unitEvent 0x5101 0x51 q none (flushDetail x) (modQueue q queueFlush s)
  (x.flushes.filterMap (findCmd s1)).foldl (fun t c => complete c (okReply (flushDetail x) 0) t) s1

/-- Checks of QUEUE_FLUSH. -/
def checkQueueFlush (t : State) (c : Cmd) : Option Reply := plainCheck [] t c

/-- Effect of QUEUE_FLUSH. -/
def effectQueueFlush (c : Cmd) (t : State) : State :=
  setWaiting c (modQueue c.target (fun x => { x with flushes := x.flushes ++ [⟨c.fn, c.seq⟩], flushDue := true }) t)

/-- QUEUE_FLUSH (11 R407, R408): it takes effect at the next packet boundary. -/
def execQueueFlush (r : CmdRef) (s : State) : Host.Outcome State Fault Refusal :=
  .next (runCmd r 0x5102 checkQueueFlush effectQueueFlush s)

/-- QUEUE_FLUSHED (11 R407). -/
def execQueueFlushed (q : Nat) (s : State) : Host.Outcome State Fault Refusal :=
  .next (if enginesClocked s && (queue s q).flushDue then flushQueue q s else s)

/-! ## QUEUE.STATUS -/

/-- RESULT0 of `QUEUE.STATUS` (11 R406). -/
def queueStatus0 (s : State) (q : Nat) : Nat :=
  let x := queue s q
  x.occ % 2 ^ 21 + 2 ^ 24 * (x.crossings % 256) + 2 ^ 32 * (x.peak % 2 ^ 21) + 2 ^ 63 * b2n (isPending s (368 + q))

/-- RESULT1 of `QUEUE.STATUS`. -/
def queueStatus1 (s : State) (q : Nat) : Nat := (queue s q).credits % 2 ^ 21 + 2 ^ 32 * (queue s q).discarded

/-- Checks of QUEUE_STATUS. -/
def checkQueueStatus (t : State) (c : Cmd) : Option Reply := plainCheck [] t c

/-- Effect of QUEUE_STATUS. -/
def effectQueueStatus (c : Cmd) (t : State) : State :=
  complete c (okReply (queueStatus0 t c.target) (queueStatus1 t c.target)) t

/-- QUEUE_STATUS (11 R406). -/
def execQueueStatus (r : CmdRef) (s : State) : Host.Outcome State Fault Refusal :=
  .next (runCmd r 0x5103 checkQueueStatus effectQueueStatus s)

/-- Whether a queue is configured with a unit as its producer (11 R397). -/
def producesTo (s : State) (q cls unit : Nat) : Bool := (queue s q).configured && (queue s q).prod == (cls, unit)

/-- Whether a queue is configured with a unit as its consumer (11 R397). -/
def consumesFrom (s : State) (q cls unit : Nat) : Bool := (queue s q).configured && (queue s q).cons == (cls, unit)

end Sys2Proof.Machine
end

