-- ==== Sys2Proof/Machine/Search.lean ====
section
/-! DEFINITION. The motion search of the coding cores (09 R339, R340; 14 R492). The cores choose; a picture of theirs comes with the
vectors that each step kept, and these are held against the search: a step keeps the cheapest vectors of its window. Ties, and the
samples beyond a picture's edge, are as in H.265; the bits of a vector and λ are open values (log 56). -/

namespace Sys2Proof.Machine

/-- Rows of samples. -/
abbrev Plane := List (List Nat)

/-- Sample of a plane; beyond its edges the nearest one. -/
def planeAt (p : Plane) (x y : Int) : Int :=
  let r := p.getD (min y.toNat (p.length - 1)) []
  r.getD (min x.toNat (r.length - 1)) 0

/-- A plane decimated by `k`: box means (09 R340). -/
def decimate (k : Nat) (p : Plane) : Plane :=
  (List.range (cdiv p.length k)).map fun j => (List.range (cdiv ((p.headD []).length) k)).map fun i =>
    (rnd (((List.range k).flatMap fun b => (List.range k).map fun a => planeAt p (k * i + a : Nat) (k * j + b : Nat)).sum) (k * k)).toNat

/-- A rectangle of samples: first column and row, width and height. -/
structure Rect where
  x : Nat
  y : Nat
  w : Nat
  h : Nat
deriving DecidableEq, Repr

/-- Differences of a rectangle and a predicted block, row by row. -/
def residual (cur : Plane) (r : Rect) (pred : Int → Int → Int) : List (List Int) :=
  (List.range r.h).map fun j => (List.range r.w).map fun i =>
    planeAt cur (r.x + i : Nat) (r.y + j : Nat) - pred (r.x + i : Nat) (r.y + j : Nat)

/-- Sum of absolute differences at a whole-sample vector. -/
def sad (cur ref : Plane) (r : Rect) (v : Mv) : Nat :=
  ((residual cur r fun x y => planeAt ref (x + v.1) (y + v.2)).map fun l => (l.map Int.natAbs).sum).sum

/-- The vectors around some centres. -/
def windowOf (dx dy : Nat) (step : Int) (centres : List Mv) : List Mv :=
  (centres.flatMap fun c => (List.range (2 * dy + 1)).flatMap fun b => (List.range (2 * dx + 1)).map fun a =>
    (c.1 + step * ((a : Int) - dx), c.2 + step * ((b : Int) - dy))).eraseDups

/-- Whether `kept` are `n` of the cheapest vectors of a window, or all of a smaller one. -/
def keepsBest (n : Nat) (cost : Mv → Nat) (window kept : List Mv) : Bool :=
  let costs := kept.map cost
  let worst := costs.foldl max 0
  kept.length == min n window.length && kept.eraseDups == kept && kept.all window.contains &&
    window.all fun v => kept.contains v || decide (worst ≤ cost v)

/-- Vectors scaled. -/
def scaleMvs (k : Int) (l : List Mv) : List Mv := l.map fun v => (k * v.1, k * v.2)

/-! ## Interpolation (H.265 8.5.3.3.3) -/

/-- The luma filters by quarter-sample position. -/
def lumaTaps : Nat → List Int
  | 0 => [0, 0, 0, 64, 0, 0, 0, 0]
  | 1 => [-1, 4, -10, 58, 17, -5, 1, 0]
  | 2 => [-1, 4, -11, 40, 40, -11, 4, -1]
  | _ => [0, 1, -5, 17, 58, -10, 4, -1]

/-- Eight values under a filter. -/
def tapSum (frac : Nat) (v : Int → Int) : Int :=
  ((lumaTaps frac).zipIdx.map fun t => t.1 * v ((t.2 : Int) - 3)).sum

/-- A reference sample at a quarter-sample position, weighted by default (H.265 8.5.3.3.4.2). -/
def lumaSample (bits : Nat) (ref : Plane) (x4 y4 : Int) : Int :=
  let (x, y, fx, fy) := (x4 / 4, y4 / 4, (x4 % 4).toNat, (y4 % 4).toNat)
  let row (j : Int) : Int := tapSum fx (fun i => planeAt ref (x + i) (y + j)) / 2 ^ (bits - 8)
  let mid : Int := if fy = 0 then row 0 else tapSum fy row / 64
  clampI 0 (2 ^ bits - 1) ((mid + 2 ^ (13 - bits)) / 2 ^ (14 - bits))

/-- One step of a Hadamard transform on a list of 2^n values. -/
def hadamard : Nat → List Int → List Int
  | 0, l => l
  | n + 1, l =>
    let a := l.take (2 ^ n)
    let b := l.drop (2 ^ n)
    hadamard n (List.zipWith (· + ·) a b) ++ hadamard n (List.zipWith (· - ·) a b)

/-- Sum of absolute transformed differences: the residual in squares of 2^n under the Hadamard transform of both directions.
The size of the squares is an open value. -/
def satd (res : List (List Int)) : Nat :=
  let n := if Config.satdEight then 3 else 2
  let k := 2 ^ n
  let w := (res.headD []).length
  ((List.range (res.length / k)).flatMap fun j => (List.range (w / k)).map fun i =>
    let rows := ((res.drop (k * j)).take k).map fun r => hadamard n ((r.drop (k * i)).take k)
    ((List.range k).map fun x => ((hadamard n (rows.map fun r => r.getD x 0)).map Int.natAbs).sum).sum).sum

/-! ## The four steps (09 R340) -/

/-- Step 1: at 4:1, ±64 × ±32 around each block of 16 × 16, by SAD; it keeps the 3 best vectors. -/
def step1Ok (cur4 ref4 : Plane) (ctu : Rect) (kept : List Mv) : Bool :=
  keepsBest 3 (sad cur4 ref4 ⟨ctu.x / 4, ctu.y / 4, 16, 16⟩) (windowOf 64 32 1 [(0, 0)]) kept

/-- Step 2: at 2:1, ±4 around each kept vector and the zero vector, per block of 32 × 32; it keeps 2. -/
def step2Ok (cur2 ref2 : Plane) (ctu : Rect) (kept4 kept : List Mv) : Bool :=
  keepsBest 2 (sad cur2 ref2 ⟨ctu.x / 2, ctu.y / 2, 32, 32⟩) (windowOf 4 4 1 (scaleMvs 2 ((0, 0) :: kept4))) kept

/-- Cost of a whole-sample vector: SAD plus λ × vector bits, the latter an open value of the QP, the predictors and the vector. -/
def sadCost (qp : Int) (cur ref : Plane) (u : PredUnit) (v : Mv) : Nat :=
  sad cur ref ⟨u.x, u.y, u.w, u.h⟩ v + Config.vectorCost qp u.preds (4 * v.1, 4 * v.2)

/-- Cost of a vector in quarter samples: SATD of the interpolated block. -/
def satdCost (bits : Nat) (cur ref : Plane) (u : PredUnit) (v : Mv) : Nat :=
  satd (residual cur ⟨u.x, u.y, u.w, u.h⟩ fun x y => lumaSample bits ref (4 * x + v.1) (4 * y + v.2))

/-- Whether whole-sample centres are the predictors brought to whole samples, either way. -/
def nearPreds (centres preds : List Mv) : Bool :=
  centres.length == preds.length && (List.zip centres preds).all fun e =>
    decide ((4 * e.1.1 - e.2.1).natAbs < 4) && decide ((4 * e.1.2 - e.2.2).natAbs < 4)

/-- Steps 3 and 4 of a prediction unit: ±2 samples around each kept vector and each predictor, then ±1 half sample and ±1 quarter
sample. -/
def unitSearchOk (qp : Int) (bits : Nat) (cur ref : Plane) (kept2 : List Mv) (u : PredUnit) : Bool :=
  nearPreds u.centres u.preds &&
    keepsBest 1 (sadCost qp cur ref u) (windowOf 2 2 1 (scaleMvs 2 kept2 ++ u.centres)) [u.whole] &&
    keepsBest 1 (satdCost bits cur ref u) (windowOf 1 1 2 (scaleMvs 4 [u.whole])) [u.half] &&
    keepsBest 1 (satdCost bits cur ref u) (windowOf 1 1 1 [u.half]) [u.mv] &&
    decide (u.mv.1.natAbs ≤ 4 * 270) && decide (u.mv.2.natAbs ≤ 4 * 140)

/-- First and last reference column that a unit reads, with the reach of the interpolation. -/
def unitColumns (u : PredUnit) : Int × Int :=
  let x := (u.x : Int) + u.mv.1 / 4
  if u.mv.1 % 4 = 0 then (x, x + u.w - 1) else (x - 3, x + u.w + 3)

/-- Whether the units of a CTU read only columns `lo` to `hi` (14 R492). -/
def unitsWithin (lo hi : Int) (m : CtuMotion) : Bool :=
  m.units.all fun u => decide (lo ≤ (unitColumns u).1) && decide ((unitColumns u).2 ≤ hi)

/-- Whether a vector of a column refreshed in this cycle, one before `edge`, points only at columns of its reference that were
refreshed in the cycle, those before `done`, at least 4 samples inside their edge (09 R339). -/
def refreshOk (edge done : Nat) (u : PredUnit) : Bool :=
  decide (edge ≤ u.x) || decide (4 * ((u.x : Int) + u.w) + u.mv.1 ≤ 4 * ((done : Int) - 4))

/-- Whether the vectors of a CTU are those of the search. Merged units take a candidate's vector as it is. -/
def ctuSearchOk (qp : Nat → Int) (bits : Nat) (cur : Plane) (refs : List Plane) (m : CtuMotion) : Bool :=
  let ctu : Rect := ⟨m.x, m.y, 64, 64⟩
  m.units.all fun u =>
    decide (u.x / 64 * 64 = m.x) && decide (u.y / 64 * 64 = m.y) && match refs[u.ref]? with
    | none => false
    | some ref =>
      u.merge || match m.kept.find? fun k => k.ref == u.ref with
        | none => false
        | some k => step1Ok (decimate 4 cur) (decimate 4 ref) ctu k.at4 && step2Ok (decimate 2 cur) (decimate 2 ref) ctu k.at4 k.at2 &&
            unitSearchOk (qp u.x) bits cur ref k.at2 u

/-- Samples of the prediction units of a CTU. -/
def unitArea (m : CtuMotion) : Nat := (m.units.map fun u => u.w * u.h).sum

/-- Whether the statistics of an inter CTU are those of its prediction units, which cover it: the area-weighted mean vector,
the SATD at 8-bit scale, and for a skipped CTU merged units only (09 R345). -/
def interStatOk (bits w h : Nat) (cur : Plane) (refs : List Plane) (m : CtuMotion) (u : CtuStat) : Bool :=
  let area := min 64 (w - m.x) * min 64 (h - m.y)
  let sum (f : PredUnit → Int) : Int := (m.units.map fun q => (q.w * q.h : Nat) * f q).sum
  let cost := (m.units.map fun q => satdCost bits cur (refs.getD q.ref []) q q.mv).sum
  unitArea m == area && u.mvX == rnd (sum (·.mv.1)) area && u.mvY == rnd (sum (·.mv.2)) area &&
    decide (((cost : Int) - (u.cost * 2 ^ (bits - 8) : Nat)).natAbs < 2 ^ (bits - 8)) && (!bit u.mode 1 || m.units.all (·.merge))

end Sys2Proof.Machine
end

