-- ==== Sys2Proof/Machine/Coding.lean ====
section
/-! DEFINITION. The coding cores (09; 06 R219-R223; 14 R492, R493): the commands of classes ENC and DEC, pictures from their
start to the release of their output, rollbacks, array-shared rate control, and decoding. -/

namespace Sys2Proof.Machine

/-! ## Levels of H.265 Table A.8 (09 R327; the values are those of that standard, log 37) -/

/-- What a level allows. -/
structure Level where
  lumaPs : Nat
  lumaSr : Nat
  mainBr : Nat
  highBr : Nat
  tileRows : Nat
  tileCols : Nat
deriving DecidableEq, Repr

/-- The levels 1 to 6.2 by their general_level_idc. -/
def levelOf : Nat → Option Level
  | 30 => some ⟨36864, 552960, 128, 128, 1, 1⟩
  | 60 => some ⟨122880, 3686400, 1500, 1500, 1, 1⟩
  | 63 => some ⟨245760, 7372800, 3000, 3000, 1, 1⟩
  | 90 => some ⟨552960, 16588800, 6000, 6000, 2, 2⟩
  | 93 => some ⟨983040, 33177600, 10000, 10000, 3, 3⟩
  | 120 => some ⟨2228224, 66846720, 12000, 30000, 5, 5⟩
  | 123 => some ⟨2228224, 133693440, 20000, 50000, 5, 5⟩
  | 150 => some ⟨8912896, 267386880, 25000, 100000, 11, 10⟩
  | 153 => some ⟨8912896, 534773760, 40000, 160000, 11, 10⟩
  | 156 => some ⟨8912896, 1069547520, 60000, 240000, 11, 10⟩
  | 180 => some ⟨35651584, 1069547520, 60000, 240000, 22, 20⟩
  | 183 => some ⟨35651584, 2139095040, 120000, 480000, 22, 20⟩
  | 186 => some ⟨35651584, 4278190080, 240000, 800000, 22, 20⟩
  | _ => none

/-- Whether a LEVEL_IDC names a level, 8.5 included. -/
def levelKnown (l : Nat) : Bool := l == 255 || (levelOf l).isSome

/-- Whether MAX_KBPS exceeds the High-tier MaxBR of a level for a profile (09 R327). -/
def overBr (level profile kbps : Nat) : Bool :=
  match levelOf level with
  | some v => if profile = 4 then decide (v.highBr * 1667 < kbps * 1000) else decide (v.highBr < kbps)
  | none => false

/-- Pictures of the decoded picture buffer of a level for a picture size (H.265 A.4.2; log 37). -/
def dpbSize (level w h : Nat) : Nat :=
  match levelOf level with
  | none => 16
  | some v =>
    if w * h * 4 ≤ v.lumaPs then 16 else if w * h * 2 ≤ v.lumaPs then 12 else if w * h * 4 ≤ 3 * v.lumaPs then 8 else 6

/-! ## Sessions (09 R329, R334) -/

/-- The encode session on a lowest core. -/
def encAt (s : State) (core : Nat) : Option EncSess := s.cod.enc.find? (·.core == core)

/-- The decode session on a lowest core. -/
def decAt (s : State) (core : Nat) : Option DecSess := s.cod.dec.find? (·.core == core)

/-- Changes the encode session of a number. -/
def modEnc (id : Nat) (g : EncSess → EncSess) (s : State) : State :=
  { s with cod := { s.cod with enc := s.cod.enc.map fun x => if x.id = id then g x else x } }

/-- Changes the decode session of a number. -/
def modDec (id : Nat) (g : DecSess → DecSess) (s : State) : State :=
  { s with cod := { s.cod with dec := s.cod.dec.map fun x => if x.id = id then g x else x } }

/-- The cores of a mask. -/
def coresIn (m : Nat) : List Nat := (List.range 6).filter (bit m)

/-- Arena bytes of an encode session, in whole pages (09 R334, 10 R364). -/
def encArena (t : Tbl CfgVal) (core : Nat) : Nat :=
  match encIn t core with
  | some e =>
    let r := rateIn t core e
    alignUp ((r.refs + 2) * encPicture e + holdBytes e r.maxKbps) 4096
  | none => 0

/-- Arena bytes of a decode session. -/
def decArena (b : List Byte) : Nat :=
  let w := fieldAt b 4 2
  let h := fieldAt b 6 2
  alignUp ((dpbSize (fieldAt b 2 1) w h + 1) * pictureBytes 2 w h) 4096

/-- Arena bytes that every other session takes. -/
def arenaUsed (s : State) (t : Tbl CfgVal) (core : Nat) : Nat :=
  (((List.range 6).filter (· != core)).map (encArena t)).sum +
    ((s.cod.dec.filter (·.core != core)).map fun d => decArena d.blk).sum

/-- The refusal where a need does not fit in the free arena (09 R334). -/
def arenaCheck (s : State) (t : Tbl CfgVal) (core bytes : Nat) : Option Reply :=
  need (decide (arenaUsed s t core + bytes ≤ Config.arenaBytes)) (badSize bytes)

/-- Step 11: no core of the mask belongs to an open session (09 R329). Step 5 has seen to their owner. -/
def coresBusy (s : State) (c : Cmd) : Option Reply :=
  need (!(s.cod.enc.any (fun x => x.cores &&& fieldAt c.region 0 1 != 0) ||
    s.cod.dec.any fun x => x.cores &&& fieldAt c.region 0 1 != 0)) busy

/-- Columns of the picture that this device codes: its own output columns in an array session (14 R492). -/
def codedColumns (s : State) (t : Tbl CfgVal) (e : EncCfg) : Nat × Nat :=
  match pipeIn t e.stream, blkIn t 0x2104 e.stream e.tap with
  | some p, some b => if e.rcMode = 3 then myColumns s t e.stream p b else (0, e.width)
  | _, _ => (0, e.width)

/-! ## ENC.OPEN (09 R327-R331, R339; 06 R214) -/

/-- Offsets of what the level refuses (09 R327). -/
def levelFaults (e : EncCfg) (kbps : Nat) : List Nat :=
  match levelOf e.level with
  | none => faultIf (e.level != 255) 2
  | some v =>
    faultIf (decide (v.lumaPs < e.width * e.height) || decide (8 * v.lumaPs < e.width * e.width) ||
      decide (8 * v.lumaPs < e.height * e.height) || decide (v.lumaSr * e.period < e.width * e.height * 1000000000)) 2 ++
    faultIf (overBr e.level e.profile kbps) 1

/-- FORMAT that a PROFILE requires (09 R331). -/
def profileFormat (p : Nat) : Nat := if p = 1 then 4 else if p = 2 then 3 else 2

/-- Offsets of what the tap refuses (09 R331). -/
def tapFaults (t : Tbl CfgVal) (e : EncCfg) : List Nat :=
  match pipeIn t e.stream, tapIn t e.stream e.tap with
  | some p, some x =>
    faultIf (x.format != profileFormat e.profile) 1 ++ faultIf (x.outW != e.width || x.outH != e.height) 4 ++
    faultIf (e.period != p.period * x.div) 8 ++
    faultIf (e.source == 0 && !(e.stream == 0 && p.source == 0 && bit p.outputs 1)) 3 ++
    faultIf (e.source == 1 && !writesBack p e.tap) 3
  | _, _ => [0x19]

/-- Relations of `ENC.OPEN`; a member's OUT_QUEUE is ignored in an array session (14 R493). -/
def encOpenFaults (s : State) (c : Cmd) : List Nat :=
  let b := c.region
  let e := EncCfg.of b
  let t := withBlock s c (cfgKey 0x4001 c.target 0) layEncOpen 0
  let n := (coresIn e.mask).length
  let cols := codedColumns s t e
  let cc := (ctuSize e.width e.height).1
  faultIf ((coresIn e.mask).head? != some c.target) 0 ++
  faultIf (decide (n * 600000000 * e.period < cols.2 * e.height * 1000000000) || decide (cols.2 < 256 * n)) 0 ++
  levelFaults e e.maxKbps ++
  faultIf (decide (e.width < 64) || decide (16384 < e.width) || e.width % 2 != 0 || cols.1 % 64 != 0) 4 ++
  faultIf (decide (e.height < 16) || decide (8640 < e.height) || e.height % 2 != 0) 6 ++
  faultIf (e.period == 0) 8 ++ tapFaults t e ++ faultIf ((e.source == 0) != e.runAhead) 3 ++
  faultIf (e.gradual && e.gop != 0) 0xE ++
  faultIf (e.gradual && (decide (e.refreshPeriod < 2) || decide (cc < e.refreshPeriod))) 4 ++
  faultIf (!(e.rcMode == 3 && !isLeader s) && !producesTo s e.queue 0x40 c.target) 0x1C

/-- Checks of `ENC.OPEN`. -/
def encOpenCheck (s : State) (c : Cmd) : Option Reply :=
  let key := cfgKey 0x4001 c.target 0
  let t := withBlock s c key layEncOpen 0
  stagedCheck layEncOpen 0 key (encOpenFaults s c) (arenaCheck s t c.target (encArena t c.target)) (coresBusy s c) s c

/-- The next session number (log 37). -/
def sessionId (s : State) : Nat := s.cod.nextId % 65536

/-- Effect of ENC_OPEN. -/
def effectEncOpen (c : Cmd) (t : State) : State :=
  let x : EncSess := { id := sessionId t, core := c.target, cores := fieldAt c.region 0 1 }
  let t1 : State := { t with cod := { t.cod with nextId := t.cod.nextId + 1, enc := t.cod.enc ++ [x] } }
  complete c { deferred := true, result0 := x.id }
    (stagePut c.fn (cfgKey 0x4001 c.target 0) (valOf layEncOpen c 0) t1)

/-- ENC_OPEN (09 R327-R331): the session works from the commit on. -/
def execEncOpen (r : CmdRef) (s : State) : Host.Outcome State Fault Refusal :=
  .next (runCmd r 0x4001 encOpenCheck effectEncOpen s)

/-! ## ENC.RATE, ENC.ROI, ENC.STATS -/

/-- Offset 0 where SESSION is not the session of the target (09 R329). -/
def sessionFaults (s : State) (c : Cmd) : List Nat :=
  faultIf ((encAt s c.target).map (·.id) != some (fieldAt c.region 0 2)) 0

/-- The value that `ENC.RATE` stages: 0 in BITRATE_KBPS or MAX_KBPS keeps the current value (log 37). -/
def resolvedRate (s : State) (c : Cmd) : List Byte :=
  let b := c.region.take (blockLen layEncRate)
  match encIn (resulting s) c.target with
  | some e =>
    let r := rateIn (resulting s) c.target e
    b.take 8 ++ leBytes 4 (if fieldAt b 8 4 = 0 then r.kbps else fieldAt b 8 4) ++
      leBytes 4 (if fieldAt b 0xC 4 = 0 then r.maxKbps else fieldAt b 0xC 4) ++ b.drop 0x10
  | none => b

/-- Whether a tile layout breaks the level (09 R332, R341). -/
def tilesBad (e : EncCfg) (cores sliceRows : Nat) : Bool :=
  let n := (coresIn cores).length
  match levelOf e.level with
  | none => false
  | some v =>
    let rows := if sliceRows = 0 then 1 else cdiv (ctuSize e.width e.height).2 sliceRows
    n != 1 && (decide (v.tileCols < n) || decide (v.tileRows < rows))

/-- Relations of `ENC.RATE` (09 R341). -/
def rateFaults (s : State) (c : Cmd) : List Nat :=
  let b := resolvedRate s c
  sessionFaults s c ++
  match encIn (resulting s) c.target with
  | none => []
  | some e =>
    let lo : Int := if e.profile = 1 then 0 else -12
    let qmin := signed 8 (fieldAt b 2 1)
    let qmax := signed 8 (fieldAt b 3 1)
    faultIf (decide (qmin < lo) || decide (51 < qmin) || decide (qmax < qmin)) 2 ++ faultIf (decide (51 < qmax)) 3 ++
    faultIf (decide (fieldAt b 0xC 4 < fieldAt b 8 4)) 8 ++ faultIf (overBr e.level e.profile (fieldAt b 0xC 4)) 0xC ++
    faultIf (tilesBad e e.mask (fieldAt b 0x10 1)) 0x10

/-- Checks of `ENC.RATE`. -/
def rateCheck (s : State) (c : Cmd) : Option Reply :=
  let key := cfgKey 0x4004 c.target 0
  let v : CfgVal := { blk := resolvedRate s c }
  let t := Tbl.set (resulting s) key v
  inOrder s c
    (firstFail [blockFault layEncRate c.region (rateFaults s c), arenaCheck s t c.target (encArena t c.target)])
    (admitStaged s c.fn key v) none none

/-- Effect of ENC_RATE. -/
def effectEncRate (c : Cmd) (t : State) : State :=
  complete c { deferred := true } (stagePut c.fn (cfgKey 0x4004 c.target 0) { blk := resolvedRate t c } t)

/-- ENC_RATE (09 R341). -/
def execEncRate (r : CmdRef) (s : State) : Host.Outcome State Fault Refusal :=
  .next (runCmd r 0x4004 rateCheck effectEncRate s)

/-- Relations of `ENC.ROI` (09 'Region of interest'): the first COUNT regions (log 20). -/
def roiFaults (s : State) (c : Cmd) : List Nat :=
  let b := c.region
  sessionFaults s c ++
  match encIn (resulting s) c.target with
  | none => []
  | some e =>
    let ct := ctuSize e.width e.height
    faultIf (decide (2 < (coresIn e.mask).length)) 0 ++
    (List.range (fieldAt b 2 1)).flatMap fun k =>
      let o := 8 * k
      faultIf (decide (fieldAt b (7 + o) 2 < fieldAt b (4 + o) 2)) (4 + o) ++ faultIf (decide (ct.1 ≤ fieldAt b (7 + o) 2)) (7 + o) ++
      faultIf (decide (fieldAt b (9 + o) 1 < fieldAt b (6 + o) 1)) (6 + o) ++ faultIf (decide (ct.2 ≤ fieldAt b (9 + o) 1)) (9 + o) ++
      faultIf (decide (12 < (signed 8 (fieldAt b (0xA + o) 1)).natAbs)) (0xA + o) ++ faultIf (fieldAt b (0xB + o) 1 != 0) (0xB + o)

/-- Checks of ENC_ROI. -/
def checkEncRoi (t : State) (c : Cmd) : Option Reply :=
  stagedCheck layEncRoi 0 (cfgKey 0x4003 c.target 0) (roiFaults t c) none none t c

/-- Effect of ENC_ROI. -/
def effectEncRoi (c : Cmd) (t : State) : State :=
  stageCmd layEncRoi 0 (cfgKey 0x4003 c.target 0) c t

/-- ENC_ROI (09 R344). -/
def execEncRoi (r : CmdRef) (s : State) : Host.Outcome State Fault Refusal :=
  .next (runCmd r 0x4003 checkEncRoi effectEncRoi s)

/-- Relations of `ENC.STATS`. -/
def encStatsFaults (s : State) (c : Cmd) : List Nat :=
  let b := c.region
  sessionFaults s c ++
  match encIn (resulting s) c.target with
  | none => []
  | some e =>
    let ct := ctuSize (codedColumns s (resulting s) e).2 e.height
    if bit (fieldAt b 2 1) 0 then
      faultIf (decide (fieldAt b 4 2 < 2) || decide (64 < fieldAt b 4 2)) 2 ++
      faultIf (decide (fieldAt b 0x10 4 < 64 + 16 * (ct.1 * ct.2))) 0
    else []

/-- Checks of ENC_STATS. -/
def checkEncStats (t : State) (c : Cmd) : Option Reply :=
  stagedCheck layEncStats 0 (cfgKey 0x4005 c.target 0) (encStatsFaults t c) none none t c

/-- Effect of ENC_STATS. -/
def effectEncStats (c : Cmd) (t : State) : State :=
  stageCmd layEncStats 0 (cfgKey 0x4005 c.target 0) c t

/-- ENC_STATS (09 R345). -/
def execEncStats (r : CmdRef) (s : State) : Host.Outcome State Fault Refusal :=
  .next (runCmd r 0x4005 checkEncStats effectEncStats s)

/-! ## Frames reach the sessions (06 R213, 09 R336) -/

/-- The sessions with a test on what a frame's configuration says of them. -/
def sessionsWith (t : Tbl CfgVal) (s : State) (p : EncCfg → Bool) : List EncSess :=
  s.cod.enc.filter fun x => x.closing.isNone && unitLive s 0x40 x.core && match encIn t x.core with
    | some e => p e
    | none => false

/-- A frame waits to be coded. -/
def queueFrame (fr : EncFrame) (l : List EncSess) (s : State) : State :=
  l.foldl (fun t x => modEnc x.id (fun y => { y with waiting := y.waiting ++ [fr] }) t) s

/-- A frame of stream 0 starts: the in-line sessions whose tap processes it will code it. -/
def encFrameStarts (f : Frame) (s : State) : State :=
  queueFrame { serial := f.serial, time := f.time, epoch := f.epoch, cfg := f.cfg }
    (sessionsWith f.cfg s fun e => e.source == 0 && match tapIn f.cfg e.stream e.tap with
      | some x => inPhase x f.serial
      | none => false) s

/-- The picture that a tap slot holds. -/
def slotPicture (s : State) (i k slot : Nat) : Nat × List Byte :=
  match Tbl.find? (tapTable s i k) slot with
  | some y => (y.cfg.outH, hbmRead s (y.base slot) (pictureBytes y.cfg.format y.cfg.outW y.cfg.outH))
  | none => (0, [])

/-- A tap slot of a COMMITTED frame is handed to the sessions that read the tap (06 R215). -/
def encTapCommitted (i : Nat) (f : Frame) (s : State) : State :=
  (List.range 4).foldl (fun t k => match f.tapSlots.getD k none with
    | some n =>
      let (rows, input) := slotPicture s i k n
      queueFrame { serial := f.serial, time := f.time, epoch := f.epoch, cfg := f.cfg, rows := rows, input := input }
        (sessionsWith f.cfg t fun e => e.source == 1 && e.stream == i && e.tap == k) t
    | none => t) s

/-- Rows that enter an in-line session, in its frame that waits or its picture. -/
def enterRows (serial rows : Nat) (input : List Byte) (y : EncSess) : EncSess :=
  { y with
    waiting := y.waiting.map fun q => if q.serial = serial then { q with rows := rows, input := input } else q
    pics := y.pics.map fun q => if q.serial = serial then { q with rows := rows, input := input } else q }

/-- An in-line session takes every tap row that the coding link offers (09 R336). -/
def encTapRows (p : PipeCfg) (fr : Frame) (d : Developed) (active : Nat) (ended : Bool) (s : State) : State :=
  s.cod.enc.foldl (fun t x => match encIn fr.cfg x.core with
    | some e =>
      let c := tapCtx fr.cfg 0 e.tap
      let a := activeOf fr.cfg 0 p
      if e.source != 0 || !(x.waiting.any (·.serial == fr.serial) || x.pics.any (·.serial == fr.serial)) then t
      else modEnc x.id (enterRows fr.serial (tapRowsReady c.blk (frontDelay fr.cfg 0 p) a.2 active ended)
        (tapFrame c a.1 a.2 (tapH c) (0, tapW c) d.img).1) t
    | none => t) s

/-! ## Rate state (09 R342, R343, R351) -/

/-- HRD buffer size in bits. -/
def hrdSize (r : RateCfg) : Int := r.maxKbps * r.vbvMs

/-- Bits that enter the HRD buffer in a period. -/
def hrdIn (r : RateCfg) (e : EncCfg) : Int := (r.maxKbps * e.period / 1000000 : Nat)

/-- Fullness: full at the start (log 37). -/
def fullnessOf (x : EncSess) (r : RateCfg) : Int := x.fullness.getD (hrdSize r)

/-- Fullness after a period with a picture of some bits. -/
def elapse (x : EncSess) (r : RateCfg) (e : EncCfg) (bits : Int) : Int := min (hrdSize r) (fullnessOf x r - bits + hrdIn r e)

/-- The NAL units of a picture, filler apart. -/
def picUnits (p : CodedPic) : List (List Byte) := p.paramSets ++ p.seis ++ p.nals ++ p.suffix

/-- Bits of a picture: its NAL units, filler apart. -/
def picBits (p : CodedPic) : Nat := 8 * ((picUnits p).map List.length).sum

/-- Mean QP of a picture, rounded (09 R345). -/
def qpMean (p : CodedPic) : Int := if p.ctus.isEmpty then 0 else rnd (p.ctus.map fun u => signed 8 u.qp).sum p.ctus.length

/-- A period in which nothing is coded (06 R222, 09 R351): the fullness and the bits of recent pictures. -/
def emptyPeriod (r : RateCfg) (e : EncCfg) (y : EncSess) : EncSess :=
  { y with fullness := some (elapse y r e 0), recent := 0 :: y.recent.take 255 }

/-- An empty period at the end of what the session has started: it follows the last picture there (06 R222). -/
def idlePeriod (r : RateCfg) (e : EncCfg) (y : EncSess) : EncSess :=
  emptyPeriod r e { y with pics := y.pics.modify (y.pics.length - 1) fun q => { q with idle := q.idle + 1 } }

/-- The rate model counts a coded picture of some bits, with its filler (09 R342). -/
def countPicture (r : RateCfg) (e : EncCfg) (bits fill : Nat) (qp : Int) (y : EncSess) : EncSess :=
  { y with fullness := some (elapse y r e (bits + 8 * fill : Nat)), recent := bits :: y.recent.take 255
           qpModel := Config.qpModel y.qpModel bits qp }

/-- Bits in the hold area: output that waits, and pictures held until their verdict. -/
def heldBits (x : EncSess) : Nat :=
  8 * (x.packets.map List.length).sum + ((x.pics ++ x.due).filterMap fun p => p.coded.map fun c => picBits c + 8 * p.filler).sum

/-- The cap of a picture in bits (09 R343). -/
def capOf (x : EncSess) (r : RateCfg) (e : EncCfg) : Nat :=
  let hold := 8 * holdBytes e r.maxKbps
  if e.rcMode = 0 then hold else min hold (fullnessOf x r).toNat

/-! ## Array-shared rate control (14 R493, 09 R346, R347) -/

/-- CTUs of a device of the array in a session's picture. -/
def deviceCtus (t : Tbl CfgVal) (e : EncCfg) (dev : Nat) : Nat :=
  match pipeIn t e.stream, blkIn t 0x2104 e.stream e.tap with
  | some p, some b => (ctuSize (stripeColumns t e.stream dev p b).length e.height).1 * (ctuSize e.width e.height).2
  | _, _ => 0

/-- Serial distance of two pictures in frames of the tap. -/
def framesApart (div newer older : Nat) : Nat := (newer + 65536 - older) % 65536 / max div 1

/-- The most recent picture before one for which every device's statistics have arrived. -/
def completeStats (s : State) (x : EncSess) (serial : Nat) : Option (Nat × Tbl PeerStats) :=
  (x.array.filter fun e => later serial e.1 && (List.range s.sys.arraySize).all fun d => (Tbl.find? e.2 d).isSome).foldl
    (fun m e => match m with
      | none => some e
      | some b => if later e.1 b.1 then some e else some b) none

/-- This device's target of a picture, and whether the statistics were late. -/
def arrayTarget (s : State) (x : EncSess) (e : EncCfg) (div serial own : Nat) : Nat × Bool :=
  let split (t : Nat) (w : Nat → Nat) : Nat :=
    let sum := ((List.range s.sys.arraySize).map w).sum
    if sum = 0 then 0 else t * w s.sys.device / sum
  let byCtus (t : Nat) := split t (deviceCtus s.cfg.active e)
  match completeStats s x serial with
  | none => (byCtus own, true)
  | some (q, l) =>
    let t := ((Tbl.find? l 0).map (·.target)).getD own
    let cost (d : Nat) := ((Tbl.find? l d).map (·.cost)).getD 0
    if 2 < framesApart div serial q then (byCtus t, true)
    else if ((List.range s.sys.arraySize).map cost).sum = 0 then (byCtus t, false)
    else (split t cost, false)

/-- Devices whose statistics of a picture are missing, as a mask. -/
def missingDevices (s : State) (x : EncSess) (div serial : Nat) : Nat :=
  ((List.range s.sys.arraySize).map fun d =>
    if x.array.any fun e => later serial e.1 && decide (framesApart div serial e.1 ≤ 2) && (Tbl.find? e.2 d).isSome then 0
    else 2 ^ d).sum

/-- The leader tells once that statistics are late, until they are complete again (09 R347). -/
def tellLate (x : EncSess) (div serial : Nat) (late : Bool) (s : State) : State :=
  let s1 := modEnc x.id (fun y => { y with lateTold := late }) s
  if late && !x.lateTold && isLeader s then
    raise (201 + 12 * x.core) (unitEvent 0x4006 0x40 x.core (some serial) (serial + 2 ^ 16 * missingDevices s x div serial) s1)
  else s1

/-! ## A picture starts (06 R219, R221; 09 R337-R343, R351) -/

/-- The COMMITTED reconstructed pictures of a session, newest first (06 R221). -/
def EncSess.refs (x : EncSess) : List Nat := (x.dpb.filter (·.good)).map (·.serial)

/-- The checkpoint of a session (06 R219). -/
def checkpoint (x : EncSess) (r : RateCfg) : Ckpt :=
  { gop := x.gop, refresh := x.refresh, cycle := x.cycle, fullness := fullnessOf x r, lastCoded := x.lastCoded
    poc := x.poc, qpModel := x.qpModel
    recent := x.recent, refs := x.refs, roi := x.roi, substituted := x.substituted, numRefs := x.numRefs, sliceRows := x.sliceRows
    sao := x.sao }

/-- Whether the next picture is an IRAP picture: by its GOP position, or for want of a picture to refer to (log 37). -/
def nextIrap (x : EncSess) : Bool := x.gop == 0 || x.refs.isEmpty

/-- GOP position after a picture (09 R337). -/
def gopAfter (e : EncCfg) (gop : Nat) : Nat := if e.gop = 0 then 1 else (gop + 1) % e.gop

/-- Column of the next refresh band (09 R339). -/
def refreshAfter (e : EncCfg) (pos : Nat) : Nat :=
  let c := (ctuSize e.width e.height).1
  let band := cdiv c (max e.refreshPeriod 1)
  if c ≤ pos + band then 0 else pos + band

/-- Picture order count of a picture (09 R338). -/
def pocOf (x : EncSess) (div serial : Nat) (irap : Bool) : Nat :=
  match x.lastCoded with
  | some l => if irap then 0 else x.poc + framesApart div serial l
  | none => 0

/-- A picture that the hold area cannot take is not coded (09 R351). -/
def stallPicture (x : EncSess) (r : RateCfg) (e : EncCfg) (serial : Nat) (s : State) : State :=
  raise (195 + 12 * x.core) (unitEvent 0x4005 0x40 x.core (some serial) serial
    (modEnc x.id (fun y => idlePeriod r e { y with gap := true }) s))

/-- First CTU column that this device codes, and how many (14 R492). -/
def partOf (s : State) (t : Tbl CfgVal) (e : EncCfg) : Nat × Nat :=
  let c := codedColumns s t e
  (c.1 / 64, cdiv c.2 64)

/-- The tile columns of a session: the i-th is coded by its i-th lowest core (09 R332). -/
def tileColumns (s : State) (t : Tbl CfgVal) (x : EncSess) (e : EncCfg) : List (Nat × Nat × Nat) :=
  let (first, n) := partOf s t e
  let parts := evenParts n (coresIn x.cores).length
  (List.zip (coresIn x.cores) (List.zip (partStarts parts) parts)).map fun q => (q.1, first + q.2.1, q.2.2)

/-- The refresh band of a picture (09 R339). -/
def bandOf (e : EncCfg) (pos : Nat) : Nat × Nat := (pos, cdiv (ctuSize e.width e.height).1 (max e.refreshPeriod 1))

/-- What the start of a picture changes in its session: GOP position, refresh position and cycle, the last picture, and at
an IRAP picture or the first band of a refresh the parameters that wait for it (09 R341). -/
def startedPicture (r : RateCfg) (e : EncCfg) (p : EncPic) (y : EncSess) : EncSess :=
  let fresh := p.irap || p.band.map (·.1) == some 0
  { y with
    lastCoded := some p.serial, poc := p.poc, gop := if p.irap then gopAfter e 0 else gopAfter e y.gop
    refresh := if p.band.isSome then refreshAfter e y.refresh else 0, cycle := p.cycle, numRefs := if fresh then r.refs else y.numRefs
    sliceRows := if fresh then r.sliceRows else y.sliceRows, sao := if fresh then r.sao else y.sao
    substituted := y.substituted + b2n p.subst }

/-- Starts a picture: its checkpoint, its references, its target and cap. -/
def beginPicture (x : EncSess) (r : RateCfg) (e : EncCfg) (div : Nat) (fr : EncFrame) (s : State) : State :=
  let irap := nextIrap x
  let band := e.gradual && !irap
  let subst := !irap && match x.lastCoded with
    | some l => !x.refs.contains l
    | none => false
  let own := if e.rcMode = 0 then 0
    else Config.rateTarget (r.kbps * e.period / 1000000) (fullnessOf x r) x.qpModel x.recent
  let (target, late) := if e.rcMode = 3 then arrayTarget s x e div fr.serial own else (own, false)
  let bands := if band then some (bandOf e x.refresh) else none
  let pic : EncPic :=
    { serial := fr.serial, time := fr.time, epoch := fr.epoch, ckpt := checkpoint x r, irap := irap, subst := subst, late := late
      poc := pocOf x div fr.serial irap, target := target, total := own, cap := capOf x r e, cfg := fr.cfg, gap := x.gap
      ticks := x.lastCoded.map fun l => x.poc + framesApart div fr.serial l
      cycle := if irap || (band && x.refresh == 0) then x.cycle + 1 else x.cycle
      refs := if irap then [] else x.refs.take (if band && x.refresh == 0 then r.refs else x.numRefs)
      band := bands, tiles := tileColumns s fr.cfg x e
      verdict := if e.source = 1 then some 0 else none, rows := fr.rows, input := fr.input }
  let roi := (blkIn fr.cfg 0x4003 x.core 0).getD []
  let s1 := modEnc x.id (fun y => startedPicture r e pic { y with pics := y.pics ++ [pic], roi := roi, gap := false }) s
  let s2 := if subst then raise (197 + 12 * x.core) s1 else s1
  if e.rcMode = 3 then tellLate x div fr.serial late s2 else s2

/-- Whether a picture's frame is retracted. -/
def EncPic.bad (p : EncPic) : Bool := (p.verdict.map (bit · 0)).getD false

/-- Whether a session may start its next picture: its cores are not coding one, and no rollback is to come (06 R223). -/
def coresFree (x : EncSess) : Bool := x.pics.all fun p => p.coded.isSome && !p.bad

/-- Whether the rows of a frame's first CTU row have entered; a HELD frame has none to show (06 R205, R219). -/
def firstRowIn (s : State) (e : EncCfg) (fr : EncFrame) : Bool :=
  e.source == 1 || (decide (min 64 e.height ≤ fr.rows) && !((stream s 0).frames.any fun f => f.serial == fr.serial && f.held))

/-- A session's configuration in a picture's epoch (01 R22). -/
def EncPic.enc (p : EncPic) (x : EncSess) (e : EncCfg) : EncCfg := (encIn p.cfg x.core).getD e

/-- A session's rate parameters in a picture's epoch. -/
def EncPic.rate (p : EncPic) (x : EncSess) (e : EncCfg) : RateCfg := rateIn p.cfg x.core (p.enc x e)

/-- The session of a number with its configuration in use. -/
def sessionNow (s : State) (id : Nat) : Option (EncSess × EncCfg) :=
  match s.cod.enc.find? (·.id == id) with
  | some x => (encIn s.cfg.active x.core).map fun e => (x, e)
  | none => none

/-- ENC_PICTURE_START (01 R22; 09 R337, R343, R346, R351): the session takes the next frame that waits, under its
configuration; an in-line session drops it while RT2 is shed (10 R384), and in a thermal stop no session starts another GOP
or refresh cycle (17 R573). -/
def execEncPictureStart (session : Nat) (s : State) : Host.Outcome State Fault Refusal :=
  .next (match sessionNow s session with
    | some (x, now) =>
      match x.waiting with
      | fr :: rest =>
        let e := (encIn fr.cfg x.core).getD now
        if !(enginesClocked s && coresFree x && firstRowIn s e fr) then s
        else
          let r := rateIn fr.cfg x.core e
          let div := ((tapIn fr.cfg e.stream e.tap).map (·.div)).getD 1
          let s1 := modEnc x.id (fun y => { y with waiting := rest }) s
          let spill := e.source == 0 && portShed s 2
          let ends := s.thm.stop != 0 && (if e.gradual then x.refresh == 0 else x.gop == 0)
          if ends then s1
          else if 8 * holdBytes e r.maxKbps < heldBits x + capOf x r e ∨ spill then stallPicture x r e fr.serial s1
          else beginPicture x r e div fr s1
      | [] => s
    | none => s)

/-! ## Coded output (09 R348-R351) -/

/-- Start code and NAL unit of the Annex B byte stream. -/
def annexB (nal : List Byte) : List Byte := [0, 0, 0, 1] ++ nal

/-- An access unit delimiter. -/
def delimiter (irap : Bool) : List Byte := [0x46, 0x01, if irap then 0x10 else 0x30]

/-- A filler data NAL unit of `n` bytes, at least 3 (09 R342). -/
def fillerNal (n : Nat) : List (List Byte) := if n = 0 then [] else [[0x4C, 0x01] ++ List.replicate (n - 3) 0xFF ++ [0x80]]

/-- RTP_TS (09 R348). -/
def rtpTs (t : Time) : Nat := timeNs t * 9 / 100000 % 2 ^ 32

/-- The header of a queue packet. -/
def codedHeader (p : EncPic) (session form flags len : Nat) : List Byte :=
  leBytes 2 p.serial ++ leBytes 1 form ++ leBytes 1 flags ++ leBytes 4 (rtpTs p.time) ++ leBytes 4 len ++ leBytes 2 session ++
    leBytes 2 0

/-- The access unit in the Annex B byte stream: its pieces, each with whether it holds parameter sets (09 R349). -/
def annexPieces (p : EncPic) (c : CodedPic) (n : Nat) : List (List Byte × Bool) :=
  let aud := annexB (delimiter p.irap)
  let sets := if p.irap then c.paramSets.flatMap annexB else []
  let au := aud ++ sets ++ (c.seis ++ c.nals ++ c.suffix ++ fillerNal p.filler).flatMap annexB
  (pieces n au).zipIdx.map fun e =>
    (e.1, !sets.isEmpty && decide (e.2 * n < aud.length + sets.length) && decide (aud.length < (e.2 + 1) * n))

/-- The fragmentation units of a NAL unit (RFC 7798). -/
def fragments (nal : List Byte) (n : Nat) : List (List Byte) :=
  let b0 := (nal.getD 0 0).toNat
  let typ := b0 / 2 % 64
  let l := pieces (n - 3) (nal.drop 2)
  l.zipIdx.map fun e =>
    [BitVec.ofNat 8 (b0 / 128 * 128 + 49 * 2 + b0 % 2), nal.getD 1 0,
      BitVec.ofNat 8 (128 * b2n (e.2 == 0) + 64 * b2n (e.2 + 1 == l.length) + typ)] ++ e.1

/-- The aggregation packet of parameter sets (RFC 7798). -/
def aggregated (l : List (List Byte)) : List Byte := [0x60, 0x01] ++ l.flatMap fun q => beBytes 2 q.length ++ q

/-- The RTP payloads of an access unit (09 R350). -/
def rtpPieces (p : EncPic) (c : CodedPic) (n : Nat) : List (List Byte × Bool) :=
  (if p.irap ∧ c.paramSets ≠ [] then [(aggregated c.paramSets, true)] else []) ++
    ((c.seis ++ c.nals ++ c.suffix ++ fillerNal p.filler).flatMap fun q => if q.length ≤ n then [q] else fragments q n).map (·, false)

/-- Data bytes of a packet of a session's OUT_QUEUE. -/
def packetRoom (s : State) (e : EncCfg) : Nat := (queue s e.queue).maxPacket - 16

/-- The queue packets of a picture (09 R348). -/
def codedPackets (s : State) (x : EncSess) (e : EncCfg) (p : EncPic) (c : CodedPic) : List (List Byte) :=
  let r := p.rate x e
  let room := packetRoom s e
  let l := if r.rtp then rtpPieces p c (min r.rtpMax room) else annexPieces p c room
  l.zipIdx.map fun q =>
    codedHeader p x.id (b2n r.rtp) (b2n (q.2 == 0) + 2 * b2n (q.2 + 1 == l.length) + 4 * b2n p.irap + 8 * b2n q.1.2 +
      16 * b2n (p.gap && q.2 == 0)) q.1.1.length ++ q.1.1

/-- Writes waiting packets into OUT_QUEUE as its credits allow (09 R351). -/
def pump (id q : Nat) : Nat → State → State
  | 0, s => s
  | n + 1, s =>
    match (s.cod.enc.find? (·.id == id)).map (·.packets) with
    | some (p :: l) =>
      if queueTakes s q p then pump id q n (queueWrite q p (modEnc id (fun y => { y with packets := l }) s)) else s
    | _ => s

/-- A session ends: its cores and arena space are free (09 R354). -/
def dropSession (x : EncSess) (s : State) : State :=
  let gone (k : Nat) : Bool := keyOp k / 256 == 0x40 && keyUnit k == x.core
  { s with cod := { s.cod with enc := s.cod.enc.filter (·.id != x.id) }
           cfg := { s.cfg with
             committed := s.cfg.committed.filter fun e => !gone e.1
             active := s.cfg.active.filter fun e => !gone e.1
             staged := s.cfg.staged.filter fun e => !gone e.key
             sched := s.cfg.sched.map fun y => { y with img := y.img.filter fun e => !gone e.key } } }

/-- A closing session completes when nothing is left to code or to send (09 R354). -/
def tryClose (id : Nat) (s : State) : State :=
  match s.cod.enc.find? (·.id == id) with
  | some x =>
    match x.closing with
    | some r =>
      if x.pics.isEmpty && x.packets.isEmpty && x.due.isEmpty then
        let s1 := dropSession x s
        match findCmd s1 r with
        | some c => complete c (okReply (x.pictures % 2 ^ 32) 0) s1
        | none => s1
      else s
    | none => s
  | none => s

/-- Writes what the credits allow, and closes a session that waits for it. -/
def pumpSession (x : EncSess) (q : Nat) (s : State) : State :=
  tryClose x.id (pump x.id q (((s.cod.enc.find? (·.id == x.id)).map fun y => y.packets.length).getD 0) s)

/-- A statistics record (09 R345). DESIGN CHOICE (log 37): the mark of 09 R347, for which the record's layout names no bit, is
FLAGS[3]. -/
def encStatsRecord (x : EncSess) (p : EncPic) (c : CodedPic) (ct : Nat × Nat) : List Byte :=
  leBytes 2 p.serial ++ leBytes 2 x.id ++ leBytes 4 p.epoch ++ leBytes 4 (picBits c) ++ leBytes 2 ct.1 ++ leBytes 2 ct.2 ++
    leBytes 1 (unsigned 8 (qpMean c)) ++ leBytes 1 (b2n p.irap + 2 * b2n c.cappedAt.isSome + 4 * b2n p.subst + 8 * b2n p.late) ++ leBytes 46 0 ++
    c.ctus.flatMap fun u =>
      leBytes 4 u.bits ++ leBytes 4 u.cost ++ leBytes 2 (unsigned 16 u.mvX) ++ leBytes 2 (unsigned 16 u.mvY) ++ leBytes 1 u.qp ++
        leBytes 1 u.mode ++ leBytes 2 0

/-- Writes a picture's statistics record, or drops it (09 R345, 10 R384). -/
def exportStats (x : EncSess) (e : EncCfg) (p : EncPic) (c : CodedPic) (s : State) : State :=
  match blkIn p.cfg 0x4005 x.core 0 with
  | none => s
  | some b =>
    let slots := fieldAt b 4 2
    let shed := p.noStats || (e.source == 0 && portShed s 15)
    if !bit (fieldAt b 2 1) 0 then s
    else if shed ∨ slots ≤ (x.statWr + 65536 - x.statRd) % 65536 then
      modEnc x.id (fun y => { y with statDropped := y.statDropped + 1 }) s
    else
      let slot := x.statWr % slots
      let data := encStatsRecord x p c (ctuSize (codedColumns s p.cfg e).2 e.height)
      raise (194 + 12 * x.core) (unitEvent 0x4003 0x40 x.core (some p.serial) (p.serial + 2 ^ 16 * slot)
        (modEnc x.id (fun y => { y with statWr := (y.statWr + 1) % 65536 }) (hbmWrite (fieldAt b 8 8 + slot * fieldAt b 0x10 4) data s)))

/-- A device's statistics of a picture, with the array target (09 R346, 14 R493). -/
def peerStats (p : EncPic) (c : CodedPic) : PeerStats :=
  { cost := (c.ctus.map (·.cost)).sum, ctus := c.ctus.length, bits := picBits c, target := p.total }

/-- Keeps a device's statistics of a picture; those of the last 1,024 serials are kept. -/
def keepStats (id dev serial : Nat) (v : PeerStats) (s : State) : State :=
  let put (a : Tbl (Tbl PeerStats)) : Tbl (Tbl PeerStats) :=
    (Tbl.set a serial (Tbl.set (Tbl.get [] a serial) dev v)).filter fun e =>
      e.1 == serial || decide ((serial + 65536 - e.1) % 65536 < 1024) || later e.1 serial
  modEnc id (fun y => { y with array := put y.array }) s

/-- NAL units in tile scan order: each tile row holds every device's tiles from left to right (14 R493). -/
def tileScan (rows : Nat) (l : List (List (List Byte))) : List (List Byte) :=
  (List.range rows).flatMap fun j => l.flatMap fun nals =>
    let per := nals.length / max rows 1
    (nals.drop (per * j)).take per

/-- Tile rows of a picture (09 R332). -/
def tileRows (x : EncSess) (e : EncCfg) : Nat := if x.sliceRows = 0 then 1 else cdiv (ctuSize e.width e.height).2 x.sliceRows

/-- A picture's packets join the output that waits. -/
def sendPicture (x : EncSess) (e : EncCfg) (p : EncPic) (c : CodedPic) (s : State) : State :=
  let l := codedPackets s x e p c
  pumpSession x e.queue (modEnc x.id (fun y => { y with packets := y.packets ++ l, pictures := y.pictures + 1 }) s)

/-- The leader assembles the oldest COMMITTED picture once every device's slices of it are there (14 R493). -/
def assemble (id : Nat) (s : State) : State :=
  match sessionNow s id with
  | none => s
  | some (x, now) =>
    match x.due with
    | [] => s
    | p :: rest =>
      match p.coded with
      | none => s
      | some c =>
        let e := p.enc x now
        let got := Tbl.set (Tbl.get [] x.slices p.serial) 0 c.nals
        let parts := (List.range s.sys.arraySize).map fun d => Tbl.find? got d
        if parts.all (·.isSome) then
          let nals := tileScan (tileRows x e) (parts.map fun q => q.getD [])
          sendPicture x e p { c with nals := nals }
            (modEnc id (fun y => { y with due := rest, slices := Tbl.erase y.slices p.serial }) s)
        else s

/-- The decoded picture buffer when a picture's frame is COMMITTED: it may be referred to from now on. Two such pictures are
kept, and none from before an IDR picture, beside those that pictures in the cores refer to (06 R221, 09 R337). -/
def keepReference (p : EncPic) (used : List Nat) (l : List RefPic) : List RefPic :=
  let l1 := l.map fun q => if q.serial = p.serial then { q with good := true } else q
  let l2 := if p.irap then l1.filter fun q => !q.good || q.serial == p.serial || used.contains q.serial else l1
  let keep := ((l2.filter (·.good)).map (·.serial)).take 2
  l2.filter fun q => !q.good || keep.contains q.serial || used.contains q.serial

/-- The pictures that those in the cores of a session refer to. -/
def refsInUse (y : EncSess) : List Nat := (y.pics.filter (·.coded.isNone)).flatMap (·.refs)

/-- Releases a COMMITTED, coded picture: its packets, its statistics; in an array a member sends its slices to the leader and
every device its statistics to the others (06 R220, 14 R493). -/
def releasePicture (x : EncSess) (e : EncCfg) (p : EncPic) (c : CodedPic) (s : State) : State :=
  let s1 := exportStats x e p c (modEnc x.id (fun y =>
    { y with pics := y.pics.filter (·.serial != p.serial), dpb := keepReference p (refsInUse y) y.dpb }) s)
  if e.rcMode = 3 ∧ 1 < s.sys.arraySize then
    let v := peerStats p c
    let s2 := tthBroadcast 3 (.stats p.serial v.cost v.ctus v.bits v.target) (keepStats x.id s.sys.device p.serial v s1)
    if isLeader s then assemble x.id (modEnc x.id (fun y => { y with due := y.due ++ [p] }) s2)
    else tryClose x.id (modEnc x.id (fun y => { y with pictures := y.pictures + 1 })
      (tthSend 0 3 (.slices p.serial c.nals) 0 false s2))
  else sendPicture x e p c s1

/-- Releases the oldest pictures that are coded and COMMITTED. -/
def releaseReady (id : Nat) : Nat → State → State
  | 0, s => s
  | n + 1, s =>
    match sessionNow s id with
    | some (x, e) =>
      match x.pics with
      | p :: _ =>
        match p.coded, p.verdict with
        | some c, some v => if bit v 0 then s else releaseReady id n (releasePicture x (p.enc x e) p c s)
        | _, _ => s
      | [] => s
    | none => s

/-- Bytes of the filler data NAL unit that a CBR picture needs so that the HRD buffer does not overflow: none, or at least its
header and end (09 R342). -/
def fillerBytes (x : EncSess) (r : RateCfg) (e : EncCfg) (bits : Nat) : Nat :=
  let n := cdiv (fullnessOf x r - bits + hrdIn r e - hrdSize r).toNat 8
  if e.rcMode = 1 ∧ n ≠ 0 then max 3 n else 0

/-! ## What the cores may make of a picture (09 R326-R328, R332, R339-R344) -/

/-- Whether all rows of a picture have entered. -/
def inputWhole (e : EncCfg) (p : EncPic) : Bool := e.source == 1 || decide (e.height ≤ p.rows)

/-- Bit depth of a PROFILE's pictures (09 R326, R331). -/
def profileBits (profile : Nat) : Nat := if profile = 1 then 8 else 10

/-- The block of a session's tap. -/
def tapBlock (t : Tbl CfgVal) (e : EncCfg) : List Byte := (blkIn t 0x2104 e.stream e.tap).getD []

/-- Whether the tier is the one that MAX_KBPS calls for (09 R327); level 8.5 has no limits to judge by. -/
def tierOk (e : EncCfg) (kbps : Nat) (high : Bool) : Bool :=
  match levelOf e.level with
  | some v => high == decide (v.mainBr < kbps)
  | none => true

/-- Whether a bit rate and a buffer size are those of the session, to the unit in which HRD parameters give them (09 R328,
log 37). -/
def hrdRatesOk (r : RateCfg) (h : Hrd) (c : Nat × Nat × Bool) : Bool :=
  let near (unit v w : Nat) : Bool := decide (v ≤ w) && decide (w < v + unit)
  near (2 ^ (6 + h.scales.1)) c.1 (r.maxKbps * 1000) && near (2 ^ (4 + h.scales.2)) c.2.1 (r.maxKbps * r.vbvMs)

/-- Whether the VUI is that of the session (09 R328). -/
def vuiOk (t : Tbl CfgVal) (e : EncCfg) (r : RateCfg) (v : Vui) : Bool :=
  let b := tapBlock t e
  v.colour == some (h273 b) && v.fullRange == (fieldAt b 0x12 1 == 1) && v.timing == some (e.period, 1000000000) &&
    match v.hrd with
    | none => e.rcMode == 0
    | some h => e.rcMode != 0 && !h.cpbs.isEmpty && h.cpbs.all fun c => c.2.2 == (e.rcMode == 1) && hrdRatesOk r h c

/-- Whether an SPS is that of the session (09 R326-R328, R338). -/
def spsOk (t : Tbl CfgVal) (x : EncSess) (e : EncCfg) (q : Sps) : Bool :=
  let r := rateIn t x.core e
  let n := profileBits e.profile
  q.ptl.profile == e.profile && q.ptl.level == e.level && tierOk e r.maxKbps q.ptl.high && q.chroma == (if e.profile = 4 then 2 else 1) &&
    (q.width, q.height) == (e.width, e.height) && q.coded == (alignUp e.width 8, alignUp e.height 8) && q.corner == (0, 0) &&
    q.bits == (n, n) && q.pocBits == 16 && q.reorder.all (· == 0) &&
    q.blocks == [0, 3, 0, 3] && !q.scaling && !q.amp && q.sao == x.sao && !q.pcm && !q.longTerm && q.tmvp &&
    (q.vui.map (vuiOk t e r)).getD false

/-- Whether a PPS is that of the session: its tiles and its tools (09 R326, R332, 14 R492). An array picture's tiles are every
device's. -/
def ppsOk (s : State) (x : EncSess) (e : EncCfg) (tiles : List (Nat × Nat × Nat)) (q : Pps) : Bool :=
  let (c, r) := ctuSize e.width e.height
  let whole := e.rcMode != 3 || s.sys.arraySize == 1
  q.cuQpDelta && !q.transformSkip && !q.weighted && !q.wavefront && !q.dependent && q.extraBits == 0 && q.loopFilter == whole &&
    (if whole then q.layout c r == (tiles.map (·.2.2), if tiles.length = 1 then [r] else stepParts r x.sliceRows) else q.tiles.isSome)

/-- The SPS and PPS among some NAL units. -/
def readSets (l : List (List Byte)) : Option (Sps × Pps) :=
  match l.find? (nalType · == 33), l.find? (nalType · == 34) with
  | some a, some b => match readSps.run (nalBits a), readPps.run (nalBits b) with
    | some (q, _), some (r, _) => some (q, r)
    | _, _ => none
  | _, _ => none

/-- The parameter sets that a member of an array, which writes none, goes by: the slices carry their reference picture sets
(log 37). -/
def memberSets (e : EncCfg) : Sps × Pps :=
  ({ id := 0, vps := 0, ptl := ⟨e.profile, false, e.level⟩, chroma := 1
     coded := (e.width, e.height), corner := (0, 0), width := e.width, height := e.height, bits := (8, 8), pocBits := 16
     reorder := [], blocks := [], scaling := false, amp := false, sao := false, pcm := false, rps := [], longTerm := false
     longRefs := [], tmvp := true, vui := none },
   { id := 0, sps := 0, dependent := false, outputFlag := false, extraBits := 0, transformSkip := false, cuQpDelta := true
     weighted := false, wavefront := false, tiles := none, loopFilter := false })

/-- The parameter sets of a picture: its own, or those written last. -/
def picHeadSets (x : EncSess) (e : EncCfg) (pic : CodedPic) : Sps × Pps :=
  (readSets (if pic.paramSets.isEmpty then x.sets else pic.paramSets)).getD (memberSets e)

/-- Whether an IRAP picture comes with the session's VPS, SPS and PPS, which fit in one packet of RTP payloads (09 R350),
and another with none. A member of an array writes none (14 R493). -/
def setsOk (s : State) (x : EncSess) (e : EncCfg) (p : EncPic) (pic : CodedPic) : Bool :=
  if !p.irap || (e.rcMode == 3 && !isLeader s) then pic.paramSets.isEmpty
  else match pic.paramSets with
    | [vps, sps, pps] =>
      let r := p.rate x e
      nalType vps == 32 && (readVps.run (nalBits vps)).isSome && nalType sps == 33 && nalType pps == 34 &&
      (!r.rtp || decide ((aggregated pic.paramSets).length ≤ min r.rtpMax (packetRoom s e))) && (match readSps.run (nalBits sps) with
        | some (q, _) => spsOk p.cfg x e q
        | none => false) && match readPps.run (nalBits pps) with
        | some (q, _) => ppsOk s x e p.tiles q
        | none => false
    | _ => false

/-- Whether buffering period and picture timing messages are those of the HRD (09 R328; H.265 Annex C, log 37): the initial delay is
the time in which the buffer filled to what it holds, the removal delay counts the frame periods since the last IRAP picture, and
pictures are output as they are removed. -/
def hrdSeisOk (r : RateCfg) (p : EncPic) (v : Vui) (h : Hrd) (l : List (Nat × List Byte)) : Bool :=
  l.all fun m => match m.1 with
    | 0 => match (readBuffering h).run (bitsOf m.2) with
      | some (d, _) => d.all (· == max 1 (90 * p.ckpt.fullness.toNat / max 1 r.maxKbps))
      | none => false
    | 1 => match (readTiming v.fields h).run (bitsOf m.2) with
      | some (t, _) => t.2 == 0 && ((p.ticks.map fun n => (t.1 + 2 ^ h.lens.2.1 - n % 2 ^ h.lens.2.1) % 2 ^ h.lens.2.1 == 0).getD true)
      | none => false
    | _ => true

/-- Whether the SEI messages are those that the session writes (09 R326, R339): buffering period and picture timing with an HRD, a
recovery point at the first band of a refresh, mastering display and light level for PQ, and the CRC form of the picture hash. -/
def seisOk (x : EncSess) (e : EncCfg) (p : EncPic) (pic : CodedPic) : Bool :=
  let l := seisOf pic.seis
  let has (typ : Nat) : Bool := l.any fun m => m.1 == typ
  let r := rateIn p.cfg x.core e
  let hrd := e.rcMode != 0
  let pq := fieldAt (tapBlock p.cfg e) 1 1 == 2
  (pic.seis.all fun n => nalType n == 39) && (pic.suffix.all fun n => nalType n == 40) &&
    (match (picHeadSets x e pic).1.vui with
      | some v => (v.hrd.map fun h => hrdSeisOk r p v h l).getD true
      | none => true) && has 0 == (hrd && p.irap) && has 1 == hrd && (has 137 && has 144) == (pq && p.irap) &&
    (has 137 || has 144) == (pq && p.irap) &&
    ((l.filter fun m => m.1 == 6).map fun m => (readSe.run (bitsOf m.2)).map (·.1)) ==
      (if p.band.map (·.1) = some 0 then [some ((e.refreshPeriod : Int) - 1)] else []) &&
    seisOf pic.suffix == (if r.hash then [(132, hashPayload (profileBits e.profile) pic.recon)] else [])

/-- Whether a CTU lies in the refresh band of a picture. -/
def inBand (p : EncPic) (col : Nat) : Bool := (p.band.map fun b => decide (b.1 ≤ col) && decide (col < b.1 + b.2)).getD false

/-- QP delta of a CTU: that of the highest region that it lies in (09 R344). -/
def roiDelta (roi : List Byte) (col row : Nat) : Option Int :=
  (((List.range (fieldAt roi 2 1)).filter fun k =>
      decide (fieldAt roi (4 + 8 * k) 2 ≤ col) && decide (col ≤ fieldAt roi (7 + 8 * k) 2) &&
        decide (fieldAt roi (6 + 8 * k) 1 ≤ row) && decide (row ≤ fieldAt roi (9 + 8 * k) 1)).getLast?).map
    fun k => signed 8 (fieldAt roi (0xA + 8 * k) 1)

/-- Whether a CTU's QP is what its session may use: rate control chooses QP_I or QP_P under RC_MODE 0, else a QP of the range, and
its region's delta is added to that (09 R342-R344). After the cap a CTU that must be intra is at QP 51. -/
def ctuQpOk (r : RateCfg) (e : EncCfg) (capped : Bool) (delta : Option Int) (intra : Bool) (u : CtuStat) : Bool :=
  let qp := signed 8 u.qp
  let base : Int := if intra then r.qpI else r.qpP
  (capped && intra && qp == 51) ||
    ((if e.rcMode = 0 then u.q == base else decide (r.qpMin ≤ u.q) && decide (u.q ≤ r.qpMax)) &&
      qp == match delta with
        | some d => max r.qpMin (min r.qpMax (u.q + d))
        | none => u.q)

/-- Whether a place of a picture must be intra: in an IRAP picture, and in the refresh band (09 R339). -/
def mustIntra (p : EncPic) (col : Nat) : Bool := p.irap || inBand p col

/-- Whether a CTU's statistics are those of its place: intra and not skipped where it must be, the band and region bits, and its QP
(09 R339, R342-R345). -/
def ctuOk (r : RateCfg) (e : EncCfg) (p : EncPic) (roi : List Byte) (capped : Bool) (col row : Nat) (u : CtuStat) : Bool :=
  let intra := mustIntra p col
  let delta := roiDelta roi col row
  decide (u.mode < 16) && !(bit u.mode 0 && bit u.mode 1) && (!intra || bit u.mode 0) && bit u.mode 2 == inBand p col &&
    bit u.mode 3 == delta.isSome && ctuQpOk r e capped delta intra u

/-- CTUs at the end of a tile column, in the order in which its core codes them, that may be those after the cap: skipped, or at QP
51 where they must be intra (09 R343). -/
def cappedTail (first n : Nat) (p : EncPic) (ctus : List CtuStat) (tile : Nat × Nat × Nat) : Nat :=
  let own := ctus.zipIdx.filter fun u => decide (tile.2.1 ≤ first + u.2 % max n 1) && decide (first + u.2 % max n 1 < tile.2.1 + tile.2.2)
  (own.reverse.takeWhile fun u => if mustIntra p (first + u.2 % max n 1) then signed 8 u.1.qp == 51 else bit u.1.mode 1).length

/-- Whether the statistics of a picture cover this device's CTUs in raster order and are those of their places; their bits
are in the slices; after the cap the rest, at the end of each tile column, is skipped, or at QP 51 (09 R343, R345). -/
def ctusOk (s : State) (x : EncSess) (e : EncCfg) (p : EncPic) (pic : CodedPic) : Bool :=
  let (first, n) := partOf s p.cfg e
  let rows := (ctuSize e.width e.height).2
  let r := rateIn p.cfg x.core e
  let roi := (blkIn p.cfg 0x4003 x.core 0).getD []
  pic.ctus.length == n * rows &&
    (pic.ctus.zipIdx.all fun u => ctuOk r e p roi pic.cappedAt.isSome (first + u.2 % max n 1) (u.2 / max n 1) u.1) &&
    decide ((pic.ctus.map (·.bits)).sum ≤ 8 * (pic.nals.map List.length).sum) &&
    match pic.cappedAt with
    | none => true
    | some k => decide (n * rows ≤ k + (p.tiles.map (cappedTail first n p pic.ctus)).sum)

/-- The luma plane of a picture in its tap's slot layout: some columns of it (07 R266). -/
def lumaOf (e : EncCfg) (input : List Byte) (c0 n : Nat) : Plane :=
  let k := if e.profile = 1 then 1 else 2
  let pitch := alignUp (k * e.width) 256
  (List.range e.height).map fun y =>
    let row := (input.drop (y * pitch + k * c0)).take (k * n)
    (List.range n).map fun x => fieldAt row (k * x) k

/-- CTU columns of a reference picture that are refreshed in a picture's cycle (09 R339). -/
def refreshedColumns (x : EncSess) (p : EncPic) (serial : Nat) : Nat :=
  ((x.dpb.find? fun q => q.serial == serial).map fun q => if q.cycle = p.cycle then q.edge else 0).getD 0

/-- Whether the motion vectors are those of the search, and keep to the columns that the refresh and the array allow them; every CTU
that is not intra has its vectors, which give its statistics (09 R339, R340, R345, 14 R492). -/
def motionOk (s : State) (x : EncSess) (e : EncCfg) (p : EncPic) (pic : CodedPic) : Bool :=
  let (c0, n) := codedColumns s p.cfg e
  let cols := cdiv n 64
  let cur := lumaOf e p.input c0 n
  let refs := p.refs.map fun k => ((x.dpb.find? fun q => q.serial == k).map (·.luma)).getD []
  let qp (m : CtuMotion) (_ : Nat) : Int :=
    ((pic.ctus[m.y / 64 * cols + m.x / 64]?).map fun u => signed 8 u.qp).getD 0
  let edge := (p.band.map fun b => 64 * b.1 - c0).getD 0
  let done (k : Nat) : Nat := 64 * refreshedColumns x p (p.refs.getD k 0) - c0
  (pic.ctus.zipIdx.all fun u => bit u.1.mode 0 ||
    match pic.motion.find? fun m => m.x == 64 * (u.2 % max cols 1) && m.y == 64 * (u.2 / max cols 1) with
    | some m => interStatOk (profileBits e.profile) (alignUp n 8) (alignUp e.height 8) cur refs m u.1
    | none => false) && pic.motion.all fun m =>
    ctuSearchOk (qp m) (profileBits e.profile) cur refs m && (e.rcMode != 3 || unitsWithin 0 ((n : Int) - 1) m) &&
      (m.units.all fun u => !mustIntra p ((c0 + u.x) / 64) && refreshOk edge (done u.ref) u)

/-- Whether the reconstruction has the picture's size, in whole CUs of 8 × 8 (07 R266, 09 R326). -/
def reconOk (s : State) (e : EncCfg) (p : EncPic) (pic : CodedPic) : Bool :=
  let w := alignUp (codedColumns s p.cfg e).2 8
  let hy := alignUp e.height 8
  let size (l : Plane) (w h : Nat) : Bool := l.length == h && l.all fun r => r.length == w
  match pic.recon with
  | [y, cb, cr] =>
    let h := if e.profile = 4 then hy else hy / 2
    size y w hy && size cb (w / 2) h && size cr (w / 2) h
  | _ => false

/-- Whether the cores can have made this of a picture: its parameter sets, SEI messages and slices, its statistics, its
reconstruction and its motion vectors are as the session's configuration and the rules have them. -/
def pictureOk (s : State) (x : EncSess) (e : EncCfg) (p : EncPic) (pic : CodedPic) : Bool :=
  let (c, r) := ctuSize e.width e.height
  let starts := tileStarts c ((p.tiles.map (·.2.1)).headD 0) (p.tiles.map (·.2.2)) (stepParts r x.sliceRows)
  let (q, pps) := picHeadSets x e pic
  let refs : List Int := p.refs.filterMap fun k => (x.dpb.find? fun f => f.serial == k).map fun f => (f.poc : Int) - p.poc
  setsOk s x e p pic && seisOk x e p pic && slicesOk q pps pic.nals p.irap (c * r) p.poc refs starts && ctusOk s x e p pic && reconOk s e p pic &&
    motionOk s x e p pic

/-- The reconstruction of a picture in the decoded picture buffer. The whole of an IRAP picture counts as refreshed in the
cycle that it begins. -/
def refPic (e : EncCfg) (p : EncPic) (luma : Plane) : RefPic :=
  { serial := p.serial, good := false, luma := luma, poc := p.poc, cycle := p.cycle
    edge := match p.band with
      | some b => b.1 + b.2
      | none => (ctuSize e.width e.height).1 + 1 }

/-- ENC_PICTURE_DONE (06 R220, 09 R343, R360): the picture in the cores is coded, within its cap. -/
def execEncPictureDone (session : Nat) (pic : CodedPic) (s : State) : Host.Outcome State Fault Refusal :=
  .next (match sessionNow s session with
    | some (x, now) =>
      match x.pics.find? (·.coded.isNone) with
      | some p =>
        let e := p.enc x now
        if !enginesClocked s || p.bad || !inputWhole e p || decide (p.cap < picBits pic) || !pictureOk s x e p pic then s
        else
          let r := p.rate x now
          let fill := fillerBytes x r e (picBits pic)
          let recon : RefPic := refPic e p (pic.recon.headD [])
          let s1 := modEnc x.id (fun y => countPicture r e (picBits pic) fill (qpMean pic)
            { y with
              pics := y.pics.map fun q => if q.serial = p.serial then { q with coded := some pic, filler := fill } else q
              dpb := recon :: y.dpb, sets := if pic.paramSets.isEmpty then y.sets else pic.paramSets }) s
          let s2 := raise (192 + 12 * x.core) (unitEvent 0x4001 0x40 x.core (some p.serial)
            (p.serial + 2 ^ 16 * b2n p.irap + 2 ^ 24 * unsigned 8 (qpMean pic) + 2 ^ 32 * (picBits pic / 8 % 2 ^ 32)) s1)
          let s3 := match pic.cappedAt with
            | some n => raise (196 + 12 * x.core)
                (unitEvent 0x4004 0x40 x.core (some p.serial) (p.serial + 2 ^ 16 * (n % 65536)) s2)
            | none => s2
          tryClose x.id (releaseReady x.id x.pics.length s3)
      | none => s
    | none => s)

/-- ENC_OUTPUT_RELEASE (09 R351): output that waits goes out as credits return. -/
def execEncOutputRelease (session : Nat) (s : State) : Host.Outcome State Fault Refusal :=
  .next (match sessionNow s session with
    | some (x, e) => if enginesClocked s then pumpSession x e.queue s else s
    | none => s)

/-! ## Verdicts and rollbacks (06 R220-R223, 09 R352, R353) -/

/-- The verdict of a frame of stream 0 reaches an in-line session. A frame that had not been started counts as an empty period
when it is retracted. -/
def encVerdictOne (serial flags : Nat) (x : EncSess) (s : State) : State :=
  match encIn s.cfg.active x.core with
  | none => s
  | some e =>
    if e.source ≠ 0 then s
    else if x.pics.any (·.serial == serial) then
      let mark (q : EncPic) : EncPic := if q.serial = serial then { q with verdict := some flags } else q
      releaseReady x.id x.pics.length (modEnc x.id (fun y => { y with pics := y.pics.map mark }) s)
    else if bit flags 0 && (x.waiting.any fun q => q.serial == serial) then
      modEnc x.id (fun y => idlePeriod (rateIn s.cfg.active x.core e) e
        { y with waiting := y.waiting.filter (·.serial != serial) }) s
    else s

/-- The verdict of a frame of stream 0 reaches the in-line sessions. -/
def encVerdict (serial flags : Nat) (s : State) : State := s.cod.enc.foldl (fun t x => encVerdictOne serial flags x t) s

/-- A session set back to a checkpoint (06 R219). Its decoded picture buffer keeps what earlier pictures left in it. -/
def setBack (k : Ckpt) (y : EncSess) : EncSess :=
  { y with
    gop := k.gop, refresh := k.refresh, cycle := k.cycle, fullness := some k.fullness, lastCoded := k.lastCoded, poc := k.poc, qpModel := k.qpModel
    recent := k.recent, roi := k.roi, substituted := k.substituted, numRefs := k.numRefs, sliceRows := k.sliceRows, sao := k.sao }

/-- Some empty periods. -/
def emptyPeriods (r : RateCfg) (e : EncCfg) : Nat → EncSess → EncSess
  | 0, y => y
  | n + 1, y => emptyPeriods r e n (emptyPeriod r e y)

/-- A picture that started after a retracted one counts as though that one had not been started: its checkpoint is taken
again, and it advances the session from there, with the empty periods that followed it (06 R222, log 37). -/
def replay (r : RateCfg) (e : EncCfg) (y : EncSess) (q : EncPic) : EncSess :=
  let q1 := { q with ckpt := checkpoint y r }
  let y1 := startedPicture r e q1 { y with pics := y.pics ++ [q1] }
  let y2 := if y.gop = 0 ∧ !q.irap then { y1 with gop := 0 } else y1
  emptyPeriods r e q.idle (match q.coded with
    | some c => countPicture r e (picBits c) q.filler (qpMean c) y2
    | none => y2)

/-- Pictures of which the first follows a gap; with none the session's next does. -/
def passGap (gap : Bool) (l : List EncPic) : List EncPic := l.modify 0 fun q => { q with gap := q.gap || gap }

/-- Restores the checkpoint of a retracted picture: its period counts as empty, and so do those after it, its reconstruction is
dropped, and the pictures that started after it follow on from there (06 R222). -/
def restore (p : EncPic) (r : RateCfg) (e : EncCfg) (y : EncSess) : EncSess :=
  let kept := y.pics.takeWhile (·.serial != p.serial)
  let after := passGap p.gap ((y.pics.dropWhile (·.serial != p.serial)).drop 1)
  let back := { y with pics := kept, dpb := y.dpb.filter (·.serial != p.serial), gap := y.gap || (p.gap && after.isEmpty) }
  let y0 := setBack p.ckpt { back with pics := kept.modify (kept.length - 1) fun q => { q with idle := q.idle + 1 + p.idle } }
  let y1 := emptyPeriods r e (1 + p.idle) y0
  after.foldl (replay r e) y1

/-- CTU rows whose source rows have all entered (09 R352). -/
def rowsDone (e : EncCfg) (p : EncPic) : Nat := if e.height ≤ p.rows then cdiv e.height 64 else p.rows / 64

/-- ENC_ROLLBACK (06 R222, R223): the retracted picture of a session is abandoned. -/
def execEncRollback (session : Nat) (s : State) : Host.Outcome State Fault Refusal :=
  .next (match sessionNow s session with
    | some (x, e) =>
      match x.pics.find? (·.bad) with
      | some p =>
        if !enginesClocked s then s
        else
          let s1 := modEnc x.id (restore p (p.rate x e) (p.enc x e)) s
          let s2 := raise (193 + 12 * x.core) (unitEvent 0x4002 0x40 x.core (some p.serial)
            (p.serial + 2 ^ 16 * (rowsDone (p.enc x e) p % 65536) + 2 ^ 32 * p.verdict.getD 0) s1)
          tryClose x.id (releaseReady x.id x.pics.length s2)
      | none => s
    | none => s)

/-- A session without the oldest picture that waits for slices: the next one follows a gap. -/
def dropDue (y : EncSess) (rest : List EncPic) : EncSess :=
  { y with
    due := passGap true rest
    pics := if rest.isEmpty then passGap true y.pics else y.pics
    gap := y.gap || (rest.isEmpty && y.pics.isEmpty) }

/-- ARRAY_SLICES_MISSING (14 R493): the leader drops a COMMITTED picture that lacks slices two frame periods after its
verdict, as under 09 R351. -/
def execArraySlicesMissing (session : Nat) (s : State) : Host.Outcome State Fault Refusal :=
  .next (match sessionNow s session with
    | some (x, _) =>
      match x.due with
      | p :: rest =>
        if enginesClocked s && isLeader s then
          assemble x.id (raise (195 + 12 * x.core) (unitEvent 0x4005 0x40 x.core (some p.serial) p.serial
            (modEnc x.id (fun y => { dropDue y rest with slices := Tbl.erase y.slices p.serial }) s)))
        else s
      | [] => s
    | none => s)

/-- A member's slices reach the leader (14 R493). -/
def takeSlices (dev serial : Nat) (nals : List (List Byte)) (s : State) : State :=
  match s.cod.enc.find? fun x => ((encIn s.cfg.active x.core).map (·.rcMode)) == some 3 with
  | some x => assemble x.id (modEnc x.id (fun y =>
      { y with slices := Tbl.set y.slices serial (Tbl.set (Tbl.get [] y.slices serial) dev nals) }) s)
  | none => s

/-- A device's statistics reach the array session; complete again, they may be told late once more (09 R347). -/
def takeStats (dev serial : Nat) (v : PeerStats) (s : State) : State :=
  match s.cod.enc.find? fun x => ((encIn s.cfg.active x.core).map (·.rcMode)) == some 3 with
  | some x => keepStats x.id dev serial v s
  | none => s

/-! ## ENC.CLOSE (09 R354) -/

/-- A session stops: provisional work is dropped, COMMITTED pictures go out. -/
def stopSession (source : Nat) (y : EncSess) : EncSess :=
  let kept (p : EncPic) : Bool := source != 0 || p.verdict.map (bit · 0) == some false
  { y with waiting := [], pics := y.pics.filter kept }

/-- Checks of ENC_CLOSE. -/
def checkEncClose (t : State) (c : Cmd) : Option Reply :=
  inOrder t c (blockFault laySession c.region (sessionFaults t c)) none none none

/-- Effect of ENC_CLOSE. -/
def effectEncClose (c : Cmd) (t : State) : State :=
  match encAt t c.target with
  | some x =>
    let source := ((encIn t.cfg.active x.core).map (·.source)).getD 0
    tryClose x.id (modEnc x.id (fun y => { stopSession source y with closing := some ⟨c.fn, c.seq⟩ }) (setWaiting c t))
  | none => t

/-- ENC_CLOSE (09 R354). -/
def execEncClose (r : CmdRef) (s : State) : Host.Outcome State Fault Refusal :=
  .next (runCmd r 0x4002 checkEncClose effectEncClose s)

end Sys2Proof.Machine
end

