-- ==== Sys2Proof/Machine/Decoding.lean ====
section
/-! DEFINITION. Decode sessions (09 R326, R334, R355-R359): the commands of class DEC, the access units of the byte stream
with their picture order counts and reference pictures, and the output of decoded pictures. What H.265 makes of the bits of
a slice, the samples and the CTUs lost, comes with the row of the picture, and the errors that it finds with the data (log
37). -/

namespace Sys2Proof.Machine

/-! ## Decode sessions (09 R334, R355-R359) -/

/-- Offset 0 where SESSION is not the decode session of the target (09 R329). -/
def decFaults (s : State) (c : Cmd) : List Nat :=
  faultIf ((decAt s c.target).map (·.id) != some (fieldAt c.region 0 2)) 0

/-- Relations of `DEC.OPEN`. -/
def decOpenFaults (s : State) (c : Cmd) : List Nat :=
  let b := c.region
  faultIf ((coresIn (fieldAt b 0 1)).head? != some c.target) 0 ++ faultIf (!levelKnown (fieldAt b 2 1)) 2 ++
  faultIf (decide (fieldAt b 0x14 4 < pictureBytes 2 (fieldAt b 4 2) (fieldAt b 6 2))) 4 ++
  bufferFaults s 0x4101 (cfgKey 0x4101 c.target 0) b

/-- Checks of `DEC.OPEN`. -/
def decOpenCheck (s : State) (c : Cmd) : Option Reply :=
  inOrder s c
    (firstFail [blockFault layDecOpen c.region (decOpenFaults s c),
      arenaCheck s (resulting s) c.target (decArena c.region)]) none none (coresBusy s c)

/-- Effect of DEC_OPEN. -/
def effectDecOpen (c : Cmd) (t : State) : State :=
  let x : DecSess := { id := sessionId t, core := c.target, cores := fieldAt c.region 0 1, blk := c.region.take (blockLen layDecOpen) }
  let t1 : State := { t with cod := { t.cod with nextId := t.cod.nextId + 1, dec := t.cod.dec ++ [x] } }
  complete c (okReply x.id 0) (startLeavesSafe 0x40 c.target t1)

/-- DEC_OPEN (09 R334): the start command of a decode session (03 R96). -/
def execDecOpen (r : CmdRef) (s : State) : Host.Outcome State Fault Refusal :=
  .next (runCmd r 0x4101 decOpenCheck effectDecOpen s)

/-- An error of a byte stream (09 R357, R358, R360). -/
def decError (core : Nat) (s : State) (f : DecFault) : State :=
  raise (199 + 12 * core) (unitEvent 0x4102 0x41 core none (f.kind % 256 + 2 ^ 32 * (f.offset % 2 ^ 32)) s)

/-- Whether a profile lies within the highest that a session accepts (09 R326, R357): Main, Main 10, Main 4:2:2 10. -/
def profileWithin (most p : Nat) : Bool := [1, 2, 4].contains p && decide (p ≤ most)

/-- Whether a profile has a chroma format and bit depths (09 R326). -/
def profileHolds (profile chroma : Nat) (bits : Nat × Nat) : Bool :=
  match profile with
  | 1 => chroma == 1 && bits == (8, 8)
  | 2 => chroma == 1 && decide (bits.1 ≤ 10) && decide (bits.2 ≤ 10)
  | _ => decide (chroma ≤ 2) && decide (bits.1 ≤ 10) && decide (bits.2 ≤ 10)

/-- Whether a set names a profile or level beyond a session's limits. -/
def ptlBeyond (blk : List Byte) (t : Ptl) : Bool :=
  !(profileWithin (fieldAt blk 1 1) t.profile && decide (t.level ≤ fieldAt blk 2 1))

/-- What a parameter set breaks: 4 where it cannot be read or is outside the subset, 5 where it names a profile, level or
size beyond the session's limits (09 R326, R357, R360). -/
def setFault (blk : List Byte) (nal : List Byte) : Option Nat :=
  if nalType nal = 32 then match readVps.run (nalBits nal) with
    | none => some 4
    | some (v, _) => if ptlBeyond blk v.2 then some 5 else none
  else if nalType nal = 33 then match readSps.run (nalBits nal) with
    | none => some 4
    | some (q, _) =>
      if ptlBeyond blk q.ptl || decide (fieldAt blk 4 2 < q.width) || decide (fieldAt blk 6 2 < q.height) then some 5
      else if profileHolds q.ptl.profile q.chroma q.bits then none else some 4
  else if (readPps.run (nalBits nal)).isNone then some 4 else none

/-- The number of a parameter set, as far as it can be read. -/
def setNumber (nal : List Byte) : Option Nat :=
  let head : Reader Nat := match nalType nal with
    | 32 => readU 4
    | 33 => do
      let _ ← readU 4
      let subs ← readU 3
      let _ ← readFlag
      let _ ← readPtl subs
      readUe
    | _ => readUe
  (head.run (nalBits nal)).map (·.1)

/-- The parameter set of a type and number. -/
def setOf (y : DecSess) (typ id : Nat) : Option (List Byte) :=
  y.sets.find? fun n => nalType n == typ && setNumber n == some id

/-- The sets of a picture that names a PPS: they are all there (09 R357). -/
def setsFor (y : DecSess) (id : Nat) : Option (List Byte × List Byte) :=
  match setOf y 34 id with
  | none => none
  | some p => match readPps.run (nalBits p) with
    | none => none
    | some (r, _) => match setOf y 33 r.sps with
      | none => none
      | some n => match readSps.run (nalBits n) with
        | none => none
        | some (q, _) => (setOf y 32 q.vps).map fun _ => (n, p)

/-- An SPS and a PPS as their NAL units say. -/
def parsedSets (sps pps : List Byte) : Option (Sps × Pps) :=
  match readSps.run (nalBits sps), readPps.run (nalBits pps) with
  | some (q, _), some (r, _) => some (q, r)
  | _, _ => none

/-- The access unit that is open has all its NAL units. -/
def closeAu (y : DecSess) : DecSess :=
  { y with parse := .none, aus := y.aus.modify (y.aus.length - 1) fun a => { a with whole := true } }

/-- Every picture so far may go out: a new coded video sequence follows, or the stream ends. -/
def flushAus (y : DecSess) : DecSess := { y with aus := y.aus.map fun a => { a with whole := true, flush := true } }

/-- A parameter set: it replaces the one of its number, or is discarded with it; pictures that refer to a set that is not there are
skipped until an IRAP picture whose sets are (09 R357). -/
def takeSet (y : DecSess) (o : Nat) (nal : List Byte) : DecSess × List DecFault :=
  let id := setNumber nal
  let y1 := { closeAu y with sets := y.sets.filter fun n => !(nalType n == nalType nal && setNumber n == id) }
  match setFault y.blk nal with
  | some k => ({ y1 with waitIrap := y1.waitIrap || id.isNone }, [{ kind := k, offset := o }])
  | none => ({ y1 with sets := y1.sets ++ [nal] }, [])

/-- Luma size of a CTU. -/
def Sps.ctu (q : Sps) : Nat := 2 ^ (3 + q.blocks.getD 0 0 + q.blocks.getD 1 0)

/-- CTU columns and rows of the pictures of an SPS. -/
def Sps.ctus (q : Sps) : Nat × Nat := (cdiv q.coded.1 q.ctu, cdiv q.coded.2 q.ctu)

/-- nuh_temporal_id_plus1. -/
def temporalId1 (nal : List Byte) : Nat := (nal.getD 1 0).toNat % 8

/-- nuh_layer_id. -/
def layerId (nal : List Byte) : Nat := (nal.getD 0 0).toNat % 2 * 32 + (nal.getD 1 0).toNat / 8

/-- The picture order count of a picture from its low bits and that of the picture before (H.265 8.3.1). -/
def pocFrom (bits : Nat) (before : Int) (lsb : Nat) : Int :=
  let most : Int := 2 ^ bits
  let low := before % most
  let high := before - low
  if (lsb : Int) < low ∧ most / 2 ≤ low - lsb then high + most + lsb
  else if low < lsb ∧ most / 2 < lsb - low then high - most + lsb
  else high + lsb

/-- A reference picture of a slice header among those of the buffer: its picture order count, or the low bits of it (H.265
8.3.2). -/
def longIs (bits : Nat) (poc : Int) (e : Nat × Option Nat × Bool) (q : Int) : Bool :=
  let most : Int := 2 ^ bits
  match e.2.1 with
  | none => q % most == e.1
  | some c => q == poc - poc % most - c * most + e.1

/-- A slice begins a picture: its sequence, its picture order count, and its reference pictures (09 R326, R355-R359; H.265 8.1.3,
8.3.1, 8.3.2). RASL pictures of an IRAP picture at which decoding begins are skipped. -/
def beginAu (typ tid1 o : Nat) (sps pps : List Byte) (q : Sps) (h : SliceHead) (y : DecSess) : DecSess :=
  let irap := decide (16 ≤ typ) && decide (typ ≤ 23)
  let idr := typ == 19 || typ == 20
  let start := irap && (idr || typ < 19 || y.fresh)
  let rasl := typ == 8 || typ == 9
  let y0 := closeAu y
  if (y.waitIrap && !irap) || (rasl && y.noRasl) then { y0 with parse := .skipping }
  else
    let poc := if start then (if idr then 0 else (h.lsb : Int)) else pocFrom q.pocBits y.poc h.lsb
    let kept := if start then [] else y.kept
    let shorts := h.rps.map fun e => (poc + e.1, e.2)
    let there := kept.filter fun k => shorts.any (·.1 == k) || h.longs.any fun e => longIs q.pocBits poc e k
    let missing := (shorts.any fun e => e.2 && !kept.contains e.1) ||
      h.longs.any fun e => e.2.2 && !kept.any (longIs q.pocBits poc e)
    let counts := tid1 == 1 && !(rasl || typ == 6 || typ == 7) && !(typ < 15 && typ % 2 == 0)
    let cvs := if start then y.cvs + 1 else y.cvs
    let y1 := if start then flushAus y0 else y0
    { y1 with
      parse := .taking, waitIrap := false, fresh := if irap then false else y.fresh, noRasl := if irap then start else y.noRasl
      cvs := cvs, poc := if counts then poc else y.poc, kept := there ++ [poc]
      aus := y1.aus ++ [{ sps := sps, pps := pps, cvs := cvs, poc := poc, lsb := h.lsb, irap := irap, out := h.out, refs := there
                          missing := missing, slices := [(h.address, o)] }] }

/-- A slice joins the picture that is open. -/
def joinAu (h : SliceHead) (o : Nat) (y : DecSess) : DecSess :=
  { y with aus := y.aus.modify (y.aus.length - 1) fun a => { a with slices := a.slices ++ [(h.address, o)] } }

/-- The picture that is open loses CTUs. -/
def breakAu (y : DecSess) : DecSess :=
  match y.parse with
  | .taking => { y with aus := y.aus.modify (y.aus.length - 1) fun a => { a with broken := true } }
  | _ => y

/-- A slice that has been taken, with the errors in it: those of its bits, and a gap where it begins a picture past its first CTU
(09 R358). -/
def withErrors (errs : List DecFault) (gap : Bool) (o : Nat) (y : DecSess) : DecSess × List DecFault :=
  match y.parse with
  | .taking =>
    let found := errs.filter fun f => (f.kind == 1 || f.kind == 2) && f.offset == o
    let l := ((if gap then [DecFault.mk 2 o] else []) ++ found).eraseDups
    (if l.isEmpty then y else breakAu y, l)
  | _ => (y, [])

/-- A slice NAL unit: it joins the picture that is open or begins one; its sets must be there, and a header out of range discards it
(09 R357, R358). -/
def takeSlice (errs : List DecFault) (y : DecSess) (o : Nat) (nal : List Byte) : DecSess × List DecFault :=
  let typ := nalType nal
  let bad : DecSess × List DecFault := (y, [{ kind := 1, offset := o }])
  match (readSlicePps typ).run (nalBits nal) with
  | none => bad
  | some ((id, first), _) =>
    let y0 := if first then closeAu y else y
    match setsFor y id with
    | none => ({ closeAu y with waitIrap := true, parse := .skipping }, [])
    | some (sps, pps) => match parsedSets sps pps with
      | none => bad
      | some (q, r) =>
        match (readSlice typ (q.ctus.1 * q.ctus.2) q r).run (nalBits nal) with
        | none => (breakAu y0, bad.2)
        | some (h, _) =>
          let joins := h.dep || (y.aus.getLast?).map (·.lsb) == some h.lsb
          if !first && y.parse = .skipping then (y, [])
          else if !first && y.parse = .taking && joins then withErrors errs false o (joinAu h o y)
          else if h.dep then bad
          else withErrors errs (h.address != 0) o (beginAu typ (temporalId1 nal) o sps pps q h y)

/-- A picture hash belongs to the picture that is open. -/
def takeHash (o : Nat) (nal : List Byte) (y : DecSess) : DecSess :=
  match (seisOf [nal]).find? fun m => m.1 == 132, y.parse with
  | some m, .taking => { y with aus := y.aus.modify (y.aus.length - 1) fun a => { a with hash := some (m.2, o) } }
  | _, _ => y

/-- A session parses one NAL unit. Those of other layers, and of types that the profiles reserve, are ignored. -/
def takeNal (errs : List DecFault) (a : DecSess × List DecFault) (n : Nat × List Byte) : DecSess × List DecFault :=
  let (y, l) := a
  let typ := nalType n.2
  let add (r : DecSess × List DecFault) : DecSess × List DecFault := (r.1, l ++ r.2)
  if 128 ≤ (n.2.getD 0 0).toNat ∨ temporalId1 n.2 = 0 then (y, l ++ [{ kind := 1, offset := n.1 }])
  else if layerId n.2 ≠ 0 then (y, l)
  else if 32 ≤ typ ∧ typ ≤ 34 then add (takeSet y n.1 n.2)
  else if typ ≤ 9 ∨ (16 ≤ typ ∧ typ ≤ 21) then add (takeSlice errs y n.1 n.2)
  else if typ = 36 ∨ typ = 37 then ({ flushAus (closeAu y) with fresh := true }, l)
  else if typ = 40 then (takeHash n.1 n.2 y, l)
  else if typ = 35 ∨ typ = 39 then (closeAu y, l)
  else (y, l)

/-- Relations of `DEC.SUBMIT`: the data is there (R38). -/
def submitFaults (s : State) (c : Cmd) : List Nat :=
  let n := fieldAt c.region 4 4
  decFaults s c ++ faultIf (decide (16777216 < n) || decide (c.region.length < 16 + n)) 4

/-- Checks of DEC_SUBMIT. -/
def checkDecSubmit (t : State) (c : Cmd) : Option Reply :=
  inOrder t c (blockFault layDecSubmit c.region (submitFaults t c)) none none none

/-- A session takes submitted data, with the errors found in it, of which `errs` are those in the bits of slices: DISCONT
drops the decoder's state first, its parameter sets and the pictures not yet output included, and an IRAP picture must come;
after END every picture may go out (09 'DEC.SUBMIT', log 37). -/
def takeSubmitted (errs : List DecFault) (flags : Nat) (data : List Byte) (y : DecSess) : DecSess × List DecFault :=
  let y0 : DecSess := if bit flags 1 then
      { id := y.id, core := y.core, cores := y.cores, blk := y.blk, rd := y.rd, wr := y.wr, count := y.count, pics := y.pics
        work := y.work, cvs := y.cvs }
    else y
  let (y1, l) := (nalUnits data).foldl (takeNal errs) (y0, [])
  (if bit flags 0 then { flushAus (closeAu y1) with fresh := true } else y1, l)

/-- Effect of DEC_SUBMIT; `errs` are the errors that decoding finds in the bits of slices (09 R358). -/
def effectDecSubmit (errs : List DecFault) (c : Cmd) (t : State) : State :=
  match decAt t c.target with
  | some x =>
    let (y, l) := takeSubmitted errs (fieldAt c.region 2 1) ((c.region.drop 16).take (fieldAt c.region 4 4)) x
    complete c {} (raise (200 + 12 * x.core) (l.foldl (decError x.core) (modDec x.id (fun _ => y) t)))
  | none => t

/-- DEC_SUBMIT (09 R355, R357): it completes when its data has been parsed. -/
def execDecSubmit (r : CmdRef) (errs : List DecFault) (s : State) : Host.Outcome State Fault Refusal :=
  .next (runCmd r 0x4102 checkDecSubmit (effectDecSubmit errs) s)

/-- Checks of DEC_CLOSE. -/
def checkDecClose (t : State) (c : Cmd) : Option Reply :=
  inOrder t c (blockFault laySession c.region (decFaults t c)) none none none

/-- Effect of DEC_CLOSE. -/
def effectDecClose (c : Cmd) (t : State) : State :=
  complete c {} { t with cod := { t.cod with dec := t.cod.dec.filter (·.core != c.target) } }

/-- DEC_CLOSE (09 'DEC.CLOSE'): the picture in progress is abandoned. -/
def execDecClose (r : CmdRef) (s : State) : Host.Outcome State Fault Refusal :=
  .next (runCmd r 0x4103 checkDecClose effectDecClose s)

/-- FORMAT of a decoded picture (09 R355). -/
def decFormat (q : Sps) : Nat := if q.chroma = 2 then 2 else if q.chroma = 1 ∧ q.bits = (8, 8) then 4 else 3

/-- A luma or chroma row of samples of some bits in its layout (09 R355). -/
def sampleRow (fmt bits : Nat) (l : List Nat) : List Byte :=
  let b := l.flatMap fun v => if fmt = 4 then leBytes 1 v else leBytes 2 (if bits = 8 ∧ fmt = 2 then 4 * v else v)
  b ++ List.replicate (alignUp b.length 256 - b.length) 0

/-- Some columns and rows of a plane. -/
def cropped {α : Type} (x y w h : Nat) (p : List (List α)) : List (List α) := ((p.drop y).take h).map fun r => (r.drop x).take w

/-- Columns and rows of luma samples in one of chroma. -/
def Sps.chromaScale (q : Sps) : Nat × Nat := (2, if q.chroma = 1 then 2 else 1)

/-- The conformance window of a decoded picture in a slot's layout; 4:0:0 has chroma 512 (09 R355, 07 R266). -/
def decodedBytes (q : Sps) (luma : List (List Nat)) (cbcr : List (List (Nat × Nat))) : List Byte :=
  let (cx, cy) := q.chromaScale
  let fmt := decFormat q
  let chroma := if q.chroma = 0 then List.replicate (q.height / 2) (List.replicate q.width 512)
    else (cropped (q.corner.1 / cx) (q.corner.2 / cy) (q.width / cx) (q.height / cy) cbcr).map fun r => r.flatMap fun e => [e.1, e.2]
  padAlign 4096 ((cropped q.corner.1 q.corner.2 q.width q.height luma).flatMap (sampleRow fmt q.bits.1)) ++
    chroma.flatMap (sampleRow fmt (if q.chroma = 0 then 10 else q.bits.2))

/-- The picture of the buffer closest in picture order count, the first of those as close (09 R359). -/
def closestPic (poc : Int) (l : List DpbPic) : Option DpbPic :=
  l.foldl (fun m q => match m with
    | none => some q
    | some b => if (q.poc - poc).natAbs < (b.poc - poc).natAbs then some q else some b) none

/-- A plane with the samples of its lost CTUs concealed (09 R359): row by row from the top, a sample of a lost CTU is that of
the closest picture, else that of the row above in this picture, else mid-grey. `lost` tells of a column and a row, `above` of
a row. -/
def concealRows {α : Type} (lost : Nat → Nat → Bool) (other : Option (List (List α))) (grey : α) :
    Nat → List (List α) → List α → List (List α)
  | _, [], _ => []
  | y, r :: l, above =>
    let row := r.zipIdx.map fun e =>
      if !lost e.2 y then e.1
      else match other with
        | some o => (o.getD y []).getD e.2 e.1
        | none => above.getD e.2 grey
    row :: concealRows lost other grey (y + 1) l row

/-- Mid-grey of a bit depth. -/
def midGrey (bits : Nat) : Nat := if bits = 8 then 128 else 512

/-- The samples of a picture, with conceal on its lost CTUs concealed (09 R359). -/
def concealed (on : Bool) (q : Sps) (poc : Int) (p : DecodedPic) : List (List Nat) × List (List (Nat × Nat)) :=
  let other := closestPic poc p.dpb
  let at_ (sx sy x y : Nat) : Bool := p.lost.contains (sy * y / q.ctu * q.ctus.1 + sx * x / q.ctu)
  let (cx, cy) := q.chromaScale
  let grey := midGrey q.bits.2
  if on then (concealRows (at_ 1 1) (other.map (·.luma)) (midGrey q.bits.1) 0 p.luma [],
    concealRows (at_ cx cy) (other.map (·.cbcr)) (grey, grey) 0 p.cbcr [])
  else (p.luma, p.cbcr)

/-- Which core decodes what of a picture (09 R356): its tile columns shared among the cores, its wavefront rows on all of them
in turn, or the whole picture on the lowest core. Each entry holds a core, the first tile column or CTU row, and how many. -/
def decWork (x : DecSess) (q : Sps) (p : Pps) : List (Nat × Nat × Nat) :=
  let cores := coresIn x.cores
  let n := cores.length
  let cols := (p.tiles.map (·.1)).getD 1
  let rows := q.ctus.2
  if n ≤ cols ∧ 1 < n then
    (List.zip cores (List.zip (partStarts (evenParts cols n)) (evenParts cols n))).map fun e => (e.1, e.2.1, e.2.2)
  else if p.wavefront then (List.range rows).map fun j => (cores.getD (j % max n 1) 0, j, 1)
  else (cores.take 1).map fun k => (k, 0, rows)

/-- Whether the samples of a picture have its size. -/
def samplesFit (q : Sps) (p : DecodedPic) : Bool :=
  let (cx, cy) := q.chromaScale
  let ch := if q.chroma = 0 then 0 else q.coded.2 / cy
  p.luma.length == q.coded.2 && (p.luma.all fun r => r.length == q.coded.1) && p.cbcr.length == ch &&
    p.cbcr.all fun r => r.length == q.coded.1 / cx

/-- Whether a head holds a slot of a decode session: the one of the picture that a plane of it scans out (12 R422). -/
def headHolds (s : State) (id slot : Nat) : Bool :=
  (List.range 4).any fun h => (List.range 2).any fun pl => match planeIn s.cfg.active h pl with
    | some x => x.enable && x.source == 1 && x.stream == id && (((s.heads.getD h {}).vids.getD pl none).map (·.slot)) == some slot
    | none => false

/-- The picture that goes out next: the first in output order of the oldest sequence, once none that comes before it can follow: no
more of the sequence comes, or more pictures wait than its reordering lets overtake one (09 R355; H.265 C.5.2). -/
def nextAu (x : DecSess) : Option (DecAu × Sps × Pps) :=
  match x.aus with
  | [] => none
  | a :: _ =>
    let l := x.aus.filter fun b => b.whole && b.cvs == a.cvs
    let first := l.foldl (fun m b => match m with
      | none => some b
      | some c => if b.poc < c.poc then some b else some c) none
    match first with
    | none => none
    | some b => match parsedSets b.sps b.pps with
      | none => none
      | some (q, r) => if b.flush || decide ((q.reorder.getLast?).getD 0 < (l.filter (·.out)).length) then some (b, q, r) else none

/-- Whether the pictures that come with a picture are those of the decoded picture buffer (09 R359): all that it may refer
to and all decoded before it that wait for their output are there, and each is as it was decoded. -/
def dpbOk (x : DecSess) (a : DecAu) (p : DecodedPic) : Bool :=
  let before := (x.aus.takeWhile (· != a)).filter (·.cvs == a.cvs)
  let must := a.refs ++ before.map (·.poc)
  let known := x.known.filter (·.1 == a.cvs)
  let pocs := p.dpb.map (·.poc)
  pocs.eraseDups == pocs && must.all pocs.contains && p.dpb.all fun d =>
    (must.contains d.poc || known.any fun e => e.2.poc == d.poc) && known.all fun e => e.2.poc != d.poc || e.2 == d

/-- Whether lost CTUs and errors of a picture go together: it has lost some where its slices had an error, and its first where its
first slice is not there (09 R358). -/
def lossesOk (q : Sps) (a : DecAu) (p : DecodedPic) : Bool :=
  p.lost.eraseDups == p.lost && (p.lost.all fun k => decide (k < q.ctus.1 * q.ctus.2)) && p.lost.isEmpty != a.broken &&
    ((a.slices.any fun e => e.1 == 0) || p.lost.contains 0)

/-- Whether the decoder can have made this of an access unit: a picture that was lent to others before is the same again. -/
def decodes (x : DecSess) (a : DecAu) (q : Sps) (p : DecodedPic) : Bool :=
  let px := concealed (bit (fieldAt x.blk 3 1) 0) q a.poc p
  samplesFit q p && lossesOk q a p && dpbOk x a p && x.known.all fun e => e.1 != a.cvs || e.2 == ⟨a.poc, px.1, px.2⟩ || e.2.poc != a.poc

/-- Whether a picture is output: its slices say so, and with conceal off none of its CTUs is lost (09 R359). -/
def decOutputs (x : DecSess) (a : DecAu) (p : DecodedPic) : Bool := a.out && (bit (fieldAt x.blk 3 1) 0 || p.lost.isEmpty)

/-- Whether a picture's samples belie the hash that came with it, where hashes are checked (09 R358). -/
def hashBad (x : DecSess) (a : DecAu) (q : Sps) (luma : List (List Nat)) (cbcr : List (List (Nat × Nat))) : Bool :=
  let chroma := if q.chroma = 0 then [] else [(q.bits.2, cbcr.map fun r => r.map (·.1)), (q.bits.2, cbcr.map fun r => r.map (·.2))]
  bit (fieldAt x.blk 3 1) 1 && match a.hash with
    | some h => !hashMatches h.1 ((q.bits.1, luma) :: chroma)
    | none => false

/-- The errors that a picture shows as it is decoded: a reference picture that is missing, and a hash that does not match
(09 R358). -/
def pictureFaults (a : DecAu) (mismatch : Bool) : List DecFault :=
  let at_ := ((a.slices.map (·.2)).headD 0)
  (if a.missing then [{ kind := 3, offset := at_ }] else []) ++
    (if mismatch then [{ kind := 6, offset := (a.hash.map (·.2)).getD at_ }] else [])

/-- A picture is decoded: its samples join those known of the buffer, and what nothing refers to any more is dropped (09 R359). -/
def keepDecoded (a : DecAu) (p : DecodedPic) (final : DpbPic) (y : DecSess) : DecSess :=
  let aus := y.aus.erase a
  let wanted (e : Nat × DpbPic) : Bool :=
    (e.1 == y.cvs && y.kept.contains e.2.poc) || aus.any fun b => b.cvs == e.1 && (b.poc == e.2.poc || b.refs.contains e.2.poc)
  { y with aus := aus, known := ((y.known ++ ((final :: p.dpb).map fun d => (a.cvs, d))).eraseDups).filter wanted }

/-- DEC_PICTURE (09 R355-R360): the next picture in output order is decoded; its errors are told, and it goes to the next slot of
the ring, for which it waits, and for the end of a throttling (17 R572). -/
def decPicture (x : DecSess) (a : DecAu) (q : Sps) (r : Pps) (p : DecodedPic) (s : State) : State :=
  let slot := x.wr % fieldAt x.blk 0x10 2
  let px := concealed (bit (fieldAt x.blk 3 1) 0) q a.poc p
  let mismatch := hashBad x a q px.1 px.2
  let s1 := (pictureFaults a mismatch).foldl (decError x.core) (modDec x.id (keepDecoded a p ⟨a.poc, px.1, px.2⟩) s)
  if !decOutputs x a p then s1
  else
    let s2 := modDec x.id (fun y =>
      { y with
        wr := (y.wr + 1) % 65536, count := y.count + 1, work := decWork x q r
        pics := Tbl.set y.pics slot ⟨y.count, decFormat q, q.width, q.height⟩ })
      (hbmWrite (fieldAt x.blk 8 8 + slot * fieldAt x.blk 0x14 4) (decodedBytes q px.1 px.2) s1)
    raise (198 + 12 * x.core) (unitEvent 0x4101 0x41 x.core none
      (x.count % 65536 + 2 ^ 16 * slot + 2 ^ 24 * b2n (!p.lost.isEmpty) + 2 ^ 25 * b2n mismatch + 2 ^ 26 * b2n a.missing +
        2 ^ 32 * min 65535 p.lost.length + 2 ^ 48 * (a.poc % 65536).toNat) s2)

/-- DEC_PICTURE (09 R355, R358, R359): the next picture in output order; it waits while no slot is free, and while the
device throttles (17 R572). -/
def execDecPicture (session : Nat) (pic : DecodedPic) (s : State) : Host.Outcome State Fault Refusal :=
  .next (match decSession s session with
    | some x =>
      let slots := fieldAt x.blk 0x10 2
      if !enginesClocked s || throttled s || safeOf s (myUnit s 0x40 x.core) != 0 then s
      else match nextAu x with
        | none => s
        | some (a, q, r) =>
          if !decodes x a q pic then s
          else if decOutputs x a pic && (decide (slots ≤ (x.wr + 65536 - x.rd) % 65536) || headHolds s x.id (x.wr % slots)) then s
          else decPicture x a q r pic s
    | none => s)

end Sys2Proof.Machine
end

