-- ==== Sys2Proof/Machine/Muckout.lean ====
section
/-! DEFINITION. Muck-out and the lane tests (15 R521-R526; 18 R599-R607): pipe slices, HBM spare rows, lane margins, and
the commands of class TEST. -/

namespace Sys2Proof.Machine

/-- Changes the Muck-out state. -/
def modMck (g : Mck → Mck) (s : State) : State := { s with mck := g s.mck }

/-- Muck-out of a pipe. -/
def mckPipe (s : State) (p : Nat) : MckPipe := s.mck.pipes.getD p {}

/-- Changes the Muck-out of a pipe. -/
def modMckPipe (p : Nat) (g : MckPipe → MckPipe) (s : State) : State := modMck (fun m => { m with pipes := m.pipes.modify p g }) s

/-- Whether a part of Muck-out runs: 0 pipes, 1 HBM, 2 lanes (18 'Muck-out', 17 R552, R572). -/
def mckRuns (s : State) (part : Nat) : Bool :=
  enginesClocked s && bit s.mck.flags part && !throttled s && !(part == 0 && s.sys.profile == 3)

/-- Lanes whose receiver is locked and whose interface runs (18 R605). -/
def liveLanes (s : State) : List Nat :=
  (List.range 68).filter fun l => match s.lanes[l]? with
    | some x => x.locked && !x.gen && x.loopback == 0
    | none => false

/-- Slices, spare rows: the counts that a cycle covers (18 R599, R604). -/
def allSlices : Nat := 2 ^ 48 - 1

/-- Spare rows of the device. -/
def spareRows : Nat := 24576

/-- Whether every part that takes part in the cycle has covered everything once. -/
def cycleCovered (s : State) : Bool :=
  (!bit s.mck.flags 0 || s.sys.profile == 3 || s.mck.pipes.all fun x => x.covered == allSlices) &&
  (!bit s.mck.flags 1 || s.mck.rows.length == spareRows) &&
  (!bit s.mck.flags 2 || (liveLanes s).all fun l => (Tbl.find? s.mck.lanes l).isSome)

/-- An event of Muck-out or of a start, for F0 (18 R607). -/
def testEvent (code detail : Nat) (s : State) : State := sysEvent code 0xB0 0 detail s

/-- Milliseconds between two counts of the 312.5 MHz clock (log 3). -/
def ticksMs (n : Nat) : Nat := n * 16 / 5000000

/-- A Muck-out cycle completes and the next begins (18 R607). -/
def endCycle (s : State) : State :=
  let ms := ticksMs (s.tick - s.mck.cycleTick)
  let n := min 0xFFFFFFFF (s.mck.cycles + 1)
  raise 635 (testEvent 0xB001 (n + 2 ^ 32 * min 0xFFFF ms + 2 ^ 48 * min 255 s.mck.faults)
    (modMck (fun m =>
      { m with cycles := n
               lastMs := ms % 2 ^ 32
               cycleTick := s.tick
               pipes := m.pipes.map fun x => { x with covered := 0 }
               rows := []
               lanes := []
               lanesRead := (m.lanes.filter (·.2)).length
               lanesLow := m.lowNow
               lowNow := 0
               faults := 0 }) s))

/-- Ends the cycle where everything is covered. -/
def checkCycle (s : State) : State := if s.mck.flags % 8 != 0 && cycleCovered s then endCycle s else s

/-! ## Pipe slices (18 R599-R603) -/

/-- How long a slice of a pipe lasts in µs (18 R599). -/
def sliceUs (pipe k : Nat) : Nat := (if k < 16 then 60 else if k < 40 then 100 else 150) * if pipe = 0 then 1 else 2

/-- A slice counts as skipped; the number order goes on (log 38). -/
def skipSlice (x : MckPipe) : MckPipe :=
  { x with skipped := min 0xFFFFFFFF (x.skipped + 1), covered := x.covered ||| 2 ^ x.next, next := (x.next + 1) % 48 }

/-- The slice that starts: one that runs again first, else the next that fits; slices that do not fit the whole window are
skipped, and one that does not fit what remains waits (18 R601). -/
def pickSlice (pipe : Nat) : Nat → MckPipe → MckPipe
  | 0, x => x
  | n + 1, x =>
    match x.again with
    | some k =>
      if sliceUs pipe k ≤ x.left then { x with cur := some (k, true), again := none }
      else if x.opening < sliceUs pipe k then
        pickSlice pipe n { x with again := none, skipped := min 0xFFFFFFFF (x.skipped + 1) }
      else x
    | none =>
      if sliceUs pipe x.next ≤ x.left then { x with cur := some (x.next, false), next := (x.next + 1) % 48 }
      else if x.opening < sliceUs pipe x.next then pickSlice pipe n (skipSlice x)
      else x

/-- Opens a window of so many µs and starts a slice that fits; Taut uses every second window (17 R552). -/
def openWindow (pipe us : Nat) (s : State) : State :=
  if !mckRuns s 0 then s
  else if s.sys.profile = 0 ∧ !(mckPipe s pipe).turn then modMckPipe pipe (fun x => { x with turn := true }) s
  else
    checkCycle (modMckPipe pipe (fun x =>
      pickSlice pipe 49 { x with left := us, opening := us, turn := false, again := x.again.or x.retry, retry := none }) s)

/-- A slice at a frame boundary at which no stream is ready (18 R602). -/
def idleSlice (pipe : Nat) (s : State) : State :=
  if (mckPipe s pipe).cur.isSome then s else openWindow pipe 300 s

/-- Abandons the slice that runs in a pipe: it is counted as skipped (06 R231, 18 R602). -/
def abandonSlice (pipe : Nat) (s : State) : State :=
  match (mckPipe s pipe).cur with
  | none => s
  | some (k, again) =>
    checkCycle (modMckPipe pipe (fun x =>
      { x with cur := none
               left := 0
               skipped := min 0xFFFFFFFF (x.skipped + 1)
               covered := x.covered ||| 2 ^ k
               retry := if again then some k else x.retry }) s)

/-- What the end of a slice leaves in its pipe (18 R603): a difference runs again, a second one marks the slice. -/
def sliceResult (pipe k : Nat) (again good : Bool) (x : MckPipe) : MckPipe :=
  { x with cur := none
           left := x.left - sliceUs pipe k
           covered := x.covered ||| 2 ^ k
           failed := if good then (if bit x.failed k then x.failed - 2 ^ k else x.failed)
             else if again then x.failed ||| 2 ^ k else x.failed
           retry := if good || again then x.retry else some k }

/-- Whether a window may take a further slice: Pipe A's between frames of a SOURCE 0 stream, while none is PROVISIONAL (06 R231);
at a frame boundary without a ready stream one slice runs (18 R601, R602). -/
def windowOpen (s : State) (pipe : Nat) : Bool :=
  pipe == 0 && (sourced s.cfg.active 0).any (·.1 == 0) && (stream s 0).frames.all fun f => bit f.flags 0

/-- MUCKOUT_SLICE_DONE (18 R603): the slice that runs in a pipe ends; the window goes on with the next that fits. -/
def execMuckoutSliceDone (pipe : Nat) (crcMatch : Bool) (s : State) : Host.Outcome State Fault Refusal :=
  .next (match (mckPipe s pipe).cur with
    | none => s
    | some (k, again) =>
      if !enginesClocked s then s
      else
        let s1 := modMckPipe pipe (sliceResult pipe k again crcMatch) s
        let s2 := if !crcMatch && again then
            raise 636 (testEvent 0xB002 (1 + 2 ^ 8 * pipe + 2 ^ 16 * k) (modMck (fun m => { m with faults := m.faults + 1 }) s1))
          else s1
        let s3 := if windowOpen s2 pipe && mckRuns s2 0 then modMckPipe pipe (pickSlice pipe 49) s2 else s2
        checkCycle s3)

/-! ## HBM spare rows and lanes (18 R604, R605) -/

/-- Key of a spare row: pseudo-channel, bank, row. -/
def rowKey (pc bank row : Nat) : Nat := (pc * 48 + bank) * 8 + row

/-- SPARE_ROW_SCRUB (18 R604): a spare row has been written and read back. -/
def execSpareRowScrub (pc bank row : Nat) (result : ScrubResult) (s : State) : Host.Outcome State Fault Refusal :=
  .next (if !(mckRuns s 1 && decide (pc < 64) && decide (bank < 48) && decide (row < 8)) then s
    else
      let s1 := modMck (fun m => { m with rows := Tbl.set m.rows (rowKey pc bank row) true }) s
      let s2 := match result with
        | .clean => s1
        | .corrected n => modMck (fun m => { m with ecc := min 0xFFFFFFFF (m.ecc + n) }) s1
        | .bad =>
          raise 637 (testEvent 0xB002 (2 + 2 ^ 8 * pc + 2 ^ 14 * bank + 2 ^ 20 * row)
            (modMck (fun m => { m with badRows := Tbl.set m.badRows (rowKey pc bank row) true, faults := m.faults + 1 }) s1))
      checkCycle s2)

/-- Whether margins lie below the minimum (18 R605). -/
def marginLow (s : State) (m : Margins) : Bool :=
  decide (m.left + m.right < s.mck.minWidth) || decide (m.top + m.bottom < s.mck.minHeight)

/-- LANE_MARGIN_READING (18 R605): Muck-out has read a live lane; a lane whose monitor `TEST.MARGIN` holds counts as skipped
(15 R525). -/
def execLaneMarginReading (lane_ : Nat) (m : Margins) (s : State) : Host.Outcome State Fault Refusal :=
  .next (if !(mckRuns s 2 && (liveLanes s).contains lane_) || (Tbl.find? s.mck.lanes lane_).isSome then s
    else if (lane s lane_).reading.isSome then checkCycle (modMck (fun x => { x with lanes := Tbl.set x.lanes lane_ false }) s)
    else
      let low := marginLow s m
      let s1 := modMck (fun x => { x with lanes := Tbl.set x.lanes lane_ true, lowNow := x.lowNow + b2n low }) s
      let s2 := modLane lane_ (fun x => { x with margin := marginWord m, low := low }) s1
      checkCycle (if low = (lane s lane_).low then s2
        else raise 638 (testEvent 0xB003 (lane_ + 2 ^ 8 * marginWord m + 2 ^ 48 * b2n low) s2)))

/-! ## TEST.MUCKOUT (18 R606) -/

/-- The results of Muck-out in their 64 bytes (18 R606). -/
def muckoutResults (s : State) : List Byte :=
  let m := s.mck
  leBytes 4 m.cycles ++ leBytes 4 m.lastMs ++ m.pipes.flatMap (fun x => leBytes 6 x.failed) ++ leBytes 2 0 ++
    m.pipes.flatMap (fun x => leBytes 4 x.skipped) ++ leBytes 4 m.rows.length ++ leBytes 4 m.badRows.length ++
    leBytes 4 m.ecc ++ leBytes 2 m.lanesRead ++ leBytes 2 m.lanesLow ++ leBytes 8 0

/-- CLEAR clears the counters as they are read (18 R606, 00 R8; log 38). -/
def clearMuckout (m : Mck) : Mck :=
  { m with cycles := 0, ecc := 0, pipes := m.pipes.map fun x => { x with skipped := 0 } }

/-- ACTION 2: the cycle starts anew (18 'TEST.MUCKOUT', log 38). -/
def restartCycle (tick : Nat) (m : Mck) : Mck :=
  { m with rows := [], lanes := [], lowNow := 0, faults := 0, cycleTick := tick
           pipes := m.pipes.map fun x => { x with next := 0, cur := none, covered := 0, retry := none, again := none } }

/-- ACTION 0: the settings (18 'TEST.MUCKOUT'). -/
def setMuckout (b : List Byte) (m : Mck) : Mck :=
  { m with flags := fieldAt b 1 1 % 8, guardUs := fieldAt b 2 2, scrubMbps := fieldAt b 4 2, dwell := fieldAt b 6 1
           minWidth := fieldAt b 7 1, minHeight := fieldAt b 8 1 }

/-- Checks of TEST_MUCKOUT. -/
def checkTestMuckout (t : State) (c : Cmd) : Option Reply := plainCheck layMuckout t c

/-- Effect of TEST_MUCKOUT. -/
def effectTestMuckout (c : Cmd) (t : State) : State :=
  match fieldAt c.region 0 1 with
  | 0 => complete c {} (modMck (setMuckout c.region) t)
  | 1 => complete c { data := muckoutResults t } (if bit (fieldAt c.region 1 1) 3 then modMck clearMuckout t else t)
  | _ => complete c {} (modMck (restartCycle t.tick) t)

/-- TEST_MUCKOUT (18 R606). -/
def execTestMuckout (r : CmdRef) (s : State) : Host.Outcome State Fault Refusal :=
  .next (runCmd r 0xB001 checkTestMuckout effectTestMuckout s)

/-! ## TEST.PRBS (15 R521-R523) -/

/-- The SDI lanes that the heads drive, with those that mirror them (12 R409, R426). -/
def sdiDriven (s : State) : List Nat :=
  [0, 1].flatMap fun h => match headIn s.cfg.active (if h = 1 ∧ pairIn s.cfg.active then 0 else h) with
    | some c => headLanes h c.links ++ if c.links = 1 ∧ c.mirror ≠ 0xFF then [2 * h + 1] else []
    | none => []

/-! ## Sideband outputs (19 R616, R617) -/

/-- Whether an SDI lane transmits: a head drives it, or a generator runs on it. -/
def sdiTransmits (s : State) (n : Nat) : Bool :=
  s.sys.phase == .running && ((lane s (68 + n)).gen || ((sdiDriven s).contains n && !forcedOff s (68 + n)))

/-- SDI_ENn. -/
def sdiEn (s : State) (n : Nat) : Bool := !s.pins.floating && sdiTransmits s n

/-- Nn_MOD_RESET_N: low while the port has MODE 0xFF. -/
def modResetN (s : State) (p : Nat) : Bool := !s.pins.floating && portMode s.cfg.active p != 0xFF

/-- Nn_MOD_LPMODE: low while the port has MODE 0xFF, and low otherwise, for MOD_RESET_N is high then. -/
def modLpMode (_s : State) (_p : Nat) : Bool := false

/-! ## PRBS (15 R521-R523) -/

/-- Whether the interface of a lane is off: a loopback forces it off, or nothing that is configured, wired or up uses it (15 R523,
log 39). -/
def interfaceOff (s : State) (l : Nat) : Bool :=
  if forcedOff s l then true
  else if l < 32 then !bit (fieldAt ((blkIn s.cfg.active 0x1001 0 0).getD []) 0 1) (l / 4)
  else if l < 40 then s.sys.device == 0
  else if l < 48 then decide (s.sys.arraySize ≤ s.sys.device + 1)
  else if l < 56 then portMode s.cfg.active ((l - 48) / 4) == 0xFF
  else if l < 64 then !(s.recorder.ssds.getD ((l - 56) / 4) {}).present
  else if l < 68 then !s.sys.linkUp
  else !(sdiDriven s).contains (l - 68)

/-- Offsets of what a `TEST.PRBS` cannot do on its lane, LANE among them (02 R53, 15 R508, R522, R523). -/
def prbsFaults (b : List Byte) : List Nat :=
  let l := fieldAt b 0 1
  let gen := fieldAt b 1 1 == 1 || fieldAt b 1 1 == 3
  let chk := fieldAt b 1 1 == 2 || fieldAt b 1 1 == 3
  let loop := fieldAt b 3 1
  faultIf ((gen && !laneTransmits l && loop != 1) || (chk && !laneReceives l && loop != 1)) 0 ++
    faultIf (decide (2 ≤ loop) && !(laneTransmits l && laneReceives l)) 0 ++
    faultIf (fieldAt b 6 2 != 0 && !(laneClasses l).contains (fieldAt b 6 2)) 0

/-- Checks of `TEST.PRBS`: a generator or a loopback on a lane whose interface is not off needs FORCE (15 R521, R523). -/
def prbsCheck (s : State) (c : Cmd) : Option Reply :=
  let b := c.region
  let act := fieldAt b 1 1
  let drives := act == 1 || act == 3 || (act == 2 && fieldAt b 3 1 != 0)
  inOrder s c (blockFault layPrbs b (prbsFaults b)) none none
    (need (!drives || bit (fieldAt b 4 1) 0 || interfaceOff s (fieldAt b 0 1)) busy)

/-- What a checker counted since the last command: only while it runs and is in lock (15 R522). -/
def countPrbs (seen : PrbsSeen) (x : Lane) : Lane :=
  if !x.chk then x
  else if seen.lock || x.prbsLock then
    { x with errors := min 0xFFFFFFFF (x.errors + seen.errors), bits := min (2 ^ 48 - 1) (x.bits + seen.bits), prbsLock := seen.lock }
  else x

/-- A lane under an ACTION of `TEST.PRBS`; 4 and 5 leave the generator and the checker as they are. -/
def setPrbs (b : List Byte) (x : Lane) : Lane :=
  let act := fieldAt b 1 1
  if 4 ≤ act then x
  else
    let chk := act == 2 || act == 3
    { x with gen := act == 1 || act == 3
             chk := chk
             pattern := fieldAt b 2 1
             loopback := if act = 0 then 0 else fieldAt b 3 1
             inject := fieldAt b 5 1
             rate := if fieldAt b 6 2 = 0 then x.rate else fieldAt b 6 2
             prbsLock := x.prbsLock && chk }

/-- RESULT0 and RESULT1 of `TEST.PRBS`. -/
def prbsReply (x : Lane) : Reply := okReply (x.errors + 2 ^ 32 * b2n x.prbsLock) x.bits

/-- Effect of TEST_PRBS. -/
def effectTestPrbs (seen : PrbsSeen) (c : Cmd) (t : State) : State :=
  let l := fieldAt c.region 0 1
  let counted := countPrbs seen (lane t l)
  let kept : Lane := if bit (fieldAt c.region 4 1) 1 then { counted with errors := 0, bits := 0 } else counted
  complete c (prbsReply counted) (modLane l (fun _ => setPrbs c.region kept) t)

/-- TEST_PRBS (15 R521-R523): `seen` is what the lane's checker counted since the last command of the lane. -/
def execTestPrbs (r : CmdRef) (seen : PrbsSeen) (s : State) : Host.Outcome State Fault Refusal :=
  .next (runCmd r 0xB002 prbsCheck (effectTestPrbs seen) s)

/-! ## TEST.MARGIN (15 R524-R526) -/

/-- Whether the lane-table lock fuse is programmed (15 R520). -/
def laneLocked (s : State) : Bool := Tbl.get 0 s.sys.fuses 0 != 0

/-- Offsets of what a `TEST.MARGIN` breaks: an override under the lock fuse or out of range, a reading of a lane without a
receiver (15 R524, R526). -/
def marginFaults (s : State) (b : List Byte) : List Nat :=
  let l := fieldAt b 0 1
  match fieldAt b 1 1 with
  | 0 => faultIf (!laneReceives l) 0
  | 1 => faultIf (laneLocked s) 1 ++ faultIf (!settingsOk l (b.drop 8)) 8
  | _ => []

/-- Checks of `TEST.MARGIN`: one reading of a lane at a time (log 39). -/
def marginCheck (s : State) (c : Cmd) : Option Reply :=
  let b := c.region
  inOrder s c (blockFault layMargin b (marginFaults s b)) none none
    (need (!(fieldAt b 1 1 == 0 && (lane s (fieldAt b 0 1)).reading.isSome)) busy)

/-- Effect of TEST_MARGIN. -/
def effectTestMargin (c : Cmd) (t : State) : State :=
  let l := fieldAt c.region 0 1
  match fieldAt c.region 1 1 with
  | 0 => modLane l (fun x => { x with reading := some ⟨c.fn, c.seq⟩ }) (setWaiting c t)
  | 1 => complete c {} (modLane l (fun x => { x with override := some ((c.region.drop 8).take 12) }) t)
  | _ => complete c {} (modLane l (fun x => { x with override := none }) t)

/-- TEST_MARGIN (15 R524-R526): MODE 0 ends with TEST_MARGIN_DONE. -/
def execTestMargin (r : CmdRef) (s : State) : Host.Outcome State Fault Refusal :=
  .next (runCmd r 0xB003 marginCheck effectTestMargin s)

/-- TEST_MARGIN_DONE (15 R524): the reading of a lane ends and its command completes with the margins. -/
def execTestMarginDone (lane_ : Nat) (m : Margins) (s : State) : Host.Outcome State Fault Refusal :=
  .next (match (lane s lane_).reading with
    | none => s
    | some r =>
      if !groomOn s then s
      else
        let s1 := modLane lane_ (fun x => { x with reading := none, margin := marginWord m }) s
        match findCmd s1 r with
        | some c => complete c (okReply (marginWord m) 0) s1
        | none => s1)

end Sys2Proof.Machine
end

