-- ==== Sys2Proof/Machine/Time.lean ====
section
/-! DEFINITION. Network time (13 R444-R455, R660): PTP instances, the engines' steering, the selected time and the frame
timeline, and the commands of class TIME. -/

namespace Sys2Proof.Machine

/-! ## Engines and selection -/

/-- The engine that a port's PTP instance times, where it has one. -/
def ptpEngine (s : State) (port : Nat) : Option Nat :=
  match activeBlk s 0x7001 port 0 with
  | some b => if fieldAt b 0 1 = 0xFF ∨ fieldAt b 2 1 = 0xFF then none else some (fieldAt b 2 1)
  | none => none

/-- The port whose PTP instance times an engine. -/
def enginePort (s : State) (e : Nat) : Option Nat := [0, 1].find? fun p => ptpEngine s p == some e

/-- Changes the PTP instance of a port. -/
def modPtp (p : Nat) (g : Ptp → Ptp) (s : State) : State := modNet p (fun n => { n with ptp := g n.ptp }) s

/-- State of a port's PTP instance; a master-only instance is MASTER (13 R444). -/
def ptpState (s : State) (p : Nat) : Nat :=
  if fieldAt ((activeBlk s 0x7001 p 0).getD []) 3 1 = 1 then 6 else (netPort s p).ptp.state

/-- A time value in 2⁻³² ns. -/
def timeUnits (t : Time) : Nat := t.sec * secUnits + t.nsec * 2 ^ 32

/-- Changes an engine. -/
def modEngine (e : Nat) (g : Engine → Engine) (s : State) : State :=
  { s with time := { s.time with engines := s.time.engines.modify e g } }

/-- ⌈|v| × 10⁶ / SLEW_PPB⌉ µs of a correction in 2⁻³² ns (13 R660). -/
def slewMicros (v : Int) (ppb : Nat) : Nat := cdiv (v.natAbs * 1000000) (ppb * 2 ^ 32)

/-- S and F in 2⁻³² ns (13 R452, R453). -/
def sUnits (x : TimeSt) : Int := (x.engines.getD x.sel {}).time + x.delta
/-- The frame timeline in 2⁻³² ns. -/
def fUnits (x : TimeSt) : Int := (x.engines.getD x.sel {}).time + x.phi

/-- After a change of selection, or a step or offset of the selected engine: S and F are continuous, and a Δ within the
window becomes 0 (13 R452, R453). `before` is the time state just before the change. -/
def retime (before x : TimeSt) : TimeSt :=
  let e : Int := (x.engines.getD x.sel {}).time
  let d := sUnits before - e
  { x with delta := if d.natAbs ≤ x.windowNs * 2 ^ 32 then 0 else d
           phi := fUnits before - e, slewing := true, slewUs := slewMicros d x.slewPpb }

/-- Δ after step 1 of 13 R452 where the change happened, else the present Δ. -/
def stepOneDelta (before x : TimeSt) (changed : Bool) : Int :=
  if changed then sUnits before - (x.engines.getD x.sel {}).time else x.delta

/-! ## TIME.STEER (02 R78, 13 R450, R451) -/

/-- Offsets of the faulty fields of `TIME.STEER`. -/
def steerFaults (c : Cmd) : List Nat :=
  let a := fieldAt c.region 1 1
  faultIf (fieldAt c.region 0 1 != c.target) 0 ++ faultIf (bit a 1 && bit a 2) 1 ++
  faultIf (bit a 0 && decide (Config.nominalIncrement <
    ((fieldAt c.region 4 8 : Int) - Config.nominalIncrement).natAbs * 1000)) 4 ++
  faultIf (bit a 2 && decide (999999999 < fieldAt c.region 0x14 4)) 0x14

/-- Whether a command steers the time of a member, which follows the leader (14 R501). -/
def memberTime (s : State) (c : Cmd) : Bool := !isLeader s && c.target == 0

/-- Checks of `TIME.STEER`. -/
def steerCheck (s : State) (c : Cmd) : Option Reply :=
  inOrder s c (blockFault layTimeSteer c.region (steerFaults c)) none none (need (!memberTime s c) busy)

/-- Effect of TIME_STEER: the start command of an engine in its safe state (03 R96, log 51). -/
def effectTimeSteer (c : Cmd) (t : State) : State :=
  setWaiting c (startLeavesSafe 0x71 c.target (modEngine c.target (fun e => { e with due := some ⟨c.fn, c.seq⟩ }) t))

/-- TIME_STEER (13 R451): it applies at an engine cycle. -/
def execTimeSteer (r : CmdRef) (s : State) : Host.Outcome State Fault Refusal :=
  .next (runCmd r 0x7101 steerCheck effectTimeSteer s)

/-- An engine with a steering applied (13 R451). -/
def steered (b : List Byte) (e : Engine) : Engine :=
  let a := fieldAt b 1 1
  let t : Nat :=
    if bit a 2 then timeUnits (timeAt b 0x14) % timeRange
    else if bit a 1 then (((e.time : Int) + signed 64 (fieldAt b 0xC 8) * 2 ^ 32) % (timeRange : Int)).toNat
    else e.time
  { e with time := t, incr := if bit a 0 then fieldAt b 4 8 else e.incr, steered := true, due := none }

/-- Whether a steering moves the time of its engine. -/
def steerMoves (b : List Byte) : Bool := bit (fieldAt b 1 1) 1 || bit (fieldAt b 1 1) 2

/-! ## TIME.SELECT (13 R452-R455, R660) -/

/-- Checks of `TIME.SELECT`: on a member it is refused (14 R501). -/
def selectCheck (s : State) (c : Cmd) : Option Reply :=
  inOrder s c (blockFault layTimeSelect c.region []) none none (need (isLeader s) busy)

/-- Effect of TIME_SELECT. -/
def effectTimeSelect (c : Cmd) (t : State) : State :=
  setWaiting c { t with time := { t.time with due := t.time.due ++ [⟨c.fn, c.seq⟩] } }

/-- TIME_SELECT (13): it applies at the next engine cycle. -/
def execTimeSelect (r : CmdRef) (s : State) : Host.Outcome State Fault Refusal :=
  .next (runCmd r 0x7102 selectCheck effectTimeSelect s)

/-- The rates and, without RATES_ONLY, AUTO and the selection of a block of `TIME.SELECT`. -/
def selectValues (b : List Byte) (x : TimeSt) : TimeSt :=
  let y := { x with slewPpb := fieldAt b 4 4, windowNs := fieldAt b 8 4 }
  if bit (fieldAt b 1 1) 0 then y else { y with auto := bit (fieldAt b 1 1) 1, sel := fieldAt b 0 1 }

/-- The commands of a list of references, in order. -/
def cmdsOf (s : State) (l : List CmdRef) : List Cmd := l.filterMap (findCmd s)

/-- The time state with every due selection applied (13 R452, R454): `before` is that before the cycle's steering. -/
def selectAll (before : TimeSt) (moved : Bool) (l : List Cmd) (x : TimeSt) : TimeSt :=
  let y := l.foldl (fun z c => selectValues c.region z) { x with due := [] }
  if moved || y.sel != x.sel then retime before y else y

/-- The slew still to run after a command: from Δ after step 1 where time moved, else what is left (13 R660). -/
def slewLeft (before y : TimeSt) (moved : Bool) : Nat :=
  if moved then slewMicros (stepOneDelta before y true) y.slewPpb
  else max (slewMicros y.delta y.slewPpb) (slewMicros y.phi y.slewPpb)

/-- Applies the due selections with a steering of the same cycle, and answers them; members take the rates too (13 R452, R454,
14 R501). -/
def applySelections (before : TimeSt) (moved : Bool) (s : State) : State :=
  let l := cmdsOf s s.time.due
  let y := selectAll before moved l s.time
  let changed := moved || y.sel != s.time.sel
  let r0 := unsigned 64 (stepOneDelta before y changed / 2 ^ 32)
  let s1 : State := { s with time := y }
  let s2 := if l.isEmpty then s1 else tellMembers (.timeRates y.slewPpb y.windowNs) s1
  let s2 := if y.sel ≠ s.time.sel then raise 560 s2 else s2
  l.foldl (fun t c => complete c (okReply r0 (slewLeft before y changed)) t) s2

/-- TIME_SELECT_APPLY (13 R452). -/
def execTimeSelectApply (s : State) : Host.Outcome State Fault Refusal :=
  .next (if s.time.due.isEmpty || !enginesClocked s then s else applySelections s.time false s)

/-- Applies a steering at an engine cycle; a selection due at the same cycle follows it, and R452 is applied once (13 R451,
R454). DESIGN CHOICE (log 58): RESULT0, the engine time at which it applied (02 R77), is the time after the step or offset.
-/
def applySteer (e : Nat) (c : Cmd) (s : State) : State :=
  let before := s.time
  let s1 := modEngine e (steered c.region) s
  let moved := steerMoves c.region && e == s.time.sel
  let s2 := applySelections before moved s1
  let at_ := (s1.time.engines.getD e {}).time / 2 ^ 32 % 2 ^ 64
  complete c (okReply at_ 0) (raise (544 + 8 * e + 3) s2)

/-- TIME_STEER_APPLY (13 R451). An engine in its safe state runs free and is not steered (03 R93). -/
def execTimeSteerApply (engine : Nat) (s : State) : Host.Outcome State Fault Refusal :=
  .next (match (s.time.engines.getD engine {}).due with
    | some r =>
      match findCmd s r with
      | some c => if enginesClocked s && safeOf s (myUnit s 0x71 engine) != 2 then applySteer engine c s else s
      | none => s
    | none => s)

/-- An engine reaches its safe state: a steering that waits does not happen, and its command is answered `ST_BUSY`, for the
unit no longer takes it (03 R93, log 51). -/
def dropSteer (e : Nat) (s : State) : State :=
  match (s.time.engines.getD e {}).due with
  | some r =>
    let s1 := modEngine e (fun x => { x with due := none }) s
    match findCmd s1 r with
    | some c => complete c busy s1
    | none => s1
  | none => s

/-- TIME_SLEW_DONE (13 R660): the whole transition has ended. -/
def execTimeSlewDone (s : State) : Host.Outcome State Fault Refusal :=
  .next (if enginesClocked s && s.time.slewing && s.time.delta == 0 && s.time.phi == 0 then
    let s1 : State := { s with time := { s.time with slewing := false } }
    raise 561 (sysEvent 0x7104 0x71 s.time.sel (s.time.sel + 2 ^ 32 * (s.time.slewUs % 2 ^ 32)) s1)
  else s)

/-! ## TIME.CORRECTION and TIME.READ -/

/-- Checks of `TIME.CORRECTION`: the target is the engine that the port's PTP_ENGINE names, and SUBPORT is 0 outside
mode 1. -/
def correctionCheck (s : State) (c : Cmd) : Option Reply :=
  let p := fieldAt c.region 0 1
  let named := ((blkIn s.cfg.committed 0x7001 p 0).map fun b => fieldAt b 2 1).getD 0xFF
  inOrder s c (blockFault layTimeCorrection c.region
    (faultIf (named != c.target) 0 ++ faultIf (portMode s.cfg.committed p != 1 && fieldAt c.region 1 1 != 0) 1)) none none none

/-- Effect of TIME_CORRECTION. -/
def effectTimeCorrection (c : Cmd) (t : State) : State :=
  let v : Int × Int := (signed 32 (fieldAt c.region 4 4), signed 32 (fieldAt c.region 8 4))
  complete c {} (modNet (fieldAt c.region 0 1)
    (fun n => { n with corr := Tbl.set n.corr (fieldAt c.region 1 1) v }) t)

/-- TIME_CORRECTION (13 R448). -/
def execTimeCorrection (r : CmdRef) (s : State) : Host.Outcome State Fault Refusal :=
  .next (runCmd r 0x7103 correctionCheck effectTimeCorrection s)

/-- The 32 bytes of `TIME.READ`: meanPathDelay, Δ, Φ and the port state; an engine with no PTP instance reads a delay of 0
and the state DISABLED (log 27). -/
def timeReadBytes (s : State) (e : Nat) : List Byte :=
  let p := enginePort s e
  leBytes 8 (unsigned 64 ((p.map fun k => (netPort s k).ptp.pathDelay).getD 0)) ++ leBytes 8 (unsigned 64 s.time.delta) ++
    leBytes 8 (unsigned 64 s.time.phi) ++ leBytes 1 ((p.map (ptpState s)).getD 3) ++ leBytes 7 0

/-- Checks of TIME_READ. -/
def checkTimeRead (t : State) (c : Cmd) : Option Reply := plainCheck layTimeRead t c

/-- Effect of TIME_READ. -/
def effectTimeRead (c : Cmd) (t : State) : State :=
  let e := fieldAt c.region 0 1
  complete c { result0 := (t.time.engines.getD e {}).time / 2 ^ 32 % 2 ^ 64, result1 := nowNs t % 2 ^ 64
               data := timeReadBytes t e } t

/-- TIME_READ (13). -/
def execTimeRead (r : CmdRef) (s : State) : Host.Outcome State Fault Refusal :=
  .next (runCmd r 0x7104 checkTimeRead effectTimeRead s)

/-! ## PTP instances (13 R444-R449) -/

/-- RX_CORR and TX_CORR of sub-port 0 of a port, in 2⁻¹⁶ ns: those of `TIME.CORRECTION`, or of the board table for the port's
mode (13 R447, R448). -/
def corrOf (s : State) (p : Nat) : Int × Int :=
  (Tbl.find? (netPort s p).corr 0).getD (boardCorr s.sys.tableUsed p 0 (portMode s.cfg.active p))

/-- Time of a port's engine in 2⁻¹⁶ ns as the port stamps it, with the uncertainty of 01 R31 as an open value (log 6). -/
def stampOf (s : State) (p e : Nat) : Int :=
  let u := Config.capturePeriod p
  (((s.time.engines.getD e {}).time + draw s (2 * u) : Int) - u) / 2 ^ 16

/-- The data set of a port's own clock (13 R444). -/
def ownData (s : State) (p e : Nat) : AnnounceData :=
  let b := (activeBlk s 0x7001 p 0).getD []
  { priority1 := fieldAt b 9 1, clockClass := if (s.time.engines.getD e {}).steered then 7 else 248, clockAccuracy := 0xFE
    variance := 0xFFFF, priority2 := fieldAt b 0xA 1, gmIdentity := Config.clockIdentity p, stepsRemoved := 0 }

/-- Lexicographic order of lists of numbers. -/
def lexLt : List Nat → List Nat → Bool
  | a :: l, b :: m => decide (a < b) || (a == b && lexLt l m)
  | [], _ :: _ => true
  | _, [] => false

/-- The default data set comparison of two data sets with the port identities that sent them: whether the first is better (13 R444;
IEEE 1588-2019 clause 9.3). At one receiving port, data sets of one grandmaster compare by steps, then by sender. -/
def better (a : AnnounceData) (sa : Nat) (b : AnnounceData) (sb : Nat) : Bool :=
  if a.gmIdentity = b.gmIdentity then lexLt [a.stepsRemoved, sa] [b.stepsRemoved, sb]
  else lexLt [a.priority1, a.clockClass, a.clockAccuracy, a.variance, a.priority2, a.gmIdentity]
    [b.priority1, b.clockClass, b.clockAccuracy, b.variance, b.priority2, b.gmIdentity]

/-- Ticks of the engines' clock in four Announce intervals of a port: the window within which a second Announce qualifies a master
(IEEE 1588-2019 clause 9.3.2.4; log 27). -/
def foreignWindow (s : State) (p : Nat) : Nat :=
  4 * 312500000 * 2 ^ (signed 8 (fieldAt ((activeBlk s 0x7001 p 0).getD []) 6 1) + 3).toNat / 8

/-- Notes an Announce of a master. -/
def noteForeign (m : PtpMsg) (tick : Nat) (l : List Foreign) : List Foreign :=
  let old := ((l.find? (·.source == m.source)).map (·.ticks)).getD []
  l.filter (·.source != m.source) ++ [{ source := m.source, data := m.announce, ticks := (tick :: old).take 2 }]

/-- Whether a master qualifies: two Announces of it have come within the window that ends now, or it is the one followed. -/
def qualifies (s : State) (p : Nat) (x : Ptp) (f : Foreign) : Bool :=
  (x.master.isSome && x.masterId == f.source) || (f.ticks.length == 2 && f.ticks.all fun t => decide (s.tick ≤ t + foreignWindow s p))

/-- The best master that qualifies. -/
def bestForeign (s : State) (p : Nat) (x : Ptp) : Option Foreign :=
  (x.foreign.filter (qualifies s p x)).foldl (fun m f => match m with
    | none => some f
    | some g => if better f.data f.source g.data g.source then some f else some g) none

/-- Tells the owner of the engine that the master has changed (13 R446). -/
def tellMaster (e gm : Nat) (s : State) : State := raise (544 + 8 * e + 2) (unitEvent 0x7103 0x71 e none (gm % 2 ^ 64) s)

/-- The instance follows a master: from a new one it is UNCALIBRATED until its first measurement (13 R445, R446; log 27). -/
def follow (p e : Nat) (f : Foreign) (s : State) : State :=
  let x := (netPort s p).ptp
  let same := x.master.isSome && x.masterId == f.source
  let s1 := modPtp p (fun y => if same then { y with master := some f.data } else
    { y with state := 8, master := some f.data, masterId := f.source, t1 := none, t2 := none, t3 := none, t4 := none }) s
  if same && x.master.map (·.gmIdentity) == some f.data.gmIdentity then s1 else tellMaster e f.data.gmIdentity s1

/-- The instance becomes master, or with a role that may not be one listens; where it followed another, its own clock as the
new master is told. -/
def unfollow (p e : Nat) (master : Bool) (s : State) : State :=
  let s1 := modPtp p (fun y =>
    { y with state := if master then 6 else 4, master := none, t1 := none, t2 := none, t3 := none, t4 := none }) s
  if master && (netPort s p).ptp.master.isSome then tellMaster e (Config.clockIdentity p) s1 else s1

/-- PTP_ROLE of a port. -/
def ptpRole (s : State) (p : Nat) : Nat := fieldAt ((activeBlk s 0x7001 p 0).getD []) 3 1

/-- The state decision for the best master heard (13 R444, R446): it is followed, unless the instance's own clock is better
and its role lets it be master. -/
def takeBest (p e : Nat) (f : Foreign) (s : State) : State :=
  if ptpRole s p = 2 ∧ better (ownData s p e) (portIdentity p) f.data f.source then unfollow p e true s else follow p e f s

/-- The state decision over the masters heard. -/
def decidePtp (p e : Nat) (s : State) : State :=
  match bestForeign s p (netPort s p).ptp with
  | some f => takeBest p e f s
  | none => s

/-- An Announce from a master (13 R444, R446). One of 255 steps or more, and the instance's own, do not qualify (IEEE
1588-2019 clause 9.3.2.5). -/
def onAnnounce (p e : Nat) (m : PtpMsg) (s : State) : State :=
  if ptpRole s p = 1 ∨ 255 ≤ m.announce.stepsRemoved ∨ m.source / 65536 = Config.clockIdentity p then s
  else decidePtp p e (modPtp p (fun y => { y with foreign := noteForeign m s.tick y.foreign }) s)

/-- A Sync of the current master: its ingress time, and t1 where the master is one-step (13 R445, R447). -/
def onSync (p e : Nat) (m : PtpMsg) (s : State) : State :=
  let t2 := stampOf s p e - (corrOf s p).1
  bump (modPtp p (fun y => { y with
    t2 := some t2, syncSeq := m.seqId, syncCorr := m.correction
    t1 := if m.twoStep then none else some ((m.originNs : Int) * 65536 + m.correction) }) s)

/-- The exchange's offsetFromMaster and meanPathDelay (13 R445; IEEE 1588-2019 clause 11.3); the instance is then SLAVE. -/
def measure (p e : Nat) (t1 t2 t3 t4 : Int) (s : State) : State :=
  let d := ((t2 - t3) + (t4 - t1)) / 2
  let s1 := modPtp p (fun y => { y with state := 9, pathDelay := d, t1 := none, t2 := none, t3 := none, t4 := none }) s
  raise (544 + 8 * e) (unitEvent 0x7101 0x71 e none (unsigned 64 (t2 - t1 - d)) s1)

/-- The exchange is completed by the last of its four times (13 R445). -/
def endExchange (p e : Nat) (s : State) : State :=
  let x := (netPort s p).ptp
  match x.t1, x.t2, x.t3, x.t4 with
  | some t1, some t2, some t3, some t4 => measure p e t1 t2 t3 t4 s
  | _, _, _, _ => s

/-- A Follow_Up of the last Sync gives t1 (13 R445). -/
def onFollowUp (p e : Nat) (m : PtpMsg) (s : State) : State :=
  let x := (netPort s p).ptp
  if m.seqId == x.syncSeq && x.t1.isNone && x.t2.isSome then
    endExchange p e (modPtp p (fun y => { y with t1 := some ((m.originNs : Int) * 65536 + m.correction + y.syncCorr) }) s)
  else s

/-- A Delay_Resp that answers the instance's own Delay_Req gives t4 (13 R445). -/
def onDelayResp (p e : Nat) (m : PtpMsg) (s : State) : State :=
  let x := (netPort s p).ptp
  if m.seqId == x.reqSeq && m.requesting == portIdentity p && x.t3.isSome then
    endExchange p e (modPtp p (fun y => { y with t4 := some ((m.originNs : Int) * 65536 - m.correction) }) s)
  else s

/-- Sends a message of a port's PTP instance (13 R444). -/
def ptpTx (p : Nat) (kind : PtpKind) (seqId flags : Nat) (correction : Int) (interval : Nat) (body : List Byte) (s : State) : State :=
  netTx p 0 (ptpFrame s p kind seqId flags correction interval body) s

/-- The answer to a Delay_Req: its ingress time, with the request's correction less the fraction (13 R444, R447; IEEE 1588-2019
clause 11.3). -/
def answerDelayReq (p e : Nat) (m : PtpMsg) (s : State) : State :=
  let t4 := stampOf s p e - (corrOf s p).1
  let b := (activeBlk s 0x7001 p 0).getD []
  bump (ptpTx p .delayResp m.seqId 0 (m.correction - stampFraction t4) (fieldAt b 7 1) (stampTimestamp t4 ++ beBytes 10 m.source) s)

/-- A received PTP message (13 R444-R447). -/
def onPtp (p e : Nat) (m : PtpMsg) (s : State) : State :=
  let x := (netPort s p).ptp
  let fromMaster := x.master.isSome && (ptpState s p == 8 || ptpState s p == 9) && m.source == x.masterId
  if m.domain ≠ fieldAt ((activeBlk s 0x7001 p 0).getD []) 4 1 then countAt p 6 1 s
  else match m.kind with
    | .announce => onAnnounce p e m s
    | .sync => if fromMaster then onSync p e m s else s
    | .followUp => if fromMaster then onFollowUp p e m s else s
    | .delayResp => if fromMaster then onDelayResp p e m s else s
    | .delayReq => if ptpState s p = 6 then answerDelayReq p e m s else s
    | .pdelay => countAt p 6 1 s
    | .management => countAt p 6 1 s

/-- Whether the domains of a network port are clocked: not in self-refresh, and in Slack the port of SLACK_PORT alone (01 R33,
17 R553). -/
def portClocked (s : State) (p : Nat) : Bool := enginesClocked s && (s.sys.profile != 3 || inSlackSet s 0x70 p)

/-- Whether a PTP instance of a port takes and sends messages: the port is clocked and its link is up. -/
def ptpLive (s : State) (p : Nat) : Bool := portClocked s p && (netPort s p).up.getD 0 false

/-- PTP_MESSAGE (13 R444-R447). -/
def execPtpMessage (port : Nat) (msg : PtpMsg) (s : State) : Host.Outcome State Fault Refusal :=
  .next (match ptpEngine s port with
    | some e => if ptpLive s port then onPtp port e msg (countAt port 0 1 s) else s
    | none => s)

/-- Whether a port's instance is a two-step master. -/
def twoStep (s : State) (p : Nat) : Bool := bit (fieldAt ((activeBlk s 0x7001 p 0).getD []) 0xB 1) 0

/-- Byte `k` of the block of `NET.CONFIGURE` of a port: the message intervals are bytes 5 to 7. -/
def portByte (s : State) (p k : Nat) : Nat := fieldAt ((activeBlk s 0x7001 p 0).getD []) k 1

/-- A departing Sync: a one-step one carries its egress timestamp, a two-step master keeps it for the Follow_Up (13 R447, R449). -/
def sendSync (p e : Nat) (s : State) : State :=
  let x := (netPort s p).ptp
  let at_ := stampOf s p e + (corrOf s p).2
  let sent := if twoStep s p then ptpTx p .sync x.txSeq 0x0200 0 (portByte s p 5) (ptpTime 0) s
    else ptpTx p .sync x.txSeq 0 (stampFraction at_) (portByte s p 5) (stampTimestamp at_) s
  bump (modPtp p (fun y => { y with
    txSeq := (y.txSeq + 1) % 65536, sent := if twoStep s p then some (y.txSeq, at_) else none }) sent)

/-- The Follow_Up of the last Sync: its sequence number and its egress timestamp (13 R449). -/
def sendFollowUp (p : Nat) (s : State) : State :=
  match (netPort s p).ptp.sent with
  | some (n, at_) => modPtp p (fun y => { y with sent := none })
      (ptpTx p .followUp n 0 (stampFraction at_) (portByte s p 5) (stampTimestamp at_) s)
  | none => s

/-- An Announce of a master: the data set of its own clock (13 R444). -/
def sendAnnounce (p e : Nat) (s : State) : State :=
  modPtp p (fun y => { y with announceSeq := (y.announceSeq + 1) % 65536 })
    (ptpTx p .announce (netPort s p).ptp.announceSeq Config.announceFlags 0 (portByte s p 6) (announceBody (ownData s p e)) s)

/-- A Delay_Req of a slave (13 R445, R447, R449). Its correctionField carries the fraction of its egress timestamp, which
the Delay_Resp returns, so t3 is the integer nanoseconds (log 27). -/
def sendDelayReq (p e : Nat) (s : State) : State :=
  let x := (netPort s p).ptp
  if x.master.isSome ∧ (ptpState s p = 8 ∨ ptpState s p = 9) ∧ x.t2.isSome then
    let t3 := stampOf s p e + (corrOf s p).2
    bump (modPtp p (fun y =>
        { y with t3 := some (t3 - stampFraction t3), t4 := none, reqSeq := y.nextReq, nextReq := (y.nextReq + 1) % 65536 })
      (ptpTx p .delayReq x.nextReq 0 (stampFraction t3) 0x7F (stampTimestamp t3) s))
  else s

/-- PTP_MESSAGE_SEND (13 R444, R449): the messages that the instance's state lets it send. -/
def execPtpMessageSend (port : Nat) (kind : PtpKind) (s : State) : Host.Outcome State Fault Refusal :=
  .next (match ptpEngine s port with
    | some e =>
      if !ptpLive s port then s
      else match kind with
        | .delayReq => sendDelayReq port e s
        | .sync => if ptpState s port = 6 then sendSync port e s else s
        | .followUp => if ptpState s port = 6 then sendFollowUp port s else s
        | .announce => if ptpState s port = 6 then sendAnnounce port e s else s
        | .delayResp => s
        | .pdelay => s
        | .management => s
    | none => s)

/-- DELAY_REQ_SEND (13 R445, R447). -/
def execDelayReqSend (port : Nat) (s : State) : Host.Outcome State Fault Refusal :=
  .next (match ptpEngine s port with
    | some e => if ptpLive s port then sendDelayReq port e s else s
    | none => s)

/-- Automatic selection of the other engine (13 R455); the selected time does not change while its engine is in its safe state
(03 R93). -/
def autoSelect (e : Nat) (s : State) : State :=
  let o := 1 - e
  let slave := match enginePort s o with
    | some p => ptpState s p == 9
    | none => false
  if e == s.time.sel && s.time.auto && slave && isLeader s && safeOf s (myUnit s 0x71 e) == 0 then
    raise 562 (raise 560 { s with time := retime s.time { s.time with sel := o } })
  else s

/-- The instance goes on without the master that it followed: with the best of the others that qualify, or as its role lets it (13
R446). -/
def loseMaster (p e : Nat) (s : State) : State :=
  let s1 := modPtp p (fun y => { y with foreign := y.foreign.filter (·.source != y.masterId) }) s
  match bestForeign s1 p (netPort s1 p).ptp with
  | some f => takeBest p e f s1
  | none => unfollow p e (ptpRole s p == 2) s1

/-- ANNOUNCE_TIMEOUT (13 R446, R455): the instance loses its master; a role that may be master becomes MASTER, also where no
master was heard, which raises nothing (log 27). -/
def execAnnounceTimeout (port : Nat) (s : State) : Host.Outcome State Fault Refusal :=
  .next (match ptpEngine s port with
    | some e =>
      if !portClocked s port then s
      else if (netPort s port).ptp.master.isNone then
        modPtp port (fun y => { y with state := if ptpRole s port = 2 then 6 else y.state }) s
      else autoSelect e (loseMaster port e (raise (544 + 8 * e + 1) (unitEvent 0x7102 0x71 e none e s)))
    | none => s)

end Sys2Proof.Machine
end

