-- ==== Sys2Proof/Machine/Sensor.lean ====
section
/-! DEFINITION. Triggers and the sensor-control SPI masters (04 R152, R156-R159): scripts on a port, `BRD.TRIGGER`, edges. -/

namespace Sys2Proof.Machine

/-- Changes Bridle ingest. -/
def modBrd (g : Brd → Brd) (s : State) : State := { s with brd := g s.brd }

/-- An SPI master. -/
def spi (s : State) (p : Nat) : Spi := s.brd.spis.getD p {}

/-- Changes an SPI master. -/
def modSpi (p : Nat) (g : Spi → Spi) (s : State) : State := modBrd (fun b => { b with spis := b.spis.modify p g }) s

/-- A trigger output. -/
def trig (s : State) (o : Nat) : Trig := s.brd.trigs.getD o {}

/-- Changes a trigger output. -/
def modTrig (o : Nat) (g : Trig → Trig) (s : State) : State := modBrd (fun b => { b with trigs := b.trigs.modify o g }) s

/-- The script that a port sends next: a spare script before any other (04 R158). -/
def nextScript (q : List SpiJob) : Option SpiJob := (q.find? (·.spare)).or q.head?

/-- An idle port starts the next script that is due (04 R152, R158). -/
def startScript (p : Nat) (s : State) : State :=
  if (spi s p).sending.isSome then s
  else match nextScript (spi s p).queue with
    | none => s
    | some j => emit (.spi p j.words) (modSpi p (fun x => { x with sending := some j, queue := x.queue.erase j }) s)

/-- A script falls due on a port. DESIGN CHOICE (log 58): one that waits for its port keeps its words when `BRD.TRIGGER` gives the
output another script (04 R158). -/
def queueScript (p : Nat) (j : SpiJob) (s : State) : State :=
  startScript p (modSpi p (fun x => { x with queue := x.queue ++ [j] }) s)

/-- RESULT0 and RESULT1 of `BRD.TRIGGER`: words 0 to 3 read back on MISO. -/
def misoReply (w : List Nat) : Reply :=
  okReply (w.getD 0 0 % 2 ^ 32 + 2 ^ 32 * (w.getD 1 0 % 2 ^ 32)) (w.getD 2 0 % 2 ^ 32 + 2 ^ 32 * (w.getD 3 0 % 2 ^ 32))

/-- SPI_SCRIPT_DONE (04 R158): the script of a port ends with the words read back; its source, and the command that waits for
it. -/
def execSpiScriptDone (port : Nat) (miso : List Nat) (s : State) : Host.Outcome State Fault Refusal :=
  .next (match (spi s port).sending with
    | none => s
    | some j =>
      if !enginesClocked s then s
      else
        let w := miso.take j.words.length
        let s1 := raise (72 + port) (modSpi port (fun x => { x with sending := none, miso := w }) s)
        let s2 := match j.ref.bind (findCmd s1) with
          | some c => complete c (misoReply w) s1
          | none => s1
        startScript port s2)

/-! ## BRD.TRIGGER (04 R156-R159) -/

/-- The first of the times START + k × PERIOD that F has not passed (04 R156). -/
def firstEdge (f start : Int) (period : Nat) : Int := f + (start - f) % period

/-- Offsets of what `BRD.TRIGGER` breaks (04 R159). -/
def triggerFaults (s : State) (b : List Byte) : List Nat :=
  faultIf (fieldAt b 1 1 == 2 && decide ((timeUnits (timeAt b 0x10) : Int) < fUnits s.time)) 1 ++
    faultIf (fieldAt b 1 1 == 1 && decide (fieldAt b 8 8 ≤ fieldAt b 4 4 * 2 ^ 32)) 1

/-- The words of a script of `BRD.TRIGGER`. -/
def scriptWords (b : List Byte) : List Nat := (List.range (fieldAt b 3 1)).map fun k => fieldAt b (0x20 + 4 * k) 4

/-- An output under a block of `BRD.TRIGGER`; with no words in it no script is due any more (R158). -/
def setTrigger (b : List Byte) (f : Int) (x : Trig) : Trig :=
  let start : Int := timeUnits (timeAt b 0x10)
  { x with mode := fieldAt b 1 1, scriptDue := if fieldAt b 3 1 = 0 then 0 else x.scriptDue, polarity := fieldAt b 2 1
           pulseNs := fieldAt b 4 4, period := fieldAt b 8 8
           start := timeAt b 0x10, delayUs := fieldAt b 0x1A 2, port := fieldAt b 0x1C 1, script := scriptWords b
           nextEdge := if fieldAt b 1 1 = 1 then firstEdge f start (fieldAt b 8 8) else start }

/-- Checks of BRD_TRIGGER. -/
def checkBrdTrigger (t : State) (c : Cmd) : Option Reply :=
  inOrder t c (blockFault layBrdTrigger c.region (triggerFaults t c.region)) none none none

/-- Effect of BRD_TRIGGER. -/
def effectBrdTrigger (c : Cmd) (t : State) : State :=
  let b := c.region
  let o := fieldAt b 0 1
  let p := fieldAt b 0x1C 1
  if fieldAt b 1 1 = 3 then
    if fieldAt b 3 1 = 0 then complete c (misoReply []) t
    else queueScript p { spare := false, words := scriptWords b, ref := some ⟨c.fn, c.seq⟩ } (setWaiting c t)
  else complete c (misoReply (spi t p).miso) (modTrig o (setTrigger b (fUnits t.time)) t)

/-- BRD_TRIGGER (04 R156-R159): MODE 3 sends its script now and leaves the output as it was (log 40). -/
def execBrdTrigger (r : CmdRef) (s : State) : Host.Outcome State Fault Refusal :=
  .next (runCmd r 0x1003 checkBrdTrigger effectBrdTrigger s)

/-- What an edge leaves in its output: the next one of a periodic trigger, none after a single edge, one more script that is
due. -/
def afterEdge (x : Trig) : Trig :=
  { x with mode := if x.mode = 2 then 0 else x.mode
           nextEdge := if x.mode = 1 then x.nextEdge + x.period else x.nextEdge
           scriptDue := x.scriptDue + b2n (!x.script.isEmpty) }

/-- TRIGGER_EDGE (04 R156): the next edge of an output, within 2 ns of its time on F (log 6); triggers stop in Bridle's safe
state (03 R93). -/
def execTriggerEdge (output : Nat) (s : State) : Host.Outcome State Fault Refusal :=
  .next (let x := trig s output
    if enginesClocked s && (x.mode == 1 || x.mode == 2) && safeOf s (myUnit s 0x10 0) != 2 then
      let e := x.nextEdge + (draw s (4 * 2 ^ 32) : Nat) - 2 * 2 ^ 32
      raise (68 + output) (emit (.trigger output (x.polarity == 1) x.pulseNs (toTime e)) (bump (modTrig output afterEdge s)))
    else s)

/-- TRIGGER_SCRIPT (04 R158): the delay after an edge has passed, and the output's script falls due on its port. -/
def execTriggerScript (output : Nat) (s : State) : Host.Outcome State Fault Refusal :=
  .next (let x := trig s output
    if enginesClocked s && x.scriptDue != 0 then
      queueScript x.port { spare := false, words := x.script, ref := none } (modTrig output (fun y => { y with scriptDue := y.scriptDue - 1 }) s)
    else s)

end Sys2Proof.Machine
end

