-- ==== Sys2Proof/Machine/Zip.lean ====
section
/-! DEFINITION. Compressor channels (08 R279-R300): the commands of class ZIP, the coding of frames into pre-roll rings as
their rows arrive, their publication under 06 R216 and R217, and the relays on Z14 and Z15. -/

namespace Sys2Proof.Machine

/-! ## ZIP.CONFIGURE and ZIP.PREROLL -/

/-- The block of a compressor channel. -/
def zipBlk (t : Tbl CfgVal) (z : Nat) : List Byte := (blkIn t 0x3001 z 0).getD []

/-- Whether a channel is the lowest of a capture group. -/
def isGroup (t : Tbl CfgVal) (z : Nat) : Bool := (blkIn t 0x3001 z 0).isSome && fieldAt (zipBlk t z) 2 1 == 0

/-- Whether a channel relays. -/
def isRelay (t : Tbl CfgVal) (z : Nat) : Bool := fieldAt (zipBlk t z) 2 1 == 1

/-- The capture groups of a stream, by their lowest channels. -/
def groupsOf (t : Tbl CfgVal) (i : Nat) : List Nat :=
  (List.range 16).filter fun z => isGroup t z && fieldAt (zipBlk t z) 4 2 == i

/-- The channels of a mask. -/
def zipChannels (m : Nat) : List Nat := (List.range 16).filter (bit m)

/-- Whether the channels of a group give less than the stream's burst pixel rate (08 R280). -/
def zipTooSlow (t : Tbl CfgVal) (b : List Byte) : Bool :=
  match pipeIn t (fieldAt b 4 2) with
  | none => false
  | some p =>
    let n := (zipChannels (fieldAt b 0 2)).length
    let lt := lineTime ((blkIn t 0x1001 0 0).getD []) ((maskBits p.index).headD 0)
    if p.source = 0 ∧ lt ≠ 0 then decide (n * 1500000000 * lt < p.width * 1000000000)
    else decide (n * 1500000000 * p.period < p.width * p.height * 1000000000)

/-- Relations of `ZIP.CONFIGURE` (08 R280, R282). -/
def zipFaults (s : State) (c : Cmd) : List Nat :=
  let b := c.region
  let m := fieldAt b 0 2
  let t := resulting s
  let others := (List.range 16).filter fun z => z != c.target && (blkIn t 0x3001 z 0).isSome
  faultIf ((zipChannels m).head? != some c.target) 0 ++
  faultIf (others.any fun z => fieldAt (zipBlk t z) 0 2 &&& m != 0) 0 ++
  if fieldAt b 2 1 = 1 then
    faultIf (m != 2 ^ 14 && m != 2 ^ 15) 0 ++
    faultIf (!isGroup (withBlock s c (cfgKey 0x3001 c.target 0) layZipConfigure 0) (fieldAt b 0xC 1)) 0xC ++
    faultIf (!producesTo s (fieldAt b 0xE 2) 0x30 c.target) 0xE
  else
    faultIf ((fieldAt b 3 1 == 0) != (fieldAt b 6 1 == 0)) 3 ++ faultIf (zipTooSlow t b) 0 ++
    faultIf (match pipeIn t (fieldAt b 4 2) with
      | some p => fieldAt b 4 2 == 0 && p.source == 0 && !bit p.outputs 0
      | none => false) 4

/-- Checks of `ZIP.CONFIGURE`. Every channel of the group is the issuing function's: step 5 has seen to it (R279). -/
def zipCheck (s : State) (c : Cmd) : Option Reply :=
  let key := cfgKey 0x3001 c.target 0
  stagedCheck layZipConfigure 0 key (zipFaults s c) (ringShort (withBlock s c key layZipConfigure 0) s.sys.profile) none s c

/-- Effect of ZIP_CONFIGURE. -/
def effectZipConfigure (c : Cmd) (t : State) : State :=
  stageCmd layZipConfigure 0 (cfgKey 0x3001 c.target 0) c t

/-- ZIP_CONFIGURE (08 R279-R282). -/
def execZipConfigure (r : CmdRef) (s : State) : Host.Outcome State Fault Refusal :=
  .next (runCmd r 0x3001 zipCheck effectZipConfigure s)

/-- Checks of `ZIP.PREROLL` (08 R295, 17 R556); it targets a capture group. -/
def prerollCheck (s : State) (c : Cmd) : Option Reply :=
  let key := cfgKey 0x3002 c.target 0
  firstFail [need (isGroup (resulting s) c.target) (badSlot 8),
    stagedCheck layZipPreroll 0 key [] (ringShort (withBlock s c key layZipPreroll 0) s.sys.profile) none s c]

/-- Effect of ZIP_PREROLL. -/
def effectZipPreroll (c : Cmd) (t : State) : State :=
  stageCmd layZipPreroll 0 (cfgKey 0x3002 c.target 0) c t

/-- ZIP_PREROLL (08 R295). -/
def execZipPreroll (r : CmdRef) (s : State) : Host.Outcome State Fault Refusal :=
  .next (runCmd r 0x3002 prerollCheck effectZipPreroll s)

/-! ## The ring (08 R296, R297) -/

/-- A capture group. -/
def group (s : State) (z : Nat) : Group := Tbl.get {} s.groups z

/-- Changes a capture group. -/
def modGroup (z : Nat) (g : Group → Group) (s : State) : State := { s with groups := Tbl.set s.groups z (g (group s z)) }

/-- Changes the recorder. -/
def modRec (g : Rec → Rec) (s : State) : State := { s with recorder := g s.recorder }

/-- A relay, by its channel 14 or 15. -/
def relay (s : State) (z : Nat) : Relay := s.relays.getD (z - 14) {}

/-- Changes a relay. -/
def modRelay (z : Nat) (g : Relay → Relay) (s : State) : State := { s with relays := s.relays.modify (z - 14) g }

/-- Whether an entry holds a COMMITTED frame. -/
def RingEntry.good (e : RingEntry) : Bool := e.payload && !bit e.verdict 0

/-- Reason of a gap record (08 R309). -/
def gapReason (s : State) : Nat := if s.recorder.state = 2 then 3 else 1

/-- Adds lost frames to those that no gap record notes yet; losses in a row for one reason make one record. -/
def addLost (first count reason : Nat) (l : List (Nat × Nat × Nat)) : List (Nat × Nat × Nat) :=
  match l.getLast? with
  | some (f, n, r) => if r = reason then l.dropLast ++ [(f, n + count, r)] else l ++ [(first, count, reason)]
  | none => [(first, count, reason)]

/-- The sources of the channels of a group whose reader lost frames (08 R325). -/
def raiseLost (z : Nat) (s : State) : State :=
  (zipChannels (fieldAt (zipBlk s.cfg.active z) 0 2)).foldl (fun t c => raise (264 + c) t) s

/-- Frames that a ring reclaims are lost to a recorder that records or waits for media and has not taken them (08 R297). -/
def lostToRecorder (z : Nat) (gone : List RingEntry) (s : State) : State :=
  let l := gone.filter fun e => e.payload && decide ((group s z).recNext ≤ e.no)
  if !(s.recorder.begun && bit s.recorder.zmask z && (s.recorder.state == 1 || s.recorder.state == 2)) then s
  else match l with
    | [] => s
    | e :: _ =>
      let reason := gapReason s
      raise 300 (raiseLost z
        (unitEvent 0x3104 0x31 0 (some e.serial) (e.serial + 2 ^ 16 * (l.length % 65536) + 2 ^ 32 * z + 2 ^ 40 * reason)
          (modGroup z (fun g => { g with lost := addLost e.serial l.length reason g.lost }) s)))

/-- Frames that a ring reclaims are lost to a relay that has not sent them: it skips to the oldest frame still there
(08 R297). -/
def lostToRelay (z r : Nat) (gone : List RingEntry) (s : State) : State :=
  let l := gone.filter fun e => e.good && decide ((relay s r).next ≤ e.no)
  if !(isRelay s.cfg.active r && fieldAt (zipBlk s.cfg.active r) 0xC 1 == z) then s
  else match l with
    | [] => s
    | e :: _ =>
      raise (264 + r) (raiseLost z
        (unitEvent 0x3002 0x30 r (some e.serial) (e.serial + 2 ^ 16 * (l.length % 65536) + 2 ^ 32 * r)
          (modRelay r (fun x => { x with next := ((l.getLast?.map (·.no)).getD 0) + 1, offset := 0, gap := true }) s)))

/-- Before the ring is written up to a position, the frames in that space are reclaimed, oldest first (08 R296, R297). -/
def reclaim (z upTo : Nat) (s : State) : State :=
  let g := group s z
  let gone := g.entries.takeWhile fun e => !e.payload || decide (e.off + g.ring.2 < upTo)
  if !gone.any (·.payload) then s
  else
    let s1 := lostToRelay z 15 gone (lostToRelay z 14 gone (lostToRecorder z gone s))
    modGroup z (fun x => { x with entries := x.entries.drop gone.length
                                  recNext := max x.recNext (((gone.getLast?.map (·.no)).getD 0) + 1) }) s1

/-- Writes bytes at a position of a ring, which wraps. -/
def ringWrite (z pos : Nat) (bs : List Byte) (s : State) : State :=
  let (base, size) := (group s z).ring
  let o := pos % size
  let n := size - o
  hbmWrite base (bs.drop n) (hbmWrite (base + o) (bs.take n) s)

/-! ## Coding a frame (08 R283-R291, 06 R216) -/

/-- Rows of block row `i` of a frame (08 R283). -/
def blockRowHeight (height i : Nat) : Nat := min 16 (height - 16 * i)

/-- Codes the next block row of a frame where its rows have arrived. -/
def codeNext (p : PipeCfg) (w : ZipWork) : ZipWork :=
  let h := blockRowHeight p.height w.done.length
  if h = 0 ∨ w.rows.length < h then w
  else
    let (bytes, k) := codeBlockRow (zipCtx p w.blk) p.width (w.rows.take h) w.k
    { w with rows := w.rows.drop h, done := w.done ++ [bytes], k := k }

/-- Codes every block row whose rows have arrived. -/
def codeAll (p : PipeCfg) : Nat → ZipWork → ZipWork
  | 0, w => w
  | n + 1, w => codeAll p n (codeNext p w)

/-- Bytes of the coded block rows of a frame. -/
def codedBytes (w : ZipWork) : Nat := (w.done.map List.length).sum

/-- A frame's place in the ring: its own, else after the frames that are being coded before it. -/
def workOff (g : Group) (p : PipeCfg) (w : ZipWork) : Nat :=
  w.off.getD ((g.work.takeWhile (·.serial != w.serial)).foldl (fun a x => match x.off with
    | some o => o + alignUp (payloadStart (cdiv p.height 16) + codedBytes x) 64
    | none => a) g.wr)

/-- Rows of a frame reach a group: it codes the block rows that they complete and writes them to its ring. -/
def zipFeed (z : Nat) (p : PipeCfg) (serial : Nat) (rows : List RowRec) (s : State) : State :=
  let g := group s z
  match g.work.find? (·.serial == serial) with
  | none => s
  | some w =>
    let w1 := codeAll p (cdiv p.height 16) { w with rows := w.rows ++ rows }
    if w1.done.length = w.done.length then
      modGroup z (fun x => { x with work := x.work.map fun y => if y.serial = serial then w1 else y }) s
    else
      let off := workOff g p w
      let start := off + payloadStart (cdiv p.height 16)
      let s1 := reclaim z (start + codedBytes w1) s
      let s2 := modGroup z (fun x => { x with work := x.work.map fun y => if y.serial = serial then { w1 with off := some off } else y }) s1
      ringWrite z (start + codedBytes w) ((w1.done.drop w.done.length).flatMap id) s2

/-- A frame starts under its configuration in a group that has a ring and of which no channel is stopped (01 R22, 03 R93). -/
def zipBegin (t : Tbl CfgVal) (z serial : Nat) (s : State) : State :=
  match blkIn t 0x3002 z 0 with
  | none => s
  | some b =>
    if !((zipChannels (fieldAt (zipBlk t z) 0 2)).all fun k => unitLive s 0x30 k) then s
    else
      let ring := (fieldAt b 0 8, fieldAt b 8 8)
      let s1 := if (group s z).ring = ring then s
        else modGroup z (fun g => { g with ring := ring, wr := 0, entries := [], work := [] }) s
      modGroup z (fun g => { g with work := g.work ++ [{ serial := serial, blk := zipBlk t z }] }) s1

/-- The next publication number. -/
def publishNo (s : State) : Nat := s.recorder.published

/-- Adds an entry to a group's index (06 R216). -/
def addEntry (z : Nat) (e : RingEntry) (s : State) : State :=
  modGroup z (fun g => { g with entries := g.entries ++ [e] }) (modRec (fun x => { x with published := x.published + 1 }) s)

/-- The entry of a frame under its verdict. -/
def ringEntry (s : State) (i : Nat) (p : PipeCfg) (fr : Frame) (w : ZipWork) (off : Nat) (payload : Bool) (meta_ : List Byte) :
    RingEntry :=
  { no := publishNo s, serial := fr.serial, verdict := fr.flags, stream := i, off := off, payload := payload, time := fr.time
    epoch := fr.epoch, metaRec := meta_
    record := if payload then
        frameRecord (zipCtx p w.blk) fr.serial i p.width p.height p.cfa fr.flags fr.epoch fr.time w.done else [] }

/-- Keeps a frame's record in the ring and adds its entry. -/
def keepRecord (z i : Nat) (p : PipeCfg) (fr : Frame) (w : ZipWork) (meta_ : List Byte) (s : State) : State :=
  let off := workOff (group s z) p w
  let e := ringEntry s i p fr w off true meta_
  let s1 := reclaim z (off + e.record.length) s
  addEntry z e (ringWrite z off e.record
    (modGroup z (fun g => { g with wr := off + e.record.length, work := g.work.filter (·.serial != fr.serial) }) s1))

/-- A frame's verdict reaches a group: the entry is published, or RETRACT_POLICY is followed (06 R216, R217). -/
def zipVerdict (z i : Nat) (p : PipeCfg) (fr : Frame) (meta_ : List Byte) (s : State) : State :=
  match (group s z).work.find? (·.serial == fr.serial) with
  | none => s
  | some w =>
    let without := modGroup z (fun g => { g with work := g.work.filter (·.serial != fr.serial) }) s
    if !bit fr.flags 0 then raise (280 + z) (keepRecord z i p fr w meta_ s)
    else match fieldAt w.blk 7 1 with
      | 0 => addEntry z (ringEntry s i p fr w (workOff (group s z) p w) false meta_) without
      | 1 => without
      | _ => keepRecord z i p fr w meta_ s

/-- A group codes a frame of a stream through memory when it is handed on (08 R280). -/
def zipWhole (z i : Nat) (p : PipeCfg) (fr : Frame) (meta_ : List Byte) (s : State) : State :=
  zipVerdict z i p fr meta_ (zipFeed z p fr.serial fr.rows (zipBegin fr.cfg z fr.serial s))

/-! ## Relays (08 R299, R300) -/

/-- A metadata record (08 R306). -/
def metaChunk (e : RingEntry) : List Byte :=
  recordHeader 2 0 e.serial (64 + e.metaRec.length) e.stream ++ leBytes 48 0 ++ e.metaRec

/-- What a relay sends of a frame: its records, never encrypted. -/
def relayData (e : RingEntry) : List Byte := e.record ++ metaChunk e ++ e.audio

/-- A relay packet. -/
def relayPacket (e : RingEntry) (off n : Nat) (gap : Bool) : List Byte :=
  let d := ((relayData e).drop off).take n
  leBytes 2 e.serial ++ leBytes 1 e.stream ++
    leBytes 1 (b2n (off == 0) + 2 * b2n (off + d.length == (relayData e).length) + 4 * b2n gap) ++ leBytes 4 off ++
    leBytes 4 d.length ++ leBytes 4 0 ++ d

/-- The frame that a relay sends next. -/
def relayNext (s : State) (r : Nat) : Option RingEntry :=
  (group s (fieldAt (zipBlk s.cfg.active r) 0xC 1)).entries.find? fun e => e.good && decide ((relay s r).next ≤ e.no)

/-- A relay writes the next packet of its frame into OUT_QUEUE. -/
def sendRelay (r : Nat) (e : RingEntry) (s : State) : State :=
  let q := fieldAt (zipBlk s.cfg.active r) 0xE 2
  let off := (relay s r).offset
  let pkt := relayPacket e off ((queue s q).maxPacket - 16) (relay s r).gap
  if !queueTakes s q pkt then s
  else
    let sent := off + (pkt.length - 16)
    queueWrite q pkt (modRelay r (fun x =>
      if sent = (relayData e).length then { next := e.no + 1, offset := 0, gap := false }
      else { x with next := e.no, offset := sent, gap := false }) s)

/-- RELAY_PACKET (08 R299): the channel writes its next packet, where OUT_QUEUE has the credits. -/
def execRelayPacket (channel : Nat) (s : State) : Host.Outcome State Fault Refusal :=
  .next (if enginesClocked s && (channel == 14 || channel == 15) && isRelay s.cfg.active channel && unitLive s 0x30 channel then
    (match relayNext s channel with
      | some e => sendRelay channel e s
      | none => s) else s)

/-- A relay drops the rest of the frame in transfer, and OUT_QUEUE is flushed (08 R300). -/
def flushRelay (r : Nat) (s : State) : State :=
  let q := fieldAt (zipBlk s.cfg.active r) 0xE 2
  modRelay r (fun _ => { next := publishNo s, offset := 0, gap := false }) (flushQueue q s)

/-- The serial that a relay sends next, as `EV_ZIP_FLUSHED` gives it: that of the oldest frame of the group's stream whose verdict
is to come and which the group codes, else the stream's next. -/
def nextSerialOf (s : State) (r : Nat) : Nat :=
  let z := fieldAt (zipBlk s.cfg.active r) 0xC 1
  let x := stream s (fieldAt (zipBlk s.cfg.active z) 4 2)
  let coded (f : Frame) : Bool := !bit f.flags 0 && (f.source != 0 || (group s z).work.any (·.serial == f.serial))
  ((x.frames.find? coded).map (·.serial)).getD x.nextSerial

/-- A relay flushes and tells it: at `ZIP.FLUSH` and in its safe state (08 R300, R325). -/
def relayFlushed (r : Nat) (s : State) : State :=
  raise (280 + r) (unitEvent 0x3001 0x30 r none (nextSerialOf s r + 2 ^ 16 * r) (flushRelay r s))

/-- Checks of ZIP_FLUSH. -/
def checkZipFlush (t : State) (c : Cmd) : Option Reply :=
  inOrder t c (need (isRelay t.cfg.active c.target) (badSlot 8)) none none none

/-- Effect of ZIP_FLUSH. -/
def effectZipFlush (c : Cmd) (t : State) : State := complete c {} (relayFlushed c.target t)

/-- ZIP_FLUSH (08 R300): packets are written whole, so the packet boundary is now. -/
def execZipFlush (r : CmdRef) (s : State) : Host.Outcome State Fault Refusal :=
  .next (runCmd r 0x3003 checkZipFlush effectZipFlush s)

end Sys2Proof.Machine
end

