-- ==== Sys2Proof/Machine/Frames.lean ====
section
/-! DEFINITION. Frames while they arrive (04 R131-R142; 06 R204-R211; 14 R485-R489): channels, retraction at detection, rows
assembled from the members' lines, and their release to the consumers of stream 0. -/

namespace Sys2Proof.Machine

/-! ## Verdict bits (06 R210) -/

/-- RETRACTED. -/
def vRetracted : Nat := 1
/-- SHORT. -/
def vShort : Nat := 2
/-- LONG. -/
def vLong : Nat := 4
/-- CRC_ERR. -/
def vCrc : Nat := 8
/-- LANE_LOSS. -/
def vLane : Nat := 16
/-- OVERRUN. -/
def vOverrun : Nat := 32
/-- NO_TRAILER. -/
def vNoTrailer : Nat := 64
/-- SEAM. -/
def vSeam : Nat := 128
/-- HELD. -/
def vHeld : Nat := 256

/-! ## Channels: 0 to 7 the virtual channels of Bridle, 8 to 11 the CSI-2 ports -/

/-- A channel. -/
def chan (s : State) (c : Nat) : Chan := if c < 8 then s.brd.chans.getD c {} else s.csi.getD (c - 8) {}

/-- Changes a channel. -/
def modChan (c : Nat) (g : Chan → Chan) (s : State) : State :=
  if c < 8 then modBrd (fun b => { b with chans := b.chans.modify c g }) s else { s with csi := s.csi.modify (c - 8) g }

/-- Adds to a saturating 32-bit counter of a list. -/
def addAt (k n : Nat) (l : List Nat) : List Nat := l.modify k fun v => min 0xFFFFFFFF (v + n)

/-- Counts for a channel (04 'Counters'). -/
def countChan (c k n : Nat) (s : State) : State := modChan c (fun x => { x with counters := addAt k n x.counters }) s

/-- Counts for the link (04 'Counters'). -/
def countLink (k n : Nat) (s : State) : State := modBrd (fun b => { b with link := addAt k n b.link }) s

/-- `BRD.CONFIGURE` in a configuration. -/
def brdIn (t : Tbl CfgVal) : List Byte := (blkIn t 0x1001 0 0).getD []

/-- `BRD.CONFIGURE` in use. -/
def brdBlk (s : State) : List Byte := brdIn s.cfg.active

/-- The stream that names a channel. -/
def chanStream (t : Tbl CfgVal) (c : Nat) : Option (Nat × PipeCfg) :=
  if c < 8 then vcStream t c else (sourced t 2).find? fun e => e.2.index + 8 == c

/-- The channels of a stream, ascending (04 R133). -/
def members (p : PipeCfg) : List Nat := if p.source = 2 then [8 + p.index] else maskBits p.index

/-- The frame-error source of a channel (04 R165). -/
def frameSource (c : Nat) : Nat := if c < 8 then 32 + c else 76 + 5 * (c - 8)
/-- The CRC source of a channel. -/
def crcSource (c : Nat) : Nat := if c < 8 then 40 + c else 77 + 5 * (c - 8)
/-- The short or long line source of a channel. -/
def lineSource (c : Nat) : Nat := if c < 8 then 48 + c else 79 + 5 * (c - 8)

/-! ## Frames of a stream -/

/-- A frame of a stream that has no verdict yet. -/
def frameOf (s : State) (i serial : Nat) : Option Frame := (stream s i).frames.find? (·.serial == serial)

/-- Changes a frame. -/
def modFrame (i serial : Nat) (g : Frame → Frame) (s : State) : State :=
  modStream i (fun x => { x with frames := x.frames.map fun f => if f.serial = serial then g f else f }) s

/-- The configuration of a frame's stream. -/
def framePipe (fr : Frame) (i : Nat) : Option PipeCfg := pipeIn fr.cfg i

/-- The configuration that the packets of a channel between two FS belong to: that of the frame it has open, else the one in use
(01 R22). -/
def openCfg (s : State) (c : Nat) : Tbl CfgVal :=
  if !(chan s c).isOpen then s.cfg.active
  else ((s.streams.findSome? fun x => x.frames.find? fun f => f.serial == (chan s c).serial && f.joined.contains c).map (·.cfg)).getD
    s.cfg.active

/-- The stream that takes the packets of a channel between two FS. -/
def openStream (s : State) (c : Nat) : Option (Nat × PipeCfg) := chanStream (openCfg s c) c

/-- The frame that a channel has open, retracted or not: its FS has come and its FE has not. -/
def openFrameOf (s : State) (i c : Nat) : Option Frame :=
  if (chan s c).isOpen then (frameOf s i (chan s c).serial).filter fun f => f.joined.contains c && !f.ended.contains c else none

/-- The configuration that a channel's open frame works with from its FS on (01 R22). -/
def frameCfg (s : State) (i c : Nat) : Tbl CfgVal := ((frameOf s i (chan s c).serial).map (·.cfg)).getD s.cfg.active

/-- Changes the state of a ring slot. -/
def setRing (i n v : Nat) (s : State) : State := modStream i (fun x => { x with ring := Tbl.put 0 x.ring n v }) s

/-- The lowest free slot of a stream's ring (log 41). -/
def freeRingSlot (s : State) (i : Nat) (p : PipeCfg) : Option Nat :=
  (List.range p.ringSlots).find? fun n => Tbl.get 0 (stream s i).ring n == 0

/-! ## The array (14 R474, R489, R505) -/

/-- Whether the tether link between devices `j` and `j + 1` is up, as this device knows it. -/
def linkUpAt (s : State) (j : Nat) : Bool :=
  if j = s.sys.device then (s.tth.ports.getD 1 {}).up
  else if j + 1 = s.sys.device then (s.tth.ports.getD 0 {}).up
  else match Tbl.find? s.tth.blocks j with
    | some e => e.1.farPortUp
    | none => false

/-- The other devices of this device's part of the array (14 R505). -/
def partDevices (s : State) : List Nat :=
  (List.range s.sys.arraySize).filter fun d => d != s.sys.device &&
    (List.range (max d s.sys.device - min d s.sys.device)).all fun k => linkUpAt s (min d s.sys.device + k)

/-- Whether every link of the array is up. -/
def arrayWhole (s : State) : Bool := (partDevices s).length + 1 == s.sys.arraySize

/-- The other devices' verdict words of a serial. -/
def peerVerdicts (s : State) (serial : Nat) : Tbl Nat := Tbl.get [] s.tth.verdicts serial

/-- The verdict word of a frame: in a stripe stream the union over the part of the array (04 R136, 14 R489). -/
def unionFlags (s : State) (i : Nat) (fr : Frame) : Nat :=
  if striped fr.cfg i then (partDevices s).foldl (fun a d => a ||| Tbl.get 0 (peerVerdicts s fr.serial) d) fr.flags else fr.flags

/-- Whether a frame's verdict is decided: here, and in a stripe stream on every device of the part (06 R208, 14 R489). -/
def verdictReady (s : State) (i : Nat) (fr : Frame) : Bool :=
  fr.decided && (!striped fr.cfg i || (partDevices s).all fun d => (Tbl.find? (peerVerdicts s fr.serial) d).isSome)

/-- A frame is decided on this device, which in a stripe stream broadcasts its verdict (14 R489). -/
def decideFrame (i serial : Nat) (s : State) : State :=
  match frameOf s i serial with
  | none => s
  | some f =>
    let s1 := modFrame i serial (fun g => { g with decided := true }) s
    if striped f.cfg i then tthBroadcast 0 (.verdict serial f.flags) s1 else s1

/-! ## Retraction (04 R142, 06 R204, R209, R211) -/

/-- What a retraction leaves of a frame: no row that is not released goes further. -/
def retracted (flags : Nat) (f : Frame) : Frame :=
  { f with flags := f.flags ||| flags ||| vRetracted, rows := f.rows.take f.released, parts := [], held := false }

/-- A channel's lines and pixels count for its frame, which ends without the channel's FE (04 R142, R146). -/
def countOpen (x : Chan) (f : Frame) : Frame :=
  { f with lines := f.lines + ((x.cur.map (·.line + 1)).getD x.lines), pixels := f.pixels + x.pixels }

/-- The channels of a frame that have not had its FE. -/
def openChans (s : State) (serial : Nat) (f : Frame) : List Chan :=
  ((f.joined.filter fun c => !f.ended.contains c).map (chan s)).filter (·.serial == serial)

/-- The packets of a retracted frame's channels are discarded up to the next FS (04 R142). -/
def dropPackets (serial : Nat) (f : Frame) (s : State) : State :=
  (f.joined.filter fun c => !f.ended.contains c).foldl (fun t c =>
    modChan c (fun x => if x.serial = serial then { x with skip := true, cur := none } else x) t) s

/-- A retracted frame takes a further flag whose condition holds (04 R142). -/
def addFlags (i serial flags : Nat) (f : Frame) (s : State) : State :=
  let s1 := modFrame i serial (fun g => { g with flags := g.flags ||| flags }) s
  if striped f.cfg i && (f.flags ||| flags) != f.flags then tthBroadcast 0 (.verdict serial (f.flags ||| flags)) s1 else s1

/-- A frame retracts with flags. One that this device had decided before only takes the flags of another device (14 R489). -/
def retract (i serial flags : Nat) (s : State) : State :=
  match frameOf s i serial with
  | none => s
  | some f =>
    if bit f.flags 0 then addFlags i serial flags f s
    else
      let open_ := openChans s serial f
      let s1 := dropPackets serial f (modFrame i serial (fun g => open_.foldl (fun g x => countOpen x g) (retracted flags g)) s)
      if f.decided then s1 else latchLens s1.cfg.committed i (decideFrame i serial s1)

/-- Retracts every frame of a stream that is not decided, or that was retracted and has not had its FE. -/
def retractAll (i flags : Nat) (s : State) : State :=
  ((stream s i).frames.filter fun f => !f.decided || (openChans s f.serial f).any (·.isOpen)).foldl (fun t f => retract i f.serial flags t) s

/-- The streams of a configuration that Bridle feeds. -/
def bridleStreams (t : Tbl CfgVal) : List Nat := (sourced t 0 ++ sourced t 1).map (·.1)

/-! ## Rows from the members' lines (04 R133, R148, R149) -/

/-- A line of a member channel, with the gain code of its last packet. -/
def lineOf (fr : Frame) (c y : Nat) : Option (RowRec × Nat) := (Tbl.get [] fr.parts c)[y]?

/-- A further member's segment of a row: a gain code that differs is a split at the boundary (04 R149). -/
def joinLine (gain : Nat) (a e : RowRec) : RowRec :=
  let n := a.px.length
  let split := match a.split with
    | some c => some c
    | none => if e.gain != gain then some n else e.split.map (· + n)
  { a with px := a.px ++ e.px, split := split, filled := a.filled || e.filled, short := a.short || e.short
           long := a.long || e.long, crcBad := a.crcBad || e.crcBad }

/-- The members' segments of a row, left to right. -/
def joinLines : List RowRec → Option RowRec
  | [] => none
  | e :: l => some (l.foldl (joinLine e.gain) e)

/-- Row `y` of the assembled frame where its lines have arrived, with its channel. -/
def rowAt (mode : Nat) (m : List Nat) (fr : Frame) (y : Nat) : Option (RowRec × Nat) :=
  if mode = 2 then (lineOf fr (m.getD (y % m.length) 0) (y / m.length)).map fun e => (e.1, m.getD (y % m.length) 0)
  else ((m.mapM fun c => (lineOf fr c y).map (·.1)).bind joinLines).map fun e => (e, m.headD 0)

/-- GROUP_MODE of a frame: SINGLE for a stream that is no group. -/
def modeOf (fr : Frame) (p : PipeCfg) : Nat := if p.source = 0 then groupMode fr.cfg else 0

/-- The segments of a row that packets brought, left to right. -/
def rowSegments (mode : Nat) (m : List Nat) (fr : Frame) (y : Nat) : List (RowRec × Nat) :=
  let all := if mode = 2 then [lineOf fr (m.getD (y % m.length) 0) (y / m.length)] else m.map fun c => lineOf fr c y
  all.filterMap fun o => o.filter fun e => !e.1.filled

/-- The gain code of the first LD packet of a row: that of its first segment that packets brought (04 R148). DESIGN CHOICE (log 58):
in COLUMN mode a row's first packet is its leftmost member's and its last packet its rightmost member's. -/
def firstGain (mode : Nat) (m : List Nat) (fr : Frame) (y : Nat) : Option Nat :=
  (rowSegments mode m fr y).head?.map (·.1.gain)

/-- The gain code of the last LD packet before a row: that of the last segment that packets brought in the rows before it, or of the
FS (04 R148). -/
def gainBefore (mode : Nat) (m : List Nat) (fr : Frame) : Nat → Nat
  | 0 => fr.gainFs
  | y + 1 => ((rowSegments mode m fr y).getLast?.map (·.2)).getD (gainBefore mode m fr y)

/-- The next row of a frame, marked SEAM where its first packet differs from the last packet before it (04 R148). -/
def nextRow (p : PipeCfg) (fr : Frame) : Option (RowRec × Nat) :=
  let y := fr.rows.length
  if p.height ≤ y then none
  else match rowAt (modeOf fr p) (members p) fr y with
    | none => none
    | some (e, c) =>
      let prev := gainBefore (modeOf fr p) (members p) fr y
      some ({ e with seam := ((firstGain (modeOf fr p) (members p) fr y).map (· != prev)).getD false }, c)

/-- FLAGS of a halo row (14 R486). -/
def haloFlags (r : RowRec) : Nat :=
  r.gain % 2 + 2 * b2n r.seam + 4 * b2n r.split.isSome + 8 * b2n r.filled + 16 * b2n r.crcBad

/-- Sends the halos of a row to the neighbours (14 R486); a shed port carries nothing (14 R504). -/
def sendHalos (p : PipeCfg) (serial y : Nat) (r : RowRec) (s : State) : State :=
  (haloSides s).foldl (fun t side =>
    let px := if side = 0 then r.px.take 32 else r.px.drop (r.px.length - 32)
    if portShed t (12 + side) then t
    else tthSend side 1 (.halo { arrayRow := y, serial := serial, flags := haloFlags r, pixels := px, bits := p.bits, dual := p.dual
                                 crcOk := true })
      (if side = 0 then t.sys.device - 1 else t.sys.device + 1) false t) s

/-- A row joins its frame: its marks are counted, it goes to the ring slot of a stream through memory, and its halos to the
neighbours of a stripe, unless the frame is HELD: no consumer sees a row of it (06 R205, R213). -/
def placeRow (i : Nat) (p : PipeCfg) (fr : Frame) (r : RowRec) (c : Nat) (s : State) : State :=
  let y := fr.rows.length
  let s1 := modFrame i fr.serial (fun f => { f with rows := f.rows ++ [r], flags := f.flags ||| if r.seam then vSeam else 0 }) s
  let s2 := countChan c 12 (b2n r.split.isSome) (countChan c 11 (b2n r.seam) s1)
  let s3 := match fr.slot with
    | some n => hbmWrite (ringAddr p n + 0x1000 + p.pitch * y) (lineRecord p r) s2
    | none => s2
  if striped fr.cfg i && !fr.held then sendHalos p fr.serial y r s3 else s3

/-- Assembles the rows whose lines have arrived. -/
def assembleRows (i serial : Nat) (p : PipeCfg) : Nat → State → State
  | 0, s => s
  | n + 1, s =>
    match frameOf s i serial with
    | none => s
    | some fr =>
      match nextRow p fr with
      | none => s
      | some (r, c) => assembleRows i serial p n (placeRow i p fr r c s)

/-! ## Release to the consumers of stream 0 (05 R173, 06 R204, R213; 14 R487) -/

/-- Frames of stream 0 that are PROVISIONAL and released (06 R204, R205). -/
def releasedFrames (s : State) : Nat := ((stream s 0).frames.filter fun f => !bit f.flags 0 && !f.held).length

/-- Whether the halos that a row needs are there. -/
def halosReady (s : State) (fr : Frame) (y : Nat) : Bool :=
  !striped fr.cfg 0 || (haloSides s).all fun side => !(haloOf s fr side y ((fr.rows.getD y { px := [], gain := 0 }).px)).isEmpty

/-- Leading rows that may be released. -/
def availRows (s : State) (fr : Frame) : Nat := ((List.range fr.rows.length).takeWhile (halosReady s fr)).length

/-- Whether a side of a stripe reflects because its link is down: the frame is then flagged CRC_ERR (14 R487, R505). -/
def reflects (s : State) (fr : Frame) : Bool :=
  striped fr.cfg 0 && (haloSides s).any fun side => !(s.tth.ports.getD side {}).up

/-- The column estimate of a frame once its OB_TOP rows are there; it is carried on (05 R178, R179). -/
def formEstimate (p : PipeCfg) (fr : Frame) (avail : Nat) (s : State) : State :=
  let c := frontCtx s 0 p { fr with est := estBase (stream s 0) fr.estGen }
  if fr.estDone ∨ avail < obTop c then s
  else
    let e := columnEstimate c (frontRows s 0 fr)
    modStream 0 (fun x => { x with colEst := e, colGen := fr.estGen })
      (modFrame 0 fr.serial (fun f => { f with est := e, estDone := true }) s)

/-- Tells of the first split row once a frame (05 R193). -/
def tellSplitOnce (i : Nat) (fr : Frame) (rows : List RowRec) (s : State) : State :=
  if fr.splitTold || !rows.any (·.split.isSome) then s
  else modFrame i fr.serial (fun f => { f with splitTold := true }) (tellSplit i fr.serial rows s)

/-- Releases the rows of a frame of stream 0 that may go: to the column estimate, the capture groups, the taps and the
sessions of the coding link. -/
def releaseFrame (p : PipeCfg) (fr : Frame) (s : State) : State :=
  let n := availRows s fr
  if fr.held ∨ bit fr.flags 0 ∨ n ≤ fr.released then s
  else
    let s1 := formEstimate p fr n s
    let s2 := modFrame 0 fr.serial (fun f =>
      { f with released := n, flags := f.flags ||| if reflects s fr then vCrc else 0 }) s1
    let s3 := tellSplitOnce 0 fr (fr.rows.take n) s2
    let s4 := (groupsOf fr.cfg 0).foldl (fun t z => zipFeed z p fr.serial ((fr.rows.take n).drop fr.released) t) s3
    match frameOf s4 0 fr.serial with
    | none => s4
    | some f =>
      let d := developFrame s4 0 p f n false
      let active := n - obTopOf f.cfg 0
      encTapRows p f d active (n == p.height) (writeTaps 0 p f d active (n == p.height) s4)

/-- Releases what may go of every frame of stream 0, in serial order. -/
def releaseRows (s : State) : State :=
  (stream s 0).frames.foldl (fun t f =>
    match frameOf t 0 f.serial, framePipe f 0 with
    | some fr, some p => if p.source = 0 then releaseFrame p fr t else t
    | _, _ => t) s

/-- Rows that lines complete join their frame, and go to the consumers where it is in-line. -/
def advance (i serial : Nat) (p : PipeCfg) (s : State) : State :=
  let s1 := assembleRows i serial p (p.height + 1) s
  if p.source = 0 then releaseRows s1 else s1

/-! ## The elastic buffer (04 R155) -/

/-- Row of the assembled frame that a line of a member channel carries. -/
def rowOfLine (fr : Frame) (p : PipeCfg) (c l : Nat) : Nat :=
  if modeOf fr p = 2 then l * (members p).length + (members p).idxOf c else l

/-- Pixels of a group frame that wait: those of rows that Pipe A is not taking. It takes the pixels of the next row as they
arrive, unless the frame is HELD or the row waits for its halos. -/
def framePixels (s : State) (f : Frame) : Nat :=
  match framePipe f 0 with
  | none => 0
  | some p =>
    if bit f.flags 0 then 0
    else
      let first := if f.held ∨ f.released < f.rows.length then f.released else f.released + 1
      ((members p).map fun c =>
        let whole := ((List.range (Tbl.get [] f.parts c).length).filter fun l => decide (first ≤ rowOfLine f p c l)).length
        let x := chan s c
        let part := if x.serial = f.serial && x.isOpen then
            (match x.cur with
              | some a => if first ≤ rowOfLine f p c a.line then a.px.length else 0
              | none => 0) else 0
        whole * chanWidth f.cfg p + part).sum

/-- Pixels of the frames in the elastic buffer that wait. -/
def waitingPixels (s : State) : Nat := ((stream s 0).frames.map (framePixels s)).sum

/-- Pixels that Pipe A takes while some pixels of its group arrive: at its clock's stage, in the time that LINE_TIME_NS gives
them (04 R138, R155, 05 R168; log 53). -/
def drained (s : State) (f : Frame) (p : PipeCfg) (n : Nat) : Rat :=
  let rows := if groupMode f.cfg = 2 then (members p).length else 1
  let time := lineTime (brdIn f.cfg) ((members p).headD 0)
  ((20 * clockPercent (clockStage s .pipe) * n * time : Nat) : Rat) / ((100 * max 1 (p.width * rows) : Nat) : Rat)

/-- The fill of the buffer when pixels have arrived: what Pipe A's clock leaves, and at least the pixels that wait. -/
def fillAfter (s : State) (f : Frame) (p : PipeCfg) (n : Nat) : Rat :=
  max (waitingPixels s : Nat) (s.brd.fill + (n : Nat) - drained s f p n)

/-- Pixels arrive: one that finds the buffer full retracts the frame with OVERRUN, and the buffer drains before the next FS; the
peak fill is kept (04 R155, 'Counters'). -/
def checkElastic (serial n : Nat) (s : State) : State :=
  match frameOf s 0 serial with
  | none => s
  | some f => match framePipe f 0 with
    | none => s
    | some p =>
      let fill := fillAfter s f p n
      let peak := min fill.ceil.toNat Config.elasticPixels
      let s1 := modBrd (fun b => { b with fill := fill, link := b.link.modify 4 fun v => max v peak }) s
      if fill ≤ (Config.elasticPixels : Nat) then s1
      else raise 64 (countLink 2 1 (retract 0 serial vOverrun (modBrd (fun b => { b with fill := 0 }) s1)))

/-- Lines that a member has delivered of a frame. -/
def memberLines (s : State) (p : PipeCfg) (f : Frame) (c : Nat) : Nat :=
  if f.ended.contains c then chanHeight f.cfg p
  else if f.joined.contains c then (chan s c).lines else 0

/-- A member that runs more than GROUP_SKEW_LINES ahead of another retracts the group's frame (04 R135). -/
def checkSkew (serial : Nat) (p : PipeCfg) (s : State) : State :=
  match frameOf s 0 serial with
  | none => s
  | some f =>
    let n := (members p).map (memberLines s p f)
    if n.foldl max 0 ≤ n.foldl min (n.headD 0) + fieldAt (brdIn f.cfg) 0xC 1 then s else retract 0 serial vOverrun s

end Sys2Proof.Machine
end

