-- ==== Sys2Proof/Machine/Net.lean ====
section
/-! DEFINITION. The network ports (13 R440-R443, R456-R472; 06 R228): configuration, links, frames of the Groom, sending
and receiving flows, and the commands of class NET. -/

namespace Sys2Proof.Machine

/-! ## NET.CONFIGURE -/

/-- PTP_ENGINE of a port in a configuration, whatever its MODE (13 R443). -/
def ptpNamed (t : Tbl CfgVal) (p : Nat) : Nat := ((blkIn t 0x7001 p 0).map fun b => fieldAt b 2 1).getD 0xFF

/-- Relations of `NET.CONFIGURE` (13 R443). -/
def netConfigureFaults (s : State) (c : Cmd) : List Nat :=
  let e := fieldAt c.region 2 1
  let other := 1 - c.target
  let staged := (Tbl.find? (overlay [] s.cfg.staged) (cfgKey 0x7001 other 0)).map fun v => fieldAt v.blk 2 1
  faultIf (fieldAt c.region 0 1 != 0xFF && fieldAt c.region 0xC 4 == 0) 0 ++
  faultIf (e != 0xFF && (ptpNamed s.cfg.committed other == e || staged == some e ||
    ownerOf s (myUnit s 0x71 e) != c.fn)) 2

/-- Checks of NET_CONFIGURE. -/
def checkNetConfigure (t : State) (c : Cmd) : Option Reply :=
  stagedCheck layNetConfigure 0 (cfgKey 0x7001 c.target 0) (netConfigureFaults t c) none none t c

/-- Effect of NET_CONFIGURE. -/
def effectNetConfigure (c : Cmd) (t : State) : State :=
  stageCmd layNetConfigure 0 (cfgKey 0x7001 c.target 0) c t

/-- NET_CONFIGURE (13 R443). -/
def execNetConfigure (r : CmdRef) (s : State) : Host.Outcome State Fault Refusal :=
  .next (runCmd r 0x7001 checkNetConfigure effectNetConfigure s)

/-! ## NET.FLOW (13 R456-R458, R462, R468) -/

/-- Whether a path's packets carry a VLAN tag. -/
def pathTagged (b : List Byte) (i : Nat) : Bool := bit (fieldAt b (0x32 + 20 * i) 2) 15

/-- Packets of a line of a kind 1 flow (13 R459). -/
def linePackets (width packing : Nat) : Nat := cdiv (width / 2) (max packing 1)

/-- Bytes of a kind 3 packet's payload (13 R463, log 28). -/
def atcBytes : Nat := 40

/-- Samples of a packet of a kind 2 flow. -/
def audioSamples (packing : Nat) : Nat := if packing = 0 then 48 else 6

/-- Largest RTP payload of a kind 4 or 5 flow: RTP_MAX of the session that fills the queue, or MAX_PACKET. -/
def queuePayload (s : State) (t : Tbl CfgVal) (x : FlowCfg) : Nat :=
  let q := queue s x.queue
  if x.kind = 4 then
    match encIn t q.prod.2 with
    | some e => min (rateIn t q.prod.2 e).rtpMax (q.maxPacket - 16)
    | none => q.maxPacket - 16
  else q.maxPacket

/-- Largest payload of a flow's packets, with the payload header of RFC 4175 for kind 1 (13 R458, log 28). -/
def flowPayload (s : State) (t : Tbl CfgVal) (x : FlowCfg) : Nat :=
  match x.kind with
  | 1 => match tapIn t x.stream x.tap with
    | some k => 8 + 5 * min x.packing (k.outW / 2)
    | none => 8 + 5 * x.packing
  | 2 => 3 * maskCount x.audio 16 * audioSamples x.packing
  | 3 => atcBytes
  | _ => queuePayload s t x

/-- Frames per second of a tap where they are an integer: the period of its stream is that of a whole rate in whole ns,
which FRAME_DIV divides (13 R458, R463). -/
def tapWhole (t : Tbl CfgVal) (i k : Nat) : Option Nat :=
  match tapIn t i k, pipeIn t i with
  | some x, some p =>
    let r := (2000000000 / p.period + 1) / 2
    if ((1000000000 : Int) - r * p.period).natAbs < r ∧ x.div ≠ 0 ∧ r % x.div = 0 then some (r / x.div) else none
  | _, _ => none

/-- Frames per second of a tap. -/
def tapRate (t : Tbl CfgVal) (i k : Nat) : Rat :=
  match tapIn t i k, pipeIn t i with
  | some x, some p => perSec p.period / x.div
  | _, _ => 0

/-- Wire bytes per second of a sending flow, with `extra` bytes added to each payload (13 R458). -/
def flowWire (s : State) (t : Tbl CfgVal) (x : FlowCfg) (extra : Nat) : Rat :=
  match x.kind with
  | 1 => match tapIn t x.stream x.tap with
    | some k => (k.outH * (5 * (k.outW / 2) + extra * linePackets k.outW x.packing) : Nat) * tapRate t x.stream x.tap
    | none => 0
  | 2 => (3 * maskCount x.audio 16 * 48000 + extra * (48000 / audioSamples x.packing) : Nat)
  | 3 => (atcBytes + extra : Nat) * tapRate t x.stream x.tap
  | 4 => (x.rateKbps * 125 : Nat) * (1 + (extra : Rat) / max 1 (queuePayload s t x))
  | 5 => (x.rateKbps * 125 : Nat) * (1 + (extra : Rat) / max 1 (queuePayload s t x))
  | _ => 0

/-- Wire bytes per second that the flows of a configuration send on a sub-port of a port. -/
def portWire (s : State) (t : Tbl CfgVal) (port sub : Nat) : Rat :=
  ([0, 1].flatMap fun p => (List.range 32).flatMap fun f => (List.range 2).map fun i =>
    match blkIn t 0x7002 p f with
    | some b =>
      let x := FlowCfg.of b
      if i < x.paths ∧ pathPort p i = port ∧ (portMode t port ≠ 1 ∨ x.subport = sub) then
        flowWire s t x (if pathTagged b i then 94 else 90) else 0
    | none => (0 : Rat)).sum

/-- 0.95 of the line capacity of a port in bytes per second (13 R440, R458). -/
def lineBytes (t : Tbl CfgVal) (port : Nat) : Rat := (if portMode t port = 1 then 25 else 100) * 1000000000 / 8 * 95 / 100

/-- Whether a port or sub-port would send more than it may. -/
def overCapacity (s : State) (t : Tbl CfgVal) (x : FlowCfg) (port : Nat) : Bool :=
  ((List.range (min x.paths 2)).any fun i =>
    let sub := if portMode t (pathPort port i) = 1 then x.subport else 0
    decide (lineBytes t (pathPort port i) < portWire s t (pathPort port i) sub))

/-- Whether the TDM ports of an audio mask run at 48 kHz (13 R462, 08 R319). -/
def audio48 (t : Tbl CfgVal) (m : Nat) : Bool :=
  [0, 1].all fun a => m / 256 ^ a % 256 == 0 || (match blkIn t 0x3201 a 0 with
    | some b => fieldAt b 1 1 == 0
    | none => false)

/-- Faults of the fields that a sending flow uses (13 R458, R462). -/
def sendFaults (s : State) (t : Tbl CfgVal) (port : Nat) (b : List Byte) : List Nat :=
  let x := FlowCfg.of b
  let tap := tapIn t x.stream x.tap
  faultIf (decide (x.payloadType < 96) || decide (127 < x.payloadType)) 0xD ++
  faultIf (x.kind == 1 && ((tap.map (·.format)) != some 2 || !tapRuns t x.stream x.tap)) 1 ++
  faultIf (x.kind == 1 && decide (1 < fieldAt b 3 1)) 3 ++
  faultIf ((x.kind == 1 || x.kind == 3) && decide (16 < x.stream)) 4 ++
  faultIf ((x.kind == 1 || x.kind == 3) && decide (3 < x.tap)) 6 ++
  faultIf (x.kind == 1 && decide (2 < x.sender)) 0xC ++
  faultIf (x.kind == 1 && (x.packing == 0 || decide (1780 < x.packing))) 0xE ++
  faultIf (x.kind == 2 && decide (1 < x.packing)) 0xE ++
  faultIf (x.kind == 2 && !audio48 t x.audio) 0xA ++
  faultIf (x.kind == 3 && (tapWhole t x.stream x.tap).isNone) 1 ++
  faultIf ((x.kind == 4 || x.kind == 5) && !consumesFrom s x.queue 0x70 port) 8 ++
  faultIf ((List.range (min x.paths 2)).any fun i => decide (portMtu t (pathPort port i) < 40 + flowPayload s t x))
    (if x.kind = 1 then 0xE else if x.kind = 2 then 0xA else 8) ++
  ((List.range (min x.paths 2)).flatMap fun i =>
    faultIf (!isMulticast (fieldAt b (0x20 + 20 * i) 4) && fieldAt b (0x2C + 20 * i) 6 == 0) (0x20 + 20 * i)) ++
  faultIf (overCapacity s t x port) 1

/-- Faults of the fields that a receiving flow uses (13 'NET.FLOW', R468). -/
def receiveFaults (b : List Byte) : List Nat :=
  let x := FlowCfg.of b
  faultIf (decide (x.ringSlots < 2) || decide (256 < x.ringSlots)) 0x50 ++
  faultIf (x.paths == 2 && (decide (x.skewMs < 1) || decide (10 < x.skewMs))) 0x52 ++
  faultIf (x.kind == 9 && (decide (x.period < 8333333) || decide (1000000000 < x.period))) 0x60

/-- Relations of `NET.FLOW`; a KIND of 0 removes the flow and uses no other field. -/
def netFlowFaults (s : State) (c : Cmd) : List Nat :=
  let b := c.region
  let x := FlowCfg.of b
  let t := Tbl.set (resulting s) (cfgKey 0x7002 c.target x.flow) (valOf layNetFlow c 0)
  if x.kind = 0 then []
  else
    faultIf (x.paths == 0 || decide (2 < x.paths)) 2 ++
    faultIf (decide (3 < x.subport) || (x.subport != 0 && portMode t c.target != 1)) 7 ++
    (if x.kind < 9 then sendFaults s t c.target b else receiveFaults b)

/-- Checks of `NET.FLOW`. -/
def netFlowCheck (s : State) (c : Cmd) : Option Reply :=
  stagedCheck layNetFlow 0 (cfgKey 0x7002 c.target (fieldAt c.region 0 1)) (netFlowFaults s c) none none s c

/-- Effect of NET_FLOW. -/
def effectNetFlow (c : Cmd) (t : State) : State :=
  stageCmd layNetFlow 0 (cfgKey 0x7002 c.target (fieldAt c.region 0 1)) c t

/-- NET_FLOW (13 R458). -/
def execNetFlow (r : CmdRef) (s : State) : Host.Outcome State Fault Refusal :=
  .next (runCmd r 0x7002 netFlowCheck effectNetFlow s)

/-! ## NET.COUNTERS -/

/-- Checks of NET_COUNTERS. -/
def checkNetCounters (t : State) (c : Cmd) : Option Reply :=
  inOrder t c (blockFault layNetCounters c.region (faultIf (fieldAt c.region 0 1 != c.target) 0)) none none none

/-- Effect of NET_COUNTERS. -/
def effectNetCounters (c : Cmd) (t : State) : State :=
  let d := (netPort t c.target).counters.flatMap fun v => leBytes 4 v
  complete c { data := d }
    (if bit (fieldAt c.region 1 1) 0 then modNet c.target (fun n => { n with counters := List.replicate 16 0 }) t else t)

/-- NET_COUNTERS (02 R79, 13 'Counters'). -/
def execNetCounters (r : CmdRef) (s : State) : Host.Outcome State Fault Refusal :=
  .next (runCmd r 0x7003 checkNetCounters effectNetCounters s)

/-! ## Links (13 R442) -/

/-- The lanes of a link of a port: all four, or in mode 1 the sub-port's (13 R440, 15 R508). -/
def linkLanes (s : State) (p sub : Nat) : List Nat :=
  if sub = 0 ∧ portMode s.cfg.active p ≠ 1 then (List.range 4).map (48 + 4 * p + ·) else [48 + 4 * p + sub]

/-- A link or sub-port changes state: the event and the source. -/
def linkChange (p sub : Nat) (up : Bool) (s : State) : State :=
  raise (528 + 8 * p) (unitEvent 0x7001 0x70 p none (p + 2 * sub + 256 * b2n up)
    (modNet p (fun n => { n with up := n.up.set sub up }) (lanesTurn up (linkLanes s p sub) s)))

/-- Whether a port has a sub-port: 0 alone outside mode 1 (13 R440). -/
def hasSub (s : State) (p sub : Nat) : Bool :=
  decide (p < 2) && (sub == 0 || (portMode s.cfg.active p == 1 && decide (sub < 4)))

/-- NET_LINK_DOWN (13 R442): also of a sub-port that was up when its port left mode 1. -/
def execNetLinkDown (port sub : Nat) (s : State) : Host.Outcome State Fault Refusal :=
  .next (if enginesClocked s && decide (port < 2) && decide (sub < 4) && (netPort s port).up.getD sub false then
    linkChange port sub false (countAt port 15 1 s) else s)

/-- NET_LINK_UP (13 R442); a loopback on one of its lanes keeps a link down (15 R523). -/
def execNetLinkUp (port sub : Nat) (s : State) : Host.Outcome State Fault Refusal :=
  .next (if enginesClocked s && hasSub s port sub && portMode s.cfg.active port != 0xFF && !(netPort s port).up.getD sub false &&
      !(linkLanes s port sub).any (forcedOff s) then
    linkChange port sub true s else s)

/-! ## Frames that the Groom takes (13 R441) -/

/-- The groups that the receive flows of both ports and the PTP instance have joined on a port: sub-port, address. -/
def joinedOn (s : State) (p : Nat) : List (Nat × Nat) :=
  (([0, 1].flatMap fun q => (List.range 32).flatMap fun f => match flowIn s.cfg.active q f with
    | some x => flowGroups q x
    | none => []) ++ ptpGroups p ((activeBlk s 0x7001 p 0).getD (leBytes 32 0xFF))).filterMap fun g =>
      if g.1 = p then some (flowSub s p g.2.1, g.2.2) else none

/-- Whether a port's links have FEC: RS-FEC, but for mode 1 with FEC 1 (13 R440). -/
def hasFec (s : State) (p : Nat) : Bool := !(portMode s.cfg.active p == 1 && portByte s p 1 == 1)

/-- What the Groom does with a frame (13 R441, R472). -/
def onFrame (p sub : Nat) (f : NetFrame) (s : State) : State :=
  let got := countAt p 0 1 s
  match f with
  | .arpRequest mac from_ ip => if ip = portIp s p then netTx p sub (arpReply s p mac from_) got else countAt p 5 1 got
  | .icmpEcho mac from_ ip data => if ip = portIp s p then netTx p sub (echoReply s p mac from_ data) got else countAt p 5 1 got
  | .igmpQuery => (joinedOn s p).foldl (fun t g => if g.1 = sub then netTx p sub (igmpReport t p 2 g.2) t else t) got
  | .other => countAt p 5 1 got
  | .fcsError => countAt p 2 1 s
  | .fecCorrected n => if hasFec s p then countAt p 3 n s else s
  | .fecUncorrectable n => if hasFec s p then raise (528 + 8 * p + 1) (countAt p 4 n s) else s

/-- NET_FRAME_RECEIVED (13 R441). -/
def execNetFrameReceived (port sub : Nat) (frame : NetFrame) (s : State) : Host.Outcome State Fault Refusal :=
  .next (if enginesClocked s && hasSub s port sub && linkIsUp s port sub then onFrame port sub frame s else s)

/-! ## Sending -/

/-- A flow's state. -/
def flowSt (s : State) (p f : Nat) : FlowSt := (netPort s p).flows.getD f {}

/-- Changes a flow. -/
def modFlow (p f : Nat) (g : FlowSt → FlowSt) (s : State) : State :=
  modNet p (fun n => { n with flows := n.flows.modify f g }) s

/-- The flow as its port works with it. -/
def flowNow (s : State) (p f : Nat) : Option FlowCfg := flowIn s.cfg.active p f

/-- Whether the transmit port of a network port is shed (13 R469). -/
def txShed (s : State) (p : Nat) : Bool := portShed s (8 + p)

/-- Whether the receive port of a network port is shed (10 R384). -/
def rxShed (s : State) (p : Nat) : Bool := portShed s (10 + p)

/-- Whether a network port carries essence: clocked and not in its safe state (13 R470). -/
def netLive (s : State) (p : Nat) : Bool := enginesClocked s && safeOf s (myUnit s 0x70 p) != 2

/-- The RTP timestamp of a time at 90 kHz (09 R348). -/
def rtp90 (ns : Nat) : Nat := ns * 9 / 100000 % 2 ^ 32

/-- A packet of a flow as the frame of its path `i`: RTP, UDP, IPv4 and Ethernet with the flow's parameters (13 R457, R464). -/
def flowFrame (s : State) (p i : Nat) (x : FlowCfg) (seqNo ts : Nat) (marker : Bool) (data : List Byte) : List Byte :=
  let o := pathPort p i
  let d := x.dst.getD i (0, 0, 0)
  let l := x.link.getD i (0, 0, 0)
  let y : IpPath :=
    { mac := if l.2.1 = 0 then groupMac d.1 else l.2.1, vlan := l.2.2, tos := 4 * (x.dscp % 64), ttl := x.ttl, dst := d.1
      src := if d.2.1 = 0 then portIp s o else d.2.1 }
  udpFrame s o y l.1 d.2.2 (rtpHeader x.payloadType seqNo ts x.ssrc marker ++ data)

/-- A packet of a flow leaves on each of its paths whose link is up and whose port is not in its safe state; its sequence number is
taken either way. While the flow's port is shed it leaves on neither path, and is counted (13 R457, R469, R470). -/
def sendRtp (p f : Nat) (x : FlowCfg) (held : Bool) (ts : Nat) (marker : Bool) (data : List Byte) (s : State) : State :=
  let q := (flowSt s p f).seqNo
  let s1 := modFlow p f (fun y => { y with seqNo := (y.seqNo + 1) % 2 ^ 32 }) s
  if held || txShed s1 p then raise (528 + 8 * p + 6) (countAt p 13 1 s1)
  else (List.range (min x.paths 2)).foldl (fun t i =>
    let o := pathPort p i
    if netLive t o then netTx o (flowSub t o x.subport) (flowFrame t p i x q ts marker data) t else t) s1

/-- A flow takes its committed parameters at a slot, or a queue packet (02 R69). -/
def switchFlow (p f : Nat) (s : State) : State := switchKeys (fun k => k == cfgKey 0x7002 p f) s

/-! ### Kind 1 (13 R459-R461, 06 R228) -/

/-- The slots of a tap. -/
def tapSlots (s : State) (i k : Nat) : Tbl TapSlot := (stream s i).taps.getD k []

/-- Whether a serial follows another (01 R21: 16 bits). -/
def serialAfter (a b : Nat) : Bool := a != b && decide ((a + 65536 - b) % 65536 < 32768)

/-- The newest slot of a tap that satisfies a test: slot number and slot. -/
def newestSlot (l : Tbl TapSlot) (p : TapSlot → Bool) : Option (Nat × TapSlot) :=
  (l.filter fun e => p e.2).foldl (fun m e => match m with
    | none => some e
    | some b => if serialAfter e.2.serial b.2.serial then some e else some b) none

/-- Frame period of a flow's tap in ns. -/
def tapPeriod (s : State) (x : FlowCfg) : Nat :=
  match pipeIn s.cfg.active x.stream, tapIn s.cfg.active x.stream x.tap with
  | some p, some k => p.period * k.div
  | _, _ => 0

/-- N of the latest send slot that has started on F (13 R460). -/
def slotNumber (s : State) (x : FlowCfg) : Int := ((frameNs s : Int) - x.txOffset) / tapPeriod s x

/-- t_N of that slot in ns (13 R460). -/
def slotStart (s : State) (x : FlowCfg) : Int := slotNumber s x * tapPeriod s x + x.txOffset

/-- Whether a slot of a flow is due: it starts after the slot that the flow took last. -/
def slotDue (s : State) (p f : Nat) (x : FlowCfg) : Bool :=
  match (flowSt s p f).slotAt with
  | some t => decide (t < slotStart s x)
  | none => true

/-- From when on F packet `k` of `n` of a slot that starts at `t` leaves; a wide sender waits for the rows alone (13 R461). -/
def packetTime (s : State) (x : FlowCfg) (t : Int) (k n : Nat) : Int :=
  if x.sender = 0 then t + k * (tapPeriod s x * 96 / 100 / n)
  else if x.sender = 1 then t + k * (tapPeriod s x / n) else t

/-- Whether the next packet of a flow's frame is due (13 R461). -/
def packetDue (s : State) (p f : Nat) (x : FlowCfg) : Bool :=
  let y := flowSt s p f
  decide (packetTime s x (y.slotAt.getD 0) y.sent y.total ≤ frameNs s)

/-- t_N − TX_OFFSET_NS of that slot. -/
def slotTime (s : State) (x : FlowCfg) : Nat := (slotNumber s x * tapPeriod s x).toNat

/-- Packets of a frame of a kind 1 flow. -/
def framePackets (k : TapCfg) (x : FlowCfg) : Nat := linePackets k.outW x.packing * k.outH

/-- Starts a frame from a slot of the tap, with its RTP timestamp, in the send slot just taken. -/
def startFrame (p f : Nat) (slot : Option Nat) (ts total : Nat) (s : State) : State :=
  modFlow p f (fun y => { y with frame := slot, sent := 0, total := total, repeatTs := some ts, lateAt := none
                                 last := slot.or y.last, stopped := txShed s p }) s

/-- Serial of the frame that a flow sent last, where its slot still holds one. -/
def lastSerialOf (s : State) (p f : Nat) (l : Tbl TapSlot) : Option Nat :=
  (flowSt s p f).last.bind fun n => (Tbl.find? l n).map (·.serial)

/-- Whether a slot holds a frame newer than the last one sent. -/
def newerThan (last : Option Nat) (x : TapSlot) : Bool :=
  match last with
  | none => true
  | some q => serialAfter x.serial q

/-- Frames superseded by a newer one before their slot (13 R460). -/
def supersededBy (l : Tbl TapSlot) (last : Option Nat) (ok : TapSlot → Bool) (serial : Nat) : Nat :=
  (l.filter fun e => ok e.2 && newerThan last e.2 && serialAfter serial e.2.serial).length

/-- Counts skipped frames. -/
def countSkipped (p n : Nat) (s : State) : State := if n = 0 then s else raise (528 + 8 * p + 4) (countAt p 8 n s)

/-- A slot with no new frame repeats the last one sent (13 R460). -/
def repeatLast (p f : Nat) (x : FlowCfg) (total : Nat) (s : State) : State :=
  match (flowSt s p f).last with
  | some k => raise (528 + 8 * p + 4) (countAt p 9 1 (startFrame p f (some k) (rtp90 (slotTime s x)) total s))
  | none => startFrame p f none 0 0 s

/-- A send slot of a LIVE flow: frames with an FS time up to t_N (13 R460). -/
def liveSlot (p f : Nat) (x : FlowCfg) (total : Nat) (s : State) : State :=
  let l := tapSlots s x.stream x.tap
  let last := lastSerialOf s p f l
  let ok := fun (y : TapSlot) => decide ((timeNs y.time : Int) ≤ slotStart s x)
  match newestSlot l (fun y => ok y && newerThan last y) with
  | some e => countSkipped p (supersededBy l last ok e.2.serial) (startFrame p f (some e.1) (rtp90 (timeNs e.2.time)) total s)
  | none => repeatLast p f x total s

/-- A retracted frame's place in a HOLD flow: the most recent COMMITTED frame with its RTP timestamp (06 R228); the event's
DETAIL is an open value (log 6). -/
def holdRetracted (p f : Nat) (total : Nat) (time : Time) (s : State) (l : Tbl TapSlot) : State :=
  match newestSlot l (fun y => y.state == 1) with
  | some e =>
    raise (528 + 8 * p + 5) (bump (unitEvent 0x7005 0x70 p none (draw s (2 ^ 64 - 1))
      (startFrame p f (some e.1) (rtp90 (timeNs time)) total s)))
  | none => startFrame p f none 0 0 s

/-- Whether a slot holds a frame whose COMMITTED verdict was given by t_N (13 R460). -/
def committedBy (s : State) (x : FlowCfg) (y : TapSlot) : Bool := y.state == 1 && decide ((y.since : Int) ≤ slotStart s x)

/-- The latest retracted frame of a flow's tap that is newer than the last one sent and was retracted by t_N: serial and FS time,
whether or not the tap had a slot for it (06 R224, R228; 13 R460). -/
def retractedNow (s : State) (x : FlowCfg) (last : Option Nat) : Option (Nat × Time) :=
  ((stream s x.stream).lastRetracted).bind fun r =>
    let after := match last with
      | none => true
      | some q => serialAfter r.1 q
    let phase := ((tapIn s.cfg.active x.stream x.tap).map fun k => inPhase k r.1).getD false
    if after && phase && decide ((r.2.2 : Int) ≤ slotStart s x) then some (r.1, r.2.1) else none

/-- A send slot of a HOLD flow (13 R460, 06 R228). -/
def holdSlot (p f : Nat) (x : FlowCfg) (total : Nat) (s : State) : State :=
  let l := tapSlots s x.stream x.tap
  let last := lastSerialOf s p f l
  let ok := committedBy s x
  let good := newestSlot l (fun y => ok y && newerThan last y)
  let gone := (retractedNow s x last).bind fun r => match good with
    | some e => if serialAfter r.1 e.2.serial then some r else none
    | none => some r
  match gone, good with
  | some r, _ =>
    if (flowSt s p f).dropped = some r.1 then repeatLast p f x total s
    else holdRetracted p f total r.2 (modFlow p f (fun y => { y with dropped := some r.1 }) s) l
  | none, some e =>
    countSkipped p (supersededBy l last ok e.2.serial) (startFrame p f (some e.1) (rtp90 (timeNs e.2.time)) total s)
  | none, none => repeatLast p f x total s

/-- The time address of a kind 3 packet: the second of the day, and the frame count (13 R463). -/
def timeAddress (t : Time) (offset : Int) (rate : Nat) : Nat × Nat :=
  ((((t.sec : Int) + offset) % 86400).toNat, t.nsec * rate / 1000000000)

/-- The payload of a kind 3 packet for a frame's FS time. -/
def atcPayload (t : Time) (offset : Int) (rate seqNo : Nat) : List Byte :=
  let a := timeAddress t offset rate
  ancPayload seqNo (a.1 / 3600) (a.1 / 60 % 60) (a.1 % 60) a.2

/-- A send slot of a kind 3 flow: one packet for each frame (13 R463; log 28). -/
def timecodeSlot (p f : Nat) (x : FlowCfg) (s : State) : State :=
  let l := tapSlots s x.stream x.tap
  let last := lastSerialOf s p f l
  let ok := committedBy s x
  match newestSlot l (fun y => ok y && newerThan last y) with
  | some e =>
    let rate := (tapWhole s.cfg.active x.stream x.tap).getD 0
    let s1 := countSkipped p (supersededBy l last ok e.2.serial) (startFrame p f (some e.1) (rtp90 (timeNs e.2.time)) 0 s)
    sendRtp p f x false (rtp90 (timeNs e.2.time)) true (atcPayload e.2.time x.tcOffset rate (flowSt s1 p f).seqNo) s1
  | none => s

/-- What a flow sends in a slot that has come. -/
def takeSendSlot (p f : Nat) (x : FlowCfg) (s : State) : State :=
  let total := ((tapIn s.cfg.active x.stream x.tap).map fun k => framePackets k x).getD 0
  let s1 := modFlow p f (fun y => { y with slotAt := some (slotStart s x) }) s
  match x.kind with
  | 1 => if x.live then liveSlot p f x total s1 else holdSlot p f x total s1
  | 3 => timecodeSlot p f x s1
  | _ => s

/-- Whether a flow of a tap has a slot now, and is not at one that it has taken; a tap that is not configured gives none. -/
def slotHere (s : State) (p f : Nat) (x : FlowCfg) : Bool := tapPeriod s x != 0 && slotDue s p f x

/-- SEND_SLOT (13 R460, R463; 06 R228): at a slot of a flow its committed parameters take effect (02 R69), and then what
they ask for goes out in the slot that has come. Without effect where no slot of the flow is due. -/
def execSendSlot (port flow : Nat) (s : State) : Host.Outcome State Fault Refusal :=
  .next (match flowNow s port flow with
    | some o =>
      if (o.kind == 1 || o.kind == 3) && !(tapPeriod s o == 0 || slotDue s port flow o) then s
      else
        let s1 := if o.kind = 1 ∨ o.kind = 3 then switchFlow port flow s else s
        match flowNow s1 port flow with
        | some x => if netLive s1 port && slotHere s1 port flow x then takeSendSlot port flow x s1 else s1
        | none => s1
    | none => s)

/-- A pgroup of 4:2:2 10-bit video: Cb, Y0, Cr, Y1 (13 R459). -/
def pgroup (cb y0 cr y1 : Nat) : List Byte :=
  beBytes 5 (cb % 1024 * 2 ^ 30 + y0 % 1024 * 2 ^ 20 + cr % 1024 * 2 ^ 10 + y1 % 1024)

/-- The pgroups of a row of a FORMAT 2 picture at an address of HBM. -/
def pgroupsAt (s : State) (base w h row first count : Nat) : List Byte :=
  let (_, pitch, cstart, _) := tapLayout 2 w h
  (List.range count).flatMap fun i =>
    let g := first + i
    let y := leNat (hbmRead s (base + row * pitch + 4 * g) 2)
    let y1 := leNat (hbmRead s (base + row * pitch + 4 * g + 2) 2)
    let c := base + cstart + row * pitch + 4 * g
    pgroup (leNat (hbmRead s c 2)) y (leNat (hbmRead s (c + 2) 2)) y1

/-- The payload of packet `k` of a frame: extended sequence number, the sample row data header, the pgroups (13 R459; RFC
4175, log 28). -/
def videoPayload (s : State) (t : TapCfg) (x : FlowCfg) (base k seqNo : Nat) : List Byte :=
  let n := linePackets t.outW x.packing
  let row := k / n
  let first := k % n * x.packing
  let count := min x.packing (t.outW / 2 - first)
  beBytes 2 (seqNo / 65536) ++ beBytes 2 (5 * count) ++ beBytes 2 row ++ beBytes 2 (2 * first) ++
    pgroupsAt s base t.outW t.outH row first count

/-- A packet whose rows are not yet written is late: counted once; that of a wide sender is due with its rows (13 R461, log
28). -/
def videoLate (p f : Nat) (x : FlowCfg) (k : Nat) (s : State) : State :=
  if x.sender = 2 ∨ (flowSt s p f).lateAt = some k then s
  else raise (528 + 8 * p + 4) (countAt p 7 1 (modFlow p f (fun y => { y with lateAt := some k }) s))

/-- After the last packet of a frame that was completed by a patch (06 R228). -/
def framePatched (p : Nat) (t : TapSlot) (s : State) : State :=
  match t.patchFrom with
  | some row => raise (528 + 8 * p + 5) (unitEvent 0x7004 0x70 p none (t.serial + 2 ^ 16 * row) s)
  | none => s

/-- The next packet of the frame in progress of a kind 1 flow; a read of its slot outside the map of HBM raises its source
(10 R390). -/
def sendVideo (p f : Nat) (x : FlowCfg) (n : Nat) (sl : TapSlot) (s : State) : State :=
  let t := sl.cfg
  let y := flowSt s p f
  let k := y.sent
  if sl.rows ≤ k / linePackets t.outW x.packing then videoLate p f x k s
  else
    let s1 := sendRtp p f x y.stopped (y.repeatTs.getD 0) (k + 1 == y.total) (videoPayload s t x (sl.base n) k y.seqNo)
      (hbmTouch (sl.base n) t.slotBytes s)
    let s2 := modFlow p f (fun z => { z with sent := k + 1, stopped := z.stopped || txShed s p }) s1
    if k + 1 = y.total then framePatched p sl s2 else s2

/-- ST2110_PACKET_SEND (13 R457, R459, R461; 06 R228): without effect where no packet of the flow is due. -/
def execSt2110PacketSend (port flow : Nat) (s : State) : Host.Outcome State Fault Refusal :=
  .next (match flowNow s port flow with
    | some x =>
      let y := flowSt s port flow
      match y.frame.bind fun n => (Tbl.find? (tapSlots s x.stream x.tap) n).map fun sl => (n, sl) with
      | some (n, sl) =>
        if netLive s port && x.kind == 1 && decide (y.sent < y.total) && packetDue s port flow x then sendVideo port flow x n sl s else s
      | none => s
    | none => s)

/-! ### Kind 2 (13 R462) -/

/-- L24 of a sample, most significant byte first (ST 2110-30, log 28). -/
def l24Bytes (v : Nat) : List Byte := beBytes 3 (v % 2 ^ 24)

/-- The sample of a channel in a word-clock frame, `i` frames before the newest, where its port received one since its word
clock last returned. -/
def tdmSample (s : State) (ch i : Nat) : Option Nat :=
  let x := s.tdm.getD (ch / 8) {}
  if x.lost then none else ((x.recent[i]?).bind fun e => e.2[ch % 8]?)

/-- The samples of the channels of an audio mask in a word-clock frame, where every channel has one: none is made up (08 R321). -/
def audioFrame (s : State) (mask i : Nat) : Option (List Nat) :=
  ((List.range 16).filter (bit mask)).mapM fun ch => tdmSample s ch i

/-- The samples of the last `n` word-clock frames, oldest first. -/
def audioFrames (s : State) (mask n : Nat) : Option (List Nat) :=
  ((List.range n).reverse.mapM fun i => audioFrame s mask i).map List.flatten

/-- RTP timestamp at 48 kHz (13 R462). -/
def rtp48 (t : Time) : Nat := timeNs t * 48 / 1000000 % 2 ^ 32

/-- The packet of a kind 2 flow for the word-clock frames that it has taken: none where a channel lacks a sample. -/
def audioPacket (a p f : Nat) (x : FlowCfg) (s : State) : State :=
  let n := audioSamples x.packing
  let s1 := modFlow p f (fun y => { y with sent := 0 }) s
  match audioFrames s x.audio n, (s.tdm.getD a {}).recent[n - 1]? with
  | some l, some e => sendRtp p f x false (rtp48 e.1) false (l.flatMap l24Bytes) s1
  | _, _ => s1

/-- The lower TDM port of an audio mask. -/
def firstPort (mask : Nat) : Nat := if mask % 256 = 0 then 1 else 0

/-- A kind 2 flow of a port takes a word-clock frame of its lower TDM port; every 48 or 6 make a packet, and before the
first its committed parameters take effect (13 R462; 02 R69). After a gap in the samples it begins a new packet. `recent` of
the TDM port holds the newest first. -/
def audioFlow (a : Nat) (gap : Bool) (p f : Nat) (s : State) : State :=
  match flowNow s p f with
  | some o =>
    if o.kind ≠ 2 ∨ firstPort o.audio ≠ a then s
    else
      let had := if gap then 0 else (flowSt s p f).sent
      let s1 := if had = 0 then switchFlow p f s else s
      match flowNow s1 p f with
      | some x =>
        if x.kind ≠ 2 ∨ !netLive s1 p ∨ firstPort x.audio ≠ a then modFlow p f (fun y => { y with sent := 0 }) s1
        else if had + 1 < audioSamples x.packing then modFlow p f (fun y => { y with sent := had + 1 }) s1
        else audioPacket a p f x s1
      | none => s1
  | none => s

/-- Every kind 2 flow takes a word-clock frame of a TDM port. -/
def audioFlows (a : Nat) (gap : Bool) (s : State) : State :=
  [0, 1].foldl (fun t p => (List.range 32).foldl (fun u f => audioFlow a gap p f u) t) s

/-! ### Kinds 4 and 5 (13 R464) -/

/-- A queue packet as an RTP payload: payload, marker, RTP timestamp. A relay packet is sent whole, and its header has no
RTP timestamp, which is an open value (log 6, log 28). -/
def queuePacketOut (s : State) (x : FlowCfg) (b : List Byte) : List Byte × Bool × Nat :=
  let marker := bit (fieldAt b 3 1) 1
  if x.kind = 4 then ((b.drop 16).take (fieldAt b 8 4), marker, fieldAt b 4 4) else (b, marker, draw s (2 ^ 32 - 1))

/-- The oldest packet of a flow's queue leaves; the consumer frees it later (11 R393). -/
def sendQueued (p f : Nat) (x : FlowCfg) (b : List Byte) (s : State) : State :=
  let o := queuePacketOut s x b
  bump (sendRtp p f x false o.2.2 o.2.1 o.1 (modQueue x.queue (fun q => { q with reading := true }) s))

/-- QUEUE_FLOW_SEND (13 R464): a flow of a shed port does not read its queue (13 R469). -/
def execQueueFlowSend (port flow : Nat) (s : State) : Host.Outcome State Fault Refusal :=
  .next (
    let fromQueue := fun (x : FlowCfg) => x.kind == 4 || x.kind == 5
    let s1 := if (flowNow s port flow).any fromQueue then switchFlow port flow s else s
    match flowNow s1 port flow with
    | some x =>
      match (queue s1 x.queue).packets with
      | b :: _ =>
        if netLive s1 port && fromQueue x && !txShed s1 port && !(queue s1 x.queue).reading &&
            consumesFrom s1 x.queue 0x70 port then sendQueued port flow x b s1 else s1
      | [] => s1
    | none => s1)

/-! ## Receiving (13 R465-R467) -/

/-- Whether a packet matches a path of a flow (13 R465). -/
def pathMatches (x : FlowCfg) (i : Nat) (p : RxPacket) : Bool :=
  let d := x.dst.getD i (0, 0, 0)
  decide (i < x.paths) && p.dstIp == d.1 && p.dstPort == d.2.2 && (d.2.1 == 0 || d.2.1 == p.srcIp)

/-- The flow that takes a packet of a port's sub-port: port of path 0, flow, path. -/
def flowFor (s : State) (port : Nat) (p : RxPacket) : Option (Nat × Nat × Nat) :=
  ((List.range 32).flatMap fun f => [(port, f, 0), (1 - port, f, 1)]).find? fun e =>
    match flowNow s e.1 e.2.1 with
    | some x => decide (9 ≤ x.kind) && flowSub s port x.subport == p.sub && pathMatches x e.2.2 p
    | none => false

/-- A path changes state (13 R467, R471). -/
def pathChange (port home f i : Nat) (lost : Bool) (s : State) : State :=
  raise (528 + 8 * port + 2) (unitEvent 0x7002 0x70 port none (port + 2 ^ 8 * f + 2 ^ 16 * b2n (!lost))
    (modFlow home f (fun y => { y with lost := y.lost.set i lost }) s))

/-- Address of ring slot `n` of a receive flow. -/
def rxAddr (x : FlowCfg) (n : Nat) : Nat := x.ringBase + n % max x.ringSlots 1 * x.slotBytes

/-- The difference of two sequence numbers as a signed 16-bit number. -/
def seqDiff (a b : Nat) : Int := signed 16 ((a % 65536 + 65536 - b % 65536) % 65536)

/-- Packets missing between the first and the last of a slot by sequence number (13 R466, log 29). -/
def missingOf (l : List Nat) : Nat :=
  match l with
  | [] => 0
  | q :: _ =>
    let d := l.map fun v => seqDiff v q
    ((d.foldl max 0 - d.foldl min 0 + 1) - l.length).toNat

/-- The header of a slot (13 R466). -/
def rxHeader (r : RxSlot) (missing : Nat) : List Byte :=
  leBytes 4 r.ts ++ timeBytes r.first ++ leBytes 4 r.written ++ leBytes 4 missing ++ leBytes 4 r.late ++ leBytes 1 r.paths

/-- Closes the oldest open slot of a flow: its header, WRITE, the event (13 R466). -/
def closeSlot (p f : Nat) (x : FlowCfg) (s : State) : State :=
  let y := flowSt s p f
  match y.slots with
  | [] => s
  | r :: l =>
    let m := missingOf r.seqs
    let key := (r.ts, r.seqs.headD 0, r.paths / 2)
    let n := y.wr % max x.ringSlots 1
    let s1 := hbmWrite (rxAddr x y.wr) (rxHeader r m) s
    let s2 := modFlow p f (fun z => { z with slots := l, wr := (z.wr + 1) % 65536
                                             closed := (key :: z.closed).take 256 }) s1
    raise (528 + 8 * p + 3) (unitEvent 0x7003 0x70 p none (n + 2 ^ 8 * f + 2 ^ 32 * m) s2)

/-- Closes the oldest `n` open slots. -/
def closeSlots (p f : Nat) (x : FlowCfg) : Nat → State → State
  | 0, s => s
  | n + 1, s => closeSlots p f x n (closeSlot p f x s)

/-- Video of a packet of a kind 9 flow into its slot, in FORMAT 2 layout (13 R465). -/
def rxVideo (x : FlowCfg) (base : Nat) (p : RxPacket) (s : State) : State :=
  let (_, pitch, cstart, _) := tapLayout 2 x.width x.height
  (List.range (p.data.length / 5)).foldl (fun t i =>
    let v := leNat ((p.data.drop (5 * i)).take 5).reverse
    let col := p.col + 2 * i
    if x.height ≤ p.row ∨ x.width < col + 2 then t
    else
      let l := p.row * pitch + 2 * col
      let y := leBytes 2 (v / 2 ^ 20 % 1024) ++ leBytes 2 (v % 1024)
      let c := leBytes 2 (v / 2 ^ 30 % 1024) ++ leBytes 2 (v / 2 ^ 10 % 1024)
      if x.slotBytes < 4096 + cstart + l + 4 then t
      else hbmWrite (base + cstart + l) c (hbmWrite (base + l) y t)) s

/-- Whether a packet finds its slot closed: for kind 9 one of its RTP timestamp; for the one-packet slots of kinds 10 and 11
that of the same packet from the other path of a flow with PATHS 2 (13 R465, R466). -/
def foundClosed (x : FlowCfg) (i : Nat) (k : RxPacket) (e : Nat × Nat × Nat) : Bool :=
  e.1 == k.rtpTs && (x.kind == 9 || (x.paths == 2 && e.2.1 == k.seqNo && e.2.2 == 1 - i))

/-- A packet that comes after its slot has closed: counted late, in the slot's header too while the slot is not freed; for the
one-packet slots of kinds 10 and 11 it is the duplicate of the other path (13 R465, R466). -/
def rxAfterClose (port p f i : Nat) (x : FlowCfg) (k : RxPacket) (s : State) : State :=
  let y := flowSt s p f
  let back := y.closed.findIdx (foundClosed x i k)
  if x.kind ≠ 9 then countAt port 11 1 s
  else
    let n := (y.wr + 65535 - back) % 65536
    let a := rxAddr x n + 22
    let late := min (leNat (hbmRead s a 4) + 1) 0xFFFFFFFF
    countAt port 10 1 (if back < used (BitVec.ofNat 16 y.wr) (BitVec.ofNat 16 y.rd) then hbmWrite a (leBytes 4 late) s else s)

/-- A slot with a packet in it. -/
def rxAdd (i : Nat) (k : RxPacket) (r : RxSlot) : RxSlot :=
  { r with written := r.written + 1, paths := r.paths ||| 2 ^ i, seqs := r.seqs ++ [k.seqNo], marker := r.marker || k.marker }

/-- A packet of an open slot of a kind 9 flow; a marker closes the earlier slots of a flow with PATHS 1 (13 R466). -/
def rxInSlot (port p f i : Nat) (x : FlowCfg) (k : RxPacket) (j : Nat) (s : State) : State :=
  let y := flowSt s p f
  let r := y.slots.getD j { ts := 0, first := ⟨0, 0⟩ }
  if r.seqs.contains k.seqNo then
    countAt port 11 1 (modFlow p f (fun z => { z with slots := z.slots.modify j fun q => { q with paths := q.paths ||| 2 ^ i } }) s)
  else
    let s1 := rxVideo x (rxAddr x (y.wr + j) + 4096) k
      (modFlow p f (fun z => { z with slots := z.slots.modify j (rxAdd i k) }) s)
    if k.marker && x.paths == 1 then closeSlots p f x j s1 else s1

/-- The time that a received packet is stamped with (01 R31). -/
def rxStamp (port : Nat) (k : RxPacket) (s : State) : Time := stampTime s (40 + port) k.seqNo

/-- A packet of a kind 10 or 11 flow: its slot is published at once, with the packet after the header (log 29). -/
def rxSingle (port p f i : Nat) (x : FlowCfg) (k : RxPacket) (s : State) : State :=
  let y := flowSt s p f
  let r := rxAdd i k { ts := k.rtpTs, first := rxStamp port k s }
  let s1 := hbmWrite (rxAddr x y.wr + 27) (k.data.take (x.slotBytes - 27)) s
  closeSlot p f x (modFlow p f (fun z => { z with slots := z.slots ++ [r] }) s1)

/-- A packet of a new frame: it opens a slot, or the frame is dropped where none is free (13 R466). -/
def rxNew (port p f i : Nat) (x : FlowCfg) (k : RxPacket) (s : State) : State :=
  let y := flowSt s p f
  if x.ringSlots ≤ used (BitVec.ofNat 16 y.wr) (BitVec.ofNat 16 y.rd) + y.slots.length then
    if y.dropped = some k.rtpTs then s
    else countAt port 12 1 (modFlow p f (fun z => { z with dropped := some k.rtpTs }) s)
  else if x.kind ≠ 9 then rxSingle port p f i x k s
  else rxInSlot port p f i x k y.slots.length
    (modFlow p f (fun z => { z with slots := z.slots ++ [{ ts := k.rtpTs, first := rxStamp port k s }] }) s)

/-- A packet that a flow takes (13 R465-R467; 10 R384). -/
def rxTake (port p f i : Nat) (x : FlowCfg) (k : RxPacket) (s : State) : State :=
  let s1 := if (flowSt s p f).lost.getD i false then pathChange port p f i false s else s
  let y := flowSt s1 p f
  if rxShed s1 p then raise (528 + 8 * p + 6) (countAt port 14 1 s1)
  else if y.closed.any (foundClosed x i k) then rxAfterClose port p f i x k s1
  else
    let j := y.slots.findIdx (·.ts == k.rtpTs)
    if j < y.slots.length then rxInSlot port p f i x k j s1 else rxNew port p f i x k s1

/-- Whether a received packet is no longer than the MTU of its port lets it be; kind 9 has its sample row data header in front of
its data (13 R441). -/
def rxFits (s : State) (port : Nat) (x : FlowCfg) (p : RxPacket) : Bool :=
  decide (40 + (if x.kind = 9 then 8 else 0) + p.data.length ≤ portMtu s.cfg.active port)

/-- RX_PACKET (13 R465) at a sub-port whose link is up: a flow of a port in its safe state writes nothing, nor does one that
it comes to on such a port (13 R470). -/
def execRxPacket (port : Nat) (p : RxPacket) (s : State) : Host.Outcome State Fault Refusal :=
  .next (if !(enginesClocked s && hasSub s port p.sub && linkIsUp s port p.sub) then s
    else
      let s1 := countAt port 0 1 s
      match flowFor s1 port p with
      | some (q, f, i) =>
        match flowNow s1 q f with
        | some x =>
          if !rxFits s1 port x p then countAt port 5 1 s1
          else if netLive s1 q && netLive s1 port then rxTake port q f i x p s1 else s1
        | none => s1
      | none => countAt port 5 1 s1)

/-- RX_SLOT_CLOSE (13 R466): SKEW_MS after the first arrival of a frame's marker its slot closes, and with it any opened
before it. -/
def execRxSlotClose (port flow : Nat) (s : State) : Host.Outcome State Fault Refusal :=
  .next (match flowNow s port flow with
    | some x =>
      let l := (flowSt s port flow).slots
      let j := l.findIdx (·.marker)
      if netLive s port && x.kind == 9 && x.paths == 2 && decide (j < l.length) then closeSlots port flow x (j + 1) s else s
    | none => s)

/-- PATH_LOST (13 R467): a path of a receive flow with PATHS 2 has delivered nothing for 100 ms. -/
def execPathLost (port flow path : Nat) (s : State) : Host.Outcome State Fault Refusal :=
  .next (match flowNow s port flow with
    | some x =>
      if enginesClocked s && decide (9 ≤ x.kind) && x.paths == 2 && decide (path < 2) &&
          !(flowSt s port flow).lost.getD path true then
        pathChange (pathPort port path) port flow path true s
      else s
    | none => s)

end Sys2Proof.Machine
end

