-- ==== Sys2Proof/Machine/Record.lean ====
section
/-! DEFINITION. The recorder and audio (08 R301-R324): extents, chunks, NVMe writes, the commands of classes REC and AUD, and
the TDM ports. -/

namespace Sys2Proof.Machine

/-! ## SSDs and extents (08 R301-R304) -/

/-- An SSD. -/
def ssd (s : State) (d : Nat) : Ssd := s.recorder.ssds.getD d {}

/-- Changes an SSD. -/
def modSsd (d : Nat) (g : Ssd → Ssd) (s : State) : State := modRec (fun x => { x with ssds := x.ssds.modify d g }) s

/-- Bytes of an extent. -/
def extBytes (x : Ssd) (e : Extent) : Nat := e.count * x.lbaBytes

/-- Bytes of all extents of an SSD. -/
def extTotal (x : Ssd) : Nat := (x.extents.map (extBytes x)).sum

/-- The extents from a byte position on, each with the bytes already passed in it. -/
def extFrom (x : Ssd) : List Extent → Nat → List (Extent × Nat)
  | [], _ => []
  | e :: l, pos => if pos < extBytes x e then (e, pos) :: l.map (·, 0) else extFrom x l (pos - extBytes x e)

/-- Bytes from a position to the end of the extents with the same FILE_TAG (08 R303). -/
def tagRun (x : Ssd) (pos : Nat) : Nat :=
  match extFrom x x.extents pos with
  | [] => 0
  | (e, k) :: l => ((((e, k) :: l).takeWhile (·.1.tag == e.tag)).map fun q => extBytes x q.1 - q.2).sum

/-- The LBA of a byte position, with its namespace. -/
def lbaAt (x : Ssd) (pos : Nat) : Nat × Nat :=
  match extFrom x x.extents pos with
  | [] => (0, 0)
  | (e, k) :: _ => (e.nsid, e.lba + k / x.lbaBytes)

/-- The SSDs of a STRIPE setting. -/
def ssdsOf (stripe : Nat) : List Nat := if stripe = 2 then [0, 1] else [stripe]

/-- A mebibyte. -/
def mib : Nat := 1048576

/-- Bytes of the first `n` bytes of a chunk that an SSD holds (08 R304). -/
def chunkShare (stripe d n : Nat) : Nat :=
  if stripe = 2 then n / (2 * mib) * mib + (if d = 0 then min mib (n % (2 * mib)) else n % (2 * mib) - mib) else n

/-- Bytes of a chunk that fit where an SSD has `a` bytes left. -/
def chunkLimit (stripe d a : Nat) : Nat :=
  if stripe = 2 then a / mib * (2 * mib) + a % mib + (if d = 0 then 0 else mib) else a

/-- Bytes that the open chunk may take: CHUNK_MIB, or the rest of the extents of its FILE_TAG (08 R303). -/
def chunkCap (s : State) : Nat :=
  (ssdsOf s.recorder.stripe).foldl (fun a d => min a (chunkLimit s.recorder.stripe d (tagRun (ssd s d) (ssd s d).base)))
    (s.recorder.chunkMib * mib)

/-- Bytes of extents queued for an SSD and unused. -/
def unusedBytes (s : State) (d : Nat) : Nat :=
  let x := ssd s d
  extTotal x - if s.recorder.chunkOpen && (ssdsOf s.recorder.stripe).contains d then
    x.base + chunkShare s.recorder.stripe d (4096 + s.recorder.body.length) else x.pos

/-- End of the bytes of an SSD's extents that are used or in use: the open chunk holds the place of its header, its records and
its index, and at least the extent it starts in (08 R302). -/
def usedTo (s : State) (d : Nat) : Nat :=
  let x := ssd s d
  if s.recorder.chunkOpen && (ssdsOf s.recorder.stripe).contains d then
    x.base + max 1 (chunkShare s.recorder.stripe d
      (alignUp (4096 + s.recorder.body.length + 32 * s.recorder.index.length) 4096))
  else x.pos

/-- The extents of an SSD that are used or in use. -/
def touched (s : State) (d : Nat) : List Extent :=
  let x := ssd s d
  (x.extents.zipIdx.filter fun e => decide (((x.extents.take e.2).map (extBytes x)).sum < usedTo s d)).map (·.1)

/-- Raises `EV_REC_EXTENTS_LOW` when the unused extents of an SSD fall below 4 × CHUNK_MIB (08 R311). -/
def judgeLow (s : State) : State :=
  (ssdsOf s.recorder.stripe).foldl (fun t d =>
    let low := t.recorder.state != 0 && decide (unusedBytes t d < 4 * t.recorder.chunkMib * mib)
    let t1 := modSsd d (fun x => { x with lowTold := low }) t
    if low && !(ssd t d).lowTold then
      raise (297 + d) (unitEvent 0x3102 0x31 0 none (d + 2 ^ 16 * (unusedBytes t d / mib % 2 ^ 32)) t1) else t1) s

/-! ## Writes (08 R310, R312, R317) -/

/-- The command of I/O pair 1 that a recording Write or Flush is. -/
def writeOut (w : NvmeWrite) : Out := if w.flush then .nvmeFlush w.ssd else .nvme w.ssd w.nsid w.lba w.fua w.data

/-- The Admin commands that bring an SSD up: Identify of the controller, of the active namespaces and of each of them, the number of
queues, and the two I/O pairs (08 R301, log 36). -/
def attachCommands (x : Ssd) : List NvmeAdmin :=
  [.identify 1 0, .identify 2 0] ++ x.spaces.map (fun e => .identify 0 e.1) ++
    [.setFeatures 7 0x10001, .createQueue 1 256 true, .createQueue 1 256 false, .createQueue 2 64 true, .createQueue 2 64 false]

/-- The Admin commands that delete the I/O pairs. -/
def detachCommands : List NvmeAdmin := [.deleteQueue 1 false, .deleteQueue 1 true, .deleteQueue 2 false, .deleteQueue 2 true]

/-- Sends Admin commands to an SSD. -/
def sendAdmin (d : Nat) (l : List NvmeAdmin) (s : State) : State := l.foldl (fun t a => emit (.nvmeAdmin d a) t) s

/-- An SSD is brought up before the first command to it. DESIGN CHOICE: the spec does not say when (log 36). -/
def attachSsd (d : Nat) (s : State) : State :=
  if (ssd s d).attached then s
  else modSsd d (fun x => { x with attached := true })
    (sendAdmin d (attachCommands (ssd s d)) (lanesTurn true ((List.range 4).map (56 + 4 * d + ·)) s))

/-- The I/O queues of the SSDs are deleted as the device stops (log 36). -/
def detachSsds (s : State) : State :=
  (List.range s.recorder.ssds.length).foldl (fun t d =>
    if (ssd t d).attached then modSsd d (fun x => { x with attached := false }) (sendAdmin d detachCommands t) else t) s

/-- Sends a recording Write or Flush, where fewer than 256 of its SSD are outstanding (08 R301). -/
def pushWrite (w : NvmeWrite) (s : State) : State :=
  let n := (s.recorder.writes.filter (·.ssd == w.ssd)).length
  let s1 := modRec (fun x => { x with writes := x.writes ++ [w] }) (attachSsd w.ssd s)
  if n < 256 then emit (writeOut w) s1 else s1

/-- The write of bytes at an offset of the open chunk. -/
def chunkWrite (s : State) (off : Nat) (fua : Bool) (data : List Byte) : NvmeWrite :=
  let j := off / mib
  let d := if s.recorder.stripe = 2 then j % 2 else s.recorder.stripe
  let x := ssd s d
  let (nsid, lba) := lbaAt x (x.base + if s.recorder.stripe = 2 then j / 2 * mib + off % mib else off)
  { ssd := d, nsid := nsid, lba := lba, fua := fua, data := data, chunk := s.recorder.chunkNo, off := off }

/-- A 4,096-byte data unit, encrypted where the chunk has a key (08 R317). -/
def cipher (s : State) (off : Nat) (data : List Byte) : List Byte :=
  match Tbl.find? s.recorder.keys s.recorder.keySlot with
  | some (_, key) => aesXts key (s.recorder.tag * 2 ^ 64 + s.recorder.chunkNo * 2 ^ 18 + off / 4096) data
  | none => data

/-- The bytes of the chunk from one offset to another, as they go to the media. -/
def mediaBytes (s : State) (a b : Nat) : List Byte :=
  (List.range ((b - a) / 4096)).flatMap fun k =>
    cipher s (a + 4096 * k) ((s.recorder.body.drop (a + 4096 * k - 4096)).take 4096)

/-- Sends the chunk up to an offset, in writes that end at 128 KiB boundaries of the chunk (log 35). -/
def sendTo (limit : Nat) (s : State) : State :=
  (List.range (cdiv limit 131072 - s.recorder.sent / 131072)).foldl (fun t k =>
    let a := t.recorder.sent
    let b := min limit ((s.recorder.sent / 131072 + k + 1) * 131072)
    if b ≤ a then t else modRec (fun x => { x with sent := b }) (pushWrite (chunkWrite t a false (mediaBytes t a b)) t)) s

/-- Sends every whole 128 KiB of the chunk. -/
def sendWhole (s : State) : State := sendTo ((4096 + s.recorder.body.length) / 131072 * 131072) s

/-! ## Chunks (08 R303-R310) -/

/-- FILE_TAG of the open chunk's extents: SSD0's when striped. -/
def fileTagAt (x : Ssd) (pos : Nat) : Nat := ((extFrom x x.extents pos).head?.map (·.1.tag)).getD 0

/-- An entry of the index (08 R308). -/
def indexBytes (e : IndexEntry) : List Byte :=
  leBytes 2 e.serial ++ leBytes 2 e.verdict ++ leBytes 1 e.stream ++ leBytes 1 e.flags ++ leBytes 2 0 ++ leBytes 4 e.off ++
    leBytes 4 e.len ++ leBytes 4 e.metaOff ++ timeBytes e.time ++ leBytes 2 0

/-- A chunk header (08 R305). -/
def chunkHeader (s : State) (closed : Bool) (bytes indexOff : Nat) : List Byte :=
  let x := s.recorder
  let idx := x.index.flatMap indexBytes
  let b := leBytes 8 0x4B4E484336315854 ++ leBytes 1 1 ++ leBytes 1 (b2n closed) ++ leBytes 1 x.stripe ++ leBytes 1 x.keySlot ++
    leBytes 4 x.tag ++ leBytes 4 x.chunkNo ++ leBytes 4 x.fileTag ++
    leBytes 8 (((Tbl.find? x.keys x.keySlot).map (·.1)).getD 0) ++ leBytes 8 bytes ++ leBytes 8 indexOff ++
    leBytes 4 (if closed then x.index.length else 0) ++ leBytes 2 x.chunkMib ++ leBytes 1 s.sys.device ++ leBytes 1 0 ++
    timeBytes x.openTime ++ leBytes 2 0 ++ leBytes 4 (if closed then crc32 idx else 0) ++ leBytes 4016 0
  b ++ leBytes 8 (crc64 b)

/-- Whether a chunk may open: each of its SSDs has unused extents, with room for a header, a record and an index (08 R311). -/
def chunkRoom (s : State) : Bool :=
  ((ssdsOf s.recorder.stripe).all fun d => tagRun (ssd s d) (ssd s d).base != 0) && decide (12288 ≤ chunkCap s)

/-- Positions of a new chunk: the next 128 KiB boundary, past the rest of a FILE_TAG that is too small (log 35). -/
def placeChunk (s : State) : State :=
  (ssdsOf s.recorder.stripe).foldl (fun t d => modSsd d (fun x =>
    let a := alignUp x.pos 131072
    let b := if tagRun x a < 131072 then a + tagRun x a else a
    { x with pos := b, base := b }) t) s

/-- Completes `REC.START` when the first chunk opens (08 R314). -/
def answerStart (first count : Nat) (s : State) : State :=
  match s.recorder.startCmd.bind (findCmd s) with
  | some c => complete c (okReply (first + 2 ^ 16 * count) 0) (modRec (fun x => { x with startCmd := none }) s)
  | none => s

/-- Media full: the recorder waits (08 R311). -/
def mediaFull (s : State) : State :=
  let d := ((ssdsOf s.recorder.stripe).find? fun d => unusedBytes s d == 0).getD ((ssdsOf s.recorder.stripe).headD 0)
  raise 299 (unitEvent 0x3103 0x31 0 none d (modRec (fun x => { x with state := 2 }) s))

/-- Opens a chunk (08 R305, R310), or waits for media. -/
def openChunk (s : State) : State :=
  let s1 := placeChunk s
  if !chunkRoom s1 then mediaFull s
  else
    let d := (ssdsOf s.recorder.stripe).headD 0
    let s2 := modRec (fun x =>
      { x with
        chunkOpen := true, chunkNo := (x.chunkNo + 1) % 2 ^ 32, body := [], sent := 4096, index := [], openTime := now s1
        fileTag := fileTagAt (ssd s1 d) (ssd s1 d).base }) s1
    pushWrite (chunkWrite s2 0 false (chunkHeader s2 false 0 0)) s2

/-- Whether a record of `n` bytes fits in the open chunk, with `m` further index entries. -/
def fitsChunk (s : State) (n m : Nat) : Bool :=
  decide (alignUp (4096 + s.recorder.body.length + n + 32 * (s.recorder.index.length + m)) 4096 ≤ chunkCap s)

/-- Adds bytes to the open chunk. -/
def putBytes (bs : List Byte) (s : State) : State := sendWhole (modRec (fun x => { x with body := x.body ++ bs }) s)

/-- Adds an index entry. -/
def putIndex (e : IndexEntry) (s : State) : State := modRec (fun x => { x with index := x.index ++ [e] }) s

/-- The chunk is to close for a reason; for lack of space a pad record fills what is left (08 R307, R310). -/
def beginClose (reason : Nat) (s : State) : State :=
  let free := chunkCap s / 4096 * 4096 - (4096 + s.recorder.body.length + 32 * s.recorder.index.length)
  let pad := free / 64 * 64
  let s1 := if reason ≤ 1 ∧ 64 ≤ pad then
      putBytes (recordHeader 0 0 0 pad 0 ++ leBytes (pad - 16) 0) s else s
  modRec (fun x => { x with closing := some reason }) s1

/-- Reason of a chunk that is full: 0 at CHUNK_MIB, 1 at the end of its FILE_TAG. -/
def fullReason (s : State) : Nat := if chunkCap s = s.recorder.chunkMib * mib then 0 else 1

/-! ## Audio records (08 R320, R321) -/

/-- Ports of an audio mask. -/
def audioPorts (mask : Nat) : List Nat := (if mask % 256 = 0 then [] else [0]) ++ if mask / 256 = 0 then [] else [1]

/-- Sample frames that every port of a run has (log 35). -/
def segCount (g : AudioSeg) : Nat :=
  match (audioPorts g.chans).map fun a => (g.frames.getD a []).length with
  | [] => 0
  | n :: l => l.foldl min n

/-- A run without its first sample frames. -/
def dropSeg (n : Nat) (g : AudioSeg) : AudioSeg := { g with frames := g.frames.map (·.drop n) }

/-- The runs that a run leaves when it ends: the sample frames of all its ports, then those that one port had more. -/
def endSeg (g : AudioSeg) : List AudioSeg :=
  let n := segCount g
  let alone (a : Nat) : AudioSeg :=
    { g with chans := g.chans / 256 ^ a % 256 * 256 ^ a
             frames := (List.range 2).map fun b => if b = a then (g.frames.getD a []).drop n else [] }
  ({ g with frames := g.frames.map (·.take n) } :: (List.range 2).map alone).filter fun x => segCount x != 0

/-- Samples of frame `k` of a run, in ascending order of its channels. -/
def recAudioFrame (g : AudioSeg) (k : Nat) : List Byte :=
  ((List.range 16).filter (bit g.chans)).flatMap fun ch =>
    leBytes 3 ((((g.frames.getD (ch / 8) [])[k]?.map (·.2)).getD []).getD (ch % 8) 0)

/-- An audio record of the sample frames of a run. DESIGN CHOICE (log 35): CHANNEL_MASK names the channels of AUDIO_MASK that
give samples, all of it without samples. A record without samples has an open TIME (log 6). -/
def audioRecord (s : State) (serial stream_ : Nat) (g : AudioSeg) : List Byte :=
  let n := segCount g
  let a := (audioPorts g.chans).headD 0
  let time := ((g.frames.getD a []).head?.map (·.1)).getD (toTime (draw s (timeRange - 1)))
  let data := (List.range n).flatMap (recAudioFrame g)
  let len := alignUp (64 + data.length) 64
  recordHeader 3 0 serial len stream_ ++ timeBytes time ++ leBytes 2 (if n = 0 then s.recorder.audioMask else g.chans) ++
    leBytes 4 n ++ leBytes 1 g.rate ++ leBytes 31 0 ++ data ++ leBytes (len - 64 - data.length) 0

/-- RATE of the lowest port that AUDIO_MASK names, as `AUD.CONFIGURE` has it. -/
def maskRate (s : State) : Nat :=
  fieldAt ((activeBlk s 0x3201 ((audioPorts s.recorder.audioMask).headD 0) 0).getD []) 1 1

/-- The audio of a frame, where AUDIO_MASK is not 0: one record of the samples received, and one for each run before it. -/
def takeAudio (e : RingEntry) (s : State) : List Byte × State :=
  let x := s.recorder
  if x.audioMask = 0 then ([], s)
  else
    let last := x.audio.getLast?.getD { rate := maskRate s }
    let segs := x.audio.dropLast ++ if segCount last = 0 ∧ x.audio.dropLast ≠ [] then [] else [last]
    (segs.flatMap (audioRecord s e.serial e.stream),
      bump (modRec (fun y => { y with audio := if y.audio = [] then [] else [dropSeg (segCount last) last] }) s))

/-! ## Recording a frame (08 R306-R309) -/

/-- A record with another FLAGS and LENGTH. -/
def relabel (flags len : Nat) (r : List Byte) : List Byte :=
  r.take 5 ++ leBytes 1 flags ++ (r.drop 6).take 2 ++ leBytes 4 len ++ r.drop 12

/-- Index FLAGS of an entry: payload, SPLIT, and taken from pre-roll. -/
def indexFlags (s : State) (e : RingEntry) (payload split : Bool) : Nat :=
  b2n payload + 2 * b2n split + 8 * b2n (decide (e.no < s.recorder.firstNo))

/-- The index entry of a frame or of a part of it. -/
def frameIndex (s : State) (e : RingEntry) (payload split : Bool) (off len metaOff : Nat) : IndexEntry :=
  { serial := e.serial, verdict := e.verdict, stream := e.stream, flags := indexFlags s e payload split, off := off, len := len
    metaOff := metaOff, time := e.time }

/-- A continuation record: its data starts at 0x40 (08 R307, log 35). -/
def continuation (e : RingEntry) (rest : List Byte) : List Byte :=
  recordHeader 5 0 e.serial (64 + rest.length) e.stream ++ leBytes 48 0 ++ rest

/-- Writes the metadata and audio records of a frame after its record; where they do not fit they open the next chunk. -/
def writeMeta (e : RingEntry) (off len : Nat) (s : State) : State :=
  let m := metaChunk e ++ e.audio
  if fitsChunk s m.length 1 then
    putIndex (frameIndex s e true false off len (4096 + s.recorder.body.length)) (putBytes m s)
  else
    let s1 := putIndex (frameIndex s e true true off len 0) s
    beginClose (fullReason s1) (modRec (fun x => { x with carry := some (e, []) }) s1)

/-- Writes a frame's record, or what is left of it: what does not fit is cut at a 64-byte boundary (08 R307). -/
def writeFrame (e : RingEntry) (r : List Byte) (s : State) : State :=
  let off := 4096 + s.recorder.body.length
  if r = [] then writeMeta e 0 0 s
  else if fitsChunk s r.length 1 then writeMeta e off r.length (putBytes r s)
  else
    let k := (chunkCap s / 4096 * 4096 - (off + 32 * (s.recorder.index.length + 1))) / 64 * 64
    if k = 0 then beginClose (fullReason s) (modRec (fun x => { x with carry := some (e, r) }) s)
    else
      let s1 := putIndex (frameIndex s e true true off k 0) (putBytes (relabel 1 k (r.take k)) s)
      beginClose (fullReason s1) (modRec (fun x => { x with carry := some (e, continuation e (r.drop k)) }) s1)

/-- A gap record and its index entry; the entry's TIME is open (08 R308, R309; log 6). -/
def writeGap (first count reason stream_ : Nat) (s : State) : State :=
  let off := 4096 + s.recorder.body.length
  let b := recordHeader 4 0 first 64 stream_ ++ leBytes 2 first ++ leBytes 2 count ++ leBytes 1 reason ++ leBytes 43 0
  bump (putIndex { serial := first, verdict := 0, stream := stream_, flags := 4, off := off, len := count, metaOff := 0
                   time := toTime (draw s (timeRange - 1)) } (putBytes b s))

/-- Lists the audio of a frame in its ring entry, so that a relay sends it too. -/
def keepAudio (z : Nat) (e : RingEntry) (s : State) : State :=
  modGroup z (fun g => { g with entries := g.entries.map fun x => if x.no = e.no then e else x }) s

/-- The recorder has taken an entry of a group. -/
def taken (z : Nat) (e : RingEntry) (s : State) : State :=
  modGroup z (fun g => { g with recNext := e.no + 1, recLast := some e.serial }) s

/-- Records an entry of a group (06 R217, R218, 08 R306). -/
def recordEntry (z : Nat) (e : RingEntry) (s : State) : State :=
  if !e.payload then
    if fitsChunk s 0 1 then taken z e (putIndex (frameIndex s e false false 0 0 0) s) else beginClose (fullReason s) s
  else
    let (audio, s1) := takeAudio e s
    let e1 := { e with audio := audio }
    writeFrame e1 e1.record (keepAudio z e1 (taken z e1 s1))

/-! ## What has been recorded (08 R315, R316, R324) -/

/-- Serial of the last frame that an index names: of the open chunk, else of the chunks before it. -/
def lastRecorded (x : Rec) : Nat :=
  ((x.index.filter fun e => !bit e.flags 2).getLast?.map (·.serial)).getD x.lastSerial

/-- Frames recorded whole. -/
def framesRecorded (x : Rec) : Nat := x.frames + (x.index.filter fun e => bit e.flags 0 && !bit e.flags 1).length

/-- The open chunk ends after a number of bytes: its place in the extents is used, and its index is counted. -/
def leaveChunk (total : Nat) (s : State) : State :=
  modRec (fun x => { x with
      lastSerial := lastRecorded x, frames := framesRecorded x, chunkOpen := false, closing := none, closePhase := 0
      body := [], index := [] })
    ((ssdsOf s.recorder.stripe).foldl (fun t d => modSsd d (fun y =>
      { y with pos := y.base + chunkShare s.recorder.stripe d total }) t) s)

/-! ## Draining the rings -/

/-- The first published of some entries. -/
def firstPublished (l : List (Nat × RingEntry)) : Option (Nat × RingEntry) :=
  l.foldl (fun m e => match m with
    | none => some e
    | some b => if e.2.no < b.2.no then some e else some b) none

/-- The next entry that the recorder takes, by order of publication, with its group. -/
def nextEntry (s : State) : Option (Nat × RingEntry) :=
  firstPublished ((zipChannels s.recorder.zmask).filterMap fun z =>
    ((group s z).entries.find? fun e => decide ((group s z).recNext ≤ e.no)).map (z, ·))

/-- Whether an entry lies after the frame at which the recording is to stop (08 'REC.STOP'). -/
def pastStop (s : State) (z : Nat) (e : RingEntry) : Bool :=
  match s.recorder.stopAt with
  | some f => (zipChannels s.recorder.zmask).head? == some z && later e.serial f
  | none => false

/-- Whether an entry lies after the last FS time that a thermal stop records (08 R323). -/
def pastCutoff (s : State) (e : RingEntry) : Bool :=
  match s.recorder.cutoff with
  | some t => decide (timeNs t < timeNs e.time)
  | none => false

/-- The recorder is idle: its stop commands complete and its owner is told (08 R315, R324). A `REC.START` whose first chunk
never opened completes too, with a status that the spec does not give (log 6). -/
def finishStop (reason : Nat) (s : State) : State :=
  let x := s.recorder
  let s1 := raise 303 (unitEvent 0x3106 0x31 0 none (lastRecorded x + 2 ^ 16 * reason)
    (modRec (fun y => { y with
      state := 0, begun := false, stopCmds := [], startCmd := none, stopAt := none, cutoff := none, thermal := false
      carry := none, audio := [] }) s))
  let s2 := (x.stopCmds.filterMap (findCmd s1)).foldl (fun t c =>
    complete c (okReply (lastRecorded x + 2 ^ 32 * (framesRecorded x % 2 ^ 32)) x.bytes) t) s1
  match x.startCmd.bind (findCmd s2) with
  | some c => bump (complete c { status := draw s2 65535 } s2)
  | none => s2

/-- Ends the recording for a reason; a recorder that waits for media has nothing open and is idle at once. -/
def stopFor (reason : Nat) (s : State) : State :=
  if s.recorder.state = 2 then finishStop reason s else modRec (fun x => { x with state := 3, stopReason := reason }) s

/-- Writes the gap record of the frames that a group lost first (08 R297, R309). -/
def noteLost (z : Nat) (s : State) : State :=
  match (group s z).lost with
  | (f, n, reason) :: rest =>
    if fitsChunk s 64 1 then
      writeGap f n reason (fieldAt (zipBlk s.cfg.active z) 4 2) (modGroup z (fun g => { g with lost := rest }) s)
    else beginClose (fullReason s) s
  | [] => s

/-- The first group of the recording with lost frames to note. -/
def lostGroup (s : State) : Option Nat := (zipChannels s.recorder.zmask).find? fun z => (group s z).lost != []

/-- Opens a further chunk for what a stop still writes; without media the recording ends there. -/
def openToStop (s : State) : State :=
  let s1 := openChunk s
  if s1.recorder.chunkOpen then s1 else finishStop s.recorder.stopReason s1

/-- One step of a recorder that stops (08 'REC.STOP', R297, R310): it completes the frame being written, notes what was lost,
closes its chunk, and is idle. After a media error nothing more is written (08 R312). -/
def stopStep (s : State) : State :=
  let x := s.recorder
  if x.stopReason = 5 ∧ !x.chunkOpen then finishStop 5 s
  else match x.carry with
    | some (e, r) => if x.chunkOpen then writeFrame e r (modRec (fun y => { y with carry := none }) s) else openToStop s
    | none => match lostGroup s with
      | some z => if x.chunkOpen then noteLost z s else openToStop s
      | none => if x.chunkOpen then beginClose x.stopReason s else finishStop x.stopReason s

/-- What a thermal stop leaves in the rings is lost in one gap with REASON 2, and the recording ends (08 R323). -/
def thermalEnd (s : State) : State :=
  let l := (zipChannels s.recorder.zmask).flatMap fun z =>
    ((group s z).entries.filter fun e => e.payload && decide ((group s z).recNext ≤ e.no)).map (z, ·)
  let s1 := match firstPublished l with
    | some (z, e) => modGroup z (fun g => { g with lost := g.lost ++ [(e.serial, l.length, 2)] }) s
    | none => s
  stopFor 4 ((zipChannels s.recorder.zmask).foldl (fun t z =>
    modGroup z (fun g => { g with recNext := max g.recNext s.recorder.published }) t) s1)

/-- Whether the frame at which the recording stops has been recorded. -/
def reachedStop (s : State) : Bool :=
  match s.recorder.stopAt, (zipChannels s.recorder.zmask).head? with
  | some f, some z => match (group s z).recLast with
    | some l => !later f l
    | none => false
  | _, _ => false

/-- Opens the chunk of an entry; the first one answers `REC.START` (08 R314). -/
def openFor (e : RingEntry) (s : State) : State :=
  let pre := ((zipChannels s.recorder.zmask).map fun z => ((group s z).entries.filter fun q =>
    q.good && decide ((group s z).recNext ≤ q.no) && decide (q.no < s.recorder.firstNo)).length).sum
  let s1 := openChunk s
  if s1.recorder.chunkOpen then answerStart e.serial pre s1 else s1

/-- One step of the recorder: it opens a chunk, goes on with a cut record, notes a loss, or takes the next entry. -/
def drainOne (s : State) : State :=
  let x := s.recorder
  if x.closing.isSome then s
  else if x.state = 3 then stopStep s
  else if x.state != 1 || !x.begun then s
  else match x.carry with
    | some (e, r) => if x.chunkOpen then writeFrame e r (modRec (fun y => { y with carry := none }) s) else openChunk s
    | none =>
      if reachedStop s then stopFor 2 s
      else match nextEntry s with
        | none => if x.thermal then thermalEnd s else s
        | some (z, e) =>
          if pastStop s z e then stopFor 2 s
          else if pastCutoff s e then (if x.thermal then thermalEnd s else s)
          else if !x.chunkOpen then openFor e s
          else if (group s z).lost != [] then noteLost z s
          else recordEntry z e s

/-- Steps of the recorder. -/
def drainFor : Nat → State → State
  | 0, s => s
  | n + 1, s => drainFor n (drainOne s)

/-- The recorder takes what it can. -/
def drain (s : State) : State :=
  judgeLow (drainFor (8 + 4 * (s.groups.map fun e => e.2.entries.length + e.2.lost.length).sum) s)

/-- Recording starts at the first COMMITTED frame published since `REC.START` with an FS at or after START_TIME, with up to
PREROLL_FRAMES before it of each ring (08 R314). -/
def beginAt (e : RingEntry) (s : State) : State :=
  let s1 := modRec (fun x => { x with begun := true, firstNo := e.no }) s
  (zipChannels s.recorder.zmask).foldl (fun t z =>
    let before := ((group t z).entries.filter fun q => q.good && decide (q.no < e.no)).reverse
    let from_ := ((before.take s.recorder.preroll).getLast?.map (·.no)).getD e.no
    modGroup z (fun g => { g with recNext := from_, recLast := none, lost := [] }) t) s1

/-- A publication of a group reaches the recorder. -/
def recorderSees (z : Nat) (s : State) : State :=
  if s.recorder.state = 0 ∨ !bit s.recorder.zmask z then s
  else
    let s1 := match (group s z).entries.getLast? with
      | some e =>
        if s.recorder.state = 1 ∧ !s.recorder.begun ∧ e.good ∧ timeNs s.recorder.start ≤ timeNs e.time ∧
            s.recorder.startNo ≤ e.no then beginAt e s else s
      | none => s
    drain s1

/-- The capture groups of a stream through memory publish a frame, each seen by the recorder (08 R280, R314). -/
def publishWhole (i : Nat) (p : PipeCfg) (fr : Frame) (meta_ : List Byte) (s : State) : State :=
  (groupsOf fr.cfg i).foldl (fun t z => recorderSees z (zipWhole z i p fr meta_ t)) s

/-! ## CHUNK_CLOSE and the media (08 R310-R312) -/

/-- Sends bytes of the chunk up to an offset, padded with zeros. -/
def sendPadded (body : List Byte) (upTo : Nat) (s : State) : State :=
  modRec (fun x => { x with body := s.recorder.body })
    (sendTo upTo (modRec (fun x => { x with body := body ++ leBytes (upTo - 4096 - body.length) 0 }) s))

/-- The next part of a chunk's close, which starts when the media have taken the part before it (08 R310): the last records, the
index over the rest of their data unit (log 35), a Flush of each SSD, the header, and the event. -/
def closePart (reason : Nat) (s : State) : State :=
  let x := s.recorder
  let indexOff := 4096 + x.body.length
  let idx := x.index.flatMap indexBytes
  let total := alignUp (indexOff + idx.length) 4096
  let next (t : State) : State := modRec (fun y => { y with closePhase := x.closePhase + 1 }) t
  match x.closePhase with
  | 0 => next (sendPadded x.body (alignUp indexOff 4096) s)
  | 1 => next (sendPadded (x.body ++ idx) total (modRec (fun y => { y with sent := indexOff / 4096 * 4096 }) s))
  | 2 => next ((ssdsOf x.stripe).foldl (fun t d =>
      pushWrite { ssd := d, nsid := 0, lba := 0, fua := false, data := [], chunk := x.chunkNo, off := total, flush := true } t) s)
  | 3 => next (pushWrite (chunkWrite s 0 true (chunkHeader s true total indexOff)) s)
  | _ => raise 296 (unitEvent 0x3101 0x31 0 none (x.chunkNo % 2 ^ 32 + 2 ^ 32 * lastRecorded x + 2 ^ 48 * reason)
      (modRec (fun y => { y with bytes := y.bytes + total }) (leaveChunk total s)))

/-- A close goes on while no Write is outstanding. -/
def closeFor : Nat → State → State
  | 0, s => s
  | n + 1, s =>
    match s.recorder.closing with
    | some r => if s.recorder.chunkOpen && s.recorder.writes.isEmpty then closeFor n (closePart r s) else s
    | none => s

/-- A close goes on; after it the recorder takes the next frames, or stops. -/
def closeOn (s : State) : State :=
  let s1 := closeFor 5 s
  if s.recorder.chunkOpen && !s1.recorder.chunkOpen then drain s1 else s1

/-- An orderly thermal stop: what was published up to its limit is recorded, a gap record stands for the rest, and the chunk
closes with reason 4 (08 R323). -/
def thermalStopRecorder (s : State) : State :=
  if s.recorder.state = 0 ∨ s.recorder.state = 3 then s
  else if s.recorder.state = 1 ∧ s.recorder.begun then drain (modRec (fun x => { x with thermal := true }) s)
  else drain (stopFor 4 s)

/-- CHUNK_CLOSE (08 R310, R323): every record has reached the media and the close starts; at an orderly thermal stop the
recorder first ends, once the limit of its frames has passed. -/
def execChunkClose (s : State) : Host.Outcome State Fault Refusal :=
  .next (if !enginesClocked s then s
    else match s.recorder.closing with
      | some _ => closeOn s
      | none => match s.recorder.cutoff with
        | some t => if timeNs t < nowNs s then thermalStopRecorder s else s
        | none => s)

/-- The oldest outstanding write of an SSD. -/
def oldestWrite (s : State) (d : Nat) : Option NvmeWrite := s.recorder.writes.find? (·.ssd == d)

/-- Removes the oldest outstanding write of an SSD and issues the one that now has a place in its queue. -/
def dropWrite (d : Nat) (w : NvmeWrite) (s : State) : State :=
  let s1 := modRec (fun x => { x with writes := x.writes.erase w }) s
  match (s1.recorder.writes.filter (·.ssd == d))[255]? with
  | some q => emit (writeOut q) s1
  | none => s1

/-- Offset at which the records of an index entry start, where it has any. -/
def entryStart (e : IndexEntry) : Option Nat := if e.off ≠ 0 then some e.off else if e.metaOff ≠ 0 then some e.metaOff else none

/-- The end of the last whole record of a chunk that lies before an offset, by walking the records from offset 4,096 by LENGTH
(08 R310, R312). -/
def lastGoodEnd (off : Nat) : Nat → Nat → List Byte → Nat
  | 0, at_, _ => at_
  | n + 1, at_, body =>
    let len := fieldAt body 8 4
    if len = 0 ∨ body.length < len ∨ off < at_ + len then at_ else lastGoodEnd off n (at_ + len) (body.drop len)

/-- What an index entry names of a chunk that ends at an offset: its frame record without metadata where those are gone. -/
def entryBefore (stop : Nat) (e : IndexEntry) : IndexEntry := if stop ≤ e.metaOff then { e with metaOff := 0 } else e

/-- A chunk cut back to its last good record before an offset (08 R312). -/
def cutBack (off : Nat) (x : Rec) : Rec :=
  let stop := lastGoodEnd off (x.body.length / 64 + 1) 4096 x.body
  let good := x.index.takeWhile fun e => match entryStart e with
    | some a => decide (a < stop)
    | none => true
  { x with index := good.map (entryBefore stop), body := x.body.take (stop - 4096)
           sent := max 4096 (min x.sent (stop / 4096 * 4096)) }

/-- What a failed Write leaves of the open chunk: a record Write cuts it back and with it go the Writes behind it; a header or
a Flush cuts nothing. -/
def afterError (w : NvmeWrite) (s : State) : State :=
  if w.fua ∨ w.flush ∨ w.off = 0 then dropWrite w.ssd w s
  else modRec (fun x => cutBack w.off { x with writes := (x.writes.erase w).filter fun q => decide (q.off < w.off) }) s

/-- A Write that failed twice: its SSD's error log is read, the chunk closes at its last good record and the recorder stops
(08 R312). Where that close fails too, the chunk stays open on the media (08 R310). -/
def mediaError (d status : Nat) (w : NvmeWrite) (s : State) : State :=
  let s1 := raise (301 + d) (unitEvent 0x3105 0x31 0 none (d + 2 ^ 16 * (status % 65536) + 2 ^ 32 * (w.lba % 2 ^ 32))
    (sendAdmin d [.getLogPage 1 w.nsid] s))
  if s.recorder.state = 0 ∨ !s.recorder.chunkOpen then
    modRec (fun x => { x with writes := [] }) (if s.recorder.state = 0 then s1 else finishStop 5 s1)
  else if s.recorder.closing = some 5 ∧ s.recorder.closePhase ≠ 0 then
    finishStop 5 (leaveChunk (alignUp (4096 + s.recorder.body.length) 4096) (modRec (fun x => { x with writes := [] }) s1))
  else
    modRec (fun x => { x with state := 3, stopReason := 5, closing := some 5, closePhase := 0, carry := none })
      (afterError w s1)

/-- A recording Write that failed is retried once (08 R312). -/
def failWrite (d status : Nat) (w : NvmeWrite) (s : State) : State :=
  if w.retried then mediaError d status w s
  else emit (writeOut w)
    (modRec (fun x => { x with writes := x.writes.map fun q => if q = w then { q with retried := true } else q }) s)

/-- A recording Write completed; a close that waited for it goes on. -/
def writeDone (d : Nat) (w : NvmeWrite) (s : State) : State :=
  let s1 := dropWrite d w s
  judgeLow (if s1.recorder.closePhase = 0 then s1 else closeOn s1)

/-- NVME_WRITE_COMPLETE (08 R301, R310-R312): the oldest Write or Flush of an SSD completes with a status. -/
def execNvmeWriteComplete (ssd_ status : Nat) (s : State) : Host.Outcome State Fault Refusal :=
  .next (match oldestWrite s ssd_ with
    | some w => if !enginesClocked s then s else if status = 0 then writeDone ssd_ w s else failWrite ssd_ status w s
    | none => s)

/-- NVME_WRITE_TIMEOUT (08 R312): no completion within 2 s; the event's status field is open (log 6). -/
def execNvmeWriteTimeout (ssd_ : Nat) (s : State) : Host.Outcome State Fault Refusal :=
  .next (match oldestWrite s ssd_ with
    | some w => if enginesClocked s then bump (failWrite ssd_ (draw s 65535) w s) else s
    | none => s)

/-! ## REC commands -/

/-- The extents that `REC.EXTENTS` carries. -/
def extentsOf (b : List Byte) : List Extent :=
  (List.range (fieldAt b 2 2)).map fun k =>
    { nsid := fieldAt b 4 4, lba := fieldAt b (0x10 + 16 * k) 8, count := fieldAt b (0x18 + 16 * k) 4
      tag := fieldAt b (0x1C + 16 * k) 4 }

/-- The extents that stay when a `REC.EXTENTS` applies. -/
def extentsKept (s : State) (d : Nat) (replace : Bool) : List Extent := if replace then touched s d else (ssd s d).extents

/-- Whether two ranges of LBAs of a namespace share one. -/
def lbaOverlap (a b : Extent) : Bool := a.nsid == b.nsid && overlaps a.lba a.count b.lba b.count

/-- Whether an extent is legal by itself (08 R302). -/
def extentOk (x : Ssd) (size : Nat) (e : Extent) : Bool :=
  e.lba * x.lbaBytes % 131072 == 0 && e.count * x.lbaBytes % 131072 == 0 && e.count != 0 && decide (e.lba + e.count ≤ size)

/-- Offsets of what `REC.EXTENTS` breaks (08 R302). -/
def extentFaults (s : State) (c : Cmd) : List Nat :=
  let b := c.region
  let d := fieldAt b 0 1
  let x := ssd s d
  let l := extentsOf b
  let kept := extentsKept s d (bit (fieldAt b 1 1) 0)
  faultIf (!x.present) 0 ++ faultIf (decide (c.region.length < 16 + 16 * fieldAt b 2 2)) 2 ++
  faultIf (decide (16384 < (kept.filter fun e => !(touched s d).contains e).length + l.length)) 2 ++
  match Tbl.find? x.spaces (fieldAt b 4 4) with
  | none => [4]
  | some size => (l.zipIdx.filter fun e => !extentOk x size e.1 ||
      (kept ++ l.take e.2).any (lbaOverlap e.1)).map fun e => 0x10 + 16 * e.2

/-- Checks of REC_EXTENTS. -/
def checkRecExtents (t : State) (c : Cmd) : Option Reply :=
  inOrder t c (blockFault layRecExtents c.region (extentFaults t c)) none none none

/-- Effect of REC_EXTENTS. -/
def effectRecExtents (c : Cmd) (t : State) : State :=
  let d := fieldAt c.region 0 1
  let t1 := modSsd d (fun x => { x with extents := extentsKept t d (bit (fieldAt c.region 1 1) 0) ++ extentsOf c.region }) t
  let t2 := if t1.recorder.state = 2 then modRec (fun x => { x with state := 1 }) t1 else t1
  complete c {} (if t2.recorder.state = 0 then t2 else drain t2)

/-- REC_EXTENTS (08 R302, R311). -/
def execRecExtents (r : CmdRef) (s : State) : Host.Outcome State Fault Refusal :=
  .next (runCmd r 0x3101 checkRecExtents effectRecExtents s)

/-- Offsets of what `REC.START` breaks (08 R304, R313). -/
def startFaults (s : State) (b : List Byte) : List Nat :=
  let m := fieldAt b 0 2
  let stripe := fieldAt b 2 1
  let t := s.cfg.committed
  faultIf ((List.range 16).any fun z => isGroup t z &&
    (let g := fieldAt (zipBlk t z) 0 2
     g &&& m != 0 && g &&& m != g)) 0 ++
  faultIf ((zipChannels m).any fun z => isRelay t z) 0 ++
  faultIf (stripe == 2 && !([0, 1].all fun d => (ssd s d).present && (ssd s d).x4) ) 2 ++
  faultIf (stripe == 2 && fieldAt b 8 4 % 2 != 0) 2 ++
  faultIf ((ssdsOf stripe).any fun d => unusedBytes s d == 0) 2 ++
  faultIf (fieldAt b 3 1 != 0xFF && (Tbl.find? s.recorder.keys (fieldAt b 3 1)).isNone) 3

/-- The recorder as `REC.START` sets it. -/
def startRec (c : Cmd) (x : Rec) : Rec :=
  let b := c.region
  { x with
    state := 1, zmask := fieldAt b 0 2, stripe := fieldAt b 2 1, keySlot := fieldAt b 3 1, preroll := fieldAt b 4 4
    chunkMib := fieldAt b 8 4, audioMask := fieldAt b 0xC 2, tag := fieldAt b 0x10 4, start := timeAt b 0x14, begun := false
    startCmd := some ⟨c.fn, c.seq⟩, stopCmds := [], stopAt := none, chunkOpen := false, chunkNo := 2 ^ 32 - 1, closing := none
    closePhase := 0, stopReason := 2, carry := none, frames := 0, bytes := 0, cutoff := none, thermal := false, audio := []
    startNo := x.published }

/-- Checks of `REC.START` (08 R313, 03 R107). -/
def startCheck (s : State) (c : Cmd) : Option Reply :=
  inOrder s c (blockFault layRecStart c.region (startFaults s c.region)) (admission s (modRec (startRec c) s)) none
    (need (s.recorder.state == 0) busy)

/-- Effect of REC_START. -/
def effectRecStart (c : Cmd) (t : State) : State :=
  setWaiting c (startLeavesSafe 0x31 0 (modRec (startRec c) t))

/-- REC_START (08 R313, R314). -/
def execRecStart (r : CmdRef) (s : State) : Host.Outcome State Fault Refusal :=
  .next (runCmd r 0x3102 startCheck effectRecStart s)

/-- Whether FRAME of a `REC.STOP` has passed (08 R315). -/
def stopPassed (s : State) (f : Nat) : Bool :=
  match (zipChannels s.recorder.zmask).head? with
  | some z => match (group s z).recLast with
    | some l => !later f l
    | none => false
  | none => true

/-- `REC.STOP` past its checks. -/
def stopEffect (c : Cmd) (s : State) : State :=
  let s1 := setWaiting c (modRec (fun x => { x with stopCmds := x.stopCmds ++ [⟨c.fn, c.seq⟩] }) s)
  if s.recorder.state = 0 then
    complete c (okReply (lastRecorded s.recorder + 2 ^ 32 * (framesRecorded s.recorder % 2 ^ 32)) s.recorder.bytes) s
  else if s.recorder.state = 3 then s1
  else if fieldAt c.region 0 1 = 1 ∧ !stopPassed s (fieldAt c.region 2 2) then
    modRec (fun x => { x with stopAt := some (fieldAt c.region 2 2) }) s1
  else drain (stopFor 2 s1)

/-- Checks of REC_STOP. -/
def checkRecStop (t : State) (c : Cmd) : Option Reply := plainCheck layRecStop t c

/-- REC_STOP (08 R315). -/
def execRecStop (r : CmdRef) (s : State) : Host.Outcome State Fault Refusal :=
  .next (runCmd r 0x3103 checkRecStop stopEffect s)

/-- Checks of `REC.KEY` (08 R318). -/
def keyCheck (s : State) (c : Cmd) : Option Reply :=
  let b := c.region
  inOrder s c
    (blockFault layRecKey b (faultIf (!bit (fieldAt b 1 1) 0 && (b.drop 0x10).take 32 == (b.drop 0x30).take 32) 0x10)) none none
    (need (!(s.recorder.state != 0 && s.recorder.keySlot == fieldAt b 0 1)) busy)

/-- Effect of REC_KEY. -/
def effectRecKey (c : Cmd) (t : State) : State :=
  let b := c.region
  let put (k : Tbl (Nat × List Byte)) : Tbl (Nat × List Byte) :=
    if bit (fieldAt b 1 1) 0 then Tbl.erase k (fieldAt b 0 1)
    else Tbl.set k (fieldAt b 0 1) (fieldAt b 8 8, (b.drop 0x10).take 64)
  complete c {} (modRec (fun x => { x with keys := put x.keys }) t)

/-- REC_KEY (08 R317, R318). -/
def execRecKey (r : CmdRef) (s : State) : Host.Outcome State Fault Refusal :=
  .next (runCmd r 0x3104 keyCheck effectRecKey s)

/-- The LBAs that `REC.STATUS` names. -/
def accessOf (b : List Byte) : Extent := { nsid := fieldAt b 4 4, lba := fieldAt b 8 8, count := fieldAt b 0x10 4, tag := 0 }

/-- Offsets of what an OP 1 or 2 of `REC.STATUS` breaks (08 R316). -/
def accessFaults (s : State) (b : List Byte) : List Nat :=
  let x := ssd s (fieldAt b 1 1)
  let e := accessOf b
  let n := e.count * x.lbaBytes
  if fieldAt b 0 1 = 0 then []
  else
    faultIf (!x.present) 1 ++ faultIf (decide (16777216 < n)) 0x10 ++
    faultIf (fieldAt b 0 1 == 2 && decide (b.length < 0x18 + n)) 0x10 ++
    (match Tbl.find? x.spaces e.nsid with
      | none => [4]
      | some size => faultIf (decide (size < e.lba + e.count)) 8) ++
    faultIf (fieldAt b 0 1 == 2 && x.extents.any (lbaOverlap e)) 1

/-- Checks of `REC.STATUS`: OP 1 and 2 take their data by descriptor. -/
def recStatusCheck (s : State) (c : Cmd) : Option Reply :=
  let b := c.region
  inOrder s c
    (firstFail [blockFault layRecStatus b (accessFaults s b),
      need (fieldAt b 0 1 == 0 || c.ploc == 2) (badSlot 6)]) none none none

/-- Published frames that the recorder has not recorded. -/
def unrecorded (s : State) : Nat :=
  if s.recorder.state = 0 then 0
  else ((zipChannels s.recorder.zmask).map fun z =>
    ((group s z).entries.filter fun e => e.payload && decide ((group s z).recNext ≤ e.no)).length).sum

/-- The answer of OP 0 (08 R316). -/
def recStatus (s : State) : Reply :=
  okReply (lastRecorded s.recorder + 2 ^ 16 * s.recorder.state + 2 ^ 32 * (unusedBytes s 0 / mib % 2 ^ 32))
    (unusedBytes s 1 / mib % 2 ^ 32 + 2 ^ 32 * (unrecorded s % 2 ^ 32))

/-- Sends the access of an SSD that has the given place in I/O pair 2, which holds 64 (08 R301). -/
def sendHost (d place : Nat) (s : State) : State :=
  match (s.recorder.host.filter (·.ssd == d))[place]? with
  | some h => if place < 64 then emit (.nvmeHost d h.nsid h.lba h.count h.write h.data) (attachSsd d s) else s
  | none => s

/-- Effect of REC_STATUS. -/
def effectRecStatus (c : Cmd) (t : State) : State :=
  let b := c.region
  let d := fieldAt b 1 1
  let e := accessOf b
  let write := fieldAt b 0 1 == 2
  if fieldAt b 0 1 = 0 then complete c (recStatus t) t
  else
    let h : HostAccess :=
      { ref := ⟨c.fn, c.seq⟩, write := write, ssd := d, nsid := e.nsid, lba := e.lba, count := e.count
        data := if write then (b.drop 0x18).take (e.count * (ssd t d).lbaBytes) else [] }
    sendHost d (t.recorder.host.filter (·.ssd == d)).length
      (modRec (fun x => { x with host := x.host ++ [h] }) (setWaiting c t))

/-- REC_STATUS (08 R316). -/
def execRecStatus (r : CmdRef) (s : State) : Host.Outcome State Fault Refusal :=
  .next (runCmd r 0x3105 recStatusCheck effectRecStatus s)

/-- NVME_HOST_ACCESS_DONE (08 R301, R316): a read returns its data over the region, and an access that waited for a place in the
pair is sent. The status of a failed access is not given (log 6). -/
def execNvmeHostAccessDone (r : CmdRef) (ok : Bool) (data : List Byte) (s : State) : Host.Outcome State Fault Refusal :=
  .next (match s.recorder.host.find? (·.ref == r) with
    | some h =>
      if !enginesClocked s || !((s.recorder.host.filter (·.ssd == h.ssd)).take 64).contains h then s
      else
        let s1 := sendHost h.ssd 63 (modRec (fun x => { x with host := x.host.filter (·.ref != r) }) s)
        match findCmd s r with
        | some c =>
          if ok then complete c { data := if h.write then [] else data } s1
          else bump (complete c { status := draw s 65535 } s1)
        | none => s1
    | none => s)

/-! ## Stops (08 R322) -/

/-- The recorder closes its chunk for a reason and stops. -/
def stopRecorder (reason : Nat) (s : State) : State :=
  if s.recorder.state = 0 ∨ s.recorder.state = 3 then s else drain (stopFor reason s)

/-! ## TDM ports (08 R319-R321) -/

/-- Checks of AUD_CONFIGURE. -/
def checkAudConfigure (t : State) (c : Cmd) : Option Reply :=
  stagedCheck layAudConfigure 0 (cfgKey 0x3201 c.target 0) [] none none t c

/-- Effect of AUD_CONFIGURE. -/
def effectAudConfigure (c : Cmd) (t : State) : State :=
  stageCmd layAudConfigure 0 (cfgKey 0x3201 c.target 0) c t

/-- AUD_CONFIGURE (08 R319). -/
def execAudConfigure (r : CmdRef) (s : State) : Host.Outcome State Fault Refusal :=
  .next (runCmd r 0x3201 checkAudConfigure effectAudConfigure s)

/-- Changes a TDM port. -/
def modTdm (a : Nat) (g : Tdm → Tdm) (s : State) : State := { s with tdm := s.tdm.modify a g }

/-- The 24-bit samples of a word-clock frame: left-justified in slots of SLOT_BITS, for the SLOTS channels used. -/
def samplesOfFrame (b : List Byte) (words : List Nat) : List Nat :=
  (List.range (fieldAt b 0 1)).map fun k => words.getD k 0 / 2 ^ (fieldAt b 2 1 - 24) % 2 ^ 24

/-- The block of a port that writes samples: it is configured, its word clock runs, and it is not in its safe state. -/
def portBlk (s : State) (a : Nat) : Option (List Byte) :=
  if (s.tdm.getD a {}).lost || safeOf s (myUnit s 0x32 a) == 2 then none else activeBlk s 0x3201 a 0

/-- The channels of AUDIO_MASK that give samples, and their RATE, that of the lowest port. -/
def audioChans (s : State) : Nat × Nat :=
  let given (a : Nat) : Nat := match portBlk s a with
    | some b => s.recorder.audioMask / 256 ^ a % 256 % 2 ^ fieldAt b 0 1
    | none => 0
  let a := if given 0 = 0 then 1 else 0
  (given 0 + 256 * given 1, fieldAt ((portBlk s a).getD []) 1 1)

/-- A sample frame of a port joins the last run, or starts a new one: after a return of its word clock or a gap, and where the
channels that give samples have changed (08 R320, R321). -/
def addSample (key : Nat × Nat) (a : Nat) (new : Bool) (one : Time × List Nat) (l : List AudioSeg) : List AudioSeg :=
  let fresh : AudioSeg := { chans := key.1, rate := key.2 }
  let l1 := match l.getLast? with
    | some g => if new || (g.chans, g.rate) != key then l.dropLast ++ endSeg g ++ [fresh] else l
    | none => [fresh]
  l1.modify (l1.length - 1) fun g => { g with frames := g.frames.modify a (· ++ [one]) }

/-- A frame of samples reaches the recorder and the flows. -/
def audioFrameIn (a : Nat) (b : List Byte) (words : List Nat) (s : State) : State :=
  let x := s.tdm.getD a {}
  let one := (stampTime s (44 + a) x.recent.length, samplesOfFrame b words)
  let s1 := modTdm a (fun y => { y with recent := (one :: (if y.restart then [] else y.recent)).take 48, restart := false }) s
  let key := audioChans s
  let s2 := if s.recorder.state = 0 ∨ key.1 / 256 ^ a % 256 = 0 then s1
    else modRec (fun y => { y with audio := addSample key a x.restart one y.audio }) s1
  audioFlows a x.restart s2

/-- AUD_WORD_CLOCK_FRAME (08 R319): the slots of a word-clock frame, timestamped with the selected time of its sync edge;
samples are discarded while RT14 is shed (10 R384). -/
def execAudWordClockFrame (port : Nat) (samples : List Nat) (s : State) : Host.Outcome State Fault Refusal :=
  .next (match portBlk s port with
    | some b => if enginesClocked s && !portShed s 14 then audioFrameIn port b samples s else s
    | none => s)

/-- AUD_CLOCK_LOST (08 R321). -/
def execAudClockLost (port : Nat) (s : State) : Host.Outcome State Fault Refusal :=
  .next (if enginesClocked s && decide (port < 2) && (activeBlk s 0x3201 port 0).isSome && !(s.tdm.getD port {}).lost then
    raise (304 + port) (unitEvent 0x3201 0x32 port none port (modTdm port (fun x => { x with lost := true }) s)) else s)

/-- AUD_CLOCK_RESTORED (08 R321): the recorder starts a new audio record. -/
def execAudClockRestored (port : Nat) (s : State) : Host.Outcome State Fault Refusal :=
  .next (if enginesClocked s && decide (port < 2) && (s.tdm.getD port {}).lost then
    raise (304 + port) (unitEvent 0x3202 0x32 port none port
      (modTdm port (fun x => { x with lost := false, restart := true, recent := [] }) s)) else s)

end Sys2Proof.Machine
end

