-- ==== Sys2Proof/Machine/Verdict.lean ====
section
/-! DEFINITION. Verdicts and frame boundaries (04 R143-R147; 05 R169-R172; 06 R204-R230): a frame's verdict and what its
consumers make of it, the rings of streams through memory, the pipes' frame boundaries, `PIPE.PLAY` and `BRD.COUNTERS`. -/

namespace Sys2Proof.Machine

/-! ## Counting a verdict (04 'Counters', R165) -/

/-- A member channel counts a verdict; its frame-error source tells of a frame that is retracted or flagged. -/
def countVerdict (flags c : Nat) (s : State) : State :=
  let s1 := countChan c (if bit flags 0 then 7 else 6) 1 s
  let s2 := countChan c 10 (b2n (bit flags 2)) (countChan c 9 (b2n (bit flags 1)) (countChan c 8 (b2n (bit flags 3)) s1))
  if flags % 16 = 0 then s2 else raise (frameSource c) s2

/-! ## In-line frames of stream 0 (06 R204-R230) -/

/-- The frame's statistics record is published, unless it was dropped at the FS (06 R229, 07 R276). -/
def inlineStats (p : PipeCfg) (fr : Frame) (d : Developed) (s : State) : State :=
  if statsOn fr.cfg 0 && !bit fr.colour 3 then publishStats 0 fr.cfg p fr.serial fr.flags fr.epoch d.img s else s

/-- The capture groups of stream 0 take a verdict, and the recorder sees what they publish (06 R216-R218). -/
def inlineGroups (p : PipeCfg) (fr : Frame) (rec_ : List Byte) (s : State) : State :=
  (groupsOf fr.cfg 0).foldl (fun t z => recorderSees z (zipVerdict z 0 p fr rec_ t)) s

/-- A COMMITTED frame goes to the consumers of stream 0. -/
def commitInline (p : PipeCfg) (fr : Frame) (s : State) : State :=
  let d := developFrame s 0 p fr p.height false
  let s1 := encTapCommitted 0 fr (commitTapSlots 0 fr.tapSlots fr.flags s)
  let s2 := keepTnr fr.cfg p fr d.tnr (inlineStats p fr d s1)
  let s3 := if anyClipped s 0 p fr d then raise 103 s2 else s2
  let r := fullRecord s 0 p fr d
  encVerdict fr.serial fr.flags (inlineGroups p fr r (noteRecord 0 fr.serial r s3))

/-- A RETRACTED frame: the consumers keep or undo their work, and `EV_PIPE_FRAME_RETRACTED` tells the owner (06 R217, R222,
R225, R230). -/
def retractInline (p : PipeCfg) (fr : Frame) (s : State) : State :=
  let d := developFrame s 0 p fr fr.released true
  let s0 := keepTnr fr.cfg p fr d.tnr (inlineStats p fr d (retractTapSlots 0 fr.tapSlots fr.flags s))
  let s1 := if anyClipped s 0 p fr d then raise 103 s0 else s0
  let s2 := raise 96 (unitEvent 0x2001 0x20 0 (some fr.serial) (fr.serial + 2 ^ 16 * fr.flags + 2 ^ 32 * (fr.released - 1)) s1)
  let r := fullRecord s 0 p fr d
  encVerdict fr.serial fr.flags (inlineGroups p fr r
    (modStream 0 (fun x => { x with lastRetracted := some (fr.serial, fr.time, frameNs s) }) (noteRecord 0 fr.serial r s2)))

/-- Whether the statistics ring has a slot for a frame at its FS beside the frames before it; none where RT15 is shed for stream 0
in-line (07 R276, 10 R384). -/
def statsRoom (s : State) (t : Tbl CfgVal) (i : Nat) (p : PipeCfg) (serial : Nat) : Bool :=
  let coming := (stream s i).frames.filter fun g =>
    g.serial != serial && statsOn g.cfg i && !bit g.colour 3 && (p.source == 0 || !bit g.flags 0)
  let handed := (stream s i).ready.filter fun g => g.statsOk && statsOn g.cfg i
  statsFree s t i (coming.length + handed.length) && !(p.source == 0 && portShed s 15)

/-! ## Frames through memory (04 R144, R145) -/

/-- Whether a stream's pipe is working on its oldest frame. -/
def inPipe (s : State) (i : Nat) : Bool := s.pipes.contains (some i)

/-- The frames of a stream that its pipe has not yet taken. -/
def untaken (s : State) (i : Nat) : List ReadyFrame := (stream s i).ready.drop (b2n (inPipe s i))

/-- Whether a stream is ready (05 R170), and its units are neither in a safe state nor on the way to one (03 R93). -/
def streamReady (s : State) (i : Nat) : Bool :=
  unitLive s 0x20 i && match (untaken s i).head? with
    | some f => match pipeIn f.cfg i with
      | some p => targetsFree s f.cfg i p f.tapGen
      | none => false
    | none => false

/-- The streams of a pipe (05 R169). -/
def streamsIn (pipe : Nat) : List Nat := if pipe = 0 then [0] else pipeStreams (pipe == 2)

/-- The pipe of a stream. -/
def pipeOf (i : Nat) : Nat := if i = 0 then 0 else if i ≤ 8 then 1 else 2

/-- The smallest of some service counts. -/
def leastOf : List Nat → Nat
  | [] => 0
  | v :: l => l.foldl min v

/-- A stream that has become ready takes the smallest V of those ready before it, where that is larger (05 R172). -/
def noteReady (i : Nat) (s : State) : State :=
  let r := streamReady s i
  let already := (streamsIn (pipeOf i)).filter fun k => k != i && (stream s k).wasReady
  let v := if r && !(stream s i).wasReady then max (stream s i).v (leastOf (already.map fun k => (stream s k).v)) else (stream s i).v
  modStream i (fun x => { x with v := v, wasReady := r }) s

/-- Notes which streams of a pipe are ready. -/
def notePipe (pipe : Nat) (s : State) : State := (streamsIn pipe).foldl (fun t i => noteReady i t) s

/-- A committed frame is handed on to its pipe; a Muck-out slice there is abandoned once its stream is ready (18 R602). -/
def handOn (i : Nat) (f : ReadyFrame) (s : State) : State :=
  let s1 := noteReady i (setRing i f.slot 2 (modStream i (fun x => { x with ready := x.ready ++ [f] }) s))
  if streamReady s1 i then abandonSlice (pipeOf i) s1 else s1

/-- A COMMITTED frame through memory: its slot's header is complete, the capture groups code it, and it is handed on. -/
def commitSlot (i : Nat) (p : PipeCfg) (fr : Frame) (s : State) : State :=
  match fr.slot with
  | none => s
  | some n =>
    let rec_ := metaRecord s i p fr [] [] 9
    let s1 := hbmWrite (ringAddr p n) (slotHeader i p fr) s
    let f : ReadyFrame :=
      { slot := n, serial := fr.serial, epoch := fr.epoch, cfg := fr.cfg, record := rec_, tnr := fr.tnr.map (·.2)
        statsOk := !bit fr.colour 3, stale := fr.stale, weights := fr.weights, shade := fr.shade, estGen := fr.estGen
        tapGen := fr.tapGen }
    let s2 := handOn i f (noteRecord i fr.serial rec_
      (modStream i (fun x => if x.tnrGen = fr.tnrGen then { x with lastGood := some fr.serial } else x) s1))
    publishWhole i p fr rec_ s2

/-- A RETRACTED frame's slot is reused; the pipe never sees it. Its metadata record is complete with its verdict (04 R146). -/
def retractSlot (i : Nat) (p : PipeCfg) (fr : Frame) (s : State) : State :=
  let s1 := noteRecord i fr.serial (metaRecord s i p fr [] [] 9) s
  match fr.slot with
  | some n => if frameRing fr.cfg i = frameRing (stream s1 i).cfg i then setRing i n 0 s1 else s1
  | none => s1

/-! ## FRAME_VERDICT (06 R208, R209) -/

/-- Whether a frame's verdict may be passed: it is decided, and a COMMITTED in-line frame has released its rows. -/
def verdictDue (s : State) (i : Nat) (p : PipeCfg) (fr : Frame) : Bool :=
  verdictReady s i fr && (bit (unionFlags s i fr) 0 || p.source != 0 || fr.released == p.height)

/-- A HELD frame leaves that state: the rows that wait go to the neighbours of a stripe (06 R205, R213). -/
def unholdFrame (f : Frame) (s : State) : State :=
  let s1 := modFrame 0 f.serial (fun g => { g with held := false }) s
  match pipeIn f.cfg 0 with
  | some p => if striped f.cfg 0 then f.rows.zipIdx.foldl (fun t r => sendHalos p f.serial r.2 r.1 t) s1 else s1
  | none => s1

/-- HELD frames leave that state while fewer than D frames are released (06 R204). -/
def unhold (s : State) : State :=
  (stream s 0).frames.foldl (fun t f =>
    if f.held && decide (releasedFrames t < depth t.sys.profile) then unholdFrame f t else t) s

/-- The stream forgets a frame whose verdict is passed. -/
def closeFrame (i : Nat) (fr : Frame) (s : State) : State :=
  let s1 := modStream i (fun x =>
    { x with frames := x.frames.filter fun f => f.serial != fr.serial
             lastSerial := fr.serial
             lastVerdict := fr.flags }) s
  if striped fr.cfg i then
    { s1 with tth := { s1.tth with verdicts := s1.tth.verdicts.filter fun e => later e.1 fr.serial } }
  else s1

/-- Nanoseconds from now to GUARD_US before the next FS of stream 0 (18 R601). -/
def windowNs (s : State) (p : PipeCfg) : Nat :=
  p.period - ((s.tick - (stream s 0).fsTick) * 16 / 5 + s.mck.guardUs * 1000)

/-- What an in-line verdict lets go on: HELD frames, their rows, and Pipe A's Muck-out window. -/
def afterVerdict (p : PipeCfg) (s : State) : State :=
  let s1 := releaseRows (unhold s)
  if (stream s1 0).frames.all fun f => bit f.flags 0 then openWindow 0 (windowNs s1 p / 1000) s1 else s1

/-- Passes the verdict of a stream's oldest frame. -/
def passVerdict (i : Nat) (p : PipeCfg) (fr : Frame) (s : State) : State :=
  let f := { fr with flags := unionFlags s i fr }
  let s1 := if p.source ≤ 2 then (members p).foldl (fun t c => countVerdict f.flags c t) s else s
  let s2 := match p.source == 0, bit f.flags 0 with
    | true, false => commitInline p f s1
    | true, true => retractInline p f s1
    | false, false => commitSlot i p f s1
    | false, true => retractSlot i p f s1
  let s3 := closeFrame i f s2
  if p.source = 0 then afterVerdict p s3 else s3

/-- Delivers the verdicts of a stream that are due, oldest first. -/
def deliverDue (i : Nat) : Nat → State → State
  | 0, s => s
  | n + 1, s =>
    match (stream s i).frames.head? with
    | none => s
    | some fr =>
      match framePipe fr i with
      | some p => if verdictDue s i p fr then deliverDue i n (passVerdict i p fr s) else s
      | none => s

/-- Whether the frame that starts is the first of another epoch for its stream: a commit has changed what serves the stream, or one
that refers to it is due (01 R22, 02 R68). -/
def boundaryDue (s : State) (i : Nat) : Bool :=
  ((s.cfg.committed.filter fun e => serves s.cfg.committed i e.1) != s.cfg.active.filter fun e => serves s.cfg.active i e.1) ||
    (waitingCommits s).any fun x => x.mode != 2 && x.stream == i && isDue s x

/-- Before a frame of another epoch starts the verdicts that are due are delivered (01 R23); and before a frame while another is
HELD, since no more than one is (06 R205). -/
def deliverBefore (i : Nat) (s : State) : State :=
  if boundaryDue s i || (stream s i).frames.any (·.held) then deliverDue i (stream s i).frames.length s else s

/-- FRAME_VERDICT (06 R208): the oldest frame of a stream, once it is decided, gives every consumer its verdict; verdicts pass
in serial order (R209). -/
def execFrameVerdict (stream_ : Nat) (s : State) : Host.Outcome State Fault Refusal :=
  .next (match (stream s stream_).frames.head? with
    | none => s
    | some fr =>
      match framePipe fr stream_ with
      | some p => if enginesClocked s && verdictDue s stream_ p fr then passVerdict stream_ p fr s else s
      | none => s)

/-! ## PIPE_FRAME_BOUNDARY (05 R171; 18 R602) -/

/-- A frame as its ring slot gives it. DESIGN CHOICE (log 58): the FS gain code of a playback frame, which has no FS, is the
one that its first line's gain code and SEAM mark give (04 R146, R148). -/
def slotFrame (s : State) (i : Nat) (p : PipeCfg) (f : ReadyFrame) : Frame :=
  let h := hbmRead s (ringAddr p f.slot) 64
  let rows := slotRows s p f.slot
  let first := fieldAt h 7 1 % 2
  let lens := (List.range 3).map fun k => fieldAt h (0x20 + 2 * k) 2
  { serial := f.serial, time := timeAt h 8, epoch := f.epoch, cfg := f.cfg, source := p.source, flags := fieldAt h 2 2
    rows := rows, decided := true, released := p.height, slot := some f.slot, lens := lens, lensBad := bit (fieldAt h 0x26 1) 0
    gainFs := if (rows.head?.map (·.seam)).getD false then 1 - first else first
    weights := if f.stale then f.weights else blendWeights (gridsOf f.cfg i) lens, stale := f.stale, shade := f.shade
    est := estBase (stream s i) f.estGen, estGen := f.estGen, tapSlots := f.tapSlots
    tnr := f.tnr.bind fun n => (tnrHolding s i n).map fun k => (k, n) }

/-- The metadata record of a frame that a pipe has processed: the ingest's sections with the front and colour sections. -/
def finishRecord (s : State) (i : Nat) (p : PipeCfg) (old : List Byte) (fr : Frame) (marks : Nat) (d : Developed) : List Byte :=
  padTo p.metaBytes (old.take 0x21 ++ [0xF] ++ (old.drop 0x22).take 0x5E ++
    padTo 32 (colourSection fr.cfg i marks d (tapsUsed s i p fr d.img)) ++ (old.drop 0xA0).take 0x4F60 ++
    frontSection (frontCtx s i p fr) fr d p.height)

/-- Whether Pipe A's write-back is shed: the frame in it is not written back (10 R384). -/
def writeBackShed (s : State) (i : Nat) : Bool := i == 0 && portShed s 1

/-- A frame's statistics are published, unless they were dropped at its FS (07 R276). -/
def pipeStats (i : Nat) (p : PipeCfg) (fr : Frame) (ok : Bool) (d : Developed) (s : State) : State :=
  if statsOn fr.cfg i && ok then publishStats i fr.cfg p fr.serial fr.flags fr.epoch d.img s else s

/-- The write-back of a frame: its taps, handed to their readers, and its TNR reference. A frame that Pipe A does not write
back is counted as dropped, and its tap slots are free. -/
def writeBack (i : Nat) (p : PipeCfg) (fr : Frame) (lost : Bool) (d : Developed) (s : State) : State :=
  if lost || writeBackShed s i then
    let s1 := modStream i (fun x =>
      { x with unwritten := min 0xFFFFFFFF (x.unwritten + 1)
               taps := x.taps.map fun l => l.filter fun e => !(e.2.serial == fr.serial && e.2.state == 0) }) s
    if i = 0 then s1 else raise (128 + 4 * (i - 1) + 3) s1
  else
    let s1 := commitTapSlots i fr.tapSlots fr.flags (writeTaps i p fr d (activeOf fr.cfg i p).2 true s)
    keepTnrThrough i fr.cfg p fr d.tnr (encTapCommitted i fr s1)

/-- What the pipe tells and hands on of a frame that it has finished: V grows by P × 840 / w (05 R171), the column estimate,
the marks of its temporal noise reduction, the write-back, the statistics, the clipping. -/
def handOnFinished (i : Nat) (p : PipeCfg) (f : ReadyFrame) (fr : Frame) (d : Developed) (marks : Nat) (s : State) : State :=
  let s1 := modStream i (fun x => { x with colEst := fr.est, colGen := f.estGen, v := x.v + p.width * p.height * 840 / max 1 p.weight }) s
  let s2 := if marks = 0 then s1 else if i = 0 then raise 102 s1 else if marks = 1 then raise (128 + 4 * (i - 1) + 3) s1 else s1
  let s3 := pipeStats i p fr f.statsOk d (writeBack i p fr f.unwritten d (tellSplit i f.serial fr.rows s2))
  if i = 0 then (if anyClipped s i p fr d then raise 103 s3 else s3) else raise (128 + 4 * (i - 1)) s3

/-- A finished frame leaves the pipe: its record and its verdict are kept, and its ring slot is free. -/
def leavePipe (i : Nat) (f : ReadyFrame) (flags : Nat) (rec_ : List Byte) (s : State) : State :=
  let t := noteRecord i f.serial rec_ (modStream i (fun x =>
    { x with ready := x.ready.drop 1, lastSerial := f.serial, lastVerdict := flags }) s)
  if frameRing f.cfg i = frameRing (stream t i).cfg i then setRing i f.slot 0 t else t

/-- The pipe finishes a stream's frame. -/
def finishFrameIn (i : Nat) (f : ReadyFrame) (s0 : State) : State :=
  match pipeIn f.cfg i with
  | none => s0
  | some p =>
    let s := hbmTouch (ringAddr p f.slot) p.slotBytes s0
    let fr0 := slotFrame s i p f
    let est := columnEstimate (frontCtx s i p fr0) fr0.rows
    let fr := { fr0 with est := est }
    let d := developFrame s i p fr p.height false
    let marks := tnrMarks f.cfg i f.serial fr.tnr
    leavePipe i f fr.flags (finishRecord s i p f.record fr (marks + if f.statsOk then 0 else 8) d)
      (handOnFinished i p f fr d marks s)

/-- The pipe ends the frame that it works on. -/
def endPipeFrame (pipe : Nat) (s : State) : State :=
  match s.pipes.getD pipe none with
  | none => s
  | some i =>
    let s1 := match (stream s i).ready.head? with
      | some f => finishFrameIn i f s
      | none => s
    { s1 with pipes := s1.pipes.set pipe none }

/-- The ready stream with the smallest V, the lower number among equals (05 R171). -/
def nextStream (pipe : Nat) (s : State) : Option Nat :=
  ((streamsIn pipe).filter (streamReady s)).foldl (fun m i => match m with
    | none => some i
    | some k => if (stream s i).v < (stream s k).v then some i else some k) none

/-- A pipe starts the next frame of a stream: its tap slots are taken. -/
def startPipeFrame (pipe i : Nat) (s : State) : State :=
  match (stream s i).ready with
  | [] => s
  | f :: rest =>
    match pipeIn f.cfg i with
    | none => s
    | some p =>
      let slots := (takeTapSlots s f.cfg i p f.serial f.tapGen).1
      let t := timeAt (hbmRead s (ringAddr p f.slot) 64) 8
      let s1 := modStream i (fun x => { x with ready := { f with tapSlots := slots } :: rest }) s
      let s2 := if frameRing f.cfg i = frameRing (stream s1 i).cfg i then setRing i f.slot 3 s1 else s1
      openTapSlots f.cfg i f.serial t slots { s2 with pipes := s2.pipes.set pipe (some i) }

/-- PIPE_FRAME_BOUNDARY (05 R171): the pipe ends its frame and starts the ready stream with the smallest V; with none ready it
runs a Muck-out slice (18 R602). Pipe A does so unless stream 0 has SOURCE 0 (05 R169). -/
def execPipeFrameBoundary (pipe : Nat) (s : State) : Host.Outcome State Fault Refusal :=
  .next (if !enginesClocked s || s.sys.profile == 3 || decide (2 < pipe) then s
    else
      let s1 := notePipe pipe (endPipeFrame pipe (notePipe pipe s))
      match nextStream pipe s1 with
      | some i => noteReady i (startPipeFrame pipe i (abandonSlice pipe s1))
      | none => if pipe == 0 && (sourced s1.cfg.active 0).any (·.1 == 0) then s1 else idleSlice pipe s1)

/-! ## PIPE_PLAY (04 R147) -/


/-- FIRST opens the next free slot; a slot that was open is free again (log 43). -/
def openPlay (i : Nat) (p : PipeCfg) (s : State) : State :=
  let s1 := match (stream s i).play with
    | some n => setRing i n 0 s
    | none => s
  match freeRingSlot s i p with
  | some n => setRing i n 1 (modStream i (fun x => { x with play := some n }) s1)
  | none => s1

/-- The slot of `PIPE.PLAY` with its bytes written, and the machine then. -/
def playWritten (s : State) (c : Cmd) (p : PipeCfg) : Option (Nat × State) :=
  let b := c.region
  let s1 := if bit (fieldAt b 0 1) 0 then openPlay c.target p s else s
  ((stream s1 c.target).play).map fun n =>
    (n, hbmWrite (ringAddr p n + fieldAt b 4 4) (bulkBytes layPipePlay b (fieldAt b 8 4)) s1)

/-- The offset in the slot of the first header field that differs from the stream's configuration (04 R145, R147). -/
def playDiffers (p : PipeCfg) (h : List Byte) : Option Nat :=
  (((([(5, 1, p.planes), (6, 1, p.bits), (0x18, 2, p.width), (0x1A, 2, p.height), (0x1C, 4, p.pitch), (0x27, 1, p.cfa)] :
    List (Nat × Nat × Nat)).find? fun e => fieldAt h e.1 e.2.1 != e.2.2)).map (·.1))

/-- The refusal at LAST of a slot that does not suit its stream; like every refused command it changes nothing (02 R51, 04 R147,
log 43). -/
def playMismatch (s : State) (c : Cmd) (p : PipeCfg) : Option Reply :=
  if !bit (fieldAt c.region 0 1) 1 then none
  else match playWritten s c p with
    | none => none
    | some (n, t) => (playDiffers p (hbmRead t (ringAddr p n) 64)).map fun o => { status := 0x11, detail := o, detailSpace := 2 }

/-- Relations of `PIPE.PLAY`. -/
def playFaults (s : State) (c : Cmd) (p : PipeCfg) : List Nat :=
  let b := c.region
  faultIf (!bit (fieldAt b 0 1) 0 && (stream s c.target).play.isNone) 0 ++
    faultIf (decide (p.slotBytes < fieldAt b 4 4 + fieldAt b 8 4)) 4 ++
    faultIf (decide (b.length < blockLen layPipePlay + fieldAt b 8 4)) 8

/-- Checks of `PIPE.PLAY`; a stream in its safe state accepts no frame (03 R93, log 51). -/
def playCheck (s : State) (c : Cmd) : Option Reply :=
  match pipeIn s.cfg.committed c.target with
  | none => some (badSlot 8)
  | some p =>
    let b := c.region
    let open_ := bit (fieldAt b 0 1) 0
    inOrder s c
      (firstFail [need (p.source == 4) (badSlot 8), blockFault layPipePlay b (playFaults s c p),
        need (crc64 (bulkBytes layPipePlay b (fieldAt b 8 4)) == fieldAt b 0x10 8) dataCrc, playMismatch s c p]) none none
      (need (safeOf s (myUnit s 0x20 c.target) != 2 && (!open_ || (freeRingSlot s c.target p).isSome)) busy)

/-- The metadata record of a playback frame, begun as its slot is handed on (04 R146). -/
def playRecord (s : State) (i n : Nat) (p : PipeCfg) : Frame × List Byte :=
  let h := hbmRead s (ringAddr p n) 64
  let f : Frame :=
    { slotFrame s i p { slot := n, serial := fieldAt h 0 2, epoch := s.cfg.epoch.toNat, cfg := (stream s i).cfg, record := [] } with
      sensorFrame := fieldAt h 0x12 2
      exposure := fieldAt h 0x14 4
      motion := motionSection s (timeAt h 8) }
  (f, metaRecord s i p f [] [] 9)

/-- LAST hands the slot on as a COMMITTED frame with the stream's next serial. -/
def handOnPlay (i n : Nat) (p : PipeCfg) (s : State) : State :=
  let serial := (stream s i).nextSerial
  let s1 := takeSerial i (fsStamp s i) (startConfig i s)
  let s2 := hbmWrite (ringAddr p n) (leBytes 2 serial ++ leBytes 2 0) (modStream i (fun x => { x with play := none }) s1)
  let (f, rec_) := playRecord s2 i n p
  let ok := !statsOn f.cfg i || statsRoom s2 f.cfg i p serial
  let r : ReadyFrame :=
    { slot := n, serial := serial, epoch := f.epoch, cfg := f.cfg, record := rec_, statsOk := ok
      tnr := if tnrOn f.cfg i then (stream s2 i).lastGood else none
      estGen := (stream s2 i).estGen, tapGen := (stream s2 i).tapGen }
  let s3 := modStream i (fun x => { x with lastGood := some serial }) (clearOverspeed (if ok then s2 else dropStats i s2))
  publishWhole i p f rec_ (handOn i r (noteRecord i serial rec_ s3))

/-- The effect of `PIPE.PLAY`: the bytes are written; at LAST the slot is handed on. -/
def playEffect (c : Cmd) (s : State) : State :=
  match pipeIn s.cfg.committed c.target with
  | none => s
  | some p =>
    match playWritten s c p with
    | none => s
    | some (n, t) =>
      if !bit (fieldAt c.region 0 1) 1 then complete c {} t
      else complete c (okReply (stream t c.target).nextSerial 0) (handOnPlay c.target n p t)

/-- PIPE_PLAY (04 R147). -/
def execPipePlay (r : CmdRef) (s : State) : Host.Outcome State Fault Refusal := .next (runCmd r 0x2006 playCheck playEffect s)

/-! ## BRD_COUNTERS (04 'Counters') -/

/-- The 16 counters of a virtual channel, or of the link for 8. -/
def brdCounterBytes (s : State) (vc : Nat) : List Byte :=
  padTo 64 ((if vc = 8 then s.brd.link else (chan s vc).counters).flatMap (leBytes 4))

/-- CLEAR clears the counters as they are read (00 R8). -/
def clearBrd (vc : Nat) (s : State) : State :=
  if vc = 8 then modBrd (fun b => { b with link := b.link.map fun _ => 0 }) s
  else modChan vc (fun x => { x with counters := x.counters.map fun _ => 0 }) s

/-- Checks of BRD_COUNTERS. -/
def checkBrdCounters (t : State) (c : Cmd) : Option Reply := plainCheck layBrdCounters t c

/-- Effect of BRD_COUNTERS. -/
def effectBrdCounters (c : Cmd) (t : State) : State :=
  let vc := fieldAt c.region 0 1
  complete c { data := brdCounterBytes t vc } (if bit (fieldAt c.region 1 1) 0 then clearBrd vc t else t)

/-- BRD_COUNTERS (04 'Counters'). -/
def execBrdCounters (r : CmdRef) (s : State) : Host.Outcome State Fault Refusal :=
  .next (runCmd r 0x1004 checkBrdCounters effectBrdCounters s)

end Sys2Proof.Machine
end

