-- ==== Sys2Proof/Machine/Ingest.lean ====
section
/-! DEFINITION. Bridle and CSI-2 ingest (04 R119-R155, R160-R164): lanes and the lane map, sparing, and the packets that
open, fill and end frames. -/

namespace Sys2Proof.Machine

/-! ## Lanes (04 R117-R122, R150-R154) -/

/-- Whether a Bridle lane is active (04 R117). -/
def laneActive (s : State) (l : Nat) : Bool := decide (l < 32) && bit (fieldAt (brdBlk s) 0 1) (l / 4)

/-- A Bridle lane. -/
def brdLane (s : State) (l : Nat) : BrdLane := s.brd.lanes.getD l {}

/-- Changes a Bridle lane. -/
def modBrdLane (l : Nat) (g : BrdLane → BrdLane) (s : State) : State := modBrd (fun b => { b with lanes := b.lanes.modify l g }) s

/-- Active lanes that are up. -/
def upLanes (s : State) : List Nat := (List.range 32).filter fun l => laneActive s l && !(brdLane s l).down

/-- `BRD.SPARE` in use. -/
def spareBlk (s : State) : List Byte := (blkIn s.cfg.active 0x1002 0 0).getD (leBytes 20 0)

/-- Whether the marks of the last ALIGN row make a complete map: each logical lane 0 to N − 1 once, and 0xFF on every other
lane that is up (04 R122). -/
def mapComplete (s : State) : Bool :=
  let marks := (upLanes s).map fun l => (brdLane s l).mark
  let n := dataLanes s.cfg.active
  (List.range n).all (fun k => (marks.filter (· == k)).length == 1) && marks.all fun m => m == 0xFF || decide (m < n)

/-- The map that an FS takes: the marks of the lanes, 0xFF on a lane that carries nothing. -/
def takenMap (s : State) : List Nat :=
  (List.range 32).map fun l => if laneActive s l && !(brdLane s l).down then (brdLane s l).mark else 0xFF

/-- The spare takes over where a failed logical lane stands on a lane that was idle before (04 R153); `before` is the map of the
last FS. A failed lane that is back in its place waits for no spare any more. -/
def spareEngages (before : List Nat) (s : State) : State :=
  s.brd.failed.foldl (fun t e =>
    let (k, old) := e
    let rest := modBrd (fun b => { b with failed := b.failed.erase e }) t
    match (List.range 32).find? fun l => t.brd.map.getD l 0xFF == k with
    | some l =>
      if l = old then rest
      else if (before.getD l 0xFF) = 0xFF then raise 65 (unitEvent 0x1003 0x10 0 none (old + 2 ^ 8 * l) (countLink 3 1 rest))
      else t
    | none => t) s

/-- The lane map is taken at an FS (04 R122). -/
def takeMap (s : State) : State := spareEngages s.brd.map (modBrd (fun b => { b with map := takenMap s, mapOk := mapComplete s }) s)

/-- ALIGN_SEQ of an ALIGN row: the value that most lanes carry, the lowest lane's among equals. -/
def rowSeq (s : State) (seqs : List Nat) : Nat :=
  let l := (upLanes s).map fun k => seqs.getD k 0
  l.foldl (fun a v => if l.count a < l.count v then v else a) (l.headD 0)

/-- ALIGN_ROW (04 R119-R121): each active lane whose ALIGN_SEQ matches takes its mark; the others count as ALIGN errors. DESIGN
CHOICE (log 58): a lane that is down takes no mark; once it is up it has its old mark until the next ALIGN row (R151). -/
def execAlignRow (marks seqs : List Nat) (s : State) : Host.Outcome State Fault Refusal :=
  .next (if !enginesClocked s then s
    else
      let q := rowSeq s seqs
      (upLanes s).foldl (fun t l =>
        if seqs.getD l 0 = q then
          modLane l (fun x => { x with locked := true }) (modBrdLane l (fun x => { x with mark := marks.getD l 0xFF }) t)
        else countLink 5 1 t) (modBrd (fun b => { b with alignSeq := some q }) s))

/-- The lane that can take over from a failed one: with SPARES 1, an active lane that carried 0xFF (04 R152). -/
def spareLane (s : State) (failed : Nat) : Option Nat :=
  if fieldAt (spareBlk s) 0 1 = 1 then (upLanes s).find? fun l => l != failed && (brdLane s l).mark == 0xFF else none

/-- The words of the spare script with a logical lane in bits SUBST[6:2] + 4 to SUBST[6:2] of word SUBST[1:0] (04 R152). -/
def spareScript (b : List Byte) (logical : Nat) : List Nat :=
  let w := fieldAt b 2 1 % 4
  let lsb := fieldAt b 2 1 / 4
  (List.range (fieldAt b 1 1)).map fun k =>
    let v := fieldAt b (4 + 4 * k) 4
    if k = w then v - v / 2 ^ lsb % 32 * 2 ^ lsb + logical * 2 ^ lsb else v

/-- The logical lane that a physical lane carries: by the map of the last FS, or where that has none for it by the mark of its
last ALIGN row (04 R122, R152). -/
def logicalOf (s : State) (l : Nat) : Nat :=
  let k := s.brd.map.getD l 0xFF
  if k < 32 then k else (brdLane s l).mark

/-- A lane is declared down: its event and source, the spare script, and LANE_LOSS for the frames whose map holds it
(04 R142, R150, R152). DESIGN CHOICE (log 58): a frame's map is the one formed at the last FS of any channel. -/
def declareDown (l : Nat) (s : State) : State :=
  if !laneActive s l || (brdLane s l).down then s
  else
    let k := logicalOf s l
    let spare := spareLane s l
    let s1 := modLane l (fun x => { x with locked := false, downs := min 255 (x.downs + 1) })
      (modBrdLane l (fun x => { x with down := true }) s)
    let s2 := raise l (unitEvent 0x1001 0x10 0 none (l + 2 ^ 8 * (k % 32) + 2 ^ 16 * b2n spare.isNone) s1)
    if 32 ≤ k then s2
    else
      let s3 := if spare.isNone then s2 else modBrd (fun b => { b with failed := b.failed.filter (·.1 != k) ++ [(k, l)] }) s2
      let s4 := if spare.isSome && fieldAt (spareBlk s) 1 1 != 0 then
          queueScript (fieldAt (brdBlk s) 4 1) { spare := true, words := spareScript (spareBlk s) k, ref := none } s3
        else s3
      if s.brd.map.getD l 0xFF < 32 then (bridleStreams s.cfg.active).foldl (fun t i => retractAll i vLane t) s4 else s4

/-- LANE_DOWN (04 R150): four consecutive invalid sync headers. -/
def execLaneDown (lane_ : Nat) (s : State) : Host.Outcome State Fault Refusal :=
  .next (if enginesClocked s && decide (lane_ < 32) then
    declareDown lane_ (modLane lane_ (fun x => { x with syncErr := min 65535 (x.syncErr + 4) }) s) else s)

/-- DESKEW_FAILURE (04 R121): a lane whose ALIGN_SEQ does not match in 64 block times is declared down; its strand's
source. -/
def execDeskewFailure (lane_ : Nat) (s : State) : Host.Outcome State Fault Refusal :=
  .next (if enginesClocked s && laneActive s lane_ then declareDown lane_ (raise (56 + lane_ / 4) s) else s)

/-- LANE_UP (04 R151): a down lane is up again; it carries data from an FS whose map places it. A loopback keeps the lane's
interface off (15 R523). -/
def execLaneUp (lane_ : Nat) (s : State) : Host.Outcome State Fault Refusal :=
  .next (if enginesClocked s && laneActive s lane_ && (brdLane s lane_).down && !forcedOff s lane_ then
    raise lane_ (unitEvent 0x1002 0x10 0 none lane_
      (modLane lane_ (fun x => { x with locked := true }) (modBrdLane lane_ (fun x => { x with down := false }) s)))
    else s)

/-! ## Opening a frame (04 R122, R131, R142; 05 R197-R200; 06 R204, R211; 14 R488, R504, R505) -/

/-- Whether a channel's next frame is accepted: not in or on the way to a safe state, not beyond the limit of a thermal stop
(03 R93, 17 R573). -/
def accepts (s : State) (c i : Nat) : Bool :=
  enginesClocked s && s.sys.profile != 3 && unitLive s (if c < 8 then 0x10 else 0x11) (if c < 8 then 0 else c - 8) &&
    unitLive s 0x20 i && !(s.thm.stop == 1 && decide (timeNs s.thm.stopAt + 200000000 < nowNs s)) && s.thm.stop != 2

/-- Whether an RT port of a stream's ingest is shed (10 R384): RT0 or RT3, and RT1 for stream 0 in-line. -/
def ingestShed (s : State) (p : PipeCfg) : Bool :=
  if p.source = 2 then portShed s 3 else portShed s 0 || (p.source == 0 && portShed s 1)

/-- The leader's idle control block, on a member of a stripe array. -/
def leaderBlock (s : State) : Option IdleBlock := if isLeader s then none else (Tbl.find? s.tth.blocks 0).map (·.1)

/-- FS_WINDOW_US (14 'TTH.STRIPES'). -/
def fsWindowNs (t : Tbl CfgVal) : Nat := 1000 * fieldAt ((blkIn t 0x8002 0 0).getD []) 0x10 2

/-- An event of the tether for the leader's F0 (14 R506). -/
def tthEvent (code detail : Nat) (s : State) : State := sysEvent code 0x80 0 detail s

/-- An encode session whose frame takes another serial. -/
def renumberSession (old new : Nat) (e : EncSess) : EncSess :=
  let pic (w : EncPic) : EncPic := if w.serial = old ∧ w.verdict = none then { w with serial := new } else w
  { e with waiting := e.waiting.map fun w => if w.serial = old then { w with serial := new } else w
           pics := e.pics.map pic, due := e.due.map pic }

/-- The metadata records, where the frame's has its new SERIAL. -/
def renumberRecord (old new : Nat) (t : Tbl (List Byte)) : Tbl (List Byte) :=
  match Tbl.find? t old with
  | some r => Tbl.set (Tbl.erase t old) new (r.take 6 ++ leBytes 2 new ++ r.drop 8)
  | none => t

/-- A frame of stream 0 takes another serial, with all that its channels and its consumers hold of it (14 R488). -/
def renumber (t : Tbl CfgVal) (old new : Nat) (s : State) : State :=
  let mine : List Nat := match pipeIn t 0 with
    | some p => members p
    | none => []
  let renamed (n : Nat) : Nat := if n = old then new else n
  let taps (l : Tbl TapSlot) : Tbl TapSlot := l.map fun e => if e.2.serial = old ∧ e.2.state = 0 then (e.1, { e.2 with serial := new }) else e
  let s1 := modStream 0 (fun x =>
    { x with nextSerial := (new + 1) % 65536, taps := x.taps.map taps, records := renumberRecord old new x.records })
    (modFrame 0 old (fun f => { f with serial := new }) s)
  let s2 := mine.foldl (fun u c => modChan c (fun x => { x with serial := renamed x.serial, owed := x.owed.map renamed }) u) s1
  let z := groupsOf t 0
  { s2 with
    groups := s2.groups.map fun e => if z.contains e.1 then
      (e.1, { e.2 with work := e.2.work.map fun w => { w with serial := renamed w.serial } }) else e
    cod := { s2.cod with enc := s2.cod.enc.map fun e => match encIn t e.core with
      | some k => if k.source = 0 then renumberSession old new e else e
      | none => e } }

/-- A frame of a stripe stream against the leader's idle control block (14 R488): an FS outside FS_WINDOW_US of the
leader's with the same serial, told once of a frame, or another serial within it. -/
def checkLeader (serial : Nat) (s : State) : State :=
  match leaderBlock s, frameOf s 0 serial with
  | some b, some f =>
    let d := ((timeNs f.time : Int) - timeNs b.fsTime).natAbs
    if !striped f.cfg 0 || !b.running then s
    else if b.serial = serial then
      if d ≤ fsWindowNs f.cfg ∨ bit f.flags 5 then s
      else raise 588 (tthEvent 0x8004 (serial + 2 ^ 16 * s.sys.device) (retract 0 serial vOverrun s))
    else if fsWindowNs f.cfg < d then s
    else raise 588 (tthEvent 0x8005 (s.sys.device + 2 ^ 16 * b.serial + 2 ^ 32 * serial)
      (retract 0 b.serial vOverrun (renumber f.cfg serial b.serial s)))
  | _, _ => s

/-- What the FS payload gives of a frame, from the lowest member (04 R129, R146). -/
def sensorFields (b : List Byte) (f : Frame) : Frame :=
  { f with sensorFrame := fieldAt b 0 2, gainFs := fieldAt b 2 1 % 2, exposure := fieldAt b 4 4, sensorData := (b.drop 8).take 24 }

/-- A channel at the FS of a frame. -/
def openChan (serial gain : Nat) (x : Chan) : Chan :=
  { x with isOpen := true, skip := false, serial := serial, cur := none, lines := 0, pixels := 0, crc := 0xFFFFFFFF
           lastGood := none, lastGain := gain }

/-- The halo rows of a stripe frame that came before its FS (14 R486). -/
def earlyHalos (s : State) (i serial : Nat) : Tbl (List HaloRow) :=
  if i = 0 then s.tth.early.map fun e => (e.1, e.2.filter (·.serial == serial)) else []

/-- Halo rows of earlier serials are of no use any more. -/
def dropEarly (i serial : Nat) (s : State) : State :=
  if i = 0 then { s with tth := { s.tth with early := s.tth.early.map fun e => (e.1, e.2.filter fun h => later h.serial serial) } }
  else s

/-- The frame that an FS opens, before anything is decided about it. -/
def newFrame (s : State) (i : Nat) (p : PipeCfg) (c : Nat) (b : List Byte) : Frame :=
  let x := stream s i
  let stale := !x.blendDone && fieldAt (mergeBlk x.cfg i) 2 1 == 2
  let time := fsStamp s i
  let f : Frame :=
    { serial := x.nextSerial, time := time, epoch := s.cfg.epoch.toNat, cfg := x.cfg, source := p.source, joined := [c]
      lens := x.lens, lensBad := x.lensBad, stale := stale, weights := x.weights, est := x.colEst
      shade := if stale then x.shade else []
      motion := motionSection s time
      tnr := if !tnrOn x.cfg i then none else if p.source = 0 then x.tnrRef else x.lastGood.map fun n => (0, n)
      tnrOut := if tnrOn x.cfg i && p.source == 0 then some (freeTnrSlot s x.cfg p) else none
      estGen := x.estGen, tnrGen := x.tnrGen, tapGen := x.tapGen
      emb := List.replicate (members p).length [], halo := earlyHalos s i x.nextSerial }
  if (members p).head? = some c then sensorFields b f else f

/-- The taps of stream 0 in phase take a slot each; a tap without a free one retracts the frame (06 R224). -/
def openTaps (p : PipeCfg) (serial : Nat) (s : State) : State × Nat :=
  match frameOf s 0 serial with
  | none => (s, 0)
  | some f =>
    let (slots, lacking) := takeTapSlots s f.cfg 0 p serial f.tapGen
    (lacking.foldl (fun t k => raise (108 + k) t)
      (openTapSlots f.cfg 0 serial f.time slots (modFrame 0 serial (fun g => { g with tapSlots := slots }) s)),
     if lacking.isEmpty then 0 else vOverrun)

/-- Statistics of a frame: dropped where the ring has no slot for it. -/
def openStats (i serial : Nat) (p : PipeCfg) (s : State) : State :=
  match frameOf s i serial with
  | none => s
  | some f =>
    if !statsOn f.cfg i || statsRoom s f.cfg i p serial then s
    else dropStats i (modFrame i serial (fun g => { g with colour := g.colour ||| 8 }) s)

/-- What the start of a frame of stream 0 in-line tells and takes (06 R204, R224; 07 R242, R276; 08 R283; 09 R337). -/
def openInline (p : PipeCfg) (serial : Nat) (s : State) : State × Nat :=
  match frameOf s 0 serial with
  | none => (s, 0)
  | some f =>
    let held := decide (depth s.sys.profile ≤ releasedFrames s - 1)
    let marks := tnrMarks f.cfg 0 serial f.tnr
    let s1 := modFrame 0 serial (fun g =>
      { g with held := held, flags := g.flags ||| if held then vHeld else 0, colour := g.colour ||| marks }) s
    let s2 := if held then raise 112 s1 else s1
    let s3 := if marks = 0 then s2 else raise 102 s2
    let s4 := if f.stale then raise 101 s3 else s3
    let (s5, bad) := openTaps p serial (openStats 0 serial p s4)
    (encFrameStarts f ((groupsOf f.cfg 0).foldl (fun t z => zipBegin f.cfg z serial t) s5), bad)

/-- A frame through memory takes a ring slot; with none free it retracts (04 R142, R144). Its statistics record is dropped
where the ring has no slot for it (07 R276). -/
def openSlot (i : Nat) (p : PipeCfg) (serial : Nat) (s : State) : State × Nat :=
  let stale := ((frameOf s i serial).map (·.stale)).getD false
  let s1 := if stale && i == 0 then raise 101 s else s
  let s2 := openStats i serial p s1
  match freeRingSlot s2 i p with
  | some n => (setRing i n 1 (modFrame i serial (fun g => { g with slot := some n }) s2), 0)
  | none => (s2, vOverrun)

/-- Flags that retract a frame at its FS for reasons outside the stream (04 R122, R142; 10 R384; 14 R489, R505). -/
def openFlags (s : State) (i : Nat) (p : PipeCfg) (c serial : Nat) : Nat :=
  let st := (stream s i).cfg
  let peers := peerVerdicts s serial
  (if c < 8 ∧ !s.brd.mapOk then vLane else 0) ||| (if ingestShed s p then vOverrun else 0) |||
    (if striped st i && ((s.tth.retractOnLink && !arrayWhole s) ||
      (haloSides s).any fun side => portShed s (12 + side)) then vOverrun else 0) |||
    (if striped st i then (peers.filter fun e => bit e.2 0).foldl (fun a e => a ||| e.2) 0 else 0)

/-- Opens the next frame of a stream at the FS of a channel; its metadata record begins, and for the Pipe A group the elastic
buffer has drained (04 R146, R155). -/
def openFrame (i : Nat) (p : PipeCfg) (c : Nat) (b : List Byte) (s : State) : State :=
  let f := newFrame s i p c b
  let n := f.serial
  let others := (members p).filter (· != c)
  let s0 := if p.source = 0 then modBrd (fun b => { b with fill := 0 }) s else s
  let s1 := clearOverspeed (takeSerial i f.time (modStream i (fun x => { x with frames := x.frames ++ [f], lensHeld := false }) s0))
  let s2 := others.foldl (fun t d => modChan d (fun x => { x with owed := [n] }) t)
    (modChan c (openChan n (fieldAt b 2 1 % 2)) s1)
  let (s3, bad) := if p.source = 0 then openInline p n s2 else openSlot i p n s2
  let s4 := tellFrozen i n f.lensBad s3
  let flags := bad ||| openFlags s4 i p c n
  let told := if striped (stream s i).cfg i && (peerVerdicts s n).any fun e => bit e.2 0 then raise 590 s4 else s4
  let begun := match frameOf told i n with
    | some g => noteRecord i n (metaRecord told i p g [] [] 8) told
    | none => told
  let s5 := dropEarly i n (if flags = 0 then begun else retract i n flags begun)
  if p.source = 0 then checkLeader n s5 else s5

/-- A member joins the group frame that another member opened (04 R133), with LANE_LOSS where its FS takes an incomplete map
(04 R122, R142); a frame that has gone or retracted leaves its packets to be discarded. -/
def joinFrame (i : Nat) (p : PipeCfg) (c serial : Nat) (b : List Byte) (s : State) : State :=
  let s1 := modChan c (openChan serial (fieldAt b 2 1 % 2)) s
  match frameOf s1 i serial with
  | some f =>
    let s2 := modFrame i serial (fun g =>
      let h : Frame := { g with joined := g.joined ++ [c] }
      if (members p).head? = some c then sensorFields b h else h) s1
    if bit f.flags 0 then modChan c (fun x => { x with skip := true }) (if c < 8 ∧ !s.brd.mapOk then retract i serial vLane s2 else s2)
    else if c < 8 ∧ !s.brd.mapOk then retract i serial vLane s2 else s2
  | none => modChan c (fun x => { x with skip := true }) s1

/-- A channel whose FS is not accepted discards its packets up to the next one. -/
def ignoreFrame (c : Nat) (s : State) : State := modChan c (fun x => { openChan x.serial 0 x with skip := true }) s

/-- Whether a group frame is complete for one member and was never joined by another. -/
def neverJoined (i c : Nat) (f : Frame) : Bool :=
  !f.decided && f.ended.contains c &&
    match framePipe f i with
    | some p => !(members p).all f.joined.contains
    | none => false

/-- At a channel's FS its open frame has no trailer, a retracted one too (04 R142); nor, where the FS opens a frame, has one
that a member never joined (log 41). -/
def closeOpen (i c : Nat) (s : State) : State :=
  let s1 := match openFrameOf s i c with
    | some f => retract i f.serial vNoTrailer s
    | none => s
  if (chan s c).owed.isEmpty then
    ((stream s1 i).frames.filter (neverJoined i c)).foldl (fun t f => retract i f.serial vNoTrailer t) s1
  else s1

/-- The FS of a channel opens a frame: a commit of the array without GO is withdrawn (14 R496), the verdicts that are due are
delivered (01 R23), the units of its stream switch (01 R22), and a Muck-out slice of Pipe A is abandoned (06 R231). -/
def beginFrame (i : Nat) (p : PipeCfg) (c : Nat) (b : List Byte) (s : State) : State :=
  let s0 := if i = 0 then returnUngone s else s
  let s1 := startConfig i (deliverBefore i (if p.source = 0 then abandonSlice 0 s0 else s0))
  match chanStream s1.cfg.active c with
  | some (k, q) => openFrame k q c b s1
  | none => s1

/-- An FS of a channel (04 R131) opens a frame, or joins the one that another member opened. -/
def frameStart (c : Nat) (b : List Byte) (s : State) : State :=
  let s1 := match openStream s c with
    | some (i, _) => closeOpen i c s
    | none => s
  match chanStream s1.cfg.active c with
  | none => s1
  | some (i, p) =>
    match (chan s1 c).owed.head? with
    | some n => joinFrame i p c n b (modChan c (fun x => { x with owed := x.owed.drop 1 }) s1)
    | none => if accepts s1 c i then beginFrame i p c b s1 else ignoreFrame c s1

/-! ## Packets (04 R123-R130) -/

/-- A packet's header (04 R124). -/
structure Hdr where
  type : Nat
  vc : Nat
  eol : Bool
  line : Nat
  gain : Nat
  count : Nat
deriving DecidableEq, Repr

/-- The header of a packet, where its HCRC matches and its TYPE is not reserved (04 R127). -/
def hdrOf (h : List Byte) : Option Hdr :=
  let t := fieldAt h 0 1
  if crc8 (h.take 7) = fieldAt h 7 1 ∧ [1, 2, 3, 4].contains (t % 16) then
    some { type := t % 16, vc := t / 16 % 8, eol := bit t 7, line := fieldAt h 1 2 % 2 ^ 14, gain := fieldAt h 1 2 / 2 ^ 14 % 2
           count := fieldAt h 3 2 }
  else none

/-- Bits of a pixel of a stream (04 R125). -/
def pixelWidth (p : PipeCfg) : Nat := p.bits * p.planes

/-- Bytes that the header gives the payload; unknown for lines of a channel without a stream. -/
def payloadLen (t : Tbl CfgVal) (h : Hdr) : Option Nat :=
  if h.type = 2 then (chanStream t h.vc).map fun e => 8 * cdiv (h.count * pixelWidth e.2) 64 else some (8 * h.count)

/-- Whether a packet passes its CRC and ends where its header puts its EOP (04 R123, R126). -/
def packetOk (t : Tbl CfgVal) (h : Hdr) (p : BrdPacket) : Bool :=
  !p.broken && crc32 (p.hdr ++ p.payload) == p.crc &&
    (match payloadLen t h with
      | some n => n == p.payload.length
      | none => true)

/-- Whether Bridle ingest is clocked (17 R553). -/
def ingestClocked (s : State) : Bool := enginesClocked s && s.sys.profile != 3

/-- The configuration under which a packet of a channel is taken: an FS under the one in use, another packet under that of the frame
it belongs to (01 R22). -/
def packetCfg (s : State) (type c : Nat) : Tbl CfgVal := if type = 1 then s.cfg.active else openCfg s c

/-- A packet of a type: discarded and counted by the link where its header fails, by the link where its channel is disabled,
else checked, counted, and handled where its channel has a stream (04 R127, R132). -/
def takePacket (type : Nat) (p : BrdPacket) (handle : Hdr → Bool → State → State) (s : State) : State :=
  if !ingestClocked s then s
  else match hdrOf p.hdr with
    | none => raise 66 (countLink 0 1 s)
    | some h =>
      if h.type ≠ type then s
      else if !bit (fieldAt (brdIn (packetCfg s type h.vc)) 2 1) h.vc then countLink 1 1 s
      else
        let t := packetCfg s type h.vc
        let ok := packetOk t h p
        let s1 := countChan h.vc 0 1 s
        let s2 := if ok then s1 else raise (40 + h.vc) (countChan h.vc 1 1 s1)
        if (chanStream t h.vc).isNone then raise 67 (countChan h.vc 14 1 s2) else handle h ok s2

/-- FS_PACKET (04 R122, R131): every FS packet takes the lane map; the payload of one with a CRC error is used as received
(log 32). -/
def execFsPacket (p : BrdPacket) (s : State) : Host.Outcome State Fault Refusal :=
  .next (let fs := match hdrOf p.hdr with
      | some h => h.type == 1
      | none => false
    takePacket 1 p (fun h _ t => frameStart h.vc p.payload t) (if fs && ingestClocked s then takeMap s else s))

/-! ## Lines (04 R128, R139-R141) -/

/-- Sets flags of a channel's frame. -/
def flagFrame (i c flags : Nat) (s : State) : State := modFrame i (chan s c).serial (fun f => { f with flags := f.flags ||| flags }) s

/-- Adds to the counts of a channel's frame: 0 short, 1 long, 2 missing, 3 embedded bytes discarded (04 R146). -/
def countFrame (i c k n : Nat) (s : State) : State := modFrame i (chan s c).serial (fun f => { f with counts := addAt k n f.counts }) s

/-- A line joins its channel's lines; lines from the channel's height on are discarded (04 R142). -/
def storeLine (i : Nat) (p : PipeCfg) (c y : Nat) (r : RowRec) (last : Nat) (s : State) : State :=
  if chanHeight (frameCfg s i c) p ≤ y then s
  else modFrame i (chan s c).serial (fun f => { f with parts := Tbl.set f.parts c (Tbl.get [] f.parts c ++ [(r, last)]) }) s

/-- A fill line: a copy of the last good line, or code 0 (04 R140-R142). -/
def fillLine (s : State) (i : Nat) (p : PipeCfg) (c : Nat) : RowRec :=
  { px := (chan s c).lastGood.getD (List.replicate (chanWidth (frameCfg s i c) p) (0, 0)), gain := (chan s c).lastGain, filled := true }

/-- Fills lines from `y` on, `n` of them. -/
def fillLines (i : Nat) (p : PipeCfg) (c : Nat) : Nat → Nat → State → State
  | _, 0, s => s
  | y, n + 1, s => fillLines i p c (y + 1) n (storeLine i p c y (fillLine s i p c) (chan s c).lastGain s)

/-- Pixels of a line at the channel's width: padded with its last pixel or truncated (04 R139). -/
def fitLine (w : Nat) (px : List (Nat × Nat)) : List (Nat × Nat) :=
  px.take w ++ List.replicate (w - px.length) (px.getLastD (0, 0))

/-- Counts a short or long line and raises its source (04 R139, R165). -/
def lineLength (i c n w : Nat) (s : State) : State :=
  if n < w then raise (lineSource c) (countChan c 2 1 (countFrame i c 0 1 s))
  else if w < n then raise (lineSource c) (countChan c 3 1 (countFrame i c 1 1 s))
  else s

/-- Ends the line in progress of a channel; without EOL it is counted (04 R128). -/
def endLine (i : Nat) (p : PipeCfg) (c : Nat) (eol : Bool) (s : State) : State :=
  match (chan s c).cur with
  | none => s
  | some a =>
    let w := chanWidth (frameCfg s i c) p
    let px := fitLine w a.px
    let r : RowRec := { px := px, gain := a.gain, split := a.split, short := decide (a.px.length < w)
                        long := decide (w < a.px.length), crcBad := a.crcBad }
    let s1 := if eol then s else countChan c 15 1 s
    let s2 := lineLength i c a.px.length w s1
    modChan c (fun x => { x with cur := none, lines := a.line + 1, lastGain := a.lastGain
                                 lastGood := if a.crcBad then x.lastGood else some px })
      (storeLine i p c a.line r a.lastGain s2)

/-- Lines that LINE skips are filled, counted as missing, and set CRC_ERR (04 R140). -/
def skipLines (i : Nat) (p : PipeCfg) (c y : Nat) (s : State) : State :=
  let from_ := (chan s c).lines
  if y ≤ from_ then s
  else
    modChan c (fun x => { x with lines := y })
      (countChan c 4 (y - from_) (countFrame i c 2 (y - from_) (flagFrame i c vCrc (fillLines i p c from_ (y - from_) s))))

/-- Starts a line of a channel. -/
def startLine (i : Nat) (p : PipeCfg) (c y gain : Nat) (s : State) : State :=
  modChan c (fun x => { x with cur := some { line := y, px := [], gain := gain, lastGain := gain } }) (skipLines i p c y s)

/-- Pixels of a packet join the line in progress; a packet with another gain code than the row's first splits it
(04 R149). -/
def addPixels (px : List (Nat × Nat)) (gain : Nat) (ok : Bool) (x : Chan) : Chan :=
  { x with cur := x.cur.map fun a =>
      { a with px := a.px ++ px, lastGain := gain, crcBad := a.crcBad || !ok
               split := a.split.or (if gain != a.gain then some a.px.length else none) } }

/-- The pixels that a line packet holds. -/
def packetPixels (p : PipeCfg) (h : Hdr) (b : List Byte) : List (Nat × Nat) :=
  unpackPixels p.bits p.dual (min h.count (8 * b.length / max 1 (pixelWidth p))) (leNat b)

/-- A packet that reaches its EOP counts its pixels and joins the running CRC (04 'Frame checks and verdicts'). -/
def countPixels (c n : Nat) (b : List Byte) (s : State) : State :=
  modChan c (fun x => { x with pixels := x.pixels + n, crc := crc32From x.crc b }) s

/-- A line packet of an open frame (04 R128, R139-R142, R148, R149). One with a lower LINE ends the line in
progress and is discarded. -/
def linePacket (i : Nat) (p : PipeCfg) (h : Hdr) (ok broken : Bool) (b : List Byte) (s : State) : State :=
  let c := h.vc
  let s1 := if broken then s else countPixels c h.count b s
  let old := match (chan s1 c).cur with
    | some a => decide (h.line < a.line)
    | none => decide (h.line < (chan s1 c).lines)
  if old then
    let ended := if (chan s1 c).cur.isSome then advance i (chan s1 c).serial p (endLine i p c false s1) else s1
    raise 67 (countChan c 5 1 (flagFrame i c vCrc ended))
  else
    let same := match (chan s1 c).cur with
      | some a => a.line == h.line
      | none => false
    let s2 := if same then s1 else startLine i p c h.line h.gain (endLine i p c false s1)
    let s3 := modChan c (addPixels (packetPixels p h b) h.gain ok) (if ok then s2 else flagFrame i c vCrc s2)
    let s4 := if p.source = 0 then checkElastic (chan s3 c).serial h.count s3 else s3
    let s5 := if h.eol && (chan s4 c).cur.isSome then endLine i p c true s4 else s4
    let n := (chan s5 c).serial
    let s6 := advance i n p s5
    if p.source = 0 then checkSkew n p s6 else s6

/-- LD_PACKET (04 R128): with no frame open it is discarded and counted as an order error; of a retracted frame it is
discarded. -/
def execLdPacket (p : BrdPacket) (s : State) : Host.Outcome State Fault Refusal :=
  .next (takePacket 2 p (fun h ok t =>
    match openStream t h.vc with
    | none => t
    | some (i, _) =>
      if !(chan t h.vc).isOpen then raise 67 (countChan h.vc 5 1 t)
      else if (chan t h.vc).skip then t
      else match (frameOf t i (chan t h.vc).serial).bind fun f => framePipe f i with
        | some q => linePacket i q h ok p.broken p.payload t
        | none => t) s)

/-! ## The end of a frame (04 R142) -/

/-- Flags of a member frame at its FE that the counts decide (04 R142), and whether they call for retraction. -/
def endFlags (l h tol : Nat) : Nat × Bool :=
  if l + tol < h then (vShort, true)
  else if h + tol < l then (vLong, true)
  else if l < h then (vShort, false)
  else if h < l then (vLong, false)
  else (0, false)

/-- The FE of a channel whose frame has retracted. -/
def endSkipped (i c : Nat) (s : State) : State :=
  modChan c (fun y => { y with isOpen := false }) (modFrame i (chan s c).serial (fun f => { f with ended := f.ended ++ [c] }) s)

/-- A member's frame ends: its last lines are filled, and the frame is decided with its last member; a CRC_ERR that retracts does so
then (04 R136, R142). -/
def endMember (i : Nat) (p : PipeCfg) (c : Nat) (feLines fePixels : Nat) (mismatch : Bool) (s : State) : State :=
  let s1 := endLine i p c false s
  let x := chan s1 c
  let h := chanHeight (frameCfg s i c) p
  let (fl, bad) := endFlags x.lines h p.lineTol
  let s2 := modFrame i x.serial (fun f =>
    { f with flags := f.flags ||| fl ||| (if mismatch then vCrc else 0), ended := f.ended ++ [c], lines := f.lines + x.lines
             feLines := f.feLines + feLines, pixels := f.pixels + x.pixels, fePixels := f.fePixels + fePixels }) s1
  let s3 := modChan c (fun y => { y with isOpen := false }) (if bad then s2 else fillLines i p c x.lines (h - x.lines) s2)
  if bad then retract i x.serial 0 s3
  else
    let s4 := advance i x.serial p s3
    let s5 := if p.source = 0 then checkSkew x.serial p s4 else s4
    match frameOf s5 i x.serial with
    | some f =>
      if f.decided || !(members p).all f.ended.contains then s5
      else if bit f.flags 3 && p.retractCrc then retract i x.serial 0 s5
      else latchLens s5.cfg.committed i (decideFrame i x.serial s5)
    | none => s5

/-- The FE of a Bridle channel against what was received (04 R142); CHECK_FRAME_CRC is FLAGS[0] of `BRD.CONFIGURE`. -/
def feMismatch (t : Tbl CfgVal) (x : Chan) (lines : Nat) (b : List Byte) : Bool :=
  fieldAt b 2 2 != lines || fieldAt b 4 4 != x.pixels || (bit (fieldAt (brdIn t) 0xD 1) 0 && fieldAt b 8 4 != crc32End x.crc)

/-- FE_PACKET (04 R142). -/
def execFePacket (p : BrdPacket) (s : State) : Host.Outcome State Fault Refusal :=
  .next (takePacket 3 p (fun h _ t =>
    let c := h.vc
    match openStream t c with
    | none => t
    | some (i, _) =>
      let x := chan t c
      if !x.isOpen then t
      else if x.skip then endSkipped i c t
      else match (frameOf t i x.serial).bind fun f => framePipe f i with
        | some q =>
          let lines := match x.cur with
            | some a => a.line + 1
            | none => x.lines
          endMember i q c (fieldAt p.payload 2 2) (fieldAt p.payload 4 4) (feMismatch (frameCfg t i c) x lines p.payload) t
        | none => t) s)

/-- TRAILER_TIMEOUT (04 R142): no FE in TRAILER_TIMEOUT_US; a channel number from 8 on names a CSI-2 port. -/
def execTrailerTimeout (vc : Nat) (s : State) : Host.Outcome State Fault Refusal :=
  .next (if !ingestClocked s then s
    else match openStream s vc with
      | some (i, _) => match openFrameOf s i vc with
        | some f => retract i f.serial vNoTrailer s
        | none => s
      | none => s)

/-! ## Embedded data (04 R130) -/

/-- Embedded bytes join a channel's area, up to a limit; the excess is discarded and counted, and an error is marked. -/
def addEmb (i : Nat) (p : PipeCfg) (c limit : Nat) (b : List Byte) (ok : Bool) (s : State) : State :=
  match frameOf s i (chan s c).serial with
  | none => s
  | some f =>
    let k := (members p).idxOf c
    let n := limit - (f.emb.getD k []).length
    let s1 := modFrame i f.serial (fun g => { g with emb := g.emb.modify k (· ++ b.take n), embErr := g.embErr || !ok }) s
    countChan c 13 (b.length - n) (countFrame i c 3 (b.length - n) s1)

/-- EMB_PACKET (04 R130). -/
def execEmbPacket (p : BrdPacket) (s : State) : Host.Outcome State Fault Refusal :=
  .next (takePacket 4 p (fun h ok t =>
    match openStream t h.vc with
    | some (i, q) => if (chan t h.vc).isOpen && !(chan t h.vc).skip then addEmb i q h.vc 4096 p.payload ok t else t
    | none => t) s)

/-! ## CSI-2 ports (04 R160-R164) -/

/-- `CSI.CONFIGURE` of a port, where one is in use. -/
def csiBlk (s : State) (port : Nat) : Option (List Byte) := blkIn s.cfg.active 0x1101 port 0

/-- A short packet of a port's virtual channel goes on; of another it is counted and discarded (04 R162). -/
def csiPacket (port vc : Nat) (g : List Byte → State → State) (s : State) : State :=
  if !ingestClocked s then s
  else match csiBlk s port with
    | none => s
    | some b => if fieldAt b 1 1 = vc then g b (countChan (8 + port) 0 1 s) else countChan (8 + port) 14 1 s

/-- CSI_FS (04 R163): the frame number goes to SENSOR_FRAME. -/
def execCsiFs (port vc frameNo : Nat) (s : State) : Host.Outcome State Fault Refusal :=
  .next (csiPacket port vc (fun _ t => frameStart (8 + port) (leBytes 2 frameNo ++ leBytes 30 0) t) s)

/-- Pixels of a group of a CSI-2 data type: their most significant bytes come first (log 54). -/
def csiGroup (bits : Nat) : Nat := [4, 2, 4, 1].getD ((bits - 10) / 2) 1

/-- Pixel `k` of a CSI-2 payload (04 R160; CSI-2 version 2.1): bits from 8 up in a byte of its own, then the lower bits of the
group's pixels, least significant bit first. -/
def csiPixel (bits : Nat) (b : List Byte) (k : Nat) : Nat :=
  let g := csiGroup bits
  let base := k / g * (g * bits / 8)
  let low := leNat ((b.drop (base + g)).take (g * (bits - 8) / 8))
  fieldAt b (base + k % g) 1 * 2 ^ (bits - 8) + low / 2 ^ ((bits - 8) * (k % g)) % 2 ^ (bits - 8)

/-- The pixels of a CSI-2 payload. -/
def csiPixels (bits n : Nat) (b : List Byte) : List (Nat × Nat) := (List.range n).map fun k => (csiPixel bits b k, 0)

/-- A line of a CSI-2 frame: the long packets of the configured data type are its lines in order (04 R163). -/
def csiLine (i : Nat) (p : PipeCfg) (c : Nat) (b : List Byte) (ok : Bool) (s : State) : State :=
  let n := 8 * b.length / max 1 p.bits
  let y := (chan s c).lines
  let s1 := modChan c (addPixels (csiPixels p.bits n b) 0 ok) (startLine i p c y 0 (countPixels c n b s))
  advance i (chan s1 c).serial p (endLine i p c true (if ok then s1 else flagFrame i c vCrc s1))

/-- A long packet of an open frame. -/
def csiLong (port i : Nat) (q : PipeCfg) (b : List Byte) (p : CsiPacket) (s : State) : State :=
  let c := 8 + port
  if p.dataType = fieldAt b 2 1 then csiLine i q c p.payload p.crcOk s
  else if bit (fieldAt b 3 1) 0 then addEmb i q c (fieldAt b 6 2) p.payload p.crcOk s
  else s

/-- A long packet of the configured virtual channel and of a data type that the port takes: a line of the configured type with
no frame open is an order error (04 R140). -/
def csiData (port : Nat) (b : List Byte) (p : CsiPacket) (s : State) : State :=
  let c := 8 + port
  match openStream s c with
  | none => countChan c 14 1 s
  | some (i, _) =>
    if !(chan s c).isOpen then (if p.dataType = fieldAt b 2 1 then countChan c 5 1 s else s)
    else if (chan s c).skip then s
    else match (frameOf s i (chan s c).serial).bind fun f => framePipe f i with
      | some q => csiLong port i q b p s
      | none => s

/-- CSI_LONG_PACKET (04 R160, R162, R163): an uncorrectable header discards the packet; a packet of another virtual channel or
data type is counted and discarded. -/
def execCsiLongPacket (port : Nat) (p : CsiPacket) (s : State) : Host.Outcome State Fault Refusal :=
  .next (match csiBlk s port with
    | none => s
    | some b =>
      let c := 8 + port
      if !ingestClocked s then s
      else if p.headerLost then
        let s1 := raise (78 + 5 * port) s
        match openStream s1 c with
        | some (i, _) => if (chan s1 c).isOpen && !(chan s1 c).skip then flagFrame i c vCrc s1 else s1
        | none => s1
      else if p.vc ≠ fieldAt b 1 1 ∨ !([fieldAt b 2 1, 0x12].contains p.dataType) then countChan c 14 1 s
      else
        let s1 := countChan c 0 1 s
        csiData port b p (if p.crcOk then s1 else raise (77 + 5 * port) (countChan c 1 1 s1)))

/-- CSI_FE (04 R163): there is no line, pixel or CRC count to compare, and nothing uses its frame number. -/
def execCsiFe (port vc _frameNo : Nat) (s : State) : Host.Outcome State Fault Refusal :=
  .next (csiPacket port vc (fun _ t =>
    let c := 8 + port
    match openStream t c with
    | none => t
    | some (i, _) =>
      let x := chan t c
      if !x.isOpen then t
      else if x.skip then endSkipped i c t
      else match (frameOf t i x.serial).bind fun f => framePipe f i with
        | some q => endMember i q c 0 0 false t
        | none => t) s)

/-- CSI_DPHY_ERROR (04 R164, R165): the port's PHY error source; between FS and FE it retracts the frame with LANE_LOSS. -/
def execCsiDphyError (port : Nat) (s : State) : Host.Outcome State Fault Refusal :=
  .next (if !(ingestClocked s && decide (port < 4)) then s
    else
      let c := 8 + port
      let s1 := raise (80 + 5 * port) s
      match openStream s1 c with
      | some (i, _) => if (chan s1 c).isOpen then retract i (chan s1 c).serial vLane s1 else s1
      | none => s1)

/-- CSI_LS_LE_PACKET (04 R160): line starts and ends carry nothing that the ingest uses; generic short packets are counted and
ignored. DESIGN CHOICE: FLAGS[1] of `CSI.CONFIGURE`, LS/LE required, has no effect, since the spec does not say what a line
without LS or LE does to its frame (log 50). -/
def execCsiLsLePacket (port vc : Nat) (_kind : CsiShort) (_line : Nat) (s : State) : Host.Outcome State Fault Refusal :=
  .next (csiPacket port vc (fun _ t => t) s)

end Sys2Proof.Machine
end

