-- ==== Sys2Proof/Machine/Memory.lean ====
section
/-! DEFINITION. The memory fabric (10): `MEM.HASH` and `MEM.SHED_ORDER`, panic, escalation, shedding and restoration of the
real-time ports, and the stacks' temperature and ECC. -/

namespace Sys2Proof.Machine

/-! ## MEM_HASH and MEM_SHED_ORDER (10 R369, R379, R386) -/

/-- Offsets of masks that set a bit outside [35:20]; DEFAULTS ignores the masks (10 R367, R369). -/
def hashFaults (b : List Byte) : List Nat :=
  if bit (fieldAt b 0x50 1) 0 then []
  else ((List.range 10).filter fun k => fieldAt b (8 * k) 8 % 2 ^ 20 != 0 || decide (2 ^ 36 ≤ fieldAt b (8 * k) 8)).map (8 * ·)

/-- Whether nothing names HBM: no buffer, no coding session (10 R369). -/
def hbmUnused (s : State) : Bool := (namedBuffers s).isEmpty && s.cod.enc.isEmpty && s.cod.dec.isEmpty

/-- Checks of MEM_HASH. -/
def checkMemHash (t : State) (c : Cmd) : Option Reply :=
  stagedCheck layMemHash 0 (cfgKey 0x5001 0 0) (hashFaults c.region) none (need (hbmUnused t) busy) t c

/-- Effect of MEM_HASH. -/
def effectMemHash (c : Cmd) (t : State) : State :=
  stageCmd layMemHash 0 (cfgKey 0x5001 0 0) c t

/-- MEM_HASH (10 R369). -/
def execMemHash (r : CmdRef) (s : State) : Host.Outcome State Fault Refusal :=
  .next (runCmd r 0x5001 checkMemHash effectMemHash s)

/-- Relations of `MEM.SHED_ORDER` (10 R386, 'MEM.SHED_ORDER'). -/
def shedFaults (b : List Byte) : List Nat :=
  let order := (b.take 16).map (·.toNat)
  faultIf (!(order.dedup.length == 16)) 0 ++ faultIf (order.getD 14 0 != 1) 14 ++ faultIf (order.getD 15 0 != 0) 15 ++
    faultIf (decide (fieldAt b 0x12 1 < fieldAt b 0x11 1 + 6)) 0x11

/-- Checks of MEM_SHED_ORDER. -/
def checkMemShedOrder (t : State) (c : Cmd) : Option Reply :=
  let key := cfgKey 0x5002 0 0
  let v := valOf layMemShed c 0
  inOrder t c (blockFault layMemShed c.region (shedFaults c.region ++ bufferFaults t c.opcode key c.region))
    (firstFail [ceilingDenied (settled t) (settled (stagePut c.fn key v t)), admitStaged t c.fn key v]) none none

/-- Effect of MEM_SHED_ORDER. -/
def effectMemShedOrder (c : Cmd) (t : State) : State :=
  stageCmd layMemShed 0 (cfgKey 0x5002 0 0) c t

/-- MEM_SHED_ORDER (10 R379, R386): a ceiling below the guarantees is denied by admission. -/
def execMemShedOrder (r : CmdRef) (s : State) : Host.Outcome State Fault Refusal :=
  .next (runCmd r 0x5002 checkMemShedOrder effectMemShedOrder s)

/-! ## The real-time ports (10 R374, R380) -/

/-- Buffer of a port in KiB. -/
def portKib (k : Nat) : Nat := [1024, 2048, 1024, 256, 256, 256, 256, 256, 512, 512, 512, 512, 512, 512, 16, 256].getD k 256

/-- Whether a port reads: scan-out and transmit flows. -/
def portReads (k : Nat) : Bool := decide (4 ≤ k) && decide (k ≤ 9)

/-- A port. -/
def rtPort (s : State) (k : Nat) : RtPort := s.fabric.ports.getD k {}

/-- Changes a port. -/
def modRt (k : Nat) (g : RtPort → RtPort) (s : State) : State :=
  { s with fabric := { s.fabric with ports := s.fabric.ports.modify k g } }

/-- Changes the fabric. -/
def modFabric (g : Fabric → Fabric) (s : State) : State := { s with fabric := g s.fabric }

/-- How far a fill is towards danger, in hundredths of KiB: the fill of a write port, the room of a read port. -/
def danger (k fill : Nat) : Nat := 100 * if portReads k then portKib k - fill else fill

/-- Panic and the critical state of a port at a fill; panic ends 6 points back on the safe side (10 R380). -/
def judgePort (b : List Byte) (k fill : Nat) (x : RtPort) : RtPort :=
  let pct := fieldAt b 0x11 1
  let d := danger k fill
  { x with fill := fill
           panic := decide (pct * portKib k ≤ d) || (x.panic && decide ((pct - 6) * portKib k < d))
           critical := decide (fieldAt b 0x12 1 * portKib k ≤ d) }

/-- Whether any port is in panic. -/
def anyPanic (s : State) : Bool := s.fabric.ports.any (·.panic)

/-- Whether Pipe A writes anything back: a tap or its TNR buffer (10 R374). -/
def writesAny (t : Tbl CfgVal) : Bool :=
  match pipeIn t 0 with
  | some p => (List.range 4).any (writesBack p) || tnrOn t 0
  | none => false

/-- Whether a session exports statistics (09 R345). -/
def encStatsOn (t : Tbl CfgVal) (core : Nat) : Bool := ((blkIn t 0x4005 core 0).map fun b => bit (fieldAt b 2 1) 0).getD false

/-- Whether a head reads pictures: a plane of it, or of its pair, is enabled (10 R374, 12 R426). -/
def headReads (t : Tbl CfgVal) (h : Nat) : Bool :=
  let of := if h = 1 ∧ pairIn t then 0 else h
  headOn t h && (List.range 4).any fun k => ((planeIn t of k).map (·.enable)).getD false

/-- The units that a port serves, by class and instance, as far as they are ownable (10 R374, R385; log 42). -/
def portUnits (s : State) (k : Nat) : List (Nat × Nat) :=
  let t := s.cfg.active
  let inline := (sourced t 0).any (·.1 == 0)
  let pipe : List (Nat × Nat) := [(0x20, 0)]
  let encoders (more : EncSess → Bool) := (s.cod.enc.filter fun x => more x && match encIn t x.core with
    | some e => e.source == 0
    | none => false).map fun x => (0x40, x.core)
  match k with
  | 0 => if (sourced t 0 ++ sourced t 1).isEmpty then [] else [(0x10, 0)]
  | 1 => (if writesAny t then pipe else []) ++ if inline then (groupsOf t 0).map fun z => (0x30, z) else []
  | 2 => encoders fun _ => true
  | 3 => (sourced t 2).map fun e => (0x11, e.2.index)
  | 14 => ((List.range 2).filter fun a => (blkIn t 0x3201 a 0).isSome).map fun a => (0x32, a)
  | 15 => (if inline && statsOn t 0 then pipe else []) ++ encoders fun x => encStatsOn t x.core
  | _ =>
    if k < 8 then (if headReads t (k - 4) then [(0x60, k - 4)] else [])
    else if k < 12 then
      (if (List.range 32).any fun f => match flowIn t (k % 2) f with
          | some x => decide (x.kind < 8) == decide (k < 10)
          | none => false then [(0x70, k % 2)] else [])
    else []

/-- Whether what goes from one device to another crosses the link of a tether port. -/
def routeCrosses (s : State) (port a b : Nat) : Bool :=
  let lo := if port = 0 then s.sys.device - 1 else s.sys.device
  decide (min a b ≤ lo) && decide (lo < max a b)

/-- Whether a port has configured traffic (10 R381); a tether port while routes or stripes use its link. -/
def portUsed (s : State) (k : Nat) : Bool :=
  if k = 12 ∨ k = 13 then
    (routesOf s.cfg.active).any (fun r => routeCrosses s (k - 12) r.2.1.1 r.2.2.1) || (striped s.cfg.active 0 && (haloSides s).contains (k - 12))
  else !(portUnits s k).isEmpty

/-- An event of a port goes to the owner of each unit that it serves, and to F0 where none is ownable (10 R385). -/
def portEvent (code k detail : Nat) (s : State) : State :=
  match portUnits s k with
  | [] => sysEvent code 0x50 0 detail s
  | l => l.foldl (fun t u => unitEvent code u.1 u.2 none detail t) s

/-! ## What a shed or overflowing port costs (10 R384) -/

/-- The in-line frames that are not decided retract with OVERRUN; with another SOURCE the frame in Pipe A will not be
written back. -/
def failWriteBack (s : State) : State :=
  if (sourced s.cfg.active 0).any (·.1 == 0) then retractAll 0 vOverrun s
  else if s.pipes.getD 0 none = some 0 then
    modStream 0 (fun x => { x with ready := x.ready.modify 0 fun f => { f with unwritten := true } }) s
  else s

/-- The statistics records of the pictures that in-line sessions work on are dropped (09 R345). -/
def dropEncStats (s : State) : State :=
  s.cod.enc.foldl (fun t x => modEnc x.id (fun y =>
    { y with pics := y.pics.map fun p =>
        if p.coded.isNone && (((encIn p.cfg y.core).map (·.source)) == some 0) then { p with noStats := true } else p }) t) s

/-- A tether port that carries nothing retracts the frames of a stripe array (06 R211, 14 R504). -/
def stripesLose (k : Nat) (s : State) : State :=
  if striped s.cfg.active 0 ∧ (haloSides s).contains (k - 12) then retractAll 0 vOverrun s else s

/-- An in-line session drops the picture that its cores work on, as under 09 R351. -/
def dropPicture (x : EncSess) (s : State) : State :=
  match encIn s.cfg.active x.core, x.pics.find? fun p => p.coded.isNone with
  | some e, some p =>
    if (p.enc x e).source ≠ 0 then s
    else
      tryClose x.id (raise (195 + 12 * x.core) (unitEvent 0x4005 0x40 x.core (some p.serial) p.serial
        (modEnc x.id (fun y => { restore p (p.rate x e) (p.enc x e) y with gap := true }) s)))
  | _, _ => s

/-- The statistics of the frame in progress of stream 0 are dropped and counted. -/
def dropInlineStats (s : State) : State :=
  match ((stream s 0).frames.filter fun f => !bit f.flags 0 && !bit f.colour 3).getLast? with
  | some f =>
    if f.source = 0 ∧ statsOn f.cfg 0 then dropStats 0 (modFrame 0 f.serial (fun g => { g with colour := g.colour ||| 8 }) s) else s
  | none => s

/-- The packets of the frames in progress of the kind 1 flows of a network port do not leave (13 R469; log 42). -/
def stopFrames (p : Nat) (s : State) : State :=
  modNet p (fun n => { n with flows := n.flows.map fun y => { y with stopped := y.stopped || decide (y.sent < y.total) } }) s

/-- What the frame, picture or packet in progress of a port suffers; `cause` is that of a head's fallback (12 R437). -/
def portFails (k cause : Nat) (s : State) : State :=
  match k with
  | 0 => (bridleStreams s.cfg.active).foldl (fun t i => retractAll i vOverrun t) s
  | 1 => failWriteBack s
  | 2 => s.cod.enc.foldl (fun t x => dropPicture x t) s
  | 3 => (sourced s.cfg.active 2).foldl (fun t e => retractAll e.1 vOverrun t) s
  | 14 => { s with tdm := s.tdm.map fun x => { x with restart := true } }
  | 15 => dropEncStats (dropInlineStats s)
  | _ =>
    if 4 ≤ k ∧ k ≤ 7 then (if headReads s.cfg.active (k - 4) then fallBack (k - 4) cause s else s)
    else if k = 12 ∨ k = 13 then stripesLose k s
    else if k = 8 ∨ k = 9 then stopFrames (k - 8) s
    else if k = 10 ∨ k = 11 then raise (528 + 8 * (k - 10) + 6) (countAt (k - 10) 14 1 s)
    else s

/-! ## Escalation (10 R381, R382, R385) -/

/-- `EV_MEM_ESCALATION` to F0, and its source. -/
def tellEscalation (n : Nat) (s : State) : State :=
  raise 352 (sysEvent 0x5001 0x50 0 (n + 2 ^ 8 * s.fabric.scale + 2 ^ 16 * panicMask s) s)

/-- Step 1: BE grants stop and the shed order is latched. -/
def escalate (s : State) : State :=
  tellEscalation 1 (modFabric (fun f =>
    { f with step := 1, beStopped := true, since := s.tick, lastShed := none
             order := ((shedBlk s.cfg.active).take 16).map (·.toNat) }) s)

/-- Step 2: the GR scale falls by 25 points. -/
def lowerScale (s : State) : State := tellEscalation 2 (modFabric (fun f => { f with step := 2, scale := f.scale - 25 }) s)

/-- The next port to shed: the first of the order with configured traffic that is not shed; none after RT0 (10 R381, R382). -/
def nextShed (s : State) : Option Nat :=
  if portShed s 0 then none else s.fabric.order.find? fun k => portUsed s k && !portShed s k

/-- Sheds a port (10 R384, R385). -/
def shedPort (k : Nat) (s : State) : State :=
  let detail := k + 2 ^ 4 * s.fabric.order.idxOf k + 2 ^ 8 * s.fabric.scale + 2 ^ 16 * panicMask s
  let s1 := modFabric (fun f => { f with step := 3, lastShed := some s.tick }) (modRt k (fun x => { x with shed := true, due := false }) s)
  portFails k 1 (raise 352 (raise (336 + k) (portEvent 0x5003 k detail s1)))

/-- With S at 0 % and a critical port, the next port is shed. -/
def shedNext (s : State) : State :=
  match nextShed s with
  | some k => if s.fabric.scale = 0 ∧ s.fabric.ports.any (·.critical) then shedPort k s else s
  | none => s

/-- ESC_STEP in ns. -/
def escStepNs (s : State) : Nat := 1000 * fieldAt (shedBlk s.cfg.active) 0x13 1

/-- Whether ESC_STEP has passed since the last port was shed. -/
def mayShed (s : State) : Bool := match s.fabric.lastShed with
  | none => true
  | some t => decide (escStepNs s ≤ (s.tick - t) * 16 / 5)

/-- What a change of the ports brings at once: step 1 with two ports in panic, or the next port shed. -/
def portsChanged (s : State) : State :=
  if s.fabric.step = 0 then (if 2 ≤ (s.fabric.ports.filter (·.panic)).length then escalate s else s)
  else if mayShed s then shedNext s
  else s

/-- PORT_PANIC (10 R380, R381): a port's fill, by which it enters or leaves panic and the critical state. -/
def execPortPanic (port fillKib : Nat) (s : State) : Host.Outcome State Fault Refusal :=
  .next (if !(enginesClocked s && decide (port < 16)) then s
    else
      let s1 := modRt port (judgePort (shedBlk s.cfg.active) port (min fillKib (portKib port))) s
      let s2 := if (rtPort s1 port).panic && !(rtPort s port).panic then raise (320 + port) s1 else s1
      portsChanged s2)

/-- MEM_ESCALATION (10 R381): ESC_STEP has passed with a port in panic; the fabric takes its next step. -/
def execMemEscalation (s : State) : Host.Outcome State Fault Refusal :=
  .next (if !(enginesClocked s && anyPanic s) then s
    else if s.fabric.step = 0 then escalate s
    else if s.fabric.scale ≠ 0 then shedNext (lowerScale s)
    else shedNext s)

/-- MEM_RECOVERED (10 R383): no port has been in panic for RECOVER_US; shed ports wait for their restoration. -/
def execMemRecovered (s : State) : Host.Outcome State Fault Refusal :=
  .next (if !enginesClocked s || anyPanic s || s.fabric.step == 0 then s
    else
      let us := cdiv ((s.tick - s.fabric.since) * 16) 5000
      raise 353 (sysEvent 0x5002 0x50 0 (us % 2 ^ 32) (modFabric (fun f =>
        { f with step := 0, scale := 100, beStopped := false, order := [], lastShed := none
                 ports := f.ports.map fun x => { x with due := x.shed } }) s)))

/-- RT_RESTORED (10 R383): a shed port is restored at its unit's next frame boundary, RT14 at the next word-clock frame. The
spec gives no DETAIL (log 42). -/
def execRtRestored (port : Nat) (s : State) : Host.Outcome State Fault Refusal :=
  .next (if !(enginesClocked s && (rtPort s port).due) then s
    else
      let s1 := modRt port (fun x => { x with shed := false, due := false }) s
      let s2 := if port = 14 then { s1 with tdm := s1.tdm.map fun x => { x with restart := true } }
        else if port = 12 ∨ port = 13 then [2, 3, 4].foldl (fun t cls => tthResend (port - 12) cls t) s1
        else s1
      raise (336 + port) (portEvent 0x5004 port (draw s (2 ^ 64 - 1)) (bump s2)))

/-- RT_BUFFER_OVERFLOW (10 R384): a port's buffer overflows or runs empty without being shed. -/
def execRtBufferOverflow (port : Nat) (s : State) : Host.Outcome State Fault Refusal :=
  .next (if enginesClocked s && decide (port < 16) && !portShed s port then portFails port 2 s else s)

/-! ## Temperature and errors of the stacks (10 R371, R390) -/

/-- MEM_HOT (10 R371): a stack reads above 85 °C and its refresh is doubled. -/
def execMemHot (stack : Nat) (s : State) : Host.Outcome State Fault Refusal :=
  .next (if !enginesClocked s || decide (2 ≤ stack) || s.fabric.hot.getD stack false then s
    else raise (354 + stack) (sysEvent 0x5005 0x50 0 stack (modFabric (fun f => { f with hot := f.hot.set stack true }) s)))

/-- MEM_HOT_CLEARED (10 R371). -/
def execMemHotCleared (stack : Nat) (s : State) : Host.Outcome State Fault Refusal :=
  .next (if enginesClocked s then modFabric (fun f => { f with hot := f.hot.set stack false }) s else s)

/-- MEM_ECC (10 R390): an error that on-die ECC corrected, or could not correct; the pseudo-channel names the stack. -/
def execMemEcc (pc row : Nat) (corrected : Bool) (s : State) : Host.Outcome State Fault Refusal :=
  .next (if !(enginesClocked s && decide (pc < 64)) then s
    else
      raise ((if corrected then 356 else 358) + pc / 32)
        (sysEvent 0x5006 0x50 0 (pc + 2 ^ 16 * (row % 2 ^ 14) + if corrected then 0 else 2 ^ 31) s))

end Sys2Proof.Machine
end

