-- ==== Sys2Proof/Machine/Motion.lean ====
section
/-! DEFINITION. Motion feedback (16): samples of the Hall, sin/cos and SSI inputs, broken inputs, standstill, the
Hall-interpolating observer, probes, and the commands of class MOT. -/

namespace Sys2Proof.Machine

/-! ## Commands (16 R548, R549) -/

/-- Relations of `MOT.CONFIGURE` (16 'Commands', R548). -/
def motFaults (b : List Byte) : List Nat :=
  faultIf (decide (fieldAt b 0xA 2 ≤ fieldAt b 8 2)) 8 ++
  faultIf (fieldAt b 0 1 == 3 &&
    decide (5 * fieldAt b 0xE 1 * fieldAt b 6 2 < (fieldAt b 3 1 + 1) * 1000 + fieldAt b 0xF 1 * fieldAt b 6 2)) 0

/-- Checks of MOT_CONFIGURE. -/
def checkMotConfigure (t : State) (c : Cmd) : Option Reply :=
  stagedCheck layMotConfigure 0 (cfgKey 0x9001 c.target 0) (motFaults c.region) none none t c

/-- Effect of MOT_CONFIGURE. -/
def effectMotConfigure (c : Cmd) (t : State) : State :=
  stageCmd layMotConfigure 0 (cfgKey 0x9001 c.target 0) c t

/-- MOT_CONFIGURE (16 R548, R549). -/
def execMotConfigure (r : CmdRef) (s : State) : Host.Outcome State Fault Refusal :=
  .next (runCmd r 0x9001 checkMotConfigure effectMotConfigure s)

/-- Checks of `MOT.OBSERVER`: the axis is a Hall axis in the resulting configuration (16 'Commands'). -/
def observerCheck (s : State) (c : Cmd) : Option Reply :=
  inOrder s c (firstFail [blockFault layMotObserver c.region [], need (motType (resulting s) c.target == 1) (badParam 0)])
    (admitStaged s c.fn (cfgKey 0x9002 c.target 0) (valOf layMotObserver c 0)) none none

/-- Effect of MOT_OBSERVER. -/
def effectMotObserver (c : Cmd) (t : State) : State :=
  stageCmd layMotObserver 0 (cfgKey 0x9002 c.target 0) c t

/-- MOT_OBSERVER (16 R540). -/
def execMotObserver (r : CmdRef) (s : State) : Host.Outcome State Fault Refusal :=
  .next (runCmd r 0x9002 observerCheck effectMotObserver s)

/-- The 32 bytes of `MOT.READ` (16 'Commands'). -/
def motRecord (s : State) (a : Nat) : List Byte :=
  let x := axis s a
  leBytes 4 (unsigned 32 x.p) ++ speedBytes x.speed ++ leBytes 2 x.lens ++ leBytes 2 (motFlags s a) ++
    x.counters.flatMap (leBytes 4) ++ leBytes 4 (unsigned 32 x.probeP)

/-- Checks of MOT_READ. -/
def checkMotRead (t : State) (c : Cmd) : Option Reply := plainCheck layFlags t c

/-- Effect of MOT_READ. -/
def effectMotRead (c : Cmd) (t : State) : State :=
  complete c { data := motRecord t c.target }
    (if bit (fieldAt c.region 0 1) 0 then modAxis c.target (fun x => { x with counters := [0, 0, 0, 0] }) t else t)

/-- MOT_READ (16 'Commands', 00 R8). -/
def execMotRead (r : CmdRef) (s : State) : Host.Outcome State Fault Refusal :=
  .next (runCmd r 0x9003 checkMotRead effectMotRead s)

/-! ## Angles -/

/-- A 32-bit count that wraps (16 R530). -/
def wrapP (v : Int) : Int := signed 32 (unsigned 32 v)

/-- A difference of angle codes, from -32,768 to 32,767. -/
def wrap16 (v : Int) : Int := signed 16 (unsigned 16 v)

/-- Moves an axis to an angle: P takes the value with that change nearest to it (16 R534, R540, R541). -/
def toAngle (n : Nat) (x : Axis) : Axis := { x with p := wrapP (x.p + wrap16 ((n : Int) - x.angle)), angle := n }

/-- The Hall states of the sectors 0 to 5 (16 R531). -/
def hallStates (b : List Byte) : List Nat := if bit (fieldAt b 1 1) 0 then [5, 4, 6, 2, 3, 1] else [1, 3, 2, 6, 4, 5]

/-- The boundary b_k (16 R531). -/
def boundary (b : List Byte) (k : Nat) : Nat := (fieldAt b 0x10 2 + (k % 6) * 65536 / 6) % 65536

/-- The angle that an unlocked axis reports: the centre of its sector (16 R541). -/
def centre (b : List Byte) (k : Nat) : Nat := (boundary b k + 5461) % 65536

/-- e, with 16 fractional bits: the way from θ̂ to the nearer end of the sector, 0 inside it (16 R540). -/
def observerError (b : List Byte) (x : Axis) : Int :=
  let lo : Int := boundary b x.sector * 65536
  let width : Int := ((boundary b (x.sector + 1) + 65536 - boundary b x.sector) % 65536 : Nat) * 65536
  let rel := (x.theta - lo) % 2 ^ 32
  if rel ≤ width then 0 else if rel - width ≤ 2 ^ 32 - rel then width - rel else 2 ^ 32 - rel

/-- The way of an unlocked Hall axis since its last sample, once it enters sector k: from centre to centre (16 R541). -/
def turnedTo (b : List Byte) (locked : Bool) (k : Nat) (x : Axis) : Int :=
  if locked then x.turned else x.turned + wrap16 ((centre b k : Int) - centre b x.sector)

/-- Moves a Hall axis to an angle by the way that its sectors have taken: whole turns count at sector wraps (16 R541). -/
def toSector (n : Nat) (x : Axis) : Axis :=
  { x with p := wrapP (x.p + x.turned + wrap16 ((n : Int) - x.angle - x.turned)), angle := n, turned := 0 }

/-- Moves a locked Hall axis to the θ̂ that a sample gives, not yet taken modulo a turn: each wrap is a whole turn (16 R540). -/
def toTheta (th : Int) (x : Axis) : Axis :=
  { x with theta := th % 2 ^ 32, p := wrapP (x.p + (th / 65536 - x.angle)), angle := (th % 2 ^ 32 / 65536).toNat }

/-! ## Events -/

/-- An event of an axis, whose DETAIL holds the axis in [57:56]; none in the safe state (16 R547, R550). -/
def motEvent (code a detail : Nat) (s : State) : State :=
  if safeOf s (myUnit s 0x90 a) = 2 then s else unitEvent code 0x90 a none (detail + 2 ^ 56 * a) s

/-- Source i of an axis (16 R551). -/
def motSource (a i : Nat) (s : State) : State := raise (592 + 6 * a + i) s

/-- Adds to a saturating counter of an axis: 0 ILLEGAL_STATES, 1 BAD_SAMPLES, 2 LOCK_LOSSES, 3 PROBES. -/
def motCount (i : Nat) (x : Axis) : Axis := { x with counters := x.counters.modify i fun v => min (v + 1) 0xFFFFFFFF }

/-! ## Samples (16 R528-R541) -/

/-- Speed of a Hall axis (16 R538). -/
def hallSpeed (locked : Bool) (x : Axis) : Int :=
  if x.still then 0
  else if locked then x.omega * 200000 / 65536
  else if x.period = 0 then 0 else x.edgeDir * ((65536 * 1000000000 / (6 * x.period) : Nat) : Int)

/-- A sample of a Hall axis whose input is not broken (16 R540, R541). -/
def hallSample (b o : List Byte) (obs : Bool) (x : Axis) : Axis :=
  if obs && x.locked then
    let e := observerError b x
    let th := if x.still then x.theta + e else x.theta + x.omega + e * fieldAt o 2 2 / 65536
    let om := if x.still then 0 else x.omega + e * fieldAt o 4 2 / 65536
    let run := if (fieldAt o 0 2 : Int) * 65536 < e.natAbs then x.lockRun + 1 else 0
    let y := toTheta th { x with omega := om, lockRun := run }
    { y with speed := hallSpeed true y }
  else
    let y := toSector (centre b x.sector) x
    { y with speed := hallSpeed false y }

/-- A good or bad sample in the runs of R535 to R537: bad samples are counted. -/
def runs (bad : Bool) (x : Axis) : Axis :=
  if bad then motCount 1 { x with badRun := x.badRun + 1, goodRun := 0 }
  else { x with badRun := 0, goodRun := x.goodRun + 1 }

/-- Position history, speed and the end of standstill of a sin/cos or SSI axis (16 R538, R539). -/
def tracked (b : List Byte) (x : Axis) : Axis :=
  let d := wrapP (x.p - x.history.getD 63 0)
  let moved := decide (1 < (wrapP (x.p - x.stillRef)).natAbs)
  { x with history := (x.p :: x.history).take 64
           still := x.still && !moved
           stillRef := if moved then x.p else x.stillRef
           speed := if x.still && !moved then 0 else d * 200000 / (64 * (fieldAt b 0xE 1 : Int)) }

/-- Whether the amplitude of a sin/cos sample is bad (16 R535). -/
def ampBad (b : List Byte) (i : MotInput) : Bool :=
  let q := i.sin * i.sin + i.cos * i.cos
  decide (q < (fieldAt b 8 2 : Int) ^ 2) || decide ((fieldAt b 0xA 2 : Int) ^ 2 < q)

/-- Whether a broken input does not resume with this sample: its 64th good one in a row is the first that counts (16 R537). -/
def staysBroken (y : Axis) : Bool := y.broken && decide (y.goodRun < 64)

/-- Whether a good sin/cos sample is an OVERSPEED one (16 R534); one that resumes is none. -/
def overspeedNow (bad : Bool) (code : Nat) (x : Axis) : Bool :=
  !bad && !x.broken && decide (16384 < (wrap16 ((code : Int) - x.angle)).natAbs)

/-- A sin/cos sample with the angle code that the converter gave; the one that resumes takes the period count nearest to the
last good position and is no OVERSPEED sample (16 R534, R535, R537). -/
def sinSample (b : List Byte) (bad : Bool) (code : Nat) (x : Axis) : Axis :=
  let y := runs bad x
  if bad || staysBroken y then tracked b y
  else if x.broken then tracked b (toAngle code y)
  else tracked b (toAngle code { y with overspeed := x.overspeed || overspeedNow bad code x })

/-- The number that the bits of an SSI read give, in Gray code where FLAGS[1] is set (16 R536). -/
def ssiValue (gray : Bool) (v : Nat) : Nat :=
  if gray then (List.range 32).foldl (fun a k => a ^^^ (v / 2 ^ k)) 0 else v

/-- Whether an SSI read is bad (16 R536). -/
def ssiBad (b : List Byte) (i : MotInput) : Bool := !i.ssiIdleHigh || (bit (fieldAt b 1 1) 4 && i.ssiError)

/-- An SSI read (16 R536). -/
def ssiSample (b : List Byte) (i : MotInput) (x : Axis) : Axis :=
  let bad := ssiBad b i
  let y := runs bad x
  if bad || staysBroken y then tracked b y
  else tracked b { y with p := wrapP (x.offset + ssiValue (bit (fieldAt b 1 1) 1) (i.ssiData % 2 ^ fieldAt b 3 1)) }

/-- The angle code of a sin/cos sample, within 4 codes of atan2 (16 R534, 00 R649). -/
def angleCode (s : State) (i : MotInput) : Nat := (atan2Code i.sin i.cos + draw s 8 + 65532) % 65536

/-- An axis after a commit that restarts it (16 R549). -/
def restartAxis (b : List Byte) (x : Axis) : Axis :=
  let y : Axis := { hall := x.hall, unref := true, counters := x.counters, probeP := x.probeP }
  match (hallStates b).findIdx? (· == x.hall) with
  | some k => { y with sector := k, angle := centre b k }
  | none => { y with angle := centre b 0 }

/-- Whether two blocks of `MOT.CONFIGURE` differ in a field that restarts the axis (16 R549). -/
def axisRestarts (old new : List Byte) : Bool := old.take 0x14 != new.take 0x14

/-- A commit of an axis takes effect at its next sample; the good positions before it no longer count (16 R545, R549). -/
def switchAxis (a : Nat) (s : State) : State :=
  let mine (k : Nat) : Bool := k == cfgKey 0x9001 a 0 || k == cfgKey 0x9002 a 0
  let old := motBlk s.cfg.active a
  let oldO := obsBlk s.cfg.active a
  let s1 := switchKeys mine s
  let new := motBlk s1.cfg.active a
  let newO := obsBlk s1.cfg.active a
  if axisRestarts old new || oldO != newO then modAxis a (fun x => restartAxis new x) s1
  else if old != new then modAxis a (fun x => { x with goodLens := none }) s1 else s1

/-- What a sample tells beyond the axis's own state: source 4 at the end of standstill, source 5 for an OVERSPEED sample or
a bad SSI read (16 R551). -/
def sampleSources (a : Nat) (old new : Axis) (faulty : Bool) (s : State) : State :=
  let s1 := if old.still && !new.still then motSource a 4 s else s
  if faulty then motSource a 5 s1 else s1

/-- Whether an SSI axis reads its encoder at this instant, and the axis as it counts instants (16 R528). -/
def ssiTurn (b : List Byte) (x : Axis) : Bool × Axis :=
  if x.wait = 0 then (true, { x with wait := fieldAt b 0xE 1 - 1 }) else (false, { x with wait := x.wait - 1 })

/-- One sample of one axis. -/
def sampleAxis (a : Nat) (i : MotInput) (s0 : State) : State :=
  let s := switchAxis a s0
  let b := motBlk s.cfg.active a
  let typ := fieldAt b 0 1
  let turn := if typ = 3 then ssiTurn b (axis s a) else (true, axis s a)
  let x := turn.2
  if typ = 0 then s
  else if !turn.1 then modAxis a (fun _ => x) s
  else
    let y :=
      if typ = 1 then
        let y0 := if x.illegal.isSome then { x with goodRun := 0 } else { x with goodRun := x.goodRun + 1 }
        if staysBroken y0 then y0 else hallSample b (obsBlk s.cfg.active a) (observes s.cfg.active a) y0
      else if typ = 2 then sinSample b (ampBad b i) (angleCode s i) x
      else ssiSample b i x
    let z := { y with lens := lensOf b y.p, stamp := timeNs (stampTime s (50 + a) 0) }
    let s1 := modAxis a (fun _ => z) (if typ = 2 then bump s else s)
    let faulty := (typ == 2 && overspeedNow (ampBad b i) (angleCode s i) x) || (typ == 3 && ssiBad b i)
    sampleSources a x z faulty (if motGood s1 a then modAxis a (fun w => { w with goodLens := some w.lens }) s1 else s1)

/-- MOTION_SAMPLE (16 R528): all four axes sample at one instant. -/
def execMotionSample (inputs : List MotInput) (s : State) : Host.Outcome State Fault Refusal :=
  .next (if enginesClocked s then
    (List.range 4).foldl (fun t a => sampleAxis a (inputs.getD a ⟨0, 0, false, 0, false⟩) t) s else s)

/-! ## Hall edges (16 R531-R533, R542) -/

/-- A count of consistent edges after an edge to an adjacent state (16 R542). -/
def countEdge (tol : Nat) (dir : Int) (period : Nat) (x : Axis) : Axis :=
  let close := decide ((period : Int) - x.period ≤ x.period * tol / 100) && decide ((x.period : Int) - period ≤ x.period * tol / 100)
  let run := if x.edgeRun = 0 ∨ dir ≠ x.edgeDir then 1
    else if x.edgeRun = 1 then 2
    else if close then x.edgeRun + 1 else 1
  { x with edgeRun := run }

/-- A change to a legal state (16 R533, R542). -/
def legalEdge (b o : List Byte) (a k clock : Nat) (s : State) : State :=
  let x := axis s a
  let diff := (k + 6 - x.sector) % 6
  let locked := observes s.cfg.active a && x.locked
  let period := match x.lastEdge with
    | some e => (clock - e) * 40
    | none => 0
  let s1 := if x.still then motSource a 4 s else s
  if diff = 0 then modAxis a (fun y => { y with illegal := none }) s
  else if diff = 1 ∨ diff = 5 then
    let dir : Int := if diff = 1 then 1 else -1
    modAxis a (fun y =>
      let z := if observes s.cfg.active a && !y.locked then countEdge (fieldAt o 6 1) dir period y else y
      { z with hall := (hallStates b).getD k 0, sector := k, illegal := none, still := false, edgeDir := dir
               period := period, lastEdge := some clock, turned := turnedTo b locked k y }) s1
  else
    motSource a 5 (modAxis a (fun y =>
      { y with hall := (hallStates b).getD k 0, sector := k, illegal := none, still := false, edgeRun := 0, lastEdge := some clock
               turned := turnedTo b locked k y }) s1)

/-- Entry into an illegal state (16 R532). -/
def illegalEdge (a hall : Nat) (s : State) : State :=
  if (axis s a).illegal = some hall then s
  else
    let s1 := modAxis a (fun x => motCount 0 { x with illegal := some hall, edgeRun := 0, goodRun := 0 }) s
    motSource a 0 (motEvent 0x9001 a (hall + 2 ^ 32 * motFlags s1 a) s1)

/-- HALL_EDGE (16 R531): a filtered change of the Hall inputs, timed in feedback clocks of 40 ns. -/
def execHallEdge (axis_ hall clock : Nat) (s : State) : Host.Outcome State Fault Refusal :=
  .next (
    let b := motBlk s.cfg.active axis_
    if !(enginesClocked s && fieldAt b 0 1 == 1 && decide (axis_ < 4)) then s
    else match (hallStates b).findIdx? (· == hall) with
      | some k => legalEdge b (obsBlk s.cfg.active axis_) axis_ k clock s
      | none => illegalEdge axis_ hall s)

/-! ## Broken inputs (16 R532, R535-R537) -/

/-- An input is declared broken (16 R537). -/
def breakInput (a : Nat) (s : State) : State :=
  let s1 := modAxis a (fun x => { x with broken := true, goodRun := 0 }) s
  motSource a 1 (motEvent 0x9002 a (2 ^ 32 * motFlags s1 a) s1)

/-- HALL_ILLEGAL_TIMEOUT (16 R532): the inputs have stayed illegal for 1 ms. -/
def execHallIllegalTimeout (axis_ : Nat) (s : State) : Host.Outcome State Fault Refusal :=
  .next (if enginesClocked s && (axis s axis_).illegal.isSome && !(axis s axis_).broken && motType s.cfg.active axis_ == 1 then
    breakInput axis_ s else s)

/-- INPUT_BROKEN (16 R535, R536): CONFIRM consecutive bad samples or reads. -/
def execInputBroken (axis_ : Nat) (s : State) : Host.Outcome State Fault Refusal :=
  .next (if enginesClocked s && !(axis s axis_).broken && decide (2 ≤ motType s.cfg.active axis_) &&
      decide (fieldAt (motBlk s.cfg.active axis_) 2 1 ≤ (axis s axis_).badRun) then breakInput axis_ s else s)

/-- INPUT_RESTORED (16 R537): 64 consecutive good samples. -/
def execInputRestored (axis_ : Nat) (s : State) : Host.Outcome State Fault Refusal :=
  .next (if enginesClocked s && (axis s axis_).broken && decide (64 ≤ (axis s axis_).goodRun) then
    let s1 := modAxis axis_ (fun x =>
      { x with broken := false, goodRun := 0, unref := x.unref || motType s.cfg.active axis_ == 2 }) s
    motSource axis_ 1 (motEvent 0x9002 axis_ (1 + 2 ^ 32 * motFlags s1 axis_) s1) else s)

/-! ## Observer and standstill (16 R539-R542) -/

/-- OBSERVER_LOST (16 R541): the error has exceeded LOCK_THRESH for 4 consecutive samples. -/
def execObserverLost (axis_ : Nat) (s : State) : Host.Outcome State Fault Refusal :=
  .next (if enginesClocked s && observes s.cfg.active axis_ && (axis s axis_).locked && decide (4 ≤ (axis s axis_).lockRun) then
    let b := motBlk s.cfg.active axis_
    let s1 := modAxis axis_ (fun x =>
      let y := toSector (centre b x.sector) { (motCount 2 x) with locked := false, lockRun := 0, edgeRun := 0 }
      { y with speed := hallSpeed false y, lens := lensOf b y.p }) s
    motSource axis_ 2 (motEvent 0x9003 axis_ (unsigned 32 (axis s1 axis_).p + 2 ^ 32 * motFlags s1 axis_) s1) else s)

/-- The boundary that the last edge crossed (16 R542). -/
def crossed (b : List Byte) (x : Axis) : Nat := if x.edgeDir = 1 then boundary b x.sector else boundary b (x.sector + 1)

/-- OBSERVER_REGAINED (16 R542): the sixth edge of a count. -/
def execObserverRegained (axis_ : Nat) (s : State) : Host.Outcome State Fault Refusal :=
  .next (if enginesClocked s && observes s.cfg.active axis_ && !(axis s axis_).locked && decide (6 ≤ (axis s axis_).edgeRun) then
    let b := motBlk s.cfg.active axis_
    let s1 := modAxis axis_ (fun x =>
      toSector (crossed b x) { x with locked := true, lockRun := 0, edgeRun := 0, theta := crossed b x * 65536
                                      omega := x.edgeDir * ((2 ^ 32 * 5000 / (6 * x.period) : Nat) : Int) }) s
    motSource axis_ 2 (motEvent 0x9004 axis_ (unsigned 32 (axis s1 axis_).p + 2 ^ 32 * motFlags s1 axis_) s1) else s)

/-- STANDSTILL (16 R539): STANDSTILL_MS without an edge or a change. -/
def execStandstill (axis_ : Nat) (s : State) : Host.Outcome State Fault Refusal :=
  .next (if enginesClocked s && motType s.cfg.active axis_ != 0 && !(axis s axis_).still then
    motSource axis_ 4 (modAxis axis_ (fun x => { x with still := true, speed := 0, edgeRun := 0 }) s) else s)

/-! ## Probes (16 R544) -/

/-- P at a probe edge: extrapolated from the last sample at the current speed. -/
def probeP (x : Axis) (clocks : Nat) : Int := wrapP (x.p + x.speed * (40 * clocks) / 1000000000)

/-- MOT_PROBE (16 R544): an edge `clocks` feedback clocks after the last sample. -/
def execMotProbe (axis_ : Nat) (rising : Bool) (clocks : Nat) (s : State) : Host.Outcome State Fault Refusal :=
  .next (
    let b := motBlk s.cfg.active axis_
    let x := axis s axis_
    let p := probeP x clocks
    let sets := bit (fieldAt b 1 1) 3 && motGood s axis_
    let shift := signed 32 (fieldAt b 0x1C 4) - p
    if !(enginesClocked s && fieldAt b 0 1 != 0) || bit (fieldAt b 1 1) 2 == rising then s
    else
      let s1 := modAxis axis_ (fun y =>
        let z := motCount 3 { y with probeP := p }
        if sets then { z with p := wrapP (z.p + shift), offset := z.offset + shift, unref := false } else z) s
      motSource axis_ 3 (motEvent 0x9005 axis_ (unsigned 32 p + 2 ^ 32 * motFlags s1 axis_) s1))

end Sys2Proof.Machine
end

