-- ==== Sys2Proof/Machine/Safe.lean ====
section
/-! DEFINITION. Safe states (03 R93, R95): what a unit that reaches its safe state does, and what its consumers are told. -/

namespace Sys2Proof.Machine

/-! ## Consumers (03 R95) -/

/-- The units, by class and instance, that consume a pipe stream. -/
def streamConsumers (s : State) (i : Nat) : List (Nat × Nat) :=
  let t := s.cfg.active
  ((groupsOf t i).map fun z => (0x30, z)) ++
    ((s.cod.enc.filter fun x => match encIn t x.core with
      | some e => e.stream == i
      | none => false).map fun x => (0x40, x.core)) ++
    ((List.range 4).filter fun h => (List.range 2).any fun k => match planeIn t h k with
      | some x => x.enable && x.source == 0 && x.stream == i
      | none => false).map (fun h => (0x60, h)) ++
    ((List.range 2).filter fun p => (List.range 32).any fun f => match flowIn t p f with
      | some x => (x.kind == 1 || x.kind == 3) && x.stream == i
      | none => false).map fun p => (0x70, p)

/-- The unit that consumes a queue, where it is ownable. -/
def queueConsumer (s : State) (q : Nat) : List (Nat × Nat) :=
  let x := queue s q
  if x.configured && (classUnits x.cons.1).isSome then [x.cons] else []

/-- The heads that show a decode session of a core. -/
def decodeHeads (s : State) (core : Nat) : List (Nat × Nat) :=
  ((List.range 4).filter fun h => (List.range 2).any fun k => match planeIn s.cfg.active h k with
    | some x => x.enable && x.source == 1 && match decSession s x.stream with
        | some d => d.core == core
        | none => false
    | none => false).map fun h => (0x60, h)

/-- The last serial that a capture group has put in its ring. -/
def groupLast (s : State) (z : Nat) : Nat := ((group s z).entries.getLast?.map (·.serial)).getD 0

/-- The consumers of a unit, each with the last frame serial delivered to it; units that deliver no frames, pictures or packets
have none. DESIGN CHOICE (log 50): the consumer of a relay channel or of a session is the unit that reads its OUT_QUEUE, not
the queue; for decode sessions and queues, which have no frame serial, the number is 0 (03 R95). -/
def consumers (s : State) (cls inst : Nat) : List ((Nat × Nat) × Nat) :=
  let t := s.cfg.active
  match cls with
  | 0x10 => (bridleStreams t).map fun i => ((0x20, i), (stream s i).lastSerial)
  | 0x11 => ((sourced t 2).filter fun e => e.2.index == inst).map fun e => ((0x20, e.1), (stream s e.1).lastSerial)
  | 0x20 => (streamConsumers s inst).map fun u => (u, (stream s inst).lastSerial)
  | 0x30 =>
    if inst < 14 then
      ((if s.recorder.state != 0 && bit s.recorder.zmask inst then [(0x31, 0)] else []) ++
        ([14, 15].filter fun r => isRelay t r && fieldAt (zipBlk t r) 0xC 1 == inst).map fun r => (0x30, r)).map
          fun u => (u, groupLast s inst)
    else if isRelay t inst then
      (queueConsumer s (fieldAt (zipBlk t inst) 0xE 2)).map fun u => (u, groupLast s (fieldAt (zipBlk t inst) 0xC 1))
    else []
  | 0x40 =>
    (s.cod.enc.filter (·.core == inst)).flatMap (fun x => match encIn t x.core with
      | some e => (queueConsumer s e.queue).map fun u => (u, x.lastCoded.getD 0)
      | none => []) ++ (decodeHeads s inst).map fun u => (u, 0)
  | 0x51 => (queueConsumer s inst).map fun u => (u, 0)
  | _ => []

/-- `EV_SOURCE_STOPPED` to each consumer that another function owns (03 R95). DESIGN CHOICE (log 50): CLASS, UNIT and
BIND_EPOCH of the event are those of the stopped unit. -/
def tellConsumers (cls inst : Nat) (s : State) : State :=
  let u := myUnit s cls inst
  (consumers s cls inst).foldl (fun t c =>
    let f := ownerOf s (myUnit s c.1.1 c.1.2)
    if f = ownerOf s u then t else bindEvent 0x0203 f ⟨s.sys.device, cls, inst⟩ (epochOf s u) c.2 t) s

/-! ## What a unit does (03 R93) -/

/-- The safe state of a unit's class: triggers stop, relays flush, the recorder closes its chunk, sessions hold whole pictures
only, a queue is flushed, an engine is not steered. The other classes are held back where they act: a head shows its fallback
colour from its next frame on (12 R437). -/
def enterSafe (cls inst : Nat) (s : State) : State :=
  match cls with
  | 0x10 => modBrd (fun b => { b with trigs := b.trigs.map fun x => { x with mode := 0, scriptDue := 0 } }) s
  | 0x20 => modStream inst endTnr s
  | 0x30 => if isRelay s.cfg.active inst then relayFlushed inst s else s
  | 0x31 => stopRecorder 3 s
  | 0x40 => { s with cod := { s.cod with enc := s.cod.enc.map fun x => if x.core = inst then { x with waiting := [] } else x } }
  | 0x51 => if (queue s inst).configured then flushQueue inst s else s
  | 0x71 => dropSteer inst s
  | _ => s

/-- A unit reaches its safe state. -/
def reachSafe (u : Nat) (s : State) : State :=
  let r := unitRef u
  tellConsumers r.cls r.inst (enterSafe r.cls r.inst { s with bind := { s.bind with safe := Tbl.set s.bind.safe u 2 } })

/-- A member tells the leader, which holds ownership, that a unit has reached its safe state (02 R52, log 44). -/
def tellSafe (u : Nat) (s : State) : State :=
  if isLeader s then s else tthSend 0 2 (.groom (.safeReached (unitRef u))) 0 false s

/-- SAFE_STATE_REACHED (03 R93, R95): a unit of this device that was sent to its safe state reaches it. -/
def execSafeStateReached (unit : UnitRef) (s : State) : Host.Outcome State Fault Refusal :=
  .next (match unitKey unit.device unit.cls unit.inst with
    | some u => if groomOn s && unit.device == s.sys.device && safeOf s u == 1 then tellSafe u (reachSafe u s) else s
    | none => s)

end Sys2Proof.Machine
end

