-- ==== Sys2Proof/Machine/Power.lean ====
section
/-! DEFINITION. Power and heat (17): meters and cap throttle, snubs, the thermal model and its actions, the thermal stop, fuses,
and the commands of class PWR. -/

namespace Sys2Proof.Machine

/-- Whether AON works: not while it is in reset, and not after a hard trip (17 R559; 18 R584). -/
def aonOn (s : State) : Bool := s.sys.phase != .tripped && s.sys.phase != .held

/-- An interrupt source with an event for F0 (17 R582); neither while the Groom is gated (log 46). -/
def tellF0 (source code detail : Nat) (s : State) : State := if groomOn s then raise source (sysEvent code 0xA0 0 detail s) else s

/-! ## Meters and the cap (17 R557-R560) -/

/-- CAP_WINDOW_MS in samples. -/
def windowSamples (s : State) : Nat := 10 * fieldAt (limitsBlk s.cfg.active) 8 4

/-- Mean of some numbers, rounded down; 0 of none. -/
def meanOf (l : List Nat) : Nat := l.sum / max 1 l.length

/-- Device power of the samples of the window, added up. -/
def windowPower (s : State) : Nat := (s.pwr.window.map List.sum).sum

/-- Mean device power over the window in mW, rounded down. -/
def meanPower (s : State) : Nat := meanOf (s.pwr.window.map List.sum)

/-- The effective cap in mW (17 R557). -/
def capMw (s : State) : Nat := effectiveCap s.cfg.active s.sys.profile

/-- Changes the power state. -/
def modPwr (g : Pwr → Pwr) (s : State) : State := { s with pwr := g s.pwr }

/-- POWER_METER_SAMPLE (17 R559, R560): the 24 meters are sampled; a mean over the cap enters cap throttle. -/
def execPowerMeterSample (mw : List Nat) (s : State) : Host.Outcome State Fault Refusal :=
  .next (if !(aonOn s && mw.length == 24) then s
    else
      let s1 := modPwr (fun x => { x with meters := mw, window := (mw :: x.window).take (windowSamples s) }) s
      let cap := capMw s * s1.pwr.window.length
      let low := decide (100 * windowPower s1 < 95 * cap)
      let s2 := modPwr (fun x => { x with below := if low then x.below + 1 else 0 }) s1
      if cap < windowPower s1 ∧ !s.pwr.throttle then
        tellF0 621 0xA001 (meanPower s1 % 2 ^ 32 + 2 ^ 32) (modPwr (fun x => { x with throttle := true }) s2)
      else s2)

/-- CAP_THROTTLE_LEAVE (17 R560): the mean has stayed below 95 % of the cap for CAP_WINDOW_MS. -/
def execCapThrottleLeave (s : State) : Host.Outcome State Fault Refusal :=
  .next (if aonOn s && s.pwr.throttle && decide (windowSamples s ≤ s.pwr.below) then
    tellF0 621 0xA001 (meanPower s % 2 ^ 32) (modPwr (fun x => { x with throttle := false }) s) else s)

/-! ## Snubbing (17 R561-R565) -/

/-- The snub threshold in 0.25 %: SNUB_THRESH, or the profile's default (17 R552). -/
def snubThreshold (t : Tbl CfgVal) (profile : Nat) : Nat :=
  let v := fieldAt (limitsBlk t) 0 1
  if v = 0 then [16, 20, 20, 32].getD profile 20 else v

/-- SNUB_HYST in 0.25 %. -/
def snubHyst (t : Tbl CfgVal) : Nat := fieldAt (limitsBlk t) 1 1

/-- A domain. -/
def domain (s : State) (n : Nat) : Droop := s.pwr.droops.getD n {}

/-- Changes a domain. -/
def modDomain (n : Nat) (g : Droop → Droop) (s : State) : State := modPwr (fun x => { x with droops := x.droops.modify n g }) s

/-- The number of the 10 ms interval in progress. -/
def interval10ms (s : State) : Nat := s.tick / 3125000

/-- The counts of the interval are those of interval `k`. -/
def inInterval (k : Nat) (d : Droop) : Droop :=
  if d.interval = k then d
  else { d with interval := k, previous := if d.interval + 1 = k then d.entries else 0, entries := 0, told := false }

/-- A domain enters stage 1, or droops beyond T where it stretches no clock: it is counted, and told once an interval. -/
def countSnub (n : Nat) (s : State) : State :=
  let free := decide (10 ≤ n)
  let s1 := modDomain n (fun d =>
    let e := inInterval (interval10ms s) d
    { e with count := min 0xFFFFFFFF (e.count + 1), entries := e.entries + 1 }) s
  let d := domain s1 n
  let s2 := if groomOn s1 then raise (if free then 623 else 622) s1 else s1
  if d.told then s2
  else
    let detail := n + 2 ^ 8 * (d.previous % 2 ^ 23) + 2 ^ 31 * b2n free
    let s3 := if groomOn s2 then sysEvent 0xA002 0xA0 0 detail s2 else s2
    modDomain n (fun e => { e with told := true }) s3

/-- The stage that a droop calls for: above 2T stage 2, above T at least stage 1 (17 R561). -/
def stageOf (t v stage : Nat) : Nat := if 2 * t < v then 2 else if t < v then max 1 stage else stage

/-- DROOP_SAMPLE (17 R561, R564): a domain's droop in 0.25 %. -/
def execDroopSample (domain_ droop : Nat) (s : State) : Host.Outcome State Fault Refusal :=
  .next (if !(aonOn s && decide (domain_ < 24)) then s
    else
      let t := snubThreshold s.cfg.active s.sys.profile
      let d := domain s domain_
      let s1 := modDomain domain_ (fun x =>
        { x with v := droop, stage := if domain_ < 10 then stageOf t droop x.stage else x.stage }) s
      let enters := if domain_ < 10 then d.stage == 0 && decide (t < droop) else decide (d.v ≤ t) && decide (t < droop)
      if enters then countSnub domain_ s1 else s1)

/-- SNUB_STAGE_EXIT (17 R562): 64 consecutive cycles with the droop below the stage's threshold less the hysteresis. -/
def execSnubStageExit (domain_ : Nat) (s : State) : Host.Outcome State Fault Refusal :=
  .next (
    let t := snubThreshold s.cfg.active s.sys.profile
    let h := snubHyst s.cfg.active
    let d := domain s domain_
    if !aonOn s then s
    else if d.stage = 2 ∧ d.v + h < 2 * t then modDomain domain_ (fun x => { x with stage := 1 }) s
    else if d.stage = 1 ∧ d.v + h < t then modDomain domain_ (fun x => { x with stage := 0 }) s
    else s)

/-! ## The thermal model (17 R566-R570) -/

/-- Changes the thermal state. -/
def modThm (g : Thm → Thm) (s : State) : State := { s with thm := g s.thm }

/-- Place of a pair of nodes among the 66 conductances. -/
def pairIndex (i j : Nat) : Nat :=
  let a := min i j
  let b := max i j
  a * 11 - a * (a - 1) / 2 + (b - a - 1)

/-- The parameters of the model: those of the board table, or of Hjela's built-in model (17 R567, R568). -/
def heatCapacity (s : State) (i : Nat) : Nat :=
  if s.thm.builtin then Config.thermalC i else fieldAt (thermalSection s.sys.tableUsed) (4 * i) 4
/-- Conductance between two nodes in mW/K. -/
def conductance (s : State) (i j : Nat) : Nat :=
  if s.thm.builtin then Config.thermalG (pairIndex i j) else fieldAt (thermalSection s.sys.tableUsed) (0x30 + 4 * pairIndex i j) 4
/-- Conductance of a node to ambient in mW/K. -/
def toAmbient (s : State) (i : Nat) : Nat :=
  if s.thm.builtin then Config.thermalGA i else fieldAt (thermalSection s.sys.tableUsed) (0x138 + 4 * i) 4
/-- Share of a meter at a node in 1/256. -/
def mapShare (s : State) (n i : Nat) : Nat :=
  if s.thm.builtin then Config.thermalMap n i else fieldAt (thermalSection s.sys.tableUsed) (0x168 + 12 * n + i) 1
/-- Node of a diode. -/
def diodeNode (s : State) (k : Nat) : Nat :=
  if s.thm.builtin then Config.thermalDiodeNode k % 10 else fieldAt (thermalSection s.sys.tableUsed) (0x288 + k) 1

/-- A node's temperature after an update (17 R566); powers in mW, capacities in mJ/K. -/
def nodeStep (s : State) (i : Nat) : Rat :=
  let ti := s.thm.nodes.getD i 0
  let p : Rat := (((List.range 24).map fun n => s.pwr.meters.getD n 0 * mapShare s n i).sum : Nat) / 256
  let flow : Rat := (((List.range 12).filter (· != i)).map fun j => (conductance s i j : Rat) * (s.thm.nodes.getD j 0 - ti)).sum
  ti + (p + flow + (toAmbient s i : Rat) * (s.thm.tAmb - ti)) / 10000 / (max 1 (heatCapacity s i) : Nat)

/-- The mean of the two diodes (17 R569). -/
def diodeMean (s : State) : Rat := (s.thm.diodes.getD 0 0 + s.thm.diodes.getD 1 0) / 2

/-! ## Thermal actions (17 R571-R578) -/

/-- The commits and the profile that the stop finds scheduled complete with `ST_DEVICE_STOPPED`; their images return
(17 R573). -/
def stopCommits (s : State) : State :=
  let s1 := (waitingCommits s).reverse.foldl (fun t x =>
    let t1 := returnImage x (dropSched x.ref t)
    match schedCmd t1 x with
    | some c => complete c { status := 0x70 } t1
    | none => t1) s
  match s1.sys.profileReq with
  | none => s1
  | some (r, _, _, _) =>
    let s2 : State := { s1 with sys := { s1.sys with profileReq := none } }
    match findCmd s2 r with
    | some c => complete c { status := 0x70 } s2
    | none => s2

/-- `EV_THM_STOP` to every function, and its source (17 R573, R582). -/
def tellStop (done : Bool) (s : State) : State :=
  if !groomOn s then s
  else
    raise 618 (((List.range 16).filter (fnExists s)).foldl (fun t f =>
      postEvent f { code := 0xA005, cls := 0xA0, device := s.sys.device, time := eventTime f s
                    detail := b2n done + 2 ^ 16 * q88 (usedTj s) } t) s)

/-- The device enters STOPPING with a stop signal, and its heads show their fallback colour (17 R573, 12 R437). -/
def stopAtSignal (t : Time) (s : State) : State :=
  if s.thm.stop ≠ 0 then s
  else [0, 1, 2, 3].foldl (fun u h => if headOn u.cfg.active h then fallBack h 3 u else u) <|
    tellStop false (modThm (fun x => { x with stop := 1, stopAt := t, cooled := false })
    (modRec (fun x => { x with cutoff := if x.state = 0 then none else some (nsTime (timeNs t + 200000000)) }) s))

/-- A device at 110 °C enters STOPPING; in a stripe array the leader gives every device the same stop signal (17 R577). -/
def beginStop (s : State) : State :=
  if s.thm.stop ≠ 0 ∨ !groomOn s then s
  else
    let t := now s
    let s1 := stopAtSignal t s
    if striped s1.cfg.active 0 then (if isLeader s1 then tthBroadcast 2 (.stopSignal t) s1 else tthSend 0 2 (.stopSignal t) 0 false s1)
    else s1

/-- A state with an entering and a leaving temperature: whether it holds now. -/
def holdsAt (enter leave t : Rat) (was : Bool) : Bool := if was then decide (leave ≤ t) else decide (enter ≤ t)

/-- WARN and THROTTLE at the temperature used. -/
def judgeWarm (s : State) : State :=
  let t := usedTj s
  let w := holdsAt 100 97 t s.thm.warn
  let h := holdsAt 105 102 t s.thm.hot
  let s1 := if w = s.thm.warn then s
    else tellF0 616 0xA003 (q88 t + 2 ^ 16 * b2n w) (modThm (fun x => { x with warn := w }) s)
  if h = s.thm.hot then s1 else tellF0 617 0xA004 (q88 t + 2 ^ 16 * b2n h) (modThm (fun x => { x with hot := h }) s1)

/-- In STOPPED, AON takes HBM out of self-refresh once the modelled Tj is below 90 °C, and ungates the Groom (17 R575). -/
def judgeCool (s : State) : State :=
  if s.thm.stop = 2 ∧ !s.thm.cooled ∧ modelTj s < 90 then
    modThm (fun x => { x with cooled := true }) { s with sys := { s.sys with selfRefresh := false } }
  else s

/-- The thermal actions at the present temperatures (17 R571). -/
def judgeThermal (s : State) : State :=
  let s1 := judgeWarm s
  if 110 ≤ usedTj s1 then beginStop s1 else judgeCool s1

/-- THERMAL_MODEL_UPDATE (17 R566, R571). -/
def execThermalModelUpdate (s : State) : Host.Outcome State Fault Refusal :=
  .next (if aonOn s then judgeThermal (modThm (fun x => { x with nodes := (List.range 12).map (nodeStep s) }) s) else s)

/-- A hard trip gates everything but AON and asserts THM_TRIP_N (17 R578). -/
def hardTrip (s : State) : State :=
  modThm (fun x => { x with tripLow := true }) { s with sys := { s.sys with phase := .tripped, ready := false, linkUp := false } }

/-- DIODE_READ (17 R570, R578): a diode's reading in quarters of a degree; 118 °C is a hard trip. -/
def execDiodeRead (diode : Nat) (quarterDeg : Int) (s : State) : Host.Outcome State Fault Refusal :=
  .next (if !(decide (diode < 2)) then s
    else
      let t : Rat := (quarterDeg : Rat) / 4
      let s1 := modThm (fun x => { x with diodes := x.diodes.set diode t }) s
      if !aonOn s then s1 else if 118 ≤ t then hardTrip s1 else judgeThermal s1)

/-- How far a diode lies from its node. -/
def diodeGap (s : State) (k : Nat) : Rat := |s.thm.diodes.getD k 0 - s.thm.nodes.getD (diodeNode s k) 0|

/-- MODEL_DRIFT_CHECK (17 R570). -/
def execModelDriftCheck (s : State) : Host.Outcome State Fault Refusal :=
  .next (if !aonOn s then s
    else
      let d := if s.thm.drift then decide (3 < diodeGap s 0) || decide (3 < diodeGap s 1)
        else decide (5 < diodeGap s 0) || decide (5 < diodeGap s 1)
      if d = s.thm.drift then s
      else
        let detail := q88 (modelTj s) + 2 ^ 16 * q88 (s.thm.diodes.getD 0 0) + 2 ^ 32 * q88 (s.thm.diodes.getD 1 0) + 2 ^ 48 * b2n d
        judgeThermal (tellF0 620 0xA007 detail (modThm (fun x => { x with drift := d }) s)))

/-! ## The end of a stop (17 R573; 08 R323; 10 R387) -/

/-- The queue packet of an end of sequence NAL unit after the last picture of a session (17 R573, log 46). -/
def endOfSequence (s : State) (x : EncSess) (e : EncCfg) : List Byte :=
  let rtp := (rateIn s.cfg.active x.core e).rtp
  let nal : List Byte := [0x48, 0x01]
  let b := if rtp then nal else annexB nal
  leBytes 2 (x.lastCoded.getD 0) ++ leBytes 1 (b2n rtp) ++ leBytes 1 2 ++ leBytes 4 (rtpTs (now s)) ++ leBytes 4 b.length ++
    leBytes 2 x.id ++ leBytes 2 0 ++ b

/-- An encode session ends its bitstream. -/
def endStream (x : EncSess) (s : State) : State :=
  match encIn s.cfg.active x.core with
  | some e =>
    let p := endOfSequence s x e
    pumpSession x e.queue (modEnc x.id (fun y => { stopSession e.source y with packets := y.packets ++ [p] }) s)
  | none => s

/-- Every unit of the device reaches its safe state. -/
def allSafe (s : State) : State :=
  (List.range 187).foldl (fun t k =>
    let u := s.sys.device * 256 + k
    if safeOf t u = 2 then t else reachSafe u t) s

/-- The end of retention entry (10 R387; 18 R586, R593): HBM in self-refresh, the record written with the key-hash fuse, the
queues of the SSDs deleted (log 36). -/
def enterRetention (valid : Bool) (s : State) : State :=
  let t := detachSsds s
  msixOff { t with sys := { t.sys with
    phase := .retained, selfRefresh := true, linkUp := false, ready := false, entryDue := false, entryLate := false, warmRstLow := true
    retention := some ⟨valid, Tbl.get 0 t.sys.fuses 1⟩ } }

/-- THM_STOP_COMPLETE (17 R573, R575): once the recorder has closed, sessions end their bitstreams, units are safe, and the
device is STOPPED with HBM in self-refresh and its link down, the queues of its SSDs deleted (log 36); a retention entry
that waited follows (18 R586). A recorder that still runs is told to end, and the device waits for its close. -/
def execThmStopComplete (s : State) : Host.Outcome State Fault Refusal :=
  .next (if !(groomOn s && s.thm.stop == 1) then s
    else if s.recorder.state ≠ 0 then thermalStopRecorder s
    else
      let s1 := s.cod.enc.foldl (fun t x => endStream x t) (stopCommits s)
      let s2 := detachSsds (tellStop true (allSafe s1))
      let s3 := modThm (fun x => { x with stop := 2 }) (msixOff (lanesTurn false endpointLanes { s2 with
        sys := { s2.sys with phase := .stopped, selfRefresh := true, linkUp := false } }))
      if s3.sys.entryDue then enterRetention (!s3.sys.entryLate) s3 else s3)

/-! ## Clocks and the pps outputs (17 R583, 19) -/

/-- PLL_LOST_LOCK (17 R583). -/
def execPllLostLock (s : State) : Host.Outcome State Fault Refusal := .next (if groomOn s then raise 624 s else s)

/-- REFERENCE_CLOCK_MISSING (17 R583): 0 the 156.25 MHz, 1 the 100 MHz, 2 the 25 MHz reference. -/
def execReferenceClockMissing (which : Nat) (s : State) : Host.Outcome State Fault Refusal :=
  .next (if groomOn s && decide (which < 3) then raise 625 s else s)

/-- PPS_PULSE (19 'PTP_PPSn'): the pulse at a whole second of a time engine. -/
def execPpsPulse (engine : Nat) (s : State) : Host.Outcome State Fault Refusal :=
  .next (if enginesClocked s && decide (engine < 2) then emit (.pps engine) s else s)

/-! ## Commands (17 R581, R579, R580) -/

/-- Relations of `PWR.LIMITS` (17 R581). -/
def limitsFaults (s : State) (b : List Byte) : List Nat :=
  let t := if fieldAt b 0 1 = 0 then [16, 20, 20, 32].getD s.sys.profile 20 else fieldAt b 0 1
  faultIf (fieldAt b 0 1 != 0 && (decide (fieldAt b 0 1 < 12) || decide (32 < fieldAt b 0 1))) 0 ++
    faultIf (decide (t ≤ fieldAt b 1 1)) 0 ++
    faultIf (fieldAt b 4 4 != 0 && (decide (fieldAt b 4 4 < 5000) || decide (profileCap s.sys.profile < fieldAt b 4 4))) 4

/-- The effective cap that a `PWR.LIMITS` leaves. -/
def capLeft (s : State) (b : List Byte) : Nat :=
  if fieldAt b 4 4 = 0 then profileCap s.sys.profile else min (fieldAt b 4 4) (profileCap s.sys.profile)

/-- Whether it lies below the estimate of the load. -/
def capTooLow (s : State) (b : List Byte) : Bool := decide (capLeft s b < loadOf s 0)

/-- Checks of PWR_LIMITS. -/
def checkPwrLimits (t : State) (c : Cmd) : Option Reply :=
  inOrder t c (blockFault layPwrLimits c.region (limitsFaults t c.region)) none
    (need (!capTooLow t c.region) { status := 0x31, detail := loadOf t 0 - capLeft t c.region }) none

/-- Effect of PWR_LIMITS. -/
def effectPwrLimits (c : Cmd) (t : State) : State :=
  bump (stageCmd layPwrLimits 0 (cfgKey 0xA001 0 0) c t)

/-- PWR_LIMITS (17 R581). -/
def execPwrLimits (r : CmdRef) (s : State) : Host.Outcome State Fault Refusal :=
  .next (runCmd r 0xA001 checkPwrLimits effectPwrLimits s)

/-- Checks of PWR_THERMAL_MODEL. -/
def checkPwrThermalModel (t : State) (c : Cmd) : Option Reply := plainCheck layPwrThermal t c

/-- Effect of PWR_THERMAL_MODEL. -/
def effectPwrThermalModel (c : Cmd) (t : State) : State :=
  let a : Rat := (signed 16 (fieldAt c.region 0 2) : Rat) / 256
  let m := diodeMean t
  complete c {} (modThm (fun x =>
    { x with tAmb := a, nodes := if bit (fieldAt c.region 2 1) 0 then List.replicate 12 m else x.nodes }) t)

/-- PWR_THERMAL_MODEL (17 R569, 'PWR.THERMAL_MODEL'): the ambient temperature; RESEED sets every node to the diodes' mean. -/
def execPwrThermalModel (r : CmdRef) (s : State) : Host.Outcome State Fault Refusal :=
  .next (runCmd r 0xA002 checkPwrThermalModel effectPwrThermalModel s)

/-- The 256 bytes of `PWR.READ`. -/
def powerBytes (s : State) : List Byte :=
  leBytes 4 (meanPower s) ++ leBytes 4 (capMw s) ++ leBytes 1 s.sys.profile ++
    leBytes 1 (thermalState s + 16 * b2n s.pwr.throttle + 32 * b2n s.thm.drift + 64 * b2n s.thm.builtin) ++
    leBytes 2 (q88 (modelTj s)) ++ s.thm.diodes.flatMap (fun d => leBytes 2 (q88 d)) ++
    s.thm.nodes.flatMap (fun d => leBytes 2 (q88 d)) ++
    (List.range 24).flatMap (fun n => leBytes 4 (meanOf (s.pwr.window.map fun l => l.getD n 0))) ++
    s.pwr.droops.flatMap (fun d => leBytes 4 d.count) ++ leBytes 24 0

/-- Checks of PWR_READ. -/
def checkPwrRead (t : State) (c : Cmd) : Option Reply := plainCheck layFlags t c

/-- Effect of PWR_READ. -/
def effectPwrRead (c : Cmd) (t : State) : State :=
  complete c { data := powerBytes t } (if bit (fieldAt c.region 0 1) 0 then
    modPwr (fun x => { x with droops := x.droops.map fun d => { d with count := 0 } }) t else t)

/-- PWR_READ (17 'PWR.READ'): CLEAR clears the snub counts as they are read (00 R8). -/
def execPwrRead (r : CmdRef) (s : State) : Host.Outcome State Fault Refusal :=
  .next (runCmd r 0xA003 checkPwrRead effectPwrRead s)

/-- Whether the fuse window is open (17 R579). -/
def fuseWindow (s : State) : Bool :=
  decide (10 ≤ modelTj s) && decide (modelTj s ≤ 60) && decide (|s.thm.diodes.getD 0 0 - s.thm.diodes.getD 1 0| ≤ 3) &&
    decide (diodeGap s 0 ≤ 3) && decide (diodeGap s 1 ≤ 3)

/-- Bits of a fuse value, from the lowest. -/
def setBits (v : Nat) : List Nat := (List.range 384).filter (bit v)

/-- Checks of `SYS.FUSE_PROGRAM` (17 R579, R580). -/
def fuseCheck (s : State) (c : Cmd) : Option Reply :=
  let old := Tbl.get 0 s.sys.fuses (fieldAt c.region 0 1)
  firstFail [
    inOrder s c (blockFault laySysFuse c.region (faultIf ((old &&& fieldAt c.region 8 48) != old) 8)) none none none,
    need (fuseWindow s) { status := 0x50 }]

/-- Programs the bits that are not yet set, lowest first, until the window is left (17 R579, R580). -/
def fuseEffect (leftAfter : Option Nat) (c : Cmd) (s : State) : State :=
  let k := fieldAt c.region 0 1
  let old := Tbl.get 0 s.sys.fuses k
  let todo := (setBits (fieldAt c.region 8 48)).filter fun i => !bit old i
  let done := match leftAfter with
    | some n => todo.take n
    | none => todo
  let s1 : State := { s with sys := { s.sys with fuses := Tbl.put 0 s.sys.fuses k (done.foldl (fun v i => v ||| 2 ^ i) old) } }
  if done.length < todo.length then complete c { status := 0x50, detail := done.length } s1 else complete c {} s1

/-- SYS_FUSE_PROGRAM (17 R579, R580): with `leftAfter`, the window was left after so many bits. -/
def execSysFuseProgram (r : CmdRef) (leftAfter : Option Nat) (s : State) : Host.Outcome State Fault Refusal :=
  .next (runCmd r 0x0005 fuseCheck (fuseEffect leftAfter) s)

end Sys2Proof.Machine
end

