-- ==== Sys2Proof/Machine/Starts.lean ====
section
/-! DEFINITION. Resets, cold starts, retention and warm starts (18 R584-R598; 10 R387-R389; 19 R617, R621). -/

namespace Sys2Proof.Machine

/-! ## Reset (18 R584; 19 R617) -/

/-- An SSD as it is attached: its extents go with the recorder's state. -/
def attached (d : Ssd) : Ssd := { present := d.present, x4 := d.x4, lbaBytes := d.lbaBytes, spaces := d.spaces }

/-- What no reset reaches: the waiting commands, what has left the device, the free values drawn, the fuses, the levels at the
inputs, the SSDs that are attached. -/
def outside (s : State) : State :=
  { pending := s.pending, out := s.out, freeCtr := s.freeCtr
    recorder := { ssds := s.recorder.ssds.map attached }
    pins := { sideband := s.pins.sideband } }

/-- The device in reset: only the failed-start count survives, and what belongs to power-up (18 R584, log 47); outputs float
and THM_TRIP_N is released (19 R617, R626). -/
def inReset (s : State) : State :=
  let sys : Sys :=
    { phase := .held, sysRstLow := s.sys.sysRstLow, warmRstLow := s.sys.warmRstLow, railsLow := s.sys.railsLow, ready := false
      fails := s.sys.fails, step := 0, failedSincePower := s.sys.failedSincePower, fuses := s.sys.fuses, linkUp := false }
  { outside s with sys := sys, pins := { sideband := s.pins.sideband, floating := true } }

/-- SYS_RST_N_ASSERTION (18 R584). -/
def execSysRstNAssertion (s : State) : Host.Outcome State Fault Refusal :=
  .next (inReset { s with sys := { s.sys with sysRstLow := true } })

/-- SUPPLY_UNDERVOLTAGE (19 R621): rails 0 VDD_CORE, 1 VDD_SRAM, 2 VDD_ANA, 3 VDDIO_18 are watched. -/
def execSupplyUndervoltage (rail : Nat) (s : State) : Host.Outcome State Fault Refusal :=
  .next (if rail < 4 then
    inReset { s with sys := { s.sys with railsLow := rail :: s.sys.railsLow.filter (· != rail) } } else s)

/-- A start begins: straps, PLLs and AON (step 1), from where the time engines run (13 R450). -/
def beginStart (s : State) : State := { s with sys := { s.sys with phase := .released, step := 1 }, time := {} }

/-- SUPPLY_RECOVERY (19 R621): every watched rail is back; the cold start begins unless SYS_RST_N is low. -/
def execSupplyRecovery (s : State) : Host.Outcome State Fault Refusal :=
  .next (if s.sys.railsLow.isEmpty then s
    else
      let s1 : State := { s with sys := { s.sys with railsLow := [] } }
      if s.sys.sysRstLow then s1 else beginStart s1)

/-! ## Host-ready (18 R591, R607, R608; 15 R517; 17 R568) -/

/-- What host-ready tells: `EV_BOOT_START`, `EV_LANE_TABLE`, `EV_THM_DEFAULT_MODEL`, and the sources. -/
def tellReady (s : State) : State :=
  let on (c : Bool) (n : Nat) (t : State) : State := if c then raise n t else t
  let s1 := sysEvent 0x0003 0 0 (bootStatus s % 2 ^ 24) s
  let s2 := sysEvent 0x0004 0 0 (s.sys.tableStates.1 + 4 * s.sys.tableStates.2) s1
  let s3 := if s.thm.builtin then sysEvent 0xA008 0xA0 0 0 s2 else s2
  on s.sys.recovery 634 (on s.sys.failedSincePower 633 (on s.thm.builtin 626 (raise 632 s3)))

/-- The tether of a device of an array at its start: its ports are down, so it reaches no other device. -/
def alone (device arraySize : Nat) : Tth :=
  { unreachable := (((List.range arraySize).filter (· != device)).map (2 ^ ·)).sum }

/-- The machine at the host-ready of a cold start (18 R597). -/
def coldReady (inp : StartInputs) (s : State) : State :=
  let recovery := s.sys.fails == 3
  let chosen := chooseTable (Tbl.get 0 s.sys.fuses 0) inp.tablePrimary inp.tableBackup
  let sys : Sys :=
    { device := s.sys.device, arraySize := s.sys.arraySize, warmRstLow := s.sys.warmRstLow
      startKind := if recovery then 3 else if s.sys.startKind = 2 then 2 else 0
      failCode := s.sys.failCode, failedSincePower := s.sys.failedSincePower, fuses := s.sys.fuses
      version := if recovery then inp.recoveryVersion else inp.primaryVersion, recovery := recovery
      tableUsed := chosen.1, tableStates := chosen.2 }
  let builtin := (thermalSection chosen.1).isEmpty
  let s1 : State :=
    { outside s with
      sys := sys, tth := alone sys.device sys.arraySize
      thm := { nodes := List.replicate 12 (diodeMean s), diodes := s.thm.diodes, builtin := builtin }, time := s.time
      pins := { sideband := s.pins.sideband, rpPerst := 3 } }
  tellReady (equaliseRoot (equaliseEndpoint s1))

/-! ## Cold start (18 R585, R589, R595, R596) -/

/-- A cold start fails: the next begins at once, or the device halts where the recovery image failed. -/
def failStart (code : Nat) (s : State) : State :=
  let s1 : State := { s with sys := { s.sys with failCode := code, failedSincePower := true } }
  if s.sys.fails = 3 then emit (.uart code) { s1 with sys := { s1.sys with phase := .halted, ready := false } }
  else beginStart { s1 with sys := { s1.sys with fails := s1.sys.fails + 1 } }

/-- Step 1: straps latched and diodes read (14 R473, 19 R615, 17 R578). -/
def latchStraps (inp : StartInputs) (s : State) : State :=
  { s with sys := { s.sys with device := inp.deviceIndex % 4, arraySize := (inp.arraySize + 3) % 4 + 1 }
           thm := { s.thm with diodes := [(inp.diode0 : Rat) / 4, (inp.diode1 : Rat) / 4] } }

/-- Whether a diode reads 90 °C or above (17 R578). -/
def tooHot (s : State) : Bool := s.thm.diodes.any fun d => decide (90 ≤ d)

/-- The steps of a cold start, up to host-ready, a failure, or a wait. -/
def coldSteps (inp : StartInputs) (s : State) : State :=
  let s1 := latchStraps inp (if s.sys.phase = .released then { s with sys := { s.sys with step := 1 } } else beginStart s)
  if tooHot s1 then s1
  else if !inp.flashReadOk then failStart 2 s1
  else if !(if s1.sys.fails = 3 then inp.recoveryAuthentic else inp.primaryAuthentic) then failStart 1 s1
  else if !inp.hbmTrained then failStart 3 s1
  else if !inp.inTime then { s1 with sys := { s1.sys with step := 6 } }
  else coldReady inp s1

/-- COLD_START (18 R585, R589): SYS_RST_N is high; while a watched rail is low the device stays in reset (19 R621). -/
def execColdStart (inp : StartInputs) (s : State) : Host.Outcome State Fault Refusal :=
  .next (let s1 : State := { s with sys := { s.sys with sysRstLow := false } }
    if s.sys.phase = .released then coldSteps inp s1
    else if s.sys.phase = .held then (if s.sys.railsLow.isEmpty then coldSteps inp s1 else s1)
    else s)

/-- HOST_READY_TIMEOUT (18 R595): not while a start waits for its diodes (17 R578). -/
def execHostReadyTimeout (s : State) : Host.Outcome State Fault Refusal :=
  .next (if s.sys.phase = .released ∧ !(s.sys.step == 1 && tooHot s) then failStart 4 s else s)

/-! ## Retention (18 R586, R593; 10 R387-R389) -/

/-- RETENTION_ENTRY (10 R387; 18 R585, R586): ignored while SYS_RST_N is low and before host-ready. From here on commands
that name HBM are refused, and the entry ends once ports and buckets are idle, or at the end of STOPPING. -/
def execRetentionEntry (s : State) : Host.Outcome State Fault Refusal :=
  .next (if !s.sys.ready || s.sys.sysRstLow || !(s.sys.phase == .running || s.sys.phase == .stopped) then s
    else { s with sys := { s.sys with entryDue := true, entryLate := false, warmRstLow := true } })

/-- RETENTION_ENTRY_TIMEOUT (18 R586): an entry that still waits will leave the record invalid. -/
def execRetentionEntryTimeout (s : State) : Host.Outcome State Fault Refusal :=
  .next { s with sys := { s.sys with entryLate := s.sys.entryDue || s.sys.entryLate } }

/-- An entry that has begun has ended by the time at which a warm start begins; one during STOPPING waits (10 R387, 18 R586). -/
def entryEnded (s : State) : State := if s.sys.entryDue ∧ s.thm.stop ≠ 1 then enterRetention (!s.sys.entryLate) s else s

/-- HBM_RETENTION_LOST (10 R389): the contents are those of a memory that nothing has written (log 2). -/
def execHbmRetentionLost (stack : Nat) (s : State) : Host.Outcome State Fault Refusal :=
  .next (if s.sys.selfRefresh ∧ stack < 2 then { s with hbm := [], sys := { s.sys with lost := true } } else s)

/-- A step on an empty queue: an entry into self-refresh that has begun ends, or the engines run a cycle (log 3, log 47). -/
def idleStep (s : State) : State := clockTick (entryEnded s)

/-! ## Warm start (18 R592-R594, R597) -/

/-- The first check of a warm start that fails, as a FAIL_CODE; 0 where none does (18 R593, R598). -/
def warmFault (inp : WarmInputs) (s : State) : Nat :=
  match s.sys.retention with
  | none => 5
  | some r =>
    if !r.valid || s.sys.lost then 5
    else if !inp.signatureRowsMatch then 6
    else if !inp.imageHashMatches then 7
    else if r.keyHash ≠ Tbl.get 0 s.sys.fuses 1 then 8
    else 0

/-- Configuration that a warm start keeps: shares, `PWR.LIMITS`, `MEM.HASH`, `MEM.SHED_ORDER` (18 R597). -/
def keptConfig (t : Tbl CfgVal) : Tbl CfgVal :=
  t.filter fun e => [0x0401, 0xA001, 0x5001, 0x5002].contains (e.1 / 65536)

/-- Units of virtual functions go to F0, and their binding epochs increment (03 R83; 18 R597). -/
def releasedBind (b : Bind) : Bind :=
  { epoch := (b.owner.filter (·.2 != 0)).foldl (fun t e => Tbl.put 1 t e.1 (nextEpoch (Tbl.get 1 t e.1))) b.epoch }

/-- Results of Muck-out that are kept; its cycle begins anew (18 R597). The margins of its lanes are kept beside them. -/
def keptMuckout (m : Mck) : Mck :=
  { pipes := m.pipes.map fun p => { failed := p.failed, skipped := p.skipped }
    cycles := m.cycles, lastMs := m.lastMs, badRows := m.badRows, ecc := m.ecc, lanesRead := m.lanesRead, lanesLow := m.lanesLow }

/-- A stall after a warm start (18 R597). -/
def warmStall (x : Stall) : Stall := { windowKib := x.windowKib, resetCount := (x.resetCount + 1) % 2 ^ 32 }

/-- The machine at the host-ready of a warm start (18 R597); a thermal stop is not left (18 R586). The metadata records of the Groom
region are retained (10 R388). -/
def warmReady (s : State) : State :=
  let stays := decide (s.thm.stop = 2)
  let cool := decide (modelTj s < 90)
  let sys : Sys :=
    { phase := if stays then .stopped else .running, selfRefresh := stays && !cool, linkUp := !stays
      device := s.sys.device, arraySize := s.sys.arraySize, startKind := 1, step := 6
      failCode := s.sys.failCode, failedSincePower := s.sys.failedSincePower, fuses := s.sys.fuses
      version := s.sys.version, recovery := s.sys.recovery, profile := s.sys.profile
      tableUsed := s.sys.tableUsed, tableStates := s.sys.tableStates }
  let cfg : Cfg := { committed := keptConfig s.cfg.committed, active := keptConfig s.cfg.active, epoch := s.cfg.epoch }
  let s1 : State :=
    { outside s with
      sys := sys, cfg := cfg, stalls := s.stalls.map warmStall, streams := s.streams.map fun x => { records := x.records }
      bind := releasedBind s.bind, hbm := s.hbm
      tth := alone sys.device sys.arraySize, thm := { s.thm with cooled := stays && cool }, mck := keptMuckout s.mck
      lanes := s.lanes.map fun l => { margin := l.margin, low := l.low }
      pins := { s.pins with rpPerst := 3 } }
  tellReady (equaliseRoot (equaliseEndpoint s1))

/-- A warm start whose check fails becomes a cold start at its step 1 (18 R594). -/
def warmFailed (code : Nat) (inp : WarmInputs) (s : State) : State :=
  let s1 := inReset { s with sys := { s.sys with failedSincePower := true } }
  coldSteps inp.cold { s1 with sys := { s1.sys with startKind := 2, failCode := code } }

/-- WARM_START (18 R586, R592): WARM_RST_N has risen and entry has ended. -/
def execWarmStart (inp : WarmInputs) (s : State) : Host.Outcome State Fault Refusal :=
  .next (let s0 := entryEnded s
    if s0.sys.phase = .retained then
      let s1 : State := { s0 with sys := { s0.sys with warmRstLow := false } }
      let code := warmFault inp s1
      if code = 0 then warmReady s1 else warmFailed code inp s1
    else s)

end Sys2Proof.Machine
end

