-- ==== Sys2Proof/Machine/Tether.lean ====
section
/-! DEFINITION. The tether and the array (14): links, packets and acknowledgements, relay, stripes and halos, verdicts, routes,
commits in two phases, digests, and array time. -/

namespace Sys2Proof.Machine

/-- Changes the tether's state. -/
def modTth (g : Tth → Tth) (s : State) : State := { s with tth := g s.tth }

/-- A port. -/
def tthPort (s : State) (p : Nat) : TthPort := s.tth.ports.getD p {}

/-- Whether a port is wired: T0 but for the leader, T1 but for the last device (14 R474). -/
def tthWired (s : State) (p : Nat) : Bool :=
  if p = 0 then s.sys.device != 0 else p == 1 && decide (s.sys.device + 1 < s.sys.arraySize)

/-- A member of the array, the leader included. -/
def inArray (s : State) : Bool := decide (1 < s.sys.arraySize)

/-! ## Commits of the array (14 R496, R497) -/

/-- Ends a commit of the array that does not apply: its image returns and its command is refused. -/
def abortCommit (x : Sched) (status : Nat) (s : State) : State :=
  let s1 := returnImage x (dropSched x.ref s)
  match schedCmd s1 x with
  | some c => complete c { status := status } s1
  | none => s1

/-- Changes a scheduled commit. -/
def modSched (r : CmdRef) (g : Sched → Sched) (s : State) : State :=
  { s with cfg := { s.cfg with sched := s.cfg.sched.map fun x => if x.ref = r then g x else x } }

/-- Completes a commit of the array that has applied: RESULT0 holds its epoch, the devices whose digest differed and those not
confirmed, RESULT1 the leader's digest (14 R497). -/
def finishCommit (x : Sched) (epoch unconfirmed : Nat) (s : State) : State :=
  let s1 := dropSched x.ref s
  match schedCmd s1 x with
  | some c => complete c (okReply (epoch + 2 ^ 32 * x.differed + 2 ^ 36 * unconfirmed) x.digest) s1
  | none => s1

/-- The devices whose idle control block of a frame, or of a later one, has not arrived. -/
def unconfirmed (s : State) (serial : Nat) : List Nat :=
  (List.range s.sys.arraySize).filter fun d => match Tbl.find? s.tth.blocks d with
    | some e => later serial e.1.serial
    | none => true

/-- Completes the commits that every device's idle control block confirms. -/
def confirmCommits (s : State) : State :=
  s.cfg.sched.foldl (fun t x => match x.applied with
    | some (serial, epoch) => if (unconfirmed t serial).isEmpty then finishCommit x epoch 0 t else t
    | none => t) s

/-- A member's answer to PREPARE; with all of them, the leader sends GO (14 R496). -/
def onPrepared (dev : Nat) (r : CmdRef) (digest_ : Nat) (s : State) : State :=
  match findSched s r with
  | none => s
  | some x =>
    if x.go ∨ !isLeader s ∨ !arrayWide s x then s
    else
      let r := x.ref
      let y := { x with answers := Tbl.set x.answers dev digest_
                        differed := x.differed ||| if digest_ = x.digest then 0 else 2 ^ dev }
      if x.expect ≠ 0 ∧ digest_ ≠ x.expect then abortCommit y 0x62 s
      else if (List.range s.sys.arraySize).all fun d => d == 0 || (Tbl.find? y.answers d).isSome then
        let (n, s1) := giveNumber (fun e => (⟨x.mode, x.stream, x.frame, x.time⟩ : Target).before e.2.1) s
        tthBroadcast 2 (.go r.fn r.seq n) (modSched r (fun _ => { y with go := true, number := some n }) s1)
      else modSched r (fun _ => y) s

/-- PREPARE at a member: it captures its staged image and returns its digest (14 R496, 02 R71); one that holds four scheduled
commits answers that it cannot (log 44). -/
def onPrepare (r : CmdRef) (mode stream_ frame : Nat) (time : Time) (s : State) : State :=
  let d := stageDigest s r.fn 2
  let x : Sched :=
    { ref := r, mode := mode, stream := stream_, scope := 2, frame := frame, time := time, expect := 0, img := stagedIn s r.fn 2
      digest := d }
  if 4 ≤ (waitingCommits s).length then tthSend 0 2 (.groom (.prepareBusy r.fn r.seq)) 0 false s
  else tthSend 0 2 (.prepared r.fn r.seq d) 0 false { s with cfg := { s.cfg with sched := s.cfg.sched ++ [x], staged := [] } }

/-- A member's refusal of PREPARE ends the commit with `ST_BUSY` (02 R71). -/
def onPrepareBusy (r : CmdRef) (s : State) : State :=
  match findSched s r with
  | some x => if x.go || !arrayWide s x then s else abortCommit x 0x01 s
  | none => s

/-- PREPARE_DEADLINE (14 R496): 500 µs before the leader's FS of the target the answers are not complete. -/
def execPrepareDeadline (r : CmdRef) (s : State) : Host.Outcome State Fault Refusal :=
  .next (match findSched s r with
    | some x => if groomOn s && isLeader s && arrayWide s x && !x.go then abortCommit x 0x61 s else s
    | none => s)

/-- ARRAY_COMMIT_TIMEOUT (14 R497): a frame period after the target frame a commit completes without the missing devices. -/
def execArrayCommitTimeout (r : CmdRef) (s : State) : Host.Outcome State Fault Refusal :=
  .next (match findSched s r with
    | some x => match x.applied with
      | some (serial, epoch) =>
        if groomOn s && isLeader s then finishCommit x epoch ((unconfirmed s serial).map (2 ^ ·)).sum s else s
      | none => s
    | none => s)

/-! ## Digests (14 R494, R498) -/

/-- The reachable devices whose blocks of a serial are in, with the digests of these. -/
def digestsOf (s : State) (serial : Nat) : List (Nat × Nat) :=
  (List.range s.sys.arraySize).filterMap fun d => match Tbl.find? s.tth.blocks d with
    | some (b, _) => if b.serial = serial ∧ !bit s.tth.unreachable d then some (d, b.digest) else none
    | none => none

/-- The mask of devices whose digest differs from the leader's for a serial; 0 once those of all reachable devices match, and none
while none differs and some are not in. -/
def digestMask (s : State) (serial : Nat) : Option Nat :=
  let l := digestsOf s serial
  let devs := (List.range s.sys.arraySize).filter fun d => !bit s.tth.unreachable d
  match l.find? (·.1 == 0) with
  | none => none
  | some (_, lead) =>
    let m := ((l.filter fun e => e.2 != lead).map (2 ^ ·.1)).sum
    if m ≠ 0 then some m else if 1 < devs.length ∧ l.length = devs.length then some 0 else none

/-- The leader compares the digests of a serial: the first divergence is told and holds commits of the array; two consecutive
serials without one end it (14 R498). -/
def judgeDigests (serial : Nat) (s : State) : State :=
  let high := 2 ^ 32 * s.cfg.epoch.toNat
  match digestMask s serial with
  | none => s
  | some 0 =>
    if s.tth.diverged = 0 ∨ s.tth.lastMatch = some serial then s
    else
      let n := if s.tth.lastMatch = some ((serial + 65535) % 65536) then s.tth.matches_ + 1 else 1
      let s1 := modTth (fun x => { x with matches_ := n, lastMatch := some serial }) s
      if n < 2 then s1
      else raise 585 (tthEvent 0x0302 (serial + high) (modTth (fun x => { x with diverged := 0, held := false, matches_ := 0 }) s1))
  | some m =>
    let s1 := modTth (fun x => { x with diverged := m, held := true, matches_ := 0, lastMatch := none }) s
    if s.tth.diverged ≠ 0 then s1 else raise 584 (tthEvent 0x0301 (serial + 2 ^ 16 * m + high) s1)

/-! ## Reachability (14 R505) -/

/-- The mask of devices that are not in this device's part of the array. -/
def cutOff (s : State) : Nat :=
  ((List.range s.sys.arraySize).filter fun d => d != s.sys.device && !(partDevices s).contains d).map (2 ^ ·) |>.sum

/-- The leader notes which members it can reach; commits without GO return while one is cut off (14 R505). -/
def noteReach (s : State) : State :=
  let m := cutOff s
  if !isLeader s ∨ m = s.tth.unreachable then s
  else
    let s1 := raise 586 (tthEvent 0x8002 m (modTth (fun x => { x with unreachable := m }) s))
    if m = 0 then s1
    else (s1.cfg.sched.filter fun x => arrayWide s1 x && !x.go).reverse.foldl (fun t x => abortCommit x 0x80 t) s1

/-! ## Idle control blocks (14 R494) -/

/-- An idle control block has arrived. -/
def onIdle (b : IdleBlock) (s : State) : State :=
  let s1 := noteReach (modTth (fun x => { x with blocks := Tbl.set x.blocks b.device (b, s.tick) }) s)
  if isLeader s then confirmCommits (judgeDigests b.serial s1)
  else if b.device = 0 then
    match (stream s1 0).frames.getLast? with
    | some f => checkLeader f.serial s1
    | none => s1
  else s1

/-- The device's own idle control block. -/
def ownBlock (s : State) : IdleBlock :=
  let x := stream s 0
  { epoch := s.cfg.epoch.toNat, serial := (x.nextSerial + 65535) % 65536, device := s.sys.device, running := streamRuns s 0
    thermalStop := s.thm.stop != 0, farPortUp := (tthPort s 1).up, digest := digest s.cfg.committed, fsTime := x.fsTime
    profile := s.sys.profile }

/-- IDLE_CONTROL_BLOCK (14 R494): the device broadcasts its idle control block; its own counts as arrived. -/
def execIdleControlBlock (s : State) : Host.Outcome State Fault Refusal :=
  .next (if !(groomOn s && inArray s) then s
    else
      let b := ownBlock s
      let s1 := tthBroadcast 0 (.idle b) (modTth (fun x => { x with blocks := Tbl.set x.blocks b.device (b, s.tick) }) s)
      if isLeader s then confirmCommits (judgeDigests b.serial s1) else s1)

/-! ## Verdicts and halos (14 R486-R489, R504) -/

/-- Another device's verdict of a stripe frame (14 R489): a retraction retracts the frame here too. -/
def onVerdict (dev serial flags : Nat) (s : State) : State :=
  let fresh := (frameOf s 0 serial).isSome || !later (stream s 0).nextSerial serial
  let s1 := if fresh then
      modTth (fun x => { x with verdicts := Tbl.set x.verdicts serial (Tbl.set (Tbl.get [] x.verdicts serial) dev flags) }) s
    else s
  match frameOf s1 0 serial with
  | some f => if bit flags 0 && !bit f.flags 0 && striped f.cfg 0 then raise 590 (retract 0 serial flags s1) else s1
  | none => s1

/-- A neighbour's halo row joins its frame, or waits for the FS; one with a CRC error is replaced by reflection and flags its
frame CRC_ERR (14 R487). A shed port writes none (14 R504). -/
def onHalo (p : Nat) (h : HaloRow) (s : State) : State :=
  if portShed s (12 + p) ∨ !striped s.cfg.active 0 then s
  else
    let s1 := if h.crcOk then s else raise (571 + 8 * p) s
    let put (t : Tbl (List HaloRow)) : Tbl (List HaloRow) := Tbl.set t p (Tbl.get [] t p ++ [h])
    match frameOf s1 0 h.serial with
    | some f =>
      releaseRows (modFrame 0 h.serial (fun g =>
        { g with halo := put g.halo, flags := g.flags ||| if h.crcOk || bit f.flags 0 then 0 else vCrc }) s1)
    | none => if later (stream s1 0).nextSerial h.serial then s1 else modTth (fun x => { x with early := put x.early }) s1

/-- HALO_ROW (14 R486, R487). -/
def execHaloRow (port : Nat) (row : HaloRow) (s : State) : Host.Outcome State Fault Refusal :=
  .next (if enginesClocked s && s.sys.profile != 3 && tthWired s port && (tthPort s port).up then onHalo port row s else s)

/-! ## Relay (01 R24, R25; 14 R481, R482) -/

/-- A command that the leader relays; one for every device applies to this one (14 'Stripes'). -/
def onCommand (bcast : Bool) (c : RelayedCmd) (s : State) : State :=
  { s with cmds := s.cmds ++ [{ fn := c.fn, seq := c.seq, opcode := c.opcode, flags := c.flags, target := c.target
                                device := if bcast then s.sys.device else c.device, bind := c.bind, region := c.region
                                number := c.number, copy := c.copy }] }

/-- An event of the tether for a function (14 R506). -/
def tthEventTo (f code detail : Nat) (s : State) : State :=
  postEvent f { code := code, cls := 0x80, device := s.sys.device, time := eventTime f s, detail := detail } s

/-- What the leader keeps of a command that a member has completed: the ends of a queue that it configured (03 R87), its stream 0
as configured (14 R483), and the count of commands aborted by the last link reset (02 R62, R67). -/
def noteAnswer (x : Cmd) (status : Nat) (s : State) : State :=
  let q := (fieldAt x.region 0x18 1, fieldAt x.region 0x19 1)
  let r := (fieldAt x.region 0x1A 1, fieldAt x.region 0x1B 1)
  let own := (fieldAt x.region 2 1, fieldAt x.region 4 2, fieldAt x.region 6 2)
  if status = 0x40 then modStall x.fn (fun y => { y with aborted := y.aborted + 1 }) s
  else if x.opcode = 0x5101 ∧ status = 0 then
    modTth (fun y => { y with queues := Tbl.set y.queues (x.device * 256 + x.target) (q, r) }) s
  else if x.opcode = 0x2001 ∧ x.target = 0 ∧ status = 0 then
    modTth (fun y => { y with pipe0 := Tbl.set y.pipe0 x.device own }) s
  else s

/-- A member's completion completes the command that was relayed, or resolves one that had timed out (14 R481); that of a
command that a function-level reset detached is discarded (02 R66). -/
def onCompletion (dev f : Nat) (c : Completion) (results : List Byte) (s : State) : State :=
  let r : CmdRef := ⟨f, c.seq⟩
  match s.cmds.find? fun x => x.is r && x.relayed with
  | some x =>
    completeWith x c.bindEpoch true
      { status := c.status, deferred := c.deferred, detailSize := c.detailSize, detailSpace := c.detailSpace
        detail := c.detail, result0 := c.result0, result1 := c.result1, data := results } (noteAnswer x c.status s)
  | none =>
    match s.cmds.find? fun x => x.fn % 16 == f && x.seq == c.seq && x.relayed && x.detached && x.device == dev with
    | some x => dropCmd x s
    | none =>
    if s.tth.timedOut.contains (r, dev) then
      raise 587 (tthEventTo f 0x8003 (c.seq.toNat + 2 ^ 32 * (c.status % 65536) + 2 ^ 48 * dev)
        (modTth (fun x => { x with timedOut := x.timedOut.filter (· != (r, dev)) }) s))
    else s

/-- RELAY_TIMEOUT (14 R481): no completion RELAY_TIMEOUT_MS after the command was sent onward. -/
def execRelayTimeout (r : CmdRef) (s : State) : Host.Outcome State Fault Refusal :=
  .next (match s.cmds.find? fun x => x.is r && x.relayed && x.sent with
    | some c =>
      if groomOn s && isLeader s then
        raise 587 (completeWith c c.bind true { status := 0x80, result1 := 1 }
          (modTth (fun x => { x with timedOut := x.timedOut ++ [(r, c.device)] }) s))
      else s
    | none => s)

/-- The unit that a member's event is about: the unit it names, or for `EV_MEMBER_SOURCE` the unit of its source (03 R105);
`EV_SOURCE_STOPPED` is for the owner of a consumer, which the member has named (03 R95). -/
def eventUnit (e : Event) : Option Nat :=
  if e.code = 0x0203 then none
  else if e.code = 0x8007 then (sourceUnit (e.detail % 1024)).map (e.device * 256 + ·) else unitKey e.device e.cls e.unit

/-- A member's event at the leader: the count of lost ones comes first; one of an ownable unit goes to its owner with the
binding epoch that the leader holds (02 R52, 14 R482). -/
def onEvent (f : Nat) (e : Event) (s : State) : State :=
  let s1 := if (stall s f).memberLost = 0 then s
    else postEvent f { code := 0x0001, device := s.sys.device, time := eventTime f s, detail := (stall s f).memberLost }
      (modStall f (fun x => { x with memberLost := 0 }) s)
  match eventUnit e with
  | some u => postEvent (ownerOf s1 u) { e with bindEpoch := epochOf s1 u } s1
  | none => postEvent f e s1

/-- A member that reaches the leader delivers what it kept: per stall the count of events lost, then the events (14 R482). -/
def deliverBacklog (s : State) : State :=
  let lost := s.tth.backlogLost.foldl (fun t e => tthSend 0 2 (.lostEvents e.1 e.2) 0 false t) s
  let all := s.tth.backlog.foldl (fun t e => tthSend 0 2 (.event e.1 e.2) 0 false t) lost
  modTth (fun x => { x with backlog := [], backlogLost := [] }) all

/-! ## Routes (14 R491) -/

/-- A tap slot of stream 0 by the serial of its frame. -/
def slotOfSerial (s : State) (k serial : Nat) : Option (Nat × TapSlot) :=
  List.find? (fun e => e.2.serial == serial && e.2.state != 2) (tapTable s 0 k)

/-- Columns of another device join a row of a tap slot; the row counts with the last of them (14 R491). -/
def onMerge (dev k serial row first count : Nat) (last : Bool) (data : List Byte) (s : State) : State :=
  match slotOfSerial s k serial with
  | some (slot, z) =>
    let x := z.cfg
    let spans := rowSpans x.format x.outW x.outH row first count
    let base := z.base slot
    let s1 := (spans.foldl (fun (a : State × List Byte) e => (hbmWrite (base + e.1) (a.2.take e.2) a.1, a.2.drop e.2)) (s, data)).1
    if last then modTapSlot 0 k slot (fun y => countRows (mergeSources s k) { y with parts := Tbl.set y.parts dev (row + 1) }) s1 else s1
  | none => s

/-- What has come of a queue packet from a source. -/
def routePart (s : State) (src q : Nat) : List Byte := Tbl.get [] s.tth.routeParts (4 * q + src)

/-- Whether route data can be taken: the last of a queue packet finds its queue configured and with credits for the whole,
and merged columns find their frame begun or gone where stream 0 runs (14 R491, log 44). -/
def routeFits (s : State) (src : Nat) (b : TthBody) : Bool :=
  match b with
  | .route q last data => !last || queueTakes s q (routePart s src q ++ data)
  | .merge k serial _ _ _ _ _ => (slotOfSerial s k serial).isSome || later (stream s 0).nextSerial serial || !streamRuns s 0
  | _ => true

/-- Route data joins the queue packet that it is part of, which the last of it completes (14 R491). -/
def onRoute (src q : Nat) (last : Bool) (data : List Byte) (s : State) : State :=
  let all := routePart s src q ++ data
  let s1 := modTth (fun x => { x with routeParts := Tbl.put [] x.routeParts (4 * q + src) (if last then [] else all) }) s
  if last then queueWrite q all s1 else s1

/-! ## Array time (14 R500-R502) -/

/-- A transition of a member's time lock. -/
def setLock (on : Bool) (s : State) : State :=
  raise 589 (tthEvent 0x8006 (s.sys.device + 2 ^ 8 * b2n on)
    (modTth (fun x => { x with locked := on, goodTimes := 0, everLocked := x.everLocked || on }) s))

/-- What an insertion of a time packet adds to a member's error, in 2⁻³² ns: an open value within 3 ns a hop, and 2 ns (14 R501,
log 6). -/
def hopError (s : State) : Int :=
  let u := (if s.sys.device = 1 then 5 else 3) * 2 ^ 32
  (draw s (2 * u) : Int) - u

/-- A time packet at a member: TA follows the leader's S, a change of which is followed under steps 2 and 3 of 13 R452 but for the
first packets of a start, which set S (log 57); F does not jump, and moves at the slew rate to TA plus the leader's F − S
(R453, 04 R157); in its safe state TA runs free and the selected time does
not change (03 R93); the packet goes on with this device's insertion (14 R500-R502). -/
def onTime (selected ahead : Int) (s : State) : State :=
  let t := selected + s.tth.hopDelay + hopError s
  let err := t - selectedUnits s
  let d := if s.tth.everLocked then sUnits s.time - t else 0
  let near := decide (err.natAbs ≤ 20 * 2 ^ 32)
  let s1 := if !unitLive s 0x71 0 then s else { s with time := { s.time with
    engines := s.time.engines.modify 0 (fun e => { e with time := (t % timeRange).toNat })
    sel := 0
    delta := if d.natAbs ≤ s.time.windowNs * 2 ^ 32 then 0 else d
    phi := fUnits s.time - t
    lead := some ahead } }
  let s2 := modTth (fun x => { x with goodTimes := if near then min 16 (x.goodTimes + 1) else 0 }) s1
  let s3 := if !s.tth.locked && s2.tth.goodTimes == 16 then setLock true s2
    else if s.tth.locked && decide (100 * 2 ^ 32 < err.natAbs) then setLock false s2
    else s2
  bump (if tthWired s3 1 then tthSend 1 0 (.time t ahead) 0 true s3 else s3)

/-- TIME_PACKET_SEND (14 R500): the leader's S, and F − S, on T1. -/
def execTimePacketSend (s : State) : Host.Outcome State Fault Refusal :=
  .next (if enginesClocked s && isLeader s && inArray s then
    tthSend 1 0 (.time (selectedUnits s) (fUnits s.time - selectedUnits s)) 0 true s else s)

/-- HOP_DELAY_MEASURE (14 R500): a member's hop delay in 2⁻³² ns. -/
def execHopDelayMeasure (delay : Int) (s : State) : Host.Outcome State Fault Refusal :=
  .next (if enginesClocked s && !isLeader s && (tthPort s 0).up then modTth (fun x => { x with hopDelay := delay }) s else s)

/-- TIME_LOCK_LOSS (14 R502): no time packet for 10 × TIME_PERIOD_US. -/
def execTimeLockLoss (s : State) : Host.Outcome State Fault Refusal :=
  .next (if enginesClocked s && !isLeader s && s.tth.locked then setLock false s else s)

/-! ## Packets (14 R477-R479) -/

/-- Class of a TYPE (14 R478). -/
def typeClass (t : Nat) : Nat := if t = 2 then 1 else if t = 1 ∨ t = 3 ∨ t = 8 then 0 else if t = 9 ∨ t = 10 then 3 else if t = 11 then 4 else 2

/-- The stop signal at a device: the leader passes it to every device (17 R577). -/
def onStop (t : Time) (s : State) : State :=
  let s1 := stopAtSignal t s
  if isLeader s then tthBroadcast 2 (.stopSignal t) s1 else s1

/-- The unit number of a unit. -/
def keyOf (r : UnitRef) : Nat := (unitKey r.device r.cls r.inst).getD 0

/-- A member judges a binding of its unit (03 R107-R112, 09 R333, 12 R426, 17 R574) and answers; one that it admits waits for the
unit (log 44). -/
def onBindAsk (r : CmdRef) (u : UnitRef) (owner : Nat) (s : State) : State :=
  let w : Rebind := { unit := u, newOwner := owner, cmd := some r }
  let s1 := addRebind w s
  match firstFail [need (s.thm.stop == 0) { status := 0x70 }, admission s s1, need (!unitBusy s u) busy] with
  | some a => tthSend 0 2 (.groom (.bindAnswer r.fn r.seq a.status a.result0 a.detail)) 0 false s
  | none => tthSend 0 2 (.groom (.bindAnswer r.fn r.seq 0 0 0)) 0 false s1

/-- A member's answer to a binding: the rebinding waits for its unit, or the command is refused. -/
def onBindAnswer (r : CmdRef) (status reason shortfall : Nat) (s : State) : State :=
  let mine (w : Rebind) : Bool := w.asked && w.cmd == some r
  if !s.bind.waiting.any mine then s
  else if status = 0 then
    { s with bind := { s.bind with waiting := s.bind.waiting.map fun w => if mine w then { w with asked := false } else w } }
  else
    let s1 : State := { s with bind := { s.bind with waiting := s.bind.waiting.filter fun w => !mine w } }
    match findCmd s1 r with
    | some c => complete c { status := status, detail := shortfall, result0 := reason } s1
    | none => s1

/-- A member learns that a rebinding of its unit has applied: its owner and binding epoch. -/
def onRebound (u : UnitRef) (f epoch : Nat) (s : State) : State :=
  let k := keyOf u
  { s with bind := { s.bind with
    owner := Tbl.put 0 s.bind.owner k f, epoch := Tbl.put 1 s.bind.epoch k epoch
    waiting := s.bind.waiting.filter fun w => !(w.done && keyOf w.unit == k) } }

/-- A member has done its part of a rebinding, and every event of the unit before it has come: the leader does the rest (03 R89). A
binding that was done before a release of the unit ends that release too; without a rebinding that waits, the leader tells the
owner again. -/
def onUnbound (u : UnitRef) (r : Option CmdRef) (far : Unbound) (s : State) : State :=
  let k := keyOf u
  match s.bind.waiting.find? fun w => keyOf w.unit == k && w.cmd == r && !w.asked with
  | some w =>
    let s1 : State := { s with bind := { s.bind with
      waiting := s.bind.waiting.filter fun y => y == w || !(keyOf y.unit == k && y.cmd.isNone) } }
    applyRebind w far s1
  | none => tellOwner u (ownerOf s k) (epochOf s k) s

/-- The leader learns that a member has scheduled a commit: it counts as completed for BARRIER (02 R49). -/
def onScheduled (r : CmdRef) (s : State) : State :=
  { s with cmds := s.cmds.map fun c => if c.is r ∧ c.relayed then { c with waiting := true } else c }

/-- A member learns another epoch number of a commit (02 R68). -/
def onNumber (r : CmdRef) (n : Word) (s : State) : State :=
  modSched r (fun x => { x with number := some n })
    { s with cmds := s.cmds.map fun c => if c.fn = r.fn ∧ c.seq = r.seq then { c with number := some n } else c }

/-- What a device does with a message of another Groom (log 44). -/
def onGroom (m : GroomMsg) (s : State) : State :=
  match m with
  | .linkReset => if isLeader s then s else safeAll (abortAll s)
  | .functionReset f => if isLeader s then s else resetCommands f s
  | .orderSafe u =>
    if isLeader s then s else if safeOf s (keyOf u) = 2 then tellSafe (keyOf u) s else orderSafe (keyOf u) s
  | .safeReached u => if isLeader s then { s with bind := { s.bind with safe := Tbl.set s.bind.safe (keyOf u) 2 } } else s
  | .bindAsk f q u owner => if isLeader s then s else onBindAsk ⟨f, q⟩ u owner s
  | .bindAnswer f q status reason shortfall => if isLeader s then onBindAnswer ⟨f, q⟩ status reason shortfall s else s
  | .release u => if isLeader s then s else addRelease u s
  | .unbound u r n staged pruned running => if isLeader s then onUnbound u r ⟨n, staged, pruned, running⟩ s else s
  | .rebound u f epoch => if isLeader s then s else onRebound u f epoch s
  | .discard => if isLeader s then s else discardStaged 0 2 s
  | .prepareBusy f q => if isLeader s then onPrepareBusy ⟨f, q⟩ s else s
  | .scheduled f q => if isLeader s then onScheduled ⟨f, q⟩ s else s
  | .number f q n => if isLeader s then s else onNumber ⟨f, q⟩ n s
  | .timeRates ppb window =>
    if isLeader s then s else { s with time := { s.time with slewPpb := ppb, windowNs := window } }

/-- What a device does with a payload that reaches it. -/
def tthAct (p src : Nat) (bcast : Bool) (b : TthBody) (s : State) : State :=
  match b with
  | .idle x => onIdle x s
  | .halo h => onHalo p h s
  | .verdict serial flags => onVerdict src serial flags s
  | .command c => if isLeader s ∨ p ≠ 0 then s else onCommand bcast c s
  | .completion f c results => if isLeader s then onCompletion src f c results s else s
  | .event f e => if isLeader s then onEvent f e s else s
  | .lostEvents f n => if isLeader s then modStall f (fun x => { x with memberLost := x.memberLost + n }) s else s
  | .ack _ _ => s
  | .time a d => if isLeader s ∨ p ≠ 0 then s else onTime a d s
  | .stats serial cost ctus bits target => takeStats src serial { cost := cost, ctus := ctus, bits := bits, target := target } s
  | .slices serial nals => if isLeader s then takeSlices src serial nals s else s
  | .route q last data => onRoute src q last data s
  | .merge k serial row first count last data => onMerge src k serial row first count last data s
  | .prepare f q mode st frame t => if isLeader s then s else onPrepare ⟨f, q⟩ mode st frame t s
  | .prepared f q d => onPrepared src ⟨f, q⟩ d s
  | .go f q n => if isLeader s then s else modSched ⟨f, q⟩ (fun x => { x with go := true, number := some n }) s
  | .stopSignal t => onStop t s
  | .groom m => onGroom m s

/-- An acknowledgement: in the window of its class everything up to SEQ is done, of class 0 only that packet; further packets
go on their way (14 R479, log 44). -/
def onAck (p cls seq : Nat) (s : State) : State :=
  let w := Tbl.get [] (tthPort s p).window cls
  let left := if cls = 0 then w.filter (·.1 != seq)
    else if w.any (·.1 == seq) then (w.dropWhile (·.1 != seq)).drop 1 else w
  let s1 := modPort p (fun x => { x with window := Tbl.set x.window cls left }) s
  if tthOpen s1 p cls then
    ((left.take 64).drop (64 - (w.length - left.length))).foldl (fun t e => emit (tthOut p cls e.1 e.2.1 e.2.2) t) s1
  else s1

/-- Acknowledges a packet to the neighbour; an acknowledgement takes no SEQ, and what its header holds there is open (log 44). -/
def sendAck (p cls seq : Nat) (s : State) : State :=
  if tthOpen s p 2 then
    emit (tthOut p 2 (Config.tthAckSeq cls seq) (.ack cls seq)
      (s.sys.device + 4 * (if p = 0 then s.sys.device - 1 else s.sys.device + 1))) s
  else s

/-- A broadcast packet, and one for another device, goes on on the other port unchanged (14 R478). -/
def forward (p route cls : Nat) (b : TthBody) (s : State) : State :=
  if tthWired s (1 - p) then tthPut (1 - p) cls b route s else s

/-- A packet past its checks and its class's order: it goes on, is acted on, or both. The insertion of a time packet is its own
forwarding, and a halo row goes no further. -/
def takeTether (p route cls : Nat) (b : TthBody) (s : State) : State :=
  let bcast := bit route 4
  let mine := bcast || route / 4 % 4 == s.sys.device
  let onward := (bcast || !mine) && cls != 1 && bodyType b != 8
  let s1 := if onward then forward p route cls b s else s
  if mine ∨ cls = 1 then tthAct p (route % 4) bcast b s1 else s1

/-- A packet of a retransmitted class is taken in order and acknowledged; a repeated one is acknowledged again (14 R479). -/
def inOrderTake (p route cls seq : Nat) (b : TthBody) (s : State) : State :=
  let want := Tbl.get 0 (tthPort s p).rxSeq cls
  let mine := bit route 4 || route / 4 % 4 == s.sys.device
  if seq = want then
    if mine ∧ !routeFits s (route % 4) b then s
    else
      takeTether p route cls b (sendAck p cls seq
        (modPort p (fun x => { x with rxSeq := Tbl.set x.rxSeq cls ((want + 1) % 65536) }) s))
  else if later want seq then sendAck p cls ((want + 65535) % 65536) s
  else s

/-- A packet that fails its CRC or HCRC is discarded, and counted where its type is not retransmitted (14 R478, R479). -/
def discardTether (p type : Nat) (s : State) : State :=
  raise (569 + 8 * p) (if type = 3 ∨ 2 ≤ typeClass type then s else modPort p (fun x => { x with discarded := x.discarded + 1 }) s)

/-- Whether a packet's payload is as long as its header says, and no longer than a packet may be (14 R477). -/
def lengthOk (p : TthPacket) : Bool := fieldAt p.hdr 4 2 == p.words && decide (p.words ≤ 256)

/-- TTH_PACKET (14 R477-R479): a packet of a wired port that is up; in Slack classes 0 and 2 only (17 R553). One of another
length than its header gives has failed (log 44). -/
def execTthPacket (port : Nat) (p : TthPacket) (s : State) : Host.Outcome State Fault Refusal :=
  .next (
    let type := fieldAt p.hdr 0 1
    let cls := typeClass type
    let route := fieldAt p.hdr 1 1
    let seq := fieldAt p.hdr 2 2
    if !(groomOn s && tthWired s port && (tthPort s port).up) then s
    else if crc8 (p.hdr.take 7) ≠ fieldAt p.hdr 7 1 then discardTether port type s
    else if type ≠ bodyType p.body ∨ (s.sys.profile = 3 ∧ cls ≠ 0 ∧ cls ≠ 2) then s
    else if !(p.crcOk && lengthOk p) then
      match p.body with
      | .halo h => onHalo port { h with crcOk := false } (discardTether port type s)
      | _ => discardTether port type s
    else match p.body with
      | .ack c q => onAck port c q s
      | .verdict _ _ => takeTether port route cls p.body (sendAck port 0 seq s)
      | b => if tthKept cls b then inOrderTake port route cls seq b s else takeTether port route cls b s)

/-- TTH_ACK_TIMEOUT (14 R479): no acknowledgement within 10 µs. -/
def execTthAckTimeout (port cls : Nat) (s : State) : Host.Outcome State Fault Refusal :=
  .next (if groomOn s && tthOpen s port cls && !(Tbl.get [] (tthPort s port).window cls).isEmpty then
    raise (570 + 8 * port) (tthResend port cls s) else s)

/-! ## Links (14 R480, R505) -/

/-- `EV_TTH_LINK` and the source of a port (14 R506). -/
def tellLink (p : Nat) (up : Bool) (lanes : Nat) (s : State) : State :=
  raise (568 + 8 * p) (tthEvent 0x8001 (s.sys.device + 4 * p + 2 ^ 8 * b2n up + 2 ^ 16 * (lanes % 256)) s)

/-- TTH_LINK_DOWN (14 R480, R505): the lanes that failed; none, where a deskew failed. Stripe frames wait for no halo across the
break, or retract under LINK_POLICY RETRACT. -/
def execTthLinkDown (port lanes : Nat) (s : State) : Host.Outcome State Fault Refusal :=
  .next (if !(groomOn s && tthWired s port && (tthPort s port).up) then s
    else
      let bad := (List.range 8).filter (bit lanes)
      let s1 := bad.foldl (fun t l => modLane (32 + 8 * port + l)
        (fun x => { x with locked := false, downs := min 255 (x.downs + 1), syncErr := min 65535 (x.syncErr + 4) }) t) s
      let s2 := modPort port (fun x => { x with up := false }) s1
      let s3 := tellLink port false lanes (if bad.isEmpty then raise (572 + 8 * port) s2 else s2)
      let s4 := if striped s.cfg.active 0 then (if s.tth.retractOnLink then retractAll 0 vOverrun s3 else releaseRows s3) else s3
      noteReach s4)

/-- TTH_LINK_UP (14 R480): all lanes have held block lock and ALIGN for 1 ms; what waited goes out, and a member delivers its
events (14 R482). A loopback on one of its lanes keeps a port down (15 R523). -/
def execTthLinkUp (port : Nat) (s : State) : Host.Outcome State Fault Refusal :=
  .next (if !(groomOn s && tthWired s port && !(tthPort s port).up) || (List.range 8).any (fun l => forcedOff s (32 + 8 * port + l)) then s
    else
      let s1 := (List.range 8).foldl (fun t l => modLane (32 + 8 * port + l) (fun x => { x with locked := true }) t) s
      let s2 := [0, 2, 3, 4].foldl (fun t cls => tthResend port cls t) (modPort port (fun x => { x with up := true }) s1)
      let s3 := tellLink port true 0 s2
      noteReach (if port = 0 then deliverBacklog s3 else s3))

/-! ## Commands (14 'TTH.CONFIGURE', R483, R499, 'TTH.HOLD_POLICY') -/

/-- The leader passes a command of its class to every device (14 'Stripes', log 44). -/
def toMembers (c : Cmd) (s : State) : State :=
  if isLeader s && inArray s then
    tthBroadcast 2 (.command { fn := c.fn, seq := c.seq, opcode := c.opcode, flags := c.flags, target := c.target
                               device := c.device, bind := c.bind, region := c.region, copy := true }) s
  else s

/-- Whether a queue of this device has the tether port towards another device as its consumer, or as its producer (11 R397). -/
def tthQueue (s : State) (q other : Nat) (source : Bool) : Bool :=
  (queue s q).configured && (if source then (queue s q).cons else (queue s q).prod) == (0x80, portTo s other)

/-- Offsets of the faulty fields of a route. -/
def routeFaults (s : State) (b : List Byte) (i : Nat) : List Nat :=
  let o := 8 + 16 * i
  let kind := fieldAt b o 1
  let sd := fieldAt b (o + 1) 1
  let sn := fieldAt b (o + 2) 2
  let dd := fieldAt b (o + 4) 1
  let dn := fieldAt b (o + 6) 2
  let most := if kind = 1 then 127 else 3
  faultIf (kind != 1 && kind != 2) o ++ faultIf (decide (s.sys.arraySize ≤ sd)) (o + 1) ++
    faultIf (decide (most < sn) || (kind == 1 && sd == s.sys.device && !tthQueue s sn dd true)) (o + 2) ++
    faultIf (decide (s.sys.arraySize ≤ dd)) (o + 4) ++ faultIf (sd == dd) (o + 1) ++ faultIf (fieldAt b (o + 5) 1 != 0) (o + 5) ++
    faultIf (decide (most < dn) || (kind == 1 && dd == s.sys.device && !tthQueue s dn sd false)) (o + 6) ++
    faultIf (fieldAt b (o + 12) 4 != 0) (o + 12)

/-- Checks of TTH_CONFIGURE. -/
def checkTthConfigure (t : State) (c : Cmd) : Option Reply :=
  stagedCheck layTthConfigure 0 (cfgKey 0x8001 0 0)
    ((List.range (fieldAt c.region 2 1)).flatMap (routeFaults t c.region)) none none t c

/-- Effect of TTH_CONFIGURE. -/
def effectTthConfigure (c : Cmd) (t : State) : State :=
  stageCmd layTthConfigure 0 (cfgKey 0x8001 0 0) c (toMembers c t)

/-- TTH_CONFIGURE (14 'TTH.CONFIGURE', R491). -/
def execTthConfigure (r : CmdRef) (s : State) : Host.Outcome State Fault Refusal :=
  .next (runCmd r 0x8001 checkTthConfigure effectTthConfigure s)

/-- Relations of `TTH.STRIPES` (05 R175; 07 R251; 14 R483-R485, R490). -/
def stripesFaults (s : State) (c : Cmd) : List Nat :=
  let b := c.region
  let n := fieldAt b 0 1
  let w (d : Nat) := fieldAt b (8 + 2 * d) 2
  let ok (d : Nat) : Bool := if d < n then decide (256 ≤ w d) && decide (w d ≤ 16384) && w d % 64 == 0 else w d == 0
  let t := withBlock s c (cfgKey 0x8002 0 0) layTthStripes 0
  let black := blackBlk t 0
  let own : Bool := match pipeIn t 0 with
    | some p => p.source == 0 && p.width == w s.sys.device && p.height == fieldAt b 2 2
    | none => false
  let fits := own && (!isLeader s || (List.range s.sys.arraySize).all fun d =>
    d == 0 || Tbl.find? s.tth.pipe0 d == some (0, w d, fieldAt b 2 2))
  let on := bit (fieldAt b 1 1) 0
  faultIf (n != s.sys.arraySize) 0 ++ faultIf (on && (!fits || fieldAt black 2 2 % 64 != 0 || bit (fieldAt black 0 1) 2)) 1 ++
    faultIf (((List.range 4).map w).sum != fieldAt b 4 4) 4 ++
    ((List.range 4).flatMap fun d => faultIf (!ok d) (8 + 2 * d)) ++ faultIf ((on && columnsBad t 0) || adaptBad t 0) 1 ++
    faultIf ((areaSmall s t 0).1 || (areaSmall s t 0).2 || cropBad t 0) 1

/-- Checks of TTH_STRIPES; stripes change the active area that the TNR buffer of stream 0 must hold (07 R243). -/
def checkTthStripes (t : State) (c : Cmd) : Option Reply :=
  let key := cfgKey 0x8002 0 0
  stagedCheck layTthStripes 0 key (stripesFaults t c) (tnrCheck t (withBlock t c key layTthStripes 0) 0) none t c

/-- Effect of TTH_STRIPES. -/
def effectTthStripes (c : Cmd) (t : State) : State :=
  stageCmd layTthStripes 0 (cfgKey 0x8002 0 0) c (toMembers c t)

/-- TTH_STRIPES (14 R483). -/
def execTthStripes (r : CmdRef) (s : State) : Host.Outcome State Fault Refusal :=
  .next (runCmd r 0x8002 checkTthStripes effectTthStripes s)

/-- The 24 bytes of a device in `TTH.DIGESTS` (14 R499); zeros for one that has sent no block. -/
def digestBytes (s : State) (d : Nat) : List Byte :=
  match Tbl.find? s.tth.blocks d with
  | some (b, tick) =>
    leBytes 4 b.epoch ++ leBytes 2 b.serial ++ leBytes 1 (b2n b.running + 2 * b2n b.thermalStop + 4 * b2n b.farPortUp) ++
      leBytes 1 0 ++ leBytes 8 b.digest ++ leBytes 4 ((s.tick - tick) * 16 / 5000 % 2 ^ 32) ++ leBytes 4 0
  | none => leBytes 24 0

/-- Checks of TTH_DIGESTS. -/
def checkTthDigests (t : State) (c : Cmd) : Option Reply := plainCheck [] t c

/-- Effect of TTH_DIGESTS. -/
def effectTthDigests (c : Cmd) (t : State) : State :=
  complete c { result0 := t.tth.diverged % 16 + 16 * b2n (t.tth.held && t.tth.hold)
               data := (List.range 4).flatMap (digestBytes t) } t

/-- TTH_DIGESTS (14 R499). -/
def execTthDigests (r : CmdRef) (s : State) : Host.Outcome State Fault Refusal :=
  .next (runCmd r 0x8003 checkTthDigests effectTthDigests s)

/-- Checks of TTH_HOLD_POLICY. -/
def checkTthHoldPolicy (t : State) (c : Cmd) : Option Reply := plainCheck layTthHold t c

/-- Effect of TTH_HOLD_POLICY. -/
def effectTthHoldPolicy (c : Cmd) (t : State) : State :=
  let b := c.region
  complete c {} (modTth (fun x =>
    { x with hold := bit (fieldAt b 0 1) 0, retractOnLink := bit (fieldAt b 0 1) 1, relayMs := fieldAt b 2 2 }) (toMembers c t))

/-- TTH_HOLD_POLICY (14 'TTH.HOLD_POLICY'). -/
def execTthHoldPolicy (r : CmdRef) (s : State) : Host.Outcome State Fault Refusal :=
  .next (runCmd r 0x8004 checkTthHoldPolicy effectTthHoldPolicy s)

end Sys2Proof.Machine
end

