-- ==== Sys2Proof/Machine/Dispatch.lean ====
section
/-! DEFINITION. One arm for each command: a direct call of its meaning, or a refusal by name. -/

namespace Sys2Proof.Machine

open Sys2Proof

/-- The effect of a command on everything but the queue. -/
def exec (i : Instr) (s : State) : Host.Outcome State Fault Refusal :=
  match i with
  | .commandDoorbell fn value => Sys2Proof.Machine.execCommandDoorbell fn value s
  | .commandAccept fn hostMem => Sys2Proof.Machine.execCommandAccept fn hostMem s
  | .cplHeadWrite fn value => Sys2Proof.Machine.execCplHeadWrite fn value s
  | .evtHeadWrite fn value => Sys2Proof.Machine.execEvtHeadWrite fn value s
  | .grmStatusClear fn value => Sys2Proof.Machine.execGrmStatusClear fn value s
  | .intPendingClear fn k value => Sys2Proof.Machine.execIntPendingClear fn k value s
  | .intMaskWrite fn k value => Sys2Proof.Machine.execIntMaskWrite fn k value s
  | .intVecAck fn value => Sys2Proof.Machine.execIntVecAck fn value s
  | .intStallClear fn value => Sys2Proof.Machine.execIntStallClear fn value s
  | .intStallMaskWrite fn value => Sys2Proof.Machine.execIntStallMaskWrite fn value s
  | .intRouteWrite fn src value => Sys2Proof.Machine.execIntRouteWrite fn src value s
  | .ringReadAdvance fn ring value => Sys2Proof.Machine.execRingReadAdvance fn ring value s
  | .queOccRead fn q => Sys2Proof.Machine.execQueOccRead fn q s
  | .quePeakRead fn q => Sys2Proof.Machine.execQuePeakRead fn q s
  | .ptpTimeCapture fn which => Sys2Proof.Machine.execPtpTimeCapture fn which s
  | .lneStatRead fn lane => Sys2Proof.Machine.execLneStatRead fn lane s
  | .registerWrite fn offset value => Sys2Proof.Machine.execRegisterWrite fn offset value s
  | .msixEnable fn => Sys2Proof.Machine.execMsixEnable fn s
  | .vfEnableClear => Sys2Proof.Machine.execVfEnableClear s
  | .numvfsWrite value => Sys2Proof.Machine.execNumvfsWrite value s
  | .linkReset hot => Sys2Proof.Machine.execLinkReset hot s
  | .linkUp => Sys2Proof.Machine.execLinkUp s
  | .functionLevelReset fn => Sys2Proof.Machine.execFunctionLevelReset fn s
  | .perstN => Sys2Proof.Machine.execPerstN s
  | .coldStart inp => Sys2Proof.Machine.execColdStart inp s
  | .hostReadyTimeout => Sys2Proof.Machine.execHostReadyTimeout s
  | .retentionEntry => Sys2Proof.Machine.execRetentionEntry s
  | .retentionEntryTimeout => Sys2Proof.Machine.execRetentionEntryTimeout s
  | .warmStart inp => Sys2Proof.Machine.execWarmStart inp s
  | .supplyUndervoltage rail => Sys2Proof.Machine.execSupplyUndervoltage rail s
  | .hbmRetentionLost stack => Sys2Proof.Machine.execHbmRetentionLost stack s
  | .safeStateReached unit => Sys2Proof.Machine.execSafeStateReached unit s
  | .rebindingApply unit => Sys2Proof.Machine.execRebindingApply unit s
  | .epochCommitApply r => Sys2Proof.Machine.execEpochCommitApply r s
  | .profileApply => Sys2Proof.Machine.execProfileApply s
  | .sysProfileCommit r => Sys2Proof.Machine.execSysProfileCommit r s
  | .sysResume r => Sys2Proof.Machine.execSysResume r s
  | .sysLinkPolicy r => Sys2Proof.Machine.execSysLinkPolicy r s
  | .sysInfo r => Sys2Proof.Machine.execSysInfo r s
  | .sysFuseProgram r leftAfter => Sys2Proof.Machine.execSysFuseProgram r leftAfter s
  | .stallConfigure r => Sys2Proof.Machine.execStallConfigure r s
  | .bindAssign r => Sys2Proof.Machine.execBindAssign r s
  | .bindRelease r => Sys2Proof.Machine.execBindRelease r s
  | .bindQuery r => Sys2Proof.Machine.execBindQuery r s
  | .epochStage r => Sys2Proof.Machine.execEpochStage r s
  | .epochCommit r => Sys2Proof.Machine.execEpochCommit r s
  | .epochCommitAt r => Sys2Proof.Machine.execEpochCommitAt r s
  | .epochDiscard r => Sys2Proof.Machine.execEpochDiscard r s
  | .epochQuery r => Sys2Proof.Machine.execEpochQuery r s
  | .funcShares r => Sys2Proof.Machine.execFuncShares r s
  | .funcQuery r => Sys2Proof.Machine.execFuncQuery r s
  | .funcResetUnits r => Sys2Proof.Machine.execFuncResetUnits r s
  | .brdConfigure r => Sys2Proof.Machine.execBrdConfigure r s
  | .brdSpare r => Sys2Proof.Machine.execBrdSpare r s
  | .brdTrigger r => Sys2Proof.Machine.execBrdTrigger r s
  | .brdCounters r => Sys2Proof.Machine.execBrdCounters r s
  | .csiConfigure r => Sys2Proof.Machine.execCsiConfigure r s
  | .csiCounters r => Sys2Proof.Machine.execCsiCounters r s
  | .pipeConfigure r => Sys2Proof.Machine.execPipeConfigure r s
  | .pipeGridLoad r => Sys2Proof.Machine.execPipeGridLoad r s
  | .pipeBlack r => Sys2Proof.Machine.execPipeBlack r s
  | .pipeMerge r => Sys2Proof.Machine.execPipeMerge r s
  | .pipeStats r => Sys2Proof.Machine.execPipeStats r s
  | .pipePlay r => Sys2Proof.Machine.execPipePlay r s
  | .colLutLoad r => Sys2Proof.Machine.execColLutLoad r s
  | .colMatrix r => Sys2Proof.Machine.execColMatrix r s
  | .colWb r => Sys2Proof.Machine.execColWb r s
  | .colOutput r => Sys2Proof.Machine.execColOutput r s
  | .colNr r => Sys2Proof.Machine.execColNr r s
  | .zipConfigure r => Sys2Proof.Machine.execZipConfigure r s
  | .zipPreroll r => Sys2Proof.Machine.execZipPreroll r s
  | .zipFlush r => Sys2Proof.Machine.execZipFlush r s
  | .recExtents r => Sys2Proof.Machine.execRecExtents r s
  | .recStart r => Sys2Proof.Machine.execRecStart r s
  | .recStop r => Sys2Proof.Machine.execRecStop r s
  | .recKey r => Sys2Proof.Machine.execRecKey r s
  | .recStatus r => Sys2Proof.Machine.execRecStatus r s
  | .audConfigure r => Sys2Proof.Machine.execAudConfigure r s
  | .encOpen r => Sys2Proof.Machine.execEncOpen r s
  | .encClose r => Sys2Proof.Machine.execEncClose r s
  | .encRoi r => Sys2Proof.Machine.execEncRoi r s
  | .encRate r => Sys2Proof.Machine.execEncRate r s
  | .encStats r => Sys2Proof.Machine.execEncStats r s
  | .decOpen r => Sys2Proof.Machine.execDecOpen r s
  | .decSubmit r errs => Sys2Proof.Machine.execDecSubmit r errs s
  | .decClose r => Sys2Proof.Machine.execDecClose r s
  | .memHash r => Sys2Proof.Machine.execMemHash r s
  | .memShedOrder r => Sys2Proof.Machine.execMemShedOrder r s
  | .queueConfigure r => Sys2Proof.Machine.execQueueConfigure r s
  | .queueFlush r => Sys2Proof.Machine.execQueueFlush r s
  | .queueStatus r => Sys2Proof.Machine.execQueueStatus r s
  | .dspConfigure r => Sys2Proof.Machine.execDspConfigure r s
  | .dspPlane r => Sys2Proof.Machine.execDspPlane r s
  | .dspFlip r => Sys2Proof.Machine.execDspFlip r s
  | .dspPalette r => Sys2Proof.Machine.execDspPalette r s
  | .netConfigure r => Sys2Proof.Machine.execNetConfigure r s
  | .netFlow r => Sys2Proof.Machine.execNetFlow r s
  | .netCounters r => Sys2Proof.Machine.execNetCounters r s
  | .timeSteer r => Sys2Proof.Machine.execTimeSteer r s
  | .timeSelect r => Sys2Proof.Machine.execTimeSelect r s
  | .timeCorrection r => Sys2Proof.Machine.execTimeCorrection r s
  | .timeRead r => Sys2Proof.Machine.execTimeRead r s
  | .tthConfigure r => Sys2Proof.Machine.execTthConfigure r s
  | .tthStripes r => Sys2Proof.Machine.execTthStripes r s
  | .tthDigests r => Sys2Proof.Machine.execTthDigests r s
  | .tthHoldPolicy r => Sys2Proof.Machine.execTthHoldPolicy r s
  | .motConfigure r => Sys2Proof.Machine.execMotConfigure r s
  | .motObserver r => Sys2Proof.Machine.execMotObserver r s
  | .motRead r => Sys2Proof.Machine.execMotRead r s
  | .pwrLimits r => Sys2Proof.Machine.execPwrLimits r s
  | .pwrThermalModel r => Sys2Proof.Machine.execPwrThermalModel r s
  | .pwrRead r => Sys2Proof.Machine.execPwrRead r s
  | .testMuckout r => Sys2Proof.Machine.execTestMuckout r s
  | .testPrbs r seen => Sys2Proof.Machine.execTestPrbs r seen s
  | .testMargin r => Sys2Proof.Machine.execTestMargin r s
  | .laneDown lane => Sys2Proof.Machine.execLaneDown lane s
  | .laneUp lane => Sys2Proof.Machine.execLaneUp lane s
  | .alignRow marks seqs => Sys2Proof.Machine.execAlignRow marks seqs s
  | .deskewFailure lane => Sys2Proof.Machine.execDeskewFailure lane s
  | .fsPacket p => Sys2Proof.Machine.execFsPacket p s
  | .ldPacket p => Sys2Proof.Machine.execLdPacket p s
  | .fePacket p => Sys2Proof.Machine.execFePacket p s
  | .embPacket p => Sys2Proof.Machine.execEmbPacket p s
  | .trailerTimeout vc => Sys2Proof.Machine.execTrailerTimeout vc s
  | .frameVerdict stream => Sys2Proof.Machine.execFrameVerdict stream s
  | .encRollback session => Sys2Proof.Machine.execEncRollback session s
  | .tapPatchDone stream tap => Sys2Proof.Machine.execTapPatchDone stream tap s
  | .spiScriptDone port miso => Sys2Proof.Machine.execSpiScriptDone port miso s
  | .triggerEdge output => Sys2Proof.Machine.execTriggerEdge output s
  | .triggerScript output => Sys2Proof.Machine.execTriggerScript output s
  | .csiFs port vc frameNo => Sys2Proof.Machine.execCsiFs port vc frameNo s
  | .csiLongPacket port p => Sys2Proof.Machine.execCsiLongPacket port p s
  | .csiFe port vc frameNo => Sys2Proof.Machine.execCsiFe port vc frameNo s
  | .csiDphyError port => Sys2Proof.Machine.execCsiDphyError port s
  | .pipeFrameBoundary pipe => Sys2Proof.Machine.execPipeFrameBoundary pipe s
  | .shadingBlendDone stream => Sys2Proof.Machine.execShadingBlendDone stream s
  | .relayPacket channel => Sys2Proof.Machine.execRelayPacket channel s
  | .nvmeWriteComplete ssd status => Sys2Proof.Machine.execNvmeWriteComplete ssd status s
  | .nvmeWriteTimeout ssd => Sys2Proof.Machine.execNvmeWriteTimeout ssd s
  | .chunkClose => Sys2Proof.Machine.execChunkClose s
  | .audWordClockFrame port samples => Sys2Proof.Machine.execAudWordClockFrame port samples s
  | .audClockLost port => Sys2Proof.Machine.execAudClockLost port s
  | .audClockRestored port => Sys2Proof.Machine.execAudClockRestored port s
  | .encPictureStart session => Sys2Proof.Machine.execEncPictureStart session s
  | .encPictureDone session pic => Sys2Proof.Machine.execEncPictureDone session pic s
  | .encOutputRelease session => Sys2Proof.Machine.execEncOutputRelease session s
  | .decPicture session pic => Sys2Proof.Machine.execDecPicture session pic s
  | .memEscalation => Sys2Proof.Machine.execMemEscalation s
  | .memRecovered => Sys2Proof.Machine.execMemRecovered s
  | .rtRestored port => Sys2Proof.Machine.execRtRestored port s
  | .memHot stack => Sys2Proof.Machine.execMemHot stack s
  | .memEcc pc row corrected => Sys2Proof.Machine.execMemEcc pc row corrected s
  | .queuePacketWrite q data => Sys2Proof.Machine.execQueuePacketWrite q data s
  | .queuePacketFree q => Sys2Proof.Machine.execQueuePacketFree q s
  | .creditReturn q => Sys2Proof.Machine.execCreditReturn q s
  | .queueFlushed q => Sys2Proof.Machine.execQueueFlushed q s
  | .flipPoint head => Sys2Proof.Machine.execFlipPoint head s
  | .genlockEdge => Sys2Proof.Machine.execGenlockEdge s
  | .genlockLost head => Sys2Proof.Machine.execGenlockLost head s
  | .teMissing head => Sys2Proof.Machine.execTeMissing head s
  | .netLinkDown port sub => Sys2Proof.Machine.execNetLinkDown port sub s
  | .netLinkUp port sub => Sys2Proof.Machine.execNetLinkUp port sub s
  | .netFrameReceived port sub frame => Sys2Proof.Machine.execNetFrameReceived port sub frame s
  | .ptpMessage port msg => Sys2Proof.Machine.execPtpMessage port msg s
  | .ptpMessageSend port kind => Sys2Proof.Machine.execPtpMessageSend port kind s
  | .announceTimeout port => Sys2Proof.Machine.execAnnounceTimeout port s
  | .timeSteerApply engine => Sys2Proof.Machine.execTimeSteerApply engine s
  | .timeSelectApply => Sys2Proof.Machine.execTimeSelectApply s
  | .timeSlewDone => Sys2Proof.Machine.execTimeSlewDone s
  | .sendSlot port flow => Sys2Proof.Machine.execSendSlot port flow s
  | .st2110PacketSend port flow => Sys2Proof.Machine.execSt2110PacketSend port flow s
  | .queueFlowSend port flow => Sys2Proof.Machine.execQueueFlowSend port flow s
  | .rxPacket port p => Sys2Proof.Machine.execRxPacket port p s
  | .rxSlotClose port flow => Sys2Proof.Machine.execRxSlotClose port flow s
  | .pathLost port flow path => Sys2Proof.Machine.execPathLost port flow path s
  | .tthPacket port p => Sys2Proof.Machine.execTthPacket port p s
  | .haloRow port row => Sys2Proof.Machine.execHaloRow port row s
  | .tthAckTimeout port cls => Sys2Proof.Machine.execTthAckTimeout port cls s
  | .tthLinkDown port lanes => Sys2Proof.Machine.execTthLinkDown port lanes s
  | .tthLinkUp port => Sys2Proof.Machine.execTthLinkUp port s
  | .relayTimeout r => Sys2Proof.Machine.execRelayTimeout r s
  | .idleControlBlock => Sys2Proof.Machine.execIdleControlBlock s
  | .prepareDeadline r => Sys2Proof.Machine.execPrepareDeadline r s
  | .arrayCommitTimeout r => Sys2Proof.Machine.execArrayCommitTimeout r s
  | .timePacketSend => Sys2Proof.Machine.execTimePacketSend s
  | .hopDelayMeasure delay => Sys2Proof.Machine.execHopDelayMeasure delay s
  | .timeLockLoss => Sys2Proof.Machine.execTimeLockLoss s
  | .motionSample inputs => Sys2Proof.Machine.execMotionSample inputs s
  | .hallEdge axis hall clock => Sys2Proof.Machine.execHallEdge axis hall clock s
  | .hallIllegalTimeout axis => Sys2Proof.Machine.execHallIllegalTimeout axis s
  | .inputBroken axis => Sys2Proof.Machine.execInputBroken axis s
  | .inputRestored axis => Sys2Proof.Machine.execInputRestored axis s
  | .observerLost axis => Sys2Proof.Machine.execObserverLost axis s
  | .observerRegained axis => Sys2Proof.Machine.execObserverRegained axis s
  | .standstill axis => Sys2Proof.Machine.execStandstill axis s
  | .motProbe axis rising clocks => Sys2Proof.Machine.execMotProbe axis rising clocks s
  | .powerMeterSample mw => Sys2Proof.Machine.execPowerMeterSample mw s
  | .capThrottleLeave => Sys2Proof.Machine.execCapThrottleLeave s
  | .droopSample domain droop => Sys2Proof.Machine.execDroopSample domain droop s
  | .snubStageExit domain => Sys2Proof.Machine.execSnubStageExit domain s
  | .thermalModelUpdate => Sys2Proof.Machine.execThermalModelUpdate s
  | .thmStopComplete => Sys2Proof.Machine.execThmStopComplete s
  | .diodeRead diode quarterDeg => Sys2Proof.Machine.execDiodeRead diode quarterDeg s
  | .modelDriftCheck => Sys2Proof.Machine.execModelDriftCheck s
  | .muckoutSliceDone pipe crcMatch => Sys2Proof.Machine.execMuckoutSliceDone pipe crcMatch s
  | .spareRowScrub pc bank row result => Sys2Proof.Machine.execSpareRowScrub pc bank row result s
  | .laneMarginReading lane m => Sys2Proof.Machine.execLaneMarginReading lane m s
  | .sysRstNAssertion => Sys2Proof.Machine.execSysRstNAssertion s
  | .supplyRecovery => Sys2Proof.Machine.execSupplyRecovery s
  | .vfEnableSet => Sys2Proof.Machine.execVfEnableSet s
  | .msixMaskWrite fn entry mask => Sys2Proof.Machine.execMsixMaskWrite fn entry mask s
  | .pllLostLock => Sys2Proof.Machine.execPllLostLock s
  | .referenceClockMissing which => Sys2Proof.Machine.execReferenceClockMissing which s
  | .ppsPulse engine => Sys2Proof.Machine.execPpsPulse engine s
  | .portPanic port fillKib => Sys2Proof.Machine.execPortPanic port fillKib s
  | .rtBufferOverflow port => Sys2Proof.Machine.execRtBufferOverflow port s
  | .memHotCleared stack => Sys2Proof.Machine.execMemHotCleared stack s
  | .csiLsLePacket port vc kind line => Sys2Proof.Machine.execCsiLsLePacket port vc kind line s
  | .delayReqSend port => Sys2Proof.Machine.execDelayReqSend port s
  | .arraySlicesMissing session => Sys2Proof.Machine.execArraySlicesMissing session s
  | .nvmeHostAccessDone r ok data => Sys2Proof.Machine.execNvmeHostAccessDone r ok data s
  | .testMarginDone lane m => Sys2Proof.Machine.execTestMarginDone lane m s

end Sys2Proof.Machine
end

