-- ==== Sys2Proof/Safety.lean ====
section
/-! DEFINITION. What counts as a safe run of the block: its memories keep their canonical form and lie in their address map, the
stalls and the fields of starts and straps stay in their ranges, and fuses only set bits. -/

namespace Sys2Proof.Machine

/-- HBM is in canonical form, and every listed byte lies in the map of 10 R365. -/
def hbmOk (m : Mem) : Prop := Mem.wf m = true ∧ ∀ c ∈ m, c.1 < Config.hbmEnd

/-- What every step keeps: HBM, the host-written part of each of the 16 stalls (02 R34), FAILS of two bits (18 R598), a device
index and an array size that the straps can name (14 R473). -/
def State.sound (s : State) : Prop :=
  hbmOk s.hbm ∧ (∀ x ∈ s.stalls, Mem.wf x.mem = true) ∧ s.stalls.length = 16 ∧ s.sys.fails ≤ 3 ∧ s.sys.device < 4 ∧
    1 ≤ s.sys.arraySize ∧ s.sys.arraySize ≤ 4

/-- Every fuse bit that is set in the first table is set in the second (17 R580). -/
def fusesGrow (f g : Tbl Nat) : Prop := ∀ k i, bit (Tbl.get 0 f k) i = true → bit (Tbl.get 0 g k) i = true

/-- A row of the command reference: the command, its opcode, and the checks of steps 7 to 12 that its meaning makes. -/
structure CmdRow where
  instr : Instr
  op : Nat
  chk : State → Cmd → Option Reply

/-- The rows of SYS, STALL, BIND, EPOCH and FUNC. -/
def groomRows (r : CmdRef) (left : Option Nat) : List CmdRow :=
  [⟨.sysProfileCommit r, 0x0001, profileCheck⟩, ⟨.sysResume r, 0x0002, checkSysResume⟩,
    ⟨.sysLinkPolicy r, 0x0003, checkSysLinkPolicy⟩, ⟨.sysInfo r, 0x0004, checkSysInfo⟩,
    ⟨.sysFuseProgram r left, 0x0005, fuseCheck⟩, ⟨.stallConfigure r, 0x0101, stallCheck⟩, ⟨.bindAssign r, 0x0201, bindCheck⟩,
    ⟨.bindRelease r, 0x0202, bindCheck⟩, ⟨.bindQuery r, 0x0203, bindQueryCheck⟩, ⟨.epochStage r, 0x0301, checkEpochStage⟩,
    ⟨.epochCommit r, 0x0302, checkEpochCommit⟩, ⟨.epochCommitAt r, 0x0303, checkEpochCommitAt⟩,
    ⟨.epochDiscard r, 0x0304, checkEpochDiscard⟩, ⟨.epochQuery r, 0x0305, checkEpochQuery⟩,
    ⟨.funcShares r, 0x0401, sharesCheck⟩, ⟨.funcQuery r, 0x0402, funcCheck⟩, ⟨.funcResetUnits r, 0x0403, funcCheck⟩]

/-- The rows of BRD, CSI, PIPE and COL. -/
def ingestRows (r : CmdRef) : List CmdRow :=
  [⟨.brdConfigure r, 0x1001, checkBrdConfigure⟩, ⟨.brdSpare r, 0x1002, checkBrdSpare⟩,
    ⟨.brdTrigger r, 0x1003, checkBrdTrigger⟩, ⟨.brdCounters r, 0x1004, checkBrdCounters⟩,
    ⟨.csiConfigure r, 0x1101, checkCsiConfigure⟩, ⟨.csiCounters r, 0x1102, checkCsiCounters⟩,
    ⟨.pipeConfigure r, 0x2001, checkPipeConfigure⟩, ⟨.pipeGridLoad r, 0x2002, checkPipeGridLoad⟩,
    ⟨.pipeBlack r, 0x2003, checkPipeBlack⟩, ⟨.pipeMerge r, 0x2004, checkPipeMerge⟩, ⟨.pipeStats r, 0x2005, checkPipeStats⟩,
    ⟨.pipePlay r, 0x2006, playCheck⟩, ⟨.colLutLoad r, 0x2101, checkColLutLoad⟩, ⟨.colMatrix r, 0x2102, checkColMatrix⟩,
    ⟨.colWb r, 0x2103, checkColWb⟩, ⟨.colOutput r, 0x2104, checkColOutput⟩, ⟨.colNr r, 0x2105, checkColNr⟩]

/-- The rows of ZIP, REC, AUD, ENC and DEC. -/
def storeRows (r : CmdRef) (errs : List DecFault) : List CmdRow :=
  [⟨.zipConfigure r, 0x3001, zipCheck⟩, ⟨.zipPreroll r, 0x3002, prerollCheck⟩, ⟨.zipFlush r, 0x3003, checkZipFlush⟩,
    ⟨.recExtents r, 0x3101, checkRecExtents⟩, ⟨.recStart r, 0x3102, startCheck⟩, ⟨.recStop r, 0x3103, checkRecStop⟩,
    ⟨.recKey r, 0x3104, keyCheck⟩, ⟨.recStatus r, 0x3105, recStatusCheck⟩, ⟨.audConfigure r, 0x3201, checkAudConfigure⟩,
    ⟨.encOpen r, 0x4001, encOpenCheck⟩, ⟨.encClose r, 0x4002, checkEncClose⟩, ⟨.encRoi r, 0x4003, checkEncRoi⟩,
    ⟨.encRate r, 0x4004, rateCheck⟩, ⟨.encStats r, 0x4005, checkEncStats⟩, ⟨.decOpen r, 0x4101, decOpenCheck⟩,
    ⟨.decSubmit r errs, 0x4102, checkDecSubmit⟩, ⟨.decClose r, 0x4103, checkDecClose⟩]

/-- The rows of MEM, QUEUE, DSP, NET and TIME. -/
def serviceRows (r : CmdRef) : List CmdRow :=
  [⟨.memHash r, 0x5001, checkMemHash⟩, ⟨.memShedOrder r, 0x5002, checkMemShedOrder⟩, ⟨.queueConfigure r, 0x5101, queueCheck⟩,
    ⟨.queueFlush r, 0x5102, checkQueueFlush⟩, ⟨.queueStatus r, 0x5103, checkQueueStatus⟩,
    ⟨.dspConfigure r, 0x6001, dspConfigureCheck⟩, ⟨.dspPlane r, 0x6002, checkDspPlane⟩, ⟨.dspFlip r, 0x6003, flipCheck⟩,
    ⟨.dspPalette r, 0x6004, checkDspPalette⟩, ⟨.netConfigure r, 0x7001, checkNetConfigure⟩,
    ⟨.netFlow r, 0x7002, netFlowCheck⟩, ⟨.netCounters r, 0x7003, checkNetCounters⟩, ⟨.timeSteer r, 0x7101, steerCheck⟩,
    ⟨.timeSelect r, 0x7102, selectCheck⟩, ⟨.timeCorrection r, 0x7103, correctionCheck⟩, ⟨.timeRead r, 0x7104, checkTimeRead⟩]

/-- The rows of TTH, MOT, PWR and TEST. -/
def deviceRows (r : CmdRef) (seen : PrbsSeen) : List CmdRow :=
  [⟨.tthConfigure r, 0x8001, checkTthConfigure⟩, ⟨.tthStripes r, 0x8002, checkTthStripes⟩,
    ⟨.tthDigests r, 0x8003, checkTthDigests⟩, ⟨.tthHoldPolicy r, 0x8004, checkTthHoldPolicy⟩,
    ⟨.motConfigure r, 0x9001, checkMotConfigure⟩, ⟨.motObserver r, 0x9002, observerCheck⟩,
    ⟨.motRead r, 0x9003, checkMotRead⟩, ⟨.pwrLimits r, 0xA001, checkPwrLimits⟩,
    ⟨.pwrThermalModel r, 0xA002, checkPwrThermalModel⟩, ⟨.pwrRead r, 0xA003, checkPwrRead⟩,
    ⟨.testMuckout r, 0xB001, checkTestMuckout⟩, ⟨.testPrbs r seen, 0xB002, prbsCheck⟩, ⟨.testMargin r, 0xB003, marginCheck⟩]

/-- Every row of the command reference. -/
def commandRows (r : CmdRef) (left : Option Nat) (errs : List DecFault) (seen : PrbsSeen) : List CmdRow :=
  groomRows r left ++ ingestRows r ++ storeRows r errs ++ serviceRows r ++ deviceRows r seen

/-- A command that stages its parameter block as it is: its opcode, its checks, the length of the block, the bytes of bulk data
that follow it, and the unit instance and slot it is staged for. -/
structure StageRow where
  instr : Instr
  op : Nat
  chk : State → Cmd → Option Reply
  len : Nat
  bulk : Nat
  unit : Nat
  slot : Nat

/-- The commands of FUNC, BRD, CSI and PIPE that stage their block as it is. -/
def stageRowsIngest (r : CmdRef) (c : Cmd) : List StageRow :=
  [⟨.funcShares r, 0x0401, sharesCheck, blockLen layShares, 0, fieldAt c.region 0 1, 0⟩,
    ⟨.brdConfigure r, 0x1001, checkBrdConfigure, blockLen layBrdConfigure, 0, 0, 0⟩,
    ⟨.brdSpare r, 0x1002, checkBrdSpare, blockLen layBrdSpare, 0, 0, 0⟩,
    ⟨.csiConfigure r, 0x1101, checkCsiConfigure, blockLen layCsiConfigure, 0, c.target, 0⟩,
    ⟨.pipeConfigure r, 0x2001, checkPipeConfigure, blockLen layPipeConfigure, 0, c.target, 0⟩,
    ⟨.pipeGridLoad r, 0x2002, checkPipeGridLoad, blockLen layPipeGridLoad, fieldAt c.region 8 4, c.target,
      gridSlot (fieldAt c.region 0 1) (fieldAt c.region 1 1)⟩,
    ⟨.pipeBlack r, 0x2003, checkPipeBlack, blockLen layPipeBlack, 0, c.target, 0⟩,
    ⟨.pipeMerge r, 0x2004, checkPipeMerge, blockLen layPipeMerge, 0, c.target, 0⟩,
    ⟨.pipeStats r, 0x2005, checkPipeStats, blockLen layPipeStats, 0, c.target, 0⟩]

/-- The commands of COL, ZIP, AUD and ENC that stage their block as it is. -/
def stageRowsColour (r : CmdRef) (c : Cmd) : List StageRow :=
  [⟨.colLutLoad r, 0x2101, checkColLutLoad, blockLen layColLut, fieldAt c.region 4 4, c.target,
    lutSlot (fieldAt c.region 0 1) (fieldAt c.region 2 1) (fieldAt c.region 1 1)⟩,
    ⟨.colMatrix r, 0x2102, checkColMatrix, blockLen layColMatrix, 0, c.target, fieldAt c.region 0 1⟩,
    ⟨.colWb r, 0x2103, checkColWb, blockLen layColWb, 0, c.target, 0⟩,
    ⟨.colOutput r, 0x2104, checkColOutput, blockLen layColOutput, 0, c.target, fieldAt c.region 0 1⟩,
    ⟨.colNr r, 0x2105, checkColNr, blockLen layColNr, 0, c.target, 0⟩,
    ⟨.zipConfigure r, 0x3001, zipCheck, blockLen layZipConfigure, 0, c.target, 0⟩,
    ⟨.zipPreroll r, 0x3002, prerollCheck, blockLen layZipPreroll, 0, c.target, 0⟩,
    ⟨.audConfigure r, 0x3201, checkAudConfigure, blockLen layAudConfigure, 0, c.target, 0⟩,
    ⟨.encRoi r, 0x4003, checkEncRoi, blockLen layEncRoi, 0, c.target, 0⟩,
    ⟨.encStats r, 0x4005, checkEncStats, blockLen layEncStats, 0, c.target, 0⟩]

/-- The commands of MEM, DSP, NET, TTH, MOT and PWR that stage their block as it is. -/
def stageRowsService (r : CmdRef) (c : Cmd) : List StageRow :=
  [⟨.memHash r, 0x5001, checkMemHash, blockLen layMemHash, 0, 0, 0⟩,
    ⟨.memShedOrder r, 0x5002, checkMemShedOrder, blockLen layMemShed, 0, 0, 0⟩,
    ⟨.dspConfigure r, 0x6001, dspConfigureCheck, blockLen layDspConfigure, 0, c.target, 0⟩,
    ⟨.dspPlane r, 0x6002, checkDspPlane, blockLen layDspPlane, 0, c.target, fieldAt c.region 0 1⟩,
    ⟨.netConfigure r, 0x7001, checkNetConfigure, blockLen layNetConfigure, 0, c.target, 0⟩,
    ⟨.netFlow r, 0x7002, netFlowCheck, blockLen layNetFlow, 0, c.target, fieldAt c.region 0 1⟩,
    ⟨.tthConfigure r, 0x8001, checkTthConfigure, blockLen layTthConfigure, 0, 0, 0⟩,
    ⟨.tthStripes r, 0x8002, checkTthStripes, blockLen layTthStripes, 0, 0, 0⟩,
    ⟨.motConfigure r, 0x9001, checkMotConfigure, blockLen layMotConfigure, 0, c.target, 0⟩,
    ⟨.motObserver r, 0x9002, observerCheck, blockLen layMotObserver, 0, c.target, 0⟩,
    ⟨.pwrLimits r, 0xA001, checkPwrLimits, blockLen layPwrLimits, 0, 0, 0⟩]

/-- The commands that stage their parameter block as it is (02 R79, R70). -/
def stageRows (r : CmdRef) (c : Cmd) : List StageRow := stageRowsIngest r c ++ stageRowsColour r c ++ stageRowsService r c

/-- The state `s` with what events and interrupt sources change of it, taken from `t` (02 R56, R57; 03 R102, R105; 14 R482): a
frame names beside it the fields that the command itself changes. -/
def reported (s t : State) : State :=
  { s with stalls := t.stalls, out := t.out, tth := t.tth, ints := { s.ints with pend := t.ints.pend, fns := t.ints.fns } }

/-- What a packet of a sensor may change (04 R122-R142, R160-R164): its channel, its stream and what takes the rows of its frame. -/
def ingested (s t : State) : Prop :=
  t = { reported s t with
    brd := t.brd, csi := t.csi, streams := t.streams, groups := t.groups, hbm := t.hbm, relays := t.relays, cod := t.cod }

/-- What a write of the recorder may change as it ends (08 R310, R312, R316). -/
def recorded (s t : State) : Prop :=
  t = { reported s t with
    recorder := t.recorder, cmds := t.cmds, groups := t.groups, lanes := t.lanes, freeCtr := t.freeCtr }

end Sys2Proof.Machine
end

