-- ==== Sys2Proof/Certificates/Slice0/Obligations.lean ====
section
/-! DEFINITION. The statements about the block for the provers: what each command leaves, when it completes, what every step
keeps. Equations name the shared operations `complete`, `raise`, `postEvent`, `unitEvent`, `sysEvent`, which have statements
of their own. -/

open Sys2Proof Sys2Proof.Machine

/-! ## The queue, the clock and what every step keeps -/

/-- A step on a waiting command is `exec` of the command at the front of the queue, with the queue's rest. -/
def Obligations.StepRunsFrontCommand : Prop :=
  ∀ (c : Instr) (rest : List Instr) (s : State), step { s with pending := c :: rest } = exec c { s with pending := rest }

/-- A step on an empty queue, while no entry into self-refresh ends (log 47), is a cycle of the time engines' clock, the model's
choice (log 3): each engine advances by its INCREMENT, modulo its range, while the engines run, from step 1 of a start on (13
R450). Where no accepted command waits to be relayed to a member (02 R52), nothing but TICK, the engines, Δ and Φ moves. -/
def Obligations.EmptyQueueTicksEngines : Prop :=
  ∀ s : State, s.pending = [] → (s.sys.entryDue = false ∨ s.thm.stop = 1) → ∃ t, step s = .next t ∧ t.tick = s.tick + 1 ∧
    ((∀ c ∈ s.cmds, c.relayed = true → c.sent = true) →
      t = { s with tick := t.tick
                   time := { s.time with engines := t.time.engines, delta := t.time.delta, phi := t.time.phi } }) ∧
    (enginesRun s = false → t.time = s.time) ∧
    (enginesRun s = true → ∀ (k : Nat) (e : Engine), s.time.engines[k]? = some e →
      t.time.engines[k]? = some { e with time := (e.time + e.incr) % (2 ^ 48 * (1000000000 * 2 ^ 32)) })

/-- Every step keeps a sound state: HBM in canonical form inside the map of 10 R365, the sixteen stalls with their
host-written bytes in canonical form, FAILS at most 3, DEVICE_ID and the array size within the straps. And no step clears a
fuse bit: each bit set before is set after, whatever command runs (17 R580). -/
def Obligations.StepKeepsSoundState : Prop :=
  ∀ s t : State, s.sound → step s = .next t → t.sound ∧ fusesGrow s.sys.fuses t.sys.fuses

/-- The state after reset is sound. -/
def Obligations.ResetIsSound : Prop := State.reset.sound

/-- `exec` leaves the queue alone: the commands that wait are the same, in the same order. -/
def Obligations.ExecLeavesQueue : Prop := ∀ (i : Instr) (s t : State), s.sound → exec i s = .next t → t.pending = s.pending

/-- The values that the spec gives after a cold start: ownership and epochs (03 R82), the epoch counter, the profile, the
routes, masks and MSI-X of 03 R98-R103, the command, completion and event indices, FAILS, both time engines at the nominal
INCREMENT with TA selected (13 R450), and empty staged state. -/
def Obligations.ResetRegisterValues : Prop :=
  (∀ k, ownerOf State.reset k = 0 ∧ epochOf State.reset k = 1) ∧ State.reset.cfg.epoch = 0 ∧ State.reset.cfg.staged = [] ∧
  State.reset.cfg.sched = [] ∧ State.reset.sys.profile = 1 ∧ State.reset.sys.fails = 0 ∧ State.reset.sys.ready = true ∧
  (∀ n, routeOf State.reset n = { func := 0, vector := 2, fixed := false, pin := false, enable := true }) ∧
  (∀ f, f < 16 → (fnInt State.reset f).msixEnable = false ∧ (fnInt State.reset f).intMask = BitVec.allOnes 640 ∧
    (stall State.reset f).nextSeq = 1 ∧ (stall State.reset f).cmdTail = 0 ∧ (stall State.reset f).cplTail = 0) ∧
  (∀ f, 1 ≤ f → f < 16 → (stall State.reset f).evtTail = 0) ∧
  State.reset.time.sel = 0 ∧ State.reset.time.engines.map (·.incr) = [0x333333333, 0x333333333] ∧
  State.reset.cmds = [] ∧ State.reset.hbm = []

/-! ## Completions, events, interrupt sources, HBM -/

/-- What a completion of the leader's own stall is (02 R53-R55, R651): the entry at GRM_CPL_TAIL with its PHASE, the index
advanced, the command gone from the accepted ones, the interrupt source pending where NOTIFY is set; no other stall and
nothing else changes, but for the results laid over the parameter region and the message that may leave. A command detached
from its stall by a function-level reset (02 R66) completes into nothing, and so does a copy that a member carries out (log 44).
-/
def Obligations.CompletionEntryWritten : Prop :=
  (∀ (c : Cmd) (r : Reply) (s : State), c.detached = true ∨ c.copy = true → complete c r s =
    { s with cmds := s.cmds.filter fun y => !(y.fn == c.fn && y.seq == c.seq && y.detached == c.detached) }) ∧
  ∀ (c : Cmd) (r : Reply) (s : State), isLeader s = true → c.detached = false → c.copy = false → c.fn < s.stalls.length →
    let t := complete c r s
    let x := stall s c.fn
    Tbl.find? (stall t c.fn).cpl (x.cplTail.toNat % 128) =
      some { seq := c.seq, opcode := c.opcode, status := r.status, bindEpoch := c.bind
             phase := decide (x.cplTail.toNat / 128 % 2 = 0), relayed := false, deferred := r.deferred
             detailSize := r.detailSize, detailSpace := r.detailSpace, detail := r.detail, result0 := r.result0
             result1 := r.result1 } ∧
    (∀ k, k ≠ x.cplTail.toNat % 128 → Tbl.find? (stall t c.fn).cpl k = Tbl.find? x.cpl k) ∧
    stall t c.fn = { x with cpl := (stall t c.fn).cpl, cplTail := x.cplTail + 1, cplPend := x.cplPend || bit c.flags 2
                            lastCompleted := (stall t c.fn).lastCompleted, mem := (stall t c.fn).mem } ∧
    (∀ a, ¬ (bit c.flags 4 = true ∧ c.ploc = 1 ∧ 0x10000 + c.ploff ≤ a ∧ a < 0x10000 + c.ploff + r.data.length) →
      Mem.byte (stall t c.fn).mem a = Mem.byte x.mem a) ∧
    (∀ f, f ≠ c.fn → stall t f = stall s f) ∧
    t = { s with stalls := t.stalls, cmds := s.cmds.filter fun y => !(y.fn == c.fn && y.seq == c.seq && !y.detached)
                 out := t.out, ints := { s.ints with fns := t.ints.fns } } ∧
    (bit c.flags 4 = false → bit c.flags 2 = false → t.out = s.out ∧ t.ints = s.ints)

/-- What an event does (02 R56, R57; 03 R84): a record at GRM_EVT_TAIL with its PHASE where the ring has a free entry, a count
where it is full, nothing for a function that does not exist; every other record, stall and field stays. -/
def Obligations.EventWrittenOrCounted : Prop :=
  ∀ (f : Nat) (e : Event) (s : State), isLeader s = true → f < s.stalls.length →
    let t := postEvent f e s
    let x := stall s f
    (fnExists s f = false → t = s) ∧
    (fnExists s f = true → 256 ≤ (x.evtTail - x.evtHead).toNat →
      stall t f = { x with evtLost := x.evtLost + 1 } ∧ { t with stalls := s.stalls } = s) ∧
    (fnExists s f = true → (x.evtTail - x.evtHead).toNat < 256 →
      Tbl.find? (stall t f).evt (x.evtTail.toNat % 256) = some { e with phase := decide (x.evtTail.toNat / 256 % 2 = 0) } ∧
      (∀ k, k ≠ x.evtTail.toNat % 256 → Tbl.find? (stall t f).evt k = Tbl.find? x.evt k) ∧
      stall t f = { x with evt := (stall t f).evt, evtTail := x.evtTail + 1, evtPend := true } ∧
      t = { s with stalls := t.stalls, out := t.out, ints := { s.ints with fns := t.ints.fns } }) ∧
    (∀ g, g ≠ f → stall t g = stall s g)

/-- What a source that becomes pending does on the leader (03 R98, R102, R103): nothing while ENABLE is 0; otherwise its bit
sets, and one message of its vector leaves exactly where the bit was clear, the source unmasked at its target, the vector not
awaiting acknowledgement and the function able to send; the vector then awaits it. -/
def Obligations.SourceSignalsItsVector : Prop :=
  ∀ (n : Nat) (s : State), n < 640 → isLeader s = true →
    let t := raise n s
    let f := targetOf s n
    let v := vectorOf s n
    ((routeOf s n).enable = false → t = s) ∧
    ((routeOf s n).enable = true →
      (∀ m, m < 640 → isPending t m = (decide (m = n) || isPending s m)) ∧
      (isPending s n = false → isMasked s f n = false → canSend s f v = true → (fnInt s f).await.getLsbD v = false →
        t.out = s.out ++ [.msix f v] ∧
          t.ints.fns = s.ints.fns.modify f fun x => { x with await := x.await ||| (1#64 <<< v) }) ∧
      ((isPending s n = true ∨ isMasked s f n = true ∨ canSend s f v = false ∨ (fnInt s f).await.getLsbD v = true) →
        t.out = s.out ∧ t.ints.fns = s.ints.fns) ∧
      t = { s with out := t.out, ints := { s.ints with pend := t.ints.pend, fns := t.ints.fns } })

/-- A unit's write to HBM inside the map is read back; every other byte stays. A write beyond the map changes no byte and
raises source 360 (10 R365, R390). -/
def Obligations.HbmWriteReadBack : Prop :=
  ∀ (a : Nat) (bs : List Byte) (s : State), hbmOk s.hbm →
    (a + bs.length ≤ Config.hbmEnd →
      hbmRead (hbmWrite a bs s) a bs.length = bs ∧ hbmOk (hbmWrite a bs s).hbm ∧
      (∀ b, (b < a ∨ a + bs.length ≤ b) → Mem.byte (hbmWrite a bs s).hbm b = Mem.byte s.hbm b) ∧
      { hbmWrite a bs s with hbm := s.hbm } = s) ∧
    (Config.hbmEnd < a + bs.length → hbmWrite a bs s = raise 360 s)

/-! ## Checks of a command -/

/-- A command of the reference that a check of steps 7 to 12 fails completes with the status of that check and changes no
other state (02 R50, R51): nothing but the stalls, the accepted commands, what has left the device, the interrupt state, the
tether's windows of a member, and the count of free values. -/
def Obligations.FailedCheckOnlyCompletes : Prop :=
  ∀ (r : CmdRef) (left : Option Nat) (errs : List DecFault) (seen : PrbsSeen), ∀ w ∈ commandRows r left errs seen,
    ∀ (s : State) (c : Cmd) (rep : Reply), startable s r w.op = some c → w.chk s c = some rep →
      ∃ t, exec w.instr s = .next t ∧ t = refuse c rep s ∧
        t = { s with stalls := t.stalls, cmds := t.cmds, out := t.out, ints := { s.ints with fns := t.ints.fns }, tth := t.tth
                     freeCtr := t.freeCtr } ∧
        (isLeader s = true → c.detached = false → c.copy = false → c.fn < s.stalls.length →
          ∃ e, Tbl.find? (stall t c.fn).cpl ((stall s c.fn).cplTail.toNat % 128) = some e ∧ e.seq = c.seq ∧
            e.status = rep.status ∧ e.detail = rep.detail ∧ e.deferred = rep.deferred)

/-- While the device is in a thermal stop, every command of the reference that 17 R574 does not list is refused: a check fails
it, so it completes and has no effect. One that no other check fails completes with `ST_DEVICE_STOPPED`. From the start of an
entry into self-refresh on, the same holds of every command that names a buffer in HBM (10 R387). -/
def Obligations.StoppedDeviceRefusesCommands : Prop :=
  ∀ (r : CmdRef) (left : Option Nat) (errs : List DecFault) (seen : PrbsSeen), ∀ w ∈ commandRows r left errs seen,
    ∀ (s : State) (c : Cmd), startable s r w.op = some c →
      (s.thm.stop ≠ 0 →
        [0x0002, 0x0004, 0x0003, 0x0101, 0xA003, 0xA002, 0x7104, 0x0305, 0x0203, 0x0402].contains w.op = false →
        (w.op = 0x3105 → fieldAt c.region 0 1 ≠ 0) →
        ∃ rep, exec w.instr s = .next (refuse c rep s) ∧
          (w.chk { s with thm := { s.thm with stop := 0 } } c = none → rep.status = 0x70)) ∧
      (s.sys.entryDue = true → buffersOf w.op c.region ≠ [] →
        ∃ rep, exec w.instr s = .next (refuse c rep s) ∧
          (w.chk { s with sys := { s.sys with entryDue := false } } c = none → rep.status = 0x70))

/-! ## The host's registers -/

/-- COMMAND_DOORBELL, 02 R44, with H, P and V as the rule has them: V equal to P changes nothing; a V in range becomes the
producer index; any other V sets DB_ERR and changes nothing else. -/
def Obligations.DoorbellMovesProducerIndex : Prop :=
  ∀ (fn : Nat) (value : Word) (s : State), hostOk s fn = true → fn < s.stalls.length →
    let x := stall s fn
    let h := x.cmdHead
    let p := x.cmdTail
    let v : Idx := value.setWidth 16
    ∃ t, exec (.commandDoorbell fn value) s = .next t ∧ { t with stalls := s.stalls } = s ∧ (∀ g, g ≠ fn → stall t g = stall s g) ∧
      (v = p → t = s) ∧
      ((p - h).toNat ≤ (v - h).toNat → (v - h).toNat ≤ 64 → stall t fn = { x with cmdTail := v }) ∧
      (v ≠ p → ¬ ((p - h).toNat ≤ (v - h).toNat ∧ (v - h).toNat ≤ 64) → stall t fn = { x with dbErr := true })

/-- CPL_HEAD_WRITE and EVT_HEAD_WRITE: an index that does not pass the producer is taken; one beyond it is ignored and sets
HEAD_ERR (20 R637). When entries of a full event ring free, `EV_EVENTS_LOST` with the count comes first (02 R57). -/
def Obligations.RingHeadWritesFreeEntries : Prop :=
  ∀ (fn : Nat) (value : Word) (s : State), hostOk s fn = true → fn < s.stalls.length →
    let x := stall s fn
    let v : Idx := value.setWidth 16
    (∃ t, exec (.cplHeadWrite fn value) s = .next t ∧ { t with stalls := s.stalls } = s ∧ (∀ g, g ≠ fn → stall t g = stall s g) ∧
      ((v - x.cplHead).toNat ≤ (x.cplTail - x.cplHead).toNat → stall t fn = { x with cplHead := v }) ∧
      ((x.cplTail - x.cplHead).toNat < (v - x.cplHead).toNat → stall t fn = { x with headErr := true })) ∧
    (∃ t, exec (.evtHeadWrite fn value) s = .next t ∧
      t = { s with stalls := t.stalls, out := t.out, ints := { s.ints with fns := t.ints.fns } } ∧
      (∀ g, g ≠ fn → stall t g = stall s g) ∧
      ((x.evtTail - x.evtHead).toNat < (v - x.evtHead).toNat → stall t fn = { x with headErr := true } ∧ t.out = s.out) ∧
      ((v - x.evtHead).toNat ≤ (x.evtTail - x.evtHead).toNat → (stall t fn).evtHead = v ∧
        (x.evtLost = 0 → x.evtWait = [] → stall t fn = { x with evtHead := v } ∧ t.out = s.out) ∧
        (0 < x.evtLost → x.evtWait = [] → (x.evtTail - v).toNat < 256 →
          (stall t fn).evtLost = 0 ∧ (stall t fn).evtTail = x.evtTail + 1 ∧
          Tbl.find? (stall t fn).evt (x.evtTail.toNat % 256) =
            some { code := 0x0001, device := s.sys.device, time := eventTime fn s, detail := x.evtLost
                   phase := decide (x.evtTail.toNat / 256 % 2 = 0) })))

/-- GRM_STATUS_CLEAR (20 R638), INT_STALL_CLEAR and INT_STALL_MASK_WRITE (20 R640): bits written 1 clear, the two mask bits
take what is written, and a message leaves only where a mask bit falls. INT_PENDING_CLEAR and INT_MASK_WRITE act on the
sources routed to the function and ignore every other bit (03 R100). A cleared level notice whose occupancy is still above its
level sets again (11 R401); a mask write moves no pending bit. -/
def Obligations.StatusAndPendingBitsWritten : Prop :=
  (∀ (fn : Nat) (value : Word) (s : State), hostOk s fn = true → fn < s.stalls.length →
     let x := stall s fn
     (∃ t, exec (.grmStatusClear fn value) s = .next t ∧ { t with stalls := s.stalls } = s ∧
       (∀ g, g ≠ fn → stall t g = stall s g) ∧
       stall t fn = { x with dbErr := x.dbErr && !value.getLsbD 0, headErr := x.headErr && !value.getLsbD 1
                             resumed := x.resumed && !value.getLsbD 2 }) ∧
     (∀ i, i = .intStallClear fn value ∨ i = .intStallMaskWrite fn value → ∃ t, exec i s = .next t ∧
       t = { s with stalls := t.stalls, out := t.out, ints := { s.ints with fns := t.ints.fns } } ∧
       (∀ g, g ≠ fn → stall t g = stall s g) ∧
       stall t fn = { x with cplPend := x.cplPend && !value.getLsbD 0, evtPend := x.evtPend && !value.getLsbD 1
                             cplMask := value.getLsbD 8, evtMask := value.getLsbD 9 } ∧
       (x.cplMask = false → x.evtMask = false → t.out = s.out ∧ t.ints = s.ints))) ∧
  (∀ (fn k : Nat) (value : Word) (s : State), hostOk s fn = true → k < 20 →
     (∃ t, exec (.intPendingClear fn k value) s = .next t ∧
       t = { s with out := t.out, ints := { s.ints with pend := t.ints.pend, fns := t.ints.fns } } ∧
       ∀ n, n < 640 → isPending t n =
         (if n / 32 = k ∧ value.getLsbD (n % 32) = true ∧ targetOf s n = fn then
           isPending s n && decide (368 ≤ n ∧ n < 496) && noticeDue s (n - 368) && (routeOf s n).enable
         else isPending s n)) ∧
     (fn < s.ints.fns.length → ∃ t, exec (.intMaskWrite fn k value) s = .next t ∧
       t = { s with out := t.out, ints := { s.ints with fns := t.ints.fns } } ∧
       (∀ n, n < 640 → isMasked t fn n =
         if n / 32 = k ∧ targetOf s n = fn then value.getLsbD (n % 32) else isMasked s fn n) ∧
       (∀ g, g ≠ fn → fnInt t g = fnInt s g)))

/-- INT_VEC_ACK, MSIX_ENABLE and MSIX_MASK_WRITE (03 R102, R103; 02 R64): an acknowledged vector is signalled at once where a
source of it is pending; enabling raises the stall sources of entries not consumed and signals every vector with a pending,
unmasked source; a mask bit takes its value, and setting one sends nothing. -/
def Obligations.VectorsAcknowledgedAndMasked : Prop :=
  ∀ (fn : Nat) (s : State), hostOk s fn = true → fn < s.ints.fns.length → fn < s.stalls.length →
    (∀ value : Word, ∃ t, exec (.intVecAck fn value) s = .next t ∧
      t = { s with out := t.out, ints := { s.ints with fns := t.ints.fns } } ∧ (∀ g, g ≠ fn → fnInt t g = fnInt s g) ∧
      (∀ v, v ≠ value.toNat % 64 → v < 64 → (fnInt t fn).await.getLsbD v = (fnInt s fn).await.getLsbD v) ∧
      (if vectorDue s fn (value.toNat % 64) && canSend s fn (value.toNat % 64) then
        t.out = s.out ++ [.msix fn (value.toNat % 64)] ∧ (fnInt t fn).await.getLsbD (value.toNat % 64) = true
      else t.out = s.out ∧ (fnInt t fn).await.getLsbD (value.toNat % 64) = false)) ∧
    (∃ t, exec (.msixEnable fn) s = .next t ∧ (fnInt t fn).msixEnable = true ∧
      t = { s with stalls := t.stalls, out := t.out, ints := { s.ints with fns := t.ints.fns } } ∧
      stall t fn = { stall s fn with
        cplPend := (stall s fn).cplPend || decide (0 < ((stall s fn).cplTail - (stall s fn).cplHead).toNat)
        evtPend := (stall s fn).evtPend || decide (0 < ((stall s fn).evtTail - (stall s fn).evtHead).toNat) } ∧
      (∀ n, n < 640 → isPending s n = true → targetOf s n = fn → isMasked s fn n = false → (fnInt s fn).fnMask = false →
        (fnInt s fn).vecMask.getLsbD (vectorOf s n) = false → .msix fn (vectorOf s n) ∈ t.out)) ∧
    (∀ (entry : Option Nat) (mask : Bool), ∃ t, exec (.msixMaskWrite fn entry mask) s = .next t ∧
      t = { s with out := t.out, ints := { s.ints with fns := t.ints.fns } } ∧ (mask = true → t.out = s.out) ∧
      (entry = none → (fnInt t fn).fnMask = mask) ∧
      (∀ v, entry = some v → v < 64 → (fnInt t fn).vecMask.getLsbD v = mask ∧ (fnInt t fn).fnMask = (fnInt s fn).fnMask))

/-- INT_ROUTE_WRITE by F0 (03 R98-R101): the route takes its fields, a VECTOR of 0 or 1 being stored as 2; a FIXED route to a
function that does not exist leads to F0; a source with ENABLE 0 is not pending; one that moves to another function is masked
there, and pending only where its condition lasts. Another function's write changes nothing. -/
def Obligations.RouteWrittenByF0 : Prop :=
  ∀ (fn src : Nat) (value : Word) (s : State), hostOk s fn = true → src < 640 → Tbl.wf s.ints.routes = true →
    (∀ f, f < 16 → f < s.ints.fns.length) →
    ∃ t, exec (.intRouteWrite fn src value) s = .next t ∧
      (fn ≠ 0 → t = s) ∧
      (fn = 0 →
        t = { s with out := t.out, ints := t.ints } ∧
        routeOf t src = { func := if value.getLsbD 10 then value.toNat % 16 else (routeOf s src).func
                          vector := if value.toNat / 16 % 64 < 2 then 2 else value.toNat / 16 % 64
                          fixed := value.getLsbD 10, pin := value.getLsbD 11, enable := value.getLsbD 12 } ∧
        (∀ m, m ≠ src → routeOf t m = routeOf s m) ∧
        (value.getLsbD 10 = true → fnExists t (value.toNat % 16) = false → targetOf t src = 0) ∧
        (value.getLsbD 12 = false → isPending t src = false) ∧
        (targetOf t src ≠ targetOf s src → targetOf t src < 16 →
          isMasked t (targetOf t src) src = true ∧ (conditionHolds s src = false → isPending t src = false)))

/-- The reads with side effects: QUE_OCC_READ clears CROSSINGS and QUE_PEAK_READ loads PEAK with the occupancy, in the owner's
BAR (11 R402, R404); PTP_TIME_CAPTURE latches the other parts for the function (20 R642); LNE_STAT_READ clears SYNC_ERR and
DOWN_COUNT, in F0's BAR (20 R646). Each answers the value before, and changes nothing else. RING_READ_ADVANCE: by the owner,
forwards and not beyond WRITE, READ takes the value; any other write is ignored (20 R643-R645). -/
def Obligations.ReadsAndRingAdvancesFollowed : Prop :=
  (∀ (fn : Nat) (s : State), hostOk s fn = true →
     (∀ q, q < 128 → ownerOf s (myUnit s 0x51 q) = fn →
       exec (.queOccRead fn q) s = .next (emit (.readData fn (0x4000 + 8 * q) ((queue s q).occ % 2 ^ 21 + 2 ^ 24 * ((queue s q).crossings % 256)))
         (modQueue q (fun x => { x with crossings := 0 }) s)) ∧
       exec (.quePeakRead fn q) s = .next (emit (.readData fn (0x4004 + 8 * q) ((queue s q).peak % 2 ^ 21))
         (modQueue q (fun x => { x with peak := x.occ }) s))) ∧
     (∀ q, q < 128 → ownerOf s (myUnit s 0x51 q) ≠ fn →
       exec (.queOccRead fn q) s = .next (emit (.readData fn (0x4000 + 8 * q) 0) s) ∧
       exec (.quePeakRead fn q) s = .next (emit (.readData fn (0x4004 + 8 * q) 0) s)) ∧
     exec (.ptpTimeCapture fn .selected) s =
       .next (emit (.readData fn 0x3004 (now s).nsec) (modFnInt fn (fun x => { x with selLatch := some (now s) }) s)) ∧
     (∀ e, e < 2 → exec (.ptpTimeCapture fn (.engine e)) s =
       .next (emit (.readData fn (0x3010 + 16 * e) ((s.time.engines.getD e {}).time % 2 ^ 32))
         (modFnInt fn (fun x => { x with engLatch := Tbl.set x.engLatch e (s.time.engines.getD e {}).time }) s))) ∧
     (∀ l, l < 72 → ∃ t, exec (.lneStatRead fn l) s = .next t ∧ { t with lanes := s.lanes, out := s.out } = s ∧
       (fn ≠ 0 → t.lanes = s.lanes ∧ t.out = s.out ++ [.readData fn (0x101000 + 8 * l) 0]) ∧
       (fn = 0 → t.out = s.out ++ [.readData fn (0x101000 + 8 * l) (lneStat (s.lanes.getD l {}))] ∧
         (∀ x, s.lanes[l]? = some x → t.lanes[l]? = some { x with syncErr := 0, downs := 0 }) ∧
         (∀ m, m ≠ l → t.lanes[m]? = s.lanes[m]?)))) ∧
  (∀ (fn : Nat) (ring : RingReg) (value : Word) (s : State), hostOk s fn = true →
     let x := ringOf s ring
     let v := value.toNat % 65536
     ∃ t, exec (.ringReadAdvance fn ring value) s = .next t ∧
       (ownerOf s x.1 ≠ fn ∨ (x.2.2 + 65536 - x.2.1) % 65536 < (v + 65536 - x.2.1) % 65536 → t = s) ∧
       (ownerOf s x.1 = fn → (v + 65536 - x.2.1) % 65536 ≤ (x.2.2 + 65536 - x.2.1) % 65536 →
         match ring with
         | .stats i => t = modStream i (fun y => { y with statsRd := v }) s
         | .decOut c => t = { s with cod := { s.cod with dec := t.cod.dec } } ∧
           t.cod.dec = s.cod.dec.map fun d => if d.core = c then { d with rd := v } else d
         | .encStats c => t = { s with cod := { s.cod with enc := t.cod.enc } } ∧
           t.cod.enc = s.cod.enc.map fun e => if e.core = c then { e with statRd := v } else e
         | .netRx p f => t = { s with net := s.net.modify p fun n => { n with flows := n.flows.modify f fun y => { y with rd := v } } }))

/-- REGISTER_WRITE: a word at an offset of the map is the write of that register; words of the command ring and of the payload
window land in the stall and read back (02 R35); an offset that is not aligned or that no table lists is ignored (20 R630,
R631). -/
def Obligations.RegisterWriteFollowsMap : Prop :=
  ∀ (fn : Nat) (value : Word) (s : State), hostOk s fn = true →
    exec (.registerWrite fn 0x000 value) s = exec (.commandDoorbell fn value) s ∧
    exec (.registerWrite fn 0x008 value) s = exec (.cplHeadWrite fn value) s ∧
    exec (.registerWrite fn 0x010 value) s = exec (.evtHeadWrite fn value) s ∧
    exec (.registerWrite fn 0x018 value) s = exec (.grmStatusClear fn value) s ∧
    (∀ k, k < 20 → exec (.registerWrite fn (0x2000 + 4 * k) value) s = exec (.intPendingClear fn k value) s ∧
      exec (.registerWrite fn (0x2080 + 4 * k) value) s = exec (.intMaskWrite fn k value) s) ∧
    exec (.registerWrite fn 0x2100 value) s = exec (.intVecAck fn value) s ∧
    exec (.registerWrite fn 0x2104 value) s = exec (.intStallMaskWrite fn value) s ∧
    (∀ n, n < 640 → exec (.registerWrite fn (0x100000 + 4 * n) value) s = exec (.intRouteWrite fn n value) s) ∧
    (∀ o, o % 4 ≠ 0 ∨ (0x2108 ≤ o ∧ o < 0x5000) ∨ (0x102000 ≤ o) → exec (.registerWrite fn o value) s = .next s) ∧
    (∀ o, o % 4 = 0 → ((0x1000 ≤ o ∧ o < 0x2000) ∨ (0x10000 ≤ o ∧ o + 4 ≤ 0x10000 + 1024 * (stall s fn).windowKib ∧ o < 0x20000)) →
      fn < s.stalls.length → Mem.wf (stall s fn).mem = true →
      ∃ t, exec (.registerWrite fn (0x20000 + o) value) s = .next t ∧ { t with stalls := s.stalls } = s ∧
        Mem.read (stall t fn).mem o 4 = leBytes 4 value.toNat ∧
        (∀ a, (a < o ∨ o + 4 ≤ a) → Mem.byte (stall t fn).mem a = Mem.byte (stall s fn).mem a) ∧
        stall t fn = { stall s fn with mem := (stall t fn).mem, begun := (stall t fn).begun })

/-! ## Acceptance -/

/-- COMMAND_ACCEPT, 02 R45 and R48: with a command in the ring and a completion entry free, GRM_CMD_HEAD passes the slot; a
SEQ other than the expected one completes with `ST_BAD_SEQUENCE` and is not accepted; the expected SEQ is accepted, the number
advances (0xFFFFFFFF to 1), and a command that passes steps 2 to 6 for this device joins the accepted ones. Without a command
or a free entry nothing changes. -/
def Obligations.CommandsAcceptedInOrder : Prop :=
  ∀ (f : Nat) (m : List (Nat × Byte)) (s : State), isLeader s = true → groomOn s = true → fnExists s f = true →
    f < s.stalls.length →
    let x := stall s f
    let y := slotAt x
    ∃ t, exec (.commandAccept f m) s = .next t ∧
      (x.cmdHead = x.cmdTail ∨ cplFree s f = false → t = s) ∧
      (x.cmdHead ≠ x.cmdTail → cplFree s f = true → (stall t f).cmdHead = x.cmdHead + 1 ∧
        (y.seq ≠ x.nextSeq →
          Tbl.find? (stall t f).cpl (x.cplTail.toNat % 128) =
            some { seq := y.seq, opcode := y.opcode, status := 0x13, phase := decide (x.cplTail.toNat / 128 % 2 = 0) } ∧
          (stall t f).cplTail = x.cplTail + 1 ∧ (stall t f).nextSeq = x.nextSeq ∧
          (stall t f).lastAccepted = x.lastAccepted ∧ (stall t f).lastCompleted = x.lastCompleted ∧ t.cmds = s.cmds) ∧
        (y.seq = x.nextSeq →
          (stall t f).lastAccepted = y.seq ∧
          (stall t f).nextSeq = (if y.seq = 0xFFFFFFFF then 1 else y.seq + 1) ∧
          (∀ i segs region, opInfo y.opcode = some i → step3 (lbaBytes s) x m i y = .ok (segs, region) → step4 s y = none →
            mayIssue s f y region = true → (judgesEpoch s f y = true → y.bind = targetEpoch s y) → y.device = s.sys.device →
            t.cmds = s.cmds ++ [slotCmd f y (if judgesEpoch s f y then y.bind else 0) segs region])))

/-! ## Staged state and commits -/

/-- The commands of 02 R79 that stage parameters: a started one that no check fails writes its block and its bulk data with
their CRC-64 into staged state, in place of the block staged before for the same parameters, and completes with DEFERRED;
committed parameters, the ones in use, scheduled commits and the epoch number stay (02 R53, R68-R70). -/
def Obligations.StagedCommandsDefer : Prop :=
  ∀ (r : CmdRef) (s : State) (c : Cmd), ∀ w ∈ stageRows r c, startable s r w.op = some c → w.chk s c = none →
    ∃ t, exec w.instr s = .next t ∧
      t = { s with stalls := t.stalls, cmds := t.cmds, out := t.out, ints := { s.ints with fns := t.ints.fns }, tth := t.tth
                   freeCtr := t.freeCtr
                   cfg := { s.cfg with staged := t.cfg.staged, stagings := s.cfg.stagings + 1 } } ∧
      t.cfg.staged = (s.cfg.staged.filter fun e => e.key ≠ cfgKey w.op w.unit w.slot) ++
        [{ fn := c.fn, key := cfgKey w.op w.unit w.slot
           val := { blk := c.region.take w.len, bulk := (c.region.drop w.len).take w.bulk
                    crc := crc64 ((c.region.drop w.len).take w.bulk) }
           order := s.cfg.stagings }] ∧
      (isLeader s = true → c.detached = false → c.copy = false → c.fn < s.stalls.length →
        ∃ e, Tbl.find? (stall t c.fn).cpl ((stall s c.fn).cplTail.toNat % 128) = some e ∧ e.seq = c.seq ∧ e.status = 0 ∧
          e.deferred = true)

/-- EPOCH.STAGE, EPOCH.DISCARD and EPOCH.QUERY (02 R655): the digest of what a commit of the scope would leave; the scope's
staged state gone, with the sessions that nothing names any more, and with SCOPE 2 that of every member, which the leader tells
(log 44); the epoch number and the digest of the committed state.
EPOCH.COMMIT and EPOCH.COMMIT_AT (02 R71, R72, R655) that no check fails: the commit captures the staged state of its scope
and is scheduled; staging goes on without it; nothing is committed or answered yet; a member tells the leader (log 44). -/
def Obligations.EpochCommandsTakeEffect : Prop :=
  (∀ (r : CmdRef) (s : State) (c : Cmd),
     (startable s r 0x0301 = some c → checkEpochStage s c = none → exec (.epochStage r) s =
       .next (complete c { result1 := digest (overlay s.cfg.committed (stagedIn s c.fn (scopeOf s c.region))) } s)) ∧
     (startable s r 0x0304 = some c → checkEpochDiscard s c = none → exec (.epochDiscard r) s =
       let u := if scopeOf s c.region = 2 ∧ isLeader s = true then tthBroadcast 2 (.groom .discard) s else s
       .next (complete c {} (sweepSessions { u with cfg := { s.cfg with
         staged := if scopeOf s c.region = 0 then s.cfg.staged.filter fun e => e.fn != c.fn else [] } }))) ∧
     (startable s r 0x0305 = some c → checkEpochQuery s c = none → exec (.epochQuery r) s =
       .next (complete c { result0 := s.cfg.epoch.toNat, result1 := digest s.cfg.committed } s))) ∧
  (∀ (r : CmdRef) (s : State) (c : Cmd) (i : Instr) (op : Nat),
     (i = .epochCommit r ∧ op = 0x0302 ∧ checkEpochCommit s c = none) ∨
       (i = .epochCommitAt r ∧ op = 0x0303 ∧ checkEpochCommitAt s c = none) →
     startable s r op = some c → arrayWide s (schedOf s c) = false →
     ∃ t x, exec i s = .next t ∧ (waitingCommits s).length < 4 ∧
       t = { s with cfg := { s.cfg with sched := s.cfg.sched ++ [x], staged := t.cfg.staged }
                    cmds := s.cmds.map fun y => if y.same c then { y with waiting := true } else y
                    tth := t.tth, out := t.out } ∧
       (isLeader s = true → t.tth = s.tth ∧ t.out = s.out) ∧
       x.ref = ⟨c.fn, c.seq⟩ ∧ x.img = stagedIn s c.fn x.scope ∧ x.scope = scopeOf s c.region ∧
       x.digest = digest (overlay s.cfg.committed x.img) ∧
       t.cfg.staged = (if x.scope = 0 then s.cfg.staged.filter fun e => e.fn != c.fn else []) ∧
       (op = 0x0302 → x.mode = 0) ∧
       (op = 0x0303 → x.mode = fieldAt c.region 0 1 ∧ x.stream = fieldAt c.region 1 1 ∧ x.frame = fieldAt c.region 4 2))

/-- EPOCH_COMMIT_APPLY of a commit of one device that is due (02 R68, R69, R655), where no commit of the array with GO waits to
apply after it: its image is laid over the committed state, the epoch number becomes the one that the leader gave it or the next
one, the epoch's plus one on a device alone, the scheduled commit is gone, and the command completes with the epoch number and the
digest. HBM keeps its bytes while the masks in use do not change (10 R366). -/
def Obligations.CommitAppliesImage : Prop :=
  ∀ (r : CmdRef) (s : State) (x : Sched) (c : Cmd), findSched s r = some x → groomOn s = true → mayApply s x = true →
    arrayWide s x = false → isLeader s = true → schedCmd s x = some c → c.detached = false → c.copy = false →
    c.fn < s.stalls.length →
    (x.number ≠ none ∨ ((numbered s).filter fun e => s.cfg.sched.any (·.ref == e.1)) = []) →
    ∃ t, exec (.epochCommitApply r) s = .next t ∧ t = { reported s t with
        cfg := t.cfg, bind := t.bind, cmds := t.cmds, net := t.net, streams := t.streams, hbm := t.hbm } ∧ t.cfg.committed = overlay s.cfg.committed x.img ∧
      t.cfg.epoch = x.number.getD (nextNumber s) ∧ (s.sys.arraySize = 1 → x.number = none → t.cfg.epoch = s.cfg.epoch + 1) ∧
      t.cfg.staged = s.cfg.staged ∧
      t.cfg.sched = s.cfg.sched.filter (fun y => y.ref != x.ref) ∧ t.bind.owner = s.bind.owner ∧ t.bind.epoch = s.bind.epoch ∧
      (hashMasks t.cfg.active = hashMasks s.cfg.active → t.hbm = s.hbm) ∧
      ∃ e, Tbl.find? (stall t c.fn).cpl ((stall s c.fn).cplTail.toNat % 128) = some e ∧ e.seq = c.seq ∧ e.status = 0 ∧
        e.result0 = t.cfg.epoch.toNat ∧ e.result1 = digest (overlay s.cfg.committed x.img)

/-! ## SYS, STALL, FUNC and BIND -/

/-- SYS.PROFILE_COMMIT and PROFILE_APPLY (02 'Central commands', 17 R552, R581, R583): CHECK_ONLY answers and changes nothing
but the count of free values; with no stream running the profile takes effect at once; else the request waits, and the frame
boundary applies it. SYS.RESUME, SYS.LINK_POLICY, SYS.INFO, STALL.CONFIGURE, FUNC.QUERY and FUNC.RESET_UNITS where no check
fails: the end of a thermal stop (17 R576); the policy; answers whose results the spec does not state, so free values, the
model's choice (log 14); the window's size, with the bytes beyond a smaller one lost (02 R36); every unit of the function
ordered to its safe state (log 14), none leaving one. -/
def Obligations.ProfileAndSystemCommandsTakeEffect : Prop :=
  (∀ (r : CmdRef) (s : State),
     (∀ c, startable s r 0x0001 = some c → profileCheck s c = none →
       let p := fieldAt c.region 0 1
       let rep := okReply (profileResult0 s p) (profileResult1 s p (fieldAt c.region 4 4))
       (bit (fieldAt c.region 1 1) 0 = true → exec (.sysProfileCommit r) s = .next (complete c rep (bump s))) ∧
       (bit (fieldAt c.region 1 1) 0 = false → (List.range 17).any (streamRuns s) = false →
         ∃ u, exec (.sysProfileCommit r) s = .next (complete c rep u) ∧ u.sys = { s.sys with profile := p } ∧
           u = { s with sys := u.sys, cfg := { s.cfg with committed := u.cfg.committed, active := u.cfg.active }
                        freeCtr := u.freeCtr, stalls := u.stalls, ints := u.ints, out := u.out, tth := u.tth }) ∧
       (bit (fieldAt c.region 1 1) 0 = false → (List.range 17).any (streamRuns s) = true →
         ∃ t, exec (.sysProfileCommit r) s = .next t ∧ t.sys.profileReq.map (·.2.1) = some p ∧ t.sys.profile = s.sys.profile ∧
           t.cfg = s.cfg ∧ t.stalls = s.stalls)) ∧
     (∀ q p r0 r1, s.sys.profileReq = some (q, p, r0, r1) → groomOn s = true →
       ∃ t, exec .profileApply s = .next t ∧
         t = { reported s t with sys := { s.sys with profile := p, profileReq := none }, cfg := t.cfg, cmds := t.cmds } ∧
         (fieldAt (limitsBlk s.cfg.committed) 4 4 ≤ profileCap p → t.cfg.committed = s.cfg.committed) ∧
         (profileCap p < fieldAt (limitsBlk s.cfg.committed) 4 4 → 4 ≤ (limitsBlk s.cfg.committed).length →
           fieldAt (limitsBlk t.cfg.committed) 4 4 = 0))) ∧
  (∀ (r : CmdRef) (s : State) (c : Cmd),
     (startable s r 0x0002 = some c → checkSysResume s c = none → ∃ u, exec (.sysResume r) s = .next (complete c {} u) ∧
       (s.thm.stop = 0 → u = s) ∧
       (s.thm.stop ≠ 0 → u = { s with thm := { s.thm with stop := 0, cooled := false, warn := false, hot := false }
                                      sys := { s.sys with phase := .running, selfRefresh := false } })) ∧
     (startable s r 0x0003 = some c → checkSysLinkPolicy s c = none → exec (.sysLinkPolicy r) s =
       .next (complete c {} { s with sys := { s.sys with linkPolicy := fieldAt c.region 0 1 } })) ∧
     (startable s r 0x0004 = some c → checkSysInfo s c = none → ∃ a b, exec (.sysInfo r) s =
       .next (complete c { result0 := a, result1 := b } { s with freeCtr := s.freeCtr + 2 })) ∧
     (startable s r 0x0402 = some c → funcCheck s c = none → ∃ a b, exec (.funcQuery r) s =
       .next (complete c { result0 := a, result1 := b } { s with freeCtr := s.freeCtr + 2 })) ∧
     (startable s r 0x0101 = some c → stallCheck s c = none → fieldAt c.region 0 1 < s.stalls.length →
       ∃ u, exec (.stallConfigure r) s = .next (complete c {} u) ∧ { u with stalls := s.stalls } = s ∧
         (∀ g, g ≠ fieldAt c.region 0 1 → stall u g = stall s g) ∧
         stall u (fieldAt c.region 0 1) = { stall s (fieldAt c.region 0 1) with
           windowKib := fieldAt c.region 2 2, mem := (stall u (fieldAt c.region 0 1)).mem } ∧
         (∀ a, a < 0x10000 + 1024 * fieldAt c.region 2 2 → Mem.byte (stall u (fieldAt c.region 0 1)).mem a =
           Mem.byte (stall s (fieldAt c.region 0 1)).mem a)) ∧
     (startable s r 0x0403 = some c → funcCheck s c = none → ∃ u, exec (.funcResetUnits r) s = .next (complete c {} u) ∧
       u = { s with bind := { s.bind with safe := u.bind.safe } } ∧
       (∀ k, k < 187 → ownerOf s (s.sys.device * 256 + k) = fieldAt c.region 0 1 → safeOf u (s.sys.device * 256 + k) ≠ 0) ∧
       (∀ k, safeOf s k ≠ 0 → safeOf u k = safeOf s k) ∧
       (∀ k, ownerOf s k ≠ fieldAt c.region 0 1 → safeOf u k = safeOf s k)))

/-- SYS.FUSE_PROGRAM, 17 R580 and R579: a value that holds every programmed bit programs the rest, and no other fuse changes;
a value that would clear a programmed bit is refused with `ST_BAD_PARAM`. Where the temperature window is left after `left`
bits, those alone are programmed, and the command completes with `ST_TEMP_WINDOW` and their number. -/
def Obligations.FusesOnlySetBits : Prop :=
  ∀ (r : CmdRef) (left : Option Nat) (s : State) (c : Cmd), startable s r 0x0005 = some c → Tbl.wf s.sys.fuses = true →
    let k := fieldAt c.region 0 1
    let v := fieldAt c.region 8 48
    let old := Tbl.get 0 s.sys.fuses k
    (fuseCheck s c = none → ∃ rep u, exec (.sysFuseProgram r left) s = .next (complete c rep u) ∧
      u = { s with sys := { s.sys with fuses := u.sys.fuses } } ∧ (∀ j, j ≠ k → Tbl.get 0 u.sys.fuses j = Tbl.get 0 s.sys.fuses j) ∧
      (∀ i, bit old i = true → bit (Tbl.get 0 u.sys.fuses k) i = true) ∧
      (∀ i, bit (Tbl.get 0 u.sys.fuses k) i = true → bit old i = true ∨ bit v i = true) ∧
      (left = none → rep = {} ∧ ∀ i, i < 384 → bit (Tbl.get 0 u.sys.fuses k) i = (bit old i || bit v i)) ∧
      (∀ n, left = some n → n < ((List.range 384).filter fun i => bit v i && !bit old i).length →
        rep = { status := 0x50, detail := n })) ∧
    ((∃ i, bit old i = true ∧ bit v i = false) → ∃ rep, rep.status = 0x11 ∧ exec (.sysFuseProgram r left) s = .next (refuse c rep s))

/-- BIND.ASSIGN, BIND.RELEASE and BIND.QUERY that no check fails (03 R86, R88; 02 R656): the rebinding of the named unit to
FUNCTION, or to F0, waits behind what the unit executes; that of a member's unit first asks the member (log 44); a query answers
the binding epoch and the owner. REBINDING_APPLY (03
R83, R88, R89): a waiting rebinding whose unit executes no command gives the unit its new owner and the next binding epoch
(65,535 goes to 1), takes the unit's parameters out of staged state and of captured images, and changes the owner and epoch of
no other unit. -/
def Obligations.RebindingsWaitAndApply : Prop :=
  (∀ (r : CmdRef) (s : State) (c : Cmd),
     let u : UnitRef := ⟨c.device, fieldAt c.region 0 1, fieldAt c.region 2 2⟩
     (∀ i op f, (i = .bindAssign r ∧ op = 0x0201 ∧ f = fieldAt c.region 1 1) ∨ (i = .bindRelease r ∧ op = 0x0202 ∧ f = 0) →
       startable s r op = some c → bindCheck s c = none → c.device = s.sys.device → exec i s = .next
         { s with bind := { s.bind with waiting := s.bind.waiting ++ [{ unit := u, newOwner := f, cmd := some ⟨c.fn, c.seq⟩ }] }
                  cmds := s.cmds.map fun y => if y.same c then { y with waiting := true } else y }) ∧
     (∀ i op f, (i = .bindAssign r ∧ op = 0x0201 ∧ f = fieldAt c.region 1 1) ∨ (i = .bindRelease r ∧ op = 0x0202 ∧ f = 0) →
       startable s r op = some c → bindCheck s c = none → c.device ≠ s.sys.device → ∃ t, exec i s = .next t ∧
         t = { s with bind := t.bind, cmds := t.cmds, tth := t.tth, out := t.out } ∧
         t.bind = { s.bind with waiting :=
           s.bind.waiting ++ [{ unit := u, newOwner := f, cmd := some ⟨c.fn, c.seq⟩, asked := true }] } ∧
         t.cmds = s.cmds.map fun y => if y.same c then { y with waiting := true } else y) ∧
     (∀ k, startable s r 0x0203 = some c → bindQueryCheck s c = none → unitKey u.device u.cls u.inst = some k →
       exec (.bindQuery r) s = .next (complete c { result0 := epochOf s k + 2 ^ 16 * ownerOf s k } s))) ∧
  (∀ (unit : UnitRef) (s : State) (w : Rebind) (k : Nat), groomOn s = true → isLeader s = true →
     unitKey unit.device unit.cls unit.inst = some k →
     (s.bind.waiting.find? fun x => unitKey x.unit.device x.unit.cls x.unit.inst == some k) = some w →
     unit.device = s.sys.device → s.cmds.any (executingOn k) = false → w.asked = false → w.done = false → (w.cmd.isSome = true ∨ safeOf s k = 2) →
     Tbl.wf s.bind.owner = true → Tbl.wf s.bind.epoch = true →
     ∃ t, exec (.rebindingApply unit) s = .next t ∧ t = { reported s t with
         bind := t.bind, cfg := t.cfg, cmds := t.cmds, cod := t.cod, heads := t.heads, sys := t.sys, time := t.time } ∧ ownerOf t k = w.newOwner ∧
       epochOf t k = (if epochOf s k = 65535 then 1 else epochOf s k + 1) ∧
       (∀ j, j ≠ k → ownerOf t j = ownerOf s j ∧ epochOf t j = epochOf s j) ∧
       t.cfg.staged = s.cfg.staged.filter (fun e => keyUnitNo s e.key != some k) ∧
       t.bind.waiting = s.bind.waiting.filter (fun x => x != w) ∧ t.cfg.committed = s.cfg.committed)

/-- SAFE_STATE_REACHED (03 R93): a unit of this device that was ordered to its safe state is in it; owners, epochs and every
other unit stay. Trigger outputs stop and no script is due; a core's waiting frames go, and a stream's noise-reduction reference
and last good frame; an engine is not steered; a head goes on (12 R437). -/
def Obligations.SafeStateReachedByClass : Prop :=
  ∀ (unit : UnitRef) (s : State) (k : Nat), groomOn s = true → unit.device = s.sys.device →
    unitKey unit.device unit.cls unit.inst = some k → safeOf s k = 1 → unitRef k = unit →
    ∃ t, exec (.safeStateReached unit) s = .next t ∧ t = { reported s t with
      bind := t.bind, brd := t.brd, cmds := t.cmds, cod := t.cod, freeCtr := t.freeCtr, groups := t.groups, lanes := t.lanes
      queues := t.queues, recorder := t.recorder, relays := t.relays, streams := t.streams, time := t.time } ∧ safeOf t k = 2 ∧ (∀ j, j ≠ k → safeOf t j = safeOf s j) ∧
      t.bind.owner = s.bind.owner ∧ t.bind.epoch = s.bind.epoch ∧
      (unit.cls ∈ [0x10, 0x11, 0x20, 0x32, 0x40, 0x60, 0x70, 0x71, 0x90] →
        (unit.cls = 0x10 → ∀ x ∈ t.brd.trigs, x.mode = 0 ∧ x.scriptDue = 0) ∧ (unit.cls ≠ 0x10 → t.brd = s.brd) ∧
        (unit.cls = 0x20 → unit.inst < s.streams.length →
          (stream t unit.inst).tnrRef = none ∧ (stream t unit.inst).lastGood = none) ∧
        (unit.cls = 0x71 → unit.inst < s.time.engines.length → (t.time.engines.getD unit.inst {}).due = none) ∧
        (unit.cls ≠ 0x20 → t.streams = s.streams) ∧
        (unit.cls = 0x40 → ∀ x ∈ t.cod.enc, x.core = unit.inst → x.waiting = []))

/-! ## Functions and the link -/

/-- VF_ENABLE_SET, VF_ENABLE_CLEAR and NUMVFS_WRITE (03 R80, R84): the functions that exist afterwards; a value above 15 is
ignored; each unit of a function that ceases to exist is ordered to its safe state and waits to go to F0. No binding epoch and
no committed parameter changes yet. FUNCTION_LEVEL_RESET of a virtual function (02 R66, R67; 03 R94): its stall is
reinitialised (NEXT_SEQ 1, empty rings but for the units' bound records, the window kept), its MSI-X and mask state returns to
reset, its staged state goes, its units are ordered to their safe states; ownership, binding epochs and committed parameters
stay. -/
def Obligations.FunctionsBeginEndAndReset : Prop :=
  (∀ s : State, configOk s = true →
     (∃ t, exec .vfEnableSet s = .next t ∧ t = { reported s t with sys := { s.sys with vfEnable := true } } ∧
       t.stalls = s.stalls) ∧
     (∃ t, exec .vfEnableClear s = .next t ∧ t = { reported s t with sys := { s.sys with vfEnable := false }, bind := t.bind } ∧
       t.bind.owner = s.bind.owner ∧ t.bind.epoch = s.bind.epoch ∧ t.stalls = s.stalls ∧
       ∀ e ∈ s.bind.owner, e.2 ≠ 0 → fnExists s e.2 = true → safeOf t e.1 ≠ 0 ∧
         { unit := unitRef e.1, newOwner := 0, cmd := none } ∈ t.bind.waiting) ∧
     (∀ n, n ≤ 15 → ∃ t, exec (.numvfsWrite n) s = .next t ∧
       t = { reported s t with sys := { s.sys with numVfs := n }, bind := t.bind } ∧
       t.bind.owner = s.bind.owner ∧ t.bind.epoch = s.bind.epoch ∧ t.stalls = s.stalls ∧
       ∀ e ∈ s.bind.owner, n < e.2 → fnExists s e.2 = true → safeOf t e.1 ≠ 0) ∧
     (∀ n, 15 < n → exec (.numvfsWrite n) s = .next s)) ∧
  (∀ (f : Nat) (s : State), configOk s = true → fnExists s f = true → f ≠ 0 → f < s.stalls.length → f < s.ints.fns.length →
     ∃ t, exec (.functionLevelReset f) s = .next t ∧ t.bind.owner = s.bind.owner ∧ t.bind.epoch = s.bind.epoch ∧
       t.cfg.committed = s.cfg.committed ∧ t.cfg.staged = s.cfg.staged.filter (fun e => e.fn != f) ∧
       (stall t f).nextSeq = 1 ∧ (stall t f).cmdHead = 0 ∧ (stall t f).cmdTail = 0 ∧ (stall t f).cplHead = 0 ∧
       (stall t f).cplTail = 0 ∧ (stall t f).evtHead = 0 ∧ (stall t f).lastAccepted = 0 ∧ (stall t f).resetKind = 3 ∧
       (stall t f).resetCount = ((stall s f).resetCount + 1) % 2 ^ 32 ∧ (stall t f).windowKib = (stall s f).windowKib ∧
       fnInt t f = {} ∧
       (∀ k, k < 187 → ownerOf s (s.sys.device * 256 + k) = f → safeOf t (s.sys.device * 256 + k) ≠ 0) ∧
       (∀ g, g ≠ f → stall t g = stall s g))

/-- LINK_RESET and PERST_N (02 R62, R63, R67; 03 R103; 18 R587) while no command would abort and the policy is CONTINUE: the
link goes down with its lanes, MSI-X Enable clears in every function, and every stall records the reset; nothing else
changes, but for the message that tells the members of an array (log 44). PERST_N also returns the configuration space to
its reset values. LINK_UP (02 R64, R65): RESUMED is set in every stall, every command slot beyond the last landed doorbell
reads 0, every other slot and every byte outside the command ring stays, and no index moves; the lanes are equalised anew
(15 R512). -/
def Obligations.LinkResetAndLinkUpFollowed : Prop :=
  (∀ (hot : Bool) (s : State), groomOn s = true → isLeader s = true → s.sys.linkPolicy = 0 → s.cmds.any aborts = false →
     (s.sys.linkUp = true → ∃ t, exec (.linkReset hot) s = .next t ∧
       t = { s with
         sys := { s.sys with linkUp := false }
         ints := { s.ints with fns := s.ints.fns.map fun x => { x with msixEnable := false } }
         stalls := s.stalls.map fun x =>
           { x with resetCount := (x.resetCount + 1) % 2 ^ 32, resetKind := if hot then 1 else 2, aborted := 0 }
         lanes := t.lanes, tth := t.tth, out := t.out } ∧
       (∀ l, l ∉ endpointLanes → lane t l = lane s l) ∧
       (∀ l ∈ endpointLanes, l < s.lanes.length →
         lane t l = { lane s l with
           locked := false, downs := if (lane s l).locked then min 255 ((lane s l).downs + 1) else (lane s l).downs }) ∧
       (s.sys.arraySize = 1 → t.tth = s.tth ∧ t.out = s.out)) ∧
     (∃ t, exec .perstN s = .next t ∧ t.sys = { s.sys with linkUp := false, vfEnable := false, numVfs := 0 } ∧
       t.stalls = s.stalls.map (fun x => { x with resetCount := (x.resetCount + 1) % 2 ^ 32, resetKind := 4, aborted := 0 }) ∧
       (s.sys.arraySize = 1 → (∀ e ∈ s.bind.owner, e.1 < 256) → t.out = s.out) ∧ t.cfg = s.cfg ∧ t.cmds = s.cmds ∧ t.hbm = s.hbm ∧ t.streams = s.streams ∧
       (∀ f, (fnInt t f).msixEnable = false))) ∧
  (∀ s : State, groomOn s = true → isLeader s = true → s.sys.linkUp = false → s.thm.stop ≠ 2 →
     ∃ t, exec .linkUp s = .next t ∧ t = { s with
       sys := { s.sys with linkUp := true }, stalls := t.stalls, lanes := t.lanes, freeCtr := t.freeCtr } ∧
       t.stalls.length = s.stalls.length ∧
       ∀ f, f < s.stalls.length →
         let x := stall s f
         let y := stall t f
         y = { x with discarded := y.discarded, mem := y.mem, begun := y.begun, resumed := true } ∧
         (∀ k, k < 64 - (x.cmdTail - x.cmdHead).toNat → ∀ i, i < 64 →
           Mem.byte y.mem (0x1000 + 64 * ((x.cmdTail.toNat + k) % 64) + i) = 0) ∧
         (∀ a, a < 0x1000 ∨ 0x2000 ≤ a → Mem.byte y.mem a = Mem.byte x.mem a) ∧
         (∀ k, k < (x.cmdTail - x.cmdHead).toNat → (x.cmdTail - x.cmdHead).toNat ≤ 64 → ∀ i, i < 64 →
           Mem.byte y.mem (0x1000 + 64 * ((x.cmdHead.toNat + k) % 64) + i) =
             Mem.byte x.mem (0x1000 + 64 * ((x.cmdHead.toNat + k) % 64) + i)))

/-! ## Starts, resets, retention -/

/-- SYS_RST_N_ASSERTION and SUPPLY_UNDERVOLTAGE of a watched rail (18 R584, 19 R617, R621): the device is in reset, its
outputs float, and only the failed-start count, the fuses and what lies outside the device survive. SUPPLY_RECOVERY: every
watched rail is back, and a start begins at step 1 unless SYS_RST_N is low. -/
def Obligations.ResetKeepsFailedStarts : Prop :=
  ∀ s : State,
    (∃ t, exec .sysRstNAssertion s = .next t ∧ t.sys.phase = .held ∧ t.sys.sysRstLow = true ∧ t.sys.ready = false ∧
      t.sys.linkUp = false ∧ t.sys.fails = s.sys.fails ∧ t.sys.fuses = s.sys.fuses ∧ t.sys.railsLow = s.sys.railsLow ∧
      t.pins.floating = true ∧ t.cmds = [] ∧ t.cfg = {} ∧ t.bind = {} ∧ t.ints = {} ∧ t.hbm = [] ∧ t.cod = {} ∧
      t.queues = [] ∧ t.time = {} ∧ t.thm.tripLow = false ∧ t.stalls = List.replicate 16 {} ∧ t.out = s.out) ∧
    (∀ rail, rail < 4 → ∃ t, exec (.supplyUndervoltage rail) s = .next t ∧ t.sys.phase = .held ∧ rail ∈ t.sys.railsLow ∧
      t.sys.fails = s.sys.fails ∧ t.sys.fuses = s.sys.fuses ∧ t.sys.ready = false ∧ t.pins.floating = true ∧ t.cfg = {} ∧
      t.hbm = [] ∧ t.cmds = []) ∧
    (∀ rail, 4 ≤ rail → exec (.supplyUndervoltage rail) s = .next s) ∧
    (s.sys.railsLow ≠ [] → exec .supplyRecovery s = .next { s with
      sys := { s.sys with
        railsLow := []
        phase := if s.sys.sysRstLow then s.sys.phase else .released
        step := if s.sys.sysRstLow then s.sys.step else 1 }
      time := if s.sys.sysRstLow then s.time else {} })

/-- COLD_START and HOST_READY_TIMEOUT (18 R585, R589, R595-R598; 17 R578; 10 R387): a start whose checks pass reaches
host-ready with every unit F0's at binding epoch 1, no configuration and FAILS 0, the time engines running from step 1; the first
check that fails gives its FAIL_CODE and the next start, or the halt with the code on the UART where FAILS is 3; a diode at 90 °C
or above makes it wait.
-/
def Obligations.ColdStartReachesHostReady : Prop :=
  ∀ (inp : StartInputs) (s : State), s.sys.railsLow = [] → (s.sys.phase = .held ∨ s.sys.phase = .released) →
    let cool := (inp.diode0 : Rat) / 4 < 90 ∧ (inp.diode1 : Rat) / 4 < 90
    let authentic := if s.sys.fails = 3 then inp.recoveryAuthentic = true else inp.primaryAuthentic = true
    (cool → inp.flashReadOk = true → authentic → inp.hbmTrained = true → inp.inTime = true →
      ∃ t, exec (.coldStart inp) s = .next t ∧ t.sys.phase = .running ∧ t.sys.ready = true ∧ t.sys.fails = 0 ∧
        t.sys.profile = 1 ∧ t.sys.fuses = s.sys.fuses ∧ t.sys.device = inp.deviceIndex % 4 ∧ t.bind = {} ∧ t.cfg = {} ∧
        t.cmds = [] ∧ t.hbm = [] ∧ t.time = (if s.sys.phase = .held then {} else s.time) ∧ t.pins.floating = false ∧ (∀ u, ownerOf t u = 0 ∧ epochOf t u = 1) ∧
        (∀ f, 1 ≤ f → f < 16 → stall t f = {})) ∧
    (∀ code, (cool ∧ ((code = 2 ∧ inp.flashReadOk = false) ∨ (code = 1 ∧ inp.flashReadOk = true ∧ ¬ authentic) ∨
        (code = 3 ∧ inp.flashReadOk = true ∧ authentic ∧ inp.hbmTrained = false))) →
      ∃ t, exec (.coldStart inp) s = .next t ∧ t.sys.failCode = code ∧ t.sys.fuses = s.sys.fuses ∧
        (s.sys.fails = 3 → t.sys.phase = .halted ∧ t.sys.ready = false ∧ t.out = s.out ++ [.uart code]) ∧
        (s.sys.fails ≠ 3 → t.sys.phase = .released ∧ t.sys.fails = s.sys.fails + 1 ∧ t.out = s.out)) ∧
    (¬ cool → ∃ t, exec (.coldStart inp) s = .next t ∧ t.sys.phase = .released ∧ t.sys.fails = s.sys.fails ∧
      t.sys.step = 1 ∧ t.out = s.out) ∧
    (s.sys.phase = .released → s.sys.step ≠ 1 → ∃ t, exec .hostReadyTimeout s = .next t ∧ t.sys.failCode = 4 ∧ t.hbm = s.hbm ∧
      (s.sys.fails = 3 → t.sys.phase = .halted ∧ t.out = s.out ++ [.uart 4]) ∧
      (s.sys.fails ≠ 3 → t.sys.fails = s.sys.fails + 1 ∧ t.sys.phase = .released ∧ t.out = s.out))

/-- RETENTION_ENTRY, RETENTION_ENTRY_TIMEOUT and HBM_RETENTION_LOST (18 R585, R586; 10 R387-R389): an entry begins, and one that
takes too long will leave an invalid record; it ends at the next step on an empty queue, or before a warm start, but not during
STOPPING (log 47): HBM goes to self-refresh with its bytes, a record with the key hash is written, valid where the entry was in
time, and the link is down; contents that are lost are those of a memory that nothing has written (log 2).
WARM_START (18 R592-R597): with a valid record, matching signature rows, image hash and key hash, HBM keeps its bytes, the
epoch number and the kept parameters stay, every unit is F0's, and the device is ready; where one fails the start becomes a
cold start, and HBM is lost (log 2). -/
def Obligations.RetentionAndWarmStartKeepHbm : Prop :=
  (∀ s : State,
     (s.sys.ready = true → s.sys.sysRstLow = false → (s.sys.phase = .running ∨ s.sys.phase = .stopped) →
       exec .retentionEntry s =
         .next { s with sys := { s.sys with entryDue := true, entryLate := false, warmRstLow := true } }) ∧
     (s.sys.ready = false ∨ s.sys.sysRstLow = true → exec .retentionEntry s = .next s) ∧
     exec .retentionEntryTimeout s =
       .next { s with sys := { s.sys with entryLate := s.sys.entryDue || s.sys.entryLate } } ∧
     (s.sys.entryDue = true → s.thm.stop ≠ 1 → s.pending = [] →
       ∃ t, step s = .next t ∧ t.hbm = s.hbm ∧ t.sys.phase = .retained ∧ t.sys.selfRefresh = true ∧ t.sys.linkUp = false ∧
         t.sys.ready = false ∧ t.sys.entryDue = false ∧
         t.sys.retention = some ⟨!s.sys.entryLate, Tbl.get 0 s.sys.fuses 1⟩ ∧ t.cfg = s.cfg ∧ t.bind = s.bind) ∧
     (∀ k, k < 2 → s.sys.selfRefresh = true →
       exec (.hbmRetentionLost k) s = .next { s with hbm := [], sys := { s.sys with lost := true } })) ∧
  (∀ (inp : WarmInputs) (s : State), s.sys.entryDue = true → s.thm.stop ≠ 1 →
     exec (.warmStart inp) s = exec (.warmStart inp) (enterRetention (!s.sys.entryLate) s)) ∧
  (∀ (inp : WarmInputs) (s : State) (h : Nat), s.sys.phase = .retained → s.sys.entryDue = false →
     (s.sys.retention = some ⟨true, h⟩ → s.sys.lost = false → inp.signatureRowsMatch = true → inp.imageHashMatches = true →
       h = Tbl.get 0 s.sys.fuses 1 → s.thm.stop ≠ 2 →
       ∃ t, exec (.warmStart inp) s = .next t ∧ t.hbm = s.hbm ∧ t.sys.phase = .running ∧ t.sys.ready = true ∧
         t.sys.startKind = 1 ∧ t.sys.fails = 0 ∧ t.sys.profile = s.sys.profile ∧ t.sys.fuses = s.sys.fuses ∧
         t.cfg.epoch = s.cfg.epoch ∧ t.cfg.staged = [] ∧ t.cfg.sched = [] ∧ (∀ k, ownerOf t k = 0) ∧ t.cmds = [] ∧
         (∀ e ∈ t.cfg.committed, e ∈ s.cfg.committed ∧ e.1 / 65536 ∈ [0x0401, 0xA001, 0x5001, 0x5002])) ∧
     (s.sys.retention = none ∨ s.sys.retention = some ⟨false, h⟩ ∨ s.sys.lost = true ∨ inp.signatureRowsMatch = false ∨
         inp.imageHashMatches = false ∨ (s.sys.retention = some ⟨true, h⟩ ∧ h ≠ Tbl.get 0 s.sys.fuses 1) →
       ∃ t, exec (.warmStart inp) s = .next t ∧ t.hbm = [] ∧ t.cfg = {} ∧ t.bind = {} ∧ t.sys.fuses = s.sys.fuses ∧ t.sys.startKind ≠ 1))

/-! ## Network time -/

/-- TIME.STEER, TIME.SELECT, TIME.CORRECTION and TIME.READ that no check fails (13 R448-R452; 02 'TIME.READ'): a steering and
a selection wait for an engine cycle, and no timeline moves yet; a steering is its engine's start command (03 R96, log 51); a
correction is kept for its port and sub-port; a read answers the engine's time and the selected time in ns. -/
def Obligations.TimeCommandsTakeEffect : Prop :=
  ∀ (r : CmdRef) (s : State) (c : Cmd),
    let waits := s.cmds.map fun y => if y.same c then { y with waiting := true } else y
    let b := c.region
    (startable s r 0x7101 = some c → steerCheck s c = none → exec (.timeSteer r) s = .next { s with
      cmds := waits
      bind := { s.bind with safe := Tbl.erase s.bind.safe (myUnit s 0x71 c.target) }
      time := { s.time with engines := s.time.engines.modify c.target fun e => { e with due := some ⟨c.fn, c.seq⟩ } } }) ∧
    (startable s r 0x7102 = some c → selectCheck s c = none → exec (.timeSelect r) s = .next { s with
      cmds := waits, time := { s.time with due := s.time.due ++ [⟨c.fn, c.seq⟩] } }) ∧
    (startable s r 0x7103 = some c → correctionCheck s c = none → fieldAt b 0 1 < s.net.length →
      ∃ u, exec (.timeCorrection r) s = .next (complete c {} u) ∧ u = { s with net := u.net } ∧
        (∀ p, p ≠ fieldAt b 0 1 → netPort u p = netPort s p) ∧
        netPort u (fieldAt b 0 1) = { netPort s (fieldAt b 0 1) with corr := (netPort u (fieldAt b 0 1)).corr } ∧
        Tbl.find? (netPort u (fieldAt b 0 1)).corr (fieldAt b 1 1) =
          some (signed 32 (fieldAt b 4 4), signed 32 (fieldAt b 8 4))) ∧
    (startable s r 0x7104 = some c → checkTimeRead s c = none → ∃ d, exec (.timeRead r) s = .next (complete c
      { result0 := (s.time.engines.getD (fieldAt b 0 1) {}).time / 2 ^ 32 % 2 ^ 64, result1 := nowNs s % 2 ^ 64, data := d } s) ∧
      d.length = 32 ∧ fieldAt d 8 8 = unsigned 64 s.time.delta ∧ fieldAt d 16 8 = unsigned 64 s.time.phi)

/-- TIME_STEER_APPLY (13 R451-R454): at an engine cycle the steering of an engine that is not in its safe state gives its
engine the time and the increment of the block, no other engine changes, and the command completes with the engine's time. The
frame timeline F does not move, and the selected time S moves only where Δ would lie within the window. TIME_SELECT_APPLY and
TIME_SLEW_DONE (13 R452, R453, R660): a selection takes effect at the cycle; F does not move, S moves only where Δ would lie
within the window, and the command answers Δ after step 1; a leader tells its members the rates (log 57). The end of the
transition is told once. -/
def Obligations.TimelinesKeptAcrossSteeringAndSelection : Prop :=
  (∀ (e : Nat) (s : State) (r : CmdRef) (c : Cmd), enginesClocked s = true → isLeader s = true →
     (s.time.engines.getD e {}).due = some r → findCmd s r = some c → s.time.due = [] →
     safeOf s (myUnit s 0x71 e) ≠ 2 →
     let a := fieldAt c.region 1 1
     ∃ t, exec (.timeSteerApply e) s =
         .next (complete c { result0 := (t.time.engines.getD e {}).time / 2 ^ 32 % 2 ^ 64 } t) ∧
       t = { s with time := t.time, ints := t.ints, out := t.out } ∧
       (∀ k, k ≠ e → t.time.engines.getD k {} = s.time.engines.getD k {}) ∧
       (let x := s.time.engines.getD e {}
        let y := t.time.engines.getD e {}
        y.due = none ∧ y.steered = true ∧ y.incr = (if bit a 0 then fieldAt c.region 4 8 else x.incr) ∧
        (bit a 2 = true → y.time = timeUnits (timeAt c.region 0x14) % timeRange) ∧
        (bit a 2 = false → bit a 1 = true →
         (y.time : Int) = ((x.time : Int) + signed 64 (fieldAt c.region 0xC 8) * 2 ^ 32) % (timeRange : Int)) ∧
        (bit a 2 = false → bit a 1 = false → y.time = x.time)) ∧
       fUnits t.time = fUnits s.time ∧
       (sUnits t.time = sUnits s.time ∨
         (t.time.delta = 0 ∧ (sUnits s.time - sUnits t.time).natAbs ≤ s.time.windowNs * 2 ^ 32))) ∧
  ((∀ (s : State) (c : Cmd), enginesClocked s = true → isLeader s = true → s.time.due = [⟨c.fn, c.seq⟩] →
     findCmd s ⟨c.fn, c.seq⟩ = some c →
     let b := c.region
     let only := bit (fieldAt b 1 1) 0
     ∃ t rep, exec .timeSelectApply s = .next (complete c rep t) ∧
       t = { s with time := t.time, ints := t.ints, out := t.out, tth := t.tth } ∧ (s.sys.arraySize = 1 → t.tth = s.tth) ∧
       t.time.engines = s.time.engines ∧ t.time.due = [] ∧ t.time.slewPpb = fieldAt b 4 4 ∧ t.time.windowNs = fieldAt b 8 4 ∧
       t.time.sel = (if only then s.time.sel else fieldAt b 0 1) ∧
       t.time.auto = (if only then s.time.auto else bit (fieldAt b 1 1) 1) ∧
       fUnits t.time = fUnits s.time ∧
       (sUnits t.time = sUnits s.time ∨
         (t.time.delta = 0 ∧ (sUnits s.time - sUnits t.time).natAbs ≤ fieldAt b 8 4 * 2 ^ 32)) ∧
       rep.status = 0 ∧
       rep.result0 = unsigned 64 ((sUnits s.time - ((s.time.engines.getD t.time.sel {}).time : Int)) / 2 ^ 32)) ∧
   (∀ s : State, enginesClocked s = true → s.time.slewing = true → s.time.delta = 0 → s.time.phi = 0 →
     exec .timeSlewDone s = .next (raise 561 (sysEvent 0x7104 0x71 s.time.sel
       (s.time.sel + 2 ^ 32 * (s.time.slewUs % 2 ^ 32)) { s with time := { s.time with slewing := false } })) ∧
     ∀ t, exec .timeSlewDone s = .next t → exec .timeSlewDone t = .next t))

/-- PTP_MESSAGE of a clocked port with a PTP instance and its link up (13 R444-R447): another domain is counted; an Announce
notes its sender, and the best master that qualifies is followed, from a new one UNCALIBRATED, unless the instance's own clock is
better and its role lets it be master; a master that changes is told. The last of t1 and t4 completes the exchange with
meanPathDelay and the offset, and the instance is SLAVE; a Delay_Resp for another port is none of it. A master answers a Delay_Req
with its ingress time. ANNOUNCE_TIMEOUT: the instance goes on with the best of the other masters, or as MASTER, or LISTENING where
its role does not let it be master (log 27); with AUTO the other engine is selected where its instance is a slave (R455), and F
does not move. -/
def Obligations.PtpMessagesFollowed : Prop :=
  ∀ (p e : Nat) (m : PtpMsg) (s : State), ptpEngine s p = some e → ptpLive s p = true → p < s.net.length →
    let b := (activeBlk s 0x7001 p 0).getD []
    let x := (netPort s p).ptp
    let role := fieldAt b 3 1
    let counted := countAt p 0 1 s
    let beats := fun (f : Foreign) => decide (role = 2) && better (ownData s p e) (portIdentity p) f.data f.source
    let measured := fun (t1 t2 t3 t4 : Int) =>
      let d := ((t2 - t3) + (t4 - t1)) / 2
      raise (544 + 8 * e) (unitEvent 0x7101 0x71 e none (unsigned 64 (t2 - t1 - d))
        (modPtp p (fun y => { y with state := 9, pathDelay := d, t1 := none, t2 := none, t3 := none, t4 := none }) counted))
    (m.domain ≠ fieldAt b 4 1 → exec (.ptpMessage p m) s = .next (countAt p 6 1 counted)) ∧
    (m.domain = fieldAt b 4 1 → m.kind = .announce → role ≠ 1 → m.announce.stepsRemoved < 255 →
      m.source / 65536 ≠ Config.clockIdentity p →
      let heard := { x with foreign := noteForeign m s.tick x.foreign }
      (bestForeign s p heard = none → exec (.ptpMessage p m) s = .next (modPtp p (fun _ => heard) counted)) ∧
      (∀ f, bestForeign s p heard = some f → beats f = false →
        let same := x.master.isSome && x.masterId == f.source
        let u := modPtp p (fun _ => if same then { heard with master := some f.data } else
          { heard with state := 8, master := some f.data, masterId := f.source, t1 := none, t2 := none, t3 := none, t4 := none }) counted
        exec (.ptpMessage p m) s = .next
          (if same && x.master.map (·.gmIdentity) == some f.data.gmIdentity then u else tellMaster e f.data.gmIdentity u)) ∧
      (∀ f, bestForeign s p heard = some f → beats f = true →
        let u := modPtp p (fun _ => { heard with state := 6, master := none, t1 := none, t2 := none, t3 := none, t4 := none }) counted
        exec (.ptpMessage p m) s = .next (if x.master.isSome then tellMaster e (Config.clockIdentity p) u else u))) ∧
    (m.domain = fieldAt b 4 1 → x.master.isSome = true → (ptpState s p = 8 ∨ ptpState s p = 9) → m.source = x.masterId →
      (m.kind = .delayResp → m.seqId = x.reqSeq →
        let t4 : Int := (m.originNs : Int) * 65536 - m.correction
        (m.requesting ≠ portIdentity p → exec (.ptpMessage p m) s = .next counted) ∧
        (m.requesting = portIdentity p → ∀ t2 t3, x.t2 = some t2 → x.t3 = some t3 →
          (∀ t1, x.t1 = some t1 → exec (.ptpMessage p m) s = .next (measured t1 t2 t3 t4)) ∧
          (x.t1 = none → exec (.ptpMessage p m) s = .next (modPtp p (fun y => { y with t4 := some t4 }) counted)))) ∧
      (∀ t2 t3 t4, m.kind = .followUp → m.seqId = x.syncSeq → x.t1 = none → x.t2 = some t2 → x.t3 = some t3 → x.t4 = some t4 →
        exec (.ptpMessage p m) s = .next
          (measured ((m.originNs : Int) * 65536 + m.correction + x.syncCorr) t2 t3 t4))) ∧
    (m.domain = fieldAt b 4 1 → m.kind = .delayReq → ptpState s p = 6 → 1500 ≤ portMtu s.cfg.active p →
      let t4 := stampOf s p e - (corrOf s p).1
      ∃ t, exec (.ptpMessage p m) s = .next t ∧ t = { s with net := t.net, out := t.out, freeCtr := s.freeCtr + 1 } ∧
        t.out = s.out ++ [.net p 0 (ptpFrame s p .delayResp m.seqId 0 (m.correction - stampFraction t4) (fieldAt b 7 1)
          (stampTimestamp t4 ++ beBytes 10 m.source))]) ∧
    (role = 2 → x.master = none → ∃ t, exec (.announceTimeout p) s = .next t ∧ (netPort t p).ptp = { x with state := 6 } ∧
      t = { s with net := t.net }) ∧
    (x.master.isSome = true → e ≠ s.time.sel →
      let rest := { x with foreign := x.foreign.filter (·.source != x.masterId) }
      let told := raise (544 + 8 * e + 1) (unitEvent 0x7102 0x71 e none e s)
      let best := (bestForeign s p rest).filter fun f => !beats f
      (∀ f, best = some f → exec (.announceTimeout p) s = .next (tellMaster e f.data.gmIdentity (modPtp p (fun _ =>
        { rest with state := 8, master := some f.data, masterId := f.source
                    t1 := none, t2 := none, t3 := none, t4 := none }) told))) ∧
      (best = none →
        let u := modPtp p (fun _ => { rest with
          state := if role = 2 then 6 else 4, master := none, t1 := none, t2 := none, t3 := none, t4 := none }) told
        exec (.announceTimeout p) s = .next (if role = 2 then tellMaster e (Config.clockIdentity p) u else u))) ∧
    (∀ q, x.master.isSome = true → e = s.time.sel → s.time.auto = true → isLeader s = true → enginePort s (1 - e) = some q →
      ptpState s q = 9 → safeOf s (myUnit s 0x71 e) = 0 →
      ∃ t, exec (.announceTimeout p) s = .next t ∧ t = { reported s t with net := t.net, time := t.time } ∧ t.time.sel = 1 - e ∧ fUnits t.time = fUnits s.time ∧
        t.time.engines = s.time.engines)

/-- PTP_MESSAGE_SEND and DELAY_REQ_SEND on a clocked port with a PTP instance and its link up (13 R444, R445, R447, R449; 01 R33): a
master's Sync leaves with its number; a one-step one carries its egress time, the integer nanoseconds in the timestamp and the
fraction in correctionField, and a two-step master keeps it for the Follow_Up. An Announce leaves with the master's own data set,
and a slave's Delay_Req with its own number and its egress time (log 27; the frames' layouts are log 28). -/
def Obligations.PtpMessagesSent : Prop :=
  ∀ (p e : Nat) (s : State), ptpEngine s p = some e → ptpLive s p = true → p < s.net.length → 1500 ≤ portMtu s.cfg.active p →
    let b := (activeBlk s 0x7001 p 0).getD []
    let x := (netPort s p).ptp
    let egress := stampOf s p e + (corrOf s p).2
    let two := bit (fieldAt b 0xB 1) 0
    (ptpState s p = 6 →
      (∃ t, exec (.ptpMessageSend p .sync) s = .next t ∧
        t.out = s.out ++ [.net p 0 (if two then ptpFrame s p .sync x.txSeq 0x0200 0 (fieldAt b 5 1) (ptpTime 0)
          else ptpFrame s p .sync x.txSeq 0 (egress % 65536) (fieldAt b 5 1) (ptpTime (egress / 65536).toNat))] ∧
        (netPort t p).ptp = { x with
          txSeq := (x.txSeq + 1) % 65536, sent := if two then some (x.txSeq, egress) else none } ∧
        t = { s with net := t.net, out := t.out, freeCtr := s.freeCtr + 1 }) ∧
      (∀ n stamp, x.sent = some (n, stamp) → ∃ t, exec (.ptpMessageSend p .followUp) s = .next t ∧
        t.out = s.out ++ [.net p 0 (ptpFrame s p .followUp n 0 (stamp % 65536) (fieldAt b 5 1) (ptpTime (stamp / 65536).toNat))] ∧
        (netPort t p).ptp = { x with sent := none } ∧ t = { s with net := t.net, out := t.out }) ∧
      (x.sent = none → exec (.ptpMessageSend p .followUp) s = .next s) ∧
      (∃ t, exec (.ptpMessageSend p .announce) s = .next t ∧
        t.out = s.out ++ [.net p 0 (ptpFrame s p .announce x.announceSeq Config.announceFlags 0 (fieldAt b 6 1)
          (announceBody (ownData s p e)))] ∧
        (netPort t p).ptp = { x with announceSeq := (x.announceSeq + 1) % 65536 } ∧
        t = { s with net := t.net, out := t.out })) ∧
    (∀ i, (i = .delayReqSend p ∨ i = .ptpMessageSend p .delayReq) → (ptpState s p = 8 ∨ ptpState s p = 9) →
      x.master.isSome = true → x.t2.isSome = true →
      ∃ t, exec i s = .next t ∧
        t.out = s.out ++ [.net p 0 (ptpFrame s p .delayReq x.nextReq 0 (egress % 65536) 0x7F (ptpTime (egress / 65536).toNat))] ∧
        (netPort t p).ptp = { x with
          t3 := some (egress - egress % 65536), t4 := none, reqSeq := x.nextReq, nextReq := (x.nextReq + 1) % 65536 } ∧
        t = { s with net := t.net, out := t.out, freeCtr := s.freeCtr + 1 })

/-! ## Credited queues -/

/-- QUEUE.CONFIGURE, QUEUE.FLUSH and QUEUE.STATUS that no check fails (11 R391, R392, R406, R659): the queue starts empty with all
K credits, its counts at 0, with the flushes that wait still to come; a flush waits for the packet boundary; a status answers the
fields of R406 and clears nothing. QUEUE_PACKET_WRITE (11 R391, R393, R394, R398, R399, R402): a producer that holds the packet's
cost of ⌈L / 64⌉ writes it at the end; credits turn into occupancy, PEAK follows, and only a crossing of the level counts, and
sets the notice where it has a level. A packet that is too long or too dear is not written. QUEUE_PACKET_FREE, CREDIT_RETURN and
QUEUE_FLUSHED (11 R393, R407, R408; 14 R491): the oldest packet, once its consumer reads it, goes whole, and its credits return
later; one with a route joins what the tether is to send, in pieces of at most 2,048 bytes; a
flush discards every packet but the one being read, returns their credits, tells the owner, and changes neither the notice, nor
CROSSINGS, nor PEAK. -/
def Obligations.QueuePacketsMoveCredits : Prop :=
  (∀ (r : CmdRef) (s : State) (c : Cmd),
     let b := c.region
     let x := queue s c.target
     (startable s r 0x5101 = some c → queueCheck s c = none →
       ∃ u, exec (.queueConfigure r) s = .next (complete c {} u) ∧
         u = { s with queues := u.queues, bind := { s.bind with safe := u.bind.safe } } ∧
         (∀ q, q ≠ c.target → queue u q = queue s q) ∧
         (let k := if fieldAt b 0xC 4 = 0 then fieldAt b 0 4 / 64 else fieldAt b 0xC 4
          queue u c.target = { configured := true, size := fieldAt b 0 4, maxPacket := fieldAt b 4 4, level := fieldAt b 8 4
                               limit := k, credits := k, base := fieldAt b 0x10 8
                               prod := (fieldAt b 0x18 1, fieldAt b 0x19 1), cons := (fieldAt b 0x1A 1, fieldAt b 0x1B 1)
                               flushes := x.flushes, flushDue := x.flushDue })) ∧
     (startable s r 0x5102 = some c → checkQueueFlush s c = none →
       ∃ t, exec (.queueFlush r) s = .next t ∧
         t = { s with queues := t.queues
                      cmds := s.cmds.map fun y => if y.same c then { y with waiting := true } else y } ∧
         queue t c.target = { x with flushes := x.flushes ++ [⟨c.fn, c.seq⟩], flushDue := true } ∧
         (∀ q, q ≠ c.target → queue t q = queue s q)) ∧
     (startable s r 0x5103 = some c → checkQueueStatus s c = none → exec (.queueStatus r) s = .next (complete c
       { result0 := x.occ % 2 ^ 21 + 2 ^ 24 * (x.crossings % 256) + 2 ^ 32 * (x.peak % 2 ^ 21) +
           2 ^ 63 * (if isPending s (368 + c.target) then 1 else 0)
         result1 := x.credits % 2 ^ 21 + 2 ^ 32 * x.discarded } s))) ∧
  (∀ (q : Nat) (data : List Byte) (s : State), enginesClocked s = true → data ≠ [] → (queue s q).configured = true →
     let x := queue s q
     let n := (data.length + 63) / 64
     let crossing : Prop := x.occ ≤ x.level / 64 ∧ x.level / 64 < x.occ + n
     (data.length ≤ x.maxPacket → n ≤ x.credits → safeOf s (myUnit s 0x51 q) ≠ 2 →
       ∃ u y, y = { x with occ := x.occ + n, credits := x.credits - n, packets := x.packets ++ [data]
                           peak := max x.peak (x.occ + n), crossings := y.crossings } ∧
         u = { s with queues := u.queues } ∧ queue u q = y ∧ (∀ k, k ≠ q → queue u k = queue s k) ∧
         (crossing → y.crossings = min 255 (x.crossings + 1) ∧ exec (.queuePacketWrite q data) s =
           .next (if x.level = 0 then u else raise (368 + q) u)) ∧
         (¬ crossing → y.crossings = x.crossings ∧ exec (.queuePacketWrite q data) s = .next u)) ∧
     (x.maxPacket < data.length ∨ x.credits < n → exec (.queuePacketWrite q data) s = .next s)) ∧
  (∀ (q : Nat) (s : State), enginesClocked s = true → (queue s q).configured = true →
     let x := queue s q
     (x.reading = false → x.cons.1 ≠ 0x80 → exec (.queuePacketFree q) s = .next s) ∧
     (∀ p l, x.packets = p :: l → x.cons.1 ≠ 0x80 → x.reading = true →
       ∃ t, exec (.queuePacketFree q) s = .next t ∧ t = { s with queues := t.queues } ∧
         queue t q = { x with packets := l, occ := x.occ - (p.length + 63) / 64
                              returning := x.returning + (p.length + 63) / 64, reading := false } ∧
         (∀ k, k ≠ q → queue t k = queue s k)) ∧
     (∀ p l d n, x.packets = p :: l → x.cons.1 = 0x80 → routeDest s q = some (d, n) → portTo s d < s.tth.ports.length →
       let parts := pieces 2048 p
       ∃ t, exec (.queuePacketFree q) s = .next t ∧ t = { s with queues := t.queues, tth := t.tth, out := t.out } ∧
         queue t q = { x with packets := l, occ := x.occ - (p.length + 63) / 64
                              returning := x.returning + (p.length + 63) / 64, reading := false } ∧
         (∀ k, k ≠ q → queue t k = queue s k) ∧
         (Tbl.get [] (tthPort t (portTo s d)).window 4).map (·.2.1) =
           (Tbl.get [] (tthPort s (portTo s d)).window 4).map (·.2.1) ++
             parts.zipIdx.map fun e => .route n (e.2 + 1 == parts.length) e.1) ∧
     (0 < x.returning → ∃ t, exec (.creditReturn q) s = .next t ∧ t = { s with queues := t.queues } ∧
       queue t q = { x with credits := x.credits + x.returning, returning := 0 } ∧ (∀ k, k ≠ q → queue t k = queue s k)) ∧
     (x.flushDue = true → x.flushes = [] →
       let gone := if x.reading then x.packets.drop 1 else x.packets
       let n := (gone.map fun p => (p.length + 63) / 64).sum
       ∃ u, exec (.queueFlushed q) s =
           .next (unitEvent 0x5101 0x51 q none (gone.length % 65536 + 2 ^ 16 * (n % 2 ^ 32)) u) ∧
         u = { s with queues := u.queues } ∧ (∀ k, k ≠ q → queue u k = queue s k) ∧
         queue u q = { x with packets := if x.reading then x.packets.take 1 else [], occ := x.occ - n
                              credits := x.credits + n, discarded := min 0xFFFFFFFF (x.discarded + gone.length)
                              flushDue := false }))

/-- What 11 R392 says of a queue: at configuration the producer holds K credits and the occupancy is 0; from then on the
occupancy is the cost of its packets, and credits, occupancy and credits on their way back make K. The queue's own commands
keep it for every queue. -/
def Obligations.QueueCreditsConserved : Prop :=
  let holds := fun (s : State) => Tbl.wf s.queues = true ∧ ∀ q,
    (queue s q).occ = ((queue s q).packets.map fun p => (p.length + 63) / 64).sum ∧
    (queue s q).credits + (queue s q).occ + (queue s q).returning = (queue s q).limit
  (∀ (r : CmdRef) (s : State) (c : Cmd), startable s r 0x5101 = some c → queueCheck s c = none →
    ∃ t, exec (.queueConfigure r) s = .next t ∧
      t = { reported s t with queues := t.queues, bind := t.bind, cmds := t.cmds, freeCtr := t.freeCtr } ∧
      (∀ k, k ≠ c.target → queue t k = queue s k) ∧ (queue t c.target).occ = 0 ∧
      (queue t c.target).credits = (queue t c.target).limit) ∧
  ∀ (r : CmdRef) (q : Nat) (data : List Byte) (s t : State),
    ∀ i ∈ [Instr.queueConfigure r, .queueFlush r, .queueStatus r, .queuePacketWrite q data, .queuePacketFree q,
      .creditReturn q, .queueFlushed q], holds s → exec i s = .next t → holds t

/-! ## Network ports -/

/-- NET.COUNTERS, NET_LINK_DOWN, NET_LINK_UP and NET_FRAME_RECEIVED (13 R440-R442, R472, 'Counters'): the counters, cleared
where the command says so; a link that changes tells the port's owner, also one left up by a mode that has ended, and takes its
lanes with it, and none comes up on a lane that a loopback forces off (15 R523); a frame for the
Groom is answered where the MAC supports the answer, or counted; a query by a report of every group joined; FEC counts where the
links have FEC; counters saturate. -/
def Obligations.NetPortsCountAndTell : Prop :=
  (∀ (r : CmdRef) (s : State) (c : Cmd), startable s r 0x7003 = some c → checkNetCounters s c = none →
    exec (.netCounters r) s = .next (complete c { data := (netPort s c.target).counters.flatMap fun v => leBytes 4 v }
      (if bit (fieldAt c.region 1 1) 0 then
        { s with net := s.net.modify c.target fun n => { n with counters := List.replicate 16 0 } } else s))) ∧
  (∀ (p i n : Nat) (s : State), p < s.net.length → i < (netPort s p).counters.length →
    (netPort (countAt p i n s) p).counters = (netPort s p).counters.set i (min ((netPort s p).counters.getD i 0 + n) 0xFFFFFFFF) ∧
    countAt p i n s = { s with net := (countAt p i n s).net }) ∧
  ∀ (p sub : Nat) (s : State), enginesClocked s = true → p < 2 → sub < 4 →
    let up := (netPort s p).up.getD sub false
    let its := linkLanes s p sub
    let turned := fun (v : Bool) (u : State) => modNet p (fun n => { n with up := n.up.set sub v }) (lanesTurn v its u)
    let there : Prop := sub = 0 ∨ portMode s.cfg.active p = 1
    let fec : Prop := ¬ (portMode s.cfg.active p = 1 ∧ fieldAt ((activeBlk s 0x7001 p 0).getD []) 1 1 = 1)
    (up = true → exec (.netLinkDown p sub) s = .next
      (raise (528 + 8 * p) (unitEvent 0x7001 0x70 p none (p + 2 * sub) (turned false (countAt p 15 1 s))))) ∧
    (up = false → there → portMode s.cfg.active p ≠ 0xFF → (∀ l ∈ its, forcedOff s l = false) → exec (.netLinkUp p sub) s = .next
      (raise (528 + 8 * p) (unitEvent 0x7001 0x70 p none (p + 2 * sub + 256) (turned true s)))) ∧
    (there → linkIsUp s p sub = true →
      exec (.netFrameReceived p sub .other) s = .next (countAt p 5 1 (countAt p 0 1 s)) ∧
      exec (.netFrameReceived p sub .fcsError) s = .next (countAt p 2 1 s) ∧
      (∀ n, (fec → exec (.netFrameReceived p sub (.fecCorrected n)) s = .next (countAt p 3 n s) ∧
          exec (.netFrameReceived p sub (.fecUncorrectable n)) s = .next (raise (528 + 8 * p + 1) (countAt p 4 n s))) ∧
        (¬ fec → exec (.netFrameReceived p sub (.fecCorrected n)) s = .next s ∧
          exec (.netFrameReceived p sub (.fecUncorrectable n)) s = .next s)) ∧
      (∀ mac from_, 1500 ≤ portMtu s.cfg.active p → exec (.netFrameReceived p sub (.arpRequest mac from_ (portIp s p))) s =
        .next (countAt p 1 1 (emit (.net p sub (arpReply s p mac from_)) (countAt p 0 1 s)))) ∧
      (∀ mac from_ data, frameFits (portMtu s.cfg.active p) (echoReply s p mac from_ data) = true →
        exec (.netFrameReceived p sub (.icmpEcho mac from_ (portIp s p) data)) s =
          .next (countAt p 1 1 (emit (.net p sub (echoReply s p mac from_ data)) (countAt p 0 1 s)))) ∧
      (∀ mac from_ ip data, ip ≠ portIp s p →
        exec (.netFrameReceived p sub (.arpRequest mac from_ ip)) s = .next (countAt p 5 1 (countAt p 0 1 s)) ∧
        exec (.netFrameReceived p sub (.icmpEcho mac from_ ip data)) s = .next (countAt p 5 1 (countAt p 0 1 s))) ∧
      (1500 ≤ portMtu s.cfg.active p → ∃ t, exec (.netFrameReceived p sub .igmpQuery) s = .next t ∧
        t = { s with net := t.net, out := t.out } ∧
        t.out = s.out ++ ((joinedOn s p).filter (·.1 = sub)).map fun g => .net p sub (igmpReport s p 2 g.2)))

/-- SEND_SLOT, ST2110_PACKET_SEND and QUEUE_FLOW_SEND (02 R69; 13 R457, R459-R461, R464): at a slot that is due the flow's committed
parameters take effect, and it takes the newest frame that a LIVE flow had by t_N, or whose verdict was given by then, and its RTP
timestamp, repeats the last one and counts it, or in place of a retracted frame sends the most recent COMMITTED one (06 R228); a
packet that is due and whose rows are written leaves on each of its paths with the flow's sequence number, headers and addresses,
and a late one is counted, but for a wide sender (log 28); where no slot or packet is due nothing happens; a queue packet is begun.
-/
def Obligations.FlowsSend : Prop :=
  (∀ (p f : Nat) (s : State) (o : FlowCfg), p < s.net.length → f < (netPort s p).flows.length →
    flowNow s p f = some o → o.kind = 1 →
    (tapPeriod s o ≠ 0 → slotDue s p f o = false → exec (.sendSlot p f) s = .next s) ∧
    (tapPeriod s o = 0 ∨ slotDue s p f o = true →
    let s1 := switchFlow p f s
    ∀ x, flowNow s1 p f = some x → x.kind = 1 → netLive s1 p = true → slotHere s1 p f x = true →
    let l := tapSlots s1 x.stream x.tap
    let y := flowSt s p f
    let last := lastSerialOf s1 p f l
    let test := fun (z : TapSlot) =>
      (if x.live then decide ((timeNs z.time : Int) ≤ slotStart s1 x)
       else z.state == 1 && decide ((z.since : Int) ≤ slotStart s1 x)) && newerThan last z
    let starts := fun (t : State) (frame keep : Option Nat) (ts : Nat) => ∃ total, flowSt t p f = { y with
      slotAt := some (slotStart s1 x), frame := frame, last := keep, sent := 0, total := total
      repeatTs := some ts, lateAt := none, stopped := txShed s p, dropped := (flowSt t p f).dropped } ∧
      t = { reported s t with net := t.net, cfg := { s.cfg with active := t.cfg.active } } ∧ ∀ q g, q ≠ p ∨ g ≠ f → flowSt t q g = flowSt s q g
    (x.live = true ∨ (∀ r, retractedNow s1 x last = some r → ∃ z, newestSlot l test = some z ∧ serialAfter r.1 z.2.serial = false) →
      (∀ e, newestSlot l test = some e → ∃ t, exec (.sendSlot p f) s = .next t ∧
        starts t (some e.1) (some e.1) (rtp90 (timeNs e.2.time)) ∧ (flowSt t p f).dropped = y.dropped) ∧
      (∀ n, newestSlot l test = none → y.last = some n → ∃ t, exec (.sendSlot p f) s = .next t ∧
        starts t (some n) (some n) (rtp90 (slotTime s1 x)) ∧ (flowSt t p f).dropped = y.dropped ∧
        (netPort t p).counters = (netPort (countAt p 9 1 s) p).counters)) ∧
    (∀ r e, x.live = false → retractedNow s1 x last = some r → y.dropped ≠ some r.1 →
      (∀ z, newestSlot l test = some z → serialAfter r.1 z.2.serial = true) → newestSlot l (fun z => z.state == 1) = some e →
      ∃ t, exec (.sendSlot p f) s = .next t ∧ starts t (some e.1) (some e.1) (rtp90 (timeNs r.2)) ∧
        (flowSt t p f).dropped = some r.1))) ∧
  (∀ (p f n : Nat) (s : State) (x : FlowCfg) (sl : TapSlot), p < s.net.length → f < (netPort s p).flows.length →
    flowNow s p f = some x → Tbl.find? (tapSlots s x.stream x.tap) n = some sl → netLive s p = true → x.kind = 1 →
    let k := sl.cfg
    let y := flowSt s p f
    y.frame = some n → y.sent < y.total →
    let row := y.sent / linePackets k.outW x.packing
    let frame := fun (i : Nat) => flowFrame s p i x y.seqNo (y.repeatTs.getD 0) (y.sent + 1 == y.total)
      (videoPayload s k x (sl.base n) y.sent y.seqNo)
    let leaves := fun (i : Nat) => let o := pathPort p i
      netLive s o = true ∧ linkIsUp s o (flowSub s o x.subport) = true ∧ frameFits (portMtu s.cfg.active o) (frame i) = true
    (packetDue s p f x = false → exec (.st2110PacketSend p f) s = .next s) ∧ (packetDue s p f x = true →
    (sl.rows ≤ row → x.sender = 2 → exec (.st2110PacketSend p f) s = .next s) ∧
    (sl.rows ≤ row → x.sender ≠ 2 → y.lateAt ≠ some y.sent → exec (.st2110PacketSend p f) s = .next (raise (528 + 8 * p + 4)
      (countAt p 7 1 (modFlow p f (fun z => { z with lateAt := some y.sent }) s)))) ∧
    (row < sl.rows → ∃ t, exec (.st2110PacketSend p f) s = .next t ∧
      flowSt t p f = { y with seqNo := (y.seqNo + 1) % 2 ^ 32, sent := y.sent + 1, stopped := y.stopped || txShed s p } ∧
      t = { reported s t with net := t.net } ∧ (∀ q g, q ≠ p ∨ g ≠ f → flowSt t q g = flowSt s q g) ∧
      (txShed s p = false → y.stopped = false → sl.patchFrom = none → sl.base n + k.slotBytes ≤ Config.hbmEnd → leaves 0 →
        (x.paths = 1 → t.out = s.out ++ [.net p (flowSub s p x.subport) (frame 0)]) ∧
        (x.paths = 2 → leaves 1 → t.out = s.out ++
          [.net p (flowSub s p x.subport) (frame 0), .net (1 - p) (flowSub s (1 - p) x.subport) (frame 1)]))))) ∧
  ∀ (p f : Nat) (s : State) (o x : FlowCfg) (b : List Byte) (l : List (List Byte)), p < s.net.length →
    f < (netPort s p).flows.length → flowNow s p f = some o → (o.kind = 4 ∨ o.kind = 5) →
    let s1 := switchFlow p f s
    flowNow s1 p f = some x → (x.kind = 4 ∨ x.kind = 5) → netLive s1 p = true → txShed s p = false →
    let q := queue s x.queue
    q.packets = b :: l → q.reading = false → q.configured = true → q.cons = (0x70, p) →
      ∃ t, exec (.queueFlowSend p f) s = .next t ∧ queue t x.queue = { q with reading := true } ∧
        t = { reported s t with net := t.net, queues := t.queues, freeCtr := t.freeCtr, cfg := { s.cfg with active := t.cfg.active } } ∧
        flowSt t p f = { flowSt s p f with seqNo := ((flowSt s p f).seqNo + 1) % 2 ^ 32 } ∧
        (let frame := flowFrame s1 p 0 x (flowSt s p f).seqNo (fieldAt b 4 4) (bit (fieldAt b 3 1) 1) ((b.drop 16).take (fieldAt b 8 4))
         x.kind = 4 → x.paths = 1 → linkIsUp s1 p (flowSub s1 p x.subport) = true →
          frameFits (portMtu s1.cfg.active p) frame = true → t.out = s.out ++ [.net p (flowSub s1 p x.subport) frame])

/-- RX_PACKET, RX_SLOT_CLOSE and PATH_LOST (13 R441, R465-R467, R470; 10 R384): a packet of no flow, or of more than the MTU, is
counted, and one of a port in its safe state goes no further; one of a new frame opens a slot, while one is free; a second copy is
counted and its path noted; a shed port writes nothing; a slot of a flow with PATHS 2 closes with its header in HBM and the event,
earlier ones with it; a lost path is told. -/
def Obligations.FlowsReceive : Prop :=
  (∀ (port : Nat) (k : RxPacket) (s : State), enginesClocked s = true → hasSub s port k.sub = true →
    linkIsUp s port k.sub = true → s.net.length = 2 →
    let got := countAt port 0 1 s
    (flowFor s port k = none → exec (.rxPacket port k) s = .next (countAt port 5 1 got)) ∧
    (∀ q f i x, flowFor s port k = some (q, f, i) → flowNow s q f = some x →
      (rxFits s port x k = false → exec (.rxPacket port k) s = .next (countAt port 5 1 got)) ∧
      (rxFits s port x k = true → (netLive s q = false ∨ netLive s port = false) → exec (.rxPacket port k) s = .next got)) ∧
    (∀ q f i x, flowFor s port k = some (q, f, i) → flowNow s q f = some x → rxFits s port x k = true →
      netLive s q = true → netLive s port = true → f < (netPort s q).flows.length →
      let y := flowSt s q f
      y.lost.getD i false = false →
      (rxShed s q = true → exec (.rxPacket port k) s = .next
        (raise (528 + 8 * q + 6) (countAt port 14 1 got))) ∧
      (rxShed s q = false → y.closed.any (foundClosed x i k) = true → x.kind ≠ 9 →
        exec (.rxPacket port k) s = .next (countAt port 11 1 got)) ∧
      (rxShed s q = false → y.closed.any (foundClosed x i k) = false → (∀ r ∈ y.slots, r.ts ≠ k.rtpTs) →
        let inUse := used (BitVec.ofNat 16 y.wr) (BitVec.ofNat 16 y.rd) + y.slots.length
        (x.ringSlots ≤ inUse → y.dropped ≠ some k.rtpTs → exec (.rxPacket port k) s = .next
          (countAt port 12 1 (modFlow q f (fun z => { z with dropped := some k.rtpTs }) got))) ∧
        (inUse < x.ringSlots → x.kind = 9 → (k.marker = true → x.paths ≠ 1) → i < 2 →
          ∃ t, exec (.rxPacket port k) s = .next t ∧ t = { reported s t with net := t.net, hbm := t.hbm } ∧
            flowSt t q f = { y with slots := y.slots ++
              [{ ts := k.rtpTs, first := rxStamp port k s, written := 1, paths := 2 ^ i, seqs := [k.seqNo], marker := k.marker }] }) ∧
        (inUse < x.ringSlots → 9 < x.kind → ∃ t, exec (.rxPacket port k) s = .next t ∧
          t = { reported s t with net := t.net, hbm := t.hbm } ∧ (flowSt t q f).wr = (y.wr + 1) % 65536 ∧
          (y.slots = [] → (flowSt t q f).slots = []))) ∧
      (∀ j, rxShed s q = false → y.closed.any (foundClosed x i k) = false → j = y.slots.findIdx (·.ts == k.rtpTs) →
        j < y.slots.length → (y.slots.getD j ⟨0, ⟨0, 0⟩, 0, 0, 0, [], false⟩).seqs.contains k.seqNo = true →
        exec (.rxPacket port k) s = .next (countAt port 11 1 (modFlow q f (fun z =>
          { z with slots := z.slots.modify j fun r => { r with paths := r.paths ||| 2 ^ i } }) got))))) ∧
  ∀ (p f : Nat) (s : State) (x : FlowCfg), flowNow s p f = some x → p < s.net.length → f < (netPort s p).flows.length →
    let y := flowSt s p f
    (x.paths ≠ 2 ∨ x.kind ≠ 9 → exec (.rxSlotClose p f) s = .next s) ∧
    (∀ r l, netLive s p = true → x.kind = 9 → x.paths = 2 → y.slots = r :: l → r.marker = true →
      let m := missingOf r.seqs
      exec (.rxSlotClose p f) s = .next (raise (528 + 8 * p + 3)
        (unitEvent 0x7003 0x70 p none (y.wr % max x.ringSlots 1 + 2 ^ 8 * f + 2 ^ 32 * m)
          (modFlow p f (fun z => { z with slots := l, wr := (z.wr + 1) % 65536
                                          closed := ((r.ts, r.seqs.headD 0, r.paths / 2) :: z.closed).take 256 })
            (hbmWrite (x.ringBase + y.wr % max x.ringSlots 1 * x.slotBytes) (rxHeader r m) s))))) ∧
    (∀ j, netLive s p = true → x.kind = 9 → x.paths = 2 → j = y.slots.findIdx (·.marker) → j < y.slots.length →
      ∃ t, exec (.rxSlotClose p f) s = .next t ∧ t = { reported s t with net := t.net, hbm := t.hbm } ∧
        (flowSt t p f).slots = y.slots.drop (j + 1) ∧
        (flowSt t p f).wr = (y.wr + j + 1) % 65536) ∧
    (∀ i, i < 2 → enginesClocked s = true → 9 ≤ x.kind → x.paths = 2 → y.lost.getD i true = false →
      let o := if i = 0 then p else 1 - p
      exec (.pathLost p f i) s = .next (raise (528 + 8 * o + 2) (unitEvent 0x7002 0x70 o none (o + 2 ^ 8 * f)
        (modFlow p f (fun z => { z with lost := z.lost.set i true }) s))))

/-! ## Display heads -/

/-- DSP.FLIP and DSP.PALETTE that no check fails (12 R424, R425): the update waits, in order, for a flip point of its head;
nothing else changes. GENLOCK_EDGE, GENLOCK_LOST and TE_MISSING (12 R412, R413, R434, R439): an edge measures the period of a
genlocked head, and what it lies off the head's timing is taken up at no more than 1 µs in a second; after a loss the head goes on,
and the loss ends once its phase is back within 10 ns; a loss and a missing TE are told. -/
def Obligations.FlipsAndGenlockFollowed : Prop :=
  (∀ (r : CmdRef) (s : State) (c : Cmd) (i : Instr) (op : Nat),
     (i = .dspFlip r ∧ op = 0x6003 ∧ flipCheck s c = none) ∨ (i = .dspPalette r ∧ op = 0x6004 ∧ checkDspPalette s c = none) →
     startable s r op = some c → c.target < s.heads.length →
     let b := c.region
     ∃ t q, exec i s = .next t ∧
       t = { s with heads := t.heads, cmds := s.cmds.map fun y => if y.same c then { y with waiting := true } else y } ∧
       head t c.target = { head s c.target with requests := (head s c.target).requests ++ [q] } ∧
       (∀ h, h ≠ c.target → head t h = head s h) ∧ q.ref = ⟨c.fn, c.seq⟩ ∧
       (op = 0x6003 → q.kind = fieldAt b 0 1 ∧ q.plane = fieldAt b 1 1 ∧
         q.rect = (fieldAt b 4 2, fieldAt b 6 2, fieldAt b 8 2, fieldAt b 0xA 2) ∧
         q.atTime = (if bit (fieldAt b 2 1) 0 then some (timeAt b 0xC) else none) ∧
         q.data = (b.drop 0x28).take (fieldAt b 0x18 4)) ∧
       (op = 0x6004 → q.kind = 2 ∧ q.plane = fieldAt b 0 1 ∧ q.atTime = none ∧ q.data = (b.drop 8).take (8 * fieldAt b 2 2))) ∧
  (∀ (s : State), enginesClocked s = true → s.heads.length = 4 →
     (∀ h, h < 4 → ∃ t, exec .genlockEdge s = .next t ∧ t = { reported s t with heads := t.heads } ∧ (genlocked s h = false → head t h = head s h) ∧
       (genlocked s h = true →
         let y := head s h
         let z : Int := timeNs (stampTime s 48 0)
         (y.edge = none → head t h = { y with edge := some z }) ∧
         (∀ e, y.edge = some e →
           let d := z - e
           let rate := (d / 1000000).toNat
           let m := if y.measured ≤ 0 then d else y.measured
           let off := towards (y.phaseErr + phaseOff z e m) 0 rate
           head t h = { y with edge := some z, gap := d, phaseErr := off, measured := if (d - y.gap).natAbs ≤ rate then d else m
                               genlockLost := y.genlockLost && decide (10 < off.natAbs) }))) ∧
     (∀ h, genlocked s h = true → (head s h).genlockLost = false →
       let u := unitEvent 0x6004 0x60 h none h (modHead h (fun y => { y with genlockLost := true }) s)
       exec (.genlockLost h) s = .next (if isSdi h then raise (496 + 8 * signalHead s h + 4) u else u)) ∧
     (∀ h c, headIn s.cfg.active h = some c → isSdi h = false → bit c.flags 0 = true →
       exec (.teMissing h) s = .next (raise (496 + 8 * h + 4) (unitEvent 0x6006 0x60 h none h s))))

/-- FLIP_POINT (12 R412, R421, R424, R435, R436): at a time of an SDI head's timing, and for a panel whenever it comes, the head
frame in progress ends with its flip record in HBM; the next one begins
with the next count, the pictures of its planes and the updates that are due, and raises source 496 + 8h. -/
def Obligations.FlipPointBeginsHeadFrame : Prop :=
  ∀ (h : Nat) (s : State), enginesClocked s = true → h < 4 → s.heads.length = 4 →
    let s1 := switchHead h (endHeadFrame h s)
    (frameDue s h = false → exec (.flipPoint h) s = .next s) ∧
    (∀ c, frameDue s h = true → (h = 1 → pairIn s1.cfg.active = false) → headIn s1.cfg.active h = some c →
      ∃ t f, exec (.flipPoint h) s = .next t ∧ t = { reported s t with heads := t.heads, hbm := t.hbm, cmds := t.cmds, freeCtr := t.freeCtr, cfg := { s.cfg with active := t.cfg.active } } ∧
        (head t h).current = some f ∧ (head t h).frames = (head s1 h).frames + 1 ∧
        f.frame = ((head s1 h).frames + 1) % 2 ^ 32 ∧
        f.v0 = (((head t h).vids.getD 0 none).map (·.serial)).getD 0 ∧
        f.v1 = (((head t h).vids.getD 1 none).map (·.serial)).getD 0 ∧
        (head t h).requests = (head s1 h).requests.filter (fun q => !flipDue (nowNs s1) q) ∧
        ((routeOf s1 (496 + 8 * h)).enable = true → isLeader s = true → isPending t (496 + 8 * h) = true)) ∧
    (∀ f c, frameDue s h = true → (head s h).current = some f → headIn s.cfg.active h = some c → (head s h).requests = [] → Mem.wf s.hbm = true →
      let a := c.ringBase + (head s h).flips % max 1 c.ringSlots * 32
      a + 32 ≤ Config.hbmEnd →
      ∃ t, exec (.flipPoint h) s = .next t ∧ t = { reported s t with heads := t.heads, hbm := t.hbm, cmds := t.cmds, freeCtr := t.freeCtr, cfg := { s.cfg with active := t.cfg.active } } ∧
        (head t h).flips = ((head s h).flips + 1) % 2 ^ 32 ∧
        hbmRead t a 18 = leBytes 4 f.frame ++ leBytes 2 f.v0 ++ leBytes 2 f.v1 ++ timeBytes f.time)

/-! ## Motion -/

/-- MOTION_SAMPLE (16 R528-R541): all axes sample. An axis without a type stays; an SSI axis reads its encoder at every
SAMPLE_DIV-th instant and counts the others; a good
sin/cos sample moves P by the change nearest to the angle, within 4 codes of its arctangent; a bad one is counted and moves
nothing; a good SSI read is the position; a Hall axis without a locked observer reports the centre of its sector. -/
def Obligations.MotionSamplesMoveAxes : Prop :=
  ∀ (inputs : List MotInput) (s : State) (a : Nat) (i : MotInput), enginesClocked s = true → a < 4 → s.axes.length = 4 →
    inputs[a]? = some i → Tbl.wf s.cfg.committed = true →
    motBlk s.cfg.committed a = motBlk s.cfg.active a → obsBlk s.cfg.committed a = obsBlk s.cfg.active a →
    let b := motBlk s.cfg.active a
    let x := axis s a
    ∃ t, exec (.motionSample inputs) s = .next t ∧
      t = { reported s t with axes := t.axes, freeCtr := t.freeCtr, cfg := { s.cfg with active := t.cfg.active } } ∧
      let y := axis t a
      (fieldAt b 0 1 = 0 → y = x) ∧
      (fieldAt b 0 1 = 3 → x.wait ≠ 0 → y = { x with wait := x.wait - 1 }) ∧
      (fieldAt b 0 1 = 2 → ampBad b i = false → x.broken = false → ∃ d, d ≤ 8 ∧
        let n := (Machine.atan2Code i.sin i.cos + d + 65532) % 65536
        y.angle = n ∧ y.p = wrapP (x.p + wrap16 ((n : Int) - x.angle)) ∧ y.badRun = 0 ∧ y.goodRun = x.goodRun + 1) ∧
      (fieldAt b 0 1 = 2 → ampBad b i = true → y.p = x.p ∧ y.angle = x.angle ∧ y.badRun = x.badRun + 1 ∧ y.goodRun = 0 ∧
        y.counters = x.counters.modify 1 fun v => min (v + 1) 0xFFFFFFFF) ∧
      (fieldAt b 0 1 = 3 → x.wait = 0 → ssiBad b i = false → x.broken = false → y.wait = fieldAt b 0xE 1 - 1 ∧
        y.p = wrapP (x.offset + ssiValue (bit (fieldAt b 1 1) 1) (i.ssiData % 2 ^ fieldAt b 3 1)) ∧ y.badRun = 0) ∧
      (fieldAt b 0 1 = 1 → x.broken = false → (observes s.cfg.active a = false ∨ x.locked = false) →
        y.angle = centre b x.sector ∧ y.turned = 0 ∧ y.sector = x.sector ∧
        y.p = wrapP (x.p + x.turned + wrap16 ((centre b x.sector : Int) - x.angle - x.turned)))

/-- MOT.READ, HALL_EDGE, HALL_ILLEGAL_TIMEOUT, INPUT_BROKEN, INPUT_RESTORED, OBSERVER_LOST, OBSERVER_REGAINED, STANDSTILL and
MOT_PROBE (16 R531-R544, R551): what each changes in its axis, and what it tells. -/
def Obligations.MotionEventsChangeAxes : Prop :=
  (∀ (r : CmdRef) (s : State) (c : Cmd), startable s r 0x9003 = some c → checkMotRead s c = none →
    exec (.motRead r) s = .next (complete c { data := motRecord s c.target }
      (if bit (fieldAt c.region 0 1) 0 then { s with axes := s.axes.modify c.target fun x => { x with counters := [0, 0, 0, 0] } }
      else s))) ∧
  ∀ (a : Nat) (s : State), enginesClocked s = true → a < 4 → s.axes.length = 4 →
    let b := motBlk s.cfg.active a
    let x := axis s a
    let tells := fun (code detail i : Nat) (u : State) => motSource a i (motEvent code a (detail + 2 ^ 32 * motFlags u a) u)
    (∀ hall clock k, fieldAt b 0 1 = 1 → (hallStates b).findIdx? (· == hall) = some k →
      let s1 := if x.still then motSource a 4 s else s
      ((k + 6 - x.sector) % 6 = 0 → exec (.hallEdge a hall clock) s = .next (modAxis a (fun y => { y with illegal := none }) s)) ∧
      ((k + 6 - x.sector) % 6 = 1 ∨ (k + 6 - x.sector) % 6 = 5 → ∃ t, exec (.hallEdge a hall clock) s = .next t ∧
        t = { s1 with axes := t.axes } ∧ (∀ j, j ≠ a → axis t j = axis s j) ∧
        axis t a = { x with hall := hall, sector := k, illegal := none, still := false, edgeRun := (axis t a).edgeRun, lastEdge := some clock
                            turned := turnedTo b (observes s.cfg.active a && x.locked) k x
                            edgeDir := if (k + 6 - x.sector) % 6 = 1 then 1 else -1
                            period := match x.lastEdge with
                              | some e => (clock - e) * 40
                              | none => 0 } ∧
        (observes s.cfg.active a = false ∨ x.locked = true → (axis t a).edgeRun = x.edgeRun)) ∧
      ((k + 6 - x.sector) % 6 ∈ [2, 3, 4] → exec (.hallEdge a hall clock) s = .next (motSource a 5 (modAxis a (fun y =>
        { y with hall := hall, sector := k, illegal := none, still := false, edgeRun := 0, lastEdge := some clock
                 turned := turnedTo b (observes s.cfg.active a && x.locked) k y }) s1)))) ∧
    (∀ hall clock, fieldAt b 0 1 = 1 → hall ∉ hallStates b → x.illegal ≠ some hall →
      exec (.hallEdge a hall clock) s = .next (tells 0x9001 hall 0
        (modAxis a (fun y => motCount 0 { y with illegal := some hall, edgeRun := 0, goodRun := 0 }) s))) ∧
    (∀ i, (i = .hallIllegalTimeout a ∧ motType s.cfg.active a = 1 ∧ x.illegal.isSome = true) ∨
        (i = .inputBroken a ∧ 2 ≤ motType s.cfg.active a ∧ fieldAt b 2 1 ≤ x.badRun) → x.broken = false →
      exec i s = .next (tells 0x9002 0 1 (modAxis a (fun y => { y with broken := true, goodRun := 0 }) s))) ∧
    (x.broken = true → 64 ≤ x.goodRun → exec (.inputRestored a) s = .next (tells 0x9002 1 1 (modAxis a (fun y =>
      { y with broken := false, goodRun := 0, unref := y.unref || motType s.cfg.active a == 2 }) s))) ∧
    (observes s.cfg.active a = true → x.locked = true → 4 ≤ x.lockRun → ∃ u, exec (.observerLost a) s =
      .next (tells 0x9003 (unsigned 32 (axis u a).p) 2 u) ∧ u = { s with axes := u.axes } ∧ (axis u a).locked = false ∧
      (axis u a).angle = centre b x.sector ∧ (axis u a).counters = x.counters.modify 2 fun v => min (v + 1) 0xFFFFFFFF) ∧
    (observes s.cfg.active a = true → x.locked = false → 6 ≤ x.edgeRun → ∃ u, exec (.observerRegained a) s =
      .next (tells 0x9004 (unsigned 32 (axis u a).p) 2 u) ∧ u = { s with axes := u.axes } ∧ (axis u a).locked = true ∧
      (axis u a).angle = crossed b x ∧ (axis u a).theta = crossed b x * 65536) ∧
    (motType s.cfg.active a ≠ 0 → x.still = false → exec (.standstill a) s = .next (motSource a 4
      (modAxis a (fun y => { y with still := true, speed := 0, edgeRun := 0 }) s))) ∧
    (∀ rising clocks, fieldAt b 0 1 ≠ 0 → bit (fieldAt b 1 1) 2 = !rising →
      let p := probeP x clocks
      ∃ u, exec (.motProbe a rising clocks) s = .next (tells 0x9005 (unsigned 32 p) 3 u) ∧ u = { s with axes := u.axes } ∧
        (axis u a).probeP = p ∧ (axis u a).counters = (x.counters.modify 3 fun v => min (v + 1) 0xFFFFFFFF) ∧
        (bit (fieldAt b 1 1) 3 = false ∨ motGood s a = false → (axis u a).p = x.p) ∧
        (bit (fieldAt b 1 1) 3 = true → motGood s a = true → (axis u a).unref = false ∧
          (axis u a).p = wrapP (x.p + (signed 32 (fieldAt b 0x1C 4) - p))))

/-! ## Bridle and CSI-2 ingest -/

/-- LANE_DOWN, LANE_UP, DESKEW_FAILURE and ALIGN_ROW (04 R119-R122, R142, R150-R152): a lane that goes down retracts the
open frame whose map holds it with LANE_LOSS; a failed deskew and a lane that is up again are told, and the latter clears its
down state; each lane whose ALIGN_SEQ matches takes its mark. -/
def Obligations.LanesFollowed : Prop :=
  ∀ (l : Nat) (s : State), enginesClocked s = true → laneActive s l = true → s.brd.lanes.length = 32 → s.lanes.length = 72 →
    (∀ i, (i = .laneDown l ∨ i = .deskewFailure l) → (brdLane s l).down = false →
      ∃ t, exec i s = .next t ∧
        t = { reported s t with brd := t.brd, csi := t.csi, lanes := t.lanes, streams := t.streams } ∧ (brdLane t l).down = true ∧ (∀ j, j ≠ l → brdLane t j = brdLane s j) ∧
        (∀ j, j ≠ l → lane t j = lane s j) ∧ (lane t l).locked = false ∧ (lane t l).downs = min 255 ((lane s l).downs + 1) ∧
        (∀ k f, s.brd.map.getD l 0xFF < 32 → k ∈ bridleStreams s.cfg.active → (stream s k).frames = [f] → f.decided = false →
          bit f.flags 0 = false → ∃ g, (stream t k).frames = [g] ∧ g.flags = f.flags ||| vLane ||| vRetracted ∧
            g.serial = f.serial ∧ g.decided = true)) ∧
    ((brdLane s l).down = false → 32 ≤ logicalOf s l → exec (.deskewFailure l) s = .next (raise l
      (unitEvent 0x1001 0x10 0 none (l + 2 ^ 8 * (logicalOf s l % 32) + 2 ^ 16 * b2n (spareLane (raise (56 + l / 4) s) l).isNone)
        (modLane l (fun x => { x with locked := false, downs := min 255 (x.downs + 1) })
          (modBrdLane l (fun x => { x with down := true }) (raise (56 + l / 4) s)))))) ∧
    ((brdLane s l).down = true → forcedOff s l = false → exec (.laneUp l) s = .next (raise l (unitEvent 0x1002 0x10 0 none l
      (modLane l (fun x => { x with locked := true }) (modBrdLane l (fun x => { x with down := false }) s))))) ∧
    (forcedOff s l = true → exec (.laneUp l) s = .next s) ∧
    (∀ marks seqs, ∃ t, exec (.alignRow marks seqs) s = .next t ∧ t = { s with brd := t.brd, lanes := t.lanes } ∧
      t.brd.alignSeq = some (rowSeq s seqs) ∧
      ((brdLane s l).down = false → seqs.getD l 0 = rowSeq s seqs →
        brdLane t l = { brdLane s l with mark := marks.getD l 0xFF } ∧ (lane t l).locked = true) ∧
      ((brdLane s l).down = true ∨ seqs.getD l 0 ≠ rowSeq s seqs → brdLane t l = brdLane s l))

/-- FS, LD, FE and EMB packets and TRAILER_TIMEOUT (04 R122-R132, R139-R142), and the CSI-2 packets (R160-R164): an FS is taken
under the configuration in use, another packet under that of the frame its channel has open (01 R22); a bad header and a disabled
channel are counted and go no further; an FS opens the stream's next serial; a line packet counts its pixels; an FE closes its
channel's frame; embedded bytes join their area up to its limit. A retraction keeps the released rows only. BRD.COUNTERS and
CSI.COUNTERS answer counters; those of CSI.COUNTERS are free values, the model's choice (log 14). -/
def Obligations.PacketsFillFrames : Prop :=
  (∀ (r : CmdRef) (s : State) (c : Cmd),
    (startable s r 0x1004 = some c → checkBrdCounters s c = none → exec (.brdCounters r) s = .next (complete c
      { data := brdCounterBytes s (fieldAt c.region 0 1) }
      (if bit (fieldAt c.region 1 1) 0 then clearBrd (fieldAt c.region 0 1) s else s))) ∧
    (startable s r 0x1102 = some c → checkCsiCounters s c = none → ∃ a b, exec (.csiCounters r) s =
      .next (complete c { result0 := a, result1 := b } { s with freeCtr := s.freeCtr + 2 }))) ∧
  (∀ (i n fl : Nat) (s : State) (f : Frame), frameOf s i n = some f → bit f.flags 0 = false → f.decided = false →
    ∃ g, frameOf (retract i n fl s) i n = some g ∧ g.flags = f.flags ||| fl ||| vRetracted ∧ g.decided = true ∧
      g.rows = f.rows.take f.released) ∧
  (∀ (i : Instr) (p : BrdPacket) (s : State), i ∈ [Instr.fsPacket p, .ldPacket p, .fePacket p, .embPacket p] →
    ingestClocked s = true →
    (hdrOf p.hdr = none → exec i s = .next (raise 66 (countLink 0 1 s))) ∧
    (∀ h, hdrOf p.hdr = some h → bit (fieldAt (brdIn (packetCfg s h.type h.vc)) 2 1) h.vc = false →
      (h.type = 1 → exec (.fsPacket p) s = .next (countLink 1 1 (takeMap s))) ∧
      (h.type = 2 → exec (.ldPacket p) s = .next (countLink 1 1 s)) ∧
      (h.type = 3 → exec (.fePacket p) s = .next (countLink 1 1 s)) ∧
      (h.type = 4 → exec (.embPacket p) s = .next (countLink 1 1 s)))) ∧
  (∀ (j : Instr) (c i : Nat) (p : PipeCfg) (s u : State), ingestClocked s = true → chanStream s.cfg.active c = some (i, p) →
    s.streams.length = 17 → s.brd.chans.length = 8 → s.csi.length = 4 → i ≠ 0 → i < 17 → c < 12 →
    (∃ (k : BrdPacket) (h : Hdr), j = .fsPacket k ∧ hdrOf k.hdr = some h ∧ h.type = 1 ∧ h.vc = c ∧ c < 8 ∧
        bit (fieldAt (brdBlk s) 2 1) c = true ∧ packetOk s.cfg.active h k = true ∧ u = countChan c 0 1 (takeMap s)) ∨
      (∃ port vc n b, j = .csiFs port vc n ∧ c = 8 + port ∧ csiBlk s port = some b ∧ fieldAt b 1 1 = vc ∧
        u = countChan c 0 1 s) →
    (chan s c).isOpen = false → (chan s c).owed = [] → (stream s i).frames = [] → accepts s c i = true → p.source ≠ 0 →
    let s1 := startConfig i u
    ∀ q, chanStream s1.cfg.active c = some (i, q) → q.source ≠ 0 →
      ∃ t f, exec j s = .next t ∧ (chan t c).isOpen = true ∧ (chan t c).serial = (stream s i).nextSerial ∧
        (stream t i).nextSerial = ((stream s i).nextSerial + 1) % 65536 ∧
        frameOf t i (stream s i).nextSerial = some f ∧ f.time = fsStamp s i ∧ f.cfg = (stream s1 i).cfg) ∧
  (∀ (p : BrdPacket) (h : Hdr) (i : Nat) (q : PipeCfg) (s : State), ingestClocked s = true → hdrOf p.hdr = some h →
    let c := h.vc
    let u := openCfg s c
    bit (fieldAt (brdIn u) 2 1) c = true → chanStream u c = some (i, q) → packetOk u h p = true →
    s.brd.chans.length = 8 → c < 8 →
    let x := chan s c
    (h.type = 2 → x.isOpen = false → exec (.ldPacket p) s = .next (raise 67 (countChan c 5 1 (countChan c 0 1 s)))) ∧
    (∀ f z, h.type = 2 → x.isOpen = true → x.skip = false → frameOf s i x.serial = some f → framePipe f i = some z →
      ∃ t, exec (.ldPacket p) s = .next t ∧ ingested s t ∧ (chan t c).pixels = x.pixels + h.count ∧
        (chan t c).crc = crc32From x.crc p.payload ∧
        (z.source ≠ 0 → h.eol = true → x.cur = none → h.line = x.lines →
          (chan t c).lines = h.line + 1 ∧ (chan t c).cur = none)) ∧
    (∀ f z, h.type = 3 → x.isOpen = true → frameOf s i x.serial = some f → framePipe f i = some z →
      ∃ t, exec (.fePacket p) s = .next t ∧ ingested s t ∧ (chan t c).isOpen = false) ∧
    (∀ f, h.type = 4 → x.isOpen = true → x.skip = false → frameOf s i x.serial = some f → (members q).idxOf c < f.emb.length →
      let k := (members q).idxOf c
      ∃ t g, exec (.embPacket p) s = .next t ∧ ingested s t ∧ frameOf t i x.serial = some g ∧
        g.emb = f.emb.set k (f.emb.getD k [] ++ p.payload.take (4096 - (f.emb.getD k []).length)))) ∧
  ∀ (s : State), ingestClocked s = true →
    (∀ vc i q, openStream s vc = some (i, q) →
      (openFrameOf s i vc = none → exec (.trailerTimeout vc) s = .next s) ∧
      (∀ f, openFrameOf s i vc = some f → exec (.trailerTimeout vc) s = .next (retract i f.serial vNoTrailer s))) ∧
    (∀ port b, csiBlk s port = some b → port < 4 → s.csi.length = 4 →
      let c := 8 + port
      let x := chan s c
      (∀ vc, vc ≠ fieldAt b 1 1 → ∀ n kind,
        exec (.csiFs port vc n) s = .next (countChan c 14 1 s) ∧ exec (.csiFe port vc n) s = .next (countChan c 14 1 s) ∧
        exec (.csiLsLePacket port vc kind n) s = .next (countChan c 14 1 s)) ∧
      (∀ kind n, exec (.csiLsLePacket port (fieldAt b 1 1) kind n) s = .next (countChan c 0 1 s)) ∧
      (∀ i q, openStream s c = some (i, q) →
        (x.isOpen = true → exec (.csiDphyError port) s = .next (retract i x.serial vLane (raise (80 + 5 * port) s))) ∧
        (x.isOpen = false → exec (.csiDphyError port) s = .next (raise (80 + 5 * port) s)) ∧
        (∀ f z n, x.isOpen = true → frameOf s i x.serial = some f → framePipe f i = some z →
          ∃ t, exec (.csiFe port (fieldAt b 1 1) n) s = .next t ∧ ingested s t ∧ (chan t c).isOpen = false) ∧
        (∀ p, p.headerLost = true → x.isOpen = false → exec (.csiLongPacket port p) s = .next (raise (78 + 5 * port) s)) ∧
        (∀ p, p.headerLost = false → p.vc ≠ fieldAt b 1 1 → exec (.csiLongPacket port p) s = .next (countChan c 14 1 s)) ∧
        (∀ p f z, p.headerLost = false → p.vc = fieldAt b 1 1 → p.dataType = fieldAt b 2 1 → x.isOpen = true →
          x.skip = false → x.cur = none → frameOf s i x.serial = some f → framePipe f i = some z → z.source ≠ 0 →
          ∃ t, exec (.csiLongPacket port p) s = .next t ∧ ingested s t ∧ (chan t c).lines = x.lines + 1 ∧ (chan t c).cur = none)))

/-! ## Triggers, verdicts and pipes -/

/-- BRD.TRIGGER, TRIGGER_EDGE, TRIGGER_SCRIPT and SPI_SCRIPT_DONE (04 R156-R159): an output is set, or a script sent now; an edge
leaves within 2 ns of its time, an open value (log 6), the next follows by PERIOD, and one more script is due; a script is sent
when its port is idle and waits in its queue otherwise; its end answers the words read back. -/
def Obligations.TriggersAndScripts : Prop :=
  (∀ (r : CmdRef) (s : State) (c : Cmd), startable s r 0x1003 = some c → checkBrdTrigger s c = none →
    let b := c.region
    let o := fieldAt b 0 1
    (fieldAt b 1 1 ≠ 3 → o < s.brd.trigs.length → ∃ rep u, exec (.brdTrigger r) s = .next (complete c rep u) ∧
      u = { s with brd := { s.brd with trigs := u.brd.trigs } } ∧ (∀ k, k ≠ o → trig u k = trig s k) ∧
      (trig u o).mode = fieldAt b 1 1 ∧ (trig u o).polarity = fieldAt b 2 1 ∧ (trig u o).pulseNs = fieldAt b 4 4 ∧
      (trig u o).period = fieldAt b 8 8 ∧ (trig u o).start = timeAt b 0x10 ∧ (trig u o).delayUs = fieldAt b 0x1A 2 ∧
      (trig u o).port = fieldAt b 0x1C 1 ∧
      (trig u o).script = (List.range (fieldAt b 3 1)).map (fun k => fieldAt b (0x20 + 4 * k) 4)) ∧
    (fieldAt b 1 1 = 3 → fieldAt b 3 1 ≠ 0 → fieldAt b 0x1C 1 < s.brd.spis.length →
      ∃ t, exec (.brdTrigger r) s = .next t ∧ t = { s with brd := t.brd, cmds := t.cmds, out := t.out } ∧ t.brd.trigs = s.brd.trigs ∧
        t.cmds = s.cmds.map (fun y => if y.same c then { y with waiting := true } else y) ∧
        ((spi s (fieldAt b 0x1C 1)).sending = none → (spi s (fieldAt b 0x1C 1)).queue = [] →
          t.out = s.out ++ [.spi (fieldAt b 0x1C 1) (scriptWords b)]))) ∧
  ∀ (s : State), enginesClocked s = true →
    (∀ o, (trig s o).mode = 1 ∨ (trig s o).mode = 2 → safeOf s (myUnit s 0x10 0) ≠ 2 →
      ∃ u e, exec (.triggerEdge o) s = .next (raise (68 + o) u) ∧ u.out = s.out ++ [.trigger o ((trig s o).polarity == 1) (trig s o).pulseNs (toTime e)] ∧
        (e - (trig s o).nextEdge).natAbs ≤ 2 * 2 ^ 32 ∧
        u = { s with out := u.out, freeCtr := s.freeCtr + 1, brd := { s.brd with trigs := u.brd.trigs } } ∧
        trig u o = { trig s o with
          mode := if (trig s o).mode = 2 then 0 else 1
          nextEdge := if (trig s o).mode = 2 then (trig s o).nextEdge else (trig s o).nextEdge + (trig s o).period
          scriptDue := (trig s o).scriptDue + if (trig s o).script = [] then 0 else 1 } ∧ ∀ k, k ≠ o → trig u k = trig s k) ∧
    (∀ o, 0 < (trig s o).scriptDue → (trig s o).port < s.brd.spis.length →
      ∃ t, exec (.triggerScript o) s = .next t ∧ t = { s with brd := t.brd, out := t.out } ∧
        (trig t o).scriptDue = (trig s o).scriptDue - 1 ∧ (∀ k, k ≠ o → trig t k = trig s k) ∧
        ((spi s (trig s o).port).sending = none → (spi s (trig s o).port).queue = [] →
          t.out = s.out ++ [.spi (trig s o).port (trig s o).script]) ∧
        ((spi s (trig s o).port).sending ≠ none → t.out = s.out ∧ (spi t (trig s o).port).queue =
          (spi s (trig s o).port).queue ++ [{ spare := false, words := (trig s o).script, ref := none }])) ∧
    (∀ port miso j, (spi s port).sending = some j → (spi s port).queue = [] →
      ∃ u, u = raise (72 + port) (modSpi port (fun x => { x with sending := none, miso := miso.take j.words.length }) s) ∧
        (j.ref = none → exec (.spiScriptDone port miso) s = .next u) ∧
        (∀ q c, j.ref = some q → findCmd s q = some c → exec (.spiScriptDone port miso) s =
          .next (complete c (misoReply (miso.take j.words.length)) u)))

/-- FRAME_VERDICT, PIPE_FRAME_BOUNDARY, PIPE.PLAY, SHADING_BLEND_DONE and TAP_PATCH_DONE (04 R143-R147; 05 R171, R199; 06
R208, R225): a verdict ends its frame in its stream, and a frame through memory is handed on or its slot freed; a pipe starts
the ready stream of the smallest V; played bytes reach the open slot; a patched slot is whole. -/
def Obligations.VerdictsAndBoundaries : Prop :=
  (∀ (i : Nat) (s : State) (f : Frame) (p : PipeCfg), (stream s i).frames.head? = some f → framePipe f i = some p →
    enginesClocked s = true → verdictDue s i p f = true →
    ∃ t, exec (.frameVerdict i) s = .next t ∧ (stream t i).lastSerial = f.serial ∧
      (stream t i).lastVerdict = unionFlags s i f ∧ (∀ g ∈ (stream t i).frames, g.serial ≠ f.serial) ∧
      (p.source ≠ 0 → (stream t i).frames = (stream s i).frames.filter fun g => g.serial != f.serial) ∧
      (∀ n, p.source ≠ 0 → f.slot = some n → Tbl.wf (stream s i).ring = true →
        frameRing f.cfg i = frameRing (stream s i).cfg i →
        (bit (unionFlags s i f) 0 = true → Tbl.get 0 (stream t i).ring n = 0 ∧ (stream t i).ready = (stream s i).ready) ∧
        (bit (unionFlags s i f) 0 = false → Tbl.get 0 (stream t i).ring n = 2 ∧ ∃ r, r.slot = n ∧ r.serial = f.serial ∧
          r.epoch = f.epoch ∧ r.cfg = f.cfg ∧ (stream t i).ready = (stream s i).ready ++ [r]))) ∧
  (∀ (pipe : Nat) (s : State), enginesClocked s = true → s.sys.profile ≠ 3 → pipe < 3 → s.pipes.length = 3 →
    let s1 := notePipe pipe (endPipeFrame pipe (notePipe pipe s))
    (∀ i, nextStream pipe s1 = some i → s1.pipes.contains (some i) = false →
      ∃ t, exec (.pipeFrameBoundary pipe) s = .next t ∧
        t = { reported s t with pipes := t.pipes, mck := t.mck, streams := t.streams, cod := t.cod, hbm := t.hbm } ∧
        t.pipes = s1.pipes.set pipe (some i) ∧
        (stream t i).ready.map (·.serial) = (stream s1 i).ready.map (·.serial) ∧
        ∀ k ∈ streamsIn pipe, streamReady s1 k = true → (stream s1 i).v ≤ (stream s1 k).v) ∧
    (nextStream pipe s1 = none → ∃ t, exec (.pipeFrameBoundary pipe) s = .next t ∧ t.pipes.getD pipe none = none ∧
      t.streams = s1.streams)) ∧
  (∀ (r : CmdRef) (s : State) (c : Cmd) (p : PipeCfg), startable s r 0x2006 = some c → playCheck s c = none →
    pipeIn s.cfg.committed c.target = some p → c.target < s.streams.length →
    let b := c.region
    let i := c.target
    let bytes := (b.drop (blockLen layPipePlay)).take (fieldAt b 8 4)
    (∀ n, bit (fieldAt b 0 1) 0 = false → bit (fieldAt b 0 1) 1 = false → (stream s i).play = some n →
      exec (.pipePlay r) s = .next (complete c {} (hbmWrite (ringAddr p n + fieldAt b 4 4) bytes s))) ∧
    (∀ n, bit (fieldAt b 0 1) 0 = true → bit (fieldAt b 0 1) 1 = false → (stream s i).play = none → freeRingSlot s i p = some n →
      exec (.pipePlay r) s = .next (complete c {} (hbmWrite (ringAddr p n + fieldAt b 4 4) bytes
        (modStream i (fun x => { x with play := some n, ring := Tbl.put 0 x.ring n 1 }) s)))) ∧
    (∀ n, bit (fieldAt b 0 1) 0 = false → bit (fieldAt b 0 1) 1 = true → (stream s i).play = some n →
      let s2 := hbmWrite (ringAddr p n + fieldAt b 4 4) bytes s
      playDiffers p (hbmRead s2 (ringAddr p n) 64) = none ∧
        ∃ u, exec (.pipePlay r) s = .next (complete c { result0 := (stream s i).nextSerial } u) ∧ (stream u i).play = none ∧
          (stream u i).nextSerial = ((stream s i).nextSerial + 1) % 65536)) ∧
  ∀ (s : State), enginesClocked s = true →
    (∀ i, (stream s i).blendDone = false → exec (.shadingBlendDone i) s = .next (modStream i (fun x =>
      { x with
        blendDone := true
        weights := blendWeights (gridsOf s.cfg.committed i) x.lens
        shade := s.cfg.committed.filter fun e => keyOp e.1 == 0x2002 && keyUnit e.1 == i }) s)) ∧
    (∀ k n y, k < 4 → Tbl.wf (tapTable s 0 k) = true → Tbl.find? (tapTable s 0 k) n = some y → y.unpatched = true →
      ∃ t, exec (.tapPatchDone 0 k) s = .next t ∧ t = { reported s t with streams := t.streams, hbm := t.hbm } ∧
        Tbl.find? (tapTable t 0 k) n = some { y with rows := y.cfg.outH, patched := true } ∧
        (isLeader s = true → (routeOf s (104 + k)).enable = true → 104 + k < 640 → isPending t (104 + k) = true))

/-! ## Recorder, relays, audio -/

/-- REC.EXTENTS, REC.START, REC.STOP, REC.KEY, REC.STATUS, ZIP.FLUSH and RELAY_PACKET (08 R299, R300, R302, R313-R318): the
extents of an SSD; a recording that begins; a stop answered at once where none runs, else waiting; a key set or cleared; a
status, or an access of an SSD, which is brought up before its first command (log 36); a relay's packet into its queue, and its
flush. -/
def Obligations.RecorderCommandsTakeEffect : Prop :=
  (∀ (r : CmdRef) (s : State) (c : Cmd),
    let b := c.region
    let x := s.recorder
    let waits := s.cmds.map fun y => if y.same c then { y with waiting := true } else y
    (startable s r 0x3101 = some c → checkRecExtents s c = none → fieldAt b 0 1 < x.ssds.length →
      let d := fieldAt b 0 1
      ∃ u, exec (.recExtents r) s = .next (complete c {} u) ∧
        (ssd u d).extents = (if bit (fieldAt b 1 1) 0 then touched s d else (ssd s d).extents) ++ extentsOf b ∧
        (x.state = 0 → u = { s with recorder := { x with ssds := u.recorder.ssds } } ∧
          ∀ k, k ≠ d → ssd u k = ssd s k)) ∧
    (startable s r 0x3102 = some c → startCheck s c = none → ∃ t, exec (.recStart r) s = .next t ∧
      t = { s with recorder := t.recorder, cmds := waits, bind := { s.bind with safe := t.bind.safe } } ∧
      t.recorder.state = 1 ∧ t.recorder.zmask = fieldAt b 0 2 ∧ t.recorder.stripe = fieldAt b 2 1 ∧
      t.recorder.keySlot = fieldAt b 3 1 ∧ t.recorder.preroll = fieldAt b 4 4 ∧ t.recorder.chunkMib = fieldAt b 8 4 ∧
      t.recorder.audioMask = fieldAt b 0xC 2 ∧ t.recorder.tag = fieldAt b 0x10 4 ∧ t.recorder.start = timeAt b 0x14 ∧
      t.recorder.begun = false ∧ t.recorder.frames = 0 ∧ t.recorder.bytes = 0 ∧ t.recorder.startCmd = some ⟨c.fn, c.seq⟩ ∧
      t.recorder.ssds = x.ssds ∧ t.recorder.keys = x.keys) ∧
    (startable s r 0x3103 = some c → checkRecStop s c = none →
      (x.state = 0 → exec (.recStop r) s = .next (complete c
        { result0 := lastRecorded x + 2 ^ 32 * (framesRecorded x % 2 ^ 32), result1 := x.bytes } s)) ∧
      (x.state = 3 → exec (.recStop r) s = .next { s with
        cmds := waits, recorder := { x with stopCmds := x.stopCmds ++ [⟨c.fn, c.seq⟩] } }) ∧
      (x.state ≠ 0 → x.state ≠ 3 → fieldAt b 0 1 = 1 → stopPassed s (fieldAt b 2 2) = false → exec (.recStop r) s = .next { s with
        cmds := waits
        recorder := { x with stopCmds := x.stopCmds ++ [⟨c.fn, c.seq⟩], stopAt := some (fieldAt b 2 2) } }) ∧
      (x.state = 1 → fieldAt b 0 1 = 0 → x.chunkOpen = true → ∃ t, exec (.recStop r) s = .next t ∧
        t.recorder.state = 3 ∧ t.recorder.stopCmds = x.stopCmds ++ [⟨c.fn, c.seq⟩] ∧
        (x.closing = none → x.carry = none → lostGroup s = none → t.recorder.closing = some 2))) ∧
    (startable s r 0x3104 = some c → keyCheck s c = none → Tbl.wf x.keys = true →
      ∃ u, exec (.recKey r) s = .next (complete c {} u) ∧ u = { s with recorder := { x with keys := u.recorder.keys } } ∧
        Tbl.find? u.recorder.keys (fieldAt b 0 1) =
          (if bit (fieldAt b 1 1) 0 then none else some (fieldAt b 8 8, (b.drop 0x10).take 64)) ∧
        ∀ k, k ≠ fieldAt b 0 1 → Tbl.find? u.recorder.keys k = Tbl.find? x.keys k) ∧
    (startable s r 0x3105 = some c → recStatusCheck s c = none →
      (fieldAt b 0 1 = 0 → exec (.recStatus r) s = .next (complete c
        { result0 := lastRecorded x + 2 ^ 16 * x.state + 2 ^ 32 * (unusedBytes s 0 / 1048576 % 2 ^ 32)
          result1 := unusedBytes s 1 / 1048576 % 2 ^ 32 + 2 ^ 32 * (unrecorded s % 2 ^ 32) } s)) ∧
      (fieldAt b 0 1 ≠ 0 → ∃ t h, exec (.recStatus r) s = .next t ∧
        t = { s with
          cmds := waits, recorder := { x with host := x.host ++ [h], ssds := t.recorder.ssds }, out := t.out, lanes := t.lanes } ∧
        (64 ≤ (x.host.filter (·.ssd == h.ssd)).length → t.out = s.out ∧ t.recorder.ssds = x.ssds ∧ t.lanes = s.lanes) ∧
        ((x.host.filter (·.ssd == h.ssd)).length < 64 →
          t.out = s.out ++ (if (ssd s h.ssd).attached then [] else (attachCommands (ssd s h.ssd)).map (.nvmeAdmin h.ssd)) ++
            [.nvmeHost h.ssd h.nsid h.lba h.count h.write h.data] ∧
          (t.recorder.ssds = x.ssds.modify h.ssd fun y => { y with attached := true }) ∧
          t.lanes = if (ssd s h.ssd).attached then s.lanes
            else (lanesTurn true ((List.range 4).map (56 + 4 * h.ssd + ·)) s).lanes) ∧
        h = { ref := ⟨c.fn, c.seq⟩, write := fieldAt b 0 1 == 2, ssd := fieldAt b 1 1, nsid := fieldAt b 4 4, lba := fieldAt b 8 8
              count := fieldAt b 0x10 4
              data := if fieldAt b 0 1 = 2 then
                (b.drop 0x18).take (fieldAt b 0x10 4 * (ssd s (fieldAt b 1 1)).lbaBytes) else [] })) ∧
    (startable s r 0x3003 = some c → checkZipFlush s c = none → c.target = 14 ∨ c.target = 15 → s.relays.length = 2 →
      ∃ u n, exec (.zipFlush r) s = .next (complete c {}
          (raise (280 + c.target) (unitEvent 0x3001 0x30 c.target none (n + 2 ^ 16 * c.target) u))) ∧
        relay u c.target = { next := publishNo s, offset := 0, gap := false } ∧
        (let q := fieldAt (zipBlk s.cfg.active c.target) 0xE 2
         (queue s q).configured = true → (queue s q).reading = false → (queue u q).packets = []))) ∧
  ∀ (z : Nat) (s : State) (e : RingEntry), enginesClocked s = true → z = 14 ∨ z = 15 → isRelay s.cfg.active z = true →
    unitLive s 0x30 z = true → relayNext s z = some e → s.relays.length = 2 →
    let q := fieldAt (zipBlk s.cfg.active z) 0xE 2
    let pkt := relayPacket e (relay s z).offset ((queue s q).maxPacket - 16) (relay s z).gap
    let sent := (relay s z).offset + (pkt.length - 16)
    (queueTakes s q pkt = false → exec (.relayPacket z) s = .next s) ∧
    (queueTakes s q pkt = true → ∃ t, exec (.relayPacket z) s = .next t ∧
      t = { reported s t with relays := t.relays, queues := t.queues } ∧ (∀ k, k ≠ q → queue t k = queue s k) ∧
      (queue t q).packets = (queue s q).packets ++ [pkt] ∧
      relay t z = if sent = (relayData e).length then { next := e.no + 1, offset := 0, gap := false }
        else { relay s z with next := e.no, offset := sent, gap := false })

/-- NVME_WRITE_COMPLETE, NVME_WRITE_TIMEOUT, NVME_HOST_ACCESS_DONE, CHUNK_CLOSE and the AUD rows (08 R301, R310, R312, R316,
R319-R321): a completed write leaves its queue; a failed one is sent once more, and stops the recorder the second time; a
chunk closes part by part, each once the media have taken the one before, at last the header with FUA, and its bytes are counted;
a word-clock frame is kept with its time, and a lost and a restored word clock are told. -/
def Obligations.RecorderFollowsMedia : Prop :=
  (∀ (d : Nat) (s : State) (w : NvmeWrite), enginesClocked s = true → oldestWrite s d = some w →
    let x := s.recorder
    (x.closePhase = 0 → ∃ t, exec (.nvmeWriteComplete d 0) s = .next t ∧ recorded s t ∧ t.recorder.writes = x.writes.erase w ∧
      t.recorder.body = x.body ∧ t.recorder.index = x.index ∧ t.recorder.state = x.state) ∧
    (∀ i, (i = .nvmeWriteTimeout d ∨ ∃ st, st ≠ 0 ∧ i = .nvmeWriteComplete d st) →
      (w.retried = false → ∃ t, exec i s = .next t ∧ t.out = s.out ++ [writeOut w] ∧
        t.recorder = { x with writes := x.writes.map fun q => if q = w then { q with retried := true } else q }) ∧
      (w.retried = true → x.state ≠ 0 → ∃ t, exec i s = .next t ∧
        let again := x.closing = some 5 ∧ x.closePhase ≠ 0
        (x.chunkOpen = true → ¬ again → t.recorder.state = 3 ∧ t.recorder.closing = some 5 ∧ t.recorder.closePhase = 0 ∧
          (w.fua = false → w.flush = false → w.off ≠ 0 → ∀ q ∈ t.recorder.writes, q ∈ x.writes ∧ q.off < w.off)) ∧
        (x.chunkOpen = false ∨ again → t.recorder.state = 0 ∧ t.recorder.writes = [] ∧ t.recorder.chunkOpen = false)))) ∧
  (∀ (s : State) (k : Nat), enginesClocked s = true → s.recorder.closing = some k → s.recorder.chunkOpen = true →
    s.recorder.writes = [] →
    let x := s.recorder
    let total := alignUp (4096 + x.body.length + 32 * x.index.length) 4096
    ∃ t, exec .chunkClose s = .next t ∧ recorded s t ∧
      (x.closePhase < 4 → t.recorder.bytes = x.bytes ∧ x.closePhase < t.recorder.closePhase) ∧
      (x.closePhase = 2 → t.recorder.writes.map (fun w => (w.ssd, w.flush)) = (ssdsOf x.stripe).map (fun d => (d, true))) ∧
      (x.closePhase = 3 → t.recorder.writes = [chunkWrite s 0 true (chunkHeader s true total (4096 + x.body.length))]) ∧
      (4 ≤ x.closePhase → t.recorder.bytes = x.bytes + total ∧
        (x.state = 3 → x.carry = none → lostGroup s = none →
          t.recorder.state = 0 ∧ t.recorder.chunkOpen = false ∧ t.recorder.stopCmds = []))) ∧
  (∀ (q : CmdRef) (ok : Bool) (data : List Byte) (h : HostAccess) (s : State) (c : Cmd), enginesClocked s = true →
    s.recorder.host.find? (·.ref == q) = some h → h ∈ (s.recorder.host.filter (·.ssd == h.ssd)).take 64 → findCmd s q = some c →
    let u := sendHost h.ssd 63 { s with recorder := { s.recorder with host := s.recorder.host.filter (·.ref != q) } }
    (ok = true → exec (.nvmeHostAccessDone q ok data) s = .next (complete c { data := if h.write then [] else data } u)) ∧
    (ok = false → ∃ st, exec (.nvmeHostAccessDone q ok data) s =
      .next { complete c { status := st } u with freeCtr := (complete c { status := st } u).freeCtr + 1 })) ∧
  ∀ (a : Nat) (s : State), enginesClocked s = true → a < 2 → s.tdm.length = 2 →
    let x := s.tdm.getD a {}
    (∀ b words, activeBlk s 0x3201 a 0 = some b → x.lost = false → portShed s 14 = false → safeOf s (myUnit s 0x32 a) ≠ 2 →
      let one := (stampTime s (44 + a) x.recent.length, samplesOfFrame b words)
      let given := (audioChans s).1 / 256 ^ a % 256
      ∃ t, exec (.audWordClockFrame a words) s = .next t ∧ t = { reported s t with
          tdm := t.tdm, net := t.net, recorder := t.recorder, cfg := { s.cfg with active := t.cfg.active } } ∧
        t.tdm.getD a {} =
          { x with recent := (one :: (if x.restart then [] else x.recent)).take 48, restart := false } ∧
        (s.recorder.state = 0 ∨ given = 0 → t.recorder = s.recorder) ∧
        (s.recorder.state ≠ 0 → given ≠ 0 → t.recorder = { s.recorder with
          audio := addSample (audioChans s) a x.restart one s.recorder.audio })) ∧
    (x.lost = false → (activeBlk s 0x3201 a 0).isSome = true → exec (.audClockLost a) s = .next (raise (304 + a)
      (unitEvent 0x3201 0x32 a none a { s with tdm := s.tdm.modify a fun y => { y with lost := true } }))) ∧
    (x.lost = true → exec (.audClockRestored a) s = .next (raise (304 + a)
      (unitEvent 0x3202 0x32 a none a
        { s with tdm := s.tdm.modify a fun y => { y with lost := false, restart := true, recent := [] } })))

/-! ## Coding -/

/-- ENC.OPEN, ENC.RATE, ENC.CLOSE, DEC.OPEN, DEC.SUBMIT and DEC.CLOSE that no check fails (09 R329, R334, R341, R354-R357): a
session gets the next number (the model's choice, log 37) and its staged parameters; an idle session closes at once, a busy
one takes no more frames and its command waits; decode data is parsed into parameter sets and access units, DISCONT leaves no set of
before, the output ring stays, and every error is told. -/
def Obligations.CodingSessionsOpenAndClose : Prop :=
  ∀ (r : CmdRef) (s : State) (c : Cmd),
    let b := c.region
    let waits := s.cmds.map fun y => if y.same c then { y with waiting := true } else y
    (startable s r 0x4001 = some c → encOpenCheck s c = none →
      ∃ u, exec (.encOpen r) s = .next (complete c { deferred := true, result0 := s.cod.nextId % 65536 } u) ∧
        u = { s with cfg := { s.cfg with staged := u.cfg.staged, stagings := s.cfg.stagings + 1 }
                     cod := { s.cod with
                       nextId := s.cod.nextId + 1
                       enc := s.cod.enc ++ [{ id := s.cod.nextId % 65536, core := c.target, cores := fieldAt b 0 1 }] } } ∧
        u.cfg.staged = (s.cfg.staged.filter fun e => e.key ≠ cfgKey 0x4001 c.target 0) ++
          [⟨c.fn, cfgKey 0x4001 c.target 0, { blk := b.take (blockLen layEncOpen) }, s.cfg.stagings⟩]) ∧
    (startable s r 0x4004 = some c → rateCheck s c = none → ∃ u, exec (.encRate r) s =
      .next (complete c { deferred := true } u) ∧
        u = { s with cfg := { s.cfg with staged := u.cfg.staged, stagings := s.cfg.stagings + 1 } } ∧
        u.cfg.staged = (s.cfg.staged.filter fun e => e.key ≠ cfgKey 0x4004 c.target 0) ++
          [⟨c.fn, cfgKey 0x4004 c.target 0, { blk := resolvedRate s c }, s.cfg.stagings⟩]) ∧
    (∀ x, startable s r 0x4002 = some c → checkEncClose s c = none → encAt s c.target = some x →
      s.cod.enc.find? (·.id == x.id) = some x →
      (x.pics = [] → x.packets = [] → x.due = [] → isLeader s = true → c.detached = false → c.copy = false → c.fn < s.stalls.length →
        ∃ t, exec (.encClose r) s = .next t ∧ t.cod.enc = s.cod.enc.filter (·.id != x.id) ∧
          ∃ e, Tbl.find? (stall t c.fn).cpl ((stall s c.fn).cplTail.toNat % 128) = some e ∧ e.seq = c.seq ∧ e.status = 0 ∧
            e.result0 = x.pictures % 2 ^ 32) ∧
      (x.packets ≠ [] → ∃ t y, exec (.encClose r) s = .next t ∧ t.cmds = waits ∧ t.stalls = s.stalls ∧
        t.cod.enc.find? (·.id == x.id) = some y ∧ y.waiting = [] ∧ y.packets = x.packets ∧ y.closing = some ⟨c.fn, c.seq⟩)) ∧
    (startable s r 0x4101 = some c → decOpenCheck s c = none →
      ∃ u, exec (.decOpen r) s = .next (complete c { result0 := s.cod.nextId % 65536 } u) ∧
        u = { s with bind := { s.bind with safe := u.bind.safe }
                     cod := { s.cod with
                       nextId := s.cod.nextId + 1
                       dec := s.cod.dec ++ [{ id := s.cod.nextId % 65536, core := c.target, cores := fieldAt b 0 1
                                              blk := b.take (blockLen layDecOpen) }] } }) ∧
    (∀ errs x, startable s r 0x4102 = some c → checkDecSubmit s c = none → decAt s c.target = some x →
      let data := (b.drop 16).take (fieldAt b 4 4)
      let y := takeSubmitted errs (fieldAt b 2 1) data x
      exec (.decSubmit r errs) s = .next (complete c {} (raise (200 + 12 * x.core) (y.2.foldl (fun u f => raise (199 + 12 * x.core)
        (unitEvent 0x4102 0x41 x.core none (f.kind % 256 + 2 ^ 32 * (f.offset % 2 ^ 32)) u)) (modDec x.id (fun _ => y.1) s)))) ∧
      (y.1.id = x.id ∧ y.1.core = x.core ∧ y.1.blk = x.blk ∧ y.1.rd = x.rd ∧ y.1.wr = x.wr ∧ y.1.count = x.count ∧
        y.1.pics = x.pics) ∧
      (∀ n ∈ y.1.sets, n ∈ (nalUnits data).map (·.2) ∨ (bit (fieldAt b 2 1) 1 = false ∧ n ∈ x.sets))) ∧
    (startable s r 0x4103 = some c → checkDecClose s c = none → exec (.decClose r) s = .next (complete c {}
      { s with cod := { s.cod with dec := s.cod.dec.filter (·.core != c.target) } }))

/-- ENC_PICTURE_START, ENC_PICTURE_DONE, ENC_OUTPUT_RELEASE, ENC_ROLLBACK and ARRAY_SLICES_MISSING (01 R22; 06 R219-R223; 09
R337-R353; 14 R493): a frame that the hold area or a shed port cannot take is dropped and told; a picture whose first CTU row has
entered starts under its frame's configuration with its checkpoint; one that is whole, within its cap and as the cores may make it
is told, and with its frame COMMITTED it counts and becomes a reference; output waits for credits; a retracted one is undone to its
checkpoint; a frame whose slices are missing is told, and the next one follows a gap. -/
def Obligations.CodedPicturesFlow : Prop :=
  ∀ (id : Nat) (s : State) (x : EncSess) (now : EncCfg), sessionNow s id = some (x, now) → enginesClocked s = true →
    let now_ := fun (t : State) (y : EncSess) => t.cod.enc.find? (·.id == id) = some y
    (∀ fr rest, x.waiting = fr :: rest →
      let e := (encIn fr.cfg x.core).getD now
      let r := rateIn fr.cfg x.core e
      (coresFree x = false ∨ firstRowIn s e fr = false → exec (.encPictureStart id) s = .next s) ∧
      (coresFree x = true → firstRowIn s e fr = true → s.thm.stop = 0 →
        (8 * holdBytes e r.maxKbps < heldBits x + capOf x r e ∨ (e.source = 0 ∧ portShed s 2 = true) →
          ∃ u y, exec (.encPictureStart id) s =
            .next (raise (195 + 12 * x.core) (unitEvent 0x4005 0x40 x.core (some fr.serial) fr.serial u)) ∧
            u = { s with cod := { s.cod with enc := u.cod.enc } } ∧ now_ u y ∧ y.waiting = rest ∧ y.gap = true ∧
            y.fullness = some (elapse x r e 0) ∧ y.recent = 0 :: x.recent.take 255 ∧
            y.pics.map (·.serial) = x.pics.map (·.serial)) ∧
        (heldBits x + capOf x r e ≤ 8 * holdBytes e r.maxKbps → (e.source = 0 → portShed s 2 = false) →
          ∃ t y p, exec (.encPictureStart id) s = .next t ∧ t = { reported s t with cod := t.cod } ∧ now_ t y ∧ y.waiting = rest ∧ y.pics = x.pics ++ [p] ∧ y.gap = false ∧
            y.lastCoded = some fr.serial ∧ p.serial = fr.serial ∧ p.time = fr.time ∧ p.epoch = fr.epoch ∧ p.cfg = fr.cfg ∧
            p.coded = none ∧ p.cap = capOf x r e ∧ p.gap = x.gap ∧ p.irap = (x.gop == 0 || x.refs.isEmpty) ∧
            p.ckpt = { gop := x.gop, refresh := x.refresh, cycle := x.cycle, fullness := fullnessOf x r, lastCoded := x.lastCoded
                       poc := x.poc, qpModel := x.qpModel, recent := x.recent, refs := x.refs, roi := x.roi
                       substituted := x.substituted, numRefs := x.numRefs, sliceRows := x.sliceRows, sao := x.sao } ∧
            (p.irap = true → p.poc = 0 ∧ p.refs = [])))) ∧
    (∀ p pic, x.pics = [p] → p.coded = none → x.closing = none →
      let e := p.enc x now
      (inputWhole e p = false ∨ p.cap < picBits pic ∨ pictureOk s x e p pic = false → exec (.encPictureDone id pic) s = .next s) ∧
      (inputWhole e p = true → picBits pic ≤ p.cap → pictureOk s x e p pic = true → p.verdict = none → pic.cappedAt = none →
        ∃ u y fill, exec (.encPictureDone id pic) s = .next (raise (192 + 12 * x.core) (unitEvent 0x4001 0x40 x.core (some p.serial)
            (p.serial + 2 ^ 16 * b2n p.irap + 2 ^ 24 * unsigned 8 (qpMean pic) + 2 ^ 32 * (picBits pic / 8 % 2 ^ 32)) u)) ∧
          u = { s with cod := { s.cod with enc := u.cod.enc } } ∧ now_ u y ∧
          y.pics = [{ p with coded := some pic, filler := fill }] ∧ y.recent.head? = some (picBits pic)) ∧
      (∀ v, inputWhole e p = true → picBits pic ≤ p.cap → pictureOk s x e p pic = true → p.verdict = some v → bit v 0 = false →
        e.rcMode ≠ 3 →
        ∃ t y, exec (.encPictureDone id pic) s = .next t ∧ t = { reported s t with
            cod := t.cod, queues := t.queues, hbm := t.hbm } ∧ now_ t y ∧
          y.pics = [] ∧ y.pictures = x.pictures + 1 ∧
          y.refs.head? = some p.serial ∧ (p.irap = true → ∀ k ∈ y.refs, k = p.serial))) ∧
    (∀ p l, x.packets = p :: l → x.closing = none →
      (queueTakes s now.queue p = false → exec (.encOutputRelease id) s = .next s) ∧
      (queueTakes s now.queue p = true → l = [] → ∃ t y, exec (.encOutputRelease id) s = .next t ∧
        t = { reported s t with cod := t.cod, queues := t.queues } ∧ now_ t y ∧ y.packets = [] ∧
        (queue t now.queue).packets = (queue s now.queue).packets ++ [p])) ∧
    (∀ p v, x.pics = [p] → p.verdict = some v → bit v 0 = true → x.closing = none →
      ∃ u y, exec (.encRollback id) s = .next (raise (193 + 12 * x.core) (unitEvent 0x4002 0x40 x.core (some p.serial)
          (p.serial + 2 ^ 16 * (rowsDone (p.enc x now) p % 65536) + 2 ^ 32 * v) u)) ∧
        u = { s with cod := { s.cod with enc := u.cod.enc } } ∧ now_ u y ∧ y.pics = [] ∧ y.gap = (x.gap || p.gap) ∧
        y.gop = p.ckpt.gop ∧ y.refresh = p.ckpt.refresh ∧ y.cycle = p.ckpt.cycle ∧ y.lastCoded = p.ckpt.lastCoded ∧
        y.poc = p.ckpt.poc ∧ y.qpModel = p.ckpt.qpModel ∧ y.numRefs = p.ckpt.numRefs ∧ y.sliceRows = p.ckpt.sliceRows ∧
        y.substituted = p.ckpt.substituted ∧ y.roi = p.ckpt.roi ∧ y.recent.head? = some 0 ∧
        (p.idle = 0 → y.recent = 0 :: p.ckpt.recent.take 255) ∧ (∀ k ∈ y.refs, k ≠ p.serial)) ∧
    (∀ p, x.due = [p] → isLeader s = true → exec (.arraySlicesMissing id) s = .next
      (raise (195 + 12 * x.core) (unitEvent 0x4005 0x40 x.core (some p.serial) p.serial
        (modEnc id (fun y => { y with
          due := [], pics := y.pics.modify 0 fun q => { q with gap := true }, gap := y.gap || y.pics.isEmpty
          slices := Tbl.erase y.slices p.serial }) s))))

/-- DEC_PICTURE (09 R355-R360): the next picture in output order of the access units submitted is decoded, where what the row says
of it may come of them (log 37): what it lacks is told, the samples of lost CTUs are concealed, it joins the decoded picture buffer,
and it goes to the next slot of the ring, for which it waits. -/
def Obligations.DecodedPicturesFlow : Prop :=
  ∀ (id : Nat) (s : State) (x : DecSess) (pic : DecodedPic), enginesClocked s = true →
    decSession s id = some x → throttled s = false → safeOf s (myUnit s 0x40 x.core) = 0 →
    (nextAu x = none → exec (.decPicture id pic) s = .next s) ∧
    (∀ a q r, nextAu x = some (a, q, r) →
      let slots := fieldAt x.blk 0x10 2
      let slot := x.wr % slots
      let used_ := (x.wr + 65536 - x.rd) % 65536
      let px := concealed (bit (fieldAt x.blk 3 1) 0) q a.poc pic
      let mismatch := hashBad x a q px.1 px.2
      let told := (pictureFaults a mismatch).foldl (fun u f => raise (199 + 12 * x.core)
        (unitEvent 0x4102 0x41 x.core none (f.kind % 256 + 2 ^ 32 * (f.offset % 2 ^ 32)) u))
        (modDec x.id (keepDecoded a pic ⟨a.poc, px.1, px.2⟩) s)
      (decodes x a q pic = false → exec (.decPicture id pic) s = .next s) ∧
      (decodes x a q pic = true → decOutputs x a pic = false → exec (.decPicture id pic) s = .next told) ∧
      (decodes x a q pic = true → decOutputs x a pic = true → (slots ≤ used_ ∨ headHolds s x.id slot = true) →
        exec (.decPicture id pic) s = .next s) ∧
      (decodes x a q pic = true → decOutputs x a pic = true → used_ < slots → headHolds s x.id slot = false →
        exec (.decPicture id pic) s = .next (raise (198 + 12 * x.core) (unitEvent 0x4101 0x41 x.core none
          (x.count % 65536 + 2 ^ 16 * slot + 2 ^ 24 * b2n (!pic.lost.isEmpty) + 2 ^ 25 * b2n mismatch + 2 ^ 26 * b2n a.missing +
            2 ^ 32 * min 65535 pic.lost.length + 2 ^ 48 * (a.poc % 65536).toNat)
          (modDec x.id (fun y => { y with
            wr := (y.wr + 1) % 65536, count := y.count + 1, work := decWork x q r
            pics := Tbl.set y.pics slot ⟨y.count, decFormat q, q.width, q.height⟩ })
            (hbmWrite (fieldAt x.blk 8 8 + slot * fieldAt x.blk 0x14 4) (decodedBytes q px.1 px.2) told))))))

/-! ## Memory -/

/-- PORT_PANIC, MEM_ESCALATION, MEM_RECOVERED, RT_RESTORED, RT_BUFFER_OVERFLOW, MEM_HOT, MEM_HOT_CLEARED and MEM_ECC (10 R371,
R380-R385, R390): panic begins and ends by the fill; two ports in panic begin step 1, each ESC_STEP takes the next step, at 0 %
with a critical port the next port of the order is shed; recovery undoes it; a buffer that overflows unshed loses what is in
progress there (log 42); the sensors and ECC are told to F0. -/
def Obligations.MemoryEscalatesAndRecovers : Prop :=
  ∀ s : State, enginesClocked s = true → s.fabric.ports.length = 16 →
    (∀ k fillKib, k < 16 →
      let b := shedBlk s.cfg.active
      let x := rtPort s k
      let fill := min fillKib (portKib k)
      let d := 100 * if 4 ≤ k ∧ k ≤ 9 then portKib k - fill else fill
      let enters : Bool := fieldAt b 0x11 1 * portKib k ≤ d
      ∃ t, exec (.portPanic k fillKib) s = .next t ∧ (rtPort t k).fill = fill ∧
        (rtPort t k).panic = (enters || (x.panic && decide (d > (fieldAt b 0x11 1 - 6) * portKib k))) ∧
        (rtPort t k).critical = decide (fieldAt b 0x12 1 * portKib k ≤ d) ∧
        (enters = true → x.panic = false → (routeOf s (320 + k)).enable = true → isLeader s = true →
          isPending t (320 + k) = true) ∧
        (s.fabric.step = 0 → (t.fabric.step = 1 ↔ 2 ≤ (t.fabric.ports.filter (·.panic)).length) ∧
          (t.fabric.step = 1 → t.fabric.beStopped = true ∧ t.fabric.order = (b.take 16).map (·.toNat)))) ∧
    (anyPanic s = true →
      (s.fabric.step = 0 → ∃ t, exec .memEscalation s = .next t ∧ t.fabric = { s.fabric with
        step := 1, beStopped := true, since := s.tick, lastShed := none
        order := ((shedBlk s.cfg.active).take 16).map (·.toNat) }) ∧
      (s.fabric.step ≠ 0 → s.fabric.scale ≠ 0 →
        (25 < s.fabric.scale ∨ s.fabric.ports.any (·.critical) = false ∨ nextShed s = none →
          exec .memEscalation s = .next (raise 352 (sysEvent 0x5001 0x50 0
            (2 + 2 ^ 8 * (s.fabric.scale - 25) + 2 ^ 16 * panicMask s)
            (modFabric (fun f => { f with step := 2, scale := f.scale - 25 }) s)))) ∧
        (∀ k, s.fabric.scale ≤ 25 → s.fabric.ports.any (·.critical) = true → nextShed s = some k → k < 16 →
          ∃ t, exec .memEscalation s = .next t ∧ (rtPort t k).shed = true ∧ t.fabric.step = 3 ∧ t.fabric.scale = 0 ∧
            ∀ j, j ≠ k → rtPort t j = rtPort s j)) ∧
      (∀ k, s.fabric.step ≠ 0 → s.fabric.scale = 0 → nextShed s = some k → s.fabric.ports.any (·.critical) = true → k < 16 →
        ∃ t, exec .memEscalation s = .next t ∧ (rtPort t k).shed = true ∧ t.fabric.step = 3 ∧
          ∀ j, j ≠ k → rtPort t j = rtPort s j)) ∧
    (anyPanic s = false → s.fabric.step ≠ 0 → exec .memRecovered s = .next (raise 353 (sysEvent 0x5002 0x50 0
      (cdiv ((s.tick - s.fabric.since) * 16) 5000 % 2 ^ 32) { s with fabric := { s.fabric with
        step := 0, scale := 100, beStopped := false, order := [], lastShed := none
        ports := s.fabric.ports.map fun x => { x with due := x.shed } } }))) ∧
    (∀ k, k < 16 → (rtPort s k).due = true → ∃ t, exec (.rtRestored k) s = .next t ∧ t = { reported s t with
        fabric := t.fabric, tdm := t.tdm, freeCtr := t.freeCtr } ∧
      rtPort t k = { rtPort s k with shed := false, due := false } ∧ (∀ j, j ≠ k → rtPort t j = rtPort s j) ∧
      (k = 14 → ∀ x ∈ t.tdm, x.restart = true) ∧ (k ≠ 14 → t.tdm = s.tdm)) ∧
    ((∀ n, n < 2 → portShed s (10 + n) = false → exec (.rtBufferOverflow (10 + n)) s = .next
        (raise (528 + 8 * n + 6) (countAt n 14 1 s))) ∧
      (portShed s 14 = false → exec (.rtBufferOverflow 14) s = .next
        { s with tdm := s.tdm.map fun x => { x with restart := true } }) ∧
      (∀ n, n < 2 → portShed s (8 + n) = false → ∃ t, exec (.rtBufferOverflow (8 + n)) s = .next t ∧ t = { s with net := t.net } ∧
        ∀ f y, (netPort s n).flows[f]? = some y → flowSt t n f = { y with stopped := y.stopped || decide (y.sent < y.total) }) ∧
      (∀ f l, portShed s 1 = false → (sourced s.cfg.active 0).any (·.1 == 0) = false → s.pipes.getD 0 none = some 0 →
        (stream s 0).ready = f :: l → ∃ t, exec (.rtBufferOverflow 1) s = .next t ∧
          (stream t 0).ready = { f with unwritten := true } :: l) ∧
      (∀ h, h < 4 → portShed s (4 + h) = false → headReads s.cfg.active h = true →
        exec (.rtBufferOverflow (4 + h)) s = .next (fallBack h 2 s)) ∧
      (∀ k i f, (k = 0 ∧ i ∈ bridleStreams s.cfg.active) ∨ (k = 3 ∧ i ∈ (sourced s.cfg.active 2).map (·.1)) →
        portShed s k = false → (stream s i).frames = [f] → f.decided = false → bit f.flags 0 = false →
        ∃ t g, exec (.rtBufferOverflow k) s = .next t ∧ (stream t i).frames = [g] ∧ g.serial = f.serial ∧
          g.flags = f.flags ||| vOverrun ||| vRetracted)) ∧
    (∀ n, n < 2 → (s.fabric.hot.getD n false = false → exec (.memHot n) s = .next (raise (354 + n) (sysEvent 0x5005 0x50 0 n
        { s with fabric := { s.fabric with hot := s.fabric.hot.set n true } }))) ∧
      exec (.memHotCleared n) s = .next { s with fabric := { s.fabric with hot := s.fabric.hot.set n false } }) ∧
    (∀ pc row corrected, pc < 64 → exec (.memEcc pc row corrected) s = .next
      (raise ((if corrected then 356 else 358) + pc / 32)
        (sysEvent 0x5006 0x50 0 (pc + 2 ^ 16 * (row % 2 ^ 14) + if corrected then 0 else 2 ^ 31) s)))

/-- The hash is one to one (10 R366, R367): with masks that set no bit below 20, an address hashed twice is the address, so two
addresses never meet at one place; the row and the stack ID of an address stay. `MEM.HASH` refuses any other mask. -/
def Obligations.HashKeepsAddressesApart : Prop :=
  (∀ (masks : List Nat) (a : Nat), masks.length = 10 → (∀ m ∈ masks, m % 2 ^ 20 = 0) →
    hashAddr masks (hashAddr masks a) = a ∧ hashAddr masks a / 2 ^ 20 = a / 2 ^ 20 ∧
    (∀ x, location masks a = some x → x.row = a / 2 ^ 20 % 2 ^ 14 ∧ x.stackId = a / 2 ^ 34) ∧
    ∀ b, location masks a ≠ none → location masks a = location masks b → a % 2 ^ 8 = b % 2 ^ 8 → a = b) ∧
  ∀ (r : CmdRef) (s : State) (c : Cmd) (k : Nat), startable s r 0x5001 = some c → k < 10 →
    bit (fieldAt c.region 0x50 1) 0 = false →
    (fieldAt c.region (8 * k) 8 % 2 ^ 20 ≠ 0 ∨ 2 ^ 36 ≤ fieldAt c.region (8 * k) 8) →
    ∃ rep, rep.status ≠ 0 ∧ exec (.memHash r) s = .next (complete c rep s)

/-! ## Power, heat, tests -/

/-- PWR.THERMAL_MODEL, PWR.READ and the rows of 17: meters fill the window and a mean over the cap enters cap throttle; a droop
beyond T enters a stage, counted from stage 0, and slows the clock domains that its power domain stretches: each runs at the
deepest stage of its domains, and a snub of domain 1 slows all three pipes (17 R563); the model's nodes take their next
temperatures, and 110 °C starts a stop, which ends in STOPPED with HBM in self-refresh once the recorder has closed; 118 °C at a
diode is a hard trip. -/
def Obligations.PowerAndHeatFollowed : Prop :=
  (∀ (r : CmdRef) (s : State) (c : Cmd),
    (startable s r 0xA002 = some c → checkPwrThermalModel s c = none → exec (.pwrThermalModel r) s = .next (complete c {}
      { s with thm := { s.thm with
        tAmb := (signed 16 (fieldAt c.region 0 2) : Rat) / 256
        nodes := if bit (fieldAt c.region 2 1) 0 then List.replicate 12 ((s.thm.diodes.getD 0 0 + s.thm.diodes.getD 1 0) / 2)
          else s.thm.nodes } })) ∧
    (startable s r 0xA003 = some c → checkPwrRead s c = none → exec (.pwrRead r) s = .next (complete c { data := powerBytes s }
      (if bit (fieldAt c.region 0 1) 0 then
        { s with pwr := { s.pwr with droops := s.pwr.droops.map fun d => { d with count := 0 } } } else s)))) ∧
  (∀ s : State, aonOn s = true →
    (∀ mw : List Nat, mw.length = 24 →
      let w := (mw :: s.pwr.window).take (windowSamples s)
      let above := capMw s * w.length < (w.map List.sum).sum
      ∃ t, exec (.powerMeterSample mw) s = .next t ∧ t.pwr.meters = mw ∧ t.pwr.window = w ∧
        t.pwr.throttle = (s.pwr.throttle || decide above) ∧ t.pwr.droops = s.pwr.droops ∧
        (s.pwr.throttle = true ∨ ¬ above → t = { s with pwr := t.pwr })) ∧
    (s.pwr.throttle = true → windowSamples s ≤ s.pwr.below → exec .capThrottleLeave s =
      .next (tellF0 621 0xA001 (meanPower s % 2 ^ 32) { s with pwr := { s.pwr with throttle := false } })) ∧
    (∀ n v, n < 24 → s.pwr.droops.length = 24 →
      let d := domain s n
      let limit := snubThreshold s.cfg.active s.sys.profile
      ∃ t, exec (.droopSample n v) s = .next t ∧ t = { reported s t with pwr := t.pwr } ∧ (domain t n).v = v ∧ (∀ k, k ≠ n → domain t k = domain s k) ∧
        (10 ≤ n → (domain t n).stage = d.stage) ∧
        (n < 10 → (domain t n).stage = if 2 * limit < v then 2 else if limit < v then max 1 d.stage else d.stage) ∧
        ((n < 10 ∧ d.stage = 0 ∧ limit < v) ∨ (10 ≤ n ∧ d.v ≤ limit ∧ limit < v) →
          (domain t n).count = min 0xFFFFFFFF (d.count + 1)) ∧
        (v ≤ limit → (domain t n).count = d.count ∧ t = { s with pwr := t.pwr }) ∧
        (n < 10 →
          (∀ d, (∀ k ∈ stretchedBy d, (domain t k).stage ≤ clockStage t d) ∧
            (∃ k ∈ stretchedBy d, (domain t k).stage = clockStage t d) ∧
            (n ∉ stretchedBy d → clockStage t d = clockStage s d)) ∧
          (limit < v → ∀ d, n ∈ stretchedBy d → 1 ≤ clockStage t d) ∧
          (2 * limit < v → ∀ d, n ∈ stretchedBy d → 2 ≤ clockStage t d) ∧
          (n = 1 → limit < v → 1 ≤ clockStage t .pipe))) ∧
    (∀ n,
      let d := domain s n
      let limit := snubThreshold s.cfg.active s.sys.profile
      (d.stage = 2 → d.v + snubHyst s.cfg.active < 2 * limit → exec (.snubStageExit n) s =
        .next (modDomain n (fun x => { x with stage := 1 }) s)) ∧
      (d.stage = 1 → d.v + snubHyst s.cfg.active < limit → exec (.snubStageExit n) s =
        .next (modDomain n (fun x => { x with stage := 0 }) s))) ∧
    (let u : State := { s with thm := { s.thm with nodes := (List.range 12).map (nodeStep s) } }
      ∃ t, exec .thermalModelUpdate s = .next t ∧
        t = { reported s t with thm := t.thm, sys := t.sys, heads := t.heads, recorder := t.recorder, freeCtr := t.freeCtr } ∧
        t.thm.nodes = u.thm.nodes ∧ t.thm.diodes = s.thm.diodes ∧
        (110 ≤ usedTj u → groomOn s = true → s.thm.stop = 0 → t.thm.stop = 1 ∧ t.thm.stopAt = now s ∧ t.thm.warn = true) ∧
        (usedTj u < 97 → t.thm.warn = false ∧ t.thm.hot = false ∧ (s.thm.stop ≠ 2 → t.thm.stop = s.thm.stop))) ∧
    (∃ t, exec .modelDriftCheck s = .next t ∧
      t = { reported s t with thm := t.thm, sys := t.sys, heads := t.heads, recorder := t.recorder, freeCtr := t.freeCtr } ∧
      t.thm.drift =
      if s.thm.drift then decide (3 < diodeGap s 0) || decide (3 < diodeGap s 1)
      else decide (5 < diodeGap s 0) || decide (5 < diodeGap s 1)) ∧
    (∀ (k : Nat) (q : Int), k < 2 → s.thm.diodes.length = 2 → ∃ t, exec (.diodeRead k q) s = .next t ∧
      t.thm.diodes = s.thm.diodes.set k ((q : Rat) / 4) ∧
      (118 ≤ (q : Rat) / 4 → t.sys.phase = .tripped ∧ t.sys.ready = false ∧ t.sys.linkUp = false ∧ t.thm.tripLow = true ∧
        t.out = s.out))) ∧
  ∀ s : State, groomOn s = true →
    exec .pllLostLock s = .next (raise 624 s) ∧
    (∀ which, which < 3 → exec (.referenceClockMissing which) s = .next (raise 625 s)) ∧
    (∀ e, enginesClocked s = true → e < 2 → exec (.ppsPulse e) s = .next { s with out := s.out ++ [.pps e] }) ∧
    (s.thm.stop = 1 → s.recorder.state = 0 → ∃ t, exec .thmStopComplete s = .next t ∧ t.thm.stop = 2 ∧
      t.sys.selfRefresh = true ∧ t.sys.linkUp = false ∧ (∀ f, (fnInt t f).msixEnable = false) ∧
      (s.sys.entryDue = false → t.sys.phase = .stopped) ∧ (s.sys.entryDue = true → t.sys.phase = .retained)) ∧
    (s.thm.stop = 1 → s.recorder.state = 1 → s.recorder.begun = true → ∃ t, exec .thmStopComplete s = .next t ∧
      t = drain { s with recorder := { s.recorder with thermal := true } } ∧ t.sys.phase = s.sys.phase)

/-- TEST.MUCKOUT, TEST.PRBS, TEST.MARGIN and the rows of Muck-out (15 R521-R526; 18 R599-R607): settings, results and a new
cycle; a lane's generator and checker; a reading that a command waits for; a slice that differs runs again, and is marked when
it differs twice; a spare row that fails is kept; a lane's margins are compared with the minimum. -/
def Obligations.TestsTakeEffect : Prop :=
  (∀ (r : CmdRef) (seen : PrbsSeen) (s : State) (c : Cmd),
    let b := c.region
    let l := fieldAt b 0 1
    (startable s r 0xB001 = some c → checkTestMuckout s c = none →
      (fieldAt b 0 1 = 0 → exec (.testMuckout r) s = .next (complete c {} { s with mck := { s.mck with
        flags := fieldAt b 1 1 % 8, guardUs := fieldAt b 2 2, scrubMbps := fieldAt b 4 2, dwell := fieldAt b 6 1
        minWidth := fieldAt b 7 1, minHeight := fieldAt b 8 1 } })) ∧
      (fieldAt b 0 1 = 1 → exec (.testMuckout r) s = .next (complete c { data := muckoutResults s }
        (if bit (fieldAt b 1 1) 3 then { s with mck := { s.mck with
          cycles := 0, ecc := 0, pipes := s.mck.pipes.map fun x => { x with skipped := 0 } } } else s))) ∧
      (fieldAt b 0 1 = 2 → ∃ u, exec (.testMuckout r) s = .next (complete c {} u) ∧ u = { s with mck := u.mck } ∧
        u.mck.rows = [] ∧ u.mck.lanes = [] ∧ u.mck.cycles = s.mck.cycles ∧
        ∀ x ∈ u.mck.pipes, x.next = 0 ∧ x.cur = none ∧ x.covered = 0)) ∧
    (startable s r 0xB002 = some c → prbsCheck s c = none → l < s.lanes.length →
      let x := lane s l
      ∃ u rep, exec (.testPrbs r seen) s = .next (complete c rep u) ∧ rep.status = 0 ∧ u = { s with lanes := u.lanes } ∧
        (∀ k, k ≠ l → lane u k = lane s k) ∧
        (fieldAt b 1 1 < 4 → (lane u l).gen = (fieldAt b 1 1 == 1 || fieldAt b 1 1 == 3) ∧
          (lane u l).chk = (fieldAt b 1 1 == 2 || fieldAt b 1 1 == 3) ∧ (lane u l).pattern = fieldAt b 2 1 ∧
          (lane u l).loopback = if fieldAt b 1 1 = 0 then 0 else fieldAt b 3 1) ∧
        (x.chk = true → x.prbsLock = true → rep.result0 % 2 ^ 32 = min 0xFFFFFFFF (x.errors + seen.errors) ∧
          rep.result1 = min (2 ^ 48 - 1) (x.bits + seen.bits)) ∧
        (bit (fieldAt b 4 1) 1 = true → (lane u l).errors = 0 ∧ (lane u l).bits = 0)) ∧
    (startable s r 0xB003 = some c → marginCheck s c = none →
      (fieldAt b 1 1 = 0 → exec (.testMargin r) s = .next { s with
        cmds := s.cmds.map fun y => if y.same c then { y with waiting := true } else y
        lanes := s.lanes.modify l fun x => { x with reading := some ⟨c.fn, c.seq⟩ } }) ∧
      (fieldAt b 1 1 = 1 → exec (.testMargin r) s = .next (complete c {} { s with
        lanes := s.lanes.modify l fun x => { x with override := some ((b.drop 8).take 12) } })) ∧
      (fieldAt b 1 1 = 2 → exec (.testMargin r) s = .next (complete c {} { s with
        lanes := s.lanes.modify l fun x => { x with override := none } })))) ∧
  ∀ s : State, enginesClocked s = true →
    (∀ p k again good, (mckPipe s p).cur = some (k, again) → ∃ t, exec (.muckoutSliceDone p good) s = .next t ∧
      t = { reported s t with mck := t.mck } ∧
      (mckPipe t p).failed =
        (if good then (if bit (mckPipe s p).failed k then (mckPipe s p).failed - 2 ^ k else (mckPipe s p).failed)
        else if again then (mckPipe s p).failed ||| 2 ^ k else (mckPipe s p).failed) ∧
      (∀ q, q ≠ p → (mckPipe t q).failed = (mckPipe s q).failed) ∧
      (good = false → again = true → (routeOf s 636).enable = true → isLeader s = true → isPending t 636 = true)) ∧
    (∀ pc bank row res, mckRuns s 1 = true → pc < 64 → bank < 48 → row < 8 →
      ∃ t, exec (.spareRowScrub pc bank row res) s = .next t ∧ t = { reported s t with mck := t.mck } ∧
        t.mck.ecc = (match res with
          | .corrected n => min 0xFFFFFFFF (s.mck.ecc + n)
          | _ => s.mck.ecc) ∧
        t.mck.badRows = (if res = .bad then Tbl.set s.mck.badRows (rowKey pc bank row) true else s.mck.badRows)) ∧
    (∀ l m, mckRuns s 2 = true → l ∈ liveLanes s → Tbl.find? s.mck.lanes l = none → (lane s l).reading = none →
      let low := decide (m.left + m.right < s.mck.minWidth) || decide (m.top + m.bottom < s.mck.minHeight)
      ∃ t, exec (.laneMarginReading l m) s = .next t ∧ t = { reported s t with mck := t.mck, lanes := t.lanes } ∧
        lane t l = { lane s l with margin := marginWord m, low := low } ∧ (∀ k, k ≠ l → lane t k = lane s k) ∧
        (low ≠ (lane s l).low → (routeOf s 638).enable = true → isLeader s = true → isPending t 638 = true)) ∧
    (∀ l m q c, groomOn s = true → (lane s l).reading = some q → findCmd s q = some c →
      exec (.testMarginDone l m) s = .next (complete c { result0 := marginWord m }
        { s with lanes := s.lanes.modify l fun x => { x with reading := none, margin := marginWord m } }))

/-! ## Tether and array -/

/-- TTH_PACKET, TTH_ACK_TIMEOUT, HALO_ROW, TTH_LINK_DOWN and TTH_LINK_UP on a wired port (14 R477-R480, R486, R487): a
packet that fails its HCRC or CRC, or is of another length than its header gives, is discarded and told, and counted where
its type is not retransmitted; a retransmitted class is taken in order and acknowledged, a gap changes nothing and a
repeated packet is acknowledged again; an acknowledgement shortens the window; a timeout sends the window's first 64 packets
again; a halo row joins its frame and marks it CRC_ERR where its CRC failed; a link that fails takes its lanes out of lock,
and one that comes up puts them in lock. -/
def Obligations.TetherLinksFollowed : Prop :=
  ∀ (s : State) (p : Nat), groomOn s = true → tthWired s p = true → p < s.tth.ports.length →
    ((tthPort s p).up = true →
      (∀ k : TthPacket,
        let type := fieldAt k.hdr 0 1
        let route := fieldAt k.hdr 1 1
        let seq := fieldAt k.hdr 2 2
        let lost := raise (569 + 8 * p) (if type = 3 ∨ 2 ≤ typeClass type then s
          else modPort p (fun x => { x with discarded := x.discarded + 1 }) s)
        let whole := crc8 (k.hdr.take 7) = fieldAt k.hdr 7 1
        let taken := whole ∧ type = bodyType k.body ∧ (s.sys.profile ≠ 3 ∨ typeClass type = 0 ∨ typeClass type = 2)
        (¬whole → exec (.tthPacket p k) s = .next lost) ∧
        (taken → (k.crcOk = false ∨ lengthOk k = false) → typeClass type ≠ 1 → exec (.tthPacket p k) s = .next lost) ∧
        (taken → k.crcOk = true → lengthOk k = true → tthKept (typeClass type) k.body = true → 2 ≤ typeClass type →
          let want := Tbl.get 0 (tthPort s p).rxSeq (typeClass type)
          (seq ≠ want → later want seq = false → exec (.tthPacket p k) s = .next s) ∧
          (seq ≠ want → later want seq = true → ∃ o, exec (.tthPacket p k) s = .next { s with out := s.out ++ o } ∧
            (tthOpen s p 2 = true → ∃ n d, o = [tthOut p 2 n (.ack (typeClass type) ((want + 65535) % 65536)) d])) ∧
          (∀ f n, seq = want → k.body = .lostEvents f n → isLeader s = true → f < s.stalls.length → bit route 4 = false →
            route / 4 % 4 = s.sys.device → ∃ t, exec (.tthPacket p k) s = .next t ∧
              (stall t f).memberLost = (stall s f).memberLost + n ∧
              Tbl.get 0 (tthPort t p).rxSeq (typeClass type) = (want + 1) % 65536 ∧
              t = { s with stalls := t.stalls, tth := t.tth, out := t.out })) ∧
        (∀ cls q, taken → k.crcOk = true → lengthOk k = true → k.body = .ack cls q →
          let w := Tbl.get [] (tthPort s p).window cls
          ∃ t, exec (.tthPacket p k) s = .next t ∧ t = { s with tth := t.tth, out := t.out } ∧
            Tbl.get [] (tthPort t p).window cls = if cls = 0 then w.filter (·.1 != q)
              else if w.any (·.1 == q) then (w.dropWhile (·.1 != q)).drop 1 else w)) ∧
      (∀ cls, tthOpen s p cls = true → Tbl.get [] (tthPort s p).window cls ≠ [] → exec (.tthAckTimeout p cls) s =
        .next (raise (570 + 8 * p) { s with
          out := s.out ++ ((Tbl.get [] (tthPort s p).window cls).take 64).map fun e => tthOut p cls e.1 e.2.1 e.2.2 })) ∧
      (∀ (h : HaloRow) (f : Frame), enginesClocked s = true → s.sys.profile ≠ 3 → portShed s (12 + p) = false →
        striped s.cfg.active 0 = true →
        let put (t : Tbl (List HaloRow)) : Tbl (List HaloRow) := Tbl.set t p (Tbl.get [] t p ++ [h])
        (frameOf s 0 h.serial = some f → h.crcOk = true → exec (.haloRow p h) s =
          .next (releaseRows (modFrame 0 h.serial (fun g => { g with halo := put g.halo }) s))) ∧
        (frameOf s 0 h.serial = none → later (stream s 0).nextSerial h.serial = false → h.crcOk = true →
          exec (.haloRow p h) s = .next { s with tth := { s.tth with early := put s.tth.early } }) ∧
        (frameOf (raise (571 + 8 * p) s) 0 h.serial = some f → h.crcOk = false → bit f.flags 0 = false →
          exec (.haloRow p h) s = .next (releaseRows (modFrame 0 h.serial
            (fun g => { g with halo := put g.halo, flags := g.flags ||| vCrc }) (raise (571 + 8 * p) s))))) ∧
      (∀ lanes, ∃ u, exec (.tthLinkDown p lanes) s = .next (noteReach (if striped s.cfg.active 0 then
          (if s.tth.retractOnLink then retractAll 0 vOverrun u else releaseRows u) else u)) ∧
        (tthPort u p).up = false ∧
        (∀ l, l < 8 → 32 + 8 * p + l < s.lanes.length → bit lanes l = true → (lane u (32 + 8 * p + l)).locked = false ∧
          (lane u (32 + 8 * p + l)).downs = min 255 ((lane s (32 + 8 * p + l)).downs + 1)) ∧
        (∀ l, l < 8 → bit lanes l = false → lane u (32 + 8 * p + l) = lane s (32 + 8 * p + l)) ∧
        ((routeOf s (568 + 8 * p)).enable = true → isLeader s = true → isPending u (568 + 8 * p) = true))) ∧
    ((tthPort s p).up = false → (∀ l, l < 8 → forcedOff s (32 + 8 * p + l) = false) → ∃ u, exec (.tthLinkUp p) s = .next (noteReach (if p = 0 then deliverBacklog u else u)) ∧
      (tthPort u p).up = true ∧
      (∀ l, l < 8 → 32 + 8 * p + l < s.lanes.length → (lane u (32 + 8 * p + l)).locked = true) ∧
      ((routeOf s (568 + 8 * p)).enable = true → isLeader s = true → isPending u (568 + 8 * p) = true))

/-- TTH.DIGESTS, TTH.HOLD_POLICY, RELAY_TIMEOUT, PREPARE_DEADLINE, ARRAY_COMMIT_TIMEOUT, IDLE_CONTROL_BLOCK, TIME_PACKET_SEND,
HOP_DELAY_MEASURE and TIME_LOCK_LOSS (14 R481, R494, R496, R497, R499, R500, R502): the digests are answered; the policy is
set; a command sent on to a member that timed out completes with `ST_MEMBER_UNREACHABLE`; a commit whose answers are not
complete returns its image and completes with its status, one that has applied completes without the devices that are missing;
a member's block counts as arrived and is broadcast; the leader's S and F − S leave on T1; a member that loses array time
leaves its lock. -/
def Obligations.ArrayCommandsAndTimeFollowed : Prop :=
  (∀ (r : CmdRef) (s : State) (c : Cmd),
    (startable s r 0x8003 = some c → checkTthDigests s c = none → exec (.tthDigests r) s = .next (complete c
      { result0 := s.tth.diverged % 16 + 16 * b2n (s.tth.held && s.tth.hold)
        data := digestBytes s 0 ++ digestBytes s 1 ++ digestBytes s 2 ++ digestBytes s 3 } s)) ∧
    (startable s r 0x8004 = some c → checkTthHoldPolicy s c = none → s.sys.arraySize ≤ 1 →
      exec (.tthHoldPolicy r) s = .next (complete c {} { s with tth := { s.tth with
        hold := bit (fieldAt c.region 0 1) 0, retractOnLink := bit (fieldAt c.region 0 1) 1, relayMs := fieldAt c.region 2 2 } })) ∧
    (startable s r 0x8004 = some c → checkTthHoldPolicy s c = none → ∃ u, exec (.tthHoldPolicy r) s = .next (complete c {} u) ∧
      u = { s with tth := u.tth, out := u.out } ∧ u.tth.hold = bit (fieldAt c.region 0 1) 0 ∧
      u.tth.retractOnLink = bit (fieldAt c.region 0 1) 1 ∧ u.tth.relayMs = fieldAt c.region 2 2)) ∧
  (∀ (s : State) (r : CmdRef) (x : Sched), groomOn s = true → isLeader s = true →
    (∀ c, s.cmds.find? (fun y => y.is r && y.relayed && y.sent) = some c → exec (.relayTimeout r) s =
      .next (raise 587 (completeWith c c.bind true { status := 0x80, result1 := 1 }
        { s with tth := { s.tth with timedOut := s.tth.timedOut ++ [(r, c.device)] } }))) ∧
    (findSched s r = some x → arrayWide s x = true → x.go = true → exec (.prepareDeadline r) s = .next s) ∧
    (findSched s r = some x → arrayWide s x = true → x.go = false → ∀ c u,
      u = returnImage x { s with cfg := { s.cfg with sched := s.cfg.sched.filter (·.ref != r) } } → schedCmd u x = some c →
      exec (.prepareDeadline r) s = .next (complete c { status := 0x61 } u)) ∧
    (∀ serial epoch, findSched s r = some x → x.applied = some (serial, epoch) → ∀ c u,
      u = { s with cfg := { s.cfg with sched := s.cfg.sched.filter (·.ref != r) } } → schedCmd u x = some c →
      exec (.arrayCommitTimeout r) s = .next (complete c
        (okReply (epoch + 2 ^ 32 * x.differed + 2 ^ 36 * ((unconfirmed s serial).map (2 ^ ·)).sum) x.digest) u))) ∧
  ∀ s : State, groomOn s = true →
    (isLeader s = false → 1 < s.sys.arraySize → exec .idleControlBlock s = .next (tthBroadcast 0 (.idle (ownBlock s))
      { s with tth := { s.tth with blocks := Tbl.set s.tth.blocks s.sys.device (ownBlock s, s.tick) } })) ∧
    (isLeader s = true → 1 < s.sys.arraySize → (tthPort s 1).up = true → enginesClocked s = true →
      ∃ t, exec .timePacketSend s = .next (emit
        (tthOut 1 0 (Tbl.get 0 (tthPort s 1).txSeq 0) (.time (selectedUnits s) (fUnits s.time - selectedUnits s)) (s.sys.device + 16)) { s with tth := t })) ∧
    (isLeader s = false → enginesClocked s = true →
      (∀ d, (tthPort s 0).up = true → exec (.hopDelayMeasure d) s = .next { s with tth := { s.tth with hopDelay := d } }) ∧
      (s.tth.locked = true → exec .timeLockLoss s = .next (raise 589 (tthEvent 0x8006 s.sys.device
        { s with tth := { s.tth with locked := false, goodTimes := 0 } }))))
end

