-- ==== Sys2Proof/Laws/Tbl.lean ====
section
/-! SUPPORT. Laws of the sparse maps and of the byte memories: reads after writes, and that every memory operation keeps the
canonical form. -/

namespace Sys2Proof.Machine

/-! ## Keys -/

theorem Tbl.above_mono {α : Type} {a b : Nat} (h : a ≤ b) : ∀ {t : Tbl α}, Tbl.above b t = true → Tbl.above a t = true
  | [], _ => rfl
  | (k, _) :: _, ht => by
    simp only [Tbl.above, Bool.and_eq_true, decide_eq_true_eq] at ht ⊢
    exact ⟨le_trans h ht.1, ht.2⟩

theorem Tbl.above_set {α : Type} {v : α} : ∀ {t : Tbl α} {a n : Nat}, a ≤ n → Tbl.above a t = true →
    Tbl.above a (Tbl.set t n v) = true
  | [], _, _, h, _ => by simp [Tbl.set, Tbl.above, h]
  | (k, w) :: t, a, n, h, ht => by
    simp only [Tbl.above, Bool.and_eq_true, decide_eq_true_eq] at ht
    unfold Tbl.set
    split
    · simp only [Tbl.above, Bool.and_eq_true, decide_eq_true_eq]
      exact ⟨h, by omega, ht.2⟩
    · split
      · next e => subst e; simp only [Tbl.above, Bool.and_eq_true, decide_eq_true_eq]; exact ⟨h, ht.2⟩
      · simp only [Tbl.above, Bool.and_eq_true, decide_eq_true_eq]
        exact ⟨ht.1, Tbl.above_set (by omega) ht.2⟩

theorem Tbl.above_erase {α : Type} : ∀ {t : Tbl α} {a n : Nat}, Tbl.above a t = true → Tbl.above a (Tbl.erase t n) = true
  | [], _, _, _ => rfl
  | (k, w) :: t, a, n, ht => by
    simp only [Tbl.above, Bool.and_eq_true, decide_eq_true_eq] at ht
    unfold Tbl.erase
    split
    · exact Tbl.above_mono (by omega) ht.2
    · simp only [Tbl.above, Bool.and_eq_true, decide_eq_true_eq]
      exact ⟨ht.1, Tbl.above_erase ht.2⟩

theorem Tbl.above_filter {α : Type} {p : Nat × α → Bool} : ∀ {t : Tbl α} {a : Nat}, Tbl.above a t = true →
    Tbl.above a (t.filter p) = true
  | [], _, _ => rfl
  | (k, w) :: t, a, ht => by
    simp only [Tbl.above, Bool.and_eq_true, decide_eq_true_eq] at ht
    rw [List.filter_cons]
    split
    · simp only [Tbl.above, Bool.and_eq_true, decide_eq_true_eq]
      exact ⟨ht.1, Tbl.above_filter ht.2⟩
    · exact Tbl.above_mono (by omega) (Tbl.above_filter ht.2)

theorem Tbl.find?_lt {α : Type} : ∀ {t : Tbl α} {a n : Nat}, Tbl.above a t = true → n < a → Tbl.find? t n = none
  | [], _, _, _, _ => rfl
  | (k, w) :: t, a, n, ht, h => by
    simp only [Tbl.above, Bool.and_eq_true, decide_eq_true_eq] at ht
    unfold Tbl.find?
    rw [if_neg (by omega)]
    exact Tbl.find?_lt ht.2 (by omega)

/-! ## Reads after writes -/

theorem Tbl.find?_set {α : Type} {v : α} {n : Nat} : ∀ {t : Tbl α}, Tbl.find? (Tbl.set t n v) n = some v
  | [] => by simp [Tbl.set, Tbl.find?]
  | (k, w) :: t => by
    unfold Tbl.set
    split
    · simp [Tbl.find?]
    · split
      · simp [Tbl.find?]
      · simp only [Tbl.find?]
        rw [if_neg (by omega)]
        exact Tbl.find?_set

theorem Tbl.find?_set_ne {α : Type} {v : α} {n m : Nat} (h : m ≠ n) : ∀ {t : Tbl α},
    Tbl.find? (Tbl.set t n v) m = Tbl.find? t m
  | [] => by simp [Tbl.set, Tbl.find?, h.symm]
  | (k, w) :: t => by
    unfold Tbl.set
    split
    · simp [Tbl.find?, h.symm]
    · split
      · next e => simp [Tbl.find?, h.symm, ← e]
      · simp only [Tbl.find?]
        split
        · rfl
        · exact Tbl.find?_set_ne h

theorem Tbl.find?_erase {α : Type} {n : Nat} : ∀ {t : Tbl α} {a : Nat}, Tbl.above a t = true →
    Tbl.find? (Tbl.erase t n) n = none
  | [], _, _ => rfl
  | (k, w) :: t, a, ht => by
    simp only [Tbl.above, Bool.and_eq_true, decide_eq_true_eq] at ht
    unfold Tbl.erase
    split
    · next e => subst e; exact Tbl.find?_lt ht.2 (by omega)
    · simp only [Tbl.find?]
      rw [if_neg (by assumption)]
      exact Tbl.find?_erase ht.2

theorem Tbl.find?_erase_ne {α : Type} {n m : Nat} (h : m ≠ n) : ∀ {t : Tbl α},
    Tbl.find? (Tbl.erase t n) m = Tbl.find? t m
  | [] => rfl
  | (k, w) :: t => by
    unfold Tbl.erase
    split
    · next e => simp only [Tbl.find?]; rw [if_neg (by omega)]
    · simp only [Tbl.find?]
      split
      · rfl
      · exact Tbl.find?_erase_ne h

@[simp] theorem Tbl.get_set {α : Type} {d v : α} {t : Tbl α} {n : Nat} : Tbl.get d (Tbl.set t n v) n = v := by
  simp [Tbl.get, Tbl.find?_set]

theorem Tbl.get_set_ne {α : Type} {d v : α} {t : Tbl α} {n m : Nat} (h : m ≠ n) :
    Tbl.get d (Tbl.set t n v) m = Tbl.get d t m := by
  simp [Tbl.get, Tbl.find?_set_ne h]

/-- A listed value, or the default where it is not listed, reads back. -/
theorem Tbl.get_put {α : Type} [DecidableEq α] {d v : α} {t : Tbl α} {n : Nat} (h : Tbl.wf t = true) :
    Tbl.get d (Tbl.put d t n v) n = v := by
  unfold Tbl.put
  split
  · next e => simp [Tbl.get, Tbl.find?_erase h, e]
  · exact Tbl.get_set

theorem Tbl.get_put_ne {α : Type} [DecidableEq α] {d v : α} {t : Tbl α} {n m : Nat} (h : m ≠ n) :
    Tbl.get d (Tbl.put d t n v) m = Tbl.get d t m := by
  unfold Tbl.put
  split
  · simp [Tbl.get, Tbl.find?_erase_ne h]
  · exact Tbl.get_set_ne h

theorem Tbl.wf_set {α : Type} {v : α} {t : Tbl α} {n : Nat} (h : Tbl.wf t = true) : Tbl.wf (Tbl.set t n v) = true :=
  Tbl.above_set (Nat.zero_le n) h

theorem Tbl.wf_erase {α : Type} {t : Tbl α} {n : Nat} (h : Tbl.wf t = true) : Tbl.wf (Tbl.erase t n) = true :=
  Tbl.above_erase h

theorem Tbl.wf_put {α : Type} [DecidableEq α] {d v : α} {t : Tbl α} {n : Nat} (h : Tbl.wf t = true) :
    Tbl.wf (Tbl.put d t n v) = true := by
  unfold Tbl.put
  split
  · exact Tbl.wf_erase h
  · exact Tbl.wf_set h

theorem Tbl.mem_set {α : Type} {v : α} {n : Nat} {e : Nat × α} : ∀ {t : Tbl α}, e ∈ Tbl.set t n v → e = (n, v) ∨ e ∈ t
  | [], h => by simpa [Tbl.set] using h
  | (k, w) :: t, h => by
    unfold Tbl.set at h
    split at h
    · simpa using h
    · split at h
      · simp only [List.mem_cons] at h ⊢; tauto
      · simp only [List.mem_cons] at h ⊢
        rcases h with h | h
        · tauto
        · rcases Tbl.mem_set h with h | h <;> tauto

theorem Tbl.mem_erase {α : Type} {n : Nat} {e : Nat × α} : ∀ {t : Tbl α}, e ∈ Tbl.erase t n → e ∈ t
  | [], h => h
  | (k, w) :: t, h => by
    unfold Tbl.erase at h
    split at h
    · exact List.mem_cons_of_mem _ h
    · simp only [List.mem_cons] at h ⊢
      rcases h with h | h
      · exact Or.inl h
      · exact Or.inr (Tbl.mem_erase h)

/-! ## Byte memories -/

/-- A write keeps the canonical form. -/
theorem Mem.wf_write {m : Mem} {a : Nat} {b : Byte} (h : Mem.wf m = true) : Mem.wf (Mem.write m a b) = true := by
  simp only [Mem.wf, Bool.and_eq_true, List.all_eq_true] at h ⊢
  refine ⟨Tbl.wf_put h.1, fun c hc => ?_⟩
  unfold Mem.write Tbl.put at hc
  split at hc
  · exact h.2 c (Tbl.mem_erase hc)
  · next hb =>
    rcases Tbl.mem_set hc with e | e
    · subst e; simpa using hb
    · exact h.2 c e

theorem Mem.wf_writes : ∀ {bs : List Byte} {m : Mem} {a : Nat}, Mem.wf m = true → Mem.wf (Mem.writes m a bs) = true
  | [], _, _, h => h
  | _ :: bs, _, _, h => by
    simp only [Mem.writes]
    exact Mem.wf_writes (bs := bs) (Mem.wf_write h)

theorem Mem.wf_clear {m : Mem} {a n : Nat} (h : Mem.wf m = true) : Mem.wf (Mem.clear m a n) = true := by
  simp only [Mem.wf, Bool.and_eq_true, List.all_eq_true] at h ⊢
  exact ⟨Tbl.above_filter h.1, fun c hc => h.2 c (List.mem_of_mem_filter hc)⟩

/-- The byte written reads back. -/
theorem Mem.byte_write {m : Mem} {a : Nat} {b : Byte} (h : Mem.wf m = true) : Mem.byte (Mem.write m a b) a = b := by
  simp only [Mem.wf, Bool.and_eq_true] at h
  exact Tbl.get_put h.1

/-- Every other byte reads as before. -/
theorem Mem.byte_write_ne {m : Mem} {a c : Nat} {b : Byte} (h : c ≠ a) : Mem.byte (Mem.write m a b) c = Mem.byte m c :=
  Tbl.get_put_ne h

/-- Bytes outside the run that is written read as before. -/
theorem Mem.byte_writes_out : ∀ {bs : List Byte} {m : Mem} {a c : Nat}, (c < a ∨ a + bs.length ≤ c) →
    Mem.byte (Mem.writes m a bs) c = Mem.byte m c
  | [], _, _, _, _ => rfl
  | b :: bs, m, a, c, h => by
    simp only [List.length_cons] at h
    simp only [Mem.writes]
    rw [Mem.byte_writes_out (by omega), Mem.byte_write_ne (by omega)]

/-- A run of bytes that is written reads back. -/
theorem Mem.read_writes : ∀ {bs : List Byte} {m : Mem} {a : Nat}, Mem.wf m = true →
    Mem.read (Mem.writes m a bs) a bs.length = bs
  | [], _, _, _ => rfl
  | b :: bs, m, a, h => by
    simp only [Mem.writes, List.length_cons, Mem.read]
    rw [Mem.byte_writes_out (by omega), Mem.byte_write h, Mem.read_writes (Mem.wf_write h)]

/-- Where every address lies below a bound, a write below it keeps that. -/
theorem Mem.below_writes {n : Nat} : ∀ {bs : List Byte} {m : Mem} {a : Nat}, (∀ c ∈ m, c.1 < n) → a + bs.length ≤ n →
    ∀ c ∈ Mem.writes m a bs, c.1 < n
  | [], _, _, h, _ => h
  | b :: bs, m, a, h, hn => by
    simp only [List.length_cons] at hn
    simp only [Mem.writes]
    refine Mem.below_writes (bs := bs) (fun c hc => ?_) (by omega)
    unfold Mem.write Tbl.put at hc
    split at hc
    · exact h c (Tbl.mem_erase hc)
    · rcases Tbl.mem_set hc with e | e
      · subst e; show a < n; omega
      · exact h c e

end Sys2Proof.Machine
end

