-- ==== Sys2Proof/Laws/Keeps.lean ====
section
/-! SUPPORT. What every operation of the block keeps (`Ok`): the queue of waiting commands as it is, the soundness of
`State.sound`, and the fuse bits that are set. The files Keeps*.lean have one lemma for each operation. -/

namespace Sys2Proof.Machine

/-- The part of `Ok` about starts, straps and fuses. -/
structure SysOk (F : Tbl Nat) (y : Sys) : Prop where
  fuses : fusesGrow F y.fuses
  fails : y.fails ≤ 3
  device : y.device < 4
  size : 1 ≤ y.arraySize ∧ y.arraySize ≤ 4

/-- The stalls: 16 of them, each memory in canonical form. -/
structure StallsOk (l : List Stall) : Prop where
  mem : ∀ x ∈ l, Mem.wf x.mem = true
  count : l.length = 16

/-- A state whose queue is `p`, which is sound, and whose fuses hold at least the bits of `F`. -/
structure Ok (p : List Instr) (F : Tbl Nat) (s : State) : Prop where
  pending : s.pending = p
  hbm : hbmOk s.hbm
  stalls : StallsOk s.stalls
  sys : SysOk F s.sys

variable {p : List Instr} {F : Tbl Nat} {s : State}

theorem Ok.of_sound (h : s.sound) : Ok s.pending s.sys.fuses s :=
  ⟨rfl, h.1, ⟨h.2.1, h.2.2.1⟩, ⟨fun _ _ x => x, h.2.2.2.1, h.2.2.2.2.1, h.2.2.2.2.2⟩⟩

theorem Ok.sound (h : Ok p F s) : s.sound :=
  ⟨h.hbm, h.stalls.mem, h.stalls.count, h.sys.fails, h.sys.device, h.sys.size⟩

/-- `Ok` of a state that is written out, field by field. -/
def OkMk (p : List Instr) (F : Tbl Nat) (s : State) : Prop := Ok p F s

theorem ok_mk {pend : List Instr} {out : List Out} {ctr tick : Nat} {sys : Sys} {stalls : List Stall} {ints bind cmds cfg brd
    csi streams pipes groups relays recorder tdm cod fabric hbm queues heads net time tth lanes axes pwr thm mck pins} :
    Ok p F (State.mk pend out ctr tick sys stalls ints bind cmds cfg brd csi streams pipes groups relays recorder tdm cod fabric
      hbm queues heads net time tth lanes axes pwr thm mck pins) =
    OkMk p F (State.mk pend out ctr tick sys stalls ints bind cmds cfg brd csi streams pipes groups relays recorder tdm cod
      fabric hbm queues heads net time tth lanes axes pwr thm mck pins) := rfl

/-- An update of the fields outside the queue, HBM, the stalls and the starts. -/
theorem OkMk.upd {x : State} (h : Ok p F x) {out : List Out} {ctr tick : Nat} {sys : Sys} (hs : SysOk F sys) {ints bind cmds cfg
    brd csi streams pipes groups relays recorder tdm cod fabric queues heads net time tth lanes axes pwr thm mck pins} :
    OkMk p F (State.mk x.pending out ctr tick sys x.stalls ints bind cmds cfg brd csi streams pipes groups relays recorder tdm
      cod fabric x.hbm queues heads net time tth lanes axes pwr thm mck pins) :=
  ⟨h.pending, h.hbm, h.stalls, hs⟩

/-- `SysOk` of a value that is written out, field by field. -/
def SysMk (F : Tbl Nat) (y : Sys) : Prop := SysOk F y

theorem sys_mk
    {phase sysRstLow warmRstLow railsLow selfRefresh device arraySize ready startKind fails step failCode
    failedSincePower retention entryDue entryLate lost fuses version recovery linkUp linkPolicy vfEnable numVfs
    profile profileReq tableUsed tableStates} :
    SysOk F (Sys.mk
      phase sysRstLow warmRstLow railsLow selfRefresh device arraySize ready startKind fails step failCode
      failedSincePower retention entryDue entryLate lost fuses version recovery linkUp linkPolicy vfEnable numVfs
      profile profileReq tableUsed tableStates) =
    SysMk F (Sys.mk
      phase sysRstLow warmRstLow railsLow selfRefresh device arraySize ready startKind fails step failCode
      failedSincePower retention entryDue entryLate lost fuses version recovery linkUp linkPolicy vfEnable numVfs
      profile profileReq tableUsed tableStates) := rfl

/-- An update of fields other than the fuses, FAILS and the straps. -/
theorem SysMk.upd {y : Sys} (h : SysOk F y)
    {phase sysRstLow warmRstLow railsLow selfRefresh ready startKind step failCode failedSincePower retention
    entryDue entryLate lost version recovery linkUp linkPolicy vfEnable numVfs profile profileReq tableUsed
    tableStates} :
    SysMk F (Sys.mk
      phase sysRstLow warmRstLow railsLow selfRefresh y.device y.arraySize ready startKind y.fails step failCode
      failedSincePower retention entryDue entryLate lost y.fuses version recovery linkUp linkPolicy vfEnable numVfs
      profile profileReq tableUsed tableStates) :=
  ⟨h.fuses, h.fails, h.device, h.size⟩

theorem StallsOk.modify {l : List Stall} (h : StallsOk l) (f : Nat) {g : Stall → Stall}
    (hg : ∀ x, Mem.wf x.mem = true → Mem.wf (g x).mem = true) : StallsOk (l.modify f g) := by
  refine ⟨fun x hx => ?_, by rw [List.length_modify]; exact h.count⟩
  obtain ⟨i, hi, rfl⟩ := List.mem_iff_getElem.1 hx
  rw [List.getElem_modify]
  split
  · exact hg _ (h.mem _ (List.getElem_mem _))
  · exact h.mem _ (List.getElem_mem _)

theorem StallsOk.map {l : List Stall} (h : StallsOk l) {g : Stall → Stall}
    (hg : ∀ x, Mem.wf x.mem = true → Mem.wf (g x).mem = true) : StallsOk (l.map g) := by
  refine ⟨fun x hx => ?_, by rw [List.length_map]; exact h.count⟩
  obtain ⟨y, hy, rfl⟩ := List.mem_map.1 hx
  exact hg _ (h.mem _ hy)

theorem modStall_ok {f : Nat} {g : Stall → Stall} (hg : ∀ x, Mem.wf x.mem = true → Mem.wf (g x).mem = true) (h : Ok p F s) :
    Ok p F (modStall f g s) := ⟨h.pending, h.hbm, h.stalls.modify f hg, h.sys⟩

theorem hbmOk_nil : hbmOk [] := ⟨rfl, fun _ h => absurd h List.not_mem_nil⟩

theorem stallsOk_init : StallsOk (List.replicate 16 {}) :=
  ⟨fun x hx => by rw [List.eq_of_mem_replicate hx]; rfl, rfl⟩

/-! ## Fuses -/

theorem bit_eq_testBit (v i : Nat) : bit v i = v.testBit i := by
  rw [bit, Nat.testBit_eq_decide_div_mod_eq]
  rfl

/-- Setting bits clears none. -/
theorem bit_foldl_or {i : Nat} : ∀ {l : List Nat} {v : Nat}, bit v i = true →
    bit (l.foldl (fun v k => v ||| 2 ^ k) v) i = true
  | [], _, h => h
  | k :: l, v, h => by
    refine bit_foldl_or (l := l) ?_
    rw [bit_eq_testBit] at h ⊢
    rw [Nat.testBit_or, h, Bool.true_or]

/-- A field of the fuses takes a value that holds its old bits. -/
theorem fusesGrow_put {f g : Tbl Nat} {k v : Nat} (h : fusesGrow f g) (hv : ∀ i, bit (Tbl.get 0 g k) i = true → bit v i = true) :
    fusesGrow f (Tbl.put 0 g k v) := by
  intro n i hb
  have hg := h n i hb
  by_cases hn : n = k
  · subst hn
    have hi := hv i hg
    unfold Tbl.put
    split
    · next e => subst e; simp [bit] at hi
    · rw [Tbl.get_set]; exact hi
  · rw [Tbl.get_put_ne hn]; exact hg

/-! ## Folds -/

/-- A fold of operations that each keep `Ok` keeps it. -/
theorem Ok.foldl {α : Type} {f : State → α → State} (hf : ∀ t a, Ok p F t → Ok p F (f t a)) :
    ∀ {l : List α} {s : State}, Ok p F s → Ok p F (l.foldl f s)
  | [], _, h => h
  | a :: l, s, h => Ok.foldl hf (l := l) (hf s a h)

/-- A fold that carries something beside the state. -/
theorem Ok.foldl_fst {α β : Type} {f : State × β → α → State × β} (hf : ∀ a e, Ok p F a.1 → Ok p F (f a e).1) :
    ∀ {l : List α} {a : State × β}, Ok p F a.1 → Ok p F (l.foldl f a).1
  | [], _, h => h
  | e :: l, a, h => Ok.foldl_fst hf (l := l) (hf a e h)

end Sys2Proof.Machine
end

