-- ==== Sys2Proof/Laws/KeepsOps.lean ====
section
/-! SUPPORT. What each operation of Machine/Ops.lean keeps: see Laws/Keeps.lean. -/

namespace Sys2Proof.Machine

variable {P : List Instr} {F : Tbl Nat}

theorem bump_ok {s : State} (hok : Ok P F s) : Ok P F (bump s) := by
  unfold bump
  try dsimp only
  repeat' first
    | with_reducible assumption | exact Ok.sys (by with_reducible assumption)
    | (simp only [ok_mk]; with_reducible apply OkMk.upd)

theorem emit_ok {o : Out} {s : State} (hok : Ok P F s) : Ok P F (emit o s) := by
  unfold emit
  try dsimp only
  repeat' first
    | with_reducible assumption | exact Ok.sys (by with_reducible assumption)
    | (simp only [ok_mk]; with_reducible apply OkMk.upd)

theorem modFnInt_ok {f : Nat} {g : FnInt → FnInt} {s : State} (hok : Ok P F s) : Ok P F (modFnInt f g s) := by
  unfold modFnInt
  try dsimp only
  repeat' first
    | with_reducible assumption | exact Ok.sys (by with_reducible assumption)
    | (simp only [ok_mk]; with_reducible apply OkMk.upd)

theorem sendVector_ok {f v : Nat} {s : State} (hok : Ok P F s) : Ok P F (sendVector f v s) := by
  unfold sendVector
  try dsimp only
  repeat' first
    | with_reducible assumption | exact Ok.sys (by with_reducible assumption)
    | (simp only [ok_mk]; with_reducible apply OkMk.upd)

theorem trySignal_ok {f v : Nat} {s : State} (hok : Ok P F s) : Ok P F (trySignal f v s) := by
  unfold trySignal
  try dsimp only
  repeat' first
    | with_reducible assumption | exact Ok.sys (by with_reducible assumption) | with_reducible apply sendVector_ok
    | with_reducible apply Ok.sys | split

theorem resignal_ok {f v : Nat} {s : State} (hok : Ok P F s) : Ok P F (resignal f v s) := by
  unfold resignal
  try dsimp only
  repeat' first
    | with_reducible assumption | exact Ok.sys (by with_reducible assumption) | with_reducible apply trySignal_ok
    | with_reducible apply Ok.sys | split

theorem raiseCpl_ok {f : Nat} {s : State} (hok : Ok P F s) : Ok P F (raiseCpl f s) := by
  unfold raiseCpl
  try dsimp only
  repeat' first
    | with_reducible assumption | exact Ok.sys (by with_reducible assumption) | (intro _ hx; with_reducible exact hx)
    | with_reducible apply modStall_ok | with_reducible apply trySignal_ok | with_reducible apply Ok.sys | split

theorem raiseEvt_ok {f : Nat} {s : State} (hok : Ok P F s) : Ok P F (raiseEvt f s) := by
  unfold raiseEvt
  try dsimp only
  repeat' first
    | with_reducible assumption | exact Ok.sys (by with_reducible assumption) | (intro _ hx; with_reducible exact hx)
    | with_reducible apply modStall_ok | with_reducible apply trySignal_ok | with_reducible apply Ok.sys | split

theorem writeEvent_ok {f : Nat} {e : Event} {s : State} (hok : Ok P F s) : Ok P F (writeEvent f e s) := by
  unfold writeEvent
  try dsimp only
  repeat' first
    | with_reducible assumption | exact Ok.sys (by with_reducible assumption) | (intro _ hx; with_reducible exact hx)
    | with_reducible apply raiseEvt_ok | with_reducible apply modStall_ok

theorem modPort_ok {p : Nat} {g : TthPort → TthPort} {s : State} (hok : Ok P F s) : Ok P F (modPort p g s) := by
  unfold modPort
  try dsimp only
  repeat' first
    | with_reducible assumption | exact Ok.sys (by with_reducible assumption)
    | (simp only [ok_mk]; with_reducible apply OkMk.upd)

theorem tthPut_ok {p cls : Nat} {b : TthBody} {route : Nat} {s : State} (hok : Ok P F s) :
    Ok P F (tthPut p cls b route s) := by
  unfold tthPut
  try dsimp only
  repeat' first
    | with_reducible assumption | exact Ok.sys (by with_reducible assumption) | with_reducible apply modPort_ok
    | with_reducible apply emit_ok | with_reducible apply Ok.sys | split

theorem tthSend_ok {p cls : Nat} {b : TthBody} {dst : Nat} {bcast : Bool} {s : State} (hok : Ok P F s) :
    Ok P F (tthSend p cls b dst bcast s) := by
  unfold tthSend
  try dsimp only
  repeat' first
    | with_reducible assumption | exact Ok.sys (by with_reducible assumption) | with_reducible apply tthPut_ok

theorem tthResend_ok {p cls : Nat} {s : State} (hok : Ok P F s) : Ok P F (tthResend p cls s) := by
  unfold tthResend
  try dsimp only
  repeat' first
    | with_reducible assumption | exact Ok.sys (by with_reducible assumption) | with_reducible apply emit_ok
    | (with_reducible apply Ok.foldl; intro _ _ _) | with_reducible apply Ok.sys | split

theorem tthBroadcast_ok {cls : Nat} {b : TthBody} {s : State} (hok : Ok P F s) : Ok P F (tthBroadcast cls b s) := by
  unfold tthBroadcast
  try dsimp only
  repeat' first
    | with_reducible assumption | exact Ok.sys (by with_reducible assumption) | with_reducible apply tthSend_ok
    | with_reducible apply Ok.sys | split

theorem memberEvent_ok {f : Nat} {e : Event} {s : State} (hok : Ok P F s) : Ok P F (memberEvent f e s) := by
  unfold memberEvent
  try dsimp only
  repeat' first
    | with_reducible assumption | exact Ok.sys (by with_reducible assumption) | with_reducible apply tthSend_ok
    | (simp only [ok_mk]; with_reducible apply OkMk.upd) | with_reducible apply Ok.sys | split

theorem postEvent_ok {f : Nat} {e : Event} {s : State} (hok : Ok P F s) : Ok P F (postEvent f e s) := by
  unfold postEvent
  try dsimp only
  repeat' first
    | with_reducible assumption | exact Ok.sys (by with_reducible assumption) | (intro _ hx; with_reducible exact hx)
    | with_reducible apply memberEvent_ok | with_reducible apply modStall_ok | with_reducible apply writeEvent_ok
    | with_reducible apply Ok.sys | split

theorem unitEvent_ok {code cls inst : Nat} {frame : Option Nat} {detail : Nat} {s : State} (hok : Ok P F s) :
    Ok P F (unitEvent code cls inst frame detail s) := by
  unfold unitEvent
  try dsimp only
  repeat' first
    | with_reducible assumption | exact Ok.sys (by with_reducible assumption) | with_reducible apply postEvent_ok

theorem sysEvent_ok {code cls unit detail : Nat} {s : State} (hok : Ok P F s) :
    Ok P F (sysEvent code cls unit detail s) := by
  unfold sysEvent
  try dsimp only
  repeat' first
    | with_reducible assumption | exact Ok.sys (by with_reducible assumption) | with_reducible apply postEvent_ok

theorem raise_ok {n : Nat} {s : State} (hok : Ok P F s) : Ok P F (raise n s) := by
  unfold raise
  try dsimp only
  repeat' first
    | with_reducible assumption | exact Ok.sys (by with_reducible assumption) | with_reducible apply postEvent_ok
    | with_reducible apply trySignal_ok | (simp only [ok_mk]; with_reducible apply OkMk.upd) | with_reducible apply Ok.sys
    | split

theorem writeCpl_ok {f : Nat} {c : Completion} {notify : Bool} {s : State} (hok : Ok P F s) :
    Ok P F (writeCpl f c notify s) := by
  unfold writeCpl
  try dsimp only
  repeat' first
    | with_reducible assumption | exact Ok.sys (by with_reducible assumption) | (intro _ hx; with_reducible exact hx)
    | with_reducible apply modStall_ok | with_reducible apply raiseCpl_ok | with_reducible apply Ok.sys | split

theorem dropCmd_ok {c : Cmd} {s : State} (hok : Ok P F s) : Ok P F (dropCmd c s) := by
  unfold dropCmd
  try dsimp only
  repeat' first
    | with_reducible assumption | exact Ok.sys (by with_reducible assumption)
    | (simp only [ok_mk]; with_reducible apply OkMk.upd)

theorem writeResults_ok {c : Cmd} {bs : List Byte} {s : State} (hok : Ok P F s) : Ok P F (writeResults c bs s) := by
  unfold writeResults
  try dsimp only
  repeat' first
    | with_reducible assumption | exact Ok.sys (by with_reducible assumption) | with_reducible apply modStall_ok
    | (simp only [ok_mk]; with_reducible apply OkMk.upd) | with_reducible apply Ok.sys | split
    | (intro _ hx; exact Mem.wf_writes hx)

theorem completeWith_ok {c : Cmd} {bind : Nat} {relayed : Bool} {r : Reply} {s : State} (hok : Ok P F s) :
    Ok P F (completeWith c bind relayed r s) := by
  unfold completeWith
  try dsimp only
  repeat' first
    | with_reducible assumption | exact Ok.sys (by with_reducible assumption) | (intro _ hx; with_reducible exact hx)
    | with_reducible apply dropCmd_ok | with_reducible apply tthSend_ok | with_reducible apply writeCpl_ok
    | with_reducible apply modStall_ok | with_reducible apply writeResults_ok | with_reducible apply Ok.sys | split

theorem complete_ok {c : Cmd} {r : Reply} {s : State} (hok : Ok P F s) : Ok P F (complete c r s) := by
  unfold complete
  try dsimp only
  repeat' first
    | with_reducible assumption | exact Ok.sys (by with_reducible assumption) | with_reducible apply completeWith_ok

theorem modStream_ok {i : Nat} {g : StreamSt → StreamSt} {s : State} (hok : Ok P F s) : Ok P F (modStream i g s) := by
  unfold modStream
  try dsimp only
  repeat' first
    | with_reducible assumption | exact Ok.sys (by with_reducible assumption)
    | (simp only [ok_mk]; with_reducible apply OkMk.upd)

theorem hbmWrite_ok {a : Nat} {bs : List Byte} {s : State} (h : Ok P F s) : Ok P F (hbmWrite a bs s) := by
  unfold hbmWrite
  split
  · next hb => exact ⟨h.pending, ⟨Mem.wf_writes h.hbm.1, Mem.below_writes h.hbm.2 hb⟩, h.stalls, h.sys⟩
  · exact raise_ok h

theorem modLane_ok {l : Nat} {g : Lane → Lane} {s : State} (hok : Ok P F s) : Ok P F (modLane l g s) := by
  unfold modLane
  try dsimp only
  repeat' first
    | with_reducible assumption | exact Ok.sys (by with_reducible assumption)
    | (simp only [ok_mk]; with_reducible apply OkMk.upd)

theorem lanesTurn_ok {up : Bool} {l : List Nat} {s : State} (hok : Ok P F s) : Ok P F (lanesTurn up l s) := by
  unfold lanesTurn
  try dsimp only
  repeat' first
    | with_reducible assumption | with_reducible apply modLane_ok | (with_reducible apply Ok.foldl; intro _ _ _)

theorem hbmTouch_ok {a n : Nat} {s : State} (hok : Ok P F s) : Ok P F (hbmTouch a n s) := by
  unfold hbmTouch
  try dsimp only
  repeat' first
    | with_reducible assumption | exact Ok.sys (by with_reducible assumption) | with_reducible apply raise_ok
    | with_reducible apply Ok.sys | split

end Sys2Proof.Machine
end

