-- ==== Sys2Proof/Laws/KeepsBoard.lean ====
section
/-! SUPPORT. What each operation of Machine/Board.lean keeps: see Laws/Keeps.lean. -/

namespace Sys2Proof.Machine

variable {P : List Instr} {F : Tbl Nat}

theorem equaliseAt_ok {cls l : Nat} {s : State} (hok : Ok P F s) : Ok P F (equaliseAt cls l s) := by
  unfold equaliseAt
  try dsimp only
  repeat' first
    | with_reducible assumption | exact Ok.sys (by with_reducible assumption) | with_reducible apply bump_ok
    | with_reducible apply modLane_ok

theorem equalise_ok {classes lanes : List Nat} {s : State} (hok : Ok P F s) : Ok P F (equalise classes lanes s) := by
  unfold equalise
  try dsimp only
  repeat' first
    | with_reducible assumption | exact Ok.sys (by with_reducible assumption) | with_reducible apply equaliseAt_ok
    | (with_reducible apply Ok.foldl; intro _ _ _)

theorem equaliseEndpoint_ok {s : State} (hok : Ok P F s) : Ok P F (equaliseEndpoint s) := by
  unfold equaliseEndpoint
  try dsimp only
  repeat' first
    | with_reducible assumption | exact Ok.sys (by with_reducible assumption) | with_reducible apply equalise_ok
    | with_reducible apply lanesTurn_ok

theorem equaliseRoot_ok {s : State} (hok : Ok P F s) : Ok P F (equaliseRoot s) := by
  unfold equaliseRoot
  try dsimp only
  repeat' first
    | with_reducible assumption | exact Ok.sys (by with_reducible assumption) | with_reducible apply equalise_ok

end Sys2Proof.Machine
end

