-- ==== Sys2Proof/Laws/KeepsHostRegs.lean ====
section
/-! SUPPORT. What each operation of Machine/HostRegs.lean keeps: see Laws/Keeps.lean. -/

namespace Sys2Proof.Machine

variable {P : List Instr} {F : Tbl Nat}

theorem modQueue_ok {q : Nat} {g : Queue → Queue} {s : State} (hok : Ok P F s) : Ok P F (modQueue q g s) := by
  unfold modQueue
  try dsimp only
  repeat' first
    | with_reducible assumption | exact Ok.sys (by with_reducible assumption)
    | (simp only [ok_mk]; with_reducible apply OkMk.upd)

theorem doorbellWrite_ok {f : Nat} {value : Word} {s : State} (hok : Ok P F s) : Ok P F (doorbellWrite f value s) := by
  unfold doorbellWrite
  try dsimp only
  repeat' first
    | with_reducible assumption | exact Ok.sys (by with_reducible assumption) | with_reducible apply modStall_ok
    | with_reducible apply Ok.sys | split | (intro _ hx; split <;> exact hx)

theorem cplHeadSet_ok {f : Nat} {value : Word} {s : State} (hok : Ok P F s) : Ok P F (cplHeadSet f value s) := by
  unfold cplHeadSet
  try dsimp only
  repeat' first
    | with_reducible assumption | exact Ok.sys (by with_reducible assumption) | with_reducible apply modStall_ok
    | with_reducible apply Ok.sys | split | (intro _ hx; split <;> exact hx)

theorem drainWaiting_ok {f : Nat} : ∀ (n : List Event)  {s : State}, Ok P F s →
    Ok P F (drainWaiting f n  s) := by
  intro n
  induction n with
  | nil =>
    intro  s h
    unfold drainWaiting
    try dsimp only
    repeat' first
      | with_reducible assumption | exact Ok.sys (by with_reducible assumption) | (intro _ hx; with_reducible exact hx)
      | with_reducible apply modStall_ok
  | cons e n ih =>
    intro  s h
    unfold drainWaiting
    try dsimp only
    repeat' first
      | with_reducible apply ih | with_reducible assumption | exact Ok.sys (by with_reducible assumption)
      | (intro _ hx; with_reducible exact hx) | with_reducible apply modStall_ok | with_reducible apply writeEvent_ok
      | with_reducible apply Ok.sys | split

theorem eventsFreed_ok {f : Nat} {s : State} (hok : Ok P F s) : Ok P F (eventsFreed f s) := by
  unfold eventsFreed
  try dsimp only
  repeat' first
    | with_reducible assumption | exact Ok.sys (by with_reducible assumption) | (intro _ hx; with_reducible exact hx)
    | with_reducible apply writeEvent_ok | with_reducible apply modStall_ok | with_reducible apply drainWaiting_ok
    | with_reducible apply Ok.sys | split

theorem evtHeadSet_ok {f : Nat} {value : Word} {s : State} (hok : Ok P F s) : Ok P F (evtHeadSet f value s) := by
  unfold evtHeadSet
  try dsimp only
  repeat' first
    | with_reducible assumption | exact Ok.sys (by with_reducible assumption) | (intro _ hx; with_reducible exact hx)
    | with_reducible apply eventsFreed_ok | with_reducible apply modStall_ok | with_reducible apply Ok.sys | split

theorem grmStatusWrite_ok {f : Nat} {value : Word} {s : State} (hok : Ok P F s) : Ok P F (grmStatusWrite f value s) := by
  unfold grmStatusWrite
  try dsimp only
  repeat' first
    | with_reducible assumption | exact Ok.sys (by with_reducible assumption) | (intro _ hx; with_reducible exact hx)
    | with_reducible apply modStall_ok

theorem unpend_ok {n : Nat} {s : State} (hok : Ok P F s) : Ok P F (unpend n s) := by
  unfold unpend
  try dsimp only
  repeat' first
    | with_reducible assumption | exact Ok.sys (by with_reducible assumption)
    | (simp only [ok_mk]; with_reducible apply OkMk.upd)

theorem clearSource_ok {n : Nat} {s : State} (hok : Ok P F s) : Ok P F (clearSource n s) := by
  unfold clearSource
  try dsimp only
  repeat' first
    | with_reducible assumption | exact Ok.sys (by with_reducible assumption) | with_reducible apply unpend_ok
    | with_reducible apply raise_ok | with_reducible apply Ok.sys | split

theorem pendingWrite_ok {f k : Nat} {value : Word} {s : State} (hok : Ok P F s) : Ok P F (pendingWrite f k value s) := by
  unfold pendingWrite
  try dsimp only
  repeat' first
    | with_reducible assumption | exact Ok.sys (by with_reducible assumption) | with_reducible apply clearSource_ok
    | (with_reducible apply Ok.foldl; intro _ _ _) | with_reducible apply Ok.sys | split

theorem maskWrite_ok {f k : Nat} {value : Word} {s : State} (hok : Ok P F s) : Ok P F (maskWrite f k value s) := by
  unfold maskWrite
  try dsimp only
  repeat' first
    | with_reducible assumption | exact Ok.sys (by with_reducible assumption) | with_reducible apply modFnInt_ok
    | with_reducible apply trySignal_ok | (with_reducible apply Ok.foldl; intro _ _ _) | with_reducible apply Ok.sys | split

theorem vecAck_ok {f : Nat} {value : Word} {s : State} (hok : Ok P F s) : Ok P F (vecAck f value s) := by
  unfold vecAck
  try dsimp only
  repeat' first
    | with_reducible assumption | exact Ok.sys (by with_reducible assumption) | with_reducible apply resignal_ok
    | with_reducible apply modFnInt_ok

theorem intStallWrite_ok {f : Nat} {value : Word} {s : State} (hok : Ok P F s) : Ok P F (intStallWrite f value s) := by
  unfold intStallWrite
  try dsimp only
  repeat' first
    | with_reducible assumption | exact Ok.sys (by with_reducible assumption) | (intro _ hx; with_reducible exact hx)
    | with_reducible apply modStall_ok | with_reducible apply resignal_ok | with_reducible apply Ok.sys | split

theorem rerouted_ok {before : State} {n : Nat} {s : State} (hok : Ok P F s) : Ok P F (rerouted before n s) := by
  unfold rerouted
  try dsimp only
  repeat' first
    | with_reducible assumption | exact Ok.sys (by with_reducible assumption) | with_reducible apply modFnInt_ok
    | with_reducible apply unpend_ok | with_reducible apply raise_ok | with_reducible apply Ok.sys | split

theorem reroutedAll_ok {before s : State} (hok : Ok P F s) : Ok P F (reroutedAll before s) := by
  unfold reroutedAll
  try dsimp only
  repeat' first
    | with_reducible assumption | exact Ok.sys (by with_reducible assumption) | with_reducible apply rerouted_ok
    | (with_reducible apply Ok.foldl; intro _ _ _)

theorem routeWrite_ok {f n : Nat} {value : Word} {s : State} (hok : Ok P F s) : Ok P F (routeWrite f n value s) := by
  unfold routeWrite
  try dsimp only
  repeat' first
    | with_reducible assumption | exact Ok.sys (by with_reducible assumption) | with_reducible apply unpend_ok
    | with_reducible apply rerouted_ok | with_reducible apply trySignal_ok
    | (simp only [ok_mk]; with_reducible apply OkMk.upd) | with_reducible apply Ok.sys | split

theorem forceSignal_ok {f v : Nat} {s : State} (hok : Ok P F s) : Ok P F (forceSignal f v s) := by
  unfold forceSignal
  try dsimp only
  repeat' first
    | with_reducible assumption | exact Ok.sys (by with_reducible assumption) | with_reducible apply sendVector_ok
    | with_reducible apply Ok.sys | split

theorem stallSourcesAgain_ok {f : Nat} {s : State} (hok : Ok P F s) : Ok P F (stallSourcesAgain f s) := by
  unfold stallSourcesAgain
  try dsimp only
  repeat' first
    | with_reducible assumption | exact Ok.sys (by with_reducible assumption) | (intro _ hx; with_reducible exact hx)
    | with_reducible apply modStall_ok

theorem msixOn_ok {f : Nat} {s : State} (hok : Ok P F s) : Ok P F (msixOn f s) := by
  unfold msixOn
  try dsimp only
  repeat' first
    | with_reducible assumption | exact Ok.sys (by with_reducible assumption) | with_reducible apply modFnInt_ok
    | with_reducible apply stallSourcesAgain_ok | with_reducible apply forceSignal_ok
    | (with_reducible apply Ok.foldl; intro _ _ _)

theorem msixMask_ok {f : Nat} {entry : Option Nat} {mask : Bool} {s : State} (hok : Ok P F s) :
    Ok P F (msixMask f entry mask s) := by
  unfold msixMask
  try dsimp only
  repeat' first
    | with_reducible assumption | exact Ok.sys (by with_reducible assumption) | with_reducible apply modFnInt_ok
    | with_reducible apply resignal_ok | with_reducible apply trySignal_ok | (with_reducible apply Ok.foldl; intro _ _ _)
    | with_reducible apply Ok.sys | split

theorem setRead_ok {r : RingReg} {v : Nat} {s : State} (hok : Ok P F s) : Ok P F (setRead r v s) := by
  unfold setRead
  try dsimp only
  repeat' first
    | with_reducible assumption | exact Ok.sys (by with_reducible assumption) | with_reducible apply modStream_ok
    | (simp only [ok_mk]; with_reducible apply OkMk.upd) | with_reducible apply Ok.sys | split

theorem readAdvance_ok {f : Nat} {r : RingReg} {value : Word} {s : State} (hok : Ok P F s) :
    Ok P F (readAdvance f r value s) := by
  unfold readAdvance
  try dsimp only
  repeat' first
    | with_reducible assumption | exact Ok.sys (by with_reducible assumption) | with_reducible apply setRead_ok
    | with_reducible apply Ok.sys | split

theorem occRead_ok {f q : Nat} {s : State} (hok : Ok P F s) : Ok P F (occRead f q s) := by
  unfold occRead
  try dsimp only
  repeat' first
    | with_reducible assumption | exact Ok.sys (by with_reducible assumption) | with_reducible apply emit_ok
    | with_reducible apply modQueue_ok | with_reducible apply Ok.sys | split

theorem peakRead_ok {f q : Nat} {s : State} (hok : Ok P F s) : Ok P F (peakRead f q s) := by
  unfold peakRead
  try dsimp only
  repeat' first
    | with_reducible assumption | exact Ok.sys (by with_reducible assumption) | with_reducible apply emit_ok
    | with_reducible apply modQueue_ok | with_reducible apply Ok.sys | split

theorem timeCapture_ok {f : Nat} {w : TimeReg} {s : State} (hok : Ok P F s) : Ok P F (timeCapture f w s) := by
  unfold timeCapture
  try dsimp only
  repeat' first
    | with_reducible assumption | exact Ok.sys (by with_reducible assumption) | with_reducible apply emit_ok
    | with_reducible apply modFnInt_ok | with_reducible apply Ok.sys | split

theorem laneStatRead_ok {f l : Nat} {s : State} (hok : Ok P F s) : Ok P F (laneStatRead f l s) := by
  unfold laneStatRead
  try dsimp only
  repeat' first
    | with_reducible assumption | exact Ok.sys (by with_reducible assumption) | with_reducible apply emit_ok
    | (simp only [ok_mk]; with_reducible apply OkMk.upd) | with_reducible apply Ok.sys | split

theorem stallWrite_ok {f o : Nat} {value : Word} {s : State} (hok : Ok P F s) : Ok P F (stallWrite f o value s) := by
  unfold stallWrite
  try dsimp only
  repeat' first
    | with_reducible assumption | exact Ok.sys (by with_reducible assumption) | with_reducible apply modStall_ok
    | with_reducible apply Ok.sys | split | (intro _ hx; exact Mem.wf_writes hx)

theorem regWrite_ok {f o : Nat} {value : Word} {s : State} (hok : Ok P F s) : Ok P F (regWrite f o value s) := by
  unfold regWrite
  try dsimp only
  repeat' first
    | with_reducible assumption | exact Ok.sys (by with_reducible assumption) | with_reducible apply doorbellWrite_ok
    | with_reducible apply cplHeadSet_ok | with_reducible apply evtHeadSet_ok | with_reducible apply grmStatusWrite_ok
    | with_reducible apply pendingWrite_ok | with_reducible apply maskWrite_ok | with_reducible apply vecAck_ok
    | with_reducible apply intStallWrite_ok | with_reducible apply stallWrite_ok | with_reducible apply routeWrite_ok
    | with_reducible apply readAdvance_ok | with_reducible apply Ok.sys | split

theorem whenHost_ok {f : Nat} {g : State → State} {s : State} (hg : ∀ x, Ok P F x → Ok P F (g x)) (hok : Ok P F s) :
    Ok P F (whenHost f g s) := by
  unfold whenHost
  try dsimp only
  repeat' first
    | with_reducible assumption | exact Ok.sys (by with_reducible assumption) | apply hg | with_reducible apply Ok.sys | split

theorem execCommandDoorbell_ok {fn : Nat} {value : Word} {s : State} {u : State} (hok : Ok P F s) (he : execCommandDoorbell fn value s = .next u) :
    Ok P F u := by
  obtain rfl := Host.Outcome.next.inj he
  try dsimp only
  repeat' first
    | with_reducible assumption | exact Ok.sys (by with_reducible assumption) | with_reducible apply whenHost_ok
    | with_reducible apply doorbellWrite_ok

theorem execCplHeadWrite_ok {fn : Nat} {value : Word} {s : State} {u : State} (hok : Ok P F s) (he : execCplHeadWrite fn value s = .next u) :
    Ok P F u := by
  obtain rfl := Host.Outcome.next.inj he
  try dsimp only
  repeat' first
    | with_reducible assumption | exact Ok.sys (by with_reducible assumption) | with_reducible apply whenHost_ok
    | with_reducible apply cplHeadSet_ok

theorem execEvtHeadWrite_ok {fn : Nat} {value : Word} {s : State} {u : State} (hok : Ok P F s) (he : execEvtHeadWrite fn value s = .next u) :
    Ok P F u := by
  obtain rfl := Host.Outcome.next.inj he
  try dsimp only
  repeat' first
    | with_reducible assumption | exact Ok.sys (by with_reducible assumption) | with_reducible apply whenHost_ok
    | with_reducible apply evtHeadSet_ok

theorem execGrmStatusClear_ok {fn : Nat} {value : Word} {s : State} {u : State} (hok : Ok P F s) (he : execGrmStatusClear fn value s = .next u) :
    Ok P F u := by
  obtain rfl := Host.Outcome.next.inj he
  try dsimp only
  repeat' first
    | with_reducible assumption | exact Ok.sys (by with_reducible assumption) | with_reducible apply whenHost_ok
    | with_reducible apply grmStatusWrite_ok

theorem execIntPendingClear_ok {fn k : Nat} {value : Word} {s : State} {u : State} (hok : Ok P F s) (he : execIntPendingClear fn k value s = .next u) :
    Ok P F u := by
  obtain rfl := Host.Outcome.next.inj he
  try dsimp only
  repeat' first
    | with_reducible assumption | exact Ok.sys (by with_reducible assumption) | (intro _ hx; with_reducible exact hx)
    | with_reducible apply whenHost_ok | with_reducible apply pendingWrite_ok | with_reducible apply Ok.sys | split

theorem execIntMaskWrite_ok {fn k : Nat} {value : Word} {s : State} {u : State} (hok : Ok P F s) (he : execIntMaskWrite fn k value s = .next u) :
    Ok P F u := by
  obtain rfl := Host.Outcome.next.inj he
  try dsimp only
  repeat' first
    | with_reducible assumption | exact Ok.sys (by with_reducible assumption) | (intro _ hx; with_reducible exact hx)
    | with_reducible apply whenHost_ok | with_reducible apply maskWrite_ok | with_reducible apply Ok.sys | split

theorem execIntVecAck_ok {fn : Nat} {value : Word} {s : State} {u : State} (hok : Ok P F s) (he : execIntVecAck fn value s = .next u) :
    Ok P F u := by
  obtain rfl := Host.Outcome.next.inj he
  try dsimp only
  repeat' first
    | with_reducible assumption | exact Ok.sys (by with_reducible assumption) | with_reducible apply whenHost_ok
    | with_reducible apply vecAck_ok

theorem execIntStallClear_ok {fn : Nat} {value : Word} {s : State} {u : State} (hok : Ok P F s) (he : execIntStallClear fn value s = .next u) :
    Ok P F u := by
  obtain rfl := Host.Outcome.next.inj he
  try dsimp only
  repeat' first
    | with_reducible assumption | exact Ok.sys (by with_reducible assumption) | with_reducible apply whenHost_ok
    | with_reducible apply intStallWrite_ok

theorem execIntStallMaskWrite_ok {fn : Nat} {value : Word} {s : State} {u : State} (hok : Ok P F s) (he : execIntStallMaskWrite fn value s = .next u) :
    Ok P F u := by
  obtain rfl := Host.Outcome.next.inj he
  try dsimp only
  repeat' first
    | with_reducible assumption | exact Ok.sys (by with_reducible assumption) | with_reducible apply whenHost_ok
    | with_reducible apply intStallWrite_ok

theorem execIntRouteWrite_ok {fn src : Nat} {value : Word} {s : State} {u : State} (hok : Ok P F s) (he : execIntRouteWrite fn src value s = .next u) :
    Ok P F u := by
  obtain rfl := Host.Outcome.next.inj he
  try dsimp only
  repeat' first
    | with_reducible assumption | exact Ok.sys (by with_reducible assumption) | (intro _ hx; with_reducible exact hx)
    | with_reducible apply whenHost_ok | with_reducible apply routeWrite_ok | with_reducible apply Ok.sys | split

theorem execRingReadAdvance_ok {fn : Nat} {ring : RingReg} {value : Word} {s : State} {u : State} (hok : Ok P F s) (he : execRingReadAdvance fn ring value s = .next u) :
    Ok P F u := by
  obtain rfl := Host.Outcome.next.inj he
  try dsimp only
  repeat' first
    | with_reducible assumption | exact Ok.sys (by with_reducible assumption) | with_reducible apply whenHost_ok
    | with_reducible apply readAdvance_ok

theorem execQueOccRead_ok {fn q : Nat} {s : State} {u : State} (hok : Ok P F s) (he : execQueOccRead fn q s = .next u) :
    Ok P F u := by
  obtain rfl := Host.Outcome.next.inj he
  try dsimp only
  repeat' first
    | with_reducible assumption | exact Ok.sys (by with_reducible assumption) | (intro _ hx; with_reducible exact hx)
    | with_reducible apply whenHost_ok | with_reducible apply occRead_ok | with_reducible apply Ok.sys | split

theorem execQuePeakRead_ok {fn q : Nat} {s : State} {u : State} (hok : Ok P F s) (he : execQuePeakRead fn q s = .next u) :
    Ok P F u := by
  obtain rfl := Host.Outcome.next.inj he
  try dsimp only
  repeat' first
    | with_reducible assumption | exact Ok.sys (by with_reducible assumption) | (intro _ hx; with_reducible exact hx)
    | with_reducible apply whenHost_ok | with_reducible apply peakRead_ok | with_reducible apply Ok.sys | split

theorem execPtpTimeCapture_ok {fn : Nat} {which : TimeReg} {s : State} {u : State} (hok : Ok P F s) (he : execPtpTimeCapture fn which s = .next u) :
    Ok P F u := by
  obtain rfl := Host.Outcome.next.inj he
  try dsimp only
  repeat' first
    | with_reducible assumption | exact Ok.sys (by with_reducible assumption) | (intro _ hx; with_reducible exact hx)
    | with_reducible apply whenHost_ok | with_reducible apply timeCapture_ok | with_reducible apply Ok.sys | split

theorem execLneStatRead_ok {fn lane : Nat} {s : State} {u : State} (hok : Ok P F s) (he : execLneStatRead fn lane s = .next u) :
    Ok P F u := by
  obtain rfl := Host.Outcome.next.inj he
  try dsimp only
  repeat' first
    | with_reducible assumption | exact Ok.sys (by with_reducible assumption) | (intro _ hx; with_reducible exact hx)
    | with_reducible apply whenHost_ok | with_reducible apply laneStatRead_ok | with_reducible apply Ok.sys | split

theorem execRegisterWrite_ok {fn offset : Nat} {value : Word} {s : State} {u : State} (hok : Ok P F s) (he : execRegisterWrite fn offset value s = .next u) :
    Ok P F u := by
  obtain rfl := Host.Outcome.next.inj he
  try dsimp only
  repeat' first
    | with_reducible assumption | exact Ok.sys (by with_reducible assumption) | with_reducible apply whenHost_ok
    | with_reducible apply regWrite_ok

theorem execMsixEnable_ok {fn : Nat} {s : State} {u : State} (hok : Ok P F s) (he : execMsixEnable fn s = .next u) :
    Ok P F u := by
  obtain rfl := Host.Outcome.next.inj he
  try dsimp only
  repeat' first
    | with_reducible assumption | exact Ok.sys (by with_reducible assumption) | with_reducible apply whenHost_ok
    | with_reducible apply msixOn_ok

theorem execMsixMaskWrite_ok {fn : Nat} {entry : Option Nat} {mask : Bool} {s : State} {u : State} (hok : Ok P F s) (he : execMsixMaskWrite fn entry mask s = .next u) :
    Ok P F u := by
  obtain rfl := Host.Outcome.next.inj he
  try dsimp only
  repeat' first
    | with_reducible assumption | exact Ok.sys (by with_reducible assumption) | with_reducible apply whenHost_ok
    | with_reducible apply msixMask_ok

end Sys2Proof.Machine
end

