-- ==== Sys2Proof/Laws/KeepsGroom.lean ====
section
/-! SUPPORT. What each operation of Machine/Groom.lean keeps: see Laws/Keeps.lean. -/

namespace Sys2Proof.Machine

variable {P : List Instr} {F : Tbl Nat}

theorem refuseAt_ok {f : Nat} {x : Slot} {bind : Nat} {r : Reply} {s : State} (hok : Ok P F s) :
    Ok P F (refuseAt f x bind r s) := by
  unfold refuseAt
  try dsimp only
  repeat' first
    | with_reducible assumption | exact Ok.sys (by with_reducible assumption) | with_reducible apply completeWith_ok

theorem renumberCommit_ok {r : CmdRef} {n : Nat} {s : State} (hok : Ok P F s) : Ok P F (renumberCommit r n s) := by
  unfold renumberCommit
  try dsimp only
  repeat' first
    | with_reducible assumption | exact Ok.sys (by with_reducible assumption) | with_reducible apply tthBroadcast_ok
    | (simp only [ok_mk]; with_reducible apply OkMk.upd)

theorem giveNumber_ok {after : CmdRef × Target × Nat → Bool} {s : State} (hok : Ok P F s) :
    Ok P F (giveNumber after s).2 := by
  unfold giveNumber
  try dsimp only
  repeat' first
    | with_reducible assumption | exact Ok.sys (by with_reducible assumption) | with_reducible apply renumberCommit_ok
    | (with_reducible apply Ok.foldl; intro _ _ _) | (simp only [ok_mk]; with_reducible apply OkMk.upd)
    | with_reducible apply Ok.sys

theorem relayOut_ok {c : Cmd} {s : State} (hok : Ok P F s) : Ok P F (relayOut c s) := by
  unfold relayOut
  try dsimp only
  repeat' first
    | with_reducible assumption | exact Ok.sys (by with_reducible assumption) | with_reducible apply giveNumber_ok
    | with_reducible apply tthSend_ok | (simp only [ok_mk]; with_reducible apply OkMk.upd) | with_reducible apply Ok.sys
    | split

theorem relayDue_ok {s : State} (hok : Ok P F s) : Ok P F (relayDue s) := by
  unfold relayDue
  try dsimp only
  repeat' first
    | with_reducible assumption | exact Ok.sys (by with_reducible assumption) | with_reducible apply relayOut_ok
    | (with_reducible apply Ok.foldl; intro _ _ _) | with_reducible apply Ok.sys | split

theorem enqueue_ok {c : Cmd} {s : State} (hok : Ok P F s) : Ok P F (enqueue c s) := by
  unfold enqueue
  try dsimp only
  repeat' first
    | with_reducible assumption | exact Ok.sys (by with_reducible assumption) | with_reducible apply relayDue_ok
    | (simp only [ok_mk]; with_reducible apply OkMk.upd) | with_reducible apply Ok.sys | split

theorem judge_ok {f : Nat} {x : Slot} {hostMem : List (Nat × Byte)} {s : State} (hok : Ok P F s) :
    Ok P F (judge f x hostMem s) := by
  unfold judge
  try dsimp only
  repeat' first
    | with_reducible assumption | exact Ok.sys (by with_reducible assumption) | with_reducible apply refuseAt_ok
    | with_reducible apply enqueue_ok | with_reducible apply Ok.sys | split

theorem takeSlot_ok {f : Nat} {s : State} (hok : Ok P F s) : Ok P F (takeSlot f s) := by
  unfold takeSlot
  try dsimp only
  repeat' first
    | with_reducible assumption | exact Ok.sys (by with_reducible assumption) | (intro _ hx; with_reducible exact hx)
    | with_reducible apply modStall_ok

theorem countAccepted_ok {f : Nat} {q : Word} {s : State} (hok : Ok P F s) : Ok P F (countAccepted f q s) := by
  unfold countAccepted
  try dsimp only
  repeat' first
    | with_reducible assumption | exact Ok.sys (by with_reducible assumption) | (intro _ hx; with_reducible exact hx)
    | with_reducible apply modStall_ok

theorem refuseSeq_ok {f : Nat} {x : Slot} {s : State} (hok : Ok P F s) : Ok P F (refuseSeq f x s) := by
  unfold refuseSeq
  try dsimp only
  repeat' first
    | with_reducible assumption | exact Ok.sys (by with_reducible assumption) | with_reducible apply writeCpl_ok

theorem acceptNext_ok {f : Nat} {hostMem : List (Nat × Byte)} {s : State} (hok : Ok P F s) :
    Ok P F (acceptNext f hostMem s) := by
  unfold acceptNext
  try dsimp only
  repeat' first
    | with_reducible assumption | exact Ok.sys (by with_reducible assumption) | with_reducible apply refuseSeq_ok
    | with_reducible apply takeSlot_ok | with_reducible apply judge_ok | with_reducible apply countAccepted_ok
    | with_reducible apply Ok.sys | split

theorem execCommandAccept_ok {fn : Nat} {hostMem : List (Nat × Byte)} {s : State} {u : State} (hok : Ok P F s) (he : execCommandAccept fn hostMem s = .next u) :
    Ok P F u := by
  obtain rfl := Host.Outcome.next.inj he
  try dsimp only
  repeat' first
    | with_reducible assumption | exact Ok.sys (by with_reducible assumption) | with_reducible apply acceptNext_ok
    | with_reducible apply Ok.sys | split

theorem refuse_ok {c : Cmd} {r : Reply} {s : State} (hok : Ok P F s) : Ok P F (refuse c r s) := by
  unfold refuse
  try dsimp only
  repeat' first
    | with_reducible assumption | exact Ok.sys (by with_reducible assumption) | with_reducible apply complete_ok
    | with_reducible apply bump_ok | with_reducible apply Ok.sys | split

theorem runCmd_ok {r : CmdRef} {op : Nat} {chk : State → Cmd → Option Reply} {eff : Cmd → State → State} {s : State} (hg : ∀ c x, Ok P F x → Ok P F (eff c x)) (hok : Ok P F s) :
    Ok P F (runCmd r op chk eff s) := by
  unfold runCmd
  try dsimp only
  repeat' first
    | with_reducible assumption | exact Ok.sys (by with_reducible assumption) | apply hg | with_reducible apply refuse_ok
    | with_reducible apply Ok.sys | split

theorem setWaiting_ok {c : Cmd} {s : State} (hok : Ok P F s) : Ok P F (setWaiting c s) := by
  unfold setWaiting
  try dsimp only
  repeat' first
    | with_reducible assumption | exact Ok.sys (by with_reducible assumption)
    | (simp only [ok_mk]; with_reducible apply OkMk.upd)

theorem stagePut_ok {f key : Nat} {v : CfgVal} {s : State} (hok : Ok P F s) : Ok P F (stagePut f key v s) := by
  unfold stagePut
  try dsimp only
  repeat' first
    | with_reducible assumption | exact Ok.sys (by with_reducible assumption)
    | (simp only [ok_mk]; with_reducible apply OkMk.upd)

theorem stageCmd_ok {lay : List Fld} {bulkLen key : Nat} {c : Cmd} {s : State} (hok : Ok P F s) :
    Ok P F (stageCmd lay bulkLen key c s) := by
  unfold stageCmd
  try dsimp only
  repeat' first
    | with_reducible assumption | exact Ok.sys (by with_reducible assumption) | with_reducible apply complete_ok
    | with_reducible apply stagePut_ok

end Sys2Proof.Machine
end

