-- ==== Sys2Proof/Laws/KeepsHbmMap.lean ====
section
/-! SUPPORT. What each operation of Machine/HbmMap.lean keeps: see Laws/Keeps.lean. -/

namespace Sys2Proof.Machine

variable {P : List Instr} {F : Tbl Nat}

theorem hashMasks_length {t : Tbl CfgVal} : (hashMasks t).length = 10 := by
  unfold hashMasks
  split
  · rfl
  · split
    · rfl
    · simp

/-- The hash turns over bits below the stack number only. -/
theorem hashDelta_lt {masks : List Nat} {a : Nat} (h : masks.length = 10) : hashDelta masks a < 2 ^ 34 := by
  have key : ∀ x ∈ masks.zipIdx.map (fun m => parity (a &&& m.1) * 2 ^ hashedBit m.2), x ≤ 2 ^ 19 := by
    intro x hx
    obtain ⟨m, hm, rfl⟩ := List.mem_map.1 hx
    have hk := (List.mem_zipIdx hm).2.1
    have hp : parity (a &&& m.1) ≤ 1 := by unfold parity; omega
    have hb : hashedBit m.2 ≤ 19 := by unfold hashedBit; split <;> omega
    calc _ ≤ 1 * 2 ^ hashedBit m.2 := Nat.mul_le_mul_right _ hp
      _ ≤ 2 ^ 19 := by rw [Nat.one_mul]; exact Nat.pow_le_pow_right (by omega) hb
  have := List.sum_le_card_nsmul _ _ key
  simp [h] at this
  unfold hashDelta
  omega

theorem hashAddr_lt {masks : List Nat} {a : Nat} (h : masks.length = 10) (ha : a < Config.hbmEnd) :
    hashAddr masks a < Config.hbmEnd := by
  have e : hashAddr masks a / 2 ^ 34 = a / 2 ^ 34 := by
    rw [hashAddr, Nat.xor_div_two_pow, Nat.div_eq_of_lt (hashDelta_lt h), Nat.xor_zero]
  simp only [Config.hbmEnd] at *
  omega

theorem remapHbm_ok {old new : List Nat} (ho : old.length = 10) (hn : new.length = 10) {m : Mem} (h : hbmOk m) :
    hbmOk (remapHbm old new m) := by
  unfold remapHbm
  split
  · exact h
  · have key : ∀ (l : Mem) (t : Mem), (∀ c ∈ l, c.1 < Config.hbmEnd) → hbmOk t →
        hbmOk (l.foldl (fun t c => Mem.write t (hashAddr new (hashAddr old c.1)) c.2) t) := by
      intro l
      induction l with
      | nil => exact fun _ _ ht => ht
      | cons c l ih =>
        intro t hl ht
        refine ih _ (fun d hd => hl d (List.mem_cons_of_mem _ hd)) ⟨Mem.wf_write ht.1, ?_⟩
        exact Mem.below_writes (bs := [c.2]) ht.2 (hashAddr_lt hn (hashAddr_lt ho (hl c List.mem_cons_self)))
    exact key m [] h.2 hbmOk_nil

theorem remapAfter_ok {old : Tbl CfgVal} {s : State} (hok : Ok P F s) : Ok P F (remapAfter old s) :=
  ⟨hok.pending, remapHbm_ok hashMasks_length hashMasks_length hok.hbm, hok.stalls, hok.sys⟩

end Sys2Proof.Machine
end

