-- ==== Sys2Proof/Laws/KeepsGeometry.lean ====
section
/-! SUPPORT. What each operation of Machine/Geometry.lean keeps: see Laws/Keeps.lean. -/

namespace Sys2Proof.Machine

variable {P : List Instr} {F : Tbl Nat}

theorem endCarried_ok {old new : Tbl CfgVal} {s : State} (hok : Ok P F s) : Ok P F (endCarried old new s) := by
  unfold endCarried
  try dsimp only
  repeat' first
    | with_reducible assumption | exact Ok.sys (by with_reducible assumption) | with_reducible apply modStream_ok
    | (with_reducible apply Ok.foldl; intro _ _ _) | with_reducible apply Ok.sys | split

end Sys2Proof.Machine
end

