-- ==== Sys2Proof/Laws/KeepsAdmit.lean ====
section
/-! SUPPORT. What each operation of Machine/Admit.lean keeps: see Laws/Keeps.lean. -/

namespace Sys2Proof.Machine

variable {P : List Instr} {F : Tbl Nat}

theorem settled_ok {s : State} (hok : Ok P F s) : Ok P F (settled s) := by
  unfold settled
  try dsimp only
  repeat' first
    | with_reducible assumption | exact Ok.sys (by with_reducible assumption)
    | (simp only [ok_mk]; with_reducible apply OkMk.upd) | (simp only [sys_mk]; with_reducible apply SysMk.upd)

end Sys2Proof.Machine
end

