-- ==== Sys2Proof/Laws/KeepsAxis.lean ====
section
/-! SUPPORT. What each operation of Machine/Axis.lean keeps: see Laws/Keeps.lean. -/

namespace Sys2Proof.Machine

variable {P : List Instr} {F : Tbl Nat}

theorem modAxis_ok {a : Nat} {g : Axis → Axis} {s : State} (hok : Ok P F s) : Ok P F (modAxis a g s) := by
  unfold modAxis
  try dsimp only
  repeat' first
    | with_reducible assumption | exact Ok.sys (by with_reducible assumption)
    | (simp only [ok_mk]; with_reducible apply OkMk.upd)

theorem clearOverspeed_ok {s : State} (hok : Ok P F s) : Ok P F (clearOverspeed s) := by
  unfold clearOverspeed
  try dsimp only
  repeat' first
    | with_reducible assumption | exact Ok.sys (by with_reducible assumption)
    | (simp only [ok_mk]; with_reducible apply OkMk.upd)

theorem takeLens_ok {t : Tbl CfgVal} {i : Nat} {held : Bool} {s : State} (hok : Ok P F s) :
    Ok P F (takeLens t i held s) := by
  unfold takeLens
  try dsimp only
  repeat' first
    | with_reducible assumption | exact Ok.sys (by with_reducible assumption) | with_reducible apply modStream_ok

theorem latchLens_ok {t : Tbl CfgVal} {i : Nat} {s : State} (hok : Ok P F s) : Ok P F (latchLens t i s) := by
  unfold latchLens
  try dsimp only
  repeat' first
    | with_reducible assumption | exact Ok.sys (by with_reducible assumption) | with_reducible apply takeLens_ok
    | with_reducible apply Ok.sys | split

theorem latchAtCommit_ok {s : State} (hok : Ok P F s) : Ok P F (latchAtCommit s) := by
  unfold latchAtCommit
  try dsimp only
  repeat' first
    | with_reducible assumption | exact Ok.sys (by with_reducible assumption) | with_reducible apply takeLens_ok
    | (with_reducible apply Ok.foldl; intro _ _ _)

end Sys2Proof.Machine
end

