-- ==== Sys2Proof/Laws/KeepsEpoch.lean ====
section
/-! SUPPORT. What each operation of Machine/Epoch.lean keeps: see Laws/Keeps.lean. -/

namespace Sys2Proof.Machine

variable {P : List Instr} {F : Tbl Nat}

theorem switchKeys_ok {p : Nat → Bool} {s : State} (hok : Ok P F s) : Ok P F (switchKeys p s) := by
  unfold switchKeys
  try dsimp only
  repeat' first
    | with_reducible assumption | exact Ok.sys (by with_reducible assumption)
    | (simp only [ok_mk]; with_reducible apply OkMk.upd)

theorem switchStream_ok {i : Nat} {s : State} (hok : Ok P F s) : Ok P F (switchStream i s) := by
  unfold switchStream
  try dsimp only
  repeat' first
    | with_reducible assumption | exact Ok.sys (by with_reducible assumption) | with_reducible apply switchKeys_ok

theorem leaveSafe_ok {e : Staged} {s : State} (hok : Ok P F s) : Ok P F (leaveSafe e s) := by
  unfold leaveSafe
  try dsimp only
  repeat' first
    | with_reducible assumption | exact Ok.sys (by with_reducible assumption)
    | (simp only [ok_mk]; with_reducible apply OkMk.upd) | with_reducible apply Ok.sys | split

theorem startLeavesSafe_ok {cls inst : Nat} {s : State} (hok : Ok P F s) : Ok P F (startLeavesSafe cls inst s) := by
  unfold startLeavesSafe
  try dsimp only
  repeat' first
    | with_reducible assumption | exact Ok.sys (by with_reducible assumption)
    | (simp only [ok_mk]; with_reducible apply OkMk.upd)

theorem sweepSessions_ok {s : State} (hok : Ok P F s) : Ok P F (sweepSessions s) := by
  unfold sweepSessions
  try dsimp only
  repeat' first
    | with_reducible assumption | exact Ok.sys (by with_reducible assumption)
    | (simp only [ok_mk]; with_reducible apply OkMk.upd)

theorem modNet_ok {p : Nat} {g : NetPort → NetPort} {s : State} (hok : Ok P F s) : Ok P F (modNet p g s) := by
  unfold modNet
  try dsimp only
  repeat' first
    | with_reducible assumption | exact Ok.sys (by with_reducible assumption)
    | (simp only [ok_mk]; with_reducible apply OkMk.upd)

theorem countAt_ok {p i n : Nat} {s : State} (hok : Ok P F s) : Ok P F (countAt p i n s) := by
  unfold countAt
  try dsimp only
  repeat' first
    | with_reducible assumption | exact Ok.sys (by with_reducible assumption) | with_reducible apply modNet_ok

theorem netTx_ok {p sub : Nat} {frame : List Byte} {s : State} (hok : Ok P F s) : Ok P F (netTx p sub frame s) := by
  unfold netTx
  try dsimp only
  repeat' first
    | with_reducible assumption | exact Ok.sys (by with_reducible assumption) | with_reducible apply countAt_ok
    | with_reducible apply emit_ok | with_reducible apply Ok.sys | split

theorem joinGroups_ok {img : List Staged} {s : State} (hok : Ok P F s) : Ok P F (joinGroups img s) := by
  unfold joinGroups
  try dsimp only
  repeat' first
    | with_reducible assumption | exact Ok.sys (by with_reducible assumption) | with_reducible apply netTx_ok
    | (with_reducible apply Ok.foldl; intro _ _ _)

theorem dropSched_ok {r : CmdRef} {s : State} (hok : Ok P F s) : Ok P F (dropSched r s) := by
  unfold dropSched
  try dsimp only
  repeat' first
    | with_reducible assumption | exact Ok.sys (by with_reducible assumption)
    | (simp only [ok_mk]; with_reducible apply OkMk.upd)

theorem returnImage_ok {x : Sched} {s : State} (hok : Ok P F s) : Ok P F (returnImage x s) := by
  unfold returnImage
  try dsimp only
  repeat' first
    | with_reducible assumption | exact Ok.sys (by with_reducible assumption)
    | (simp only [ok_mk]; with_reducible apply OkMk.upd)

theorem returnImages_ok {l : List Sched} {s : State} (hok : Ok P F s) : Ok P F (returnImages l s) := by
  unfold returnImages
  try dsimp only
  repeat' first
    | with_reducible assumption | exact Ok.sys (by with_reducible assumption) | with_reducible apply returnImage_ok
    | with_reducible apply dropSched_ok | (with_reducible apply Ok.foldl; intro _ _ _)

theorem returnUngone_ok {s : State} (hok : Ok P F s) : Ok P F (returnUngone s) := by
  unfold returnUngone
  try dsimp only
  repeat' first
    | with_reducible assumption | exact Ok.sys (by with_reducible assumption) | with_reducible apply returnImages_ok
    | with_reducible apply Ok.sys | split

theorem takeNumber_ok {x : Sched} {s : State} (hok : Ok P F s) : Ok P F (takeNumber x s).2 := by
  unfold takeNumber
  try dsimp only
  repeat' first
    | with_reducible assumption | exact Ok.sys (by with_reducible assumption) | with_reducible apply giveNumber_ok
    | with_reducible apply Ok.sys | split

theorem zeroService_ok {keys : List Nat} {s : State} (hok : Ok P F s) : Ok P F (zeroService keys s) := by
  unfold zeroService
  try dsimp only
  repeat' first
    | with_reducible assumption | exact Ok.sys (by with_reducible assumption) | with_reducible apply modStream_ok
    | (with_reducible apply Ok.foldl; intro _ _ _)

theorem applyImage_ok {x : Sched} {n : Word} {s : State} (hok : Ok P F s) : Ok P F (applyImage x n s) := by
  unfold applyImage
  try dsimp only
  repeat' first
    | with_reducible assumption | exact Ok.sys (by with_reducible assumption) | with_reducible apply latchAtCommit_ok
    | with_reducible apply remapAfter_ok | with_reducible apply endCarried_ok | with_reducible apply zeroService_ok
    | with_reducible apply joinGroups_ok | with_reducible apply leaveSafe_ok | with_reducible apply switchKeys_ok
    | (with_reducible apply Ok.foldl; intro _ _ _) | (simp only [ok_mk]; with_reducible apply OkMk.upd)

theorem completeCommit_ok {x : Sched} {more : Nat} {s : State} (hok : Ok P F s) : Ok P F (completeCommit x more s) := by
  unfold completeCommit
  try dsimp only
  repeat' first
    | with_reducible assumption | exact Ok.sys (by with_reducible assumption) | with_reducible apply complete_ok
    | with_reducible apply Ok.sys | split

theorem noteApplied_ok {x : Sched} {serial number : Nat} {s : State} (hok : Ok P F s) :
    Ok P F (noteApplied x serial number s) := by
  unfold noteApplied
  try dsimp only
  repeat' first
    | with_reducible assumption | exact Ok.sys (by with_reducible assumption)
    | (simp only [ok_mk]; with_reducible apply OkMk.upd)

theorem applyCommit_ok {x : Sched} {s : State} (hok : Ok P F s) : Ok P F (applyCommit x s) := by
  unfold applyCommit
  try dsimp only
  repeat' first
    | with_reducible assumption | exact Ok.sys (by with_reducible assumption) | with_reducible apply takeNumber_ok
    | with_reducible apply noteApplied_ok | with_reducible apply applyImage_ok | with_reducible apply dropSched_ok
    | with_reducible apply completeCommit_ok | with_reducible apply Ok.sys | split

theorem execEpochCommitApply_ok {r : CmdRef} {s : State} {u : State} (hok : Ok P F s) (he : execEpochCommitApply r s = .next u) :
    Ok P F u := by
  obtain rfl := Host.Outcome.next.inj he
  try dsimp only
  repeat' first
    | with_reducible assumption | exact Ok.sys (by with_reducible assumption) | with_reducible apply applyCommit_ok
    | with_reducible apply Ok.sys | split

theorem scheduleCommit_ok {c : Cmd} {s : State} (hok : Ok P F s) : Ok P F (scheduleCommit c s) := by
  unfold scheduleCommit
  try dsimp only
  repeat' first
    | with_reducible assumption | exact Ok.sys (by with_reducible assumption) | with_reducible apply setWaiting_ok
    | with_reducible apply tthSend_ok | with_reducible apply tthBroadcast_ok
    | (simp only [ok_mk]; with_reducible apply OkMk.upd) | with_reducible apply Ok.sys | split

theorem execEpochCommit_ok {r : CmdRef} {s : State} {u : State} (hok : Ok P F s) (he : execEpochCommit r s = .next u) :
    Ok P F u := by
  obtain rfl := Host.Outcome.next.inj he
  try dsimp only
  repeat' first
    | with_reducible assumption | exact Ok.sys (by with_reducible assumption) | with_reducible apply runCmd_ok
    | with_reducible apply scheduleCommit_ok

theorem execEpochCommitAt_ok {r : CmdRef} {s : State} {u : State} (hok : Ok P F s) (he : execEpochCommitAt r s = .next u) :
    Ok P F u := by
  obtain rfl := Host.Outcome.next.inj he
  try dsimp only
  repeat' first
    | with_reducible assumption | exact Ok.sys (by with_reducible assumption) | with_reducible apply runCmd_ok
    | with_reducible apply scheduleCommit_ok

theorem effectEpochStage_ok {c : Cmd} {t : State} (hok : Ok P F t) : Ok P F (effectEpochStage c t) := by
  unfold effectEpochStage
  try dsimp only
  repeat' first
    | with_reducible assumption | exact Ok.sys (by with_reducible assumption) | with_reducible apply complete_ok

theorem execEpochStage_ok {r : CmdRef} {s : State} {u : State} (hok : Ok P F s) (he : execEpochStage r s = .next u) :
    Ok P F u := by
  obtain rfl := Host.Outcome.next.inj he
  try dsimp only
  repeat' first
    | with_reducible assumption | exact Ok.sys (by with_reducible assumption) | with_reducible apply runCmd_ok
    | with_reducible apply effectEpochStage_ok

theorem discardStaged_ok {f scope : Nat} {s : State} (hok : Ok P F s) : Ok P F (discardStaged f scope s) := by
  unfold discardStaged
  try dsimp only
  repeat' first
    | with_reducible assumption | exact Ok.sys (by with_reducible assumption) | with_reducible apply sweepSessions_ok
    | (simp only [ok_mk]; with_reducible apply OkMk.upd)

theorem effectEpochDiscard_ok {c : Cmd} {t : State} (hok : Ok P F t) : Ok P F (effectEpochDiscard c t) := by
  unfold effectEpochDiscard
  try dsimp only
  repeat' first
    | with_reducible assumption | exact Ok.sys (by with_reducible assumption) | with_reducible apply tthBroadcast_ok
    | with_reducible apply complete_ok | with_reducible apply discardStaged_ok | with_reducible apply Ok.sys | split

theorem execEpochDiscard_ok {r : CmdRef} {s : State} {u : State} (hok : Ok P F s) (he : execEpochDiscard r s = .next u) :
    Ok P F u := by
  obtain rfl := Host.Outcome.next.inj he
  try dsimp only
  repeat' first
    | with_reducible assumption | exact Ok.sys (by with_reducible assumption) | with_reducible apply runCmd_ok
    | with_reducible apply effectEpochDiscard_ok

theorem effectEpochQuery_ok {c : Cmd} {t : State} (hok : Ok P F t) : Ok P F (effectEpochQuery c t) := by
  unfold effectEpochQuery
  try dsimp only
  repeat' first
    | with_reducible assumption | exact Ok.sys (by with_reducible assumption) | with_reducible apply complete_ok

theorem execEpochQuery_ok {r : CmdRef} {s : State} {u : State} (hok : Ok P F s) (he : execEpochQuery r s = .next u) :
    Ok P F u := by
  obtain rfl := Host.Outcome.next.inj he
  try dsimp only
  repeat' first
    | with_reducible assumption | exact Ok.sys (by with_reducible assumption) | with_reducible apply runCmd_ok
    | with_reducible apply effectEpochQuery_ok

theorem setProfile_ok {p : Nat} {s : State} (hok : Ok P F s) : Ok P F (setProfile p s) := by
  unfold setProfile
  try dsimp only
  repeat' first
    | with_reducible assumption | exact Ok.sys (by with_reducible assumption) | with_reducible apply raise_ok
    | (simp only [ok_mk]; with_reducible apply OkMk.upd) | (simp only [sys_mk]; with_reducible apply SysMk.upd)

theorem profileEffect_ok {c : Cmd} {s : State} (hok : Ok P F s) : Ok P F (profileEffect c s) := by
  unfold profileEffect
  try dsimp only
  repeat' first
    | with_reducible assumption | exact Ok.sys (by with_reducible assumption) | with_reducible apply bump_ok
    | with_reducible apply complete_ok | with_reducible apply setWaiting_ok | with_reducible apply setProfile_ok
    | (simp only [ok_mk]; with_reducible apply OkMk.upd) | (simp only [sys_mk]; with_reducible apply SysMk.upd)
    | with_reducible apply Ok.sys | split

theorem execSysProfileCommit_ok {r : CmdRef} {s : State} {u : State} (hok : Ok P F s) (he : execSysProfileCommit r s = .next u) :
    Ok P F u := by
  obtain rfl := Host.Outcome.next.inj he
  try dsimp only
  repeat' first
    | with_reducible assumption | exact Ok.sys (by with_reducible assumption) | with_reducible apply runCmd_ok
    | with_reducible apply profileEffect_ok

theorem applyProfile_ok {s : State} (hok : Ok P F s) : Ok P F (applyProfile s) := by
  unfold applyProfile
  try dsimp only
  repeat' first
    | with_reducible assumption | exact Ok.sys (by with_reducible assumption) | with_reducible apply setProfile_ok
    | with_reducible apply complete_ok | (simp only [ok_mk]; with_reducible apply OkMk.upd)
    | (simp only [sys_mk]; with_reducible apply SysMk.upd) | with_reducible apply Ok.sys | split

theorem execProfileApply_ok {s : State} {u : State} (hok : Ok P F s) (he : execProfileApply s = .next u) : Ok P F u := by
  obtain rfl := Host.Outcome.next.inj he
  try dsimp only
  repeat' first
    | with_reducible assumption | exact Ok.sys (by with_reducible assumption) | with_reducible apply applyProfile_ok
    | with_reducible apply Ok.sys | split

theorem endStop_ok {s : State} (hok : Ok P F s) : Ok P F (endStop s) := by
  unfold endStop
  try dsimp only
  repeat' first
    | with_reducible assumption | exact Ok.sys (by with_reducible assumption)
    | (simp only [ok_mk]; with_reducible apply OkMk.upd) | (simp only [sys_mk]; with_reducible apply SysMk.upd)
    | with_reducible apply Ok.sys | split

theorem effectSysResume_ok {c : Cmd} {t : State} (hok : Ok P F t) : Ok P F (effectSysResume c t) := by
  unfold effectSysResume
  try dsimp only
  repeat' first
    | with_reducible assumption | exact Ok.sys (by with_reducible assumption) | with_reducible apply complete_ok
    | with_reducible apply endStop_ok

theorem execSysResume_ok {r : CmdRef} {s : State} {u : State} (hok : Ok P F s) (he : execSysResume r s = .next u) :
    Ok P F u := by
  obtain rfl := Host.Outcome.next.inj he
  try dsimp only
  repeat' first
    | with_reducible assumption | exact Ok.sys (by with_reducible assumption) | with_reducible apply runCmd_ok
    | with_reducible apply effectSysResume_ok

theorem effectSysLinkPolicy_ok {c : Cmd} {t : State} (hok : Ok P F t) : Ok P F (effectSysLinkPolicy c t) := by
  unfold effectSysLinkPolicy
  try dsimp only
  repeat' first
    | with_reducible assumption | exact Ok.sys (by with_reducible assumption) | with_reducible apply complete_ok
    | (simp only [ok_mk]; with_reducible apply OkMk.upd) | (simp only [sys_mk]; with_reducible apply SysMk.upd)

theorem execSysLinkPolicy_ok {r : CmdRef} {s : State} {u : State} (hok : Ok P F s) (he : execSysLinkPolicy r s = .next u) :
    Ok P F u := by
  obtain rfl := Host.Outcome.next.inj he
  try dsimp only
  repeat' first
    | with_reducible assumption | exact Ok.sys (by with_reducible assumption) | with_reducible apply runCmd_ok
    | with_reducible apply effectSysLinkPolicy_ok

theorem openResults_ok {c : Cmd} {s : State} (hok : Ok P F s) : Ok P F (openResults c s) := by
  unfold openResults
  try dsimp only
  repeat' first
    | with_reducible assumption | exact Ok.sys (by with_reducible assumption) | with_reducible apply complete_ok
    | with_reducible apply bump_ok

theorem execSysInfo_ok {r : CmdRef} {s : State} {u : State} (hok : Ok P F s) (he : execSysInfo r s = .next u) :
    Ok P F u := by
  obtain rfl := Host.Outcome.next.inj he
  try dsimp only
  repeat' first
    | with_reducible assumption | exact Ok.sys (by with_reducible assumption) | with_reducible apply runCmd_ok
    | with_reducible apply openResults_ok

theorem setWindow_ok {f kib : Nat} {s : State} (hok : Ok P F s) : Ok P F (setWindow f kib s) := by
  unfold setWindow
  try dsimp only
  repeat' first
    | with_reducible assumption | exact Ok.sys (by with_reducible assumption) | with_reducible apply modStall_ok
    | with_reducible apply Ok.sys | split | (intro _ hx; dsimp only; split <;> first | exact hx | exact Mem.wf_clear hx)

theorem effectStallConfigure_ok {c : Cmd} {t : State} (hok : Ok P F t) : Ok P F (effectStallConfigure c t) := by
  unfold effectStallConfigure
  try dsimp only
  repeat' first
    | with_reducible assumption | exact Ok.sys (by with_reducible assumption) | with_reducible apply complete_ok
    | with_reducible apply setWindow_ok

theorem execStallConfigure_ok {r : CmdRef} {s : State} {u : State} (hok : Ok P F s) (he : execStallConfigure r s = .next u) :
    Ok P F u := by
  obtain rfl := Host.Outcome.next.inj he
  try dsimp only
  repeat' first
    | with_reducible assumption | exact Ok.sys (by with_reducible assumption) | with_reducible apply runCmd_ok
    | with_reducible apply effectStallConfigure_ok

theorem effectFuncShares_ok {c : Cmd} {t : State} (hok : Ok P F t) : Ok P F (effectFuncShares c t) := by
  unfold effectFuncShares
  try dsimp only
  repeat' first
    | with_reducible assumption | exact Ok.sys (by with_reducible assumption) | with_reducible apply stageCmd_ok

theorem execFuncShares_ok {r : CmdRef} {s : State} {u : State} (hok : Ok P F s) (he : execFuncShares r s = .next u) :
    Ok P F u := by
  obtain rfl := Host.Outcome.next.inj he
  try dsimp only
  repeat' first
    | with_reducible assumption | exact Ok.sys (by with_reducible assumption) | with_reducible apply runCmd_ok
    | with_reducible apply effectFuncShares_ok

theorem execFuncQuery_ok {r : CmdRef} {s : State} {u : State} (hok : Ok P F s) (he : execFuncQuery r s = .next u) :
    Ok P F u := by
  obtain rfl := Host.Outcome.next.inj he
  try dsimp only
  repeat' first
    | with_reducible assumption | exact Ok.sys (by with_reducible assumption) | with_reducible apply runCmd_ok
    | with_reducible apply openResults_ok

theorem orderSafe_ok {u : Nat} {s : State} (hok : Ok P F s) : Ok P F (orderSafe u s) := by
  unfold orderSafe
  try dsimp only
  repeat' first
    | with_reducible assumption | exact Ok.sys (by with_reducible assumption) | with_reducible apply tthSend_ok
    | (simp only [ok_mk]; with_reducible apply OkMk.upd) | with_reducible apply Ok.sys | split

theorem orderUnits_ok {f : Nat} {s : State} (hok : Ok P F s) : Ok P F (orderUnits f s) := by
  unfold orderUnits
  try dsimp only
  repeat' first
    | with_reducible assumption | exact Ok.sys (by with_reducible assumption) | with_reducible apply orderSafe_ok
    | (with_reducible apply Ok.foldl; intro _ _ _)

theorem effectFuncResetUnits_ok {c : Cmd} {t : State} (hok : Ok P F t) : Ok P F (effectFuncResetUnits c t) := by
  unfold effectFuncResetUnits
  try dsimp only
  repeat' first
    | with_reducible assumption | exact Ok.sys (by with_reducible assumption) | with_reducible apply complete_ok
    | with_reducible apply orderUnits_ok

theorem execFuncResetUnits_ok {r : CmdRef} {s : State} {u : State} (hok : Ok P F s) (he : execFuncResetUnits r s = .next u) :
    Ok P F u := by
  obtain rfl := Host.Outcome.next.inj he
  try dsimp only
  repeat' first
    | with_reducible assumption | exact Ok.sys (by with_reducible assumption) | with_reducible apply runCmd_ok
    | with_reducible apply effectFuncResetUnits_ok

end Sys2Proof.Machine
end

