-- ==== Sys2Proof/Laws/KeepsBinding.lean ====
section
/-! SUPPORT. What each operation of Machine/Binding.lean keeps: see Laws/Keeps.lean. -/

namespace Sys2Proof.Machine

variable {P : List Instr} {F : Tbl Nat}

theorem setOwner_ok {u f : Nat} {s : State} (hok : Ok P F s) : Ok P F (setOwner u f s) := by
  unfold setOwner
  try dsimp only
  repeat' first
    | with_reducible assumption | exact Ok.sys (by with_reducible assumption)
    | (simp only [ok_mk]; with_reducible apply OkMk.upd)

theorem addRebind_ok {w : Rebind} {s : State} (hok : Ok P F s) : Ok P F (addRebind w s) := by
  unfold addRebind
  try dsimp only
  repeat' first
    | with_reducible assumption | exact Ok.sys (by with_reducible assumption)
    | (simp only [ok_mk]; with_reducible apply OkMk.upd)

theorem bindEffect_ok {c : Cmd} {s : State} (hok : Ok P F s) : Ok P F (bindEffect c s) := by
  unfold bindEffect
  try dsimp only
  repeat' first
    | with_reducible assumption | exact Ok.sys (by with_reducible assumption) | with_reducible apply setWaiting_ok
    | with_reducible apply addRebind_ok | with_reducible apply tthSend_ok | with_reducible apply Ok.sys | split

theorem execBindAssign_ok {r : CmdRef} {s : State} {u : State} (hok : Ok P F s) (he : execBindAssign r s = .next u) :
    Ok P F u := by
  obtain rfl := Host.Outcome.next.inj he
  try dsimp only
  repeat' first
    | with_reducible assumption | exact Ok.sys (by with_reducible assumption) | with_reducible apply runCmd_ok
    | with_reducible apply bindEffect_ok

theorem execBindRelease_ok {r : CmdRef} {s : State} {u : State} (hok : Ok P F s) (he : execBindRelease r s = .next u) :
    Ok P F u := by
  obtain rfl := Host.Outcome.next.inj he
  try dsimp only
  repeat' first
    | with_reducible assumption | exact Ok.sys (by with_reducible assumption) | with_reducible apply runCmd_ok
    | with_reducible apply bindEffect_ok

theorem effectBindQuery_ok {c : Cmd} {t : State} (hok : Ok P F t) : Ok P F (effectBindQuery c t) := by
  unfold effectBindQuery
  try dsimp only
  repeat' first
    | with_reducible assumption | exact Ok.sys (by with_reducible assumption) | with_reducible apply complete_ok

theorem execBindQuery_ok {r : CmdRef} {s : State} {u : State} (hok : Ok P F s) (he : execBindQuery r s = .next u) :
    Ok P F u := by
  obtain rfl := Host.Outcome.next.inj he
  try dsimp only
  repeat' first
    | with_reducible assumption | exact Ok.sys (by with_reducible assumption) | with_reducible apply runCmd_ok
    | with_reducible apply effectBindQuery_ok

theorem withdraw_ok {c : Cmd} {s : State} (hok : Ok P F s) : Ok P F (withdraw c s) := by
  unfold withdraw
  try dsimp only
  repeat' first
    | with_reducible assumption | exact Ok.sys (by with_reducible assumption)
    | (simp only [ok_mk]; with_reducible apply OkMk.upd) | (simp only [sys_mk]; with_reducible apply SysMk.upd)

theorem returnQueued_ok {u epoch : Nat} {s : State} (hok : Ok P F s) : Ok P F (returnQueued u epoch s) := by
  unfold returnQueued
  try dsimp only
  repeat' first
    | with_reducible assumption | exact Ok.sys (by with_reducible assumption) | with_reducible apply completeWith_ok
    | with_reducible apply withdraw_ok | (with_reducible apply Ok.foldl; intro _ _ _)

theorem discardUnit_ok {u : Nat} {s : State} (hok : Ok P F s) : Ok P F (discardUnit u s) := by
  unfold discardUnit
  try dsimp only
  repeat' first
    | with_reducible assumption | exact Ok.sys (by with_reducible assumption) | with_reducible apply sweepSessions_ok
    | (simp only [ok_mk]; with_reducible apply OkMk.upd)

theorem bindEvent_ok {code f : Nat} {r : UnitRef} {epoch detail : Nat} {s : State} (hok : Ok P F s) :
    Ok P F (bindEvent code f r epoch detail s) := by
  unfold bindEvent
  try dsimp only
  repeat' first
    | with_reducible assumption | exact Ok.sys (by with_reducible assumption) | with_reducible apply postEvent_ok

theorem tellOwner_ok {r : UnitRef} {f epoch : Nat} {s : State} (hok : Ok P F s) : Ok P F (tellOwner r f epoch s) := by
  unfold tellOwner
  try dsimp only
  repeat' first
    | with_reducible assumption | exact Ok.sys (by with_reducible assumption) | with_reducible apply tthSend_ok
    | with_reducible apply Ok.sys | split

theorem unbind_ok {u : Nat} {s : State} (hok : Ok P F s) : Ok P F (unbind u s) := by
  unfold unbind
  try dsimp only
  repeat' first
    | with_reducible assumption | exact Ok.sys (by with_reducible assumption) | with_reducible apply discardUnit_ok
    | with_reducible apply returnQueued_ok

theorem applyRebind_ok {w : Rebind} {far : Unbound} {s : State} (hok : Ok P F s) : Ok P F (applyRebind w far s) := by
  unfold applyRebind
  try dsimp only
  repeat' first
    | with_reducible assumption | exact Ok.sys (by with_reducible assumption) | with_reducible apply bindEvent_ok
    | with_reducible apply unbind_ok | with_reducible apply tellOwner_ok | with_reducible apply reroutedAll_ok
    | with_reducible apply complete_ok | (simp only [ok_mk]; with_reducible apply OkMk.upd) | with_reducible apply Ok.sys
    | split

theorem unbindFor_ok {w : Rebind} {u : Nat} {s : State} (hok : Ok P F s) : Ok P F (unbindFor w u s) := by
  unfold unbindFor
  try dsimp only
  repeat' first
    | with_reducible assumption | exact Ok.sys (by with_reducible assumption) | with_reducible apply tthSend_ok
    | with_reducible apply unbind_ok | (simp only [ok_mk]; with_reducible apply OkMk.upd)

theorem execRebindingApply_ok {unit : UnitRef} {s : State} {u : State} (hok : Ok P F s) (he : execRebindingApply unit s = .next u) :
    Ok P F u := by
  obtain rfl := Host.Outcome.next.inj he
  try dsimp only
  repeat' first
    | with_reducible assumption | exact Ok.sys (by with_reducible assumption) | with_reducible apply applyRebind_ok
    | with_reducible apply unbindFor_ok | with_reducible apply Ok.sys | split

theorem addRelease_ok {r : UnitRef} {s : State} (hok : Ok P F s) : Ok P F (addRelease r s) := by
  unfold addRelease
  try dsimp only
  repeat' first
    | with_reducible assumption | exact Ok.sys (by with_reducible assumption)
    | (simp only [ok_mk]; with_reducible apply OkMk.upd)

theorem tellRelease_ok {r : UnitRef} {s : State} (hok : Ok P F s) : Ok P F (tellRelease r s) := by
  unfold tellRelease
  try dsimp only
  repeat' first
    | with_reducible assumption | exact Ok.sys (by with_reducible assumption) | with_reducible apply tthSend_ok
    | with_reducible apply Ok.sys | split

theorem releaseUnits_ok {f : Nat} {s : State} (hok : Ok P F s) : Ok P F (releaseUnits f s) := by
  unfold releaseUnits
  try dsimp only
  repeat' first
    | with_reducible assumption | exact Ok.sys (by with_reducible assumption) | with_reducible apply orderSafe_ok
    | with_reducible apply tellRelease_ok | with_reducible apply addRelease_ok | (with_reducible apply Ok.foldl; intro _ _ _)

theorem endFunctions_ok {keep : Nat} {g : State → State} {s : State} (hg : ∀ x, Ok P F x → Ok P F (g x)) (h : Ok P F s) :
    Ok P F (endFunctions keep g s) :=
  have h1 := Ok.foldl (fun t f ht => releaseUnits_ok (f := f) ht)
    (l := ((List.range 15).map (· + 1)).filter fun f => fnExists s f && decide (keep < f)) h
  reroutedAll_ok (hg _ ⟨h1.pending, h1.hbm, h1.stalls, h1.sys⟩)

theorem clearVf_ok {s : State} (hok : Ok P F s) : Ok P F (clearVf s) := by
  unfold clearVf
  try dsimp only
  repeat' first
    | with_reducible assumption | exact Ok.sys (by with_reducible assumption)
    | (simp only [ok_mk]; with_reducible apply OkMk.upd) | (simp only [sys_mk]; with_reducible apply SysMk.upd)

theorem execVfEnableClear_ok {s : State} {u : State} (hok : Ok P F s) (he : execVfEnableClear s = .next u) :
    Ok P F u := by
  obtain rfl := Host.Outcome.next.inj he
  try dsimp only
  repeat' first
    | with_reducible assumption | exact Ok.sys (by with_reducible assumption) | with_reducible apply endFunctions_ok
    | with_reducible apply clearVf_ok | with_reducible apply Ok.sys | split

theorem execVfEnableSet_ok {s : State} {u : State} (hok : Ok P F s) (he : execVfEnableSet s = .next u) : Ok P F u := by
  obtain rfl := Host.Outcome.next.inj he
  try dsimp only
  repeat' first
    | with_reducible assumption | exact Ok.sys (by with_reducible assumption) | with_reducible apply reroutedAll_ok
    | (simp only [ok_mk]; with_reducible apply OkMk.upd) | (simp only [sys_mk]; with_reducible apply SysMk.upd)
    | with_reducible apply Ok.sys | split

theorem execNumvfsWrite_ok {value : Nat} {s : State} {u : State} (hok : Ok P F s) (he : execNumvfsWrite value s = .next u) :
    Ok P F u := by
  obtain rfl := Host.Outcome.next.inj he
  try dsimp only
  repeat' first
    | with_reducible assumption | exact Ok.sys (by with_reducible assumption) | with_reducible apply endFunctions_ok
    | (simp only [ok_mk]; with_reducible apply OkMk.upd) | (simp only [sys_mk]; with_reducible apply SysMk.upd)
    | with_reducible apply Ok.sys | split | (intro _ _ _ _) | (intro _ _ _) | (intro _ _)

theorem tellMembers_ok {m : GroomMsg} {s : State} (hok : Ok P F s) : Ok P F (tellMembers m s) := by
  unfold tellMembers
  try dsimp only
  repeat' first
    | with_reducible assumption | exact Ok.sys (by with_reducible assumption) | with_reducible apply tthBroadcast_ok
    | with_reducible apply Ok.sys | split

theorem abortAll_ok {s : State} (hok : Ok P F s) : Ok P F (abortAll s) := by
  unfold abortAll
  try dsimp only
  repeat' first
    | with_reducible assumption | exact Ok.sys (by with_reducible assumption) | (intro _ hx; with_reducible exact hx)
    | with_reducible apply modStall_ok | with_reducible apply complete_ok | with_reducible apply withdraw_ok
    | (with_reducible apply Ok.foldl; intro _ _ _)

theorem recordReset_ok {kind : Nat} {s : State} (h : Ok P F s) : Ok P F (recordReset kind s) :=
  ⟨h.pending, h.hbm, h.stalls.map fun _ hx => hx, h.sys⟩

theorem msixOff_ok {s : State} (hok : Ok P F s) : Ok P F (msixOff s) := by
  unfold msixOff
  try dsimp only
  repeat' first
    | with_reducible assumption | exact Ok.sys (by with_reducible assumption)
    | (simp only [ok_mk]; with_reducible apply OkMk.upd)

theorem safeAll_ok {s : State} (hok : Ok P F s) : Ok P F (safeAll s) := by
  unfold safeAll
  try dsimp only
  repeat' first
    | with_reducible assumption | exact Ok.sys (by with_reducible assumption) | with_reducible apply orderSafe_ok
    | (with_reducible apply Ok.foldl; intro _ _ _) | with_reducible apply Ok.sys | split

theorem linkLost_ok {kind : Nat} {s : State} (hok : Ok P F s) : Ok P F (linkLost kind s) := by
  unfold linkLost
  try dsimp only
  repeat' first
    | with_reducible assumption | exact Ok.sys (by with_reducible assumption) | with_reducible apply tellMembers_ok
    | with_reducible apply safeAll_ok | with_reducible apply abortAll_ok | with_reducible apply recordReset_ok
    | with_reducible apply msixOff_ok | with_reducible apply lanesTurn_ok | (simp only [ok_mk]; with_reducible apply OkMk.upd)
    | (simp only [sys_mk]; with_reducible apply SysMk.upd)

theorem execLinkReset_ok {hot : Bool} {s : State} {u : State} (hok : Ok P F s) (he : execLinkReset hot s = .next u) :
    Ok P F u := by
  obtain rfl := Host.Outcome.next.inj he
  try dsimp only
  repeat' first
    | with_reducible assumption | exact Ok.sys (by with_reducible assumption) | with_reducible apply linkLost_ok
    | with_reducible apply Ok.sys | split

theorem clearConfig_ok {s : State} (hok : Ok P F s) : Ok P F (clearConfig s) := by
  unfold clearConfig
  try dsimp only
  repeat' first
    | with_reducible assumption | exact Ok.sys (by with_reducible assumption)
    | (simp only [ok_mk]; with_reducible apply OkMk.upd) | (simp only [sys_mk]; with_reducible apply SysMk.upd)

theorem execPerstN_ok {s : State} {u : State} (hok : Ok P F s) (he : execPerstN s = .next u) : Ok P F u := by
  obtain rfl := Host.Outcome.next.inj he
  try dsimp only
  repeat' first
    | with_reducible assumption | exact Ok.sys (by with_reducible assumption) | with_reducible apply endFunctions_ok
    | with_reducible apply clearConfig_ok | with_reducible apply linkLost_ok | with_reducible apply Ok.sys | split

theorem coolEvent_ok {s : State} (hok : Ok P F s) : Ok P F (coolEvent s) := by
  unfold coolEvent
  try dsimp only
  repeat' first
    | with_reducible assumption | exact Ok.sys (by with_reducible assumption) | with_reducible apply raise_ok
    | with_reducible apply sysEvent_ok | with_reducible apply Ok.sys | split

/-- Clearing the slots beyond the doorbell keeps the stall's memory canonical. -/
theorem clearSlots_wf {x : Stall} (h : Mem.wf x.mem = true) : Mem.wf (clearSlots x).mem = true := by
  have key : ∀ (l : List Nat) (m : Mem), Mem.wf m = true →
      Mem.wf (l.foldl (fun m k => Mem.clear m (0x1000 + 64 * k) 64) m) = true := by
    intro l
    induction l with
    | nil => exact fun _ hm => hm
    | cons k l ih => exact fun m hm => ih _ (Mem.wf_clear hm)
  exact key _ _ h

theorem execLinkUp_ok {s : State} {u : State} (hok : Ok P F s) (he : execLinkUp s = .next u) : Ok P F u := by
  obtain rfl := Host.Outcome.next.inj he
  split
  · exact coolEvent_ok (equaliseEndpoint_ok ⟨hok.pending, hok.hbm, hok.stalls.map fun _ hx => clearSlots_wf hx,
      ⟨hok.sys.fuses, hok.sys.fails, hok.sys.device, hok.sys.size⟩⟩)
  · exact hok

theorem elderRefs_ok {f : Nat} {s : State} (hok : Ok P F s) : Ok P F (elderRefs f s) := by
  unfold elderRefs
  try dsimp only
  repeat' first
    | with_reducible assumption | exact Ok.sys (by with_reducible assumption)
    | (simp only [ok_mk]; with_reducible apply OkMk.upd)

theorem eventWhenFree_ok {f : Nat} {e : Event} {s : State} (hok : Ok P F s) : Ok P F (eventWhenFree f e s) := by
  unfold eventWhenFree
  try dsimp only
  repeat' first
    | with_reducible assumption | exact Ok.sys (by with_reducible assumption) | (intro _ hx; with_reducible exact hx)
    | with_reducible apply writeEvent_ok | with_reducible apply modStall_ok | with_reducible apply Ok.sys | split

theorem boundAgain_ok {f : Nat} {s : State} (hok : Ok P F s) : Ok P F (boundAgain f s) := by
  unfold boundAgain
  try dsimp only
  repeat' first
    | with_reducible assumption | exact Ok.sys (by with_reducible assumption) | with_reducible apply eventWhenFree_ok
    | (with_reducible apply Ok.foldl; intro _ _ _)

theorem resetCommands_ok {f : Nat} {s : State} (hok : Ok P F s) : Ok P F (resetCommands f s) := by
  unfold resetCommands
  try dsimp only
  repeat' first
    | with_reducible assumption | exact Ok.sys (by with_reducible assumption) | with_reducible apply withdraw_ok
    | with_reducible apply sweepSessions_ok | with_reducible apply elderRefs_ok | (with_reducible apply Ok.foldl; intro _ _ _)
    | (simp only [ok_mk]; with_reducible apply OkMk.upd) | with_reducible apply Ok.sys

theorem resetFunction_ok {f : Nat} {s : State} (hok : Ok P F s) : Ok P F (resetFunction f s) := by
  unfold resetFunction
  try dsimp only
  repeat' first
    | with_reducible assumption | exact Ok.sys (by with_reducible assumption) | with_reducible apply tellMembers_ok
    | with_reducible apply resetCommands_ok | with_reducible apply orderSafe_ok | with_reducible apply boundAgain_ok
    | with_reducible apply modFnInt_ok | with_reducible apply modStall_ok | (with_reducible apply Ok.foldl; intro _ _ _)
    | with_reducible apply Ok.sys | split | (intro _ _; rfl)

theorem execFunctionLevelReset_ok {fn : Nat} {s : State} {u : State} (hok : Ok P F s) (he : execFunctionLevelReset fn s = .next u) :
    Ok P F u := by
  obtain rfl := Host.Outcome.next.inj he
  try dsimp only
  repeat' first
    | with_reducible assumption | exact Ok.sys (by with_reducible assumption) | with_reducible apply resetFunction_ok
    | with_reducible apply reroutedAll_ok | (with_reducible apply Ok.foldl; intro _ _ _)
    | (simp only [ok_mk]; with_reducible apply OkMk.upd) | with_reducible apply Ok.sys | split

end Sys2Proof.Machine
end

