-- ==== Sys2Proof/Laws/KeepsClock.lean ====
section
/-! SUPPORT. What each operation of Machine/Clock.lean keeps: see Laws/Keeps.lean. -/

namespace Sys2Proof.Machine

variable {P : List Instr} {F : Tbl Nat}

theorem clockTick_ok {s : State} (hok : Ok P F s) : Ok P F (clockTick s) := by
  unfold clockTick
  try dsimp only
  repeat' first
    | with_reducible assumption | exact Ok.sys (by with_reducible assumption) | with_reducible apply relayDue_ok
    | (simp only [ok_mk]; with_reducible apply OkMk.upd) | with_reducible apply Ok.sys | split

end Sys2Proof.Machine
end

