-- ==== Sys2Proof/Laws/KeepsTime.lean ====
section
/-! SUPPORT. What each operation of Machine/Time.lean keeps: see Laws/Keeps.lean. -/

namespace Sys2Proof.Machine

variable {P : List Instr} {F : Tbl Nat}

theorem modPtp_ok {p : Nat} {g : Ptp → Ptp} {s : State} (hok : Ok P F s) : Ok P F (modPtp p g s) := by
  unfold modPtp
  try dsimp only
  repeat' first
    | with_reducible assumption | exact Ok.sys (by with_reducible assumption) | with_reducible apply modNet_ok

theorem modEngine_ok {e : Nat} {g : Engine → Engine} {s : State} (hok : Ok P F s) : Ok P F (modEngine e g s) := by
  unfold modEngine
  try dsimp only
  repeat' first
    | with_reducible assumption | exact Ok.sys (by with_reducible assumption)
    | (simp only [ok_mk]; with_reducible apply OkMk.upd)

theorem effectTimeSteer_ok {c : Cmd} {t : State} (hok : Ok P F t) : Ok P F (effectTimeSteer c t) := by
  unfold effectTimeSteer
  try dsimp only
  repeat' first
    | with_reducible assumption | exact Ok.sys (by with_reducible assumption) | with_reducible apply setWaiting_ok
    | with_reducible apply startLeavesSafe_ok | with_reducible apply modEngine_ok

theorem execTimeSteer_ok {r : CmdRef} {s : State} {u : State} (hok : Ok P F s) (he : execTimeSteer r s = .next u) :
    Ok P F u := by
  obtain rfl := Host.Outcome.next.inj he
  try dsimp only
  repeat' first
    | with_reducible assumption | exact Ok.sys (by with_reducible assumption) | with_reducible apply runCmd_ok
    | with_reducible apply effectTimeSteer_ok

theorem effectTimeSelect_ok {c : Cmd} {t : State} (hok : Ok P F t) : Ok P F (effectTimeSelect c t) := by
  unfold effectTimeSelect
  try dsimp only
  repeat' first
    | with_reducible assumption | exact Ok.sys (by with_reducible assumption) | with_reducible apply setWaiting_ok
    | (simp only [ok_mk]; with_reducible apply OkMk.upd)

theorem execTimeSelect_ok {r : CmdRef} {s : State} {u : State} (hok : Ok P F s) (he : execTimeSelect r s = .next u) :
    Ok P F u := by
  obtain rfl := Host.Outcome.next.inj he
  try dsimp only
  repeat' first
    | with_reducible assumption | exact Ok.sys (by with_reducible assumption) | with_reducible apply runCmd_ok
    | with_reducible apply effectTimeSelect_ok

theorem applySelections_ok {before : TimeSt} {moved : Bool} {s : State} (hok : Ok P F s) :
    Ok P F (applySelections before moved s) := by
  unfold applySelections
  try dsimp only
  repeat' first
    | with_reducible assumption | exact Ok.sys (by with_reducible assumption) | with_reducible apply tellMembers_ok
    | with_reducible apply raise_ok | with_reducible apply complete_ok | (with_reducible apply Ok.foldl; intro _ _ _)
    | (simp only [ok_mk]; with_reducible apply OkMk.upd) | with_reducible apply Ok.sys | split

theorem execTimeSelectApply_ok {s : State} {u : State} (hok : Ok P F s) (he : execTimeSelectApply s = .next u) :
    Ok P F u := by
  obtain rfl := Host.Outcome.next.inj he
  try dsimp only
  repeat' first
    | with_reducible assumption | exact Ok.sys (by with_reducible assumption) | with_reducible apply applySelections_ok
    | with_reducible apply Ok.sys | split

theorem applySteer_ok {e : Nat} {c : Cmd} {s : State} (hok : Ok P F s) : Ok P F (applySteer e c s) := by
  unfold applySteer
  try dsimp only
  repeat' first
    | with_reducible assumption | exact Ok.sys (by with_reducible assumption) | with_reducible apply modEngine_ok
    | with_reducible apply applySelections_ok | with_reducible apply complete_ok | with_reducible apply raise_ok

theorem execTimeSteerApply_ok {engine : Nat} {s : State} {u : State} (hok : Ok P F s) (he : execTimeSteerApply engine s = .next u) :
    Ok P F u := by
  obtain rfl := Host.Outcome.next.inj he
  try dsimp only
  repeat' first
    | with_reducible assumption | exact Ok.sys (by with_reducible assumption) | with_reducible apply applySteer_ok
    | with_reducible apply Ok.sys | split

theorem dropSteer_ok {e : Nat} {s : State} (hok : Ok P F s) : Ok P F (dropSteer e s) := by
  unfold dropSteer
  try dsimp only
  repeat' first
    | with_reducible assumption | exact Ok.sys (by with_reducible assumption) | with_reducible apply modEngine_ok
    | with_reducible apply complete_ok | with_reducible apply Ok.sys | split

theorem execTimeSlewDone_ok {s : State} {u : State} (hok : Ok P F s) (he : execTimeSlewDone s = .next u) : Ok P F u := by
  obtain rfl := Host.Outcome.next.inj he
  try dsimp only
  repeat' first
    | with_reducible assumption | exact Ok.sys (by with_reducible assumption) | with_reducible apply raise_ok
    | with_reducible apply sysEvent_ok | (simp only [ok_mk]; with_reducible apply OkMk.upd) | with_reducible apply Ok.sys
    | split

theorem effectTimeCorrection_ok {c : Cmd} {t : State} (hok : Ok P F t) : Ok P F (effectTimeCorrection c t) := by
  unfold effectTimeCorrection
  try dsimp only
  repeat' first
    | with_reducible assumption | exact Ok.sys (by with_reducible assumption) | with_reducible apply complete_ok
    | with_reducible apply modNet_ok

theorem execTimeCorrection_ok {r : CmdRef} {s : State} {u : State} (hok : Ok P F s) (he : execTimeCorrection r s = .next u) :
    Ok P F u := by
  obtain rfl := Host.Outcome.next.inj he
  try dsimp only
  repeat' first
    | with_reducible assumption | exact Ok.sys (by with_reducible assumption) | with_reducible apply runCmd_ok
    | with_reducible apply effectTimeCorrection_ok

theorem effectTimeRead_ok {c : Cmd} {t : State} (hok : Ok P F t) : Ok P F (effectTimeRead c t) := by
  unfold effectTimeRead
  try dsimp only
  repeat' first
    | with_reducible assumption | exact Ok.sys (by with_reducible assumption) | with_reducible apply complete_ok

theorem execTimeRead_ok {r : CmdRef} {s : State} {u : State} (hok : Ok P F s) (he : execTimeRead r s = .next u) :
    Ok P F u := by
  obtain rfl := Host.Outcome.next.inj he
  try dsimp only
  repeat' first
    | with_reducible assumption | exact Ok.sys (by with_reducible assumption) | with_reducible apply runCmd_ok
    | with_reducible apply effectTimeRead_ok

theorem tellMaster_ok {e gm : Nat} {s : State} (hok : Ok P F s) : Ok P F (tellMaster e gm s) := by
  unfold tellMaster
  try dsimp only
  repeat' first
    | with_reducible assumption | exact Ok.sys (by with_reducible assumption) | with_reducible apply raise_ok
    | with_reducible apply unitEvent_ok

theorem follow_ok {p e : Nat} {f : Foreign} {s : State} (hok : Ok P F s) : Ok P F (follow p e f s) := by
  unfold follow
  try dsimp only
  repeat' first
    | with_reducible assumption | exact Ok.sys (by with_reducible assumption) | with_reducible apply modPtp_ok
    | with_reducible apply tellMaster_ok | with_reducible apply Ok.sys | split

theorem unfollow_ok {p e : Nat} {master : Bool} {s : State} (hok : Ok P F s) : Ok P F (unfollow p e master s) := by
  unfold unfollow
  try dsimp only
  repeat' first
    | with_reducible assumption | exact Ok.sys (by with_reducible assumption) | with_reducible apply modPtp_ok
    | with_reducible apply tellMaster_ok | with_reducible apply Ok.sys | split

theorem takeBest_ok {p e : Nat} {f : Foreign} {s : State} (hok : Ok P F s) : Ok P F (takeBest p e f s) := by
  unfold takeBest
  try dsimp only
  repeat' first
    | with_reducible assumption | exact Ok.sys (by with_reducible assumption) | with_reducible apply unfollow_ok
    | with_reducible apply follow_ok | with_reducible apply Ok.sys | split

theorem decidePtp_ok {p e : Nat} {s : State} (hok : Ok P F s) : Ok P F (decidePtp p e s) := by
  unfold decidePtp
  try dsimp only
  repeat' first
    | with_reducible assumption | exact Ok.sys (by with_reducible assumption) | with_reducible apply takeBest_ok
    | with_reducible apply Ok.sys | split

theorem onAnnounce_ok {p e : Nat} {m : PtpMsg} {s : State} (hok : Ok P F s) : Ok P F (onAnnounce p e m s) := by
  unfold onAnnounce
  try dsimp only
  repeat' first
    | with_reducible assumption | exact Ok.sys (by with_reducible assumption) | with_reducible apply decidePtp_ok
    | with_reducible apply modPtp_ok | with_reducible apply Ok.sys | split

theorem onSync_ok {p e : Nat} {m : PtpMsg} {s : State} (hok : Ok P F s) : Ok P F (onSync p e m s) := by
  unfold onSync
  try dsimp only
  repeat' first
    | with_reducible assumption | exact Ok.sys (by with_reducible assumption) | with_reducible apply bump_ok
    | with_reducible apply modPtp_ok

theorem measure_ok {p e : Nat} {t1 t2 t3 t4 : Int} {s : State} (hok : Ok P F s) : Ok P F (measure p e t1 t2 t3 t4 s) := by
  unfold measure
  try dsimp only
  repeat' first
    | with_reducible assumption | exact Ok.sys (by with_reducible assumption) | with_reducible apply modPtp_ok
    | with_reducible apply raise_ok | with_reducible apply unitEvent_ok

theorem endExchange_ok {p e : Nat} {s : State} (hok : Ok P F s) : Ok P F (endExchange p e s) := by
  unfold endExchange
  try dsimp only
  repeat' first
    | with_reducible assumption | exact Ok.sys (by with_reducible assumption) | with_reducible apply measure_ok
    | with_reducible apply Ok.sys | split

theorem onFollowUp_ok {p e : Nat} {m : PtpMsg} {s : State} (hok : Ok P F s) : Ok P F (onFollowUp p e m s) := by
  unfold onFollowUp
  try dsimp only
  repeat' first
    | with_reducible assumption | exact Ok.sys (by with_reducible assumption) | with_reducible apply endExchange_ok
    | with_reducible apply modPtp_ok | with_reducible apply Ok.sys | split

theorem onDelayResp_ok {p e : Nat} {m : PtpMsg} {s : State} (hok : Ok P F s) : Ok P F (onDelayResp p e m s) := by
  unfold onDelayResp
  try dsimp only
  repeat' first
    | with_reducible assumption | exact Ok.sys (by with_reducible assumption) | with_reducible apply endExchange_ok
    | with_reducible apply modPtp_ok | with_reducible apply Ok.sys | split

theorem ptpTx_ok {p : Nat} {kind : PtpKind} {seqId flags : Nat} {correction : Int} {interval : Nat} {body : List Byte} {s : State} (hok : Ok P F s) :
    Ok P F (ptpTx p kind seqId flags correction interval body s) := by
  unfold ptpTx
  try dsimp only
  repeat' first
    | with_reducible assumption | exact Ok.sys (by with_reducible assumption) | with_reducible apply netTx_ok

theorem answerDelayReq_ok {p e : Nat} {m : PtpMsg} {s : State} (hok : Ok P F s) : Ok P F (answerDelayReq p e m s) := by
  unfold answerDelayReq
  try dsimp only
  repeat' first
    | with_reducible assumption | exact Ok.sys (by with_reducible assumption) | with_reducible apply bump_ok
    | with_reducible apply ptpTx_ok

theorem onPtp_ok {p e : Nat} {m : PtpMsg} {s : State} (hok : Ok P F s) : Ok P F (onPtp p e m s) := by
  unfold onPtp
  try dsimp only
  repeat' first
    | with_reducible assumption | exact Ok.sys (by with_reducible assumption) | with_reducible apply countAt_ok
    | with_reducible apply onAnnounce_ok | with_reducible apply onSync_ok | with_reducible apply onFollowUp_ok
    | with_reducible apply onDelayResp_ok | with_reducible apply answerDelayReq_ok | with_reducible apply Ok.sys | split

theorem execPtpMessage_ok {port : Nat} {msg : PtpMsg} {s : State} {u : State} (hok : Ok P F s) (he : execPtpMessage port msg s = .next u) :
    Ok P F u := by
  obtain rfl := Host.Outcome.next.inj he
  try dsimp only
  repeat' first
    | with_reducible assumption | exact Ok.sys (by with_reducible assumption) | with_reducible apply onPtp_ok
    | with_reducible apply countAt_ok | with_reducible apply Ok.sys | split

theorem sendSync_ok {p e : Nat} {s : State} (hok : Ok P F s) : Ok P F (sendSync p e s) := by
  unfold sendSync
  try dsimp only
  repeat' first
    | with_reducible assumption | exact Ok.sys (by with_reducible assumption) | with_reducible apply ptpTx_ok
    | with_reducible apply bump_ok | with_reducible apply modPtp_ok | with_reducible apply Ok.sys | split

theorem sendFollowUp_ok {p : Nat} {s : State} (hok : Ok P F s) : Ok P F (sendFollowUp p s) := by
  unfold sendFollowUp
  try dsimp only
  repeat' first
    | with_reducible assumption | exact Ok.sys (by with_reducible assumption) | with_reducible apply modPtp_ok
    | with_reducible apply ptpTx_ok | with_reducible apply Ok.sys | split

theorem sendAnnounce_ok {p e : Nat} {s : State} (hok : Ok P F s) : Ok P F (sendAnnounce p e s) := by
  unfold sendAnnounce
  try dsimp only
  repeat' first
    | with_reducible assumption | exact Ok.sys (by with_reducible assumption) | with_reducible apply modPtp_ok
    | with_reducible apply ptpTx_ok

theorem sendDelayReq_ok {p e : Nat} {s : State} (hok : Ok P F s) : Ok P F (sendDelayReq p e s) := by
  unfold sendDelayReq
  try dsimp only
  repeat' first
    | with_reducible assumption | exact Ok.sys (by with_reducible assumption) | with_reducible apply bump_ok
    | with_reducible apply modPtp_ok | with_reducible apply ptpTx_ok | with_reducible apply Ok.sys | split

theorem execPtpMessageSend_ok {port : Nat} {kind : PtpKind} {s : State} {u : State} (hok : Ok P F s) (he : execPtpMessageSend port kind s = .next u) :
    Ok P F u := by
  obtain rfl := Host.Outcome.next.inj he
  try dsimp only
  repeat' first
    | with_reducible assumption | exact Ok.sys (by with_reducible assumption) | with_reducible apply sendDelayReq_ok
    | with_reducible apply sendSync_ok | with_reducible apply sendFollowUp_ok | with_reducible apply sendAnnounce_ok
    | with_reducible apply Ok.sys | split

theorem execDelayReqSend_ok {port : Nat} {s : State} {u : State} (hok : Ok P F s) (he : execDelayReqSend port s = .next u) :
    Ok P F u := by
  obtain rfl := Host.Outcome.next.inj he
  try dsimp only
  repeat' first
    | with_reducible assumption | exact Ok.sys (by with_reducible assumption) | with_reducible apply sendDelayReq_ok
    | with_reducible apply Ok.sys | split

theorem autoSelect_ok {e : Nat} {s : State} (hok : Ok P F s) : Ok P F (autoSelect e s) := by
  unfold autoSelect
  try dsimp only
  repeat' first
    | with_reducible assumption | exact Ok.sys (by with_reducible assumption) | with_reducible apply raise_ok
    | (simp only [ok_mk]; with_reducible apply OkMk.upd) | with_reducible apply Ok.sys | split

theorem loseMaster_ok {p e : Nat} {s : State} (hok : Ok P F s) : Ok P F (loseMaster p e s) := by
  unfold loseMaster
  try dsimp only
  repeat' first
    | with_reducible assumption | exact Ok.sys (by with_reducible assumption) | with_reducible apply modPtp_ok
    | with_reducible apply takeBest_ok | with_reducible apply unfollow_ok | with_reducible apply Ok.sys | split

theorem execAnnounceTimeout_ok {port : Nat} {s : State} {u : State} (hok : Ok P F s) (he : execAnnounceTimeout port s = .next u) :
    Ok P F u := by
  obtain rfl := Host.Outcome.next.inj he
  try dsimp only
  repeat' first
    | with_reducible assumption | exact Ok.sys (by with_reducible assumption) | with_reducible apply modPtp_ok
    | with_reducible apply autoSelect_ok | with_reducible apply loseMaster_ok | with_reducible apply raise_ok
    | with_reducible apply unitEvent_ok | with_reducible apply Ok.sys | split

end Sys2Proof.Machine
end

