-- ==== Sys2Proof/Laws/KeepsQueue.lean ====
section
/-! SUPPORT. What each operation of Machine/Queue.lean keeps: see Laws/Keeps.lean. -/

namespace Sys2Proof.Machine

variable {P : List Instr} {F : Tbl Nat}

theorem effectQueueConfigure_ok {c : Cmd} {t : State} (hok : Ok P F t) : Ok P F (effectQueueConfigure c t) := by
  unfold effectQueueConfigure
  try dsimp only
  repeat' first
    | with_reducible assumption | exact Ok.sys (by with_reducible assumption) | with_reducible apply complete_ok
    | with_reducible apply startLeavesSafe_ok | with_reducible apply modQueue_ok

theorem execQueueConfigure_ok {r : CmdRef} {s : State} {u : State} (hok : Ok P F s) (he : execQueueConfigure r s = .next u) :
    Ok P F u := by
  obtain rfl := Host.Outcome.next.inj he
  try dsimp only
  repeat' first
    | with_reducible assumption | exact Ok.sys (by with_reducible assumption) | with_reducible apply runCmd_ok
    | with_reducible apply effectQueueConfigure_ok

theorem queueWrite_ok {q : Nat} {data : List Byte} {s : State} (hok : Ok P F s) : Ok P F (queueWrite q data s) := by
  unfold queueWrite
  try dsimp only
  repeat' first
    | with_reducible assumption | exact Ok.sys (by with_reducible assumption) | with_reducible apply modQueue_ok
    | with_reducible apply raise_ok | with_reducible apply Ok.sys | split

theorem execQueuePacketWrite_ok {q : Nat} {data : List Byte} {s : State} {u : State} (hok : Ok P F s) (he : execQueuePacketWrite q data s = .next u) :
    Ok P F u := by
  obtain rfl := Host.Outcome.next.inj he
  try dsimp only
  repeat' first
    | with_reducible assumption | exact Ok.sys (by with_reducible assumption) | with_reducible apply queueWrite_ok
    | with_reducible apply Ok.sys | split

theorem sendRoute_ok {q : Nat} {s : State} (hok : Ok P F s) : Ok P F (sendRoute q s) := by
  unfold sendRoute
  try dsimp only
  repeat' first
    | with_reducible assumption | exact Ok.sys (by with_reducible assumption) | with_reducible apply tthSend_ok
    | (with_reducible apply Ok.foldl; intro _ _ _) | with_reducible apply Ok.sys | split

theorem execQueuePacketFree_ok {q : Nat} {s : State} {u : State} (hok : Ok P F s) (he : execQueuePacketFree q s = .next u) :
    Ok P F u := by
  obtain rfl := Host.Outcome.next.inj he
  try dsimp only
  repeat' first
    | with_reducible assumption | exact Ok.sys (by with_reducible assumption) | with_reducible apply modQueue_ok
    | with_reducible apply sendRoute_ok | with_reducible apply Ok.sys | split

theorem execCreditReturn_ok {q : Nat} {s : State} {u : State} (hok : Ok P F s) (he : execCreditReturn q s = .next u) :
    Ok P F u := by
  obtain rfl := Host.Outcome.next.inj he
  try dsimp only
  repeat' first
    | with_reducible assumption | exact Ok.sys (by with_reducible assumption) | with_reducible apply modQueue_ok
    | with_reducible apply Ok.sys | split

theorem flushQueue_ok {q : Nat} {s : State} (hok : Ok P F s) : Ok P F (flushQueue q s) := by
  unfold flushQueue
  try dsimp only
  repeat' first
    | with_reducible assumption | exact Ok.sys (by with_reducible assumption) | with_reducible apply unitEvent_ok
    | with_reducible apply modQueue_ok | with_reducible apply complete_ok | (with_reducible apply Ok.foldl; intro _ _ _)

theorem effectQueueFlush_ok {c : Cmd} {t : State} (hok : Ok P F t) : Ok P F (effectQueueFlush c t) := by
  unfold effectQueueFlush
  try dsimp only
  repeat' first
    | with_reducible assumption | exact Ok.sys (by with_reducible assumption) | with_reducible apply setWaiting_ok
    | with_reducible apply modQueue_ok

theorem execQueueFlush_ok {r : CmdRef} {s : State} {u : State} (hok : Ok P F s) (he : execQueueFlush r s = .next u) :
    Ok P F u := by
  obtain rfl := Host.Outcome.next.inj he
  try dsimp only
  repeat' first
    | with_reducible assumption | exact Ok.sys (by with_reducible assumption) | with_reducible apply runCmd_ok
    | with_reducible apply effectQueueFlush_ok

theorem execQueueFlushed_ok {q : Nat} {s : State} {u : State} (hok : Ok P F s) (he : execQueueFlushed q s = .next u) :
    Ok P F u := by
  obtain rfl := Host.Outcome.next.inj he
  try dsimp only
  repeat' first
    | with_reducible assumption | exact Ok.sys (by with_reducible assumption) | with_reducible apply flushQueue_ok
    | with_reducible apply Ok.sys | split

theorem effectQueueStatus_ok {c : Cmd} {t : State} (hok : Ok P F t) : Ok P F (effectQueueStatus c t) := by
  unfold effectQueueStatus
  try dsimp only
  repeat' first
    | with_reducible assumption | exact Ok.sys (by with_reducible assumption) | with_reducible apply complete_ok

theorem execQueueStatus_ok {r : CmdRef} {s : State} {u : State} (hok : Ok P F s) (he : execQueueStatus r s = .next u) :
    Ok P F u := by
  obtain rfl := Host.Outcome.next.inj he
  try dsimp only
  repeat' first
    | with_reducible assumption | exact Ok.sys (by with_reducible assumption) | with_reducible apply runCmd_ok
    | with_reducible apply effectQueueStatus_ok

end Sys2Proof.Machine
end

