-- ==== Sys2Proof/Laws/KeepsNet.lean ====
section
/-! SUPPORT. What each operation of Machine/Net.lean keeps: see Laws/Keeps.lean. -/

namespace Sys2Proof.Machine

variable {P : List Instr} {F : Tbl Nat}

theorem effectNetConfigure_ok {c : Cmd} {t : State} (hok : Ok P F t) : Ok P F (effectNetConfigure c t) := by
  unfold effectNetConfigure
  try dsimp only
  repeat' first
    | with_reducible assumption | exact Ok.sys (by with_reducible assumption) | with_reducible apply stageCmd_ok

theorem execNetConfigure_ok {r : CmdRef} {s : State} {u : State} (hok : Ok P F s) (he : execNetConfigure r s = .next u) :
    Ok P F u := by
  obtain rfl := Host.Outcome.next.inj he
  try dsimp only
  repeat' first
    | with_reducible assumption | exact Ok.sys (by with_reducible assumption) | with_reducible apply runCmd_ok
    | with_reducible apply effectNetConfigure_ok

theorem effectNetFlow_ok {c : Cmd} {t : State} (hok : Ok P F t) : Ok P F (effectNetFlow c t) := by
  unfold effectNetFlow
  try dsimp only
  repeat' first
    | with_reducible assumption | exact Ok.sys (by with_reducible assumption) | with_reducible apply stageCmd_ok

theorem execNetFlow_ok {r : CmdRef} {s : State} {u : State} (hok : Ok P F s) (he : execNetFlow r s = .next u) :
    Ok P F u := by
  obtain rfl := Host.Outcome.next.inj he
  try dsimp only
  repeat' first
    | with_reducible assumption | exact Ok.sys (by with_reducible assumption) | with_reducible apply runCmd_ok
    | with_reducible apply effectNetFlow_ok

theorem effectNetCounters_ok {c : Cmd} {t : State} (hok : Ok P F t) : Ok P F (effectNetCounters c t) := by
  unfold effectNetCounters
  try dsimp only
  repeat' first
    | with_reducible assumption | exact Ok.sys (by with_reducible assumption) | with_reducible apply complete_ok
    | with_reducible apply modNet_ok | with_reducible apply Ok.sys | split

theorem execNetCounters_ok {r : CmdRef} {s : State} {u : State} (hok : Ok P F s) (he : execNetCounters r s = .next u) :
    Ok P F u := by
  obtain rfl := Host.Outcome.next.inj he
  try dsimp only
  repeat' first
    | with_reducible assumption | exact Ok.sys (by with_reducible assumption) | with_reducible apply runCmd_ok
    | with_reducible apply effectNetCounters_ok

theorem linkChange_ok {p sub : Nat} {up : Bool} {s : State} (hok : Ok P F s) : Ok P F (linkChange p sub up s) := by
  unfold linkChange
  try dsimp only
  repeat' first
    | with_reducible assumption | exact Ok.sys (by with_reducible assumption) | with_reducible apply raise_ok
    | with_reducible apply unitEvent_ok | with_reducible apply modNet_ok | with_reducible apply lanesTurn_ok

theorem execNetLinkDown_ok {port sub : Nat} {s : State} {u : State} (hok : Ok P F s) (he : execNetLinkDown port sub s = .next u) :
    Ok P F u := by
  obtain rfl := Host.Outcome.next.inj he
  try dsimp only
  repeat' first
    | with_reducible assumption | exact Ok.sys (by with_reducible assumption) | with_reducible apply linkChange_ok
    | with_reducible apply countAt_ok | with_reducible apply Ok.sys | split

theorem execNetLinkUp_ok {port sub : Nat} {s : State} {u : State} (hok : Ok P F s) (he : execNetLinkUp port sub s = .next u) :
    Ok P F u := by
  obtain rfl := Host.Outcome.next.inj he
  try dsimp only
  repeat' first
    | with_reducible assumption | exact Ok.sys (by with_reducible assumption) | with_reducible apply linkChange_ok
    | with_reducible apply Ok.sys | split

theorem onFrame_ok {p sub : Nat} {f : NetFrame} {s : State} (hok : Ok P F s) : Ok P F (onFrame p sub f s) := by
  unfold onFrame
  try dsimp only
  repeat' first
    | with_reducible assumption | exact Ok.sys (by with_reducible assumption) | with_reducible apply countAt_ok
    | with_reducible apply netTx_ok | with_reducible apply raise_ok | (with_reducible apply Ok.foldl; intro _ _ _)
    | with_reducible apply Ok.sys | split

theorem execNetFrameReceived_ok {port sub : Nat} {frame : NetFrame} {s : State} {u : State} (hok : Ok P F s) (he : execNetFrameReceived port sub frame s = .next u) :
    Ok P F u := by
  obtain rfl := Host.Outcome.next.inj he
  try dsimp only
  repeat' first
    | with_reducible assumption | exact Ok.sys (by with_reducible assumption) | with_reducible apply onFrame_ok
    | with_reducible apply Ok.sys | split

theorem modFlow_ok {p f : Nat} {g : FlowSt → FlowSt} {s : State} (hok : Ok P F s) : Ok P F (modFlow p f g s) := by
  unfold modFlow
  try dsimp only
  repeat' first
    | with_reducible assumption | exact Ok.sys (by with_reducible assumption) | with_reducible apply modNet_ok

theorem sendRtp_ok {p f : Nat} {x : FlowCfg} {held : Bool} {ts : Nat} {marker : Bool} {data : List Byte} {s : State} (hok : Ok P F s) :
    Ok P F (sendRtp p f x held ts marker data s) := by
  unfold sendRtp
  try dsimp only
  repeat' first
    | with_reducible assumption | exact Ok.sys (by with_reducible assumption) | with_reducible apply modFlow_ok
    | with_reducible apply raise_ok | with_reducible apply countAt_ok | with_reducible apply netTx_ok
    | (with_reducible apply Ok.foldl; intro _ _ _) | with_reducible apply Ok.sys | split

theorem switchFlow_ok {p f : Nat} {s : State} (hok : Ok P F s) : Ok P F (switchFlow p f s) := by
  unfold switchFlow
  try dsimp only
  repeat' first
    | with_reducible assumption | exact Ok.sys (by with_reducible assumption) | with_reducible apply switchKeys_ok

theorem startFrame_ok {p f : Nat} {slot : Option Nat} {ts total : Nat} {s : State} (hok : Ok P F s) :
    Ok P F (startFrame p f slot ts total s) := by
  unfold startFrame
  try dsimp only
  repeat' first
    | with_reducible assumption | exact Ok.sys (by with_reducible assumption) | with_reducible apply modFlow_ok

theorem countSkipped_ok {p n : Nat} {s : State} (hok : Ok P F s) : Ok P F (countSkipped p n s) := by
  unfold countSkipped
  try dsimp only
  repeat' first
    | with_reducible assumption | exact Ok.sys (by with_reducible assumption) | with_reducible apply raise_ok
    | with_reducible apply countAt_ok | with_reducible apply Ok.sys | split

theorem repeatLast_ok {p f : Nat} {x : FlowCfg} {total : Nat} {s : State} (hok : Ok P F s) :
    Ok P F (repeatLast p f x total s) := by
  unfold repeatLast
  try dsimp only
  repeat' first
    | with_reducible assumption | exact Ok.sys (by with_reducible assumption) | with_reducible apply raise_ok
    | with_reducible apply countAt_ok | with_reducible apply startFrame_ok | with_reducible apply Ok.sys | split

theorem liveSlot_ok {p f : Nat} {x : FlowCfg} {total : Nat} {s : State} (hok : Ok P F s) :
    Ok P F (liveSlot p f x total s) := by
  unfold liveSlot
  try dsimp only
  repeat' first
    | with_reducible assumption | exact Ok.sys (by with_reducible assumption) | with_reducible apply countSkipped_ok
    | with_reducible apply startFrame_ok | with_reducible apply repeatLast_ok | with_reducible apply Ok.sys | split

theorem holdRetracted_ok {p f : Nat} {total : Nat} {time : Time} {s : State} {l : Tbl TapSlot} (hok : Ok P F s) :
    Ok P F (holdRetracted p f total time s l) := by
  unfold holdRetracted
  try dsimp only
  repeat' first
    | with_reducible assumption | exact Ok.sys (by with_reducible assumption) | with_reducible apply raise_ok
    | with_reducible apply bump_ok | with_reducible apply unitEvent_ok | with_reducible apply startFrame_ok
    | with_reducible apply Ok.sys | split

theorem holdSlot_ok {p f : Nat} {x : FlowCfg} {total : Nat} {s : State} (hok : Ok P F s) :
    Ok P F (holdSlot p f x total s) := by
  unfold holdSlot
  try dsimp only
  repeat' first
    | with_reducible assumption | exact Ok.sys (by with_reducible assumption) | with_reducible apply repeatLast_ok
    | with_reducible apply holdRetracted_ok | with_reducible apply modFlow_ok | with_reducible apply countSkipped_ok
    | with_reducible apply startFrame_ok | with_reducible apply Ok.sys | split

theorem timecodeSlot_ok {p f : Nat} {x : FlowCfg} {s : State} (hok : Ok P F s) : Ok P F (timecodeSlot p f x s) := by
  unfold timecodeSlot
  try dsimp only
  repeat' first
    | with_reducible assumption | exact Ok.sys (by with_reducible assumption) | with_reducible apply countSkipped_ok
    | with_reducible apply startFrame_ok | with_reducible apply sendRtp_ok | with_reducible apply Ok.sys | split

theorem takeSendSlot_ok {p f : Nat} {x : FlowCfg} {s : State} (hok : Ok P F s) : Ok P F (takeSendSlot p f x s) := by
  unfold takeSendSlot
  try dsimp only
  repeat' first
    | with_reducible assumption | exact Ok.sys (by with_reducible assumption) | with_reducible apply modFlow_ok
    | with_reducible apply liveSlot_ok | with_reducible apply holdSlot_ok | with_reducible apply timecodeSlot_ok
    | with_reducible apply Ok.sys | split

theorem execSendSlot_ok {port flow : Nat} {s : State} {u : State} (hok : Ok P F s) (he : execSendSlot port flow s = .next u) :
    Ok P F u := by
  obtain rfl := Host.Outcome.next.inj he
  try dsimp only
  repeat' first
    | with_reducible assumption | exact Ok.sys (by with_reducible assumption) | with_reducible apply switchFlow_ok
    | with_reducible apply takeSendSlot_ok | with_reducible apply Ok.sys | split

theorem videoLate_ok {p f : Nat} {x : FlowCfg} {k : Nat} {s : State} (hok : Ok P F s) : Ok P F (videoLate p f x k s) := by
  unfold videoLate
  try dsimp only
  repeat' first
    | with_reducible assumption | exact Ok.sys (by with_reducible assumption) | with_reducible apply raise_ok
    | with_reducible apply countAt_ok | with_reducible apply modFlow_ok | with_reducible apply Ok.sys | split

theorem framePatched_ok {p : Nat} {t : TapSlot} {s : State} (hok : Ok P F s) : Ok P F (framePatched p t s) := by
  unfold framePatched
  try dsimp only
  repeat' first
    | with_reducible assumption | exact Ok.sys (by with_reducible assumption) | with_reducible apply raise_ok
    | with_reducible apply unitEvent_ok | with_reducible apply Ok.sys | split

theorem sendVideo_ok {p f : Nat} {x : FlowCfg} {n : Nat} {sl : TapSlot} {s : State} (hok : Ok P F s) :
    Ok P F (sendVideo p f x n sl s) := by
  unfold sendVideo
  try dsimp only
  repeat' first
    | with_reducible assumption | exact Ok.sys (by with_reducible assumption) | with_reducible apply videoLate_ok
    | with_reducible apply sendRtp_ok | with_reducible apply hbmTouch_ok | with_reducible apply modFlow_ok
    | with_reducible apply framePatched_ok | with_reducible apply Ok.sys | split

theorem execSt2110PacketSend_ok {port flow : Nat} {s : State} {u : State} (hok : Ok P F s) (he : execSt2110PacketSend port flow s = .next u) :
    Ok P F u := by
  obtain rfl := Host.Outcome.next.inj he
  try dsimp only
  repeat' first
    | with_reducible assumption | exact Ok.sys (by with_reducible assumption) | with_reducible apply sendVideo_ok
    | with_reducible apply Ok.sys | split

theorem audioPacket_ok {a p f : Nat} {x : FlowCfg} {s : State} (hok : Ok P F s) : Ok P F (audioPacket a p f x s) := by
  unfold audioPacket
  try dsimp only
  repeat' first
    | with_reducible assumption | exact Ok.sys (by with_reducible assumption) | with_reducible apply modFlow_ok
    | with_reducible apply sendRtp_ok | with_reducible apply Ok.sys | split

theorem audioFlow_ok {a : Nat} {gap : Bool} {p f : Nat} {s : State} (hok : Ok P F s) :
    Ok P F (audioFlow a gap p f s) := by
  unfold audioFlow
  try dsimp only
  repeat' first
    | with_reducible assumption | exact Ok.sys (by with_reducible assumption) | with_reducible apply switchFlow_ok
    | with_reducible apply modFlow_ok | with_reducible apply audioPacket_ok | with_reducible apply Ok.sys | split

theorem audioFlows_ok {a : Nat} {gap : Bool} {s : State} (hok : Ok P F s) : Ok P F (audioFlows a gap s) := by
  unfold audioFlows
  try dsimp only
  repeat' first
    | with_reducible assumption | exact Ok.sys (by with_reducible assumption) | with_reducible apply audioFlow_ok
    | (with_reducible apply Ok.foldl; intro _ _ _)

theorem sendQueued_ok {p f : Nat} {x : FlowCfg} {b : List Byte} {s : State} (hok : Ok P F s) :
    Ok P F (sendQueued p f x b s) := by
  unfold sendQueued
  try dsimp only
  repeat' first
    | with_reducible assumption | exact Ok.sys (by with_reducible assumption) | with_reducible apply bump_ok
    | with_reducible apply sendRtp_ok | with_reducible apply modQueue_ok

theorem execQueueFlowSend_ok {port flow : Nat} {s : State} {u : State} (hok : Ok P F s) (he : execQueueFlowSend port flow s = .next u) :
    Ok P F u := by
  obtain rfl := Host.Outcome.next.inj he
  try dsimp only
  repeat' first
    | with_reducible assumption | exact Ok.sys (by with_reducible assumption) | with_reducible apply switchFlow_ok
    | with_reducible apply sendQueued_ok | with_reducible apply Ok.sys | split

theorem pathChange_ok {port home f i : Nat} {lost : Bool} {s : State} (hok : Ok P F s) :
    Ok P F (pathChange port home f i lost s) := by
  unfold pathChange
  try dsimp only
  repeat' first
    | with_reducible assumption | exact Ok.sys (by with_reducible assumption) | with_reducible apply raise_ok
    | with_reducible apply unitEvent_ok | with_reducible apply modFlow_ok

theorem closeSlot_ok {p f : Nat} {x : FlowCfg} {s : State} (hok : Ok P F s) : Ok P F (closeSlot p f x s) := by
  unfold closeSlot
  try dsimp only
  repeat' first
    | with_reducible assumption | exact Ok.sys (by with_reducible assumption) | with_reducible apply hbmWrite_ok
    | with_reducible apply modFlow_ok | with_reducible apply raise_ok | with_reducible apply unitEvent_ok
    | with_reducible apply Ok.sys | split

theorem closeSlots_ok {p f : Nat} {x : FlowCfg} : ∀ (n : Nat)  {s : State}, Ok P F s →
    Ok P F (closeSlots p f x n  s) := by
  intro n
  induction n with
  | zero =>
    intro  s h
    unfold closeSlots
    try dsimp only
    repeat' with_reducible assumption
  | succ n ih =>
    intro  s h
    unfold closeSlots
    try dsimp only
    repeat' first
      | with_reducible apply ih | with_reducible assumption | exact Ok.sys (by with_reducible assumption)
      | with_reducible apply closeSlot_ok

theorem rxVideo_ok {x : FlowCfg} {base : Nat} {p : RxPacket} {s : State} (hok : Ok P F s) :
    Ok P F (rxVideo x base p s) := by
  unfold rxVideo
  try dsimp only
  repeat' first
    | with_reducible assumption | exact Ok.sys (by with_reducible assumption) | with_reducible apply hbmWrite_ok
    | (with_reducible apply Ok.foldl; intro _ _ _) | with_reducible apply Ok.sys | split

theorem rxAfterClose_ok {port p f i : Nat} {x : FlowCfg} {k : RxPacket} {s : State} (hok : Ok P F s) :
    Ok P F (rxAfterClose port p f i x k s) := by
  unfold rxAfterClose
  try dsimp only
  repeat' first
    | with_reducible assumption | exact Ok.sys (by with_reducible assumption) | with_reducible apply countAt_ok
    | with_reducible apply hbmWrite_ok | with_reducible apply Ok.sys | split

theorem rxInSlot_ok {port p f i : Nat} {x : FlowCfg} {k : RxPacket} {j : Nat} {s : State} (hok : Ok P F s) :
    Ok P F (rxInSlot port p f i x k j s) := by
  unfold rxInSlot
  try dsimp only
  repeat' first
    | with_reducible assumption | exact Ok.sys (by with_reducible assumption) | with_reducible apply countAt_ok
    | with_reducible apply modFlow_ok | with_reducible apply rxVideo_ok | with_reducible apply closeSlots_ok
    | with_reducible apply Ok.sys | split

theorem rxSingle_ok {port p f i : Nat} {x : FlowCfg} {k : RxPacket} {s : State} (hok : Ok P F s) :
    Ok P F (rxSingle port p f i x k s) := by
  unfold rxSingle
  try dsimp only
  repeat' first
    | with_reducible assumption | exact Ok.sys (by with_reducible assumption) | with_reducible apply hbmWrite_ok
    | with_reducible apply closeSlot_ok | with_reducible apply modFlow_ok

theorem rxNew_ok {port p f i : Nat} {x : FlowCfg} {k : RxPacket} {s : State} (hok : Ok P F s) :
    Ok P F (rxNew port p f i x k s) := by
  unfold rxNew
  try dsimp only
  repeat' first
    | with_reducible assumption | exact Ok.sys (by with_reducible assumption) | with_reducible apply countAt_ok
    | with_reducible apply modFlow_ok | with_reducible apply rxSingle_ok | with_reducible apply rxInSlot_ok
    | with_reducible apply Ok.sys | split

theorem rxTake_ok {port p f i : Nat} {x : FlowCfg} {k : RxPacket} {s : State} (hok : Ok P F s) :
    Ok P F (rxTake port p f i x k s) := by
  unfold rxTake
  try dsimp only
  repeat' first
    | with_reducible assumption | exact Ok.sys (by with_reducible assumption) | with_reducible apply pathChange_ok
    | with_reducible apply raise_ok | with_reducible apply countAt_ok | with_reducible apply rxAfterClose_ok
    | with_reducible apply rxInSlot_ok | with_reducible apply rxNew_ok | with_reducible apply Ok.sys | split

theorem execRxPacket_ok {port : Nat} {p : RxPacket} {s : State} {u : State} (hok : Ok P F s) (he : execRxPacket port p s = .next u) :
    Ok P F u := by
  obtain rfl := Host.Outcome.next.inj he
  try dsimp only
  repeat' first
    | with_reducible assumption | exact Ok.sys (by with_reducible assumption) | with_reducible apply countAt_ok
    | with_reducible apply rxTake_ok | with_reducible apply Ok.sys | split

theorem execRxSlotClose_ok {port flow : Nat} {s : State} {u : State} (hok : Ok P F s) (he : execRxSlotClose port flow s = .next u) :
    Ok P F u := by
  obtain rfl := Host.Outcome.next.inj he
  try dsimp only
  repeat' first
    | with_reducible assumption | exact Ok.sys (by with_reducible assumption) | with_reducible apply closeSlots_ok
    | with_reducible apply Ok.sys | split

theorem execPathLost_ok {port flow path : Nat} {s : State} {u : State} (hok : Ok P F s) (he : execPathLost port flow path s = .next u) :
    Ok P F u := by
  obtain rfl := Host.Outcome.next.inj he
  try dsimp only
  repeat' first
    | with_reducible assumption | exact Ok.sys (by with_reducible assumption) | with_reducible apply pathChange_ok
    | with_reducible apply Ok.sys | split

end Sys2Proof.Machine
end

