-- ==== Sys2Proof/Laws/KeepsDisplay.lean ====
section
/-! SUPPORT. What each operation of Machine/Display.lean keeps: see Laws/Keeps.lean. -/

namespace Sys2Proof.Machine

variable {P : List Instr} {F : Tbl Nat}

theorem modHead_ok {h : Nat} {g : Head → Head} {s : State} (hok : Ok P F s) : Ok P F (modHead h g s) := by
  unfold modHead
  try dsimp only
  repeat' first
    | with_reducible assumption | exact Ok.sys (by with_reducible assumption)
    | (simp only [ok_mk]; with_reducible apply OkMk.upd)

theorem effectDspConfigure_ok {c : Cmd} {t : State} (hok : Ok P F t) : Ok P F (effectDspConfigure c t) := by
  unfold effectDspConfigure
  try dsimp only
  repeat' first
    | with_reducible assumption | exact Ok.sys (by with_reducible assumption) | with_reducible apply stageCmd_ok

theorem execDspConfigure_ok {r : CmdRef} {s : State} {u : State} (hok : Ok P F s) (he : execDspConfigure r s = .next u) :
    Ok P F u := by
  obtain rfl := Host.Outcome.next.inj he
  try dsimp only
  repeat' first
    | with_reducible assumption | exact Ok.sys (by with_reducible assumption) | with_reducible apply runCmd_ok
    | with_reducible apply effectDspConfigure_ok

theorem effectDspPlane_ok {c : Cmd} {t : State} (hok : Ok P F t) : Ok P F (effectDspPlane c t) := by
  unfold effectDspPlane
  try dsimp only
  repeat' first
    | with_reducible assumption | exact Ok.sys (by with_reducible assumption) | with_reducible apply stageCmd_ok

theorem execDspPlane_ok {r : CmdRef} {s : State} {u : State} (hok : Ok P F s) (he : execDspPlane r s = .next u) :
    Ok P F u := by
  obtain rfl := Host.Outcome.next.inj he
  try dsimp only
  repeat' first
    | with_reducible assumption | exact Ok.sys (by with_reducible assumption) | with_reducible apply runCmd_ok
    | with_reducible apply effectDspPlane_ok

theorem addRequest_ok {q : FlipReq} {h : Nat} {c : Cmd} {s : State} (hok : Ok P F s) : Ok P F (addRequest q h c s) := by
  unfold addRequest
  try dsimp only
  repeat' first
    | with_reducible assumption | exact Ok.sys (by with_reducible assumption) | with_reducible apply setWaiting_ok
    | with_reducible apply modHead_ok

theorem effectDspFlip_ok {c : Cmd} {t : State} (hok : Ok P F t) : Ok P F (effectDspFlip c t) := by
  unfold effectDspFlip
  try dsimp only
  repeat' first
    | with_reducible assumption | exact Ok.sys (by with_reducible assumption) | with_reducible apply addRequest_ok

theorem execDspFlip_ok {r : CmdRef} {s : State} {u : State} (hok : Ok P F s) (he : execDspFlip r s = .next u) :
    Ok P F u := by
  obtain rfl := Host.Outcome.next.inj he
  try dsimp only
  repeat' first
    | with_reducible assumption | exact Ok.sys (by with_reducible assumption) | with_reducible apply runCmd_ok
    | with_reducible apply effectDspFlip_ok

theorem effectDspPalette_ok {c : Cmd} {t : State} (hok : Ok P F t) : Ok P F (effectDspPalette c t) := by
  unfold effectDspPalette
  try dsimp only
  repeat' first
    | with_reducible assumption | exact Ok.sys (by with_reducible assumption) | with_reducible apply addRequest_ok

theorem execDspPalette_ok {r : CmdRef} {s : State} {u : State} (hok : Ok P F s) (he : execDspPalette r s = .next u) :
    Ok P F u := by
  obtain rfl := Host.Outcome.next.inj he
  try dsimp only
  repeat' first
    | with_reducible assumption | exact Ok.sys (by with_reducible assumption) | with_reducible apply runCmd_ok
    | with_reducible apply effectDspPalette_ok

theorem markAll_ok {h : Nat} {s : State} (hok : Ok P F s) : Ok P F (markAll h s) := by
  unfold markAll
  try dsimp only
  repeat' first
    | with_reducible assumption | exact Ok.sys (by with_reducible assumption) | with_reducible apply modHead_ok
    | with_reducible apply Ok.sys | split

theorem setFallback_ok {h : Nat} {l : List Nat} {s : State} (hok : Ok P F s) : Ok P F (setFallback h l s) := by
  unfold setFallback
  try dsimp only
  repeat' first
    | with_reducible assumption | exact Ok.sys (by with_reducible assumption) | with_reducible apply modHead_ok
    | with_reducible apply markAll_ok | with_reducible apply Ok.sys | split

theorem fallBackRow_ok {h : Nat} {s : State} (hok : Ok P F s) : Ok P F (fallBackRow h s) := by
  unfold fallBackRow
  try dsimp only
  repeat' first
    | with_reducible assumption | exact Ok.sys (by with_reducible assumption) | with_reducible apply bump_ok
    | with_reducible apply modHead_ok | with_reducible apply Ok.sys | split

theorem fallBack_ok {h cause : Nat} {s : State} (hok : Ok P F s) : Ok P F (fallBack h cause s) := by
  unfold fallBack
  try dsimp only
  repeat' first
    | with_reducible assumption | exact Ok.sys (by with_reducible assumption) | with_reducible apply raise_ok
    | with_reducible apply unitEvent_ok | with_reducible apply fallBackRow_ok | with_reducible apply setFallback_ok
    | with_reducible apply Ok.sys | split

theorem judgeFallback_ok {h : Nat} {s : State} (hok : Ok P F s) : Ok P F (judgeFallback h s) := by
  unfold judgeFallback
  try dsimp only
  repeat' first
    | with_reducible assumption | exact Ok.sys (by with_reducible assumption) | with_reducible apply fallBack_ok
    | with_reducible apply setFallback_ok | with_reducible apply modHead_ok | (with_reducible apply Ok.foldl; intro _ _ _)

theorem tellRetracted_ok {h k frame : Nat} {c : HeadCfg} {s : State} (hok : Ok P F s) :
    Ok P F (tellRetracted h k frame c s) := by
  unfold tellRetracted
  try dsimp only
  repeat' first
    | with_reducible assumption | exact Ok.sys (by with_reducible assumption) | with_reducible apply modHead_ok
    | with_reducible apply raise_ok | with_reducible apply unitEvent_ok | with_reducible apply Ok.sys | split

theorem tellUnderrun_ok {h n frame : Nat} {late : List VideoView} {c : HeadCfg} {s : State} (hok : Ok P F s) :
    Ok P F (tellUnderrun h n frame late c s) := by
  unfold tellUnderrun
  try dsimp only
  repeat' first
    | with_reducible assumption | exact Ok.sys (by with_reducible assumption) | with_reducible apply modHead_ok
    | with_reducible apply raise_ok | with_reducible apply unitEvent_ok | with_reducible apply Ok.sys | split

theorem emitFrame_ok {h : Nat} {c : HeadCfg} {f : FlipRec} {s : State} (hok : Ok P F s) : Ok P F (emitFrame h c f s) := by
  unfold emitFrame
  try dsimp only
  repeat' first
    | with_reducible assumption | exact Ok.sys (by with_reducible assumption) | with_reducible apply emit_ok
    | (with_reducible apply Ok.foldl; intro _ _ _) | with_reducible apply Ok.sys | split

theorem touchPlanes_ok {h : Nat} {s : State} (hok : Ok P F s) : Ok P F (touchPlanes h s) := by
  unfold touchPlanes
  try dsimp only
  repeat' first
    | with_reducible assumption | exact Ok.sys (by with_reducible assumption) | with_reducible apply hbmTouch_ok
    | (with_reducible apply Ok.foldl; intro _ _ _)

theorem endHeadFrame_ok {h : Nat} {s : State} (hok : Ok P F s) : Ok P F (endHeadFrame h s) := by
  unfold endHeadFrame
  try dsimp only
  repeat' first
    | with_reducible assumption | exact Ok.sys (by with_reducible assumption) | with_reducible apply bump_ok
    | with_reducible apply emitFrame_ok | with_reducible apply hbmWrite_ok | with_reducible apply setFallback_ok
    | with_reducible apply modHead_ok | with_reducible apply touchPlanes_ok | with_reducible apply tellUnderrun_ok
    | with_reducible apply tellRetracted_ok | with_reducible apply Ok.sys | split

theorem restartHead_ok {h period : Nat} {s : State} (hok : Ok P F s) : Ok P F (restartHead h period s) := by
  unfold restartHead
  try dsimp only
  repeat' first
    | with_reducible assumption | exact Ok.sys (by with_reducible assumption) | with_reducible apply raise_ok
    | with_reducible apply unitEvent_ok | with_reducible apply modHead_ok

theorem restartHalf_ok {h : Nat} {before after : Tbl CfgVal} {s : State} (hok : Ok P F s) :
    Ok P F (restartHalf h before after s) := by
  unfold restartHalf
  try dsimp only
  repeat' first
    | with_reducible assumption | exact Ok.sys (by with_reducible assumption) | with_reducible apply modHead_ok
    | with_reducible apply restartHead_ok | with_reducible apply Ok.sys | split

theorem switchHead_ok {h : Nat} {s : State} (hok : Ok P F s) : Ok P F (switchHead h s) := by
  unfold switchHead
  try dsimp only
  repeat' first
    | with_reducible assumption | exact Ok.sys (by with_reducible assumption) | with_reducible apply switchKeys_ok
    | with_reducible apply modHead_ok | with_reducible apply restartHalf_ok | with_reducible apply restartHead_ok
    | with_reducible apply Ok.sys | split

theorem flipPlane_ok {h k : Nat} {c : HeadCfg} {s : State} (hok : Ok P F s) : Ok P F (flipPlane h k c s) := by
  unfold flipPlane
  try dsimp only
  repeat' first
    | with_reducible assumption | exact Ok.sys (by with_reducible assumption) | with_reducible apply modHead_ok
    | with_reducible apply Ok.sys | split

theorem overlayWrite_ok {base ovW : Nat} {r : Nat × Nat × Nat × Nat} {data : List Byte} {s : State} (hok : Ok P F s) :
    Ok P F (overlayWrite base ovW r data s) := by
  unfold overlayWrite
  try dsimp only
  repeat' first
    | with_reducible assumption | exact Ok.sys (by with_reducible assumption) | with_reducible apply hbmWrite_ok
    | (with_reducible apply Ok.foldl; intro _ _ _)

theorem applyOverlay_ok {h : Nat} {c : HeadCfg} {q : FlipReq} {s : State} (hok : Ok P F s) :
    Ok P F (applyOverlay h c q s) := by
  unfold applyOverlay
  try dsimp only
  repeat' first
    | with_reducible assumption | exact Ok.sys (by with_reducible assumption) | with_reducible apply overlayWrite_ok
    | with_reducible apply modHead_ok | with_reducible apply Ok.sys | split

theorem applyPalette_ok {h : Nat} {c : HeadCfg} {q : FlipReq} {s : State} (hok : Ok P F s) :
    Ok P F (applyPalette h c q s) := by
  unfold applyPalette
  try dsimp only
  repeat' first
    | with_reducible assumption | exact Ok.sys (by with_reducible assumption) | with_reducible apply modHead_ok

theorem answerFlip_ok {h : Nat} {t : Time} {q : FlipReq} {s : State} (hok : Ok P F s) : Ok P F (answerFlip h t q s) := by
  unfold answerFlip
  try dsimp only
  repeat' first
    | with_reducible assumption | exact Ok.sys (by with_reducible assumption) | with_reducible apply complete_ok
    | with_reducible apply raise_ok | with_reducible apply Ok.sys | split

theorem applyRequest_ok {h : Nat} {c : HeadCfg} {t : Time} {q : FlipReq} {s : State} (hok : Ok P F s) :
    Ok P F (applyRequest h c t q s) := by
  unfold applyRequest
  try dsimp only
  repeat' first
    | with_reducible assumption | exact Ok.sys (by with_reducible assumption) | with_reducible apply answerFlip_ok
    | with_reducible apply applyOverlay_ok | with_reducible apply applyPalette_ok | with_reducible apply Ok.sys | split

theorem applyRequests_ok {h : Nat} {c : HeadCfg} {t : Time} {due : List FlipReq} {s : State} (hok : Ok P F s) :
    Ok P F (applyRequests h c t due s) := by
  unfold applyRequests
  try dsimp only
  repeat' first
    | with_reducible assumption | exact Ok.sys (by with_reducible assumption) | with_reducible apply applyRequest_ok
    | with_reducible apply modHead_ok | (with_reducible apply Ok.foldl; intro _ _ _)

theorem pushFrame_ok {h : Nat} {c : HeadCfg} {packets : Bool} {s : State} (hok : Ok P F s) :
    Ok P F (pushFrame h c packets s).1 := by
  unfold pushFrame
  try dsimp only
  repeat' first
    | with_reducible assumption | exact Ok.sys (by with_reducible assumption) | with_reducible apply modHead_ok
    | with_reducible apply Ok.sys | split

theorem beginHeadFrame_ok {h : Nat} {c : HeadCfg} {s : State} (hok : Ok P F s) : Ok P F (beginHeadFrame h c s) := by
  unfold beginHeadFrame
  try dsimp only
  repeat' first
    | with_reducible assumption | exact Ok.sys (by with_reducible assumption) | with_reducible apply judgeFallback_ok
    | with_reducible apply modHead_ok | with_reducible apply flipPlane_ok | with_reducible apply pushFrame_ok
    | with_reducible apply applyRequests_ok | with_reducible apply bump_ok | with_reducible apply raise_ok
    | with_reducible apply Ok.sys | split

theorem execFlipPoint_ok {head : Nat} {s : State} {u : State} (hok : Ok P F s) (he : execFlipPoint head s = .next u) :
    Ok P F u := by
  obtain rfl := Host.Outcome.next.inj he
  try dsimp only
  repeat' first
    | with_reducible assumption | exact Ok.sys (by with_reducible assumption) | with_reducible apply switchHead_ok
    | with_reducible apply endHeadFrame_ok | with_reducible apply beginHeadFrame_ok | with_reducible apply Ok.sys | split

theorem tellGenlock_ok {code h : Nat} {s : State} (hok : Ok P F s) : Ok P F (tellGenlock code h s) := by
  unfold tellGenlock
  try dsimp only
  repeat' first
    | with_reducible assumption | exact Ok.sys (by with_reducible assumption) | with_reducible apply unitEvent_ok
    | with_reducible apply raise_ok | with_reducible apply Ok.sys | split

theorem onEdge_ok {t : Int} {h : Nat} {s : State} (hok : Ok P F s) : Ok P F (onEdge t h s) := by
  unfold onEdge
  try dsimp only
  repeat' first
    | with_reducible assumption | exact Ok.sys (by with_reducible assumption) | with_reducible apply modHead_ok
    | with_reducible apply tellGenlock_ok | with_reducible apply Ok.sys | split

theorem execGenlockEdge_ok {s : State} {u : State} (hok : Ok P F s) (he : execGenlockEdge s = .next u) : Ok P F u := by
  obtain rfl := Host.Outcome.next.inj he
  try dsimp only
  repeat' first
    | with_reducible assumption | exact Ok.sys (by with_reducible assumption) | with_reducible apply onEdge_ok
    | (with_reducible apply Ok.foldl; intro _ _ _) | with_reducible apply Ok.sys | split

theorem execGenlockLost_ok {head : Nat} {s : State} {u : State} (hok : Ok P F s) (he : execGenlockLost head s = .next u) :
    Ok P F u := by
  obtain rfl := Host.Outcome.next.inj he
  try dsimp only
  repeat' first
    | with_reducible assumption | exact Ok.sys (by with_reducible assumption) | with_reducible apply tellGenlock_ok
    | with_reducible apply modHead_ok | with_reducible apply Ok.sys | split

theorem execTeMissing_ok {head : Nat} {s : State} {u : State} (hok : Ok P F s) (he : execTeMissing head s = .next u) :
    Ok P F u := by
  obtain rfl := Host.Outcome.next.inj he
  try dsimp only
  repeat' first
    | with_reducible assumption | exact Ok.sys (by with_reducible assumption) | with_reducible apply raise_ok
    | with_reducible apply unitEvent_ok | with_reducible apply Ok.sys | split

end Sys2Proof.Machine
end

