-- ==== Sys2Proof/Laws/KeepsMotion.lean ====
section
/-! SUPPORT. What each operation of Machine/Motion.lean keeps: see Laws/Keeps.lean. -/

namespace Sys2Proof.Machine

variable {P : List Instr} {F : Tbl Nat}

theorem effectMotConfigure_ok {c : Cmd} {t : State} (hok : Ok P F t) : Ok P F (effectMotConfigure c t) := by
  unfold effectMotConfigure
  try dsimp only
  repeat' first
    | with_reducible assumption | exact Ok.sys (by with_reducible assumption) | with_reducible apply stageCmd_ok

theorem execMotConfigure_ok {r : CmdRef} {s : State} {u : State} (hok : Ok P F s) (he : execMotConfigure r s = .next u) :
    Ok P F u := by
  obtain rfl := Host.Outcome.next.inj he
  try dsimp only
  repeat' first
    | with_reducible assumption | exact Ok.sys (by with_reducible assumption) | with_reducible apply runCmd_ok
    | with_reducible apply effectMotConfigure_ok

theorem effectMotObserver_ok {c : Cmd} {t : State} (hok : Ok P F t) : Ok P F (effectMotObserver c t) := by
  unfold effectMotObserver
  try dsimp only
  repeat' first
    | with_reducible assumption | exact Ok.sys (by with_reducible assumption) | with_reducible apply stageCmd_ok

theorem execMotObserver_ok {r : CmdRef} {s : State} {u : State} (hok : Ok P F s) (he : execMotObserver r s = .next u) :
    Ok P F u := by
  obtain rfl := Host.Outcome.next.inj he
  try dsimp only
  repeat' first
    | with_reducible assumption | exact Ok.sys (by with_reducible assumption) | with_reducible apply runCmd_ok
    | with_reducible apply effectMotObserver_ok

theorem effectMotRead_ok {c : Cmd} {t : State} (hok : Ok P F t) : Ok P F (effectMotRead c t) := by
  unfold effectMotRead
  try dsimp only
  repeat' first
    | with_reducible assumption | exact Ok.sys (by with_reducible assumption) | with_reducible apply complete_ok
    | with_reducible apply modAxis_ok | with_reducible apply Ok.sys | split

theorem execMotRead_ok {r : CmdRef} {s : State} {u : State} (hok : Ok P F s) (he : execMotRead r s = .next u) :
    Ok P F u := by
  obtain rfl := Host.Outcome.next.inj he
  try dsimp only
  repeat' first
    | with_reducible assumption | exact Ok.sys (by with_reducible assumption) | with_reducible apply runCmd_ok
    | with_reducible apply effectMotRead_ok

theorem motEvent_ok {code a detail : Nat} {s : State} (hok : Ok P F s) : Ok P F (motEvent code a detail s) := by
  unfold motEvent
  try dsimp only
  repeat' first
    | with_reducible assumption | exact Ok.sys (by with_reducible assumption) | with_reducible apply unitEvent_ok
    | with_reducible apply Ok.sys | split

theorem motSource_ok {a i : Nat} {s : State} (hok : Ok P F s) : Ok P F (motSource a i s) := by
  unfold motSource
  try dsimp only
  repeat' first
    | with_reducible assumption | exact Ok.sys (by with_reducible assumption) | with_reducible apply raise_ok

theorem switchAxis_ok {a : Nat} {s : State} (hok : Ok P F s) : Ok P F (switchAxis a s) := by
  unfold switchAxis
  try dsimp only
  repeat' first
    | with_reducible assumption | exact Ok.sys (by with_reducible assumption) | with_reducible apply switchKeys_ok
    | with_reducible apply modAxis_ok | with_reducible apply Ok.sys | split

theorem sampleSources_ok {a : Nat} {old new : Axis} {faulty : Bool} {s : State} (hok : Ok P F s) :
    Ok P F (sampleSources a old new faulty s) := by
  unfold sampleSources
  try dsimp only
  repeat' first
    | with_reducible assumption | exact Ok.sys (by with_reducible assumption) | with_reducible apply motSource_ok
    | with_reducible apply Ok.sys | split

theorem sampleAxis_ok {a : Nat} {i : MotInput} {s0 : State} (hok : Ok P F s0) : Ok P F (sampleAxis a i s0) := by
  unfold sampleAxis
  try dsimp only
  repeat' first
    | with_reducible assumption | exact Ok.sys (by with_reducible assumption) | with_reducible apply switchAxis_ok
    | with_reducible apply modAxis_ok | with_reducible apply bump_ok | with_reducible apply sampleSources_ok
    | with_reducible apply Ok.sys | split

theorem execMotionSample_ok {inputs : List MotInput} {s : State} {u : State} (hok : Ok P F s) (he : execMotionSample inputs s = .next u) :
    Ok P F u := by
  obtain rfl := Host.Outcome.next.inj he
  try dsimp only
  repeat' first
    | with_reducible assumption | exact Ok.sys (by with_reducible assumption) | with_reducible apply sampleAxis_ok
    | (with_reducible apply Ok.foldl; intro _ _ _) | with_reducible apply Ok.sys | split

theorem legalEdge_ok {b o : List Byte} {a k clock : Nat} {s : State} (hok : Ok P F s) :
    Ok P F (legalEdge b o a k clock s) := by
  unfold legalEdge
  try dsimp only
  repeat' first
    | with_reducible assumption | exact Ok.sys (by with_reducible assumption) | with_reducible apply motSource_ok
    | with_reducible apply modAxis_ok | with_reducible apply Ok.sys | split

theorem illegalEdge_ok {a hall : Nat} {s : State} (hok : Ok P F s) : Ok P F (illegalEdge a hall s) := by
  unfold illegalEdge
  try dsimp only
  repeat' first
    | with_reducible assumption | exact Ok.sys (by with_reducible assumption) | with_reducible apply modAxis_ok
    | with_reducible apply motSource_ok | with_reducible apply motEvent_ok | with_reducible apply Ok.sys | split

theorem execHallEdge_ok {axis_ hall clock : Nat} {s : State} {u : State} (hok : Ok P F s) (he : execHallEdge axis_ hall clock s = .next u) :
    Ok P F u := by
  obtain rfl := Host.Outcome.next.inj he
  try dsimp only
  repeat' first
    | with_reducible assumption | exact Ok.sys (by with_reducible assumption) | with_reducible apply legalEdge_ok
    | with_reducible apply illegalEdge_ok | with_reducible apply Ok.sys | split

theorem breakInput_ok {a : Nat} {s : State} (hok : Ok P F s) : Ok P F (breakInput a s) := by
  unfold breakInput
  try dsimp only
  repeat' first
    | with_reducible assumption | exact Ok.sys (by with_reducible assumption) | with_reducible apply modAxis_ok
    | with_reducible apply motSource_ok | with_reducible apply motEvent_ok

theorem execHallIllegalTimeout_ok {axis_ : Nat} {s : State} {u : State} (hok : Ok P F s) (he : execHallIllegalTimeout axis_ s = .next u) :
    Ok P F u := by
  obtain rfl := Host.Outcome.next.inj he
  try dsimp only
  repeat' first
    | with_reducible assumption | exact Ok.sys (by with_reducible assumption) | with_reducible apply breakInput_ok
    | with_reducible apply Ok.sys | split

theorem execInputBroken_ok {axis_ : Nat} {s : State} {u : State} (hok : Ok P F s) (he : execInputBroken axis_ s = .next u) :
    Ok P F u := by
  obtain rfl := Host.Outcome.next.inj he
  try dsimp only
  repeat' first
    | with_reducible assumption | exact Ok.sys (by with_reducible assumption) | with_reducible apply breakInput_ok
    | with_reducible apply Ok.sys | split

theorem execInputRestored_ok {axis_ : Nat} {s : State} {u : State} (hok : Ok P F s) (he : execInputRestored axis_ s = .next u) :
    Ok P F u := by
  obtain rfl := Host.Outcome.next.inj he
  try dsimp only
  repeat' first
    | with_reducible assumption | exact Ok.sys (by with_reducible assumption) | with_reducible apply modAxis_ok
    | with_reducible apply motSource_ok | with_reducible apply motEvent_ok | with_reducible apply Ok.sys | split

theorem execObserverLost_ok {axis_ : Nat} {s : State} {u : State} (hok : Ok P F s) (he : execObserverLost axis_ s = .next u) :
    Ok P F u := by
  obtain rfl := Host.Outcome.next.inj he
  try dsimp only
  repeat' first
    | with_reducible assumption | exact Ok.sys (by with_reducible assumption) | with_reducible apply modAxis_ok
    | with_reducible apply motSource_ok | with_reducible apply motEvent_ok | with_reducible apply Ok.sys | split

theorem execObserverRegained_ok {axis_ : Nat} {s : State} {u : State} (hok : Ok P F s) (he : execObserverRegained axis_ s = .next u) :
    Ok P F u := by
  obtain rfl := Host.Outcome.next.inj he
  try dsimp only
  repeat' first
    | with_reducible assumption | exact Ok.sys (by with_reducible assumption) | with_reducible apply modAxis_ok
    | with_reducible apply motSource_ok | with_reducible apply motEvent_ok | with_reducible apply Ok.sys | split

theorem execStandstill_ok {axis_ : Nat} {s : State} {u : State} (hok : Ok P F s) (he : execStandstill axis_ s = .next u) :
    Ok P F u := by
  obtain rfl := Host.Outcome.next.inj he
  try dsimp only
  repeat' first
    | with_reducible assumption | exact Ok.sys (by with_reducible assumption) | with_reducible apply motSource_ok
    | with_reducible apply modAxis_ok | with_reducible apply Ok.sys | split

theorem execMotProbe_ok {axis_ : Nat} {rising : Bool} {clocks : Nat} {s : State} {u : State} (hok : Ok P F s) (he : execMotProbe axis_ rising clocks s = .next u) :
    Ok P F u := by
  obtain rfl := Host.Outcome.next.inj he
  try dsimp only
  repeat' first
    | with_reducible assumption | exact Ok.sys (by with_reducible assumption) | with_reducible apply modAxis_ok
    | with_reducible apply motSource_ok | with_reducible apply motEvent_ok | with_reducible apply Ok.sys | split

end Sys2Proof.Machine
end

