-- ==== Sys2Proof/Laws/KeepsStreamConfig.lean ====
section
/-! SUPPORT. What each operation of Machine/StreamConfig.lean keeps: see Laws/Keeps.lean. -/

namespace Sys2Proof.Machine

variable {P : List Instr} {F : Tbl Nat}

theorem effectBrdConfigure_ok {c : Cmd} {t : State} (hok : Ok P F t) : Ok P F (effectBrdConfigure c t) := by
  unfold effectBrdConfigure
  try dsimp only
  repeat' first
    | with_reducible assumption | exact Ok.sys (by with_reducible assumption) | with_reducible apply stageCmd_ok

theorem execBrdConfigure_ok {r : CmdRef} {s : State} {u : State} (hok : Ok P F s) (he : execBrdConfigure r s = .next u) :
    Ok P F u := by
  obtain rfl := Host.Outcome.next.inj he
  try dsimp only
  repeat' first
    | with_reducible assumption | exact Ok.sys (by with_reducible assumption) | with_reducible apply runCmd_ok
    | with_reducible apply effectBrdConfigure_ok

theorem effectBrdSpare_ok {c : Cmd} {t : State} (hok : Ok P F t) : Ok P F (effectBrdSpare c t) := by
  unfold effectBrdSpare
  try dsimp only
  repeat' first
    | with_reducible assumption | exact Ok.sys (by with_reducible assumption) | with_reducible apply stageCmd_ok

theorem execBrdSpare_ok {r : CmdRef} {s : State} {u : State} (hok : Ok P F s) (he : execBrdSpare r s = .next u) :
    Ok P F u := by
  obtain rfl := Host.Outcome.next.inj he
  try dsimp only
  repeat' first
    | with_reducible assumption | exact Ok.sys (by with_reducible assumption) | with_reducible apply runCmd_ok
    | with_reducible apply effectBrdSpare_ok

theorem effectCsiConfigure_ok {c : Cmd} {t : State} (hok : Ok P F t) : Ok P F (effectCsiConfigure c t) := by
  unfold effectCsiConfigure
  try dsimp only
  repeat' first
    | with_reducible assumption | exact Ok.sys (by with_reducible assumption) | with_reducible apply stageCmd_ok

theorem execCsiConfigure_ok {r : CmdRef} {s : State} {u : State} (hok : Ok P F s) (he : execCsiConfigure r s = .next u) :
    Ok P F u := by
  obtain rfl := Host.Outcome.next.inj he
  try dsimp only
  repeat' first
    | with_reducible assumption | exact Ok.sys (by with_reducible assumption) | with_reducible apply runCmd_ok
    | with_reducible apply effectCsiConfigure_ok

theorem execCsiCounters_ok {r : CmdRef} {s : State} {u : State} (hok : Ok P F s) (he : execCsiCounters r s = .next u) :
    Ok P F u := by
  obtain rfl := Host.Outcome.next.inj he
  try dsimp only
  repeat' first
    | with_reducible assumption | exact Ok.sys (by with_reducible assumption) | with_reducible apply runCmd_ok
    | with_reducible apply openResults_ok

theorem effectPipeConfigure_ok {c : Cmd} {t : State} (hok : Ok P F t) : Ok P F (effectPipeConfigure c t) := by
  unfold effectPipeConfigure
  try dsimp only
  repeat' first
    | with_reducible assumption | exact Ok.sys (by with_reducible assumption) | with_reducible apply stageCmd_ok

theorem execPipeConfigure_ok {r : CmdRef} {s : State} {u : State} (hok : Ok P F s) (he : execPipeConfigure r s = .next u) :
    Ok P F u := by
  obtain rfl := Host.Outcome.next.inj he
  try dsimp only
  repeat' first
    | with_reducible assumption | exact Ok.sys (by with_reducible assumption) | with_reducible apply runCmd_ok
    | with_reducible apply effectPipeConfigure_ok

theorem effectPipeGridLoad_ok {c : Cmd} {t : State} (hok : Ok P F t) : Ok P F (effectPipeGridLoad c t) := by
  unfold effectPipeGridLoad
  try dsimp only
  repeat' first
    | with_reducible assumption | exact Ok.sys (by with_reducible assumption) | with_reducible apply stageCmd_ok

theorem execPipeGridLoad_ok {r : CmdRef} {s : State} {u : State} (hok : Ok P F s) (he : execPipeGridLoad r s = .next u) :
    Ok P F u := by
  obtain rfl := Host.Outcome.next.inj he
  try dsimp only
  repeat' first
    | with_reducible assumption | exact Ok.sys (by with_reducible assumption) | with_reducible apply runCmd_ok
    | with_reducible apply effectPipeGridLoad_ok

theorem effectPipeBlack_ok {c : Cmd} {t : State} (hok : Ok P F t) : Ok P F (effectPipeBlack c t) := by
  unfold effectPipeBlack
  try dsimp only
  repeat' first
    | with_reducible assumption | exact Ok.sys (by with_reducible assumption) | with_reducible apply stageCmd_ok

theorem execPipeBlack_ok {r : CmdRef} {s : State} {u : State} (hok : Ok P F s) (he : execPipeBlack r s = .next u) :
    Ok P F u := by
  obtain rfl := Host.Outcome.next.inj he
  try dsimp only
  repeat' first
    | with_reducible assumption | exact Ok.sys (by with_reducible assumption) | with_reducible apply runCmd_ok
    | with_reducible apply effectPipeBlack_ok

theorem effectPipeMerge_ok {c : Cmd} {t : State} (hok : Ok P F t) : Ok P F (effectPipeMerge c t) := by
  unfold effectPipeMerge
  try dsimp only
  repeat' first
    | with_reducible assumption | exact Ok.sys (by with_reducible assumption) | with_reducible apply stageCmd_ok

theorem execPipeMerge_ok {r : CmdRef} {s : State} {u : State} (hok : Ok P F s) (he : execPipeMerge r s = .next u) :
    Ok P F u := by
  obtain rfl := Host.Outcome.next.inj he
  try dsimp only
  repeat' first
    | with_reducible assumption | exact Ok.sys (by with_reducible assumption) | with_reducible apply runCmd_ok
    | with_reducible apply effectPipeMerge_ok

theorem effectPipeStats_ok {c : Cmd} {t : State} (hok : Ok P F t) : Ok P F (effectPipeStats c t) := by
  unfold effectPipeStats
  try dsimp only
  repeat' first
    | with_reducible assumption | exact Ok.sys (by with_reducible assumption) | with_reducible apply stageCmd_ok

theorem execPipeStats_ok {r : CmdRef} {s : State} {u : State} (hok : Ok P F s) (he : execPipeStats r s = .next u) :
    Ok P F u := by
  obtain rfl := Host.Outcome.next.inj he
  try dsimp only
  repeat' first
    | with_reducible assumption | exact Ok.sys (by with_reducible assumption) | with_reducible apply runCmd_ok
    | with_reducible apply effectPipeStats_ok

theorem effectColLutLoad_ok {c : Cmd} {t : State} (hok : Ok P F t) : Ok P F (effectColLutLoad c t) := by
  unfold effectColLutLoad
  try dsimp only
  repeat' first
    | with_reducible assumption | exact Ok.sys (by with_reducible assumption) | with_reducible apply stageCmd_ok

theorem execColLutLoad_ok {r : CmdRef} {s : State} {u : State} (hok : Ok P F s) (he : execColLutLoad r s = .next u) :
    Ok P F u := by
  obtain rfl := Host.Outcome.next.inj he
  try dsimp only
  repeat' first
    | with_reducible assumption | exact Ok.sys (by with_reducible assumption) | with_reducible apply runCmd_ok
    | with_reducible apply effectColLutLoad_ok

theorem effectColMatrix_ok {c : Cmd} {t : State} (hok : Ok P F t) : Ok P F (effectColMatrix c t) := by
  unfold effectColMatrix
  try dsimp only
  repeat' first
    | with_reducible assumption | exact Ok.sys (by with_reducible assumption) | with_reducible apply stageCmd_ok

theorem execColMatrix_ok {r : CmdRef} {s : State} {u : State} (hok : Ok P F s) (he : execColMatrix r s = .next u) :
    Ok P F u := by
  obtain rfl := Host.Outcome.next.inj he
  try dsimp only
  repeat' first
    | with_reducible assumption | exact Ok.sys (by with_reducible assumption) | with_reducible apply runCmd_ok
    | with_reducible apply effectColMatrix_ok

theorem effectColWb_ok {c : Cmd} {t : State} (hok : Ok P F t) : Ok P F (effectColWb c t) := by
  unfold effectColWb
  try dsimp only
  repeat' first
    | with_reducible assumption | exact Ok.sys (by with_reducible assumption) | with_reducible apply stageCmd_ok

theorem execColWb_ok {r : CmdRef} {s : State} {u : State} (hok : Ok P F s) (he : execColWb r s = .next u) : Ok P F u := by
  obtain rfl := Host.Outcome.next.inj he
  try dsimp only
  repeat' first
    | with_reducible assumption | exact Ok.sys (by with_reducible assumption) | with_reducible apply runCmd_ok
    | with_reducible apply effectColWb_ok

theorem effectColNr_ok {c : Cmd} {t : State} (hok : Ok P F t) : Ok P F (effectColNr c t) := by
  unfold effectColNr
  try dsimp only
  repeat' first
    | with_reducible assumption | exact Ok.sys (by with_reducible assumption) | with_reducible apply stageCmd_ok

theorem execColNr_ok {r : CmdRef} {s : State} {u : State} (hok : Ok P F s) (he : execColNr r s = .next u) : Ok P F u := by
  obtain rfl := Host.Outcome.next.inj he
  try dsimp only
  repeat' first
    | with_reducible assumption | exact Ok.sys (by with_reducible assumption) | with_reducible apply runCmd_ok
    | with_reducible apply effectColNr_ok

theorem effectColOutput_ok {c : Cmd} {t : State} (hok : Ok P F t) : Ok P F (effectColOutput c t) := by
  unfold effectColOutput
  try dsimp only
  repeat' first
    | with_reducible assumption | exact Ok.sys (by with_reducible assumption) | with_reducible apply stageCmd_ok

theorem execColOutput_ok {r : CmdRef} {s : State} {u : State} (hok : Ok P F s) (he : execColOutput r s = .next u) :
    Ok P F u := by
  obtain rfl := Host.Outcome.next.inj he
  try dsimp only
  repeat' first
    | with_reducible assumption | exact Ok.sys (by with_reducible assumption) | with_reducible apply runCmd_ok
    | with_reducible apply effectColOutput_ok

end Sys2Proof.Machine
end

