-- ==== Sys2Proof/Laws/KeepsDevelop.lean ====
section
/-! SUPPORT. What each operation of Machine/Develop.lean keeps: see Laws/Keeps.lean. -/

namespace Sys2Proof.Machine

variable {P : List Instr} {F : Tbl Nat}

theorem writeRows_ok {base fmt w h c0 n a b : Nat} {bytes : List Byte} {s : State} (hok : Ok P F s) :
    Ok P F (writeRows base fmt w h c0 n a b bytes s) := by
  unfold writeRows
  try dsimp only
  repeat' first
    | with_reducible assumption | exact Ok.sys (by with_reducible assumption) | with_reducible apply hbmWrite_ok
    | (with_reducible apply Ok.foldl; intro _ _ _)

theorem modTapSlot_ok {i k slot : Nat} {g : TapSlot → TapSlot} {s : State} (hok : Ok P F s) :
    Ok P F (modTapSlot i k slot g s) := by
  unfold modTapSlot
  try dsimp only
  repeat' first
    | with_reducible assumption | exact Ok.sys (by with_reducible assumption) | with_reducible apply modStream_ok

theorem dropOldSlots_ok {i k : Nat} {s : State} (hok : Ok P F s) : Ok P F (dropOldSlots i k s) := by
  unfold dropOldSlots
  try dsimp only
  repeat' first
    | with_reducible assumption | exact Ok.sys (by with_reducible assumption) | with_reducible apply modStream_ok

theorem openTapSlots_ok {cfg : Tbl CfgVal} {i serial : Nat} {time : Time} {slots : List (Option Nat)} {s : State} (hok : Ok P F s) :
    Ok P F (openTapSlots cfg i serial time slots s) := by
  unfold openTapSlots
  try dsimp only
  repeat' first
    | with_reducible assumption | exact Ok.sys (by with_reducible assumption) | with_reducible apply modStream_ok
    | with_reducible apply dropOldSlots_ok | (with_reducible apply Ok.foldl; intro _ _ _) | with_reducible apply Ok.sys
    | split

theorem sendMerge_ok {k serial : Nat} {x : TapCfg} {c0 n a b : Nat} {bytes : List Byte} {s : State} (hok : Ok P F s) :
    Ok P F (sendMerge k serial x c0 n a b bytes s) := by
  unfold sendMerge
  try dsimp only
  repeat' first
    | with_reducible assumption | exact Ok.sys (by with_reducible assumption) | with_reducible apply tthSend_ok
    | (with_reducible apply Ok.foldl; intro _ _ _)

theorem patchSlot_ok {i k key : Nat} {s : State} (hok : Ok P F s) : Ok P F (patchSlot i k key s) := by
  unfold patchSlot
  try dsimp only
  repeat' first
    | with_reducible assumption | exact Ok.sys (by with_reducible assumption) | with_reducible apply modTapSlot_ok
    | with_reducible apply writeRows_ok | with_reducible apply Ok.sys | split

theorem patchPending_ok {i k : Nat} {s : State} (hok : Ok P F s) : Ok P F (patchPending i k s) := by
  unfold patchPending
  try dsimp only
  repeat' first
    | with_reducible assumption | exact Ok.sys (by with_reducible assumption) | with_reducible apply raise_ok
    | with_reducible apply patchSlot_ok | (with_reducible apply Ok.foldl; intro _ _ _) | with_reducible apply Ok.sys | split

theorem writeTap_ok {i k : Nat} {p : PipeCfg} {fr : Frame} {d : Developed} {active : Nat} {ended : Bool} {s : State} (hok : Ok P F s) :
    Ok P F (writeTap i k p fr d active ended s) := by
  unfold writeTap
  try dsimp only
  repeat' first
    | with_reducible assumption | exact Ok.sys (by with_reducible assumption) | with_reducible apply patchPending_ok
    | with_reducible apply modTapSlot_ok | with_reducible apply writeRows_ok | with_reducible apply sendMerge_ok
    | with_reducible apply Ok.sys | split

theorem writeTaps_ok {i : Nat} {p : PipeCfg} {fr : Frame} {d : Developed} {active : Nat} {ended : Bool} {s : State} (hok : Ok P F s) :
    Ok P F (writeTaps i p fr d active ended s) := by
  unfold writeTaps
  try dsimp only
  repeat' first
    | with_reducible assumption | exact Ok.sys (by with_reducible assumption) | with_reducible apply writeTap_ok
    | (with_reducible apply Ok.foldl; intro _ _ _)

theorem commitTapSlots_ok {i : Nat} {slots : List (Option Nat)} {verdict : Nat} {s : State} (hok : Ok P F s) :
    Ok P F (commitTapSlots i slots verdict s) := by
  unfold commitTapSlots
  try dsimp only
  repeat' first
    | with_reducible assumption | exact Ok.sys (by with_reducible assumption) | with_reducible apply modTapSlot_ok
    | (with_reducible apply Ok.foldl; intro _ _ _) | with_reducible apply Ok.sys | split

theorem retractTapSlots_ok {i : Nat} {slots : List (Option Nat)} {verdict : Nat} {s : State} (hok : Ok P F s) :
    Ok P F (retractTapSlots i slots verdict s) := by
  unfold retractTapSlots
  try dsimp only
  repeat' first
    | with_reducible assumption | exact Ok.sys (by with_reducible assumption) | with_reducible apply modTapSlot_ok
    | (with_reducible apply Ok.foldl; intro _ _ _) | with_reducible apply Ok.sys | split

theorem execTapPatchDone_ok {stream_ tap : Nat} {s : State} {u : State} (hok : Ok P F s) (he : execTapPatchDone stream_ tap s = .next u) :
    Ok P F u := by
  obtain rfl := Host.Outcome.next.inj he
  try dsimp only
  repeat' first
    | with_reducible assumption | exact Ok.sys (by with_reducible assumption) | with_reducible apply patchPending_ok
    | with_reducible apply Ok.sys | split

theorem streamSource_ok {i first other : Nat} {s : State} (hok : Ok P F s) : Ok P F (streamSource i first other s) := by
  unfold streamSource
  try dsimp only
  repeat' first
    | with_reducible assumption | exact Ok.sys (by with_reducible assumption) | with_reducible apply raise_ok

theorem publishStats_ok {i : Nat} {t : Tbl CfgVal} {p : PipeCfg} {serial verdict epoch : Nat} {img : List (List Rgb)} {s : State} (hok : Ok P F s) :
    Ok P F (publishStats i t p serial verdict epoch img s) := by
  unfold publishStats
  try dsimp only
  repeat' first
    | with_reducible assumption | exact Ok.sys (by with_reducible assumption) | with_reducible apply hbmWrite_ok
    | with_reducible apply modStream_ok | with_reducible apply streamSource_ok | with_reducible apply unitEvent_ok

theorem dropStats_ok {i : Nat} {s : State} (hok : Ok P F s) : Ok P F (dropStats i s) := by
  unfold dropStats
  try dsimp only
  repeat' first
    | with_reducible assumption | exact Ok.sys (by with_reducible assumption) | with_reducible apply streamSource_ok
    | with_reducible apply modStream_ok

theorem writeTnr_ok {i : Nat} {t : Tbl CfgVal} {p : PipeCfg} {address : Nat} {img : List (List Int)} {s : State} (hok : Ok P F s) :
    Ok P F (writeTnr i t p address img s) := by
  unfold writeTnr
  try dsimp only
  repeat' first
    | with_reducible assumption | exact Ok.sys (by with_reducible assumption) | with_reducible apply hbmWrite_ok
    | with_reducible apply Ok.sys | split

theorem keepTnr_ok {t : Tbl CfgVal} {p : PipeCfg} {fr : Frame} {img : List (List Int)} {s : State} (hok : Ok P F s) :
    Ok P F (keepTnr t p fr img s) := by
  unfold keepTnr
  try dsimp only
  repeat' first
    | with_reducible assumption | exact Ok.sys (by with_reducible assumption) | with_reducible apply writeTnr_ok
    | with_reducible apply modStream_ok | with_reducible apply Ok.sys | split

theorem keepTnrThrough_ok {i : Nat} {t : Tbl CfgVal} {p : PipeCfg} {fr : Frame} {img : List (List Int)} {s : State} (hok : Ok P F s) :
    Ok P F (keepTnrThrough i t p fr img s) := by
  unfold keepTnrThrough
  try dsimp only
  repeat' first
    | with_reducible assumption | exact Ok.sys (by with_reducible assumption) | with_reducible apply modStream_ok
    | with_reducible apply writeTnr_ok | with_reducible apply Ok.sys | split

theorem noteRecord_ok {i serial : Nat} {b : List Byte} {s : State} (hok : Ok P F s) :
    Ok P F (noteRecord i serial b s) := by
  unfold noteRecord
  try dsimp only
  repeat' first
    | with_reducible assumption | exact Ok.sys (by with_reducible assumption) | with_reducible apply modStream_ok

theorem enterConfig_ok {i : Nat} {new : Tbl CfgVal} {s : State} (hok : Ok P F s) : Ok P F (enterConfig i new s) := by
  unfold enterConfig
  try dsimp only
  repeat' first
    | with_reducible assumption | exact Ok.sys (by with_reducible assumption) | with_reducible apply modStream_ok
    | with_reducible apply Ok.sys | split

theorem startConfig_ok {i : Nat} {s : State} (hok : Ok P F s) : Ok P F (startConfig i s) := by
  unfold startConfig
  try dsimp only
  repeat' first
    | with_reducible assumption | exact Ok.sys (by with_reducible assumption) | with_reducible apply switchStream_ok
    | with_reducible apply enterConfig_ok

theorem takeSerial_ok {i : Nat} {time : Time} {s : State} (hok : Ok P F s) : Ok P F (takeSerial i time s) := by
  unfold takeSerial
  try dsimp only
  repeat' first
    | with_reducible assumption | exact Ok.sys (by with_reducible assumption) | with_reducible apply modStream_ok

theorem tellFrozen_ok {i serial : Nat} {bad : Bool} {s : State} (hok : Ok P F s) :
    Ok P F (tellFrozen i serial bad s) := by
  unfold tellFrozen
  try dsimp only
  repeat' first
    | with_reducible assumption | exact Ok.sys (by with_reducible assumption) | with_reducible apply streamSource_ok
    | with_reducible apply bump_ok | with_reducible apply unitEvent_ok | with_reducible apply modStream_ok
    | with_reducible apply Ok.sys | split

theorem tellSplit_ok {i serial : Nat} {rows : List RowRec} {s : State} (hok : Ok P F s) :
    Ok P F (tellSplit i serial rows s) := by
  unfold tellSplit
  try dsimp only
  repeat' first
    | with_reducible assumption | exact Ok.sys (by with_reducible assumption) | with_reducible apply streamSource_ok
    | with_reducible apply unitEvent_ok | with_reducible apply Ok.sys | split

theorem execShadingBlendDone_ok {stream_ : Nat} {s : State} {u : State} (hok : Ok P F s) (he : execShadingBlendDone stream_ s = .next u) :
    Ok P F u := by
  obtain rfl := Host.Outcome.next.inj he
  try dsimp only
  repeat' first
    | with_reducible assumption | exact Ok.sys (by with_reducible assumption) | with_reducible apply modStream_ok
    | with_reducible apply Ok.sys | split

end Sys2Proof.Machine
end

