-- ==== Sys2Proof/Laws/KeepsMuckout.lean ====
section
/-! SUPPORT. What each operation of Machine/Muckout.lean keeps: see Laws/Keeps.lean. -/

namespace Sys2Proof.Machine

variable {P : List Instr} {F : Tbl Nat}

theorem modMck_ok {g : Mck → Mck} {s : State} (hok : Ok P F s) : Ok P F (modMck g s) := by
  unfold modMck
  try dsimp only
  repeat' first
    | with_reducible assumption | exact Ok.sys (by with_reducible assumption)
    | (simp only [ok_mk]; with_reducible apply OkMk.upd)

theorem modMckPipe_ok {p : Nat} {g : MckPipe → MckPipe} {s : State} (hok : Ok P F s) : Ok P F (modMckPipe p g s) := by
  unfold modMckPipe
  try dsimp only
  repeat' first
    | with_reducible assumption | exact Ok.sys (by with_reducible assumption) | with_reducible apply modMck_ok

theorem testEvent_ok {code detail : Nat} {s : State} (hok : Ok P F s) : Ok P F (testEvent code detail s) := by
  unfold testEvent
  try dsimp only
  repeat' first
    | with_reducible assumption | exact Ok.sys (by with_reducible assumption) | with_reducible apply sysEvent_ok

theorem endCycle_ok {s : State} (hok : Ok P F s) : Ok P F (endCycle s) := by
  unfold endCycle
  try dsimp only
  repeat' first
    | with_reducible assumption | exact Ok.sys (by with_reducible assumption) | with_reducible apply raise_ok
    | with_reducible apply testEvent_ok | with_reducible apply modMck_ok

theorem checkCycle_ok {s : State} (hok : Ok P F s) : Ok P F (checkCycle s) := by
  unfold checkCycle
  try dsimp only
  repeat' first
    | with_reducible assumption | exact Ok.sys (by with_reducible assumption) | with_reducible apply endCycle_ok
    | with_reducible apply Ok.sys | split

theorem openWindow_ok {pipe us : Nat} {s : State} (hok : Ok P F s) : Ok P F (openWindow pipe us s) := by
  unfold openWindow
  try dsimp only
  repeat' first
    | with_reducible assumption | exact Ok.sys (by with_reducible assumption) | with_reducible apply modMckPipe_ok
    | with_reducible apply checkCycle_ok | with_reducible apply Ok.sys | split

theorem idleSlice_ok {pipe : Nat} {s : State} (hok : Ok P F s) : Ok P F (idleSlice pipe s) := by
  unfold idleSlice
  try dsimp only
  repeat' first
    | with_reducible assumption | exact Ok.sys (by with_reducible assumption) | with_reducible apply openWindow_ok
    | with_reducible apply Ok.sys | split

theorem abandonSlice_ok {pipe : Nat} {s : State} (hok : Ok P F s) : Ok P F (abandonSlice pipe s) := by
  unfold abandonSlice
  try dsimp only
  repeat' first
    | with_reducible assumption | exact Ok.sys (by with_reducible assumption) | with_reducible apply checkCycle_ok
    | with_reducible apply modMckPipe_ok | with_reducible apply Ok.sys | split

theorem execMuckoutSliceDone_ok {pipe : Nat} {crcMatch : Bool} {s : State} {u : State} (hok : Ok P F s) (he : execMuckoutSliceDone pipe crcMatch s = .next u) :
    Ok P F u := by
  obtain rfl := Host.Outcome.next.inj he
  try dsimp only
  repeat' first
    | with_reducible assumption | exact Ok.sys (by with_reducible assumption) | with_reducible apply modMckPipe_ok
    | with_reducible apply raise_ok | with_reducible apply testEvent_ok | with_reducible apply modMck_ok
    | with_reducible apply checkCycle_ok | with_reducible apply Ok.sys | split

theorem execSpareRowScrub_ok {pc bank row : Nat} {result : ScrubResult} {s : State} {u : State} (hok : Ok P F s) (he : execSpareRowScrub pc bank row result s = .next u) :
    Ok P F u := by
  obtain rfl := Host.Outcome.next.inj he
  try dsimp only
  repeat' first
    | with_reducible assumption | exact Ok.sys (by with_reducible assumption) | with_reducible apply modMck_ok
    | with_reducible apply raise_ok | with_reducible apply testEvent_ok | with_reducible apply checkCycle_ok
    | with_reducible apply Ok.sys | split

theorem execLaneMarginReading_ok {lane_ : Nat} {m : Margins} {s : State} {u : State} (hok : Ok P F s) (he : execLaneMarginReading lane_ m s = .next u) :
    Ok P F u := by
  obtain rfl := Host.Outcome.next.inj he
  try dsimp only
  repeat' first
    | with_reducible assumption | exact Ok.sys (by with_reducible assumption) | with_reducible apply checkCycle_ok
    | with_reducible apply modMck_ok | with_reducible apply modLane_ok | with_reducible apply raise_ok
    | with_reducible apply testEvent_ok | with_reducible apply Ok.sys | split

theorem effectTestMuckout_ok {c : Cmd} {t : State} (hok : Ok P F t) : Ok P F (effectTestMuckout c t) := by
  unfold effectTestMuckout
  try dsimp only
  repeat' first
    | with_reducible assumption | exact Ok.sys (by with_reducible assumption) | with_reducible apply complete_ok
    | with_reducible apply modMck_ok | with_reducible apply Ok.sys | split

theorem execTestMuckout_ok {r : CmdRef} {s : State} {u : State} (hok : Ok P F s) (he : execTestMuckout r s = .next u) :
    Ok P F u := by
  obtain rfl := Host.Outcome.next.inj he
  try dsimp only
  repeat' first
    | with_reducible assumption | exact Ok.sys (by with_reducible assumption) | with_reducible apply runCmd_ok
    | with_reducible apply effectTestMuckout_ok

theorem effectTestPrbs_ok {seen : PrbsSeen} {c : Cmd} {t : State} (hok : Ok P F t) :
    Ok P F (effectTestPrbs seen c t) := by
  unfold effectTestPrbs
  try dsimp only
  repeat' first
    | with_reducible assumption | exact Ok.sys (by with_reducible assumption) | with_reducible apply complete_ok
    | with_reducible apply modLane_ok

theorem execTestPrbs_ok {r : CmdRef} {seen : PrbsSeen} {s : State} {u : State} (hok : Ok P F s) (he : execTestPrbs r seen s = .next u) :
    Ok P F u := by
  obtain rfl := Host.Outcome.next.inj he
  try dsimp only
  repeat' first
    | with_reducible assumption | exact Ok.sys (by with_reducible assumption) | with_reducible apply runCmd_ok
    | with_reducible apply effectTestPrbs_ok

theorem effectTestMargin_ok {c : Cmd} {t : State} (hok : Ok P F t) : Ok P F (effectTestMargin c t) := by
  unfold effectTestMargin
  try dsimp only
  repeat' first
    | with_reducible assumption | exact Ok.sys (by with_reducible assumption) | with_reducible apply modLane_ok
    | with_reducible apply setWaiting_ok | with_reducible apply complete_ok | with_reducible apply Ok.sys | split

theorem execTestMargin_ok {r : CmdRef} {s : State} {u : State} (hok : Ok P F s) (he : execTestMargin r s = .next u) :
    Ok P F u := by
  obtain rfl := Host.Outcome.next.inj he
  try dsimp only
  repeat' first
    | with_reducible assumption | exact Ok.sys (by with_reducible assumption) | with_reducible apply runCmd_ok
    | with_reducible apply effectTestMargin_ok

theorem execTestMarginDone_ok {lane_ : Nat} {m : Margins} {s : State} {u : State} (hok : Ok P F s) (he : execTestMarginDone lane_ m s = .next u) :
    Ok P F u := by
  obtain rfl := Host.Outcome.next.inj he
  try dsimp only
  repeat' first
    | with_reducible assumption | exact Ok.sys (by with_reducible assumption) | with_reducible apply modLane_ok
    | with_reducible apply complete_ok | with_reducible apply Ok.sys | split

end Sys2Proof.Machine
end

