-- ==== Sys2Proof/Laws/KeepsSensor.lean ====
section
/-! SUPPORT. What each operation of Machine/Sensor.lean keeps: see Laws/Keeps.lean. -/

namespace Sys2Proof.Machine

variable {P : List Instr} {F : Tbl Nat}

theorem modBrd_ok {g : Brd → Brd} {s : State} (hok : Ok P F s) : Ok P F (modBrd g s) := by
  unfold modBrd
  try dsimp only
  repeat' first
    | with_reducible assumption | exact Ok.sys (by with_reducible assumption)
    | (simp only [ok_mk]; with_reducible apply OkMk.upd)

theorem modSpi_ok {p : Nat} {g : Spi → Spi} {s : State} (hok : Ok P F s) : Ok P F (modSpi p g s) := by
  unfold modSpi
  try dsimp only
  repeat' first
    | with_reducible assumption | exact Ok.sys (by with_reducible assumption) | with_reducible apply modBrd_ok

theorem modTrig_ok {o : Nat} {g : Trig → Trig} {s : State} (hok : Ok P F s) : Ok P F (modTrig o g s) := by
  unfold modTrig
  try dsimp only
  repeat' first
    | with_reducible assumption | exact Ok.sys (by with_reducible assumption) | with_reducible apply modBrd_ok

theorem startScript_ok {p : Nat} {s : State} (hok : Ok P F s) : Ok P F (startScript p s) := by
  unfold startScript
  try dsimp only
  repeat' first
    | with_reducible assumption | exact Ok.sys (by with_reducible assumption) | with_reducible apply emit_ok
    | with_reducible apply modSpi_ok | with_reducible apply Ok.sys | split

theorem queueScript_ok {p : Nat} {j : SpiJob} {s : State} (hok : Ok P F s) : Ok P F (queueScript p j s) := by
  unfold queueScript
  try dsimp only
  repeat' first
    | with_reducible assumption | exact Ok.sys (by with_reducible assumption) | with_reducible apply startScript_ok
    | with_reducible apply modSpi_ok

theorem execSpiScriptDone_ok {port : Nat} {miso : List Nat} {s : State} {u : State} (hok : Ok P F s) (he : execSpiScriptDone port miso s = .next u) :
    Ok P F u := by
  obtain rfl := Host.Outcome.next.inj he
  try dsimp only
  repeat' first
    | with_reducible assumption | exact Ok.sys (by with_reducible assumption) | with_reducible apply raise_ok
    | with_reducible apply modSpi_ok | with_reducible apply complete_ok | with_reducible apply startScript_ok
    | with_reducible apply Ok.sys | split

theorem effectBrdTrigger_ok {c : Cmd} {t : State} (hok : Ok P F t) : Ok P F (effectBrdTrigger c t) := by
  unfold effectBrdTrigger
  try dsimp only
  repeat' first
    | with_reducible assumption | exact Ok.sys (by with_reducible assumption) | with_reducible apply complete_ok
    | with_reducible apply queueScript_ok | with_reducible apply setWaiting_ok | with_reducible apply modTrig_ok
    | with_reducible apply Ok.sys | split

theorem execBrdTrigger_ok {r : CmdRef} {s : State} {u : State} (hok : Ok P F s) (he : execBrdTrigger r s = .next u) :
    Ok P F u := by
  obtain rfl := Host.Outcome.next.inj he
  try dsimp only
  repeat' first
    | with_reducible assumption | exact Ok.sys (by with_reducible assumption) | with_reducible apply runCmd_ok
    | with_reducible apply effectBrdTrigger_ok

theorem execTriggerEdge_ok {output : Nat} {s : State} {u : State} (hok : Ok P F s) (he : execTriggerEdge output s = .next u) :
    Ok P F u := by
  obtain rfl := Host.Outcome.next.inj he
  try dsimp only
  repeat' first
    | with_reducible assumption | exact Ok.sys (by with_reducible assumption) | with_reducible apply raise_ok
    | with_reducible apply emit_ok | with_reducible apply bump_ok | with_reducible apply modTrig_ok
    | with_reducible apply Ok.sys | split

theorem execTriggerScript_ok {output : Nat} {s : State} {u : State} (hok : Ok P F s) (he : execTriggerScript output s = .next u) :
    Ok P F u := by
  obtain rfl := Host.Outcome.next.inj he
  try dsimp only
  repeat' first
    | with_reducible assumption | exact Ok.sys (by with_reducible assumption) | with_reducible apply queueScript_ok
    | with_reducible apply modTrig_ok | with_reducible apply Ok.sys | split

end Sys2Proof.Machine
end

