-- ==== Sys2Proof/Laws/KeepsZip.lean ====
section
/-! SUPPORT. What each operation of Machine/Zip.lean keeps: see Laws/Keeps.lean. -/

namespace Sys2Proof.Machine

variable {P : List Instr} {F : Tbl Nat}

theorem effectZipConfigure_ok {c : Cmd} {t : State} (hok : Ok P F t) : Ok P F (effectZipConfigure c t) := by
  unfold effectZipConfigure
  try dsimp only
  repeat' first
    | with_reducible assumption | exact Ok.sys (by with_reducible assumption) | with_reducible apply stageCmd_ok

theorem execZipConfigure_ok {r : CmdRef} {s : State} {u : State} (hok : Ok P F s) (he : execZipConfigure r s = .next u) :
    Ok P F u := by
  obtain rfl := Host.Outcome.next.inj he
  try dsimp only
  repeat' first
    | with_reducible assumption | exact Ok.sys (by with_reducible assumption) | with_reducible apply runCmd_ok
    | with_reducible apply effectZipConfigure_ok

theorem effectZipPreroll_ok {c : Cmd} {t : State} (hok : Ok P F t) : Ok P F (effectZipPreroll c t) := by
  unfold effectZipPreroll
  try dsimp only
  repeat' first
    | with_reducible assumption | exact Ok.sys (by with_reducible assumption) | with_reducible apply stageCmd_ok

theorem execZipPreroll_ok {r : CmdRef} {s : State} {u : State} (hok : Ok P F s) (he : execZipPreroll r s = .next u) :
    Ok P F u := by
  obtain rfl := Host.Outcome.next.inj he
  try dsimp only
  repeat' first
    | with_reducible assumption | exact Ok.sys (by with_reducible assumption) | with_reducible apply runCmd_ok
    | with_reducible apply effectZipPreroll_ok

theorem modGroup_ok {z : Nat} {g : Group → Group} {s : State} (hok : Ok P F s) : Ok P F (modGroup z g s) := by
  unfold modGroup
  try dsimp only
  repeat' first
    | with_reducible assumption | exact Ok.sys (by with_reducible assumption)
    | (simp only [ok_mk]; with_reducible apply OkMk.upd)

theorem modRec_ok {g : Rec → Rec} {s : State} (hok : Ok P F s) : Ok P F (modRec g s) := by
  unfold modRec
  try dsimp only
  repeat' first
    | with_reducible assumption | exact Ok.sys (by with_reducible assumption)
    | (simp only [ok_mk]; with_reducible apply OkMk.upd)

theorem modRelay_ok {z : Nat} {g : Relay → Relay} {s : State} (hok : Ok P F s) : Ok P F (modRelay z g s) := by
  unfold modRelay
  try dsimp only
  repeat' first
    | with_reducible assumption | exact Ok.sys (by with_reducible assumption)
    | (simp only [ok_mk]; with_reducible apply OkMk.upd)

theorem raiseLost_ok {z : Nat} {s : State} (hok : Ok P F s) : Ok P F (raiseLost z s) := by
  unfold raiseLost
  try dsimp only
  repeat' first
    | with_reducible assumption | exact Ok.sys (by with_reducible assumption) | with_reducible apply raise_ok
    | (with_reducible apply Ok.foldl; intro _ _ _)

theorem lostToRecorder_ok {z : Nat} {gone : List RingEntry} {s : State} (hok : Ok P F s) :
    Ok P F (lostToRecorder z gone s) := by
  unfold lostToRecorder
  try dsimp only
  repeat' first
    | with_reducible assumption | exact Ok.sys (by with_reducible assumption) | with_reducible apply raise_ok
    | with_reducible apply raiseLost_ok | with_reducible apply unitEvent_ok | with_reducible apply modGroup_ok
    | with_reducible apply Ok.sys | split

theorem lostToRelay_ok {z r : Nat} {gone : List RingEntry} {s : State} (hok : Ok P F s) :
    Ok P F (lostToRelay z r gone s) := by
  unfold lostToRelay
  try dsimp only
  repeat' first
    | with_reducible assumption | exact Ok.sys (by with_reducible assumption) | with_reducible apply raise_ok
    | with_reducible apply raiseLost_ok | with_reducible apply unitEvent_ok | with_reducible apply modRelay_ok
    | with_reducible apply Ok.sys | split

theorem reclaim_ok {z upTo : Nat} {s : State} (hok : Ok P F s) : Ok P F (reclaim z upTo s) := by
  unfold reclaim
  try dsimp only
  repeat' first
    | with_reducible assumption | exact Ok.sys (by with_reducible assumption) | with_reducible apply lostToRelay_ok
    | with_reducible apply lostToRecorder_ok | with_reducible apply modGroup_ok | with_reducible apply Ok.sys | split

theorem ringWrite_ok {z pos : Nat} {bs : List Byte} {s : State} (hok : Ok P F s) : Ok P F (ringWrite z pos bs s) := by
  unfold ringWrite
  try dsimp only
  repeat' first
    | with_reducible assumption | exact Ok.sys (by with_reducible assumption) | with_reducible apply hbmWrite_ok

theorem zipFeed_ok {z : Nat} {p : PipeCfg} {serial : Nat} {rows : List RowRec} {s : State} (hok : Ok P F s) :
    Ok P F (zipFeed z p serial rows s) := by
  unfold zipFeed
  try dsimp only
  repeat' first
    | with_reducible assumption | exact Ok.sys (by with_reducible assumption) | with_reducible apply modGroup_ok
    | with_reducible apply reclaim_ok | with_reducible apply ringWrite_ok | with_reducible apply Ok.sys | split

theorem zipBegin_ok {t : Tbl CfgVal} {z serial : Nat} {s : State} (hok : Ok P F s) : Ok P F (zipBegin t z serial s) := by
  unfold zipBegin
  try dsimp only
  repeat' first
    | with_reducible assumption | exact Ok.sys (by with_reducible assumption) | with_reducible apply modGroup_ok
    | with_reducible apply Ok.sys | split

theorem addEntry_ok {z : Nat} {e : RingEntry} {s : State} (hok : Ok P F s) : Ok P F (addEntry z e s) := by
  unfold addEntry
  try dsimp only
  repeat' first
    | with_reducible assumption | exact Ok.sys (by with_reducible assumption) | with_reducible apply modGroup_ok
    | with_reducible apply modRec_ok

theorem keepRecord_ok {z i : Nat} {p : PipeCfg} {fr : Frame} {w : ZipWork} {meta_ : List Byte} {s : State} (hok : Ok P F s) :
    Ok P F (keepRecord z i p fr w meta_ s) := by
  unfold keepRecord
  try dsimp only
  repeat' first
    | with_reducible assumption | exact Ok.sys (by with_reducible assumption) | with_reducible apply reclaim_ok
    | with_reducible apply addEntry_ok | with_reducible apply ringWrite_ok | with_reducible apply modGroup_ok

theorem zipVerdict_ok {z i : Nat} {p : PipeCfg} {fr : Frame} {meta_ : List Byte} {s : State} (hok : Ok P F s) :
    Ok P F (zipVerdict z i p fr meta_ s) := by
  unfold zipVerdict
  try dsimp only
  repeat' first
    | with_reducible assumption | exact Ok.sys (by with_reducible assumption) | with_reducible apply modGroup_ok
    | with_reducible apply raise_ok | with_reducible apply keepRecord_ok | with_reducible apply addEntry_ok
    | with_reducible apply Ok.sys | split

theorem zipWhole_ok {z i : Nat} {p : PipeCfg} {fr : Frame} {meta_ : List Byte} {s : State} (hok : Ok P F s) :
    Ok P F (zipWhole z i p fr meta_ s) := by
  unfold zipWhole
  try dsimp only
  repeat' first
    | with_reducible assumption | exact Ok.sys (by with_reducible assumption) | with_reducible apply zipVerdict_ok
    | with_reducible apply zipFeed_ok | with_reducible apply zipBegin_ok

theorem sendRelay_ok {r : Nat} {e : RingEntry} {s : State} (hok : Ok P F s) : Ok P F (sendRelay r e s) := by
  unfold sendRelay
  try dsimp only
  repeat' first
    | with_reducible assumption | exact Ok.sys (by with_reducible assumption) | with_reducible apply queueWrite_ok
    | with_reducible apply modRelay_ok | with_reducible apply Ok.sys | split

theorem execRelayPacket_ok {channel : Nat} {s : State} {u : State} (hok : Ok P F s) (he : execRelayPacket channel s = .next u) :
    Ok P F u := by
  obtain rfl := Host.Outcome.next.inj he
  try dsimp only
  repeat' first
    | with_reducible assumption | exact Ok.sys (by with_reducible assumption) | with_reducible apply sendRelay_ok
    | with_reducible apply Ok.sys | split

theorem flushRelay_ok {r : Nat} {s : State} (hok : Ok P F s) : Ok P F (flushRelay r s) := by
  unfold flushRelay
  try dsimp only
  repeat' first
    | with_reducible assumption | exact Ok.sys (by with_reducible assumption) | with_reducible apply modRelay_ok
    | with_reducible apply flushQueue_ok

theorem relayFlushed_ok {r : Nat} {s : State} (hok : Ok P F s) : Ok P F (relayFlushed r s) := by
  unfold relayFlushed
  try dsimp only
  repeat' first
    | with_reducible assumption | exact Ok.sys (by with_reducible assumption) | with_reducible apply raise_ok
    | with_reducible apply unitEvent_ok | with_reducible apply flushRelay_ok

theorem effectZipFlush_ok {c : Cmd} {t : State} (hok : Ok P F t) : Ok P F (effectZipFlush c t) := by
  unfold effectZipFlush
  try dsimp only
  repeat' first
    | with_reducible assumption | exact Ok.sys (by with_reducible assumption) | with_reducible apply complete_ok
    | with_reducible apply relayFlushed_ok

theorem execZipFlush_ok {r : CmdRef} {s : State} {u : State} (hok : Ok P F s) (he : execZipFlush r s = .next u) :
    Ok P F u := by
  obtain rfl := Host.Outcome.next.inj he
  try dsimp only
  repeat' first
    | with_reducible assumption | exact Ok.sys (by with_reducible assumption) | with_reducible apply runCmd_ok
    | with_reducible apply effectZipFlush_ok

end Sys2Proof.Machine
end

