-- ==== Sys2Proof/Laws/KeepsRecord.lean ====
section
/-! SUPPORT. What each operation of Machine/Record.lean keeps: see Laws/Keeps.lean. -/

namespace Sys2Proof.Machine

variable {P : List Instr} {F : Tbl Nat}

theorem modSsd_ok {d : Nat} {g : Ssd → Ssd} {s : State} (hok : Ok P F s) : Ok P F (modSsd d g s) := by
  unfold modSsd
  try dsimp only
  repeat' first
    | with_reducible assumption | exact Ok.sys (by with_reducible assumption) | with_reducible apply modRec_ok

theorem judgeLow_ok {s : State} (hok : Ok P F s) : Ok P F (judgeLow s) := by
  unfold judgeLow
  try dsimp only
  repeat' first
    | with_reducible assumption | exact Ok.sys (by with_reducible assumption) | with_reducible apply modSsd_ok
    | with_reducible apply raise_ok | with_reducible apply unitEvent_ok | (with_reducible apply Ok.foldl; intro _ _ _)
    | with_reducible apply Ok.sys | split

theorem sendAdmin_ok {d : Nat} {l : List NvmeAdmin} {s : State} (hok : Ok P F s) : Ok P F (sendAdmin d l s) := by
  unfold sendAdmin
  try dsimp only
  repeat' first
    | with_reducible assumption | exact Ok.sys (by with_reducible assumption) | with_reducible apply emit_ok
    | (with_reducible apply Ok.foldl; intro _ _ _)

theorem attachSsd_ok {d : Nat} {s : State} (hok : Ok P F s) : Ok P F (attachSsd d s) := by
  unfold attachSsd
  try dsimp only
  repeat' first
    | with_reducible assumption | exact Ok.sys (by with_reducible assumption) | with_reducible apply modSsd_ok
    | with_reducible apply sendAdmin_ok | with_reducible apply lanesTurn_ok | with_reducible apply Ok.sys | split

theorem detachSsds_ok {s : State} (hok : Ok P F s) : Ok P F (detachSsds s) := by
  unfold detachSsds
  try dsimp only
  repeat' first
    | with_reducible assumption | exact Ok.sys (by with_reducible assumption) | with_reducible apply modSsd_ok
    | with_reducible apply sendAdmin_ok | (with_reducible apply Ok.foldl; intro _ _ _) | with_reducible apply Ok.sys | split

theorem pushWrite_ok {w : NvmeWrite} {s : State} (hok : Ok P F s) : Ok P F (pushWrite w s) := by
  unfold pushWrite
  try dsimp only
  repeat' first
    | with_reducible assumption | exact Ok.sys (by with_reducible assumption) | with_reducible apply modRec_ok
    | with_reducible apply attachSsd_ok | with_reducible apply emit_ok | with_reducible apply Ok.sys | split

theorem sendTo_ok {limit : Nat} {s : State} (hok : Ok P F s) : Ok P F (sendTo limit s) := by
  unfold sendTo
  try dsimp only
  repeat' first
    | with_reducible assumption | exact Ok.sys (by with_reducible assumption) | with_reducible apply modRec_ok
    | with_reducible apply pushWrite_ok | (with_reducible apply Ok.foldl; intro _ _ _) | with_reducible apply Ok.sys | split

theorem sendWhole_ok {s : State} (hok : Ok P F s) : Ok P F (sendWhole s) := by
  unfold sendWhole
  try dsimp only
  repeat' first
    | with_reducible assumption | exact Ok.sys (by with_reducible assumption) | with_reducible apply sendTo_ok

theorem placeChunk_ok {s : State} (hok : Ok P F s) : Ok P F (placeChunk s) := by
  unfold placeChunk
  try dsimp only
  repeat' first
    | with_reducible assumption | exact Ok.sys (by with_reducible assumption) | with_reducible apply modSsd_ok
    | (with_reducible apply Ok.foldl; intro _ _ _)

theorem answerStart_ok {first count : Nat} {s : State} (hok : Ok P F s) : Ok P F (answerStart first count s) := by
  unfold answerStart
  try dsimp only
  repeat' first
    | with_reducible assumption | exact Ok.sys (by with_reducible assumption) | with_reducible apply complete_ok
    | with_reducible apply modRec_ok | with_reducible apply Ok.sys | split

theorem mediaFull_ok {s : State} (hok : Ok P F s) : Ok P F (mediaFull s) := by
  unfold mediaFull
  try dsimp only
  repeat' first
    | with_reducible assumption | exact Ok.sys (by with_reducible assumption) | with_reducible apply raise_ok
    | with_reducible apply unitEvent_ok | with_reducible apply modRec_ok

theorem openChunk_ok {s : State} (hok : Ok P F s) : Ok P F (openChunk s) := by
  unfold openChunk
  try dsimp only
  repeat' first
    | with_reducible assumption | exact Ok.sys (by with_reducible assumption) | with_reducible apply placeChunk_ok
    | with_reducible apply mediaFull_ok | with_reducible apply modRec_ok | with_reducible apply pushWrite_ok
    | with_reducible apply Ok.sys | split

theorem putBytes_ok {bs : List Byte} {s : State} (hok : Ok P F s) : Ok P F (putBytes bs s) := by
  unfold putBytes
  try dsimp only
  repeat' first
    | with_reducible assumption | exact Ok.sys (by with_reducible assumption) | with_reducible apply sendWhole_ok
    | with_reducible apply modRec_ok

theorem putIndex_ok {e : IndexEntry} {s : State} (hok : Ok P F s) : Ok P F (putIndex e s) := by
  unfold putIndex
  try dsimp only
  repeat' first
    | with_reducible assumption | exact Ok.sys (by with_reducible assumption) | with_reducible apply modRec_ok

theorem beginClose_ok {reason : Nat} {s : State} (hok : Ok P F s) : Ok P F (beginClose reason s) := by
  unfold beginClose
  try dsimp only
  repeat' first
    | with_reducible assumption | exact Ok.sys (by with_reducible assumption) | with_reducible apply putBytes_ok
    | with_reducible apply modRec_ok | with_reducible apply Ok.sys | split

theorem takeAudio_ok {e : RingEntry} {s : State} (hok : Ok P F s) : Ok P F (takeAudio e s).2 := by
  unfold takeAudio
  try dsimp only
  repeat' first
    | with_reducible assumption | exact Ok.sys (by with_reducible assumption) | with_reducible apply bump_ok
    | with_reducible apply modRec_ok | with_reducible apply Ok.sys | split

theorem writeMeta_ok {e : RingEntry} {off len : Nat} {s : State} (hok : Ok P F s) : Ok P F (writeMeta e off len s) := by
  unfold writeMeta
  try dsimp only
  repeat' first
    | with_reducible assumption | exact Ok.sys (by with_reducible assumption) | with_reducible apply putIndex_ok
    | with_reducible apply putBytes_ok | with_reducible apply beginClose_ok | with_reducible apply modRec_ok
    | with_reducible apply Ok.sys | split

theorem writeFrame_ok {e : RingEntry} {r : List Byte} {s : State} (hok : Ok P F s) : Ok P F (writeFrame e r s) := by
  unfold writeFrame
  try dsimp only
  repeat' first
    | with_reducible assumption | exact Ok.sys (by with_reducible assumption) | with_reducible apply writeMeta_ok
    | with_reducible apply putBytes_ok | with_reducible apply beginClose_ok | with_reducible apply modRec_ok
    | with_reducible apply putIndex_ok | with_reducible apply Ok.sys | split

theorem writeGap_ok {first count reason stream_ : Nat} {s : State} (hok : Ok P F s) :
    Ok P F (writeGap first count reason stream_ s) := by
  unfold writeGap
  try dsimp only
  repeat' first
    | with_reducible assumption | exact Ok.sys (by with_reducible assumption) | with_reducible apply bump_ok
    | with_reducible apply putIndex_ok | with_reducible apply putBytes_ok

theorem keepAudio_ok {z : Nat} {e : RingEntry} {s : State} (hok : Ok P F s) : Ok P F (keepAudio z e s) := by
  unfold keepAudio
  try dsimp only
  repeat' first
    | with_reducible assumption | exact Ok.sys (by with_reducible assumption) | with_reducible apply modGroup_ok

theorem taken_ok {z : Nat} {e : RingEntry} {s : State} (hok : Ok P F s) : Ok P F (taken z e s) := by
  unfold taken
  try dsimp only
  repeat' first
    | with_reducible assumption | exact Ok.sys (by with_reducible assumption) | with_reducible apply modGroup_ok

theorem recordEntry_ok {z : Nat} {e : RingEntry} {s : State} (hok : Ok P F s) : Ok P F (recordEntry z e s) := by
  unfold recordEntry
  try dsimp only
  repeat' first
    | with_reducible assumption | exact Ok.sys (by with_reducible assumption) | with_reducible apply taken_ok
    | with_reducible apply putIndex_ok | with_reducible apply beginClose_ok | with_reducible apply takeAudio_ok
    | with_reducible apply writeFrame_ok | with_reducible apply keepAudio_ok | with_reducible apply Ok.sys | split

theorem leaveChunk_ok {total : Nat} {s : State} (hok : Ok P F s) : Ok P F (leaveChunk total s) := by
  unfold leaveChunk
  try dsimp only
  repeat' first
    | with_reducible assumption | exact Ok.sys (by with_reducible assumption) | with_reducible apply modRec_ok
    | with_reducible apply modSsd_ok | (with_reducible apply Ok.foldl; intro _ _ _)

theorem finishStop_ok {reason : Nat} {s : State} (hok : Ok P F s) : Ok P F (finishStop reason s) := by
  unfold finishStop
  try dsimp only
  repeat' first
    | with_reducible assumption | exact Ok.sys (by with_reducible assumption) | with_reducible apply raise_ok
    | with_reducible apply unitEvent_ok | with_reducible apply modRec_ok | with_reducible apply complete_ok
    | with_reducible apply bump_ok | (with_reducible apply Ok.foldl; intro _ _ _) | with_reducible apply Ok.sys | split

theorem stopFor_ok {reason : Nat} {s : State} (hok : Ok P F s) : Ok P F (stopFor reason s) := by
  unfold stopFor
  try dsimp only
  repeat' first
    | with_reducible assumption | exact Ok.sys (by with_reducible assumption) | with_reducible apply finishStop_ok
    | with_reducible apply modRec_ok | with_reducible apply Ok.sys | split

theorem noteLost_ok {z : Nat} {s : State} (hok : Ok P F s) : Ok P F (noteLost z s) := by
  unfold noteLost
  try dsimp only
  repeat' first
    | with_reducible assumption | exact Ok.sys (by with_reducible assumption) | with_reducible apply writeGap_ok
    | with_reducible apply modGroup_ok | with_reducible apply beginClose_ok | with_reducible apply Ok.sys | split

theorem openToStop_ok {s : State} (hok : Ok P F s) : Ok P F (openToStop s) := by
  unfold openToStop
  try dsimp only
  repeat' first
    | with_reducible assumption | exact Ok.sys (by with_reducible assumption) | with_reducible apply openChunk_ok
    | with_reducible apply finishStop_ok | with_reducible apply Ok.sys | split

theorem stopStep_ok {s : State} (hok : Ok P F s) : Ok P F (stopStep s) := by
  unfold stopStep
  try dsimp only
  repeat' first
    | with_reducible assumption | exact Ok.sys (by with_reducible assumption) | with_reducible apply finishStop_ok
    | with_reducible apply writeFrame_ok | with_reducible apply modRec_ok | with_reducible apply openToStop_ok
    | with_reducible apply noteLost_ok | with_reducible apply beginClose_ok | with_reducible apply Ok.sys | split

theorem thermalEnd_ok {s : State} (hok : Ok P F s) : Ok P F (thermalEnd s) := by
  unfold thermalEnd
  try dsimp only
  repeat' first
    | with_reducible assumption | exact Ok.sys (by with_reducible assumption) | with_reducible apply modGroup_ok
    | with_reducible apply stopFor_ok | (with_reducible apply Ok.foldl; intro _ _ _) | with_reducible apply Ok.sys | split

theorem openFor_ok {e : RingEntry} {s : State} (hok : Ok P F s) : Ok P F (openFor e s) := by
  unfold openFor
  try dsimp only
  repeat' first
    | with_reducible assumption | exact Ok.sys (by with_reducible assumption) | with_reducible apply openChunk_ok
    | with_reducible apply answerStart_ok | with_reducible apply Ok.sys | split

theorem drainOne_ok {s : State} (hok : Ok P F s) : Ok P F (drainOne s) := by
  unfold drainOne
  try dsimp only
  repeat' first
    | with_reducible assumption | exact Ok.sys (by with_reducible assumption) | with_reducible apply stopStep_ok
    | with_reducible apply writeFrame_ok | with_reducible apply modRec_ok | with_reducible apply openChunk_ok
    | with_reducible apply stopFor_ok | with_reducible apply thermalEnd_ok | with_reducible apply openFor_ok
    | with_reducible apply noteLost_ok | with_reducible apply recordEntry_ok | with_reducible apply Ok.sys | split

theorem drainFor_ok  : ∀ (n : Nat)  {s : State}, Ok P F s →
    Ok P F (drainFor n  s) := by
  intro n
  induction n with
  | zero =>
    intro  s h
    unfold drainFor
    try dsimp only
    repeat' with_reducible assumption
  | succ n ih =>
    intro  s h
    unfold drainFor
    try dsimp only
    repeat' first
      | with_reducible apply ih | with_reducible assumption | exact Ok.sys (by with_reducible assumption)
      | with_reducible apply drainOne_ok

theorem drain_ok {s : State} (hok : Ok P F s) : Ok P F (drain s) := by
  unfold drain
  try dsimp only
  repeat' first
    | with_reducible assumption | exact Ok.sys (by with_reducible assumption) | with_reducible apply judgeLow_ok
    | with_reducible apply drainFor_ok

theorem beginAt_ok {e : RingEntry} {s : State} (hok : Ok P F s) : Ok P F (beginAt e s) := by
  unfold beginAt
  try dsimp only
  repeat' first
    | with_reducible assumption | exact Ok.sys (by with_reducible assumption) | with_reducible apply modRec_ok
    | with_reducible apply modGroup_ok | (with_reducible apply Ok.foldl; intro _ _ _)

theorem recorderSees_ok {z : Nat} {s : State} (hok : Ok P F s) : Ok P F (recorderSees z s) := by
  unfold recorderSees
  try dsimp only
  repeat' first
    | with_reducible assumption | exact Ok.sys (by with_reducible assumption) | with_reducible apply beginAt_ok
    | with_reducible apply drain_ok | with_reducible apply Ok.sys | split

theorem publishWhole_ok {i : Nat} {p : PipeCfg} {fr : Frame} {meta_ : List Byte} {s : State} (hok : Ok P F s) :
    Ok P F (publishWhole i p fr meta_ s) := by
  unfold publishWhole
  try dsimp only
  repeat' first
    | with_reducible assumption | exact Ok.sys (by with_reducible assumption) | with_reducible apply recorderSees_ok
    | with_reducible apply zipWhole_ok | (with_reducible apply Ok.foldl; intro _ _ _)

theorem sendPadded_ok {body : List Byte} {upTo : Nat} {s : State} (hok : Ok P F s) : Ok P F (sendPadded body upTo s) := by
  unfold sendPadded
  try dsimp only
  repeat' first
    | with_reducible assumption | exact Ok.sys (by with_reducible assumption) | with_reducible apply modRec_ok
    | with_reducible apply sendTo_ok

theorem closePart_ok {reason : Nat} {s : State} (hok : Ok P F s) : Ok P F (closePart reason s) := by
  unfold closePart
  try dsimp only
  repeat' first
    | with_reducible assumption | exact Ok.sys (by with_reducible assumption) | with_reducible apply modRec_ok
    | with_reducible apply sendPadded_ok | with_reducible apply pushWrite_ok | with_reducible apply raise_ok
    | with_reducible apply unitEvent_ok | with_reducible apply leaveChunk_ok | (with_reducible apply Ok.foldl; intro _ _ _)
    | with_reducible apply Ok.sys | split

theorem closeFor_ok  : ∀ (n : Nat)  {s : State}, Ok P F s →
    Ok P F (closeFor n  s) := by
  intro n
  induction n with
  | zero =>
    intro  s h
    unfold closeFor
    try dsimp only
    repeat' with_reducible assumption
  | succ n ih =>
    intro  s h
    unfold closeFor
    try dsimp only
    repeat' first
      | with_reducible apply ih | with_reducible assumption | exact Ok.sys (by with_reducible assumption)
      | with_reducible apply closePart_ok | with_reducible apply Ok.sys | split

theorem closeOn_ok {s : State} (hok : Ok P F s) : Ok P F (closeOn s) := by
  unfold closeOn
  try dsimp only
  repeat' first
    | with_reducible assumption | exact Ok.sys (by with_reducible assumption) | with_reducible apply closeFor_ok
    | with_reducible apply drain_ok | with_reducible apply Ok.sys | split

theorem thermalStopRecorder_ok {s : State} (hok : Ok P F s) : Ok P F (thermalStopRecorder s) := by
  unfold thermalStopRecorder
  try dsimp only
  repeat' first
    | with_reducible assumption | exact Ok.sys (by with_reducible assumption) | with_reducible apply drain_ok
    | with_reducible apply modRec_ok | with_reducible apply stopFor_ok | with_reducible apply Ok.sys | split

theorem execChunkClose_ok {s : State} {u : State} (hok : Ok P F s) (he : execChunkClose s = .next u) : Ok P F u := by
  obtain rfl := Host.Outcome.next.inj he
  try dsimp only
  repeat' first
    | with_reducible assumption | exact Ok.sys (by with_reducible assumption) | with_reducible apply closeOn_ok
    | with_reducible apply thermalStopRecorder_ok | with_reducible apply Ok.sys | split

theorem dropWrite_ok {d : Nat} {w : NvmeWrite} {s : State} (hok : Ok P F s) : Ok P F (dropWrite d w s) := by
  unfold dropWrite
  try dsimp only
  repeat' first
    | with_reducible assumption | exact Ok.sys (by with_reducible assumption) | with_reducible apply modRec_ok
    | with_reducible apply emit_ok | with_reducible apply Ok.sys | split

theorem afterError_ok {w : NvmeWrite} {s : State} (hok : Ok P F s) : Ok P F (afterError w s) := by
  unfold afterError
  try dsimp only
  repeat' first
    | with_reducible assumption | exact Ok.sys (by with_reducible assumption) | with_reducible apply dropWrite_ok
    | with_reducible apply modRec_ok | with_reducible apply Ok.sys | split

theorem mediaError_ok {d status : Nat} {w : NvmeWrite} {s : State} (hok : Ok P F s) :
    Ok P F (mediaError d status w s) := by
  unfold mediaError
  try dsimp only
  repeat' first
    | with_reducible assumption | exact Ok.sys (by with_reducible assumption) | with_reducible apply raise_ok
    | with_reducible apply unitEvent_ok | with_reducible apply sendAdmin_ok | with_reducible apply modRec_ok
    | with_reducible apply finishStop_ok | with_reducible apply leaveChunk_ok | with_reducible apply afterError_ok
    | with_reducible apply Ok.sys | split

theorem failWrite_ok {d status : Nat} {w : NvmeWrite} {s : State} (hok : Ok P F s) : Ok P F (failWrite d status w s) := by
  unfold failWrite
  try dsimp only
  repeat' first
    | with_reducible assumption | exact Ok.sys (by with_reducible assumption) | with_reducible apply mediaError_ok
    | with_reducible apply emit_ok | with_reducible apply modRec_ok | with_reducible apply Ok.sys | split

theorem writeDone_ok {d : Nat} {w : NvmeWrite} {s : State} (hok : Ok P F s) : Ok P F (writeDone d w s) := by
  unfold writeDone
  try dsimp only
  repeat' first
    | with_reducible assumption | exact Ok.sys (by with_reducible assumption) | with_reducible apply dropWrite_ok
    | with_reducible apply judgeLow_ok | with_reducible apply closeOn_ok | with_reducible apply Ok.sys | split

theorem execNvmeWriteComplete_ok {ssd_ status : Nat} {s : State} {u : State} (hok : Ok P F s) (he : execNvmeWriteComplete ssd_ status s = .next u) :
    Ok P F u := by
  obtain rfl := Host.Outcome.next.inj he
  try dsimp only
  repeat' first
    | with_reducible assumption | exact Ok.sys (by with_reducible assumption) | with_reducible apply writeDone_ok
    | with_reducible apply failWrite_ok | with_reducible apply Ok.sys | split

theorem execNvmeWriteTimeout_ok {ssd_ : Nat} {s : State} {u : State} (hok : Ok P F s) (he : execNvmeWriteTimeout ssd_ s = .next u) :
    Ok P F u := by
  obtain rfl := Host.Outcome.next.inj he
  try dsimp only
  repeat' first
    | with_reducible assumption | exact Ok.sys (by with_reducible assumption) | with_reducible apply bump_ok
    | with_reducible apply failWrite_ok | with_reducible apply Ok.sys | split

theorem effectRecExtents_ok {c : Cmd} {t : State} (hok : Ok P F t) : Ok P F (effectRecExtents c t) := by
  unfold effectRecExtents
  try dsimp only
  repeat' first
    | with_reducible assumption | exact Ok.sys (by with_reducible assumption) | with_reducible apply modSsd_ok
    | with_reducible apply modRec_ok | with_reducible apply complete_ok | with_reducible apply drain_ok
    | with_reducible apply Ok.sys | split

theorem execRecExtents_ok {r : CmdRef} {s : State} {u : State} (hok : Ok P F s) (he : execRecExtents r s = .next u) :
    Ok P F u := by
  obtain rfl := Host.Outcome.next.inj he
  try dsimp only
  repeat' first
    | with_reducible assumption | exact Ok.sys (by with_reducible assumption) | with_reducible apply runCmd_ok
    | with_reducible apply effectRecExtents_ok

theorem effectRecStart_ok {c : Cmd} {t : State} (hok : Ok P F t) : Ok P F (effectRecStart c t) := by
  unfold effectRecStart
  try dsimp only
  repeat' first
    | with_reducible assumption | exact Ok.sys (by with_reducible assumption) | with_reducible apply setWaiting_ok
    | with_reducible apply startLeavesSafe_ok | with_reducible apply modRec_ok

theorem execRecStart_ok {r : CmdRef} {s : State} {u : State} (hok : Ok P F s) (he : execRecStart r s = .next u) :
    Ok P F u := by
  obtain rfl := Host.Outcome.next.inj he
  try dsimp only
  repeat' first
    | with_reducible assumption | exact Ok.sys (by with_reducible assumption) | with_reducible apply runCmd_ok
    | with_reducible apply effectRecStart_ok

theorem stopEffect_ok {c : Cmd} {s : State} (hok : Ok P F s) : Ok P F (stopEffect c s) := by
  unfold stopEffect
  try dsimp only
  repeat' first
    | with_reducible assumption | exact Ok.sys (by with_reducible assumption) | with_reducible apply setWaiting_ok
    | with_reducible apply modRec_ok | with_reducible apply complete_ok | with_reducible apply drain_ok
    | with_reducible apply stopFor_ok | with_reducible apply Ok.sys | split

theorem execRecStop_ok {r : CmdRef} {s : State} {u : State} (hok : Ok P F s) (he : execRecStop r s = .next u) :
    Ok P F u := by
  obtain rfl := Host.Outcome.next.inj he
  try dsimp only
  repeat' first
    | with_reducible assumption | exact Ok.sys (by with_reducible assumption) | with_reducible apply runCmd_ok
    | with_reducible apply stopEffect_ok

theorem effectRecKey_ok {c : Cmd} {t : State} (hok : Ok P F t) : Ok P F (effectRecKey c t) := by
  unfold effectRecKey
  try dsimp only
  repeat' first
    | with_reducible assumption | exact Ok.sys (by with_reducible assumption) | with_reducible apply complete_ok
    | with_reducible apply modRec_ok

theorem execRecKey_ok {r : CmdRef} {s : State} {u : State} (hok : Ok P F s) (he : execRecKey r s = .next u) :
    Ok P F u := by
  obtain rfl := Host.Outcome.next.inj he
  try dsimp only
  repeat' first
    | with_reducible assumption | exact Ok.sys (by with_reducible assumption) | with_reducible apply runCmd_ok
    | with_reducible apply effectRecKey_ok

theorem sendHost_ok {d place : Nat} {s : State} (hok : Ok P F s) : Ok P F (sendHost d place s) := by
  unfold sendHost
  try dsimp only
  repeat' first
    | with_reducible assumption | exact Ok.sys (by with_reducible assumption) | with_reducible apply emit_ok
    | with_reducible apply attachSsd_ok | with_reducible apply Ok.sys | split

theorem effectRecStatus_ok {c : Cmd} {t : State} (hok : Ok P F t) : Ok P F (effectRecStatus c t) := by
  unfold effectRecStatus
  try dsimp only
  repeat' first
    | with_reducible assumption | exact Ok.sys (by with_reducible assumption) | with_reducible apply complete_ok
    | with_reducible apply sendHost_ok | with_reducible apply modRec_ok | with_reducible apply setWaiting_ok
    | with_reducible apply Ok.sys | split

theorem execRecStatus_ok {r : CmdRef} {s : State} {u : State} (hok : Ok P F s) (he : execRecStatus r s = .next u) :
    Ok P F u := by
  obtain rfl := Host.Outcome.next.inj he
  try dsimp only
  repeat' first
    | with_reducible assumption | exact Ok.sys (by with_reducible assumption) | with_reducible apply runCmd_ok
    | with_reducible apply effectRecStatus_ok

theorem execNvmeHostAccessDone_ok {r : CmdRef} {ok : Bool} {data : List Byte} {s : State} {u : State} (hok : Ok P F s) (he : execNvmeHostAccessDone r ok data s = .next u) :
    Ok P F u := by
  obtain rfl := Host.Outcome.next.inj he
  try dsimp only
  repeat' first
    | with_reducible assumption | exact Ok.sys (by with_reducible assumption) | with_reducible apply sendHost_ok
    | with_reducible apply modRec_ok | with_reducible apply complete_ok | with_reducible apply bump_ok
    | with_reducible apply Ok.sys | split

theorem stopRecorder_ok {reason : Nat} {s : State} (hok : Ok P F s) : Ok P F (stopRecorder reason s) := by
  unfold stopRecorder
  try dsimp only
  repeat' first
    | with_reducible assumption | exact Ok.sys (by with_reducible assumption) | with_reducible apply drain_ok
    | with_reducible apply stopFor_ok | with_reducible apply Ok.sys | split

theorem effectAudConfigure_ok {c : Cmd} {t : State} (hok : Ok P F t) : Ok P F (effectAudConfigure c t) := by
  unfold effectAudConfigure
  try dsimp only
  repeat' first
    | with_reducible assumption | exact Ok.sys (by with_reducible assumption) | with_reducible apply stageCmd_ok

theorem execAudConfigure_ok {r : CmdRef} {s : State} {u : State} (hok : Ok P F s) (he : execAudConfigure r s = .next u) :
    Ok P F u := by
  obtain rfl := Host.Outcome.next.inj he
  try dsimp only
  repeat' first
    | with_reducible assumption | exact Ok.sys (by with_reducible assumption) | with_reducible apply runCmd_ok
    | with_reducible apply effectAudConfigure_ok

theorem modTdm_ok {a : Nat} {g : Tdm → Tdm} {s : State} (hok : Ok P F s) : Ok P F (modTdm a g s) := by
  unfold modTdm
  try dsimp only
  repeat' first
    | with_reducible assumption | exact Ok.sys (by with_reducible assumption)
    | (simp only [ok_mk]; with_reducible apply OkMk.upd)

theorem audioFrameIn_ok {a : Nat} {b : List Byte} {words : List Nat} {s : State} (hok : Ok P F s) :
    Ok P F (audioFrameIn a b words s) := by
  unfold audioFrameIn
  try dsimp only
  repeat' first
    | with_reducible assumption | exact Ok.sys (by with_reducible assumption) | with_reducible apply modTdm_ok
    | with_reducible apply modRec_ok | with_reducible apply audioFlows_ok | with_reducible apply Ok.sys | split

theorem execAudWordClockFrame_ok {port : Nat} {samples : List Nat} {s : State} {u : State} (hok : Ok P F s) (he : execAudWordClockFrame port samples s = .next u) :
    Ok P F u := by
  obtain rfl := Host.Outcome.next.inj he
  try dsimp only
  repeat' first
    | with_reducible assumption | exact Ok.sys (by with_reducible assumption) | with_reducible apply audioFrameIn_ok
    | with_reducible apply Ok.sys | split

theorem execAudClockLost_ok {port : Nat} {s : State} {u : State} (hok : Ok P F s) (he : execAudClockLost port s = .next u) :
    Ok P F u := by
  obtain rfl := Host.Outcome.next.inj he
  try dsimp only
  repeat' first
    | with_reducible assumption | exact Ok.sys (by with_reducible assumption) | with_reducible apply raise_ok
    | with_reducible apply unitEvent_ok | with_reducible apply modTdm_ok | with_reducible apply Ok.sys | split

theorem execAudClockRestored_ok {port : Nat} {s : State} {u : State} (hok : Ok P F s) (he : execAudClockRestored port s = .next u) :
    Ok P F u := by
  obtain rfl := Host.Outcome.next.inj he
  try dsimp only
  repeat' first
    | with_reducible assumption | exact Ok.sys (by with_reducible assumption) | with_reducible apply raise_ok
    | with_reducible apply unitEvent_ok | with_reducible apply modTdm_ok | with_reducible apply Ok.sys | split

end Sys2Proof.Machine
end

