-- ==== Sys2Proof/Laws/KeepsCoding.lean ====
section
/-! SUPPORT. What each operation of Machine/Coding.lean keeps: see Laws/Keeps.lean. -/

namespace Sys2Proof.Machine

variable {P : List Instr} {F : Tbl Nat}

theorem modEnc_ok {id : Nat} {g : EncSess → EncSess} {s : State} (hok : Ok P F s) : Ok P F (modEnc id g s) := by
  unfold modEnc
  try dsimp only
  repeat' first
    | with_reducible assumption | exact Ok.sys (by with_reducible assumption)
    | (simp only [ok_mk]; with_reducible apply OkMk.upd)

theorem modDec_ok {id : Nat} {g : DecSess → DecSess} {s : State} (hok : Ok P F s) : Ok P F (modDec id g s) := by
  unfold modDec
  try dsimp only
  repeat' first
    | with_reducible assumption | exact Ok.sys (by with_reducible assumption)
    | (simp only [ok_mk]; with_reducible apply OkMk.upd)

theorem effectEncOpen_ok {c : Cmd} {t : State} (hok : Ok P F t) : Ok P F (effectEncOpen c t) := by
  unfold effectEncOpen
  try dsimp only
  repeat' first
    | with_reducible assumption | exact Ok.sys (by with_reducible assumption) | with_reducible apply complete_ok
    | with_reducible apply stagePut_ok | (simp only [ok_mk]; with_reducible apply OkMk.upd)

theorem execEncOpen_ok {r : CmdRef} {s : State} {u : State} (hok : Ok P F s) (he : execEncOpen r s = .next u) :
    Ok P F u := by
  obtain rfl := Host.Outcome.next.inj he
  try dsimp only
  repeat' first
    | with_reducible assumption | exact Ok.sys (by with_reducible assumption) | with_reducible apply runCmd_ok
    | with_reducible apply effectEncOpen_ok

theorem effectEncRate_ok {c : Cmd} {t : State} (hok : Ok P F t) : Ok P F (effectEncRate c t) := by
  unfold effectEncRate
  try dsimp only
  repeat' first
    | with_reducible assumption | exact Ok.sys (by with_reducible assumption) | with_reducible apply complete_ok
    | with_reducible apply stagePut_ok

theorem execEncRate_ok {r : CmdRef} {s : State} {u : State} (hok : Ok P F s) (he : execEncRate r s = .next u) :
    Ok P F u := by
  obtain rfl := Host.Outcome.next.inj he
  try dsimp only
  repeat' first
    | with_reducible assumption | exact Ok.sys (by with_reducible assumption) | with_reducible apply runCmd_ok
    | with_reducible apply effectEncRate_ok

theorem effectEncRoi_ok {c : Cmd} {t : State} (hok : Ok P F t) : Ok P F (effectEncRoi c t) := by
  unfold effectEncRoi
  try dsimp only
  repeat' first
    | with_reducible assumption | exact Ok.sys (by with_reducible assumption) | with_reducible apply stageCmd_ok

theorem execEncRoi_ok {r : CmdRef} {s : State} {u : State} (hok : Ok P F s) (he : execEncRoi r s = .next u) :
    Ok P F u := by
  obtain rfl := Host.Outcome.next.inj he
  try dsimp only
  repeat' first
    | with_reducible assumption | exact Ok.sys (by with_reducible assumption) | with_reducible apply runCmd_ok
    | with_reducible apply effectEncRoi_ok

theorem effectEncStats_ok {c : Cmd} {t : State} (hok : Ok P F t) : Ok P F (effectEncStats c t) := by
  unfold effectEncStats
  try dsimp only
  repeat' first
    | with_reducible assumption | exact Ok.sys (by with_reducible assumption) | with_reducible apply stageCmd_ok

theorem execEncStats_ok {r : CmdRef} {s : State} {u : State} (hok : Ok P F s) (he : execEncStats r s = .next u) :
    Ok P F u := by
  obtain rfl := Host.Outcome.next.inj he
  try dsimp only
  repeat' first
    | with_reducible assumption | exact Ok.sys (by with_reducible assumption) | with_reducible apply runCmd_ok
    | with_reducible apply effectEncStats_ok

theorem queueFrame_ok {fr : EncFrame} {l : List EncSess} {s : State} (hok : Ok P F s) : Ok P F (queueFrame fr l s) := by
  unfold queueFrame
  try dsimp only
  repeat' first
    | with_reducible assumption | exact Ok.sys (by with_reducible assumption) | with_reducible apply modEnc_ok
    | (with_reducible apply Ok.foldl; intro _ _ _)

theorem encFrameStarts_ok {f : Frame} {s : State} (hok : Ok P F s) : Ok P F (encFrameStarts f s) := by
  unfold encFrameStarts
  try dsimp only
  repeat' first
    | with_reducible assumption | exact Ok.sys (by with_reducible assumption) | with_reducible apply queueFrame_ok

theorem encTapCommitted_ok {i : Nat} {f : Frame} {s : State} (hok : Ok P F s) : Ok P F (encTapCommitted i f s) := by
  unfold encTapCommitted
  try dsimp only
  repeat' first
    | with_reducible assumption | exact Ok.sys (by with_reducible assumption) | with_reducible apply queueFrame_ok
    | (with_reducible apply Ok.foldl; intro _ _ _) | with_reducible apply Ok.sys | split

theorem encTapRows_ok {p : PipeCfg} {fr : Frame} {d : Developed} {active : Nat} {ended : Bool} {s : State} (hok : Ok P F s) :
    Ok P F (encTapRows p fr d active ended s) := by
  unfold encTapRows
  try dsimp only
  repeat' first
    | with_reducible assumption | exact Ok.sys (by with_reducible assumption) | with_reducible apply modEnc_ok
    | (with_reducible apply Ok.foldl; intro _ _ _) | with_reducible apply Ok.sys | split

theorem tellLate_ok {x : EncSess} {div serial : Nat} {late : Bool} {s : State} (hok : Ok P F s) :
    Ok P F (tellLate x div serial late s) := by
  unfold tellLate
  try dsimp only
  repeat' first
    | with_reducible assumption | exact Ok.sys (by with_reducible assumption) | with_reducible apply modEnc_ok
    | with_reducible apply raise_ok | with_reducible apply unitEvent_ok | with_reducible apply Ok.sys | split

theorem stallPicture_ok {x : EncSess} {r : RateCfg} {e : EncCfg} {serial : Nat} {s : State} (hok : Ok P F s) :
    Ok P F (stallPicture x r e serial s) := by
  unfold stallPicture
  try dsimp only
  repeat' first
    | with_reducible assumption | exact Ok.sys (by with_reducible assumption) | with_reducible apply raise_ok
    | with_reducible apply unitEvent_ok | with_reducible apply modEnc_ok

theorem beginPicture_ok {x : EncSess} {r : RateCfg} {e : EncCfg} {div : Nat} {fr : EncFrame} {s : State} (hok : Ok P F s) :
    Ok P F (beginPicture x r e div fr s) := by
  unfold beginPicture
  try dsimp only
  repeat' first
    | with_reducible assumption | exact Ok.sys (by with_reducible assumption) | with_reducible apply modEnc_ok
    | with_reducible apply raise_ok | with_reducible apply tellLate_ok | with_reducible apply Ok.sys | split

theorem execEncPictureStart_ok {session : Nat} {s : State} {u : State} (hok : Ok P F s) (he : execEncPictureStart session s = .next u) :
    Ok P F u := by
  obtain rfl := Host.Outcome.next.inj he
  try dsimp only
  repeat' first
    | with_reducible assumption | exact Ok.sys (by with_reducible assumption) | with_reducible apply modEnc_ok
    | with_reducible apply stallPicture_ok | with_reducible apply beginPicture_ok | with_reducible apply Ok.sys | split

theorem pump_ok {id q : Nat} : ∀ (n : Nat)  {s : State}, Ok P F s →
    Ok P F (pump id q n  s) := by
  intro n
  induction n with
  | zero =>
    intro  s h
    unfold pump
    try dsimp only
    repeat' with_reducible assumption
  | succ n ih =>
    intro  s h
    unfold pump
    try dsimp only
    repeat' first
      | with_reducible apply ih | with_reducible assumption | exact Ok.sys (by with_reducible assumption)
      | with_reducible apply queueWrite_ok | with_reducible apply modEnc_ok | with_reducible apply Ok.sys | split

theorem dropSession_ok {x : EncSess} {s : State} (hok : Ok P F s) : Ok P F (dropSession x s) := by
  unfold dropSession
  try dsimp only
  repeat' first
    | with_reducible assumption | exact Ok.sys (by with_reducible assumption)
    | (simp only [ok_mk]; with_reducible apply OkMk.upd)

theorem tryClose_ok {id : Nat} {s : State} (hok : Ok P F s) : Ok P F (tryClose id s) := by
  unfold tryClose
  try dsimp only
  repeat' first
    | with_reducible assumption | exact Ok.sys (by with_reducible assumption) | with_reducible apply dropSession_ok
    | with_reducible apply complete_ok | with_reducible apply Ok.sys | split

theorem pumpSession_ok {x : EncSess} {q : Nat} {s : State} (hok : Ok P F s) : Ok P F (pumpSession x q s) := by
  unfold pumpSession
  try dsimp only
  repeat' first
    | with_reducible assumption | exact Ok.sys (by with_reducible assumption) | with_reducible apply tryClose_ok
    | with_reducible apply pump_ok

theorem exportStats_ok {x : EncSess} {e : EncCfg} {p : EncPic} {c : CodedPic} {s : State} (hok : Ok P F s) :
    Ok P F (exportStats x e p c s) := by
  unfold exportStats
  try dsimp only
  repeat' first
    | with_reducible assumption | exact Ok.sys (by with_reducible assumption) | with_reducible apply modEnc_ok
    | with_reducible apply raise_ok | with_reducible apply unitEvent_ok | with_reducible apply hbmWrite_ok
    | with_reducible apply Ok.sys | split

theorem keepStats_ok {id dev serial : Nat} {v : PeerStats} {s : State} (hok : Ok P F s) :
    Ok P F (keepStats id dev serial v s) := by
  unfold keepStats
  try dsimp only
  repeat' first
    | with_reducible assumption | exact Ok.sys (by with_reducible assumption) | with_reducible apply modEnc_ok

theorem sendPicture_ok {x : EncSess} {e : EncCfg} {p : EncPic} {c : CodedPic} {s : State} (hok : Ok P F s) :
    Ok P F (sendPicture x e p c s) := by
  unfold sendPicture
  try dsimp only
  repeat' first
    | with_reducible assumption | exact Ok.sys (by with_reducible assumption) | with_reducible apply pumpSession_ok
    | with_reducible apply modEnc_ok

theorem assemble_ok {id : Nat} {s : State} (hok : Ok P F s) : Ok P F (assemble id s) := by
  unfold assemble
  try dsimp only
  repeat' first
    | with_reducible assumption | exact Ok.sys (by with_reducible assumption) | with_reducible apply sendPicture_ok
    | with_reducible apply modEnc_ok | with_reducible apply Ok.sys | split

theorem releasePicture_ok {x : EncSess} {e : EncCfg} {p : EncPic} {c : CodedPic} {s : State} (hok : Ok P F s) :
    Ok P F (releasePicture x e p c s) := by
  unfold releasePicture
  try dsimp only
  repeat' first
    | with_reducible assumption | exact Ok.sys (by with_reducible assumption) | with_reducible apply exportStats_ok
    | with_reducible apply modEnc_ok | with_reducible apply tthBroadcast_ok | with_reducible apply keepStats_ok
    | with_reducible apply assemble_ok | with_reducible apply tryClose_ok | with_reducible apply tthSend_ok
    | with_reducible apply sendPicture_ok | with_reducible apply Ok.sys | split

theorem releaseReady_ok {id : Nat} : ∀ (n : Nat)  {s : State}, Ok P F s →
    Ok P F (releaseReady id n  s) := by
  intro n
  induction n with
  | zero =>
    intro  s h
    unfold releaseReady
    try dsimp only
    repeat' with_reducible assumption
  | succ n ih =>
    intro  s h
    unfold releaseReady
    try dsimp only
    repeat' first
      | with_reducible apply ih | with_reducible assumption | exact Ok.sys (by with_reducible assumption)
      | with_reducible apply releasePicture_ok | with_reducible apply Ok.sys | split

theorem execEncPictureDone_ok {session : Nat} {pic : CodedPic} {s : State} {u : State} (hok : Ok P F s) (he : execEncPictureDone session pic s = .next u) :
    Ok P F u := by
  obtain rfl := Host.Outcome.next.inj he
  try dsimp only
  repeat' first
    | with_reducible assumption | exact Ok.sys (by with_reducible assumption) | with_reducible apply modEnc_ok
    | with_reducible apply raise_ok | with_reducible apply unitEvent_ok | with_reducible apply tryClose_ok
    | with_reducible apply releaseReady_ok | with_reducible apply Ok.sys | split

theorem execEncOutputRelease_ok {session : Nat} {s : State} {u : State} (hok : Ok P F s) (he : execEncOutputRelease session s = .next u) :
    Ok P F u := by
  obtain rfl := Host.Outcome.next.inj he
  try dsimp only
  repeat' first
    | with_reducible assumption | exact Ok.sys (by with_reducible assumption) | with_reducible apply pumpSession_ok
    | with_reducible apply Ok.sys | split

theorem encVerdictOne_ok {serial flags : Nat} {x : EncSess} {s : State} (hok : Ok P F s) :
    Ok P F (encVerdictOne serial flags x s) := by
  unfold encVerdictOne
  try dsimp only
  repeat' first
    | with_reducible assumption | exact Ok.sys (by with_reducible assumption) | with_reducible apply releaseReady_ok
    | with_reducible apply modEnc_ok | with_reducible apply Ok.sys | split

theorem encVerdict_ok {serial flags : Nat} {s : State} (hok : Ok P F s) : Ok P F (encVerdict serial flags s) := by
  unfold encVerdict
  try dsimp only
  repeat' first
    | with_reducible assumption | exact Ok.sys (by with_reducible assumption) | with_reducible apply encVerdictOne_ok
    | (with_reducible apply Ok.foldl; intro _ _ _)

theorem execEncRollback_ok {session : Nat} {s : State} {u : State} (hok : Ok P F s) (he : execEncRollback session s = .next u) :
    Ok P F u := by
  obtain rfl := Host.Outcome.next.inj he
  try dsimp only
  repeat' first
    | with_reducible assumption | exact Ok.sys (by with_reducible assumption) | with_reducible apply modEnc_ok
    | with_reducible apply raise_ok | with_reducible apply unitEvent_ok | with_reducible apply tryClose_ok
    | with_reducible apply releaseReady_ok | with_reducible apply Ok.sys | split

theorem execArraySlicesMissing_ok {session : Nat} {s : State} {u : State} (hok : Ok P F s) (he : execArraySlicesMissing session s = .next u) :
    Ok P F u := by
  obtain rfl := Host.Outcome.next.inj he
  try dsimp only
  repeat' first
    | with_reducible assumption | exact Ok.sys (by with_reducible assumption) | with_reducible apply assemble_ok
    | with_reducible apply raise_ok | with_reducible apply unitEvent_ok | with_reducible apply modEnc_ok
    | with_reducible apply Ok.sys | split

theorem takeSlices_ok {dev serial : Nat} {nals : List (List Byte)} {s : State} (hok : Ok P F s) :
    Ok P F (takeSlices dev serial nals s) := by
  unfold takeSlices
  try dsimp only
  repeat' first
    | with_reducible assumption | exact Ok.sys (by with_reducible assumption) | with_reducible apply assemble_ok
    | with_reducible apply modEnc_ok | with_reducible apply Ok.sys | split

theorem takeStats_ok {dev serial : Nat} {v : PeerStats} {s : State} (hok : Ok P F s) :
    Ok P F (takeStats dev serial v s) := by
  unfold takeStats
  try dsimp only
  repeat' first
    | with_reducible assumption | exact Ok.sys (by with_reducible assumption) | with_reducible apply keepStats_ok
    | with_reducible apply Ok.sys | split

theorem effectEncClose_ok {c : Cmd} {t : State} (hok : Ok P F t) : Ok P F (effectEncClose c t) := by
  unfold effectEncClose
  try dsimp only
  repeat' first
    | with_reducible assumption | exact Ok.sys (by with_reducible assumption) | with_reducible apply tryClose_ok
    | with_reducible apply modEnc_ok | with_reducible apply setWaiting_ok | with_reducible apply Ok.sys | split

theorem execEncClose_ok {r : CmdRef} {s : State} {u : State} (hok : Ok P F s) (he : execEncClose r s = .next u) :
    Ok P F u := by
  obtain rfl := Host.Outcome.next.inj he
  try dsimp only
  repeat' first
    | with_reducible assumption | exact Ok.sys (by with_reducible assumption) | with_reducible apply runCmd_ok
    | with_reducible apply effectEncClose_ok

end Sys2Proof.Machine
end

