-- ==== Sys2Proof/Laws/KeepsDecoding.lean ====
section
/-! SUPPORT. What each operation of Machine/Decoding.lean keeps: see Laws/Keeps.lean. -/

namespace Sys2Proof.Machine

variable {P : List Instr} {F : Tbl Nat}

theorem effectDecOpen_ok {c : Cmd} {t : State} (hok : Ok P F t) : Ok P F (effectDecOpen c t) := by
  unfold effectDecOpen
  try dsimp only
  repeat' first
    | with_reducible assumption | exact Ok.sys (by with_reducible assumption) | with_reducible apply complete_ok
    | with_reducible apply startLeavesSafe_ok | (simp only [ok_mk]; with_reducible apply OkMk.upd)

theorem execDecOpen_ok {r : CmdRef} {s : State} {u : State} (hok : Ok P F s) (he : execDecOpen r s = .next u) :
    Ok P F u := by
  obtain rfl := Host.Outcome.next.inj he
  try dsimp only
  repeat' first
    | with_reducible assumption | exact Ok.sys (by with_reducible assumption) | with_reducible apply runCmd_ok
    | with_reducible apply effectDecOpen_ok

theorem decError_ok {core : Nat} {s : State} {f : DecFault} (hok : Ok P F s) : Ok P F (decError core s f) := by
  unfold decError
  try dsimp only
  repeat' first
    | with_reducible assumption | exact Ok.sys (by with_reducible assumption) | with_reducible apply raise_ok
    | with_reducible apply unitEvent_ok

theorem effectDecSubmit_ok {errs : List DecFault} {c : Cmd} {t : State} (hok : Ok P F t) :
    Ok P F (effectDecSubmit errs c t) := by
  unfold effectDecSubmit
  try dsimp only
  repeat' first
    | with_reducible assumption | exact Ok.sys (by with_reducible assumption) | with_reducible apply complete_ok
    | with_reducible apply raise_ok | with_reducible apply decError_ok | with_reducible apply modDec_ok
    | (with_reducible apply Ok.foldl; intro _ _ _) | with_reducible apply Ok.sys | split

theorem execDecSubmit_ok {r : CmdRef} {errs : List DecFault} {s : State} {u : State} (hok : Ok P F s)
    (he : execDecSubmit r errs s = .next u) :
    Ok P F u := by
  obtain rfl := Host.Outcome.next.inj he
  try dsimp only
  repeat' first
    | with_reducible assumption | exact Ok.sys (by with_reducible assumption) | with_reducible apply runCmd_ok
    | with_reducible apply effectDecSubmit_ok

theorem effectDecClose_ok {c : Cmd} {t : State} (hok : Ok P F t) : Ok P F (effectDecClose c t) := by
  unfold effectDecClose
  try dsimp only
  repeat' first
    | with_reducible assumption | exact Ok.sys (by with_reducible assumption) | with_reducible apply complete_ok
    | (simp only [ok_mk]; with_reducible apply OkMk.upd)

theorem execDecClose_ok {r : CmdRef} {s : State} {u : State} (hok : Ok P F s) (he : execDecClose r s = .next u) :
    Ok P F u := by
  obtain rfl := Host.Outcome.next.inj he
  try dsimp only
  repeat' first
    | with_reducible assumption | exact Ok.sys (by with_reducible assumption) | with_reducible apply runCmd_ok
    | with_reducible apply effectDecClose_ok

theorem decPicture_ok {x : DecSess} {a : DecAu} {q : Sps} {r : Pps} {p : DecodedPic} {s : State} (hok : Ok P F s) :
    Ok P F (decPicture x a q r p s) := by
  unfold decPicture
  try dsimp only
  repeat' first
    | with_reducible assumption | exact Ok.sys (by with_reducible assumption) | with_reducible apply decError_ok
    | with_reducible apply modDec_ok | with_reducible apply hbmWrite_ok | with_reducible apply raise_ok
    | with_reducible apply unitEvent_ok | (with_reducible apply Ok.foldl; intro _ _ _) | with_reducible apply Ok.sys | split

theorem execDecPicture_ok {session : Nat} {pic : DecodedPic} {s : State} {u : State} (hok : Ok P F s) (he : execDecPicture session pic s = .next u) :
    Ok P F u := by
  obtain rfl := Host.Outcome.next.inj he
  try dsimp only
  repeat' first
    | with_reducible assumption | exact Ok.sys (by with_reducible assumption) | with_reducible apply decPicture_ok
    | with_reducible apply Ok.sys | split

end Sys2Proof.Machine
end

