-- ==== Sys2Proof/Laws/KeepsFrames.lean ====
section
/-! SUPPORT. What each operation of Machine/Frames.lean keeps: see Laws/Keeps.lean. -/

namespace Sys2Proof.Machine

variable {P : List Instr} {F : Tbl Nat}

theorem modChan_ok {c : Nat} {g : Chan → Chan} {s : State} (hok : Ok P F s) : Ok P F (modChan c g s) := by
  unfold modChan
  try dsimp only
  repeat' first
    | with_reducible assumption | exact Ok.sys (by with_reducible assumption) | with_reducible apply modBrd_ok
    | (simp only [ok_mk]; with_reducible apply OkMk.upd) | with_reducible apply Ok.sys | split

theorem countChan_ok {c k n : Nat} {s : State} (hok : Ok P F s) : Ok P F (countChan c k n s) := by
  unfold countChan
  try dsimp only
  repeat' first
    | with_reducible assumption | exact Ok.sys (by with_reducible assumption) | with_reducible apply modChan_ok

theorem countLink_ok {k n : Nat} {s : State} (hok : Ok P F s) : Ok P F (countLink k n s) := by
  unfold countLink
  try dsimp only
  repeat' first
    | with_reducible assumption | exact Ok.sys (by with_reducible assumption) | with_reducible apply modBrd_ok

theorem modFrame_ok {i serial : Nat} {g : Frame → Frame} {s : State} (hok : Ok P F s) :
    Ok P F (modFrame i serial g s) := by
  unfold modFrame
  try dsimp only
  repeat' first
    | with_reducible assumption | exact Ok.sys (by with_reducible assumption) | with_reducible apply modStream_ok

theorem setRing_ok {i n v : Nat} {s : State} (hok : Ok P F s) : Ok P F (setRing i n v s) := by
  unfold setRing
  try dsimp only
  repeat' first
    | with_reducible assumption | exact Ok.sys (by with_reducible assumption) | with_reducible apply modStream_ok

theorem decideFrame_ok {i serial : Nat} {s : State} (hok : Ok P F s) : Ok P F (decideFrame i serial s) := by
  unfold decideFrame
  try dsimp only
  repeat' first
    | with_reducible assumption | exact Ok.sys (by with_reducible assumption) | with_reducible apply modFrame_ok
    | with_reducible apply tthBroadcast_ok | with_reducible apply Ok.sys | split

theorem dropPackets_ok {serial : Nat} {f : Frame} {s : State} (hok : Ok P F s) : Ok P F (dropPackets serial f s) := by
  unfold dropPackets
  try dsimp only
  repeat' first
    | with_reducible assumption | exact Ok.sys (by with_reducible assumption) | with_reducible apply modChan_ok
    | (with_reducible apply Ok.foldl; intro _ _ _)

theorem addFlags_ok {i serial flags : Nat} {f : Frame} {s : State} (hok : Ok P F s) :
    Ok P F (addFlags i serial flags f s) := by
  unfold addFlags
  try dsimp only
  repeat' first
    | with_reducible assumption | exact Ok.sys (by with_reducible assumption) | with_reducible apply modFrame_ok
    | with_reducible apply tthBroadcast_ok | with_reducible apply Ok.sys | split

theorem retract_ok {i serial flags : Nat} {s : State} (hok : Ok P F s) : Ok P F (retract i serial flags s) := by
  unfold retract
  try dsimp only
  repeat' first
    | with_reducible assumption | exact Ok.sys (by with_reducible assumption) | with_reducible apply addFlags_ok
    | with_reducible apply dropPackets_ok | with_reducible apply modFrame_ok | with_reducible apply latchLens_ok
    | with_reducible apply decideFrame_ok | with_reducible apply Ok.sys | split

theorem retractAll_ok {i flags : Nat} {s : State} (hok : Ok P F s) : Ok P F (retractAll i flags s) := by
  unfold retractAll
  try dsimp only
  repeat' first
    | with_reducible assumption | exact Ok.sys (by with_reducible assumption) | with_reducible apply retract_ok
    | (with_reducible apply Ok.foldl; intro _ _ _)

theorem sendHalos_ok {p : PipeCfg} {serial y : Nat} {r : RowRec} {s : State} (hok : Ok P F s) :
    Ok P F (sendHalos p serial y r s) := by
  unfold sendHalos
  try dsimp only
  repeat' first
    | with_reducible assumption | exact Ok.sys (by with_reducible assumption) | with_reducible apply tthSend_ok
    | (with_reducible apply Ok.foldl; intro _ _ _) | with_reducible apply Ok.sys | split

theorem placeRow_ok {i : Nat} {p : PipeCfg} {fr : Frame} {r : RowRec} {c : Nat} {s : State} (hok : Ok P F s) :
    Ok P F (placeRow i p fr r c s) := by
  unfold placeRow
  try dsimp only
  repeat' first
    | with_reducible assumption | exact Ok.sys (by with_reducible assumption) | with_reducible apply modFrame_ok
    | with_reducible apply countChan_ok | with_reducible apply hbmWrite_ok | with_reducible apply sendHalos_ok
    | with_reducible apply Ok.sys | split

theorem assembleRows_ok {i serial : Nat} {p : PipeCfg} : ∀ (n : Nat)  {s : State}, Ok P F s →
    Ok P F (assembleRows i serial p n  s) := by
  intro n
  induction n with
  | zero =>
    intro  s h
    unfold assembleRows
    try dsimp only
    repeat' with_reducible assumption
  | succ n ih =>
    intro  s h
    unfold assembleRows
    try dsimp only
    repeat' first
      | with_reducible apply ih | with_reducible assumption | exact Ok.sys (by with_reducible assumption)
      | with_reducible apply placeRow_ok | with_reducible apply Ok.sys | split

theorem formEstimate_ok {p : PipeCfg} {fr : Frame} {avail : Nat} {s : State} (hok : Ok P F s) :
    Ok P F (formEstimate p fr avail s) := by
  unfold formEstimate
  try dsimp only
  repeat' first
    | with_reducible assumption | exact Ok.sys (by with_reducible assumption) | with_reducible apply modStream_ok
    | with_reducible apply modFrame_ok | with_reducible apply Ok.sys | split

theorem tellSplitOnce_ok {i : Nat} {fr : Frame} {rows : List RowRec} {s : State} (hok : Ok P F s) :
    Ok P F (tellSplitOnce i fr rows s) := by
  unfold tellSplitOnce
  try dsimp only
  repeat' first
    | with_reducible assumption | exact Ok.sys (by with_reducible assumption) | with_reducible apply modFrame_ok
    | with_reducible apply tellSplit_ok | with_reducible apply Ok.sys | split

theorem releaseFrame_ok {p : PipeCfg} {fr : Frame} {s : State} (hok : Ok P F s) : Ok P F (releaseFrame p fr s) := by
  unfold releaseFrame
  try dsimp only
  repeat' first
    | with_reducible assumption | exact Ok.sys (by with_reducible assumption) | with_reducible apply formEstimate_ok
    | with_reducible apply modFrame_ok | with_reducible apply tellSplitOnce_ok | with_reducible apply zipFeed_ok
    | with_reducible apply encTapRows_ok | with_reducible apply writeTaps_ok | (with_reducible apply Ok.foldl; intro _ _ _)
    | with_reducible apply Ok.sys | split

theorem releaseRows_ok {s : State} (hok : Ok P F s) : Ok P F (releaseRows s) := by
  unfold releaseRows
  try dsimp only
  repeat' first
    | with_reducible assumption | exact Ok.sys (by with_reducible assumption) | with_reducible apply releaseFrame_ok
    | (with_reducible apply Ok.foldl; intro _ _ _) | with_reducible apply Ok.sys | split

theorem advance_ok {i serial : Nat} {p : PipeCfg} {s : State} (hok : Ok P F s) : Ok P F (advance i serial p s) := by
  unfold advance
  try dsimp only
  repeat' first
    | with_reducible assumption | exact Ok.sys (by with_reducible assumption) | with_reducible apply assembleRows_ok
    | with_reducible apply releaseRows_ok | with_reducible apply Ok.sys | split

theorem checkElastic_ok {serial n : Nat} {s : State} (hok : Ok P F s) : Ok P F (checkElastic serial n s) := by
  unfold checkElastic
  try dsimp only
  repeat' first
    | with_reducible assumption | exact Ok.sys (by with_reducible assumption) | with_reducible apply modBrd_ok
    | with_reducible apply raise_ok | with_reducible apply countLink_ok | with_reducible apply retract_ok
    | with_reducible apply Ok.sys | split

theorem checkSkew_ok {serial : Nat} {p : PipeCfg} {s : State} (hok : Ok P F s) : Ok P F (checkSkew serial p s) := by
  unfold checkSkew
  try dsimp only
  repeat' first
    | with_reducible assumption | exact Ok.sys (by with_reducible assumption) | with_reducible apply retract_ok
    | with_reducible apply Ok.sys | split

end Sys2Proof.Machine
end

