-- ==== Sys2Proof/Laws/KeepsVerdict.lean ====
section
/-! SUPPORT. What each operation of Machine/Verdict.lean keeps: see Laws/Keeps.lean. -/

namespace Sys2Proof.Machine

variable {P : List Instr} {F : Tbl Nat}

theorem countVerdict_ok {flags c : Nat} {s : State} (hok : Ok P F s) : Ok P F (countVerdict flags c s) := by
  unfold countVerdict
  try dsimp only
  repeat' first
    | with_reducible assumption | exact Ok.sys (by with_reducible assumption) | with_reducible apply countChan_ok
    | with_reducible apply raise_ok | with_reducible apply Ok.sys | split

theorem inlineStats_ok {p : PipeCfg} {fr : Frame} {d : Developed} {s : State} (hok : Ok P F s) :
    Ok P F (inlineStats p fr d s) := by
  unfold inlineStats
  try dsimp only
  repeat' first
    | with_reducible assumption | exact Ok.sys (by with_reducible assumption) | with_reducible apply publishStats_ok
    | with_reducible apply Ok.sys | split

theorem inlineGroups_ok {p : PipeCfg} {fr : Frame} {rec_ : List Byte} {s : State} (hok : Ok P F s) :
    Ok P F (inlineGroups p fr rec_ s) := by
  unfold inlineGroups
  try dsimp only
  repeat' first
    | with_reducible assumption | exact Ok.sys (by with_reducible assumption) | with_reducible apply recorderSees_ok
    | with_reducible apply zipVerdict_ok | (with_reducible apply Ok.foldl; intro _ _ _)

theorem commitInline_ok {p : PipeCfg} {fr : Frame} {s : State} (hok : Ok P F s) : Ok P F (commitInline p fr s) := by
  unfold commitInline
  try dsimp only
  repeat' first
    | with_reducible assumption | exact Ok.sys (by with_reducible assumption) | with_reducible apply encTapCommitted_ok
    | with_reducible apply commitTapSlots_ok | with_reducible apply keepTnr_ok | with_reducible apply inlineStats_ok
    | with_reducible apply raise_ok | with_reducible apply encVerdict_ok | with_reducible apply inlineGroups_ok
    | with_reducible apply noteRecord_ok | with_reducible apply Ok.sys | split

theorem retractInline_ok {p : PipeCfg} {fr : Frame} {s : State} (hok : Ok P F s) : Ok P F (retractInline p fr s) := by
  unfold retractInline
  try dsimp only
  repeat' first
    | with_reducible assumption | exact Ok.sys (by with_reducible assumption) | with_reducible apply keepTnr_ok
    | with_reducible apply inlineStats_ok | with_reducible apply retractTapSlots_ok | with_reducible apply raise_ok
    | with_reducible apply unitEvent_ok | with_reducible apply encVerdict_ok | with_reducible apply inlineGroups_ok
    | with_reducible apply modStream_ok | with_reducible apply noteRecord_ok | with_reducible apply Ok.sys | split

theorem noteReady_ok {i : Nat} {s : State} (hok : Ok P F s) : Ok P F (noteReady i s) := by
  unfold noteReady
  try dsimp only
  repeat' first
    | with_reducible assumption | exact Ok.sys (by with_reducible assumption) | with_reducible apply modStream_ok

theorem notePipe_ok {pipe : Nat} {s : State} (hok : Ok P F s) : Ok P F (notePipe pipe s) := by
  unfold notePipe
  try dsimp only
  repeat' first
    | with_reducible assumption | exact Ok.sys (by with_reducible assumption) | with_reducible apply noteReady_ok
    | (with_reducible apply Ok.foldl; intro _ _ _)

theorem handOn_ok {i : Nat} {f : ReadyFrame} {s : State} (hok : Ok P F s) : Ok P F (handOn i f s) := by
  unfold handOn
  try dsimp only
  repeat' first
    | with_reducible assumption | exact Ok.sys (by with_reducible assumption) | with_reducible apply noteReady_ok
    | with_reducible apply setRing_ok | with_reducible apply modStream_ok | with_reducible apply abandonSlice_ok
    | with_reducible apply Ok.sys | split

theorem commitSlot_ok {i : Nat} {p : PipeCfg} {fr : Frame} {s : State} (hok : Ok P F s) :
    Ok P F (commitSlot i p fr s) := by
  unfold commitSlot
  try dsimp only
  repeat' first
    | with_reducible assumption | exact Ok.sys (by with_reducible assumption) | with_reducible apply hbmWrite_ok
    | with_reducible apply handOn_ok | with_reducible apply noteRecord_ok | with_reducible apply modStream_ok
    | with_reducible apply publishWhole_ok | with_reducible apply Ok.sys | split

theorem retractSlot_ok {i : Nat} {p : PipeCfg} {fr : Frame} {s : State} (hok : Ok P F s) :
    Ok P F (retractSlot i p fr s) := by
  unfold retractSlot
  try dsimp only
  repeat' first
    | with_reducible assumption | exact Ok.sys (by with_reducible assumption) | with_reducible apply noteRecord_ok
    | with_reducible apply setRing_ok | with_reducible apply Ok.sys | split

theorem unholdFrame_ok {f : Frame} {s : State} (hok : Ok P F s) : Ok P F (unholdFrame f s) := by
  unfold unholdFrame
  try dsimp only
  repeat' first
    | with_reducible assumption | exact Ok.sys (by with_reducible assumption) | with_reducible apply modFrame_ok
    | with_reducible apply sendHalos_ok | (with_reducible apply Ok.foldl; intro _ _ _) | with_reducible apply Ok.sys | split

theorem unhold_ok {s : State} (hok : Ok P F s) : Ok P F (unhold s) := by
  unfold unhold
  try dsimp only
  repeat' first
    | with_reducible assumption | exact Ok.sys (by with_reducible assumption) | with_reducible apply unholdFrame_ok
    | (with_reducible apply Ok.foldl; intro _ _ _) | with_reducible apply Ok.sys | split

theorem closeFrame_ok {i : Nat} {fr : Frame} {s : State} (hok : Ok P F s) : Ok P F (closeFrame i fr s) := by
  unfold closeFrame
  try dsimp only
  repeat' first
    | with_reducible assumption | exact Ok.sys (by with_reducible assumption) | with_reducible apply modStream_ok
    | (simp only [ok_mk]; with_reducible apply OkMk.upd) | with_reducible apply Ok.sys | split

theorem afterVerdict_ok {p : PipeCfg} {s : State} (hok : Ok P F s) : Ok P F (afterVerdict p s) := by
  unfold afterVerdict
  try dsimp only
  repeat' first
    | with_reducible assumption | exact Ok.sys (by with_reducible assumption) | with_reducible apply releaseRows_ok
    | with_reducible apply unhold_ok | with_reducible apply openWindow_ok | with_reducible apply Ok.sys | split

theorem passVerdict_ok {i : Nat} {p : PipeCfg} {fr : Frame} {s : State} (hok : Ok P F s) :
    Ok P F (passVerdict i p fr s) := by
  unfold passVerdict
  try dsimp only
  repeat' first
    | with_reducible assumption | exact Ok.sys (by with_reducible assumption) | with_reducible apply countVerdict_ok
    | with_reducible apply commitInline_ok | with_reducible apply retractInline_ok | with_reducible apply commitSlot_ok
    | with_reducible apply retractSlot_ok | with_reducible apply closeFrame_ok | with_reducible apply afterVerdict_ok
    | (with_reducible apply Ok.foldl; intro _ _ _) | with_reducible apply Ok.sys | split

theorem deliverDue_ok {i : Nat} : ∀ (n : Nat)  {s : State}, Ok P F s →
    Ok P F (deliverDue i n  s) := by
  intro n
  induction n with
  | zero =>
    intro  s h
    unfold deliverDue
    try dsimp only
    repeat' with_reducible assumption
  | succ n ih =>
    intro  s h
    unfold deliverDue
    try dsimp only
    repeat' first
      | with_reducible apply ih | with_reducible assumption | exact Ok.sys (by with_reducible assumption)
      | with_reducible apply passVerdict_ok | with_reducible apply Ok.sys | split

theorem deliverBefore_ok {i : Nat} {s : State} (hok : Ok P F s) : Ok P F (deliverBefore i s) := by
  unfold deliverBefore
  try dsimp only
  repeat' first
    | with_reducible assumption | exact Ok.sys (by with_reducible assumption) | with_reducible apply deliverDue_ok
    | with_reducible apply Ok.sys | split

theorem execFrameVerdict_ok {stream_ : Nat} {s : State} {u : State} (hok : Ok P F s) (he : execFrameVerdict stream_ s = .next u) :
    Ok P F u := by
  obtain rfl := Host.Outcome.next.inj he
  try dsimp only
  repeat' first
    | with_reducible assumption | exact Ok.sys (by with_reducible assumption) | with_reducible apply passVerdict_ok
    | with_reducible apply Ok.sys | split

theorem pipeStats_ok {i : Nat} {p : PipeCfg} {fr : Frame} {ok : Bool} {d : Developed} {s : State} (hok : Ok P F s) :
    Ok P F (pipeStats i p fr ok d s) := by
  unfold pipeStats
  try dsimp only
  repeat' first
    | with_reducible assumption | exact Ok.sys (by with_reducible assumption) | with_reducible apply publishStats_ok
    | with_reducible apply Ok.sys | split

theorem writeBack_ok {i : Nat} {p : PipeCfg} {fr : Frame} {lost : Bool} {d : Developed} {s : State} (hok : Ok P F s) :
    Ok P F (writeBack i p fr lost d s) := by
  unfold writeBack
  try dsimp only
  repeat' first
    | with_reducible assumption | exact Ok.sys (by with_reducible assumption) | with_reducible apply modStream_ok
    | with_reducible apply raise_ok | with_reducible apply commitTapSlots_ok | with_reducible apply writeTaps_ok
    | with_reducible apply keepTnrThrough_ok | with_reducible apply encTapCommitted_ok | with_reducible apply Ok.sys | split

theorem handOnFinished_ok {i : Nat} {p : PipeCfg} {f : ReadyFrame} {fr : Frame} {d : Developed} {marks : Nat} {s : State} (hok : Ok P F s) :
    Ok P F (handOnFinished i p f fr d marks s) := by
  unfold handOnFinished
  try dsimp only
  repeat' first
    | with_reducible assumption | exact Ok.sys (by with_reducible assumption) | with_reducible apply modStream_ok
    | with_reducible apply raise_ok | with_reducible apply pipeStats_ok | with_reducible apply writeBack_ok
    | with_reducible apply tellSplit_ok | with_reducible apply Ok.sys | split

theorem leavePipe_ok {i : Nat} {f : ReadyFrame} {flags : Nat} {rec_ : List Byte} {s : State} (hok : Ok P F s) :
    Ok P F (leavePipe i f flags rec_ s) := by
  unfold leavePipe
  try dsimp only
  repeat' first
    | with_reducible assumption | exact Ok.sys (by with_reducible assumption) | with_reducible apply noteRecord_ok
    | with_reducible apply modStream_ok | with_reducible apply setRing_ok | with_reducible apply Ok.sys | split

theorem finishFrameIn_ok {i : Nat} {f : ReadyFrame} {s0 : State} (hok : Ok P F s0) : Ok P F (finishFrameIn i f s0) := by
  unfold finishFrameIn
  try dsimp only
  repeat' first
    | with_reducible assumption | exact Ok.sys (by with_reducible assumption) | with_reducible apply hbmTouch_ok
    | with_reducible apply leavePipe_ok | with_reducible apply handOnFinished_ok | with_reducible apply Ok.sys | split

theorem endPipeFrame_ok {pipe : Nat} {s : State} (hok : Ok P F s) : Ok P F (endPipeFrame pipe s) := by
  unfold endPipeFrame
  try dsimp only
  repeat' first
    | with_reducible assumption | exact Ok.sys (by with_reducible assumption) | with_reducible apply finishFrameIn_ok
    | (simp only [ok_mk]; with_reducible apply OkMk.upd) | with_reducible apply Ok.sys | split

theorem startPipeFrame_ok {pipe i : Nat} {s : State} (hok : Ok P F s) : Ok P F (startPipeFrame pipe i s) := by
  unfold startPipeFrame
  try dsimp only
  repeat' first
    | with_reducible assumption | exact Ok.sys (by with_reducible assumption) | with_reducible apply modStream_ok
    | with_reducible apply setRing_ok | with_reducible apply openTapSlots_ok
    | (simp only [ok_mk]; with_reducible apply OkMk.upd) | with_reducible apply Ok.sys | split

theorem execPipeFrameBoundary_ok {pipe : Nat} {s : State} {u : State} (hok : Ok P F s) (he : execPipeFrameBoundary pipe s = .next u) :
    Ok P F u := by
  obtain rfl := Host.Outcome.next.inj he
  try dsimp only
  repeat' first
    | with_reducible assumption | exact Ok.sys (by with_reducible assumption) | with_reducible apply notePipe_ok
    | with_reducible apply endPipeFrame_ok | with_reducible apply noteReady_ok | with_reducible apply startPipeFrame_ok
    | with_reducible apply abandonSlice_ok | with_reducible apply idleSlice_ok | with_reducible apply Ok.sys | split

theorem openPlay_ok {i : Nat} {p : PipeCfg} {s : State} (hok : Ok P F s) : Ok P F (openPlay i p s) := by
  unfold openPlay
  try dsimp only
  repeat' first
    | with_reducible assumption | exact Ok.sys (by with_reducible assumption) | with_reducible apply setRing_ok
    | with_reducible apply modStream_ok | with_reducible apply Ok.sys | split

theorem playWritten_ok {s t : State} {c : Cmd} {p : PipeCfg} {n : Nat} (hok : Ok P F s) (e : playWritten s c p = some (n, t)) :
    Ok P F t := by
  unfold playWritten at e
  obtain ⟨m, -, e⟩ := Option.map_eq_some_iff.1 e
  obtain ⟨-, rfl⟩ := Prod.mk.inj e
  refine hbmWrite_ok ?_
  split
  · exact openPlay_ok hok
  · exact hok

theorem handOnPlay_ok {i n : Nat} {p : PipeCfg} {s : State} (hok : Ok P F s) : Ok P F (handOnPlay i n p s) := by
  unfold handOnPlay
  try dsimp only
  repeat' first
    | with_reducible assumption | exact Ok.sys (by with_reducible assumption) | with_reducible apply takeSerial_ok
    | with_reducible apply startConfig_ok | with_reducible apply hbmWrite_ok | with_reducible apply modStream_ok
    | with_reducible apply clearOverspeed_ok | with_reducible apply dropStats_ok | with_reducible apply publishWhole_ok
    | with_reducible apply handOn_ok | with_reducible apply noteRecord_ok | with_reducible apply Ok.sys | split

theorem playEffect_ok {c : Cmd} {s : State} (hok : Ok P F s) : Ok P F (playEffect c s) := by
  unfold playEffect
  split
  · exact hok
  · split
    · exact hok
    · next e =>
      have ht := playWritten_ok hok e
      split
      · exact complete_ok ht
      · exact complete_ok (handOnPlay_ok ht)

theorem execPipePlay_ok {r : CmdRef} {s : State} {u : State} (hok : Ok P F s) (he : execPipePlay r s = .next u) :
    Ok P F u := by
  obtain rfl := Host.Outcome.next.inj he
  try dsimp only
  repeat' first
    | with_reducible assumption | exact Ok.sys (by with_reducible assumption) | with_reducible apply runCmd_ok
    | with_reducible apply playEffect_ok

theorem clearBrd_ok {vc : Nat} {s : State} (hok : Ok P F s) : Ok P F (clearBrd vc s) := by
  unfold clearBrd
  try dsimp only
  repeat' first
    | with_reducible assumption | exact Ok.sys (by with_reducible assumption) | with_reducible apply modBrd_ok
    | with_reducible apply modChan_ok | with_reducible apply Ok.sys | split

theorem effectBrdCounters_ok {c : Cmd} {t : State} (hok : Ok P F t) : Ok P F (effectBrdCounters c t) := by
  unfold effectBrdCounters
  try dsimp only
  repeat' first
    | with_reducible assumption | exact Ok.sys (by with_reducible assumption) | with_reducible apply complete_ok
    | with_reducible apply clearBrd_ok | with_reducible apply Ok.sys | split

theorem execBrdCounters_ok {r : CmdRef} {s : State} {u : State} (hok : Ok P F s) (he : execBrdCounters r s = .next u) :
    Ok P F u := by
  obtain rfl := Host.Outcome.next.inj he
  try dsimp only
  repeat' first
    | with_reducible assumption | exact Ok.sys (by with_reducible assumption) | with_reducible apply runCmd_ok
    | with_reducible apply effectBrdCounters_ok

end Sys2Proof.Machine
end

