-- ==== Sys2Proof/Laws/KeepsIngest.lean ====
section
/-! SUPPORT. What each operation of Machine/Ingest.lean keeps: see Laws/Keeps.lean. -/

namespace Sys2Proof.Machine

variable {P : List Instr} {F : Tbl Nat}

theorem modBrdLane_ok {l : Nat} {g : BrdLane → BrdLane} {s : State} (hok : Ok P F s) : Ok P F (modBrdLane l g s) := by
  unfold modBrdLane
  try dsimp only
  repeat' first
    | with_reducible assumption | exact Ok.sys (by with_reducible assumption) | with_reducible apply modBrd_ok

theorem spareEngages_ok {before : List Nat} {s : State} (hok : Ok P F s) : Ok P F (spareEngages before s) := by
  unfold spareEngages
  try dsimp only
  repeat' first
    | with_reducible assumption | exact Ok.sys (by with_reducible assumption) | with_reducible apply modBrd_ok
    | with_reducible apply raise_ok | with_reducible apply unitEvent_ok | with_reducible apply countLink_ok
    | (with_reducible apply Ok.foldl; intro _ _ _) | with_reducible apply Ok.sys | split

theorem takeMap_ok {s : State} (hok : Ok P F s) : Ok P F (takeMap s) := by
  unfold takeMap
  try dsimp only
  repeat' first
    | with_reducible assumption | exact Ok.sys (by with_reducible assumption) | with_reducible apply spareEngages_ok
    | with_reducible apply modBrd_ok

theorem execAlignRow_ok {marks seqs : List Nat} {s : State} {u : State} (hok : Ok P F s) (he : execAlignRow marks seqs s = .next u) :
    Ok P F u := by
  obtain rfl := Host.Outcome.next.inj he
  try dsimp only
  repeat' first
    | with_reducible assumption | exact Ok.sys (by with_reducible assumption) | with_reducible apply modLane_ok
    | with_reducible apply modBrdLane_ok | with_reducible apply countLink_ok | with_reducible apply modBrd_ok
    | (with_reducible apply Ok.foldl; intro _ _ _) | with_reducible apply Ok.sys | split

theorem declareDown_ok {l : Nat} {s : State} (hok : Ok P F s) : Ok P F (declareDown l s) := by
  unfold declareDown
  try dsimp only
  repeat' first
    | with_reducible assumption | exact Ok.sys (by with_reducible assumption) | with_reducible apply modLane_ok
    | with_reducible apply modBrdLane_ok | with_reducible apply raise_ok | with_reducible apply unitEvent_ok
    | with_reducible apply modBrd_ok | with_reducible apply queueScript_ok | with_reducible apply retractAll_ok
    | (with_reducible apply Ok.foldl; intro _ _ _) | with_reducible apply Ok.sys | split

theorem execLaneDown_ok {lane_ : Nat} {s : State} {u : State} (hok : Ok P F s) (he : execLaneDown lane_ s = .next u) :
    Ok P F u := by
  obtain rfl := Host.Outcome.next.inj he
  try dsimp only
  repeat' first
    | with_reducible assumption | exact Ok.sys (by with_reducible assumption) | with_reducible apply declareDown_ok
    | with_reducible apply modLane_ok | with_reducible apply Ok.sys | split

theorem execDeskewFailure_ok {lane_ : Nat} {s : State} {u : State} (hok : Ok P F s) (he : execDeskewFailure lane_ s = .next u) :
    Ok P F u := by
  obtain rfl := Host.Outcome.next.inj he
  try dsimp only
  repeat' first
    | with_reducible assumption | exact Ok.sys (by with_reducible assumption) | with_reducible apply declareDown_ok
    | with_reducible apply raise_ok | with_reducible apply Ok.sys | split

theorem execLaneUp_ok {lane_ : Nat} {s : State} {u : State} (hok : Ok P F s) (he : execLaneUp lane_ s = .next u) :
    Ok P F u := by
  obtain rfl := Host.Outcome.next.inj he
  try dsimp only
  repeat' first
    | with_reducible assumption | exact Ok.sys (by with_reducible assumption) | with_reducible apply raise_ok
    | with_reducible apply unitEvent_ok | with_reducible apply modLane_ok | with_reducible apply modBrdLane_ok
    | with_reducible apply Ok.sys | split

theorem tthEvent_ok {code detail : Nat} {s : State} (hok : Ok P F s) : Ok P F (tthEvent code detail s) := by
  unfold tthEvent
  try dsimp only
  repeat' first
    | with_reducible assumption | exact Ok.sys (by with_reducible assumption) | with_reducible apply sysEvent_ok

theorem renumber_ok {t : Tbl CfgVal} {old new : Nat} {s : State} (hok : Ok P F s) : Ok P F (renumber t old new s) := by
  unfold renumber
  try dsimp only
  repeat' first
    | with_reducible assumption | exact Ok.sys (by with_reducible assumption) | with_reducible apply modStream_ok
    | with_reducible apply modFrame_ok | with_reducible apply modChan_ok | (with_reducible apply Ok.foldl; intro _ _ _)
    | (simp only [ok_mk]; with_reducible apply OkMk.upd) | with_reducible apply Ok.sys

theorem checkLeader_ok {serial : Nat} {s : State} (hok : Ok P F s) : Ok P F (checkLeader serial s) := by
  unfold checkLeader
  try dsimp only
  repeat' first
    | with_reducible assumption | exact Ok.sys (by with_reducible assumption) | with_reducible apply raise_ok
    | with_reducible apply tthEvent_ok | with_reducible apply retract_ok | with_reducible apply renumber_ok
    | with_reducible apply Ok.sys | split

theorem dropEarly_ok {i serial : Nat} {s : State} (hok : Ok P F s) : Ok P F (dropEarly i serial s) := by
  unfold dropEarly
  try dsimp only
  repeat' first
    | with_reducible assumption | exact Ok.sys (by with_reducible assumption)
    | (simp only [ok_mk]; with_reducible apply OkMk.upd) | with_reducible apply Ok.sys | split

theorem openTaps_ok {p : PipeCfg} {serial : Nat} {s : State} (hok : Ok P F s) : Ok P F (openTaps p serial s).1 := by
  unfold openTaps
  try dsimp only
  repeat' first
    | with_reducible assumption | exact Ok.sys (by with_reducible assumption) | with_reducible apply raise_ok
    | with_reducible apply openTapSlots_ok | with_reducible apply modFrame_ok | (with_reducible apply Ok.foldl; intro _ _ _)
    | with_reducible apply Ok.sys | split

theorem openStats_ok {i serial : Nat} {p : PipeCfg} {s : State} (hok : Ok P F s) : Ok P F (openStats i serial p s) := by
  unfold openStats
  try dsimp only
  repeat' first
    | with_reducible assumption | exact Ok.sys (by with_reducible assumption) | with_reducible apply dropStats_ok
    | with_reducible apply modFrame_ok | with_reducible apply Ok.sys | split

theorem openInline_ok {p : PipeCfg} {serial : Nat} {s : State} (hok : Ok P F s) : Ok P F (openInline p serial s).1 := by
  unfold openInline
  try dsimp only
  repeat' first
    | with_reducible assumption | exact Ok.sys (by with_reducible assumption) | with_reducible apply modFrame_ok
    | with_reducible apply raise_ok | with_reducible apply openTaps_ok | with_reducible apply openStats_ok
    | with_reducible apply encFrameStarts_ok | with_reducible apply zipBegin_ok | (with_reducible apply Ok.foldl; intro _ _ _)
    | with_reducible apply Ok.sys | split

theorem openSlot_ok {i : Nat} {p : PipeCfg} {serial : Nat} {s : State} (hok : Ok P F s) :
    Ok P F (openSlot i p serial s).1 := by
  unfold openSlot
  try dsimp only
  repeat' first
    | with_reducible assumption | exact Ok.sys (by with_reducible assumption) | with_reducible apply raise_ok
    | with_reducible apply openStats_ok | with_reducible apply setRing_ok | with_reducible apply modFrame_ok
    | with_reducible apply Ok.sys | split

theorem openFrame_ok {i : Nat} {p : PipeCfg} {c : Nat} {b : List Byte} {s : State} (hok : Ok P F s) :
    Ok P F (openFrame i p c b s) := by
  unfold openFrame
  try dsimp only
  repeat' first
    | with_reducible assumption | exact Ok.sys (by with_reducible assumption) | with_reducible apply modBrd_ok
    | with_reducible apply clearOverspeed_ok | with_reducible apply takeSerial_ok | with_reducible apply modStream_ok
    | with_reducible apply modChan_ok | with_reducible apply openInline_ok | with_reducible apply openSlot_ok
    | with_reducible apply tellFrozen_ok | with_reducible apply raise_ok | with_reducible apply noteRecord_ok
    | with_reducible apply dropEarly_ok | with_reducible apply retract_ok | with_reducible apply checkLeader_ok
    | (with_reducible apply Ok.foldl; intro _ _ _) | with_reducible apply Ok.sys | split

theorem joinFrame_ok {i : Nat} {p : PipeCfg} {c serial : Nat} {b : List Byte} {s : State} (hok : Ok P F s) :
    Ok P F (joinFrame i p c serial b s) := by
  unfold joinFrame
  try dsimp only
  repeat' first
    | with_reducible assumption | exact Ok.sys (by with_reducible assumption) | with_reducible apply modChan_ok
    | with_reducible apply modFrame_ok | with_reducible apply retract_ok | with_reducible apply Ok.sys | split

theorem ignoreFrame_ok {c : Nat} {s : State} (hok : Ok P F s) : Ok P F (ignoreFrame c s) := by
  unfold ignoreFrame
  try dsimp only
  repeat' first
    | with_reducible assumption | exact Ok.sys (by with_reducible assumption) | with_reducible apply modChan_ok

theorem closeOpen_ok {i c : Nat} {s : State} (hok : Ok P F s) : Ok P F (closeOpen i c s) := by
  unfold closeOpen
  try dsimp only
  repeat' first
    | with_reducible assumption | exact Ok.sys (by with_reducible assumption) | with_reducible apply retract_ok
    | (with_reducible apply Ok.foldl; intro _ _ _) | with_reducible apply Ok.sys | split

theorem beginFrame_ok {i : Nat} {p : PipeCfg} {c : Nat} {b : List Byte} {s : State} (hok : Ok P F s) :
    Ok P F (beginFrame i p c b s) := by
  unfold beginFrame
  try dsimp only
  repeat' first
    | with_reducible assumption | exact Ok.sys (by with_reducible assumption) | with_reducible apply returnUngone_ok
    | with_reducible apply startConfig_ok | with_reducible apply deliverBefore_ok | with_reducible apply abandonSlice_ok
    | with_reducible apply openFrame_ok | with_reducible apply Ok.sys | split

theorem frameStart_ok {c : Nat} {b : List Byte} {s : State} (hok : Ok P F s) : Ok P F (frameStart c b s) := by
  unfold frameStart
  try dsimp only
  repeat' first
    | with_reducible assumption | exact Ok.sys (by with_reducible assumption) | with_reducible apply closeOpen_ok
    | with_reducible apply joinFrame_ok | with_reducible apply modChan_ok | with_reducible apply beginFrame_ok
    | with_reducible apply ignoreFrame_ok | with_reducible apply Ok.sys | split

theorem takePacket_ok {type : Nat} {p : BrdPacket} {handle : Hdr → Bool → State → State} {s : State} (hg : ∀ b c x, Ok P F x → Ok P F (handle b c x)) (hok : Ok P F s) :
    Ok P F (takePacket type p handle s) := by
  unfold takePacket
  try dsimp only
  repeat' first
    | with_reducible assumption | exact Ok.sys (by with_reducible assumption) | apply hg | with_reducible apply raise_ok
    | with_reducible apply countLink_ok | with_reducible apply countChan_ok | with_reducible apply Ok.sys | split

theorem execFsPacket_ok {p : BrdPacket} {s : State} {u : State} (hok : Ok P F s) (he : execFsPacket p s = .next u) :
    Ok P F u := by
  obtain rfl := Host.Outcome.next.inj he
  try dsimp only
  repeat' first
    | with_reducible assumption | exact Ok.sys (by with_reducible assumption) | with_reducible apply takePacket_ok
    | with_reducible apply frameStart_ok | with_reducible apply takeMap_ok | with_reducible apply Ok.sys | split
    | (intro _ _ _ _)

theorem flagFrame_ok {i c flags : Nat} {s : State} (hok : Ok P F s) : Ok P F (flagFrame i c flags s) := by
  unfold flagFrame
  try dsimp only
  repeat' first
    | with_reducible assumption | exact Ok.sys (by with_reducible assumption) | with_reducible apply modFrame_ok

theorem countFrame_ok {i c k n : Nat} {s : State} (hok : Ok P F s) : Ok P F (countFrame i c k n s) := by
  unfold countFrame
  try dsimp only
  repeat' first
    | with_reducible assumption | exact Ok.sys (by with_reducible assumption) | with_reducible apply modFrame_ok

theorem storeLine_ok {i : Nat} {p : PipeCfg} {c y : Nat} {r : RowRec} {last : Nat} {s : State} (hok : Ok P F s) :
    Ok P F (storeLine i p c y r last s) := by
  unfold storeLine
  try dsimp only
  repeat' first
    | with_reducible assumption | exact Ok.sys (by with_reducible assumption) | with_reducible apply modFrame_ok
    | with_reducible apply Ok.sys | split

theorem fillLines_ok {i : Nat} {q : PipeCfg} {c : Nat} : ∀ (n y : Nat) {s : State}, Ok P F s →
    Ok P F (fillLines i q c y n s) := by
  intro n
  induction n with
  | zero => intro y s h; exact h
  | succ n ih =>
    intro y s h
    unfold fillLines
    exact ih _ (storeLine_ok h)

theorem lineLength_ok {i c n w : Nat} {s : State} (hok : Ok P F s) : Ok P F (lineLength i c n w s) := by
  unfold lineLength
  try dsimp only
  repeat' first
    | with_reducible assumption | exact Ok.sys (by with_reducible assumption) | with_reducible apply raise_ok
    | with_reducible apply countChan_ok | with_reducible apply countFrame_ok | with_reducible apply Ok.sys | split

theorem endLine_ok {i : Nat} {p : PipeCfg} {c : Nat} {eol : Bool} {s : State} (hok : Ok P F s) :
    Ok P F (endLine i p c eol s) := by
  unfold endLine
  try dsimp only
  repeat' first
    | with_reducible assumption | exact Ok.sys (by with_reducible assumption) | with_reducible apply countChan_ok
    | with_reducible apply lineLength_ok | with_reducible apply modChan_ok | with_reducible apply storeLine_ok
    | with_reducible apply Ok.sys | split

theorem skipLines_ok {i : Nat} {p : PipeCfg} {c y : Nat} {s : State} (hok : Ok P F s) : Ok P F (skipLines i p c y s) := by
  unfold skipLines
  try dsimp only
  repeat' first
    | with_reducible assumption | exact Ok.sys (by with_reducible assumption) | with_reducible apply modChan_ok
    | with_reducible apply countChan_ok | with_reducible apply countFrame_ok | with_reducible apply flagFrame_ok
    | with_reducible apply fillLines_ok | with_reducible apply Ok.sys | split

theorem startLine_ok {i : Nat} {p : PipeCfg} {c y gain : Nat} {s : State} (hok : Ok P F s) :
    Ok P F (startLine i p c y gain s) := by
  unfold startLine
  try dsimp only
  repeat' first
    | with_reducible assumption | exact Ok.sys (by with_reducible assumption) | with_reducible apply modChan_ok
    | with_reducible apply skipLines_ok

theorem countPixels_ok {c n : Nat} {b : List Byte} {s : State} (hok : Ok P F s) : Ok P F (countPixels c n b s) := by
  unfold countPixels
  try dsimp only
  repeat' first
    | with_reducible assumption | exact Ok.sys (by with_reducible assumption) | with_reducible apply modChan_ok

theorem linePacket_ok {i : Nat} {p : PipeCfg} {h : Hdr} {ok broken : Bool} {b : List Byte} {s : State} (hok : Ok P F s) :
    Ok P F (linePacket i p h ok broken b s) := by
  unfold linePacket
  try dsimp only
  repeat' first
    | with_reducible assumption | exact Ok.sys (by with_reducible assumption) | with_reducible apply countPixels_ok
    | with_reducible apply advance_ok | with_reducible apply endLine_ok | with_reducible apply raise_ok
    | with_reducible apply countChan_ok | with_reducible apply flagFrame_ok | with_reducible apply startLine_ok
    | with_reducible apply modChan_ok | with_reducible apply checkElastic_ok | with_reducible apply checkSkew_ok
    | with_reducible apply Ok.sys | split

theorem execLdPacket_ok {p : BrdPacket} {s : State} {u : State} (hok : Ok P F s) (he : execLdPacket p s = .next u) :
    Ok P F u := by
  obtain rfl := Host.Outcome.next.inj he
  try dsimp only
  repeat' first
    | with_reducible assumption | exact Ok.sys (by with_reducible assumption) | with_reducible apply takePacket_ok
    | with_reducible apply raise_ok | with_reducible apply countChan_ok | with_reducible apply linePacket_ok
    | with_reducible apply Ok.sys | split | (intro _ _ _ _)

theorem endSkipped_ok {i c : Nat} {s : State} (hok : Ok P F s) : Ok P F (endSkipped i c s) := by
  unfold endSkipped
  try dsimp only
  repeat' first
    | with_reducible assumption | exact Ok.sys (by with_reducible assumption) | with_reducible apply modChan_ok
    | with_reducible apply modFrame_ok

theorem endMember_ok {i : Nat} {p : PipeCfg} {c : Nat} {feLines fePixels : Nat} {mismatch : Bool} {s : State} (hok : Ok P F s) :
    Ok P F (endMember i p c feLines fePixels mismatch s) := by
  unfold endMember
  try dsimp only
  repeat' first
    | with_reducible assumption | exact Ok.sys (by with_reducible assumption) | with_reducible apply endLine_ok
    | with_reducible apply modFrame_ok | with_reducible apply modChan_ok | with_reducible apply fillLines_ok
    | with_reducible apply retract_ok | with_reducible apply advance_ok | with_reducible apply checkSkew_ok
    | with_reducible apply latchLens_ok | with_reducible apply decideFrame_ok | with_reducible apply Ok.sys | split

theorem execFePacket_ok {p : BrdPacket} {s : State} {u : State} (hok : Ok P F s) (he : execFePacket p s = .next u) :
    Ok P F u := by
  obtain rfl := Host.Outcome.next.inj he
  try dsimp only
  repeat' first
    | with_reducible assumption | exact Ok.sys (by with_reducible assumption) | with_reducible apply takePacket_ok
    | with_reducible apply endSkipped_ok | with_reducible apply endMember_ok | with_reducible apply Ok.sys | split
    | (intro _ _ _ _)

theorem execTrailerTimeout_ok {vc : Nat} {s : State} {u : State} (hok : Ok P F s) (he : execTrailerTimeout vc s = .next u) :
    Ok P F u := by
  obtain rfl := Host.Outcome.next.inj he
  try dsimp only
  repeat' first
    | with_reducible assumption | exact Ok.sys (by with_reducible assumption) | with_reducible apply retract_ok
    | with_reducible apply Ok.sys | split

theorem addEmb_ok {i : Nat} {p : PipeCfg} {c limit : Nat} {b : List Byte} {ok : Bool} {s : State} (hok : Ok P F s) :
    Ok P F (addEmb i p c limit b ok s) := by
  unfold addEmb
  try dsimp only
  repeat' first
    | with_reducible assumption | exact Ok.sys (by with_reducible assumption) | with_reducible apply modFrame_ok
    | with_reducible apply countChan_ok | with_reducible apply countFrame_ok | with_reducible apply Ok.sys | split

theorem execEmbPacket_ok {p : BrdPacket} {s : State} {u : State} (hok : Ok P F s) (he : execEmbPacket p s = .next u) :
    Ok P F u := by
  obtain rfl := Host.Outcome.next.inj he
  try dsimp only
  repeat' first
    | with_reducible assumption | exact Ok.sys (by with_reducible assumption) | with_reducible apply takePacket_ok
    | with_reducible apply addEmb_ok | with_reducible apply Ok.sys | split | (intro _ _ _ _)

theorem csiPacket_ok {port vc : Nat} {g : List Byte → State → State} {s : State} (hg : ∀ c x, Ok P F x → Ok P F (g c x)) (hok : Ok P F s) :
    Ok P F (csiPacket port vc g s) := by
  unfold csiPacket
  try dsimp only
  repeat' first
    | with_reducible assumption | exact Ok.sys (by with_reducible assumption) | apply hg | with_reducible apply countChan_ok
    | with_reducible apply Ok.sys | split

theorem execCsiFs_ok {port vc frameNo : Nat} {s : State} {u : State} (hok : Ok P F s) (he : execCsiFs port vc frameNo s = .next u) :
    Ok P F u := by
  obtain rfl := Host.Outcome.next.inj he
  try dsimp only
  repeat' first
    | with_reducible assumption | exact Ok.sys (by with_reducible assumption) | with_reducible apply csiPacket_ok
    | with_reducible apply frameStart_ok | with_reducible apply Ok.sys | split | (intro _ _ _ _) | (intro _ _ _)

theorem csiLine_ok {i : Nat} {p : PipeCfg} {c : Nat} {b : List Byte} {ok : Bool} {s : State} (hok : Ok P F s) :
    Ok P F (csiLine i p c b ok s) := by
  unfold csiLine
  try dsimp only
  repeat' first
    | with_reducible assumption | exact Ok.sys (by with_reducible assumption) | with_reducible apply modChan_ok
    | with_reducible apply startLine_ok | with_reducible apply countPixels_ok | with_reducible apply advance_ok
    | with_reducible apply endLine_ok | with_reducible apply flagFrame_ok | with_reducible apply Ok.sys | split

theorem csiLong_ok {port i : Nat} {q : PipeCfg} {b : List Byte} {p : CsiPacket} {s : State} (hok : Ok P F s) :
    Ok P F (csiLong port i q b p s) := by
  unfold csiLong
  try dsimp only
  repeat' first
    | with_reducible assumption | exact Ok.sys (by with_reducible assumption) | with_reducible apply csiLine_ok
    | with_reducible apply addEmb_ok | with_reducible apply Ok.sys | split

theorem csiData_ok {port : Nat} {b : List Byte} {p : CsiPacket} {s : State} (hok : Ok P F s) :
    Ok P F (csiData port b p s) := by
  unfold csiData
  try dsimp only
  repeat' first
    | with_reducible assumption | exact Ok.sys (by with_reducible assumption) | with_reducible apply countChan_ok
    | with_reducible apply csiLong_ok | with_reducible apply Ok.sys | split

theorem execCsiLongPacket_ok {port : Nat} {p : CsiPacket} {s : State} {u : State} (hok : Ok P F s) (he : execCsiLongPacket port p s = .next u) :
    Ok P F u := by
  obtain rfl := Host.Outcome.next.inj he
  try dsimp only
  repeat' first
    | with_reducible assumption | exact Ok.sys (by with_reducible assumption) | with_reducible apply raise_ok
    | with_reducible apply flagFrame_ok | with_reducible apply countChan_ok | with_reducible apply csiData_ok
    | with_reducible apply Ok.sys | split

theorem execCsiFe_ok {port vc _frameNo : Nat} {s : State} {u : State} (hok : Ok P F s) (he : execCsiFe port vc _frameNo s = .next u) :
    Ok P F u := by
  obtain rfl := Host.Outcome.next.inj he
  try dsimp only
  repeat' first
    | with_reducible assumption | exact Ok.sys (by with_reducible assumption) | with_reducible apply csiPacket_ok
    | with_reducible apply endSkipped_ok | with_reducible apply endMember_ok | with_reducible apply Ok.sys | split
    | (intro _ _ _ _) | (intro _ _ _)

theorem execCsiDphyError_ok {port : Nat} {s : State} {u : State} (hok : Ok P F s) (he : execCsiDphyError port s = .next u) :
    Ok P F u := by
  obtain rfl := Host.Outcome.next.inj he
  try dsimp only
  repeat' first
    | with_reducible assumption | exact Ok.sys (by with_reducible assumption) | with_reducible apply raise_ok
    | with_reducible apply retract_ok | with_reducible apply Ok.sys | split

theorem execCsiLsLePacket_ok {port vc : Nat} {_kind : CsiShort} {_line : Nat} {s : State} {u : State} (hok : Ok P F s) (he : execCsiLsLePacket port vc _kind _line s = .next u) :
    Ok P F u := by
  obtain rfl := Host.Outcome.next.inj he
  try dsimp only
  repeat' first
    | with_reducible assumption | exact Ok.sys (by with_reducible assumption) | (intro _ _ hx; with_reducible exact hx)
    | with_reducible apply csiPacket_ok

end Sys2Proof.Machine
end

