-- ==== Sys2Proof/Laws/KeepsMemory.lean ====
section
/-! SUPPORT. What each operation of Machine/Memory.lean keeps: see Laws/Keeps.lean. -/

namespace Sys2Proof.Machine

variable {P : List Instr} {F : Tbl Nat}

theorem effectMemHash_ok {c : Cmd} {t : State} (hok : Ok P F t) : Ok P F (effectMemHash c t) := by
  unfold effectMemHash
  try dsimp only
  repeat' first
    | with_reducible assumption | exact Ok.sys (by with_reducible assumption) | with_reducible apply stageCmd_ok

theorem execMemHash_ok {r : CmdRef} {s : State} {u : State} (hok : Ok P F s) (he : execMemHash r s = .next u) :
    Ok P F u := by
  obtain rfl := Host.Outcome.next.inj he
  try dsimp only
  repeat' first
    | with_reducible assumption | exact Ok.sys (by with_reducible assumption) | with_reducible apply runCmd_ok
    | with_reducible apply effectMemHash_ok

theorem effectMemShedOrder_ok {c : Cmd} {t : State} (hok : Ok P F t) : Ok P F (effectMemShedOrder c t) := by
  unfold effectMemShedOrder
  try dsimp only
  repeat' first
    | with_reducible assumption | exact Ok.sys (by with_reducible assumption) | with_reducible apply stageCmd_ok

theorem execMemShedOrder_ok {r : CmdRef} {s : State} {u : State} (hok : Ok P F s) (he : execMemShedOrder r s = .next u) :
    Ok P F u := by
  obtain rfl := Host.Outcome.next.inj he
  try dsimp only
  repeat' first
    | with_reducible assumption | exact Ok.sys (by with_reducible assumption) | with_reducible apply runCmd_ok
    | with_reducible apply effectMemShedOrder_ok

theorem modRt_ok {k : Nat} {g : RtPort → RtPort} {s : State} (hok : Ok P F s) : Ok P F (modRt k g s) := by
  unfold modRt
  try dsimp only
  repeat' first
    | with_reducible assumption | exact Ok.sys (by with_reducible assumption)
    | (simp only [ok_mk]; with_reducible apply OkMk.upd)

theorem modFabric_ok {g : Fabric → Fabric} {s : State} (hok : Ok P F s) : Ok P F (modFabric g s) := by
  unfold modFabric
  try dsimp only
  repeat' first
    | with_reducible assumption | exact Ok.sys (by with_reducible assumption)
    | (simp only [ok_mk]; with_reducible apply OkMk.upd)

theorem portEvent_ok {code k detail : Nat} {s : State} (hok : Ok P F s) : Ok P F (portEvent code k detail s) := by
  unfold portEvent
  try dsimp only
  repeat' first
    | with_reducible assumption | exact Ok.sys (by with_reducible assumption) | with_reducible apply sysEvent_ok
    | with_reducible apply unitEvent_ok | (with_reducible apply Ok.foldl; intro _ _ _) | with_reducible apply Ok.sys | split

theorem failWriteBack_ok {s : State} (hok : Ok P F s) : Ok P F (failWriteBack s) := by
  unfold failWriteBack
  try dsimp only
  repeat' first
    | with_reducible assumption | exact Ok.sys (by with_reducible assumption) | with_reducible apply retractAll_ok
    | with_reducible apply modStream_ok | with_reducible apply Ok.sys | split

theorem dropEncStats_ok {s : State} (hok : Ok P F s) : Ok P F (dropEncStats s) := by
  unfold dropEncStats
  try dsimp only
  repeat' first
    | with_reducible assumption | exact Ok.sys (by with_reducible assumption) | with_reducible apply modEnc_ok
    | (with_reducible apply Ok.foldl; intro _ _ _)

theorem stripesLose_ok {k : Nat} {s : State} (hok : Ok P F s) : Ok P F (stripesLose k s) := by
  unfold stripesLose
  try dsimp only
  repeat' first
    | with_reducible assumption | exact Ok.sys (by with_reducible assumption) | with_reducible apply retractAll_ok
    | with_reducible apply Ok.sys | split

theorem dropPicture_ok {x : EncSess} {s : State} (hok : Ok P F s) : Ok P F (dropPicture x s) := by
  unfold dropPicture
  try dsimp only
  repeat' first
    | with_reducible assumption | exact Ok.sys (by with_reducible assumption) | with_reducible apply tryClose_ok
    | with_reducible apply raise_ok | with_reducible apply unitEvent_ok | with_reducible apply modEnc_ok
    | with_reducible apply Ok.sys | split

theorem dropInlineStats_ok {s : State} (hok : Ok P F s) : Ok P F (dropInlineStats s) := by
  unfold dropInlineStats
  try dsimp only
  repeat' first
    | with_reducible assumption | exact Ok.sys (by with_reducible assumption) | with_reducible apply dropStats_ok
    | with_reducible apply modFrame_ok | with_reducible apply Ok.sys | split

theorem stopFrames_ok {p : Nat} {s : State} (hok : Ok P F s) : Ok P F (stopFrames p s) := by
  unfold stopFrames
  try dsimp only
  repeat' first
    | with_reducible assumption | exact Ok.sys (by with_reducible assumption) | with_reducible apply modNet_ok

theorem portFails_ok {k cause : Nat} {s : State} (hok : Ok P F s) : Ok P F (portFails k cause s) := by
  unfold portFails
  try dsimp only
  repeat' first
    | with_reducible assumption | exact Ok.sys (by with_reducible assumption) | with_reducible apply retractAll_ok
    | with_reducible apply failWriteBack_ok | with_reducible apply dropPicture_ok | with_reducible apply dropEncStats_ok
    | with_reducible apply dropInlineStats_ok | with_reducible apply fallBack_ok | with_reducible apply stripesLose_ok
    | with_reducible apply stopFrames_ok | with_reducible apply raise_ok | with_reducible apply countAt_ok
    | (with_reducible apply Ok.foldl; intro _ _ _) | (simp only [ok_mk]; with_reducible apply OkMk.upd)
    | with_reducible apply Ok.sys | split

theorem tellEscalation_ok {n : Nat} {s : State} (hok : Ok P F s) : Ok P F (tellEscalation n s) := by
  unfold tellEscalation
  try dsimp only
  repeat' first
    | with_reducible assumption | exact Ok.sys (by with_reducible assumption) | with_reducible apply raise_ok
    | with_reducible apply sysEvent_ok

theorem escalate_ok {s : State} (hok : Ok P F s) : Ok P F (escalate s) := by
  unfold escalate
  try dsimp only
  repeat' first
    | with_reducible assumption | exact Ok.sys (by with_reducible assumption) | with_reducible apply tellEscalation_ok
    | with_reducible apply modFabric_ok

theorem lowerScale_ok {s : State} (hok : Ok P F s) : Ok P F (lowerScale s) := by
  unfold lowerScale
  try dsimp only
  repeat' first
    | with_reducible assumption | exact Ok.sys (by with_reducible assumption) | with_reducible apply tellEscalation_ok
    | with_reducible apply modFabric_ok

theorem shedPort_ok {k : Nat} {s : State} (hok : Ok P F s) : Ok P F (shedPort k s) := by
  unfold shedPort
  try dsimp only
  repeat' first
    | with_reducible assumption | exact Ok.sys (by with_reducible assumption) | with_reducible apply modFabric_ok
    | with_reducible apply modRt_ok | with_reducible apply portFails_ok | with_reducible apply raise_ok
    | with_reducible apply portEvent_ok

theorem shedNext_ok {s : State} (hok : Ok P F s) : Ok P F (shedNext s) := by
  unfold shedNext
  try dsimp only
  repeat' first
    | with_reducible assumption | exact Ok.sys (by with_reducible assumption) | with_reducible apply shedPort_ok
    | with_reducible apply Ok.sys | split

theorem portsChanged_ok {s : State} (hok : Ok P F s) : Ok P F (portsChanged s) := by
  unfold portsChanged
  try dsimp only
  repeat' first
    | with_reducible assumption | exact Ok.sys (by with_reducible assumption) | with_reducible apply escalate_ok
    | with_reducible apply shedNext_ok | with_reducible apply Ok.sys | split

theorem execPortPanic_ok {port fillKib : Nat} {s : State} {u : State} (hok : Ok P F s) (he : execPortPanic port fillKib s = .next u) :
    Ok P F u := by
  obtain rfl := Host.Outcome.next.inj he
  try dsimp only
  repeat' first
    | with_reducible assumption | exact Ok.sys (by with_reducible assumption) | with_reducible apply modRt_ok
    | with_reducible apply raise_ok | with_reducible apply portsChanged_ok | with_reducible apply Ok.sys | split

theorem execMemEscalation_ok {s : State} {u : State} (hok : Ok P F s) (he : execMemEscalation s = .next u) :
    Ok P F u := by
  obtain rfl := Host.Outcome.next.inj he
  try dsimp only
  repeat' first
    | with_reducible assumption | exact Ok.sys (by with_reducible assumption) | with_reducible apply escalate_ok
    | with_reducible apply shedNext_ok | with_reducible apply lowerScale_ok | with_reducible apply Ok.sys | split

theorem execMemRecovered_ok {s : State} {u : State} (hok : Ok P F s) (he : execMemRecovered s = .next u) : Ok P F u := by
  obtain rfl := Host.Outcome.next.inj he
  try dsimp only
  repeat' first
    | with_reducible assumption | exact Ok.sys (by with_reducible assumption) | with_reducible apply raise_ok
    | with_reducible apply sysEvent_ok | with_reducible apply modFabric_ok | with_reducible apply Ok.sys | split

theorem execRtRestored_ok {port : Nat} {s : State} {u : State} (hok : Ok P F s) (he : execRtRestored port s = .next u) :
    Ok P F u := by
  obtain rfl := Host.Outcome.next.inj he
  try dsimp only
  repeat' first
    | with_reducible assumption | exact Ok.sys (by with_reducible assumption) | with_reducible apply modRt_ok
    | with_reducible apply tthResend_ok | with_reducible apply raise_ok | with_reducible apply portEvent_ok
    | with_reducible apply bump_ok | (with_reducible apply Ok.foldl; intro _ _ _)
    | (simp only [ok_mk]; with_reducible apply OkMk.upd) | with_reducible apply Ok.sys | split

theorem execRtBufferOverflow_ok {port : Nat} {s : State} {u : State} (hok : Ok P F s) (he : execRtBufferOverflow port s = .next u) :
    Ok P F u := by
  obtain rfl := Host.Outcome.next.inj he
  try dsimp only
  repeat' first
    | with_reducible assumption | exact Ok.sys (by with_reducible assumption) | with_reducible apply portFails_ok
    | with_reducible apply Ok.sys | split

theorem execMemHot_ok {stack : Nat} {s : State} {u : State} (hok : Ok P F s) (he : execMemHot stack s = .next u) :
    Ok P F u := by
  obtain rfl := Host.Outcome.next.inj he
  try dsimp only
  repeat' first
    | with_reducible assumption | exact Ok.sys (by with_reducible assumption) | with_reducible apply raise_ok
    | with_reducible apply sysEvent_ok | with_reducible apply modFabric_ok | with_reducible apply Ok.sys | split

theorem execMemHotCleared_ok {stack : Nat} {s : State} {u : State} (hok : Ok P F s) (he : execMemHotCleared stack s = .next u) :
    Ok P F u := by
  obtain rfl := Host.Outcome.next.inj he
  try dsimp only
  repeat' first
    | with_reducible assumption | exact Ok.sys (by with_reducible assumption) | with_reducible apply modFabric_ok
    | with_reducible apply Ok.sys | split

theorem execMemEcc_ok {pc row : Nat} {corrected : Bool} {s : State} {u : State} (hok : Ok P F s) (he : execMemEcc pc row corrected s = .next u) :
    Ok P F u := by
  obtain rfl := Host.Outcome.next.inj he
  try dsimp only
  repeat' first
    | with_reducible assumption | exact Ok.sys (by with_reducible assumption) | with_reducible apply raise_ok
    | with_reducible apply sysEvent_ok | with_reducible apply Ok.sys | split

end Sys2Proof.Machine
end

