-- ==== Sys2Proof/Laws/KeepsSafe.lean ====
section
/-! SUPPORT. What each operation of Machine/Safe.lean keeps: see Laws/Keeps.lean. -/

namespace Sys2Proof.Machine

variable {P : List Instr} {F : Tbl Nat}

theorem tellConsumers_ok {cls inst : Nat} {s : State} (hok : Ok P F s) : Ok P F (tellConsumers cls inst s) := by
  unfold tellConsumers
  try dsimp only
  repeat' first
    | with_reducible assumption | exact Ok.sys (by with_reducible assumption) | with_reducible apply bindEvent_ok
    | (with_reducible apply Ok.foldl; intro _ _ _) | with_reducible apply Ok.sys | split

theorem enterSafe_ok {cls inst : Nat} {s : State} (hok : Ok P F s) : Ok P F (enterSafe cls inst s) := by
  unfold enterSafe
  try dsimp only
  repeat' first
    | with_reducible assumption | exact Ok.sys (by with_reducible assumption) | with_reducible apply modBrd_ok
    | with_reducible apply modStream_ok | with_reducible apply relayFlushed_ok | with_reducible apply stopRecorder_ok
    | with_reducible apply flushQueue_ok | with_reducible apply dropSteer_ok
    | (simp only [ok_mk]; with_reducible apply OkMk.upd) | with_reducible apply Ok.sys | split

theorem reachSafe_ok {u : Nat} {s : State} (hok : Ok P F s) : Ok P F (reachSafe u s) := by
  unfold reachSafe
  try dsimp only
  repeat' first
    | with_reducible assumption | exact Ok.sys (by with_reducible assumption) | with_reducible apply tellConsumers_ok
    | with_reducible apply enterSafe_ok | (simp only [ok_mk]; with_reducible apply OkMk.upd)

theorem tellSafe_ok {u : Nat} {s : State} (hok : Ok P F s) : Ok P F (tellSafe u s) := by
  unfold tellSafe
  try dsimp only
  repeat' first
    | with_reducible assumption | exact Ok.sys (by with_reducible assumption) | with_reducible apply tthSend_ok
    | with_reducible apply Ok.sys | split

theorem execSafeStateReached_ok {unit : UnitRef} {s : State} {u : State} (hok : Ok P F s) (he : execSafeStateReached unit s = .next u) :
    Ok P F u := by
  obtain rfl := Host.Outcome.next.inj he
  try dsimp only
  repeat' first
    | with_reducible assumption | exact Ok.sys (by with_reducible assumption) | with_reducible apply tellSafe_ok
    | with_reducible apply reachSafe_ok | with_reducible apply Ok.sys | split

end Sys2Proof.Machine
end

