-- ==== Sys2Proof/Laws/KeepsPower.lean ====
section
/-! SUPPORT. What each operation of Machine/Power.lean keeps: see Laws/Keeps.lean. -/

namespace Sys2Proof.Machine

variable {P : List Instr} {F : Tbl Nat}

theorem tellF0_ok {source code detail : Nat} {s : State} (hok : Ok P F s) : Ok P F (tellF0 source code detail s) := by
  unfold tellF0
  try dsimp only
  repeat' first
    | with_reducible assumption | exact Ok.sys (by with_reducible assumption) | with_reducible apply raise_ok
    | with_reducible apply sysEvent_ok | with_reducible apply Ok.sys | split

theorem modPwr_ok {g : Pwr → Pwr} {s : State} (hok : Ok P F s) : Ok P F (modPwr g s) := by
  unfold modPwr
  try dsimp only
  repeat' first
    | with_reducible assumption | exact Ok.sys (by with_reducible assumption)
    | (simp only [ok_mk]; with_reducible apply OkMk.upd)

theorem execPowerMeterSample_ok {mw : List Nat} {s : State} {u : State} (hok : Ok P F s) (he : execPowerMeterSample mw s = .next u) :
    Ok P F u := by
  obtain rfl := Host.Outcome.next.inj he
  try dsimp only
  repeat' first
    | with_reducible assumption | exact Ok.sys (by with_reducible assumption) | with_reducible apply modPwr_ok
    | with_reducible apply tellF0_ok | with_reducible apply Ok.sys | split

theorem execCapThrottleLeave_ok {s : State} {u : State} (hok : Ok P F s) (he : execCapThrottleLeave s = .next u) :
    Ok P F u := by
  obtain rfl := Host.Outcome.next.inj he
  try dsimp only
  repeat' first
    | with_reducible assumption | exact Ok.sys (by with_reducible assumption) | with_reducible apply tellF0_ok
    | with_reducible apply modPwr_ok | with_reducible apply Ok.sys | split

theorem modDomain_ok {n : Nat} {g : Droop → Droop} {s : State} (hok : Ok P F s) : Ok P F (modDomain n g s) := by
  unfold modDomain
  try dsimp only
  repeat' first
    | with_reducible assumption | exact Ok.sys (by with_reducible assumption) | with_reducible apply modPwr_ok

theorem countSnub_ok {n : Nat} {s : State} (hok : Ok P F s) : Ok P F (countSnub n s) := by
  unfold countSnub
  try dsimp only
  repeat' first
    | with_reducible assumption | exact Ok.sys (by with_reducible assumption) | with_reducible apply modDomain_ok
    | with_reducible apply raise_ok | with_reducible apply sysEvent_ok | with_reducible apply Ok.sys | split

theorem execDroopSample_ok {domain_ droop : Nat} {s : State} {u : State} (hok : Ok P F s) (he : execDroopSample domain_ droop s = .next u) :
    Ok P F u := by
  obtain rfl := Host.Outcome.next.inj he
  try dsimp only
  repeat' first
    | with_reducible assumption | exact Ok.sys (by with_reducible assumption) | with_reducible apply modDomain_ok
    | with_reducible apply countSnub_ok | with_reducible apply Ok.sys | split

theorem execSnubStageExit_ok {domain_ : Nat} {s : State} {u : State} (hok : Ok P F s) (he : execSnubStageExit domain_ s = .next u) :
    Ok P F u := by
  obtain rfl := Host.Outcome.next.inj he
  try dsimp only
  repeat' first
    | with_reducible assumption | exact Ok.sys (by with_reducible assumption) | with_reducible apply modDomain_ok
    | with_reducible apply Ok.sys | split

theorem modThm_ok {g : Thm → Thm} {s : State} (hok : Ok P F s) : Ok P F (modThm g s) := by
  unfold modThm
  try dsimp only
  repeat' first
    | with_reducible assumption | exact Ok.sys (by with_reducible assumption)
    | (simp only [ok_mk]; with_reducible apply OkMk.upd)

theorem stopCommits_ok {s : State} (hok : Ok P F s) : Ok P F (stopCommits s) := by
  unfold stopCommits
  try dsimp only
  repeat' first
    | with_reducible assumption | exact Ok.sys (by with_reducible assumption) | with_reducible apply returnImage_ok
    | with_reducible apply dropSched_ok | with_reducible apply complete_ok | (with_reducible apply Ok.foldl; intro _ _ _)
    | (simp only [ok_mk]; with_reducible apply OkMk.upd) | (simp only [sys_mk]; with_reducible apply SysMk.upd)
    | with_reducible apply Ok.sys | split

theorem tellStop_ok {done : Bool} {s : State} (hok : Ok P F s) : Ok P F (tellStop done s) := by
  unfold tellStop
  try dsimp only
  repeat' first
    | with_reducible assumption | exact Ok.sys (by with_reducible assumption) | with_reducible apply raise_ok
    | with_reducible apply postEvent_ok | (with_reducible apply Ok.foldl; intro _ _ _) | with_reducible apply Ok.sys | split

theorem stopAtSignal_ok {t : Time} {s : State} (hok : Ok P F s) : Ok P F (stopAtSignal t s) := by
  unfold stopAtSignal
  try dsimp only
  repeat' first
    | with_reducible assumption | exact Ok.sys (by with_reducible assumption) | with_reducible apply fallBack_ok
    | with_reducible apply tellStop_ok | with_reducible apply modThm_ok | with_reducible apply modRec_ok
    | (with_reducible apply Ok.foldl; intro _ _ _) | with_reducible apply Ok.sys | split

theorem beginStop_ok {s : State} (hok : Ok P F s) : Ok P F (beginStop s) := by
  unfold beginStop
  try dsimp only
  repeat' first
    | with_reducible assumption | exact Ok.sys (by with_reducible assumption) | with_reducible apply stopAtSignal_ok
    | with_reducible apply tthBroadcast_ok | with_reducible apply tthSend_ok | with_reducible apply Ok.sys | split

theorem judgeWarm_ok {s : State} (hok : Ok P F s) : Ok P F (judgeWarm s) := by
  unfold judgeWarm
  try dsimp only
  repeat' first
    | with_reducible assumption | exact Ok.sys (by with_reducible assumption) | with_reducible apply tellF0_ok
    | with_reducible apply modThm_ok | with_reducible apply Ok.sys | split

theorem judgeCool_ok {s : State} (hok : Ok P F s) : Ok P F (judgeCool s) := by
  unfold judgeCool
  try dsimp only
  repeat' first
    | with_reducible assumption | exact Ok.sys (by with_reducible assumption) | with_reducible apply modThm_ok
    | (simp only [ok_mk]; with_reducible apply OkMk.upd) | (simp only [sys_mk]; with_reducible apply SysMk.upd)
    | with_reducible apply Ok.sys | split

theorem judgeThermal_ok {s : State} (hok : Ok P F s) : Ok P F (judgeThermal s) := by
  unfold judgeThermal
  try dsimp only
  repeat' first
    | with_reducible assumption | exact Ok.sys (by with_reducible assumption) | with_reducible apply judgeWarm_ok
    | with_reducible apply beginStop_ok | with_reducible apply judgeCool_ok | with_reducible apply Ok.sys | split

theorem execThermalModelUpdate_ok {s : State} {u : State} (hok : Ok P F s) (he : execThermalModelUpdate s = .next u) :
    Ok P F u := by
  obtain rfl := Host.Outcome.next.inj he
  try dsimp only
  repeat' first
    | with_reducible assumption | exact Ok.sys (by with_reducible assumption) | with_reducible apply judgeThermal_ok
    | with_reducible apply modThm_ok | with_reducible apply Ok.sys | split

theorem hardTrip_ok {s : State} (hok : Ok P F s) : Ok P F (hardTrip s) := by
  unfold hardTrip
  try dsimp only
  repeat' first
    | with_reducible assumption | exact Ok.sys (by with_reducible assumption) | with_reducible apply modThm_ok
    | (simp only [ok_mk]; with_reducible apply OkMk.upd) | (simp only [sys_mk]; with_reducible apply SysMk.upd)

theorem execDiodeRead_ok {diode : Nat} {quarterDeg : Int} {s : State} {u : State} (hok : Ok P F s) (he : execDiodeRead diode quarterDeg s = .next u) :
    Ok P F u := by
  obtain rfl := Host.Outcome.next.inj he
  try dsimp only
  repeat' first
    | with_reducible assumption | exact Ok.sys (by with_reducible assumption) | with_reducible apply modThm_ok
    | with_reducible apply hardTrip_ok | with_reducible apply judgeThermal_ok | with_reducible apply Ok.sys | split

theorem execModelDriftCheck_ok {s : State} {u : State} (hok : Ok P F s) (he : execModelDriftCheck s = .next u) :
    Ok P F u := by
  obtain rfl := Host.Outcome.next.inj he
  try dsimp only
  repeat' first
    | with_reducible assumption | exact Ok.sys (by with_reducible assumption) | with_reducible apply judgeThermal_ok
    | with_reducible apply tellF0_ok | with_reducible apply modThm_ok | with_reducible apply Ok.sys | split

theorem endStream_ok {x : EncSess} {s : State} (hok : Ok P F s) : Ok P F (endStream x s) := by
  unfold endStream
  try dsimp only
  repeat' first
    | with_reducible assumption | exact Ok.sys (by with_reducible assumption) | with_reducible apply pumpSession_ok
    | with_reducible apply modEnc_ok | with_reducible apply Ok.sys | split

theorem allSafe_ok {s : State} (hok : Ok P F s) : Ok P F (allSafe s) := by
  unfold allSafe
  try dsimp only
  repeat' first
    | with_reducible assumption | exact Ok.sys (by with_reducible assumption) | with_reducible apply reachSafe_ok
    | (with_reducible apply Ok.foldl; intro _ _ _) | with_reducible apply Ok.sys | split

theorem enterRetention_ok {valid : Bool} {s : State} (hok : Ok P F s) : Ok P F (enterRetention valid s) := by
  unfold enterRetention
  try dsimp only
  repeat' first
    | with_reducible assumption | exact Ok.sys (by with_reducible assumption) | with_reducible apply detachSsds_ok
    | with_reducible apply msixOff_ok | (simp only [ok_mk]; with_reducible apply OkMk.upd)
    | (simp only [sys_mk]; with_reducible apply SysMk.upd) | with_reducible apply Ok.sys

theorem execThmStopComplete_ok {s : State} {u : State} (hok : Ok P F s) (he : execThmStopComplete s = .next u) :
    Ok P F u := by
  obtain rfl := Host.Outcome.next.inj he
  try dsimp only
  repeat' first
    | with_reducible assumption | exact Ok.sys (by with_reducible assumption) | with_reducible apply thermalStopRecorder_ok
    | with_reducible apply endStream_ok | with_reducible apply stopCommits_ok | with_reducible apply detachSsds_ok
    | with_reducible apply tellStop_ok | with_reducible apply allSafe_ok | with_reducible apply modThm_ok
    | with_reducible apply msixOff_ok | with_reducible apply lanesTurn_ok | with_reducible apply enterRetention_ok | (with_reducible apply Ok.foldl; intro _ _ _)
    | (simp only [ok_mk]; with_reducible apply OkMk.upd) | (simp only [sys_mk]; with_reducible apply SysMk.upd)
    | with_reducible apply Ok.sys | split

theorem execPllLostLock_ok {s : State} {u : State} (hok : Ok P F s) (he : execPllLostLock s = .next u) : Ok P F u := by
  obtain rfl := Host.Outcome.next.inj he
  try dsimp only
  repeat' first
    | with_reducible assumption | exact Ok.sys (by with_reducible assumption) | with_reducible apply raise_ok
    | with_reducible apply Ok.sys | split

theorem execReferenceClockMissing_ok {which : Nat} {s : State} {u : State} (hok : Ok P F s) (he : execReferenceClockMissing which s = .next u) :
    Ok P F u := by
  obtain rfl := Host.Outcome.next.inj he
  try dsimp only
  repeat' first
    | with_reducible assumption | exact Ok.sys (by with_reducible assumption) | with_reducible apply raise_ok
    | with_reducible apply Ok.sys | split

theorem execPpsPulse_ok {engine : Nat} {s : State} {u : State} (hok : Ok P F s) (he : execPpsPulse engine s = .next u) :
    Ok P F u := by
  obtain rfl := Host.Outcome.next.inj he
  try dsimp only
  repeat' first
    | with_reducible assumption | exact Ok.sys (by with_reducible assumption) | with_reducible apply emit_ok
    | with_reducible apply Ok.sys | split

theorem effectPwrLimits_ok {c : Cmd} {t : State} (hok : Ok P F t) : Ok P F (effectPwrLimits c t) := by
  unfold effectPwrLimits
  try dsimp only
  repeat' first
    | with_reducible assumption | exact Ok.sys (by with_reducible assumption) | with_reducible apply bump_ok
    | with_reducible apply stageCmd_ok

theorem execPwrLimits_ok {r : CmdRef} {s : State} {u : State} (hok : Ok P F s) (he : execPwrLimits r s = .next u) :
    Ok P F u := by
  obtain rfl := Host.Outcome.next.inj he
  try dsimp only
  repeat' first
    | with_reducible assumption | exact Ok.sys (by with_reducible assumption) | with_reducible apply runCmd_ok
    | with_reducible apply effectPwrLimits_ok

theorem effectPwrThermalModel_ok {c : Cmd} {t : State} (hok : Ok P F t) : Ok P F (effectPwrThermalModel c t) := by
  unfold effectPwrThermalModel
  try dsimp only
  repeat' first
    | with_reducible assumption | exact Ok.sys (by with_reducible assumption) | with_reducible apply complete_ok
    | with_reducible apply modThm_ok

theorem execPwrThermalModel_ok {r : CmdRef} {s : State} {u : State} (hok : Ok P F s) (he : execPwrThermalModel r s = .next u) :
    Ok P F u := by
  obtain rfl := Host.Outcome.next.inj he
  try dsimp only
  repeat' first
    | with_reducible assumption | exact Ok.sys (by with_reducible assumption) | with_reducible apply runCmd_ok
    | with_reducible apply effectPwrThermalModel_ok

theorem effectPwrRead_ok {c : Cmd} {t : State} (hok : Ok P F t) : Ok P F (effectPwrRead c t) := by
  unfold effectPwrRead
  try dsimp only
  repeat' first
    | with_reducible assumption | exact Ok.sys (by with_reducible assumption) | with_reducible apply complete_ok
    | with_reducible apply modPwr_ok | with_reducible apply Ok.sys | split

theorem execPwrRead_ok {r : CmdRef} {s : State} {u : State} (hok : Ok P F s) (he : execPwrRead r s = .next u) :
    Ok P F u := by
  obtain rfl := Host.Outcome.next.inj he
  try dsimp only
  repeat' first
    | with_reducible assumption | exact Ok.sys (by with_reducible assumption) | with_reducible apply runCmd_ok
    | with_reducible apply effectPwrRead_ok

theorem fuseEffect_ok {leftAfter : Option Nat} {c : Cmd} {s : State} (h : Ok P F s) : Ok P F (fuseEffect leftAfter c s) := by
  have key : ∀ (k v : Nat), (∀ i, bit (Tbl.get 0 s.sys.fuses k) i = true → bit v i = true) →
      Ok P F { s with sys := { s.sys with fuses := Tbl.put 0 s.sys.fuses k v } } := fun _ _ hv =>
    ⟨h.pending, h.hbm, h.stalls, ⟨fusesGrow_put h.sys.fuses hv, h.sys.fails, h.sys.device, h.sys.size⟩⟩
  unfold fuseEffect
  dsimp only
  split <;> split <;> exact complete_ok (key _ _ fun _ => bit_foldl_or)

theorem execSysFuseProgram_ok {r : CmdRef} {leftAfter : Option Nat} {s : State} {u : State} (hok : Ok P F s) (he : execSysFuseProgram r leftAfter s = .next u) :
    Ok P F u := by
  obtain rfl := Host.Outcome.next.inj he
  try dsimp only
  repeat' first
    | with_reducible assumption | exact Ok.sys (by with_reducible assumption) | with_reducible apply runCmd_ok
    | with_reducible apply fuseEffect_ok

end Sys2Proof.Machine
end

