-- ==== Sys2Proof/Laws/KeepsTether.lean ====
section
/-! SUPPORT. What each operation of Machine/Tether.lean keeps: see Laws/Keeps.lean. -/

namespace Sys2Proof.Machine

variable {P : List Instr} {F : Tbl Nat}

theorem modTth_ok {g : Tth → Tth} {s : State} (hok : Ok P F s) : Ok P F (modTth g s) := by
  unfold modTth
  try dsimp only
  repeat' first
    | with_reducible assumption | exact Ok.sys (by with_reducible assumption)
    | (simp only [ok_mk]; with_reducible apply OkMk.upd)

theorem abortCommit_ok {x : Sched} {status : Nat} {s : State} (hok : Ok P F s) : Ok P F (abortCommit x status s) := by
  unfold abortCommit
  try dsimp only
  repeat' first
    | with_reducible assumption | exact Ok.sys (by with_reducible assumption) | with_reducible apply returnImage_ok
    | with_reducible apply dropSched_ok | with_reducible apply complete_ok | with_reducible apply Ok.sys | split

theorem modSched_ok {r : CmdRef} {g : Sched → Sched} {s : State} (hok : Ok P F s) : Ok P F (modSched r g s) := by
  unfold modSched
  try dsimp only
  repeat' first
    | with_reducible assumption | exact Ok.sys (by with_reducible assumption)
    | (simp only [ok_mk]; with_reducible apply OkMk.upd)

theorem finishCommit_ok {x : Sched} {epoch unconfirmed : Nat} {s : State} (hok : Ok P F s) :
    Ok P F (finishCommit x epoch unconfirmed s) := by
  unfold finishCommit
  try dsimp only
  repeat' first
    | with_reducible assumption | exact Ok.sys (by with_reducible assumption) | with_reducible apply dropSched_ok
    | with_reducible apply complete_ok | with_reducible apply Ok.sys | split

theorem confirmCommits_ok {s : State} (hok : Ok P F s) : Ok P F (confirmCommits s) := by
  unfold confirmCommits
  try dsimp only
  repeat' first
    | with_reducible assumption | exact Ok.sys (by with_reducible assumption) | with_reducible apply finishCommit_ok
    | (with_reducible apply Ok.foldl; intro _ _ _) | with_reducible apply Ok.sys | split

theorem onPrepared_ok {dev : Nat} {r : CmdRef} {digest_ : Nat} {s : State} (hok : Ok P F s) :
    Ok P F (onPrepared dev r digest_ s) := by
  unfold onPrepared
  try dsimp only
  repeat' first
    | with_reducible assumption | exact Ok.sys (by with_reducible assumption) | with_reducible apply abortCommit_ok
    | with_reducible apply giveNumber_ok | with_reducible apply tthBroadcast_ok | with_reducible apply modSched_ok
    | with_reducible apply Ok.sys | split

theorem onPrepare_ok {r : CmdRef} {mode stream_ frame : Nat} {time : Time} {s : State} (hok : Ok P F s) :
    Ok P F (onPrepare r mode stream_ frame time s) := by
  unfold onPrepare
  try dsimp only
  repeat' first
    | with_reducible assumption | exact Ok.sys (by with_reducible assumption) | with_reducible apply tthSend_ok
    | (simp only [ok_mk]; with_reducible apply OkMk.upd) | with_reducible apply Ok.sys | split

theorem onPrepareBusy_ok {r : CmdRef} {s : State} (hok : Ok P F s) : Ok P F (onPrepareBusy r s) := by
  unfold onPrepareBusy
  try dsimp only
  repeat' first
    | with_reducible assumption | exact Ok.sys (by with_reducible assumption) | with_reducible apply abortCommit_ok
    | with_reducible apply Ok.sys | split

theorem execPrepareDeadline_ok {r : CmdRef} {s : State} {u : State} (hok : Ok P F s) (he : execPrepareDeadline r s = .next u) :
    Ok P F u := by
  obtain rfl := Host.Outcome.next.inj he
  try dsimp only
  repeat' first
    | with_reducible assumption | exact Ok.sys (by with_reducible assumption) | with_reducible apply abortCommit_ok
    | with_reducible apply Ok.sys | split

theorem execArrayCommitTimeout_ok {r : CmdRef} {s : State} {u : State} (hok : Ok P F s) (he : execArrayCommitTimeout r s = .next u) :
    Ok P F u := by
  obtain rfl := Host.Outcome.next.inj he
  try dsimp only
  repeat' first
    | with_reducible assumption | exact Ok.sys (by with_reducible assumption) | with_reducible apply finishCommit_ok
    | with_reducible apply Ok.sys | split

theorem judgeDigests_ok {serial : Nat} {s : State} (hok : Ok P F s) : Ok P F (judgeDigests serial s) := by
  unfold judgeDigests
  try dsimp only
  repeat' first
    | with_reducible assumption | exact Ok.sys (by with_reducible assumption) | with_reducible apply modTth_ok
    | with_reducible apply raise_ok | with_reducible apply tthEvent_ok | with_reducible apply Ok.sys | split

theorem noteReach_ok {s : State} (hok : Ok P F s) : Ok P F (noteReach s) := by
  unfold noteReach
  try dsimp only
  repeat' first
    | with_reducible assumption | exact Ok.sys (by with_reducible assumption) | with_reducible apply raise_ok
    | with_reducible apply tthEvent_ok | with_reducible apply modTth_ok | with_reducible apply abortCommit_ok
    | (with_reducible apply Ok.foldl; intro _ _ _) | with_reducible apply Ok.sys | split

theorem onIdle_ok {b : IdleBlock} {s : State} (hok : Ok P F s) : Ok P F (onIdle b s) := by
  unfold onIdle
  try dsimp only
  repeat' first
    | with_reducible assumption | exact Ok.sys (by with_reducible assumption) | with_reducible apply noteReach_ok
    | with_reducible apply modTth_ok | with_reducible apply confirmCommits_ok | with_reducible apply judgeDigests_ok
    | with_reducible apply checkLeader_ok | with_reducible apply Ok.sys | split

theorem execIdleControlBlock_ok {s : State} {u : State} (hok : Ok P F s) (he : execIdleControlBlock s = .next u) :
    Ok P F u := by
  obtain rfl := Host.Outcome.next.inj he
  try dsimp only
  repeat' first
    | with_reducible assumption | exact Ok.sys (by with_reducible assumption) | with_reducible apply tthBroadcast_ok
    | with_reducible apply modTth_ok | with_reducible apply confirmCommits_ok | with_reducible apply judgeDigests_ok
    | with_reducible apply Ok.sys | split

theorem onVerdict_ok {dev serial flags : Nat} {s : State} (hok : Ok P F s) : Ok P F (onVerdict dev serial flags s) := by
  unfold onVerdict
  try dsimp only
  repeat' first
    | with_reducible assumption | exact Ok.sys (by with_reducible assumption) | with_reducible apply modTth_ok
    | with_reducible apply raise_ok | with_reducible apply retract_ok | with_reducible apply Ok.sys | split

theorem onHalo_ok {p : Nat} {h : HaloRow} {s : State} (hok : Ok P F s) : Ok P F (onHalo p h s) := by
  unfold onHalo
  try dsimp only
  repeat' first
    | with_reducible assumption | exact Ok.sys (by with_reducible assumption) | with_reducible apply raise_ok
    | with_reducible apply releaseRows_ok | with_reducible apply modFrame_ok | with_reducible apply modTth_ok
    | with_reducible apply Ok.sys | split

theorem execHaloRow_ok {port : Nat} {row : HaloRow} {s : State} {u : State} (hok : Ok P F s) (he : execHaloRow port row s = .next u) :
    Ok P F u := by
  obtain rfl := Host.Outcome.next.inj he
  try dsimp only
  repeat' first
    | with_reducible assumption | exact Ok.sys (by with_reducible assumption) | with_reducible apply onHalo_ok
    | with_reducible apply Ok.sys | split

theorem onCommand_ok {bcast : Bool} {c : RelayedCmd} {s : State} (hok : Ok P F s) : Ok P F (onCommand bcast c s) := by
  unfold onCommand
  try dsimp only
  repeat' first
    | with_reducible assumption | exact Ok.sys (by with_reducible assumption)
    | (simp only [ok_mk]; with_reducible apply OkMk.upd)

theorem tthEventTo_ok {f code detail : Nat} {s : State} (hok : Ok P F s) : Ok P F (tthEventTo f code detail s) := by
  unfold tthEventTo
  try dsimp only
  repeat' first
    | with_reducible assumption | exact Ok.sys (by with_reducible assumption) | with_reducible apply postEvent_ok

theorem noteAnswer_ok {x : Cmd} {status : Nat} {s : State} (hok : Ok P F s) : Ok P F (noteAnswer x status s) := by
  unfold noteAnswer
  try dsimp only
  repeat' first
    | with_reducible assumption | exact Ok.sys (by with_reducible assumption) | (intro _ hx; with_reducible exact hx)
    | with_reducible apply modStall_ok | with_reducible apply modTth_ok | with_reducible apply Ok.sys | split

theorem onCompletion_ok {dev f : Nat} {c : Completion} {results : List Byte} {s : State} (hok : Ok P F s) :
    Ok P F (onCompletion dev f c results s) := by
  unfold onCompletion
  try dsimp only
  repeat' first
    | with_reducible assumption | exact Ok.sys (by with_reducible assumption) | with_reducible apply completeWith_ok
    | with_reducible apply noteAnswer_ok | with_reducible apply dropCmd_ok | with_reducible apply raise_ok
    | with_reducible apply tthEventTo_ok | with_reducible apply modTth_ok | with_reducible apply Ok.sys | split

theorem execRelayTimeout_ok {r : CmdRef} {s : State} {u : State} (hok : Ok P F s) (he : execRelayTimeout r s = .next u) :
    Ok P F u := by
  obtain rfl := Host.Outcome.next.inj he
  try dsimp only
  repeat' first
    | with_reducible assumption | exact Ok.sys (by with_reducible assumption) | with_reducible apply raise_ok
    | with_reducible apply completeWith_ok | with_reducible apply modTth_ok | with_reducible apply Ok.sys | split

theorem onEvent_ok {f : Nat} {e : Event} {s : State} (hok : Ok P F s) : Ok P F (onEvent f e s) := by
  unfold onEvent
  try dsimp only
  repeat' first
    | with_reducible assumption | exact Ok.sys (by with_reducible assumption) | (intro _ hx; with_reducible exact hx)
    | with_reducible apply postEvent_ok | with_reducible apply modStall_ok | with_reducible apply Ok.sys | split

theorem deliverBacklog_ok {s : State} (hok : Ok P F s) : Ok P F (deliverBacklog s) := by
  unfold deliverBacklog
  try dsimp only
  repeat' first
    | with_reducible assumption | exact Ok.sys (by with_reducible assumption) | with_reducible apply tthSend_ok
    | with_reducible apply modTth_ok | (with_reducible apply Ok.foldl; intro _ _ _)

theorem onMerge_ok {dev k serial row first count : Nat} {last : Bool} {data : List Byte} {s : State} (hok : Ok P F s) :
    Ok P F (onMerge dev k serial row first count last data s) := by
  unfold onMerge
  try dsimp only
  repeat' first
    | (with_reducible apply Ok.foldl_fst; intro _ _ _) | with_reducible assumption
    | exact Ok.sys (by with_reducible assumption) | with_reducible apply hbmWrite_ok | with_reducible apply modTapSlot_ok
    | with_reducible apply Ok.sys | split

theorem onRoute_ok {src q : Nat} {last : Bool} {data : List Byte} {s : State} (hok : Ok P F s) :
    Ok P F (onRoute src q last data s) := by
  unfold onRoute
  try dsimp only
  repeat' first
    | with_reducible assumption | with_reducible apply queueWrite_ok | with_reducible apply modTth_ok | split

theorem setLock_ok {on : Bool} {s : State} (hok : Ok P F s) : Ok P F (setLock on s) := by
  unfold setLock
  try dsimp only
  repeat' first
    | with_reducible assumption | exact Ok.sys (by with_reducible assumption) | with_reducible apply raise_ok
    | with_reducible apply tthEvent_ok | with_reducible apply modTth_ok

theorem onTime_ok {selected ahead : Int} {s : State} (hok : Ok P F s) : Ok P F (onTime selected ahead s) := by
  unfold onTime
  try dsimp only
  repeat' first
    | with_reducible assumption | exact Ok.sys (by with_reducible assumption) | with_reducible apply modTth_ok
    | with_reducible apply setLock_ok | with_reducible apply bump_ok | with_reducible apply tthSend_ok
    | (simp only [ok_mk]; with_reducible apply OkMk.upd) | with_reducible apply Ok.sys | split

theorem execTimePacketSend_ok {s : State} {u : State} (hok : Ok P F s) (he : execTimePacketSend s = .next u) :
    Ok P F u := by
  obtain rfl := Host.Outcome.next.inj he
  try dsimp only
  repeat' first
    | with_reducible assumption | exact Ok.sys (by with_reducible assumption) | with_reducible apply tthSend_ok
    | with_reducible apply Ok.sys | split

theorem execHopDelayMeasure_ok {delay : Int} {s : State} {u : State} (hok : Ok P F s) (he : execHopDelayMeasure delay s = .next u) :
    Ok P F u := by
  obtain rfl := Host.Outcome.next.inj he
  try dsimp only
  repeat' first
    | with_reducible assumption | exact Ok.sys (by with_reducible assumption) | with_reducible apply modTth_ok
    | with_reducible apply Ok.sys | split

theorem execTimeLockLoss_ok {s : State} {u : State} (hok : Ok P F s) (he : execTimeLockLoss s = .next u) : Ok P F u := by
  obtain rfl := Host.Outcome.next.inj he
  try dsimp only
  repeat' first
    | with_reducible assumption | exact Ok.sys (by with_reducible assumption) | with_reducible apply setLock_ok
    | with_reducible apply Ok.sys | split

theorem onStop_ok {t : Time} {s : State} (hok : Ok P F s) : Ok P F (onStop t s) := by
  unfold onStop
  try dsimp only
  repeat' first
    | with_reducible assumption | exact Ok.sys (by with_reducible assumption) | with_reducible apply stopAtSignal_ok
    | with_reducible apply tthBroadcast_ok | with_reducible apply Ok.sys | split

theorem onBindAsk_ok {r : CmdRef} {u : UnitRef} {owner : Nat} {s : State} (hok : Ok P F s) :
    Ok P F (onBindAsk r u owner s) := by
  unfold onBindAsk
  try dsimp only
  repeat' first
    | with_reducible assumption | exact Ok.sys (by with_reducible assumption) | with_reducible apply addRebind_ok
    | with_reducible apply tthSend_ok | with_reducible apply Ok.sys | split

theorem onBindAnswer_ok {r : CmdRef} {status reason shortfall : Nat} {s : State} (hok : Ok P F s) :
    Ok P F (onBindAnswer r status reason shortfall s) := by
  unfold onBindAnswer
  try dsimp only
  repeat' first
    | with_reducible assumption | exact Ok.sys (by with_reducible assumption) | with_reducible apply complete_ok
    | (simp only [ok_mk]; with_reducible apply OkMk.upd) | with_reducible apply Ok.sys | split

theorem onRebound_ok {u : UnitRef} {f epoch : Nat} {s : State} (hok : Ok P F s) : Ok P F (onRebound u f epoch s) := by
  unfold onRebound
  try dsimp only
  repeat' first
    | with_reducible assumption | exact Ok.sys (by with_reducible assumption)
    | (simp only [ok_mk]; with_reducible apply OkMk.upd)

theorem onUnbound_ok {u : UnitRef} {r : Option CmdRef} {far : Unbound} {s : State} (hok : Ok P F s) :
    Ok P F (onUnbound u r far s) := by
  unfold onUnbound
  try dsimp only
  repeat' first
    | with_reducible assumption | exact Ok.sys (by with_reducible assumption) | with_reducible apply applyRebind_ok
    | with_reducible apply tellOwner_ok | (simp only [ok_mk]; with_reducible apply OkMk.upd) | with_reducible apply Ok.sys
    | split

theorem onScheduled_ok {r : CmdRef} {s : State} (hok : Ok P F s) : Ok P F (onScheduled r s) := by
  unfold onScheduled
  try dsimp only
  repeat' first
    | with_reducible assumption | exact Ok.sys (by with_reducible assumption)
    | (simp only [ok_mk]; with_reducible apply OkMk.upd)

theorem onNumber_ok {r : CmdRef} {n : Word} {s : State} (hok : Ok P F s) : Ok P F (onNumber r n s) := by
  unfold onNumber
  try dsimp only
  repeat' first
    | with_reducible assumption | exact Ok.sys (by with_reducible assumption) | with_reducible apply modSched_ok
    | (simp only [ok_mk]; with_reducible apply OkMk.upd)

theorem onGroom_ok {m : GroomMsg} {s : State} (hok : Ok P F s) : Ok P F (onGroom m s) := by
  unfold onGroom
  try dsimp only
  repeat' first
    | with_reducible assumption | exact Ok.sys (by with_reducible assumption) | with_reducible apply safeAll_ok
    | with_reducible apply abortAll_ok | with_reducible apply resetCommands_ok | with_reducible apply orderSafe_ok
    | with_reducible apply tellSafe_ok | with_reducible apply onBindAsk_ok | with_reducible apply onBindAnswer_ok
    | with_reducible apply addRelease_ok | with_reducible apply onUnbound_ok | with_reducible apply onRebound_ok
    | with_reducible apply discardStaged_ok | with_reducible apply onPrepareBusy_ok | with_reducible apply onScheduled_ok
    | with_reducible apply onNumber_ok | (simp only [ok_mk]; with_reducible apply OkMk.upd) | with_reducible apply Ok.sys
    | split

theorem tthAct_ok {p src : Nat} {bcast : Bool} {b : TthBody} {s : State} (hok : Ok P F s) :
    Ok P F (tthAct p src bcast b s) := by
  unfold tthAct
  try dsimp only
  repeat' first
    | with_reducible assumption | exact Ok.sys (by with_reducible assumption) | (intro _ hx; with_reducible exact hx)
    | with_reducible apply onIdle_ok | with_reducible apply onHalo_ok | with_reducible apply onVerdict_ok
    | with_reducible apply onCommand_ok | with_reducible apply onCompletion_ok | with_reducible apply onEvent_ok
    | with_reducible apply modStall_ok | with_reducible apply onTime_ok | with_reducible apply takeStats_ok
    | with_reducible apply takeSlices_ok | with_reducible apply onRoute_ok | with_reducible apply onMerge_ok
    | with_reducible apply onPrepare_ok | with_reducible apply onPrepared_ok | with_reducible apply modSched_ok
    | with_reducible apply onStop_ok | with_reducible apply onGroom_ok | with_reducible apply Ok.sys | split

theorem onAck_ok {p cls seq : Nat} {s : State} (hok : Ok P F s) : Ok P F (onAck p cls seq s) := by
  unfold onAck
  try dsimp only
  repeat' first
    | with_reducible assumption | exact Ok.sys (by with_reducible assumption) | with_reducible apply modPort_ok
    | with_reducible apply emit_ok | (with_reducible apply Ok.foldl; intro _ _ _) | with_reducible apply Ok.sys | split

theorem sendAck_ok {p cls seq : Nat} {s : State} (hok : Ok P F s) : Ok P F (sendAck p cls seq s) := by
  unfold sendAck
  try dsimp only
  repeat' first
    | with_reducible assumption | exact Ok.sys (by with_reducible assumption) | with_reducible apply emit_ok
    | with_reducible apply Ok.sys | split

theorem forward_ok {p route cls : Nat} {b : TthBody} {s : State} (hok : Ok P F s) : Ok P F (forward p route cls b s) := by
  unfold forward
  try dsimp only
  repeat' first
    | with_reducible assumption | exact Ok.sys (by with_reducible assumption) | with_reducible apply tthPut_ok
    | with_reducible apply Ok.sys | split

theorem takeTether_ok {p route cls : Nat} {b : TthBody} {s : State} (hok : Ok P F s) :
    Ok P F (takeTether p route cls b s) := by
  unfold takeTether
  try dsimp only
  repeat' first
    | with_reducible assumption | exact Ok.sys (by with_reducible assumption) | with_reducible apply forward_ok
    | with_reducible apply tthAct_ok | with_reducible apply Ok.sys | split

theorem inOrderTake_ok {p route cls seq : Nat} {b : TthBody} {s : State} (hok : Ok P F s) :
    Ok P F (inOrderTake p route cls seq b s) := by
  unfold inOrderTake
  try dsimp only
  repeat' first
    | with_reducible assumption | exact Ok.sys (by with_reducible assumption) | with_reducible apply takeTether_ok
    | with_reducible apply sendAck_ok | with_reducible apply modPort_ok | with_reducible apply Ok.sys | split

theorem discardTether_ok {p type : Nat} {s : State} (hok : Ok P F s) : Ok P F (discardTether p type s) := by
  unfold discardTether
  try dsimp only
  repeat' first
    | with_reducible assumption | exact Ok.sys (by with_reducible assumption) | with_reducible apply raise_ok
    | with_reducible apply modPort_ok | split

theorem execTthPacket_ok {port : Nat} {p : TthPacket} {s : State} {u : State} (hok : Ok P F s) (he : execTthPacket port p s = .next u) :
    Ok P F u := by
  obtain rfl := Host.Outcome.next.inj he
  try dsimp only
  repeat' first
    | with_reducible assumption | exact Ok.sys (by with_reducible assumption) | with_reducible apply discardTether_ok
    | with_reducible apply onHalo_ok | with_reducible apply onAck_ok | with_reducible apply takeTether_ok
    | with_reducible apply sendAck_ok | with_reducible apply inOrderTake_ok | with_reducible apply Ok.sys | split

theorem execTthAckTimeout_ok {port cls : Nat} {s : State} {u : State} (hok : Ok P F s) (he : execTthAckTimeout port cls s = .next u) :
    Ok P F u := by
  obtain rfl := Host.Outcome.next.inj he
  try dsimp only
  repeat' first
    | with_reducible assumption | exact Ok.sys (by with_reducible assumption) | with_reducible apply raise_ok
    | with_reducible apply tthResend_ok | with_reducible apply Ok.sys | split

theorem tellLink_ok {p : Nat} {up : Bool} {lanes : Nat} {s : State} (hok : Ok P F s) :
    Ok P F (tellLink p up lanes s) := by
  unfold tellLink
  try dsimp only
  repeat' first
    | with_reducible assumption | exact Ok.sys (by with_reducible assumption) | with_reducible apply raise_ok
    | with_reducible apply tthEvent_ok

theorem execTthLinkDown_ok {port lanes : Nat} {s : State} {u : State} (hok : Ok P F s) (he : execTthLinkDown port lanes s = .next u) :
    Ok P F u := by
  obtain rfl := Host.Outcome.next.inj he
  try dsimp only
  repeat' first
    | with_reducible assumption | exact Ok.sys (by with_reducible assumption) | with_reducible apply modLane_ok
    | with_reducible apply modPort_ok | with_reducible apply tellLink_ok | with_reducible apply raise_ok
    | with_reducible apply retractAll_ok | with_reducible apply releaseRows_ok | with_reducible apply noteReach_ok
    | (with_reducible apply Ok.foldl; intro _ _ _) | with_reducible apply Ok.sys | split

theorem execTthLinkUp_ok {port : Nat} {s : State} {u : State} (hok : Ok P F s) (he : execTthLinkUp port s = .next u) :
    Ok P F u := by
  obtain rfl := Host.Outcome.next.inj he
  try dsimp only
  repeat' first
    | with_reducible assumption | exact Ok.sys (by with_reducible assumption) | with_reducible apply modLane_ok
    | with_reducible apply tthResend_ok | with_reducible apply modPort_ok | with_reducible apply tellLink_ok
    | with_reducible apply noteReach_ok | with_reducible apply deliverBacklog_ok
    | (with_reducible apply Ok.foldl; intro _ _ _) | with_reducible apply Ok.sys | split

theorem toMembers_ok {c : Cmd} {s : State} (hok : Ok P F s) : Ok P F (toMembers c s) := by
  unfold toMembers
  try dsimp only
  repeat' first
    | with_reducible assumption | exact Ok.sys (by with_reducible assumption) | with_reducible apply tthBroadcast_ok
    | with_reducible apply Ok.sys | split

theorem effectTthConfigure_ok {c : Cmd} {t : State} (hok : Ok P F t) : Ok P F (effectTthConfigure c t) := by
  unfold effectTthConfigure
  try dsimp only
  repeat' first
    | with_reducible assumption | exact Ok.sys (by with_reducible assumption) | with_reducible apply stageCmd_ok
    | with_reducible apply toMembers_ok

theorem execTthConfigure_ok {r : CmdRef} {s : State} {u : State} (hok : Ok P F s) (he : execTthConfigure r s = .next u) :
    Ok P F u := by
  obtain rfl := Host.Outcome.next.inj he
  try dsimp only
  repeat' first
    | with_reducible assumption | exact Ok.sys (by with_reducible assumption) | with_reducible apply runCmd_ok
    | with_reducible apply effectTthConfigure_ok

theorem effectTthStripes_ok {c : Cmd} {t : State} (hok : Ok P F t) : Ok P F (effectTthStripes c t) := by
  unfold effectTthStripes
  try dsimp only
  repeat' first
    | with_reducible assumption | exact Ok.sys (by with_reducible assumption) | with_reducible apply stageCmd_ok
    | with_reducible apply toMembers_ok

theorem execTthStripes_ok {r : CmdRef} {s : State} {u : State} (hok : Ok P F s) (he : execTthStripes r s = .next u) :
    Ok P F u := by
  obtain rfl := Host.Outcome.next.inj he
  try dsimp only
  repeat' first
    | with_reducible assumption | exact Ok.sys (by with_reducible assumption) | with_reducible apply runCmd_ok
    | with_reducible apply effectTthStripes_ok

theorem effectTthDigests_ok {c : Cmd} {t : State} (hok : Ok P F t) : Ok P F (effectTthDigests c t) := by
  unfold effectTthDigests
  try dsimp only
  repeat' first
    | with_reducible assumption | exact Ok.sys (by with_reducible assumption) | with_reducible apply complete_ok

theorem execTthDigests_ok {r : CmdRef} {s : State} {u : State} (hok : Ok P F s) (he : execTthDigests r s = .next u) :
    Ok P F u := by
  obtain rfl := Host.Outcome.next.inj he
  try dsimp only
  repeat' first
    | with_reducible assumption | exact Ok.sys (by with_reducible assumption) | with_reducible apply runCmd_ok
    | with_reducible apply effectTthDigests_ok

theorem effectTthHoldPolicy_ok {c : Cmd} {t : State} (hok : Ok P F t) : Ok P F (effectTthHoldPolicy c t) := by
  unfold effectTthHoldPolicy
  try dsimp only
  repeat' first
    | with_reducible assumption | exact Ok.sys (by with_reducible assumption) | with_reducible apply complete_ok
    | with_reducible apply modTth_ok | with_reducible apply toMembers_ok

theorem execTthHoldPolicy_ok {r : CmdRef} {s : State} {u : State} (hok : Ok P F s) (he : execTthHoldPolicy r s = .next u) :
    Ok P F u := by
  obtain rfl := Host.Outcome.next.inj he
  try dsimp only
  repeat' first
    | with_reducible assumption | exact Ok.sys (by with_reducible assumption) | with_reducible apply runCmd_ok
    | with_reducible apply effectTthHoldPolicy_ok

end Sys2Proof.Machine
end

