-- ==== Sys2Proof/Laws/KeepsStarts.lean ====
section
/-! SUPPORT. What each operation of Machine/Starts.lean keeps: see Laws/Keeps.lean. -/

namespace Sys2Proof.Machine

variable {P : List Instr} {F : Tbl Nat}

theorem inReset_ok {s : State} (h : Ok P F s) : Ok P F (inReset s) :=
  ⟨h.pending, hbmOk_nil, stallsOk_init, ⟨h.sys.fuses, h.sys.fails, by show 0 < 4; decide, by show 1 ≤ 1 ∧ 1 ≤ 4; decide⟩⟩

theorem execSysRstNAssertion_ok {s : State} {u : State} (hok : Ok P F s) (he : execSysRstNAssertion s = .next u) :
    Ok P F u := by
  obtain rfl := Host.Outcome.next.inj he
  try dsimp only
  repeat' first
    | with_reducible assumption | exact Ok.sys (by with_reducible assumption) | with_reducible apply inReset_ok
    | (simp only [ok_mk]; with_reducible apply OkMk.upd) | (simp only [sys_mk]; with_reducible apply SysMk.upd)

theorem execSupplyUndervoltage_ok {rail : Nat} {s : State} {u : State} (hok : Ok P F s) (he : execSupplyUndervoltage rail s = .next u) :
    Ok P F u := by
  obtain rfl := Host.Outcome.next.inj he
  try dsimp only
  repeat' first
    | with_reducible assumption | exact Ok.sys (by with_reducible assumption) | with_reducible apply inReset_ok
    | (simp only [ok_mk]; with_reducible apply OkMk.upd) | (simp only [sys_mk]; with_reducible apply SysMk.upd)
    | with_reducible apply Ok.sys | split

theorem beginStart_ok {s : State} (hok : Ok P F s) : Ok P F (beginStart s) := by
  unfold beginStart
  try dsimp only
  repeat' first
    | with_reducible assumption | exact Ok.sys (by with_reducible assumption)
    | (simp only [ok_mk]; with_reducible apply OkMk.upd) | (simp only [sys_mk]; with_reducible apply SysMk.upd)

theorem execSupplyRecovery_ok {s : State} {u : State} (hok : Ok P F s) (he : execSupplyRecovery s = .next u) :
    Ok P F u := by
  obtain rfl := Host.Outcome.next.inj he
  try dsimp only
  repeat' first
    | with_reducible assumption | exact Ok.sys (by with_reducible assumption) | with_reducible apply beginStart_ok
    | (simp only [ok_mk]; with_reducible apply OkMk.upd) | (simp only [sys_mk]; with_reducible apply SysMk.upd)
    | with_reducible apply Ok.sys | split

theorem tellReady_ok {s : State} (hok : Ok P F s) : Ok P F (tellReady s) := by
  unfold tellReady
  try dsimp only
  repeat' first
    | with_reducible assumption | exact Ok.sys (by with_reducible assumption) | with_reducible apply raise_ok
    | with_reducible apply sysEvent_ok | with_reducible apply Ok.sys | split

theorem coldReady_ok {inp : StartInputs} {s : State} (h : Ok P F s) : Ok P F (coldReady inp s) := by
  unfold coldReady
  exact tellReady_ok (equaliseRoot_ok (equaliseEndpoint_ok ⟨h.pending, hbmOk_nil, stallsOk_init, ⟨h.sys.fuses, by show 0 ≤ 3; decide, h.sys.device, h.sys.size⟩⟩))

theorem failStart_ok {code : Nat} {s : State} (h : Ok P F s) : Ok P F (failStart code s) := by
  unfold failStart
  dsimp only
  split
  · exact emit_ok ⟨h.pending, h.hbm, h.stalls, ⟨h.sys.fuses, h.sys.fails, h.sys.device, h.sys.size⟩⟩
  · next hn =>
    have := h.sys.fails
    exact beginStart_ok ⟨h.pending, h.hbm, h.stalls, ⟨h.sys.fuses, by show s.sys.fails + 1 ≤ 3; omega, h.sys.device, h.sys.size⟩⟩

theorem latchStraps_ok {inp : StartInputs} {s : State} (h : Ok P F s) : Ok P F (latchStraps inp s) := by
  refine ⟨h.pending, h.hbm, h.stalls, ⟨h.sys.fuses, h.sys.fails, ?_, ?_, ?_⟩⟩
  · show inp.deviceIndex % 4 < 4; omega
  · show 1 ≤ (inp.arraySize + 3) % 4 + 1; omega
  · show (inp.arraySize + 3) % 4 + 1 ≤ 4; omega

theorem coldSteps_ok {inp : StartInputs} {s : State} (hok : Ok P F s) : Ok P F (coldSteps inp s) := by
  unfold coldSteps
  try dsimp only
  repeat' first
    | with_reducible assumption | exact Ok.sys (by with_reducible assumption) | with_reducible apply latchStraps_ok
    | with_reducible apply beginStart_ok | with_reducible apply failStart_ok | with_reducible apply coldReady_ok
    | (simp only [ok_mk]; with_reducible apply OkMk.upd) | (simp only [sys_mk]; with_reducible apply SysMk.upd)
    | with_reducible apply Ok.sys | split

theorem execColdStart_ok {inp : StartInputs} {s : State} {u : State} (hok : Ok P F s) (he : execColdStart inp s = .next u) :
    Ok P F u := by
  obtain rfl := Host.Outcome.next.inj he
  try dsimp only
  repeat' first
    | with_reducible assumption | exact Ok.sys (by with_reducible assumption) | with_reducible apply coldSteps_ok
    | (simp only [ok_mk]; with_reducible apply OkMk.upd) | (simp only [sys_mk]; with_reducible apply SysMk.upd)
    | with_reducible apply Ok.sys | split

theorem execHostReadyTimeout_ok {s : State} {u : State} (hok : Ok P F s) (he : execHostReadyTimeout s = .next u) :
    Ok P F u := by
  obtain rfl := Host.Outcome.next.inj he
  try dsimp only
  repeat' first
    | with_reducible assumption | exact Ok.sys (by with_reducible assumption) | with_reducible apply failStart_ok
    | with_reducible apply Ok.sys | split

theorem execRetentionEntry_ok {s : State} {u : State} (hok : Ok P F s) (he : execRetentionEntry s = .next u) :
    Ok P F u := by
  obtain rfl := Host.Outcome.next.inj he
  try dsimp only
  repeat' first
    | with_reducible assumption | exact Ok.sys (by with_reducible assumption)
    | (simp only [ok_mk]; with_reducible apply OkMk.upd) | (simp only [sys_mk]; with_reducible apply SysMk.upd)
    | with_reducible apply Ok.sys | split

theorem execRetentionEntryTimeout_ok {s : State} {u : State} (hok : Ok P F s) (he : execRetentionEntryTimeout s = .next u) :
    Ok P F u := by
  obtain rfl := Host.Outcome.next.inj he
  try dsimp only
  repeat' first
    | with_reducible assumption | exact Ok.sys (by with_reducible assumption)
    | (simp only [ok_mk]; with_reducible apply OkMk.upd) | (simp only [sys_mk]; with_reducible apply SysMk.upd)

theorem entryEnded_ok {s : State} (hok : Ok P F s) : Ok P F (entryEnded s) := by
  unfold entryEnded
  try dsimp only
  repeat' first
    | with_reducible assumption | exact Ok.sys (by with_reducible assumption) | with_reducible apply enterRetention_ok
    | with_reducible apply Ok.sys | split

theorem execHbmRetentionLost_ok {stack : Nat} {s : State} {u : State} (hok : Ok P F s)
    (he : execHbmRetentionLost stack s = .next u) : Ok P F u := by
  obtain rfl := Host.Outcome.next.inj he
  split
  · exact ⟨hok.pending, hbmOk_nil, hok.stalls, ⟨hok.sys.fuses, hok.sys.fails, hok.sys.device, hok.sys.size⟩⟩
  · exact hok

theorem idleStep_ok {s : State} (hok : Ok P F s) : Ok P F (idleStep s) := by
  unfold idleStep
  try dsimp only
  repeat' first
    | with_reducible assumption | exact Ok.sys (by with_reducible assumption) | with_reducible apply clockTick_ok
    | with_reducible apply entryEnded_ok

theorem warmReady_ok {s : State} (h : Ok P F s) : Ok P F (warmReady s) := by
  unfold warmReady
  exact tellReady_ok (equaliseRoot_ok (equaliseEndpoint_ok ⟨h.pending, h.hbm, h.stalls.map fun _ _ => rfl, ⟨h.sys.fuses, by show 0 ≤ 3; decide, h.sys.device, h.sys.size⟩⟩))

theorem warmFailed_ok {code : Nat} {inp : WarmInputs} {s : State} (hok : Ok P F s) : Ok P F (warmFailed code inp s) := by
  unfold warmFailed
  try dsimp only
  repeat' first
    | with_reducible assumption | exact Ok.sys (by with_reducible assumption) | with_reducible apply inReset_ok
    | with_reducible apply coldSteps_ok | (simp only [ok_mk]; with_reducible apply OkMk.upd)
    | (simp only [sys_mk]; with_reducible apply SysMk.upd) | with_reducible apply Ok.sys

theorem execWarmStart_ok {inp : WarmInputs} {s : State} {u : State} (hok : Ok P F s) (he : execWarmStart inp s = .next u) :
    Ok P F u := by
  obtain rfl := Host.Outcome.next.inj he
  try dsimp only
  repeat' first
    | with_reducible assumption | exact Ok.sys (by with_reducible assumption) | with_reducible apply entryEnded_ok
    | with_reducible apply warmReady_ok | with_reducible apply warmFailed_ok
    | (simp only [ok_mk]; with_reducible apply OkMk.upd) | (simp only [sys_mk]; with_reducible apply SysMk.upd)
    | with_reducible apply Ok.sys | split

end Sys2Proof.Machine
end

