-- ==== Sys2Proof/Laws/State.lean ====
section
/-! SUPPORT. The updates of one piece of the state: for each, the fields it leaves, one lemma a field, and what its reader gives
after it. -/

namespace Sys2Proof.Machine

variable {s : State}

/-! ## bump -/

section
@[simp] theorem bump_pending : (bump s).pending = s.pending := rfl
@[simp] theorem bump_out : (bump s).out = s.out := rfl
@[simp] theorem bump_tick : (bump s).tick = s.tick := rfl
@[simp] theorem bump_sys : (bump s).sys = s.sys := rfl
@[simp] theorem bump_stalls : (bump s).stalls = s.stalls := rfl
@[simp] theorem bump_ints : (bump s).ints = s.ints := rfl
@[simp] theorem bump_bind : (bump s).bind = s.bind := rfl
@[simp] theorem bump_cmds : (bump s).cmds = s.cmds := rfl
@[simp] theorem bump_cfg : (bump s).cfg = s.cfg := rfl
@[simp] theorem bump_brd : (bump s).brd = s.brd := rfl
@[simp] theorem bump_csi : (bump s).csi = s.csi := rfl
@[simp] theorem bump_streams : (bump s).streams = s.streams := rfl
@[simp] theorem bump_pipes : (bump s).pipes = s.pipes := rfl
@[simp] theorem bump_groups : (bump s).groups = s.groups := rfl
@[simp] theorem bump_relays : (bump s).relays = s.relays := rfl
@[simp] theorem bump_recorder : (bump s).recorder = s.recorder := rfl
@[simp] theorem bump_tdm : (bump s).tdm = s.tdm := rfl
@[simp] theorem bump_cod : (bump s).cod = s.cod := rfl
@[simp] theorem bump_fabric : (bump s).fabric = s.fabric := rfl
@[simp] theorem bump_hbm : (bump s).hbm = s.hbm := rfl
@[simp] theorem bump_queues : (bump s).queues = s.queues := rfl
@[simp] theorem bump_heads : (bump s).heads = s.heads := rfl
@[simp] theorem bump_net : (bump s).net = s.net := rfl
@[simp] theorem bump_time : (bump s).time = s.time := rfl
@[simp] theorem bump_tth : (bump s).tth = s.tth := rfl
@[simp] theorem bump_lanes : (bump s).lanes = s.lanes := rfl
@[simp] theorem bump_axes : (bump s).axes = s.axes := rfl
@[simp] theorem bump_pwr : (bump s).pwr = s.pwr := rfl
@[simp] theorem bump_thm : (bump s).thm = s.thm := rfl
@[simp] theorem bump_mck : (bump s).mck = s.mck := rfl
@[simp] theorem bump_pins : (bump s).pins = s.pins := rfl
end

/-! ## emit -/

section
variable {o : Out}
@[simp] theorem emit_pending : (emit o s).pending = s.pending := rfl
@[simp] theorem emit_freeCtr : (emit o s).freeCtr = s.freeCtr := rfl
@[simp] theorem emit_tick : (emit o s).tick = s.tick := rfl
@[simp] theorem emit_sys : (emit o s).sys = s.sys := rfl
@[simp] theorem emit_stalls : (emit o s).stalls = s.stalls := rfl
@[simp] theorem emit_ints : (emit o s).ints = s.ints := rfl
@[simp] theorem emit_bind : (emit o s).bind = s.bind := rfl
@[simp] theorem emit_cmds : (emit o s).cmds = s.cmds := rfl
@[simp] theorem emit_cfg : (emit o s).cfg = s.cfg := rfl
@[simp] theorem emit_brd : (emit o s).brd = s.brd := rfl
@[simp] theorem emit_csi : (emit o s).csi = s.csi := rfl
@[simp] theorem emit_streams : (emit o s).streams = s.streams := rfl
@[simp] theorem emit_pipes : (emit o s).pipes = s.pipes := rfl
@[simp] theorem emit_groups : (emit o s).groups = s.groups := rfl
@[simp] theorem emit_relays : (emit o s).relays = s.relays := rfl
@[simp] theorem emit_recorder : (emit o s).recorder = s.recorder := rfl
@[simp] theorem emit_tdm : (emit o s).tdm = s.tdm := rfl
@[simp] theorem emit_cod : (emit o s).cod = s.cod := rfl
@[simp] theorem emit_fabric : (emit o s).fabric = s.fabric := rfl
@[simp] theorem emit_hbm : (emit o s).hbm = s.hbm := rfl
@[simp] theorem emit_queues : (emit o s).queues = s.queues := rfl
@[simp] theorem emit_heads : (emit o s).heads = s.heads := rfl
@[simp] theorem emit_net : (emit o s).net = s.net := rfl
@[simp] theorem emit_time : (emit o s).time = s.time := rfl
@[simp] theorem emit_tth : (emit o s).tth = s.tth := rfl
@[simp] theorem emit_lanes : (emit o s).lanes = s.lanes := rfl
@[simp] theorem emit_axes : (emit o s).axes = s.axes := rfl
@[simp] theorem emit_pwr : (emit o s).pwr = s.pwr := rfl
@[simp] theorem emit_thm : (emit o s).thm = s.thm := rfl
@[simp] theorem emit_mck : (emit o s).mck = s.mck := rfl
@[simp] theorem emit_pins : (emit o s).pins = s.pins := rfl
end

/-! ## modStall -/

section
variable {k : Nat} {g : Stall → Stall}
@[simp] theorem modStall_pending : (modStall k g s).pending = s.pending := rfl
@[simp] theorem modStall_out : (modStall k g s).out = s.out := rfl
@[simp] theorem modStall_freeCtr : (modStall k g s).freeCtr = s.freeCtr := rfl
@[simp] theorem modStall_tick : (modStall k g s).tick = s.tick := rfl
@[simp] theorem modStall_sys : (modStall k g s).sys = s.sys := rfl
@[simp] theorem modStall_ints : (modStall k g s).ints = s.ints := rfl
@[simp] theorem modStall_bind : (modStall k g s).bind = s.bind := rfl
@[simp] theorem modStall_cmds : (modStall k g s).cmds = s.cmds := rfl
@[simp] theorem modStall_cfg : (modStall k g s).cfg = s.cfg := rfl
@[simp] theorem modStall_brd : (modStall k g s).brd = s.brd := rfl
@[simp] theorem modStall_csi : (modStall k g s).csi = s.csi := rfl
@[simp] theorem modStall_streams : (modStall k g s).streams = s.streams := rfl
@[simp] theorem modStall_pipes : (modStall k g s).pipes = s.pipes := rfl
@[simp] theorem modStall_groups : (modStall k g s).groups = s.groups := rfl
@[simp] theorem modStall_relays : (modStall k g s).relays = s.relays := rfl
@[simp] theorem modStall_recorder : (modStall k g s).recorder = s.recorder := rfl
@[simp] theorem modStall_tdm : (modStall k g s).tdm = s.tdm := rfl
@[simp] theorem modStall_cod : (modStall k g s).cod = s.cod := rfl
@[simp] theorem modStall_fabric : (modStall k g s).fabric = s.fabric := rfl
@[simp] theorem modStall_hbm : (modStall k g s).hbm = s.hbm := rfl
@[simp] theorem modStall_queues : (modStall k g s).queues = s.queues := rfl
@[simp] theorem modStall_heads : (modStall k g s).heads = s.heads := rfl
@[simp] theorem modStall_net : (modStall k g s).net = s.net := rfl
@[simp] theorem modStall_time : (modStall k g s).time = s.time := rfl
@[simp] theorem modStall_tth : (modStall k g s).tth = s.tth := rfl
@[simp] theorem modStall_lanes : (modStall k g s).lanes = s.lanes := rfl
@[simp] theorem modStall_axes : (modStall k g s).axes = s.axes := rfl
@[simp] theorem modStall_pwr : (modStall k g s).pwr = s.pwr := rfl
@[simp] theorem modStall_thm : (modStall k g s).thm = s.thm := rfl
@[simp] theorem modStall_mck : (modStall k g s).mck = s.mck := rfl
@[simp] theorem modStall_pins : (modStall k g s).pins = s.pins := rfl
/-- The element that it changes. -/
theorem stall_modStall (h : k < s.stalls.length) : stall (modStall k g s) k = g (stall s k) := by
  simp [stall, modStall, List.getD_eq_getElem?_getD, h]
/-- Every other element. -/
theorem stall_modStall_ne {j : Nat} (h : j ≠ k) : stall (modStall k g s) j = stall s j := by
  simp [stall, modStall, List.getD_eq_getElem?_getD, Ne.symm h]
end

/-! ## modFnInt -/

section
variable {k : Nat} {g : FnInt → FnInt}
@[simp] theorem modFnInt_pending : (modFnInt k g s).pending = s.pending := rfl
@[simp] theorem modFnInt_out : (modFnInt k g s).out = s.out := rfl
@[simp] theorem modFnInt_freeCtr : (modFnInt k g s).freeCtr = s.freeCtr := rfl
@[simp] theorem modFnInt_tick : (modFnInt k g s).tick = s.tick := rfl
@[simp] theorem modFnInt_sys : (modFnInt k g s).sys = s.sys := rfl
@[simp] theorem modFnInt_stalls : (modFnInt k g s).stalls = s.stalls := rfl
@[simp] theorem modFnInt_bind : (modFnInt k g s).bind = s.bind := rfl
@[simp] theorem modFnInt_cmds : (modFnInt k g s).cmds = s.cmds := rfl
@[simp] theorem modFnInt_cfg : (modFnInt k g s).cfg = s.cfg := rfl
@[simp] theorem modFnInt_brd : (modFnInt k g s).brd = s.brd := rfl
@[simp] theorem modFnInt_csi : (modFnInt k g s).csi = s.csi := rfl
@[simp] theorem modFnInt_streams : (modFnInt k g s).streams = s.streams := rfl
@[simp] theorem modFnInt_pipes : (modFnInt k g s).pipes = s.pipes := rfl
@[simp] theorem modFnInt_groups : (modFnInt k g s).groups = s.groups := rfl
@[simp] theorem modFnInt_relays : (modFnInt k g s).relays = s.relays := rfl
@[simp] theorem modFnInt_recorder : (modFnInt k g s).recorder = s.recorder := rfl
@[simp] theorem modFnInt_tdm : (modFnInt k g s).tdm = s.tdm := rfl
@[simp] theorem modFnInt_cod : (modFnInt k g s).cod = s.cod := rfl
@[simp] theorem modFnInt_fabric : (modFnInt k g s).fabric = s.fabric := rfl
@[simp] theorem modFnInt_hbm : (modFnInt k g s).hbm = s.hbm := rfl
@[simp] theorem modFnInt_queues : (modFnInt k g s).queues = s.queues := rfl
@[simp] theorem modFnInt_heads : (modFnInt k g s).heads = s.heads := rfl
@[simp] theorem modFnInt_net : (modFnInt k g s).net = s.net := rfl
@[simp] theorem modFnInt_time : (modFnInt k g s).time = s.time := rfl
@[simp] theorem modFnInt_tth : (modFnInt k g s).tth = s.tth := rfl
@[simp] theorem modFnInt_lanes : (modFnInt k g s).lanes = s.lanes := rfl
@[simp] theorem modFnInt_axes : (modFnInt k g s).axes = s.axes := rfl
@[simp] theorem modFnInt_pwr : (modFnInt k g s).pwr = s.pwr := rfl
@[simp] theorem modFnInt_thm : (modFnInt k g s).thm = s.thm := rfl
@[simp] theorem modFnInt_mck : (modFnInt k g s).mck = s.mck := rfl
@[simp] theorem modFnInt_pins : (modFnInt k g s).pins = s.pins := rfl
/-- The element that it changes. -/
theorem fnInt_modFnInt (h : k < s.ints.fns.length) : fnInt (modFnInt k g s) k = g (fnInt s k) := by
  simp [fnInt, modFnInt, List.getD_eq_getElem?_getD, h]
/-- Every other element. -/
theorem fnInt_modFnInt_ne {j : Nat} (h : j ≠ k) : fnInt (modFnInt k g s) j = fnInt s j := by
  simp [fnInt, modFnInt, List.getD_eq_getElem?_getD, Ne.symm h]
end

/-! ## setWaiting -/

section
variable {c : Cmd}
@[simp] theorem setWaiting_pending : (setWaiting c s).pending = s.pending := rfl
@[simp] theorem setWaiting_out : (setWaiting c s).out = s.out := rfl
@[simp] theorem setWaiting_freeCtr : (setWaiting c s).freeCtr = s.freeCtr := rfl
@[simp] theorem setWaiting_tick : (setWaiting c s).tick = s.tick := rfl
@[simp] theorem setWaiting_sys : (setWaiting c s).sys = s.sys := rfl
@[simp] theorem setWaiting_stalls : (setWaiting c s).stalls = s.stalls := rfl
@[simp] theorem setWaiting_ints : (setWaiting c s).ints = s.ints := rfl
@[simp] theorem setWaiting_bind : (setWaiting c s).bind = s.bind := rfl
@[simp] theorem setWaiting_cfg : (setWaiting c s).cfg = s.cfg := rfl
@[simp] theorem setWaiting_brd : (setWaiting c s).brd = s.brd := rfl
@[simp] theorem setWaiting_csi : (setWaiting c s).csi = s.csi := rfl
@[simp] theorem setWaiting_streams : (setWaiting c s).streams = s.streams := rfl
@[simp] theorem setWaiting_pipes : (setWaiting c s).pipes = s.pipes := rfl
@[simp] theorem setWaiting_groups : (setWaiting c s).groups = s.groups := rfl
@[simp] theorem setWaiting_relays : (setWaiting c s).relays = s.relays := rfl
@[simp] theorem setWaiting_recorder : (setWaiting c s).recorder = s.recorder := rfl
@[simp] theorem setWaiting_tdm : (setWaiting c s).tdm = s.tdm := rfl
@[simp] theorem setWaiting_cod : (setWaiting c s).cod = s.cod := rfl
@[simp] theorem setWaiting_fabric : (setWaiting c s).fabric = s.fabric := rfl
@[simp] theorem setWaiting_hbm : (setWaiting c s).hbm = s.hbm := rfl
@[simp] theorem setWaiting_queues : (setWaiting c s).queues = s.queues := rfl
@[simp] theorem setWaiting_heads : (setWaiting c s).heads = s.heads := rfl
@[simp] theorem setWaiting_net : (setWaiting c s).net = s.net := rfl
@[simp] theorem setWaiting_time : (setWaiting c s).time = s.time := rfl
@[simp] theorem setWaiting_tth : (setWaiting c s).tth = s.tth := rfl
@[simp] theorem setWaiting_lanes : (setWaiting c s).lanes = s.lanes := rfl
@[simp] theorem setWaiting_axes : (setWaiting c s).axes = s.axes := rfl
@[simp] theorem setWaiting_pwr : (setWaiting c s).pwr = s.pwr := rfl
@[simp] theorem setWaiting_thm : (setWaiting c s).thm = s.thm := rfl
@[simp] theorem setWaiting_mck : (setWaiting c s).mck = s.mck := rfl
@[simp] theorem setWaiting_pins : (setWaiting c s).pins = s.pins := rfl
end

/-! ## modSched -/

section
variable {r : CmdRef} {g : Sched → Sched}
@[simp] theorem modSched_pending : (modSched r g s).pending = s.pending := rfl
@[simp] theorem modSched_out : (modSched r g s).out = s.out := rfl
@[simp] theorem modSched_freeCtr : (modSched r g s).freeCtr = s.freeCtr := rfl
@[simp] theorem modSched_tick : (modSched r g s).tick = s.tick := rfl
@[simp] theorem modSched_sys : (modSched r g s).sys = s.sys := rfl
@[simp] theorem modSched_stalls : (modSched r g s).stalls = s.stalls := rfl
@[simp] theorem modSched_ints : (modSched r g s).ints = s.ints := rfl
@[simp] theorem modSched_bind : (modSched r g s).bind = s.bind := rfl
@[simp] theorem modSched_cmds : (modSched r g s).cmds = s.cmds := rfl
@[simp] theorem modSched_brd : (modSched r g s).brd = s.brd := rfl
@[simp] theorem modSched_csi : (modSched r g s).csi = s.csi := rfl
@[simp] theorem modSched_streams : (modSched r g s).streams = s.streams := rfl
@[simp] theorem modSched_pipes : (modSched r g s).pipes = s.pipes := rfl
@[simp] theorem modSched_groups : (modSched r g s).groups = s.groups := rfl
@[simp] theorem modSched_relays : (modSched r g s).relays = s.relays := rfl
@[simp] theorem modSched_recorder : (modSched r g s).recorder = s.recorder := rfl
@[simp] theorem modSched_tdm : (modSched r g s).tdm = s.tdm := rfl
@[simp] theorem modSched_cod : (modSched r g s).cod = s.cod := rfl
@[simp] theorem modSched_fabric : (modSched r g s).fabric = s.fabric := rfl
@[simp] theorem modSched_hbm : (modSched r g s).hbm = s.hbm := rfl
@[simp] theorem modSched_queues : (modSched r g s).queues = s.queues := rfl
@[simp] theorem modSched_heads : (modSched r g s).heads = s.heads := rfl
@[simp] theorem modSched_net : (modSched r g s).net = s.net := rfl
@[simp] theorem modSched_time : (modSched r g s).time = s.time := rfl
@[simp] theorem modSched_tth : (modSched r g s).tth = s.tth := rfl
@[simp] theorem modSched_lanes : (modSched r g s).lanes = s.lanes := rfl
@[simp] theorem modSched_axes : (modSched r g s).axes = s.axes := rfl
@[simp] theorem modSched_pwr : (modSched r g s).pwr = s.pwr := rfl
@[simp] theorem modSched_thm : (modSched r g s).thm = s.thm := rfl
@[simp] theorem modSched_mck : (modSched r g s).mck = s.mck := rfl
@[simp] theorem modSched_pins : (modSched r g s).pins = s.pins := rfl
end

/-! ## modBrd -/

section
variable {g : Brd → Brd}
@[simp] theorem modBrd_pending : (modBrd g s).pending = s.pending := rfl
@[simp] theorem modBrd_out : (modBrd g s).out = s.out := rfl
@[simp] theorem modBrd_freeCtr : (modBrd g s).freeCtr = s.freeCtr := rfl
@[simp] theorem modBrd_tick : (modBrd g s).tick = s.tick := rfl
@[simp] theorem modBrd_sys : (modBrd g s).sys = s.sys := rfl
@[simp] theorem modBrd_stalls : (modBrd g s).stalls = s.stalls := rfl
@[simp] theorem modBrd_ints : (modBrd g s).ints = s.ints := rfl
@[simp] theorem modBrd_bind : (modBrd g s).bind = s.bind := rfl
@[simp] theorem modBrd_cmds : (modBrd g s).cmds = s.cmds := rfl
@[simp] theorem modBrd_cfg : (modBrd g s).cfg = s.cfg := rfl
@[simp] theorem modBrd_csi : (modBrd g s).csi = s.csi := rfl
@[simp] theorem modBrd_streams : (modBrd g s).streams = s.streams := rfl
@[simp] theorem modBrd_pipes : (modBrd g s).pipes = s.pipes := rfl
@[simp] theorem modBrd_groups : (modBrd g s).groups = s.groups := rfl
@[simp] theorem modBrd_relays : (modBrd g s).relays = s.relays := rfl
@[simp] theorem modBrd_recorder : (modBrd g s).recorder = s.recorder := rfl
@[simp] theorem modBrd_tdm : (modBrd g s).tdm = s.tdm := rfl
@[simp] theorem modBrd_cod : (modBrd g s).cod = s.cod := rfl
@[simp] theorem modBrd_fabric : (modBrd g s).fabric = s.fabric := rfl
@[simp] theorem modBrd_hbm : (modBrd g s).hbm = s.hbm := rfl
@[simp] theorem modBrd_queues : (modBrd g s).queues = s.queues := rfl
@[simp] theorem modBrd_heads : (modBrd g s).heads = s.heads := rfl
@[simp] theorem modBrd_net : (modBrd g s).net = s.net := rfl
@[simp] theorem modBrd_time : (modBrd g s).time = s.time := rfl
@[simp] theorem modBrd_tth : (modBrd g s).tth = s.tth := rfl
@[simp] theorem modBrd_lanes : (modBrd g s).lanes = s.lanes := rfl
@[simp] theorem modBrd_axes : (modBrd g s).axes = s.axes := rfl
@[simp] theorem modBrd_pwr : (modBrd g s).pwr = s.pwr := rfl
@[simp] theorem modBrd_thm : (modBrd g s).thm = s.thm := rfl
@[simp] theorem modBrd_mck : (modBrd g s).mck = s.mck := rfl
@[simp] theorem modBrd_pins : (modBrd g s).pins = s.pins := rfl
end

/-! ## modStream -/

section
variable {k : Nat} {g : StreamSt → StreamSt}
@[simp] theorem modStream_pending : (modStream k g s).pending = s.pending := rfl
@[simp] theorem modStream_out : (modStream k g s).out = s.out := rfl
@[simp] theorem modStream_freeCtr : (modStream k g s).freeCtr = s.freeCtr := rfl
@[simp] theorem modStream_tick : (modStream k g s).tick = s.tick := rfl
@[simp] theorem modStream_sys : (modStream k g s).sys = s.sys := rfl
@[simp] theorem modStream_stalls : (modStream k g s).stalls = s.stalls := rfl
@[simp] theorem modStream_ints : (modStream k g s).ints = s.ints := rfl
@[simp] theorem modStream_bind : (modStream k g s).bind = s.bind := rfl
@[simp] theorem modStream_cmds : (modStream k g s).cmds = s.cmds := rfl
@[simp] theorem modStream_cfg : (modStream k g s).cfg = s.cfg := rfl
@[simp] theorem modStream_brd : (modStream k g s).brd = s.brd := rfl
@[simp] theorem modStream_csi : (modStream k g s).csi = s.csi := rfl
@[simp] theorem modStream_pipes : (modStream k g s).pipes = s.pipes := rfl
@[simp] theorem modStream_groups : (modStream k g s).groups = s.groups := rfl
@[simp] theorem modStream_relays : (modStream k g s).relays = s.relays := rfl
@[simp] theorem modStream_recorder : (modStream k g s).recorder = s.recorder := rfl
@[simp] theorem modStream_tdm : (modStream k g s).tdm = s.tdm := rfl
@[simp] theorem modStream_cod : (modStream k g s).cod = s.cod := rfl
@[simp] theorem modStream_fabric : (modStream k g s).fabric = s.fabric := rfl
@[simp] theorem modStream_hbm : (modStream k g s).hbm = s.hbm := rfl
@[simp] theorem modStream_queues : (modStream k g s).queues = s.queues := rfl
@[simp] theorem modStream_heads : (modStream k g s).heads = s.heads := rfl
@[simp] theorem modStream_net : (modStream k g s).net = s.net := rfl
@[simp] theorem modStream_time : (modStream k g s).time = s.time := rfl
@[simp] theorem modStream_tth : (modStream k g s).tth = s.tth := rfl
@[simp] theorem modStream_lanes : (modStream k g s).lanes = s.lanes := rfl
@[simp] theorem modStream_axes : (modStream k g s).axes = s.axes := rfl
@[simp] theorem modStream_pwr : (modStream k g s).pwr = s.pwr := rfl
@[simp] theorem modStream_thm : (modStream k g s).thm = s.thm := rfl
@[simp] theorem modStream_mck : (modStream k g s).mck = s.mck := rfl
@[simp] theorem modStream_pins : (modStream k g s).pins = s.pins := rfl
/-- The element that it changes. -/
theorem stream_modStream (h : k < s.streams.length) : stream (modStream k g s) k = g (stream s k) := by
  simp [stream, modStream, List.getD_eq_getElem?_getD, h]
/-- Every other element. -/
theorem stream_modStream_ne {j : Nat} (h : j ≠ k) : stream (modStream k g s) j = stream s j := by
  simp [stream, modStream, List.getD_eq_getElem?_getD, Ne.symm h]
end

/-! ## modGroup -/

section
variable {k : Nat} {g : Group → Group}
@[simp] theorem modGroup_pending : (modGroup k g s).pending = s.pending := rfl
@[simp] theorem modGroup_out : (modGroup k g s).out = s.out := rfl
@[simp] theorem modGroup_freeCtr : (modGroup k g s).freeCtr = s.freeCtr := rfl
@[simp] theorem modGroup_tick : (modGroup k g s).tick = s.tick := rfl
@[simp] theorem modGroup_sys : (modGroup k g s).sys = s.sys := rfl
@[simp] theorem modGroup_stalls : (modGroup k g s).stalls = s.stalls := rfl
@[simp] theorem modGroup_ints : (modGroup k g s).ints = s.ints := rfl
@[simp] theorem modGroup_bind : (modGroup k g s).bind = s.bind := rfl
@[simp] theorem modGroup_cmds : (modGroup k g s).cmds = s.cmds := rfl
@[simp] theorem modGroup_cfg : (modGroup k g s).cfg = s.cfg := rfl
@[simp] theorem modGroup_brd : (modGroup k g s).brd = s.brd := rfl
@[simp] theorem modGroup_csi : (modGroup k g s).csi = s.csi := rfl
@[simp] theorem modGroup_streams : (modGroup k g s).streams = s.streams := rfl
@[simp] theorem modGroup_pipes : (modGroup k g s).pipes = s.pipes := rfl
@[simp] theorem modGroup_relays : (modGroup k g s).relays = s.relays := rfl
@[simp] theorem modGroup_recorder : (modGroup k g s).recorder = s.recorder := rfl
@[simp] theorem modGroup_tdm : (modGroup k g s).tdm = s.tdm := rfl
@[simp] theorem modGroup_cod : (modGroup k g s).cod = s.cod := rfl
@[simp] theorem modGroup_fabric : (modGroup k g s).fabric = s.fabric := rfl
@[simp] theorem modGroup_hbm : (modGroup k g s).hbm = s.hbm := rfl
@[simp] theorem modGroup_queues : (modGroup k g s).queues = s.queues := rfl
@[simp] theorem modGroup_heads : (modGroup k g s).heads = s.heads := rfl
@[simp] theorem modGroup_net : (modGroup k g s).net = s.net := rfl
@[simp] theorem modGroup_time : (modGroup k g s).time = s.time := rfl
@[simp] theorem modGroup_tth : (modGroup k g s).tth = s.tth := rfl
@[simp] theorem modGroup_lanes : (modGroup k g s).lanes = s.lanes := rfl
@[simp] theorem modGroup_axes : (modGroup k g s).axes = s.axes := rfl
@[simp] theorem modGroup_pwr : (modGroup k g s).pwr = s.pwr := rfl
@[simp] theorem modGroup_thm : (modGroup k g s).thm = s.thm := rfl
@[simp] theorem modGroup_mck : (modGroup k g s).mck = s.mck := rfl
@[simp] theorem modGroup_pins : (modGroup k g s).pins = s.pins := rfl
end

/-! ## modRec -/

section
variable {g : Rec → Rec}
@[simp] theorem modRec_pending : (modRec g s).pending = s.pending := rfl
@[simp] theorem modRec_out : (modRec g s).out = s.out := rfl
@[simp] theorem modRec_freeCtr : (modRec g s).freeCtr = s.freeCtr := rfl
@[simp] theorem modRec_tick : (modRec g s).tick = s.tick := rfl
@[simp] theorem modRec_sys : (modRec g s).sys = s.sys := rfl
@[simp] theorem modRec_stalls : (modRec g s).stalls = s.stalls := rfl
@[simp] theorem modRec_ints : (modRec g s).ints = s.ints := rfl
@[simp] theorem modRec_bind : (modRec g s).bind = s.bind := rfl
@[simp] theorem modRec_cmds : (modRec g s).cmds = s.cmds := rfl
@[simp] theorem modRec_cfg : (modRec g s).cfg = s.cfg := rfl
@[simp] theorem modRec_brd : (modRec g s).brd = s.brd := rfl
@[simp] theorem modRec_csi : (modRec g s).csi = s.csi := rfl
@[simp] theorem modRec_streams : (modRec g s).streams = s.streams := rfl
@[simp] theorem modRec_pipes : (modRec g s).pipes = s.pipes := rfl
@[simp] theorem modRec_groups : (modRec g s).groups = s.groups := rfl
@[simp] theorem modRec_relays : (modRec g s).relays = s.relays := rfl
@[simp] theorem modRec_tdm : (modRec g s).tdm = s.tdm := rfl
@[simp] theorem modRec_cod : (modRec g s).cod = s.cod := rfl
@[simp] theorem modRec_fabric : (modRec g s).fabric = s.fabric := rfl
@[simp] theorem modRec_hbm : (modRec g s).hbm = s.hbm := rfl
@[simp] theorem modRec_queues : (modRec g s).queues = s.queues := rfl
@[simp] theorem modRec_heads : (modRec g s).heads = s.heads := rfl
@[simp] theorem modRec_net : (modRec g s).net = s.net := rfl
@[simp] theorem modRec_time : (modRec g s).time = s.time := rfl
@[simp] theorem modRec_tth : (modRec g s).tth = s.tth := rfl
@[simp] theorem modRec_lanes : (modRec g s).lanes = s.lanes := rfl
@[simp] theorem modRec_axes : (modRec g s).axes = s.axes := rfl
@[simp] theorem modRec_pwr : (modRec g s).pwr = s.pwr := rfl
@[simp] theorem modRec_thm : (modRec g s).thm = s.thm := rfl
@[simp] theorem modRec_mck : (modRec g s).mck = s.mck := rfl
@[simp] theorem modRec_pins : (modRec g s).pins = s.pins := rfl
end

/-! ## modTdm -/

section
variable {k : Nat} {g : Tdm → Tdm}
@[simp] theorem modTdm_pending : (modTdm k g s).pending = s.pending := rfl
@[simp] theorem modTdm_out : (modTdm k g s).out = s.out := rfl
@[simp] theorem modTdm_freeCtr : (modTdm k g s).freeCtr = s.freeCtr := rfl
@[simp] theorem modTdm_tick : (modTdm k g s).tick = s.tick := rfl
@[simp] theorem modTdm_sys : (modTdm k g s).sys = s.sys := rfl
@[simp] theorem modTdm_stalls : (modTdm k g s).stalls = s.stalls := rfl
@[simp] theorem modTdm_ints : (modTdm k g s).ints = s.ints := rfl
@[simp] theorem modTdm_bind : (modTdm k g s).bind = s.bind := rfl
@[simp] theorem modTdm_cmds : (modTdm k g s).cmds = s.cmds := rfl
@[simp] theorem modTdm_cfg : (modTdm k g s).cfg = s.cfg := rfl
@[simp] theorem modTdm_brd : (modTdm k g s).brd = s.brd := rfl
@[simp] theorem modTdm_csi : (modTdm k g s).csi = s.csi := rfl
@[simp] theorem modTdm_streams : (modTdm k g s).streams = s.streams := rfl
@[simp] theorem modTdm_pipes : (modTdm k g s).pipes = s.pipes := rfl
@[simp] theorem modTdm_groups : (modTdm k g s).groups = s.groups := rfl
@[simp] theorem modTdm_relays : (modTdm k g s).relays = s.relays := rfl
@[simp] theorem modTdm_recorder : (modTdm k g s).recorder = s.recorder := rfl
@[simp] theorem modTdm_cod : (modTdm k g s).cod = s.cod := rfl
@[simp] theorem modTdm_fabric : (modTdm k g s).fabric = s.fabric := rfl
@[simp] theorem modTdm_hbm : (modTdm k g s).hbm = s.hbm := rfl
@[simp] theorem modTdm_queues : (modTdm k g s).queues = s.queues := rfl
@[simp] theorem modTdm_heads : (modTdm k g s).heads = s.heads := rfl
@[simp] theorem modTdm_net : (modTdm k g s).net = s.net := rfl
@[simp] theorem modTdm_time : (modTdm k g s).time = s.time := rfl
@[simp] theorem modTdm_tth : (modTdm k g s).tth = s.tth := rfl
@[simp] theorem modTdm_lanes : (modTdm k g s).lanes = s.lanes := rfl
@[simp] theorem modTdm_axes : (modTdm k g s).axes = s.axes := rfl
@[simp] theorem modTdm_pwr : (modTdm k g s).pwr = s.pwr := rfl
@[simp] theorem modTdm_thm : (modTdm k g s).thm = s.thm := rfl
@[simp] theorem modTdm_mck : (modTdm k g s).mck = s.mck := rfl
@[simp] theorem modTdm_pins : (modTdm k g s).pins = s.pins := rfl
end

/-! ## modEnc -/

section
variable {k : Nat} {g : EncSess → EncSess}
@[simp] theorem modEnc_pending : (modEnc k g s).pending = s.pending := rfl
@[simp] theorem modEnc_out : (modEnc k g s).out = s.out := rfl
@[simp] theorem modEnc_freeCtr : (modEnc k g s).freeCtr = s.freeCtr := rfl
@[simp] theorem modEnc_tick : (modEnc k g s).tick = s.tick := rfl
@[simp] theorem modEnc_sys : (modEnc k g s).sys = s.sys := rfl
@[simp] theorem modEnc_stalls : (modEnc k g s).stalls = s.stalls := rfl
@[simp] theorem modEnc_ints : (modEnc k g s).ints = s.ints := rfl
@[simp] theorem modEnc_bind : (modEnc k g s).bind = s.bind := rfl
@[simp] theorem modEnc_cmds : (modEnc k g s).cmds = s.cmds := rfl
@[simp] theorem modEnc_cfg : (modEnc k g s).cfg = s.cfg := rfl
@[simp] theorem modEnc_brd : (modEnc k g s).brd = s.brd := rfl
@[simp] theorem modEnc_csi : (modEnc k g s).csi = s.csi := rfl
@[simp] theorem modEnc_streams : (modEnc k g s).streams = s.streams := rfl
@[simp] theorem modEnc_pipes : (modEnc k g s).pipes = s.pipes := rfl
@[simp] theorem modEnc_groups : (modEnc k g s).groups = s.groups := rfl
@[simp] theorem modEnc_relays : (modEnc k g s).relays = s.relays := rfl
@[simp] theorem modEnc_recorder : (modEnc k g s).recorder = s.recorder := rfl
@[simp] theorem modEnc_tdm : (modEnc k g s).tdm = s.tdm := rfl
@[simp] theorem modEnc_fabric : (modEnc k g s).fabric = s.fabric := rfl
@[simp] theorem modEnc_hbm : (modEnc k g s).hbm = s.hbm := rfl
@[simp] theorem modEnc_queues : (modEnc k g s).queues = s.queues := rfl
@[simp] theorem modEnc_heads : (modEnc k g s).heads = s.heads := rfl
@[simp] theorem modEnc_net : (modEnc k g s).net = s.net := rfl
@[simp] theorem modEnc_time : (modEnc k g s).time = s.time := rfl
@[simp] theorem modEnc_tth : (modEnc k g s).tth = s.tth := rfl
@[simp] theorem modEnc_lanes : (modEnc k g s).lanes = s.lanes := rfl
@[simp] theorem modEnc_axes : (modEnc k g s).axes = s.axes := rfl
@[simp] theorem modEnc_pwr : (modEnc k g s).pwr = s.pwr := rfl
@[simp] theorem modEnc_thm : (modEnc k g s).thm = s.thm := rfl
@[simp] theorem modEnc_mck : (modEnc k g s).mck = s.mck := rfl
@[simp] theorem modEnc_pins : (modEnc k g s).pins = s.pins := rfl
end

/-! ## modDec -/

section
variable {k : Nat} {g : DecSess → DecSess}
@[simp] theorem modDec_pending : (modDec k g s).pending = s.pending := rfl
@[simp] theorem modDec_out : (modDec k g s).out = s.out := rfl
@[simp] theorem modDec_freeCtr : (modDec k g s).freeCtr = s.freeCtr := rfl
@[simp] theorem modDec_tick : (modDec k g s).tick = s.tick := rfl
@[simp] theorem modDec_sys : (modDec k g s).sys = s.sys := rfl
@[simp] theorem modDec_stalls : (modDec k g s).stalls = s.stalls := rfl
@[simp] theorem modDec_ints : (modDec k g s).ints = s.ints := rfl
@[simp] theorem modDec_bind : (modDec k g s).bind = s.bind := rfl
@[simp] theorem modDec_cmds : (modDec k g s).cmds = s.cmds := rfl
@[simp] theorem modDec_cfg : (modDec k g s).cfg = s.cfg := rfl
@[simp] theorem modDec_brd : (modDec k g s).brd = s.brd := rfl
@[simp] theorem modDec_csi : (modDec k g s).csi = s.csi := rfl
@[simp] theorem modDec_streams : (modDec k g s).streams = s.streams := rfl
@[simp] theorem modDec_pipes : (modDec k g s).pipes = s.pipes := rfl
@[simp] theorem modDec_groups : (modDec k g s).groups = s.groups := rfl
@[simp] theorem modDec_relays : (modDec k g s).relays = s.relays := rfl
@[simp] theorem modDec_recorder : (modDec k g s).recorder = s.recorder := rfl
@[simp] theorem modDec_tdm : (modDec k g s).tdm = s.tdm := rfl
@[simp] theorem modDec_fabric : (modDec k g s).fabric = s.fabric := rfl
@[simp] theorem modDec_hbm : (modDec k g s).hbm = s.hbm := rfl
@[simp] theorem modDec_queues : (modDec k g s).queues = s.queues := rfl
@[simp] theorem modDec_heads : (modDec k g s).heads = s.heads := rfl
@[simp] theorem modDec_net : (modDec k g s).net = s.net := rfl
@[simp] theorem modDec_time : (modDec k g s).time = s.time := rfl
@[simp] theorem modDec_tth : (modDec k g s).tth = s.tth := rfl
@[simp] theorem modDec_lanes : (modDec k g s).lanes = s.lanes := rfl
@[simp] theorem modDec_axes : (modDec k g s).axes = s.axes := rfl
@[simp] theorem modDec_pwr : (modDec k g s).pwr = s.pwr := rfl
@[simp] theorem modDec_thm : (modDec k g s).thm = s.thm := rfl
@[simp] theorem modDec_mck : (modDec k g s).mck = s.mck := rfl
@[simp] theorem modDec_pins : (modDec k g s).pins = s.pins := rfl
end

/-! ## modFabric -/

section
variable {g : Fabric → Fabric}
@[simp] theorem modFabric_pending : (modFabric g s).pending = s.pending := rfl
@[simp] theorem modFabric_out : (modFabric g s).out = s.out := rfl
@[simp] theorem modFabric_freeCtr : (modFabric g s).freeCtr = s.freeCtr := rfl
@[simp] theorem modFabric_tick : (modFabric g s).tick = s.tick := rfl
@[simp] theorem modFabric_sys : (modFabric g s).sys = s.sys := rfl
@[simp] theorem modFabric_stalls : (modFabric g s).stalls = s.stalls := rfl
@[simp] theorem modFabric_ints : (modFabric g s).ints = s.ints := rfl
@[simp] theorem modFabric_bind : (modFabric g s).bind = s.bind := rfl
@[simp] theorem modFabric_cmds : (modFabric g s).cmds = s.cmds := rfl
@[simp] theorem modFabric_cfg : (modFabric g s).cfg = s.cfg := rfl
@[simp] theorem modFabric_brd : (modFabric g s).brd = s.brd := rfl
@[simp] theorem modFabric_csi : (modFabric g s).csi = s.csi := rfl
@[simp] theorem modFabric_streams : (modFabric g s).streams = s.streams := rfl
@[simp] theorem modFabric_pipes : (modFabric g s).pipes = s.pipes := rfl
@[simp] theorem modFabric_groups : (modFabric g s).groups = s.groups := rfl
@[simp] theorem modFabric_relays : (modFabric g s).relays = s.relays := rfl
@[simp] theorem modFabric_recorder : (modFabric g s).recorder = s.recorder := rfl
@[simp] theorem modFabric_tdm : (modFabric g s).tdm = s.tdm := rfl
@[simp] theorem modFabric_cod : (modFabric g s).cod = s.cod := rfl
@[simp] theorem modFabric_hbm : (modFabric g s).hbm = s.hbm := rfl
@[simp] theorem modFabric_queues : (modFabric g s).queues = s.queues := rfl
@[simp] theorem modFabric_heads : (modFabric g s).heads = s.heads := rfl
@[simp] theorem modFabric_net : (modFabric g s).net = s.net := rfl
@[simp] theorem modFabric_time : (modFabric g s).time = s.time := rfl
@[simp] theorem modFabric_tth : (modFabric g s).tth = s.tth := rfl
@[simp] theorem modFabric_lanes : (modFabric g s).lanes = s.lanes := rfl
@[simp] theorem modFabric_axes : (modFabric g s).axes = s.axes := rfl
@[simp] theorem modFabric_pwr : (modFabric g s).pwr = s.pwr := rfl
@[simp] theorem modFabric_thm : (modFabric g s).thm = s.thm := rfl
@[simp] theorem modFabric_mck : (modFabric g s).mck = s.mck := rfl
@[simp] theorem modFabric_pins : (modFabric g s).pins = s.pins := rfl
end

/-! ## modRt -/

section
variable {k : Nat} {g : RtPort → RtPort}
@[simp] theorem modRt_pending : (modRt k g s).pending = s.pending := rfl
@[simp] theorem modRt_out : (modRt k g s).out = s.out := rfl
@[simp] theorem modRt_freeCtr : (modRt k g s).freeCtr = s.freeCtr := rfl
@[simp] theorem modRt_tick : (modRt k g s).tick = s.tick := rfl
@[simp] theorem modRt_sys : (modRt k g s).sys = s.sys := rfl
@[simp] theorem modRt_stalls : (modRt k g s).stalls = s.stalls := rfl
@[simp] theorem modRt_ints : (modRt k g s).ints = s.ints := rfl
@[simp] theorem modRt_bind : (modRt k g s).bind = s.bind := rfl
@[simp] theorem modRt_cmds : (modRt k g s).cmds = s.cmds := rfl
@[simp] theorem modRt_cfg : (modRt k g s).cfg = s.cfg := rfl
@[simp] theorem modRt_brd : (modRt k g s).brd = s.brd := rfl
@[simp] theorem modRt_csi : (modRt k g s).csi = s.csi := rfl
@[simp] theorem modRt_streams : (modRt k g s).streams = s.streams := rfl
@[simp] theorem modRt_pipes : (modRt k g s).pipes = s.pipes := rfl
@[simp] theorem modRt_groups : (modRt k g s).groups = s.groups := rfl
@[simp] theorem modRt_relays : (modRt k g s).relays = s.relays := rfl
@[simp] theorem modRt_recorder : (modRt k g s).recorder = s.recorder := rfl
@[simp] theorem modRt_tdm : (modRt k g s).tdm = s.tdm := rfl
@[simp] theorem modRt_cod : (modRt k g s).cod = s.cod := rfl
@[simp] theorem modRt_hbm : (modRt k g s).hbm = s.hbm := rfl
@[simp] theorem modRt_queues : (modRt k g s).queues = s.queues := rfl
@[simp] theorem modRt_heads : (modRt k g s).heads = s.heads := rfl
@[simp] theorem modRt_net : (modRt k g s).net = s.net := rfl
@[simp] theorem modRt_time : (modRt k g s).time = s.time := rfl
@[simp] theorem modRt_tth : (modRt k g s).tth = s.tth := rfl
@[simp] theorem modRt_lanes : (modRt k g s).lanes = s.lanes := rfl
@[simp] theorem modRt_axes : (modRt k g s).axes = s.axes := rfl
@[simp] theorem modRt_pwr : (modRt k g s).pwr = s.pwr := rfl
@[simp] theorem modRt_thm : (modRt k g s).thm = s.thm := rfl
@[simp] theorem modRt_mck : (modRt k g s).mck = s.mck := rfl
@[simp] theorem modRt_pins : (modRt k g s).pins = s.pins := rfl
/-- The element that it changes. -/
theorem rtPort_modRt (h : k < s.fabric.ports.length) : rtPort (modRt k g s) k = g (rtPort s k) := by
  simp [rtPort, modRt, List.getD_eq_getElem?_getD, h]
/-- Every other element. -/
theorem rtPort_modRt_ne {j : Nat} (h : j ≠ k) : rtPort (modRt k g s) j = rtPort s j := by
  simp [rtPort, modRt, List.getD_eq_getElem?_getD, Ne.symm h]
end

/-! ## modQueue -/

section
variable {k : Nat} {g : Queue → Queue}
@[simp] theorem modQueue_pending : (modQueue k g s).pending = s.pending := rfl
@[simp] theorem modQueue_out : (modQueue k g s).out = s.out := rfl
@[simp] theorem modQueue_freeCtr : (modQueue k g s).freeCtr = s.freeCtr := rfl
@[simp] theorem modQueue_tick : (modQueue k g s).tick = s.tick := rfl
@[simp] theorem modQueue_sys : (modQueue k g s).sys = s.sys := rfl
@[simp] theorem modQueue_stalls : (modQueue k g s).stalls = s.stalls := rfl
@[simp] theorem modQueue_ints : (modQueue k g s).ints = s.ints := rfl
@[simp] theorem modQueue_bind : (modQueue k g s).bind = s.bind := rfl
@[simp] theorem modQueue_cmds : (modQueue k g s).cmds = s.cmds := rfl
@[simp] theorem modQueue_cfg : (modQueue k g s).cfg = s.cfg := rfl
@[simp] theorem modQueue_brd : (modQueue k g s).brd = s.brd := rfl
@[simp] theorem modQueue_csi : (modQueue k g s).csi = s.csi := rfl
@[simp] theorem modQueue_streams : (modQueue k g s).streams = s.streams := rfl
@[simp] theorem modQueue_pipes : (modQueue k g s).pipes = s.pipes := rfl
@[simp] theorem modQueue_groups : (modQueue k g s).groups = s.groups := rfl
@[simp] theorem modQueue_relays : (modQueue k g s).relays = s.relays := rfl
@[simp] theorem modQueue_recorder : (modQueue k g s).recorder = s.recorder := rfl
@[simp] theorem modQueue_tdm : (modQueue k g s).tdm = s.tdm := rfl
@[simp] theorem modQueue_cod : (modQueue k g s).cod = s.cod := rfl
@[simp] theorem modQueue_fabric : (modQueue k g s).fabric = s.fabric := rfl
@[simp] theorem modQueue_hbm : (modQueue k g s).hbm = s.hbm := rfl
@[simp] theorem modQueue_heads : (modQueue k g s).heads = s.heads := rfl
@[simp] theorem modQueue_net : (modQueue k g s).net = s.net := rfl
@[simp] theorem modQueue_time : (modQueue k g s).time = s.time := rfl
@[simp] theorem modQueue_tth : (modQueue k g s).tth = s.tth := rfl
@[simp] theorem modQueue_lanes : (modQueue k g s).lanes = s.lanes := rfl
@[simp] theorem modQueue_axes : (modQueue k g s).axes = s.axes := rfl
@[simp] theorem modQueue_pwr : (modQueue k g s).pwr = s.pwr := rfl
@[simp] theorem modQueue_thm : (modQueue k g s).thm = s.thm := rfl
@[simp] theorem modQueue_mck : (modQueue k g s).mck = s.mck := rfl
@[simp] theorem modQueue_pins : (modQueue k g s).pins = s.pins := rfl
end

/-! ## modHead -/

section
variable {k : Nat} {g : Head → Head}
@[simp] theorem modHead_pending : (modHead k g s).pending = s.pending := rfl
@[simp] theorem modHead_out : (modHead k g s).out = s.out := rfl
@[simp] theorem modHead_freeCtr : (modHead k g s).freeCtr = s.freeCtr := rfl
@[simp] theorem modHead_tick : (modHead k g s).tick = s.tick := rfl
@[simp] theorem modHead_sys : (modHead k g s).sys = s.sys := rfl
@[simp] theorem modHead_stalls : (modHead k g s).stalls = s.stalls := rfl
@[simp] theorem modHead_ints : (modHead k g s).ints = s.ints := rfl
@[simp] theorem modHead_bind : (modHead k g s).bind = s.bind := rfl
@[simp] theorem modHead_cmds : (modHead k g s).cmds = s.cmds := rfl
@[simp] theorem modHead_cfg : (modHead k g s).cfg = s.cfg := rfl
@[simp] theorem modHead_brd : (modHead k g s).brd = s.brd := rfl
@[simp] theorem modHead_csi : (modHead k g s).csi = s.csi := rfl
@[simp] theorem modHead_streams : (modHead k g s).streams = s.streams := rfl
@[simp] theorem modHead_pipes : (modHead k g s).pipes = s.pipes := rfl
@[simp] theorem modHead_groups : (modHead k g s).groups = s.groups := rfl
@[simp] theorem modHead_relays : (modHead k g s).relays = s.relays := rfl
@[simp] theorem modHead_recorder : (modHead k g s).recorder = s.recorder := rfl
@[simp] theorem modHead_tdm : (modHead k g s).tdm = s.tdm := rfl
@[simp] theorem modHead_cod : (modHead k g s).cod = s.cod := rfl
@[simp] theorem modHead_fabric : (modHead k g s).fabric = s.fabric := rfl
@[simp] theorem modHead_hbm : (modHead k g s).hbm = s.hbm := rfl
@[simp] theorem modHead_queues : (modHead k g s).queues = s.queues := rfl
@[simp] theorem modHead_net : (modHead k g s).net = s.net := rfl
@[simp] theorem modHead_time : (modHead k g s).time = s.time := rfl
@[simp] theorem modHead_tth : (modHead k g s).tth = s.tth := rfl
@[simp] theorem modHead_lanes : (modHead k g s).lanes = s.lanes := rfl
@[simp] theorem modHead_axes : (modHead k g s).axes = s.axes := rfl
@[simp] theorem modHead_pwr : (modHead k g s).pwr = s.pwr := rfl
@[simp] theorem modHead_thm : (modHead k g s).thm = s.thm := rfl
@[simp] theorem modHead_mck : (modHead k g s).mck = s.mck := rfl
@[simp] theorem modHead_pins : (modHead k g s).pins = s.pins := rfl
/-- The element that it changes. -/
theorem head_modHead (h : k < s.heads.length) : head (modHead k g s) k = g (head s k) := by
  simp [head, modHead, List.getD_eq_getElem?_getD, h]
/-- Every other element. -/
theorem head_modHead_ne {j : Nat} (h : j ≠ k) : head (modHead k g s) j = head s j := by
  simp [head, modHead, List.getD_eq_getElem?_getD, Ne.symm h]
end

/-! ## modNet -/

section
variable {k : Nat} {g : NetPort → NetPort}
@[simp] theorem modNet_pending : (modNet k g s).pending = s.pending := rfl
@[simp] theorem modNet_out : (modNet k g s).out = s.out := rfl
@[simp] theorem modNet_freeCtr : (modNet k g s).freeCtr = s.freeCtr := rfl
@[simp] theorem modNet_tick : (modNet k g s).tick = s.tick := rfl
@[simp] theorem modNet_sys : (modNet k g s).sys = s.sys := rfl
@[simp] theorem modNet_stalls : (modNet k g s).stalls = s.stalls := rfl
@[simp] theorem modNet_ints : (modNet k g s).ints = s.ints := rfl
@[simp] theorem modNet_bind : (modNet k g s).bind = s.bind := rfl
@[simp] theorem modNet_cmds : (modNet k g s).cmds = s.cmds := rfl
@[simp] theorem modNet_cfg : (modNet k g s).cfg = s.cfg := rfl
@[simp] theorem modNet_brd : (modNet k g s).brd = s.brd := rfl
@[simp] theorem modNet_csi : (modNet k g s).csi = s.csi := rfl
@[simp] theorem modNet_streams : (modNet k g s).streams = s.streams := rfl
@[simp] theorem modNet_pipes : (modNet k g s).pipes = s.pipes := rfl
@[simp] theorem modNet_groups : (modNet k g s).groups = s.groups := rfl
@[simp] theorem modNet_relays : (modNet k g s).relays = s.relays := rfl
@[simp] theorem modNet_recorder : (modNet k g s).recorder = s.recorder := rfl
@[simp] theorem modNet_tdm : (modNet k g s).tdm = s.tdm := rfl
@[simp] theorem modNet_cod : (modNet k g s).cod = s.cod := rfl
@[simp] theorem modNet_fabric : (modNet k g s).fabric = s.fabric := rfl
@[simp] theorem modNet_hbm : (modNet k g s).hbm = s.hbm := rfl
@[simp] theorem modNet_queues : (modNet k g s).queues = s.queues := rfl
@[simp] theorem modNet_heads : (modNet k g s).heads = s.heads := rfl
@[simp] theorem modNet_time : (modNet k g s).time = s.time := rfl
@[simp] theorem modNet_tth : (modNet k g s).tth = s.tth := rfl
@[simp] theorem modNet_lanes : (modNet k g s).lanes = s.lanes := rfl
@[simp] theorem modNet_axes : (modNet k g s).axes = s.axes := rfl
@[simp] theorem modNet_pwr : (modNet k g s).pwr = s.pwr := rfl
@[simp] theorem modNet_thm : (modNet k g s).thm = s.thm := rfl
@[simp] theorem modNet_mck : (modNet k g s).mck = s.mck := rfl
@[simp] theorem modNet_pins : (modNet k g s).pins = s.pins := rfl
/-- The element that it changes. -/
theorem netPort_modNet (h : k < s.net.length) : netPort (modNet k g s) k = g (netPort s k) := by
  simp [netPort, modNet, List.getD_eq_getElem?_getD, h]
/-- Every other element. -/
theorem netPort_modNet_ne {j : Nat} (h : j ≠ k) : netPort (modNet k g s) j = netPort s j := by
  simp [netPort, modNet, List.getD_eq_getElem?_getD, Ne.symm h]
end

/-! ## modEngine -/

section
variable {k : Nat} {g : Engine → Engine}
@[simp] theorem modEngine_pending : (modEngine k g s).pending = s.pending := rfl
@[simp] theorem modEngine_out : (modEngine k g s).out = s.out := rfl
@[simp] theorem modEngine_freeCtr : (modEngine k g s).freeCtr = s.freeCtr := rfl
@[simp] theorem modEngine_tick : (modEngine k g s).tick = s.tick := rfl
@[simp] theorem modEngine_sys : (modEngine k g s).sys = s.sys := rfl
@[simp] theorem modEngine_stalls : (modEngine k g s).stalls = s.stalls := rfl
@[simp] theorem modEngine_ints : (modEngine k g s).ints = s.ints := rfl
@[simp] theorem modEngine_bind : (modEngine k g s).bind = s.bind := rfl
@[simp] theorem modEngine_cmds : (modEngine k g s).cmds = s.cmds := rfl
@[simp] theorem modEngine_cfg : (modEngine k g s).cfg = s.cfg := rfl
@[simp] theorem modEngine_brd : (modEngine k g s).brd = s.brd := rfl
@[simp] theorem modEngine_csi : (modEngine k g s).csi = s.csi := rfl
@[simp] theorem modEngine_streams : (modEngine k g s).streams = s.streams := rfl
@[simp] theorem modEngine_pipes : (modEngine k g s).pipes = s.pipes := rfl
@[simp] theorem modEngine_groups : (modEngine k g s).groups = s.groups := rfl
@[simp] theorem modEngine_relays : (modEngine k g s).relays = s.relays := rfl
@[simp] theorem modEngine_recorder : (modEngine k g s).recorder = s.recorder := rfl
@[simp] theorem modEngine_tdm : (modEngine k g s).tdm = s.tdm := rfl
@[simp] theorem modEngine_cod : (modEngine k g s).cod = s.cod := rfl
@[simp] theorem modEngine_fabric : (modEngine k g s).fabric = s.fabric := rfl
@[simp] theorem modEngine_hbm : (modEngine k g s).hbm = s.hbm := rfl
@[simp] theorem modEngine_queues : (modEngine k g s).queues = s.queues := rfl
@[simp] theorem modEngine_heads : (modEngine k g s).heads = s.heads := rfl
@[simp] theorem modEngine_net : (modEngine k g s).net = s.net := rfl
@[simp] theorem modEngine_tth : (modEngine k g s).tth = s.tth := rfl
@[simp] theorem modEngine_lanes : (modEngine k g s).lanes = s.lanes := rfl
@[simp] theorem modEngine_axes : (modEngine k g s).axes = s.axes := rfl
@[simp] theorem modEngine_pwr : (modEngine k g s).pwr = s.pwr := rfl
@[simp] theorem modEngine_thm : (modEngine k g s).thm = s.thm := rfl
@[simp] theorem modEngine_mck : (modEngine k g s).mck = s.mck := rfl
@[simp] theorem modEngine_pins : (modEngine k g s).pins = s.pins := rfl
end

/-! ## modPort -/

section
variable {k : Nat} {g : TthPort → TthPort}
@[simp] theorem modPort_pending : (modPort k g s).pending = s.pending := rfl
@[simp] theorem modPort_out : (modPort k g s).out = s.out := rfl
@[simp] theorem modPort_freeCtr : (modPort k g s).freeCtr = s.freeCtr := rfl
@[simp] theorem modPort_tick : (modPort k g s).tick = s.tick := rfl
@[simp] theorem modPort_sys : (modPort k g s).sys = s.sys := rfl
@[simp] theorem modPort_stalls : (modPort k g s).stalls = s.stalls := rfl
@[simp] theorem modPort_ints : (modPort k g s).ints = s.ints := rfl
@[simp] theorem modPort_bind : (modPort k g s).bind = s.bind := rfl
@[simp] theorem modPort_cmds : (modPort k g s).cmds = s.cmds := rfl
@[simp] theorem modPort_cfg : (modPort k g s).cfg = s.cfg := rfl
@[simp] theorem modPort_brd : (modPort k g s).brd = s.brd := rfl
@[simp] theorem modPort_csi : (modPort k g s).csi = s.csi := rfl
@[simp] theorem modPort_streams : (modPort k g s).streams = s.streams := rfl
@[simp] theorem modPort_pipes : (modPort k g s).pipes = s.pipes := rfl
@[simp] theorem modPort_groups : (modPort k g s).groups = s.groups := rfl
@[simp] theorem modPort_relays : (modPort k g s).relays = s.relays := rfl
@[simp] theorem modPort_recorder : (modPort k g s).recorder = s.recorder := rfl
@[simp] theorem modPort_tdm : (modPort k g s).tdm = s.tdm := rfl
@[simp] theorem modPort_cod : (modPort k g s).cod = s.cod := rfl
@[simp] theorem modPort_fabric : (modPort k g s).fabric = s.fabric := rfl
@[simp] theorem modPort_hbm : (modPort k g s).hbm = s.hbm := rfl
@[simp] theorem modPort_queues : (modPort k g s).queues = s.queues := rfl
@[simp] theorem modPort_heads : (modPort k g s).heads = s.heads := rfl
@[simp] theorem modPort_net : (modPort k g s).net = s.net := rfl
@[simp] theorem modPort_time : (modPort k g s).time = s.time := rfl
@[simp] theorem modPort_lanes : (modPort k g s).lanes = s.lanes := rfl
@[simp] theorem modPort_axes : (modPort k g s).axes = s.axes := rfl
@[simp] theorem modPort_pwr : (modPort k g s).pwr = s.pwr := rfl
@[simp] theorem modPort_thm : (modPort k g s).thm = s.thm := rfl
@[simp] theorem modPort_mck : (modPort k g s).mck = s.mck := rfl
@[simp] theorem modPort_pins : (modPort k g s).pins = s.pins := rfl
/-- The element that it changes. -/
theorem tthPort_modPort (h : k < s.tth.ports.length) : tthPort (modPort k g s) k = g (tthPort s k) := by
  simp [tthPort, modPort, List.getD_eq_getElem?_getD, h]
/-- Every other element. -/
theorem tthPort_modPort_ne {j : Nat} (h : j ≠ k) : tthPort (modPort k g s) j = tthPort s j := by
  simp [tthPort, modPort, List.getD_eq_getElem?_getD, Ne.symm h]
end

/-! ## modTth -/

section
variable {g : Tth → Tth}
@[simp] theorem modTth_pending : (modTth g s).pending = s.pending := rfl
@[simp] theorem modTth_out : (modTth g s).out = s.out := rfl
@[simp] theorem modTth_freeCtr : (modTth g s).freeCtr = s.freeCtr := rfl
@[simp] theorem modTth_tick : (modTth g s).tick = s.tick := rfl
@[simp] theorem modTth_sys : (modTth g s).sys = s.sys := rfl
@[simp] theorem modTth_stalls : (modTth g s).stalls = s.stalls := rfl
@[simp] theorem modTth_ints : (modTth g s).ints = s.ints := rfl
@[simp] theorem modTth_bind : (modTth g s).bind = s.bind := rfl
@[simp] theorem modTth_cmds : (modTth g s).cmds = s.cmds := rfl
@[simp] theorem modTth_cfg : (modTth g s).cfg = s.cfg := rfl
@[simp] theorem modTth_brd : (modTth g s).brd = s.brd := rfl
@[simp] theorem modTth_csi : (modTth g s).csi = s.csi := rfl
@[simp] theorem modTth_streams : (modTth g s).streams = s.streams := rfl
@[simp] theorem modTth_pipes : (modTth g s).pipes = s.pipes := rfl
@[simp] theorem modTth_groups : (modTth g s).groups = s.groups := rfl
@[simp] theorem modTth_relays : (modTth g s).relays = s.relays := rfl
@[simp] theorem modTth_recorder : (modTth g s).recorder = s.recorder := rfl
@[simp] theorem modTth_tdm : (modTth g s).tdm = s.tdm := rfl
@[simp] theorem modTth_cod : (modTth g s).cod = s.cod := rfl
@[simp] theorem modTth_fabric : (modTth g s).fabric = s.fabric := rfl
@[simp] theorem modTth_hbm : (modTth g s).hbm = s.hbm := rfl
@[simp] theorem modTth_queues : (modTth g s).queues = s.queues := rfl
@[simp] theorem modTth_heads : (modTth g s).heads = s.heads := rfl
@[simp] theorem modTth_net : (modTth g s).net = s.net := rfl
@[simp] theorem modTth_time : (modTth g s).time = s.time := rfl
@[simp] theorem modTth_lanes : (modTth g s).lanes = s.lanes := rfl
@[simp] theorem modTth_axes : (modTth g s).axes = s.axes := rfl
@[simp] theorem modTth_pwr : (modTth g s).pwr = s.pwr := rfl
@[simp] theorem modTth_thm : (modTth g s).thm = s.thm := rfl
@[simp] theorem modTth_mck : (modTth g s).mck = s.mck := rfl
@[simp] theorem modTth_pins : (modTth g s).pins = s.pins := rfl
end

/-! ## modLane -/

section
variable {k : Nat} {g : Lane → Lane}
@[simp] theorem modLane_pending : (modLane k g s).pending = s.pending := rfl
@[simp] theorem modLane_out : (modLane k g s).out = s.out := rfl
@[simp] theorem modLane_freeCtr : (modLane k g s).freeCtr = s.freeCtr := rfl
@[simp] theorem modLane_tick : (modLane k g s).tick = s.tick := rfl
@[simp] theorem modLane_sys : (modLane k g s).sys = s.sys := rfl
@[simp] theorem modLane_stalls : (modLane k g s).stalls = s.stalls := rfl
@[simp] theorem modLane_ints : (modLane k g s).ints = s.ints := rfl
@[simp] theorem modLane_bind : (modLane k g s).bind = s.bind := rfl
@[simp] theorem modLane_cmds : (modLane k g s).cmds = s.cmds := rfl
@[simp] theorem modLane_cfg : (modLane k g s).cfg = s.cfg := rfl
@[simp] theorem modLane_brd : (modLane k g s).brd = s.brd := rfl
@[simp] theorem modLane_csi : (modLane k g s).csi = s.csi := rfl
@[simp] theorem modLane_streams : (modLane k g s).streams = s.streams := rfl
@[simp] theorem modLane_pipes : (modLane k g s).pipes = s.pipes := rfl
@[simp] theorem modLane_groups : (modLane k g s).groups = s.groups := rfl
@[simp] theorem modLane_relays : (modLane k g s).relays = s.relays := rfl
@[simp] theorem modLane_recorder : (modLane k g s).recorder = s.recorder := rfl
@[simp] theorem modLane_tdm : (modLane k g s).tdm = s.tdm := rfl
@[simp] theorem modLane_cod : (modLane k g s).cod = s.cod := rfl
@[simp] theorem modLane_fabric : (modLane k g s).fabric = s.fabric := rfl
@[simp] theorem modLane_hbm : (modLane k g s).hbm = s.hbm := rfl
@[simp] theorem modLane_queues : (modLane k g s).queues = s.queues := rfl
@[simp] theorem modLane_heads : (modLane k g s).heads = s.heads := rfl
@[simp] theorem modLane_net : (modLane k g s).net = s.net := rfl
@[simp] theorem modLane_time : (modLane k g s).time = s.time := rfl
@[simp] theorem modLane_tth : (modLane k g s).tth = s.tth := rfl
@[simp] theorem modLane_axes : (modLane k g s).axes = s.axes := rfl
@[simp] theorem modLane_pwr : (modLane k g s).pwr = s.pwr := rfl
@[simp] theorem modLane_thm : (modLane k g s).thm = s.thm := rfl
@[simp] theorem modLane_mck : (modLane k g s).mck = s.mck := rfl
@[simp] theorem modLane_pins : (modLane k g s).pins = s.pins := rfl
/-- The element that it changes. -/
theorem lane_modLane (h : k < s.lanes.length) : lane (modLane k g s) k = g (lane s k) := by
  simp [lane, modLane, List.getD_eq_getElem?_getD, h]
/-- Every other element. -/
theorem lane_modLane_ne {j : Nat} (h : j ≠ k) : lane (modLane k g s) j = lane s j := by
  simp [lane, modLane, List.getD_eq_getElem?_getD, Ne.symm h]
end

/-! ## modAxis -/

section
variable {k : Nat} {g : Axis → Axis}
@[simp] theorem modAxis_pending : (modAxis k g s).pending = s.pending := rfl
@[simp] theorem modAxis_out : (modAxis k g s).out = s.out := rfl
@[simp] theorem modAxis_freeCtr : (modAxis k g s).freeCtr = s.freeCtr := rfl
@[simp] theorem modAxis_tick : (modAxis k g s).tick = s.tick := rfl
@[simp] theorem modAxis_sys : (modAxis k g s).sys = s.sys := rfl
@[simp] theorem modAxis_stalls : (modAxis k g s).stalls = s.stalls := rfl
@[simp] theorem modAxis_ints : (modAxis k g s).ints = s.ints := rfl
@[simp] theorem modAxis_bind : (modAxis k g s).bind = s.bind := rfl
@[simp] theorem modAxis_cmds : (modAxis k g s).cmds = s.cmds := rfl
@[simp] theorem modAxis_cfg : (modAxis k g s).cfg = s.cfg := rfl
@[simp] theorem modAxis_brd : (modAxis k g s).brd = s.brd := rfl
@[simp] theorem modAxis_csi : (modAxis k g s).csi = s.csi := rfl
@[simp] theorem modAxis_streams : (modAxis k g s).streams = s.streams := rfl
@[simp] theorem modAxis_pipes : (modAxis k g s).pipes = s.pipes := rfl
@[simp] theorem modAxis_groups : (modAxis k g s).groups = s.groups := rfl
@[simp] theorem modAxis_relays : (modAxis k g s).relays = s.relays := rfl
@[simp] theorem modAxis_recorder : (modAxis k g s).recorder = s.recorder := rfl
@[simp] theorem modAxis_tdm : (modAxis k g s).tdm = s.tdm := rfl
@[simp] theorem modAxis_cod : (modAxis k g s).cod = s.cod := rfl
@[simp] theorem modAxis_fabric : (modAxis k g s).fabric = s.fabric := rfl
@[simp] theorem modAxis_hbm : (modAxis k g s).hbm = s.hbm := rfl
@[simp] theorem modAxis_queues : (modAxis k g s).queues = s.queues := rfl
@[simp] theorem modAxis_heads : (modAxis k g s).heads = s.heads := rfl
@[simp] theorem modAxis_net : (modAxis k g s).net = s.net := rfl
@[simp] theorem modAxis_time : (modAxis k g s).time = s.time := rfl
@[simp] theorem modAxis_tth : (modAxis k g s).tth = s.tth := rfl
@[simp] theorem modAxis_lanes : (modAxis k g s).lanes = s.lanes := rfl
@[simp] theorem modAxis_pwr : (modAxis k g s).pwr = s.pwr := rfl
@[simp] theorem modAxis_thm : (modAxis k g s).thm = s.thm := rfl
@[simp] theorem modAxis_mck : (modAxis k g s).mck = s.mck := rfl
@[simp] theorem modAxis_pins : (modAxis k g s).pins = s.pins := rfl
/-- The element that it changes. -/
theorem axis_modAxis (h : k < s.axes.length) : axis (modAxis k g s) k = g (axis s k) := by
  simp [axis, modAxis, List.getD_eq_getElem?_getD, h]
/-- Every other element. -/
theorem axis_modAxis_ne {j : Nat} (h : j ≠ k) : axis (modAxis k g s) j = axis s j := by
  simp [axis, modAxis, List.getD_eq_getElem?_getD, Ne.symm h]
end

/-! ## modPwr -/

section
variable {g : Pwr → Pwr}
@[simp] theorem modPwr_pending : (modPwr g s).pending = s.pending := rfl
@[simp] theorem modPwr_out : (modPwr g s).out = s.out := rfl
@[simp] theorem modPwr_freeCtr : (modPwr g s).freeCtr = s.freeCtr := rfl
@[simp] theorem modPwr_tick : (modPwr g s).tick = s.tick := rfl
@[simp] theorem modPwr_sys : (modPwr g s).sys = s.sys := rfl
@[simp] theorem modPwr_stalls : (modPwr g s).stalls = s.stalls := rfl
@[simp] theorem modPwr_ints : (modPwr g s).ints = s.ints := rfl
@[simp] theorem modPwr_bind : (modPwr g s).bind = s.bind := rfl
@[simp] theorem modPwr_cmds : (modPwr g s).cmds = s.cmds := rfl
@[simp] theorem modPwr_cfg : (modPwr g s).cfg = s.cfg := rfl
@[simp] theorem modPwr_brd : (modPwr g s).brd = s.brd := rfl
@[simp] theorem modPwr_csi : (modPwr g s).csi = s.csi := rfl
@[simp] theorem modPwr_streams : (modPwr g s).streams = s.streams := rfl
@[simp] theorem modPwr_pipes : (modPwr g s).pipes = s.pipes := rfl
@[simp] theorem modPwr_groups : (modPwr g s).groups = s.groups := rfl
@[simp] theorem modPwr_relays : (modPwr g s).relays = s.relays := rfl
@[simp] theorem modPwr_recorder : (modPwr g s).recorder = s.recorder := rfl
@[simp] theorem modPwr_tdm : (modPwr g s).tdm = s.tdm := rfl
@[simp] theorem modPwr_cod : (modPwr g s).cod = s.cod := rfl
@[simp] theorem modPwr_fabric : (modPwr g s).fabric = s.fabric := rfl
@[simp] theorem modPwr_hbm : (modPwr g s).hbm = s.hbm := rfl
@[simp] theorem modPwr_queues : (modPwr g s).queues = s.queues := rfl
@[simp] theorem modPwr_heads : (modPwr g s).heads = s.heads := rfl
@[simp] theorem modPwr_net : (modPwr g s).net = s.net := rfl
@[simp] theorem modPwr_time : (modPwr g s).time = s.time := rfl
@[simp] theorem modPwr_tth : (modPwr g s).tth = s.tth := rfl
@[simp] theorem modPwr_lanes : (modPwr g s).lanes = s.lanes := rfl
@[simp] theorem modPwr_axes : (modPwr g s).axes = s.axes := rfl
@[simp] theorem modPwr_thm : (modPwr g s).thm = s.thm := rfl
@[simp] theorem modPwr_mck : (modPwr g s).mck = s.mck := rfl
@[simp] theorem modPwr_pins : (modPwr g s).pins = s.pins := rfl
end

/-! ## modDomain -/

section
variable {k : Nat} {g : Droop → Droop}
@[simp] theorem modDomain_pending : (modDomain k g s).pending = s.pending := rfl
@[simp] theorem modDomain_out : (modDomain k g s).out = s.out := rfl
@[simp] theorem modDomain_freeCtr : (modDomain k g s).freeCtr = s.freeCtr := rfl
@[simp] theorem modDomain_tick : (modDomain k g s).tick = s.tick := rfl
@[simp] theorem modDomain_sys : (modDomain k g s).sys = s.sys := rfl
@[simp] theorem modDomain_stalls : (modDomain k g s).stalls = s.stalls := rfl
@[simp] theorem modDomain_ints : (modDomain k g s).ints = s.ints := rfl
@[simp] theorem modDomain_bind : (modDomain k g s).bind = s.bind := rfl
@[simp] theorem modDomain_cmds : (modDomain k g s).cmds = s.cmds := rfl
@[simp] theorem modDomain_cfg : (modDomain k g s).cfg = s.cfg := rfl
@[simp] theorem modDomain_brd : (modDomain k g s).brd = s.brd := rfl
@[simp] theorem modDomain_csi : (modDomain k g s).csi = s.csi := rfl
@[simp] theorem modDomain_streams : (modDomain k g s).streams = s.streams := rfl
@[simp] theorem modDomain_pipes : (modDomain k g s).pipes = s.pipes := rfl
@[simp] theorem modDomain_groups : (modDomain k g s).groups = s.groups := rfl
@[simp] theorem modDomain_relays : (modDomain k g s).relays = s.relays := rfl
@[simp] theorem modDomain_recorder : (modDomain k g s).recorder = s.recorder := rfl
@[simp] theorem modDomain_tdm : (modDomain k g s).tdm = s.tdm := rfl
@[simp] theorem modDomain_cod : (modDomain k g s).cod = s.cod := rfl
@[simp] theorem modDomain_fabric : (modDomain k g s).fabric = s.fabric := rfl
@[simp] theorem modDomain_hbm : (modDomain k g s).hbm = s.hbm := rfl
@[simp] theorem modDomain_queues : (modDomain k g s).queues = s.queues := rfl
@[simp] theorem modDomain_heads : (modDomain k g s).heads = s.heads := rfl
@[simp] theorem modDomain_net : (modDomain k g s).net = s.net := rfl
@[simp] theorem modDomain_time : (modDomain k g s).time = s.time := rfl
@[simp] theorem modDomain_tth : (modDomain k g s).tth = s.tth := rfl
@[simp] theorem modDomain_lanes : (modDomain k g s).lanes = s.lanes := rfl
@[simp] theorem modDomain_axes : (modDomain k g s).axes = s.axes := rfl
@[simp] theorem modDomain_thm : (modDomain k g s).thm = s.thm := rfl
@[simp] theorem modDomain_mck : (modDomain k g s).mck = s.mck := rfl
@[simp] theorem modDomain_pins : (modDomain k g s).pins = s.pins := rfl
/-- The element that it changes. -/
theorem domain_modDomain (h : k < s.pwr.droops.length) : domain (modDomain k g s) k = g (domain s k) := by
  simp [domain, modDomain, List.getD_eq_getElem?_getD, h, modPwr]
/-- Every other element. -/
theorem domain_modDomain_ne {j : Nat} (h : j ≠ k) : domain (modDomain k g s) j = domain s j := by
  simp [domain, modDomain, List.getD_eq_getElem?_getD, Ne.symm h, modPwr]
end

/-! ## modThm -/

section
variable {g : Thm → Thm}
@[simp] theorem modThm_pending : (modThm g s).pending = s.pending := rfl
@[simp] theorem modThm_out : (modThm g s).out = s.out := rfl
@[simp] theorem modThm_freeCtr : (modThm g s).freeCtr = s.freeCtr := rfl
@[simp] theorem modThm_tick : (modThm g s).tick = s.tick := rfl
@[simp] theorem modThm_sys : (modThm g s).sys = s.sys := rfl
@[simp] theorem modThm_stalls : (modThm g s).stalls = s.stalls := rfl
@[simp] theorem modThm_ints : (modThm g s).ints = s.ints := rfl
@[simp] theorem modThm_bind : (modThm g s).bind = s.bind := rfl
@[simp] theorem modThm_cmds : (modThm g s).cmds = s.cmds := rfl
@[simp] theorem modThm_cfg : (modThm g s).cfg = s.cfg := rfl
@[simp] theorem modThm_brd : (modThm g s).brd = s.brd := rfl
@[simp] theorem modThm_csi : (modThm g s).csi = s.csi := rfl
@[simp] theorem modThm_streams : (modThm g s).streams = s.streams := rfl
@[simp] theorem modThm_pipes : (modThm g s).pipes = s.pipes := rfl
@[simp] theorem modThm_groups : (modThm g s).groups = s.groups := rfl
@[simp] theorem modThm_relays : (modThm g s).relays = s.relays := rfl
@[simp] theorem modThm_recorder : (modThm g s).recorder = s.recorder := rfl
@[simp] theorem modThm_tdm : (modThm g s).tdm = s.tdm := rfl
@[simp] theorem modThm_cod : (modThm g s).cod = s.cod := rfl
@[simp] theorem modThm_fabric : (modThm g s).fabric = s.fabric := rfl
@[simp] theorem modThm_hbm : (modThm g s).hbm = s.hbm := rfl
@[simp] theorem modThm_queues : (modThm g s).queues = s.queues := rfl
@[simp] theorem modThm_heads : (modThm g s).heads = s.heads := rfl
@[simp] theorem modThm_net : (modThm g s).net = s.net := rfl
@[simp] theorem modThm_time : (modThm g s).time = s.time := rfl
@[simp] theorem modThm_tth : (modThm g s).tth = s.tth := rfl
@[simp] theorem modThm_lanes : (modThm g s).lanes = s.lanes := rfl
@[simp] theorem modThm_axes : (modThm g s).axes = s.axes := rfl
@[simp] theorem modThm_pwr : (modThm g s).pwr = s.pwr := rfl
@[simp] theorem modThm_mck : (modThm g s).mck = s.mck := rfl
@[simp] theorem modThm_pins : (modThm g s).pins = s.pins := rfl
end

/-! ## modMck -/

section
variable {g : Mck → Mck}
@[simp] theorem modMck_pending : (modMck g s).pending = s.pending := rfl
@[simp] theorem modMck_out : (modMck g s).out = s.out := rfl
@[simp] theorem modMck_freeCtr : (modMck g s).freeCtr = s.freeCtr := rfl
@[simp] theorem modMck_tick : (modMck g s).tick = s.tick := rfl
@[simp] theorem modMck_sys : (modMck g s).sys = s.sys := rfl
@[simp] theorem modMck_stalls : (modMck g s).stalls = s.stalls := rfl
@[simp] theorem modMck_ints : (modMck g s).ints = s.ints := rfl
@[simp] theorem modMck_bind : (modMck g s).bind = s.bind := rfl
@[simp] theorem modMck_cmds : (modMck g s).cmds = s.cmds := rfl
@[simp] theorem modMck_cfg : (modMck g s).cfg = s.cfg := rfl
@[simp] theorem modMck_brd : (modMck g s).brd = s.brd := rfl
@[simp] theorem modMck_csi : (modMck g s).csi = s.csi := rfl
@[simp] theorem modMck_streams : (modMck g s).streams = s.streams := rfl
@[simp] theorem modMck_pipes : (modMck g s).pipes = s.pipes := rfl
@[simp] theorem modMck_groups : (modMck g s).groups = s.groups := rfl
@[simp] theorem modMck_relays : (modMck g s).relays = s.relays := rfl
@[simp] theorem modMck_recorder : (modMck g s).recorder = s.recorder := rfl
@[simp] theorem modMck_tdm : (modMck g s).tdm = s.tdm := rfl
@[simp] theorem modMck_cod : (modMck g s).cod = s.cod := rfl
@[simp] theorem modMck_fabric : (modMck g s).fabric = s.fabric := rfl
@[simp] theorem modMck_hbm : (modMck g s).hbm = s.hbm := rfl
@[simp] theorem modMck_queues : (modMck g s).queues = s.queues := rfl
@[simp] theorem modMck_heads : (modMck g s).heads = s.heads := rfl
@[simp] theorem modMck_net : (modMck g s).net = s.net := rfl
@[simp] theorem modMck_time : (modMck g s).time = s.time := rfl
@[simp] theorem modMck_tth : (modMck g s).tth = s.tth := rfl
@[simp] theorem modMck_lanes : (modMck g s).lanes = s.lanes := rfl
@[simp] theorem modMck_axes : (modMck g s).axes = s.axes := rfl
@[simp] theorem modMck_pwr : (modMck g s).pwr = s.pwr := rfl
@[simp] theorem modMck_thm : (modMck g s).thm = s.thm := rfl
@[simp] theorem modMck_pins : (modMck g s).pins = s.pins := rfl
end

/-! ## modMckPipe -/

section
variable {k : Nat} {g : MckPipe → MckPipe}
@[simp] theorem modMckPipe_pending : (modMckPipe k g s).pending = s.pending := rfl
@[simp] theorem modMckPipe_out : (modMckPipe k g s).out = s.out := rfl
@[simp] theorem modMckPipe_freeCtr : (modMckPipe k g s).freeCtr = s.freeCtr := rfl
@[simp] theorem modMckPipe_tick : (modMckPipe k g s).tick = s.tick := rfl
@[simp] theorem modMckPipe_sys : (modMckPipe k g s).sys = s.sys := rfl
@[simp] theorem modMckPipe_stalls : (modMckPipe k g s).stalls = s.stalls := rfl
@[simp] theorem modMckPipe_ints : (modMckPipe k g s).ints = s.ints := rfl
@[simp] theorem modMckPipe_bind : (modMckPipe k g s).bind = s.bind := rfl
@[simp] theorem modMckPipe_cmds : (modMckPipe k g s).cmds = s.cmds := rfl
@[simp] theorem modMckPipe_cfg : (modMckPipe k g s).cfg = s.cfg := rfl
@[simp] theorem modMckPipe_brd : (modMckPipe k g s).brd = s.brd := rfl
@[simp] theorem modMckPipe_csi : (modMckPipe k g s).csi = s.csi := rfl
@[simp] theorem modMckPipe_streams : (modMckPipe k g s).streams = s.streams := rfl
@[simp] theorem modMckPipe_pipes : (modMckPipe k g s).pipes = s.pipes := rfl
@[simp] theorem modMckPipe_groups : (modMckPipe k g s).groups = s.groups := rfl
@[simp] theorem modMckPipe_relays : (modMckPipe k g s).relays = s.relays := rfl
@[simp] theorem modMckPipe_recorder : (modMckPipe k g s).recorder = s.recorder := rfl
@[simp] theorem modMckPipe_tdm : (modMckPipe k g s).tdm = s.tdm := rfl
@[simp] theorem modMckPipe_cod : (modMckPipe k g s).cod = s.cod := rfl
@[simp] theorem modMckPipe_fabric : (modMckPipe k g s).fabric = s.fabric := rfl
@[simp] theorem modMckPipe_hbm : (modMckPipe k g s).hbm = s.hbm := rfl
@[simp] theorem modMckPipe_queues : (modMckPipe k g s).queues = s.queues := rfl
@[simp] theorem modMckPipe_heads : (modMckPipe k g s).heads = s.heads := rfl
@[simp] theorem modMckPipe_net : (modMckPipe k g s).net = s.net := rfl
@[simp] theorem modMckPipe_time : (modMckPipe k g s).time = s.time := rfl
@[simp] theorem modMckPipe_tth : (modMckPipe k g s).tth = s.tth := rfl
@[simp] theorem modMckPipe_lanes : (modMckPipe k g s).lanes = s.lanes := rfl
@[simp] theorem modMckPipe_axes : (modMckPipe k g s).axes = s.axes := rfl
@[simp] theorem modMckPipe_pwr : (modMckPipe k g s).pwr = s.pwr := rfl
@[simp] theorem modMckPipe_thm : (modMckPipe k g s).thm = s.thm := rfl
@[simp] theorem modMckPipe_pins : (modMckPipe k g s).pins = s.pins := rfl
/-- The element that it changes. -/
theorem mckPipe_modMckPipe (h : k < s.mck.pipes.length) : mckPipe (modMckPipe k g s) k = g (mckPipe s k) := by
  simp [mckPipe, modMckPipe, List.getD_eq_getElem?_getD, h, modMck]
/-- Every other element. -/
theorem mckPipe_modMckPipe_ne {j : Nat} (h : j ≠ k) : mckPipe (modMckPipe k g s) j = mckPipe s j := by
  simp [mckPipe, modMckPipe, List.getD_eq_getElem?_getD, Ne.symm h, modMck]
end

/-! ## Queues -/

/-- The queue that `modQueue` changes. -/
theorem queue_modQueue {q : Nat} {g : Queue → Queue} (h : Tbl.wf s.queues = true) : queue (modQueue q g s) q = g (queue s q) := by
  simp [queue, modQueue, Tbl.get_put h]

/-- Every other queue. -/
theorem queue_modQueue_ne {q j : Nat} {g : Queue → Queue} (h : j ≠ q) : queue (modQueue q g s) j = queue s j := by
  simp [queue, modQueue, Tbl.get_put_ne h]

end Sys2Proof.Machine
end

