-- ==== Sys2Proof/Laws/Reports.lean ====
section
/-! SUPPORT. What the shared operations that report can do: which fields a message, a tether packet, an event, an interrupt
source and a completion may change, and what the rings of a stall hold after an entry. -/

namespace Sys2Proof.Machine

/-! ## Messages and tether packets -/

/-- A message changes what has left the device and the functions' parts of the interrupts. -/
theorem trySignal_eq {f v : Nat} {s : State} : trySignal f v s =
    { s with out := (trySignal f v s).out, ints := { s.ints with fns := (trySignal f v s).ints.fns } } := by
  unfold trySignal sendVector; split <;> rfl

theorem resignal_eq {f v : Nat} {s : State} : resignal f v s =
    { s with out := (resignal f v s).out, ints := { s.ints with fns := (resignal f v s).ints.fns } } := by
  unfold resignal; split
  · exact trySignal_eq
  · rfl

@[simp] theorem trySignal_stalls {f v : Nat} {s : State} : (trySignal f v s).stalls = s.stalls := by rw [trySignal_eq]

@[simp] theorem stall_trySignal {f v k : Nat} {s : State} : stall (trySignal f v s) k = stall s k := by
  unfold stall; rw [trySignal_stalls]

@[simp] theorem stall_resignal {f v k : Nat} {s : State} : stall (resignal f v s) k = stall s k := by
  rw [resignal_eq]; rfl

/-- A tether packet changes what has left the device and the tether. -/
theorem tthSend_eq (p cls : Nat) (b : TthBody) (d : Nat) (x : Bool) (s : State) : tthSend p cls b d x s =
    { s with out := (tthSend p cls b d x s).out, tth := (tthSend p cls b d x s).tth } := by
  unfold tthSend tthPut modPort emit
  dsimp only
  split <;> rfl

theorem memberEvent_eq (f : Nat) (e : Event) (s : State) : memberEvent f e s =
    { s with out := (memberEvent f e s).out, tth := (memberEvent f e s).tth } := by
  unfold memberEvent
  split
  · rw [tthSend_eq]
  · split <;> rfl

/-! ## Rings -/

/-- A completion entry: where it goes, and what else may change (02 R54, R55). -/
theorem writeCpl_facts {f : Nat} {c : Completion} {b : Bool} {s : State} (h : f < s.stalls.length) :
    let t := writeCpl f c b s
    let x := stall s f
    stall t f = { x with cpl := Tbl.set x.cpl (x.cplTail.toNat % 128) { c with phase := phaseOf x.cplTail 128 }
                         cplTail := x.cplTail + 1, cplPend := x.cplPend || b } ∧
    (∀ g, g ≠ f → stall t g = stall s g) ∧
    t = { s with stalls := t.stalls, out := t.out, ints := { s.ints with fns := t.ints.fns } } ∧
    (b = false → t.out = s.out ∧ t.ints = s.ints) := by
  dsimp only
  unfold writeCpl raiseCpl
  dsimp only
  set g1 : Stall → Stall := fun x =>
    { x with cpl := Tbl.set x.cpl (x.cplTail.toNat % 128) { c with phase := phaseOf x.cplTail 128 }, cplTail := x.cplTail + 1 }
  cases b with
  | false =>
    simp only [Bool.or_false, Bool.false_eq_true, if_false]
    exact ⟨stall_modStall h, fun g hg => stall_modStall_ne hg, rfl, fun _ => ⟨rfl, rfl⟩⟩
  | true =>
    simp only [if_true, Bool.or_true]
    have hl : f < (modStall f g1 s).stalls.length := by simp [modStall, h]
    split
    · refine ⟨?_, fun g hg => ?_, rfl, by simp⟩
      · rw [stall_modStall hl, stall_modStall h]
      · rw [stall_modStall_ne hg, stall_modStall_ne hg]
    · refine ⟨?_, fun g hg => ?_, ?_, by simp⟩
      · rw [stall_trySignal, stall_modStall hl, stall_modStall h]
      · rw [stall_trySignal, stall_modStall_ne hg, stall_modStall_ne hg]
      · rw [trySignal_eq]; rfl

/-- An event entry: where it goes, and what else may change (02 R56, R57). -/
theorem writeEvent_facts {f : Nat} {e : Event} {s : State} (h : f < s.stalls.length) :
    let t := writeEvent f e s
    let x := stall s f
    stall t f = { x with evt := Tbl.set x.evt (x.evtTail.toNat % 256) { e with phase := phaseOf x.evtTail 256 }
                         evtTail := x.evtTail + 1, evtPend := true } ∧
    (∀ g, g ≠ f → stall t g = stall s g) ∧
    t = { s with stalls := t.stalls, out := t.out, ints := { s.ints with fns := t.ints.fns } } := by
  dsimp only
  unfold writeEvent raiseEvt
  dsimp only
  set g1 : Stall → Stall := fun x =>
    { x with evt := Tbl.set x.evt (x.evtTail.toNat % 256) { e with phase := phaseOf x.evtTail 256 }, evtTail := x.evtTail + 1 }
  have hl : f < (modStall f g1 s).stalls.length := by simp [modStall, h]
  split
  · refine ⟨?_, fun g hg => ?_, rfl⟩
    · rw [stall_modStall hl, stall_modStall h]
    · rw [stall_modStall_ne hg, stall_modStall_ne hg]
  · refine ⟨?_, fun g hg => ?_, ?_⟩
    · rw [stall_trySignal, stall_modStall hl, stall_modStall h]
    · rw [stall_trySignal, stall_modStall_ne hg, stall_modStall_ne hg]
    · rw [trySignal_eq]; rfl

theorem writeEvent_eq (f : Nat) (e : Event) (s : State) : writeEvent f e s =
    { s with stalls := (writeEvent f e s).stalls, out := (writeEvent f e s).out
             ints := { s.ints with fns := (writeEvent f e s).ints.fns } } := by
  unfold writeEvent raiseEvt
  dsimp only
  split
  · rfl
  · rw [trySignal_eq]; rfl

/-! ## Events, sources and completions -/

/-- An event changes the stalls, the functions' parts of the interrupts, the tether and what has left the device. -/
theorem postEvent_eq (f : Nat) (e : Event) (s : State) : postEvent f e s =
    { s with stalls := (postEvent f e s).stalls, out := (postEvent f e s).out
             ints := { s.ints with fns := (postEvent f e s).ints.fns }, tth := (postEvent f e s).tth } := by
  unfold postEvent
  split
  · rw [memberEvent_eq]
  · split
    · rfl
    · split
      · rfl
      · rw [writeEvent_eq]

theorem unitEvent_eq (code cls inst : Nat) (frame : Option Nat) (detail : Nat) (s : State) :
    unitEvent code cls inst frame detail s =
      { s with stalls := (unitEvent code cls inst frame detail s).stalls, out := (unitEvent code cls inst frame detail s).out
               ints := { s.ints with fns := (unitEvent code cls inst frame detail s).ints.fns }
               tth := (unitEvent code cls inst frame detail s).tth } := postEvent_eq _ _ _

theorem sysEvent_eq (code cls unit detail : Nat) (s : State) : sysEvent code cls unit detail s =
    { s with stalls := (sysEvent code cls unit detail s).stalls, out := (sysEvent code cls unit detail s).out
             ints := { s.ints with fns := (sysEvent code cls unit detail s).ints.fns }
             tth := (sysEvent code cls unit detail s).tth } := postEvent_eq _ _ _

/-- A source changes the same, and the pending bits. -/
theorem raise_eq (n : Nat) (s : State) : raise n s =
    { s with stalls := (raise n s).stalls, out := (raise n s).out, tth := (raise n s).tth
             ints := { s.ints with pend := (raise n s).ints.pend, fns := (raise n s).ints.fns } } := by
  unfold raise
  split
  · rfl
  · split
    · rw [postEvent_eq]
    · dsimp only
      split
      · rfl
      · rw [trySignal_eq]

/-- On the leader a source leaves the stalls and the tether. -/
theorem raise_leader {n : Nat} {s : State} (h : isLeader s = true) : (raise n s).stalls = s.stalls ∧ (raise n s).tth = s.tth := by
  unfold raise
  simp only [h, Bool.not_true, Bool.false_eq_true, if_false]
  split
  · exact ⟨rfl, rfl⟩
  · split
    · exact ⟨rfl, rfl⟩
    · rw [trySignal_eq]; exact ⟨rfl, rfl⟩

/-- HBM alone changes, or, beyond its end, what a source changes (10 R366). -/
theorem hbmWrite_eq (a : Nat) (bs : List Byte) (s : State) : hbmWrite a bs s =
    if a + bs.length ≤ Config.hbmEnd then { s with hbm := Mem.writes s.hbm a bs } else raise 360 s := rfl

theorem writeResults_eq (c : Cmd) (bs : List Byte) (s : State) : writeResults c bs s =
    { s with stalls := (writeResults c bs s).stalls, out := (writeResults c bs s).out } := by
  unfold writeResults modStall; split <;> [rfl; (split <;> [rfl; (split <;> rfl)])]

/-- A completion changes the stalls, the accepted commands, the functions' parts of the interrupts, the tether and what has left
the device (02 R53-R55). -/
theorem completeWith_eq (c : Cmd) (bind : Nat) (relayed : Bool) (r : Reply) (s : State) : completeWith c bind relayed r s =
    { s with stalls := (completeWith c bind relayed r s).stalls, cmds := (completeWith c bind relayed r s).cmds
             out := (completeWith c bind relayed r s).out
             ints := { s.ints with fns := (completeWith c bind relayed r s).ints.fns }
             tth := (completeWith c bind relayed r s).tth } := by
  unfold completeWith
  dsimp only
  split
  · rfl
  · split
    · rw [tthSend_eq]; rfl
    · unfold writeCpl raiseCpl
      dsimp only
      split
      · split
        · rw [writeResults_eq]; rfl
        · rw [trySignal_eq, writeResults_eq]; rfl
      · rw [writeResults_eq]; rfl

theorem complete_eq (c : Cmd) (r : Reply) (s : State) : complete c r s =
    { s with stalls := (complete c r s).stalls, cmds := (complete c r s).cmds, out := (complete c r s).out
             ints := { s.ints with fns := (complete c r s).ints.fns }, tth := (complete c r s).tth } := completeWith_eq _ _ _ _ _

/-! ## The way of a command (02 R50) -/

/-- A command of the opcode, accepted, that no check fails has its effect. -/
theorem runCmd_effect {r : CmdRef} {op : Nat} {chk : State → Cmd → Option Reply} {eff : Cmd → State → State} {s : State} {c : Cmd}
    (h : startable s r op = some c) (h2 : chk s c = none) : runCmd r op chk eff s = eff c s := by
  simp [runCmd, h, h2]

/-- One that a check fails is refused. -/
theorem runCmd_refused {r : CmdRef} {op : Nat} {chk : State → Cmd → Option Reply} {eff : Cmd → State → State} {s : State} {c : Cmd}
    {rep : Reply} (h : startable s r op = some c) (h2 : chk s c = some rep) : runCmd r op chk eff s = refuse c rep s := by
  simp [runCmd, h, h2]

/-- Without one, nothing happens. -/
theorem runCmd_none {r : CmdRef} {op : Nat} {chk : State → Cmd → Option Reply} {eff : Cmd → State → State} {s : State}
    (h : startable s r op = none) : runCmd r op chk eff s = s := by
  simp [runCmd, h]

theorem startable_op {s : State} {r : CmdRef} {op : Nat} {c : Cmd} (h : startable s r op = some c) : c.opcode = op := by
  unfold startable at h
  split at h
  · cases h
  · split at h
    · next h2 => cases h; simp only [Bool.and_eq_true, beq_iff_eq] at h2; exact h2.1.1.1.1
    · cases h

/-- What happens to a function's registers where its stall and the Groom are there. -/
theorem whenHost_of {f : Nat} {s : State} {g : State → State} (h : hostOk s f = true) : whenHost f g s = g s := by
  simp [whenHost, h]

end Sys2Proof.Machine
end

