-- ==== Sys2Proof/Tests/Slice0.lean ====
section
/-! SUPPORT. Tests of the model. Each is one step, or one check, on a small state, and shows that the hypotheses of a statement
of Certificates/Slice0/Obligations.lean can be met; where a value is compared, it is worked out by hand from the rule that
the comment names. -/

namespace Sys2Proof.Tests

open Sys2Proof Sys2Proof.Machine

set_option Elab.async false

/-! ## Helpers -/

/-- A test of the next state, where there is one. -/
def ran (o : Host.Outcome State Fault Refusal) (p : State → Bool) : Bool :=
  match o with
  | .next t => p t
  | _ => false

/-- The least value that a field's check admits. -/
def leastValue (f : Fld) : Nat :=
  match f.chk with
  | .rng lo _ => lo
  | .mul lo _ _ => lo
  | .oneOf vs => vs.headD 0
  | .srng lo _ => lo.toNat
  | _ => 0

/-- Bytes with a value laid over them: offset, size, value. -/
def put (b : List Byte) (p : Nat × Nat × Nat) : List Byte := b.take p.1 ++ leBytes p.2.1 p.2.2 ++ b.drop (p.1 + p.2.1)

/-- A block whose fields hold their least values. -/
def least (lay : List Fld) : List Byte :=
  lay.foldl (fun b f => (List.range f.cnt).foldl (fun b i => put b (f.off + f.size * i, f.size, leastValue f)) b)
    (List.replicate (blockLen lay) 0)

/-- The block of an opcode with some fields set. -/
def blk (op : Nat) (ps : List (Nat × Nat × Nat)) : List Byte := ps.foldl put (least (layOf op))

/-- An accepted command of F0. -/
def cmd (op target : Nat) (region : List Byte) : Cmd :=
  { fn := 0, seq := 1, opcode := op, flags := 0, target := target, device := 0, bind := 1, region := region }

/-- The reference of that command. -/
def r : CmdRef := ⟨0, 1⟩

/-- A state with one accepted command. -/
def withCmd (c : Cmd) (s : State) : State := { s with cmds := [c] }

/-- Whether a command of the reference may start, and no check of steps 7 to 12 fails it. -/
def passes (s : State) (c : Cmd) : Bool :=
  match (commandRows r none [] ⟨0, 0, true⟩).find? (·.op == c.opcode) with
  | some w => startable (withCmd c s) r c.opcode == some c && (w.chk (withCmd c s) c).isNone
  | none => false

/-- The status that the first failing check gives. -/
def fails (s : State) (c : Cmd) : Option Nat :=
  match (commandRows r none [] ⟨0, 0, true⟩).find? (·.op == c.opcode) with
  | some w => (w.chk (withCmd c s) c).map (·.status)
  | none => none

/-- The status of the completion entry that a command's step writes. -/
def answers (i : Instr) (s : State) (c : Cmd) : Option Nat :=
  match exec i (withCmd c s) with
  | .next t => (Tbl.find? (stall t 0).cpl 0).map (·.status)
  | _ => none

/-- A state whose committed and active configuration holds blocks: opcode, unit, slot, bytes, bulk data. -/
def conf (l : List ((Nat × Nat × Nat) × List Byte × List Byte)) : State :=
  let t := l.foldl (fun t e => Tbl.set t (cfgKey e.1.1 e.1.2.1 e.1.2.2) ⟨e.2.1, e.2.2, crc64 e.2.2⟩) []
  { State.reset with cfg := { committed := t, active := t } }

/-- A state whose function 1 exists. -/
def withVf (s : State) : State := { s with sys := { s.sys with vfEnable := true, numVfs := 1 } }

/-- A state in which one stall is another. -/
def withStall (f : Nat) (g : Stall → Stall) (s : State) : State := modStall f g s

/-- Member 1 of an array of two devices. -/
def member : State := { State.reset with sys := { State.reset.sys with device := 1, arraySize := 2 } }

/-- The leader of an array of two devices with T1 up. -/
def leader2 : State :=
  { State.reset with sys := { State.reset.sys with arraySize := 2 }, tth := { State.reset.tth with ports := [{},
      { up := true }] } }

/-! ## Well-formed commands: a term for each check of `Instr.wf` that the check refuses -/

/-- Function, doorbell group and register indices out of range (03 R80, R98; 11; 20 R641, R643, R646). -/
theorem test_wf_registers : ([.commandDoorbell 16 0, .intPendingClear 0 20 0, .intMaskWrite 0 20 0, .intRouteWrite 0 640 0,
    .ringReadAdvance 0 (.stats 17) 0, .ringReadAdvance 0 (.decOut 6) 0, .ringReadAdvance 0 (.encStats 6) 0,
    .ringReadAdvance 0 (.netRx 2 0) 0, .ringReadAdvance 0 (.netRx 0 32) 0, .queOccRead 0 128, .quePeakRead 0 128,
    .ptpTimeCapture 0 (.engine 2), .lneStatRead 0 72, .registerWrite 0 2 0, .msixEnable 16, .functionLevelReset 16] :
    List Instr).all (fun i => !i.wf) = true := by decide +kernel

/-- References of a function that does not exist, or with SEQ 0 (02 R37, 03 R80). -/
theorem test_wf_references : ([⟨16, 1⟩, ⟨0, 0⟩] : List CmdRef).all (fun q => !q.wf && !(Instr.queueStatus q).wf &&
    !(Instr.epochCommitApply q).wf && !(Instr.relayTimeout q).wf && !(Instr.nvmeHostAccessDone q 0 []).wf) = true := by
  decide +kernel

/-- Unit classes and instances that 03 R85 does not list. -/
theorem test_wf_units : ([⟨4, 0x51, 0⟩, ⟨0, 0x10, 1⟩, ⟨0, 0x11, 4⟩, ⟨0, 0x20, 17⟩, ⟨0, 0x21, 17⟩, ⟨0, 0x30, 16⟩, ⟨0, 0x31, 1⟩,
    ⟨0, 0x32, 2⟩, ⟨0, 0x40, 6⟩, ⟨0, 0x41, 6⟩, ⟨0, 0x51, 128⟩, ⟨0, 0x60, 4⟩, ⟨0, 0x70, 2⟩, ⟨0, 0x71, 2⟩, ⟨0, 0x90, 4⟩,
    ⟨0, 0x52, 0⟩] : List UnitRef).all (fun u => !(Instr.safeStateReached u).wf && !(Instr.rebindingApply u).wf) = true := by
  decide +kernel

/-- Lanes, channels, streams, ports, queues, heads, flows, axes, domains and diodes that the device does not have. -/
theorem test_wf_indices : ([.supplyUndervoltage 4, .hbmRetentionLost 2, .laneDown 32, .laneUp 32, .deskewFailure 32,
    .trailerTimeout 8, .frameVerdict 17, .tapPatchDone 17 0, .tapPatchDone 0 4, .spiScriptDone 4 [], .triggerEdge 4,
    .triggerScript 4, .csiFs 4 0 0, .csiFs 0 4 0, .csiFe 4 0 0, .csiFe 0 4 0, .csiDphyError 4, .pipeFrameBoundary 3,
    .shadingBlendDone 17, .relayPacket 2, .nvmeWriteComplete 2 0, .nvmeWriteTimeout 2, .audWordClockFrame 2 [],
    .audClockLost 2, .audClockRestored 2, .rtRestored 16, .memHot 2, .memEcc 64 0 false, .queuePacketWrite 128 [],
    .queuePacketFree 128, .creditReturn 128, .queueFlushed 128, .flipPoint 4, .genlockLost 4, .teMissing 4, .netLinkDown 2 0,
    .netLinkDown 0 4, .netLinkUp 2 0, .netLinkUp 0 4, .netFrameReceived 2 0 .other, .netFrameReceived 0 4 .other] :
    List Instr).all (fun i => !i.wf) = true := by decide +kernel

/-- The same for time, tether, motion, power and test. -/
theorem test_wf_more : ([.ptpMessageSend 2 .sync, .announceTimeout 2, .timeSteerApply 2, .sendSlot 2 0, .sendSlot 0 32,
    .st2110PacketSend 2 0, .st2110PacketSend 0 32, .queueFlowSend 2 0, .queueFlowSend 0 32, .rxSlotClose 2 0,
    .rxSlotClose 0 32, .pathLost 2 0 0, .pathLost 0 32 0, .pathLost 0 0 2, .tthAckTimeout 2 0, .tthLinkDown 2 0, .tthLinkUp 2,
    .hallEdge 4 0 0, .hallEdge 0 8 0, .hallIllegalTimeout 4, .inputBroken 4, .inputRestored 4, .observerLost 4,
    .observerRegained 4, .standstill 4, .motProbe 4 0 0, .droopSample 24 0, .snubStageExit 24, .diodeRead 2 0,
    .muckoutSliceDone 3 true, .spareRowScrub 64 0 0 .clean, .laneMarginReading 72 ⟨0, 0, 0, 0⟩, .msixMaskWrite 0 (some 64) true,
    .referenceClockMissing 3, .ppsPulse 2, .portPanic 16 0, .rtBufferOverflow 16, .memHotCleared 2,
        .csiLsLePacket 4 0 .lineStart 0,
    .delayReqSend 2, .testMarginDone 72 ⟨0, 0, 0, 0⟩] : List Instr).all (fun i => !i.wf) = true := by decide +kernel

/-! ## The queue, the clock, soundness -/

/-- A step takes the command at the front and leaves the rest (13 R456: a pulse leaves the device). -/
theorem test_step_front : ran (step { State.reset with pending := [.ppsPulse 1, .ppsPulse 0] })
    (fun t => t.pending == [.ppsPulse 0] && t.out == [.pps 1]) = true := by decide +kernel

/-- An empty queue: one tick of both engines by 3.2 ns (13 R450; log 3). -/
theorem test_step_tick : ran (step State.reset)
    (fun t => t.tick == 1 && t.time.engines.map (·.time) == [0x333333333, 0x333333333]) = true := by decide +kernel

/-- The engines stand still in self-refresh (17 R573). -/
theorem test_step_stopped : ran (step { State.reset with sys := { State.reset.sys with selfRefresh := true } })
    (fun t => t.time.engines.map (·.time) == [0, 0]) = true := by decide +kernel

/-- The state after reset is sound, so the premise of every statement about sound states is met. -/
theorem test_reset_sound : State.reset.sound :=
  ⟨⟨by decide +kernel, by decide +kernel⟩, by decide +kernel, by decide +kernel, by decide +kernel, by decide +kernel,
    by decide +kernel, by decide +kernel⟩

/-! ## Completions, events, sources, HBM, checks -/

/-- A completion without NOTIFY: the entry, and no message (02 R53-R55). -/
theorem test_completion : ran (.next (complete (cmd 0x5103 0 []) {} (withCmd (cmd 0x5103 0 []) State.reset)))
    (fun t => (Tbl.find? (stall t 0).cpl 0).map (fun e => (e.seq, e.status, e.phase)) == some (1, 0, true) &&
      (stall t 0).cplTail == 1 && t.cmds == [] && t.out == [] && isLeader t) = true := by decide +kernel

/-- Results over the parameter region, with RESULT in FLAGS and a region in the window (02 R651). -/
theorem test_completion_data :
    let c := { cmd 0x5103 0 [] with flags := 0x14, ploc := 1, ploff := 64 }
    ran (.next (complete c { data := [7] } (withCmd c State.reset)))
      (fun t => Mem.byte (stall t 0).mem (0x10000 + 64) == 7 && Mem.byte (stall t 0).mem (0x10000 + 65) == 0 &&
        (stall t 0).cplPend) = true := by decide +kernel

/-- A full event ring counts; one entry free takes the event; no function, no event (02 R57, 03 R84). -/
theorem test_event_ring : (let full := withStall 0 (fun x => { x with evtHead := 0, evtTail := 256 }) State.reset
    let last := withStall 0 (fun x => { x with evtHead := 0, evtTail := 255 }) State.reset
    (stall (postEvent 0 { code := 5 } full) 0).evtLost == 1 &&
      (Tbl.find? (stall (postEvent 0 { code := 5 } last) 0).evt 255).map (·.code) == some 5 &&
      !fnExists State.reset 1 && postEvent 1 { code := 5 } State.reset == State.reset) = true := by decide +kernel

/-- MSI-X on, nothing masked. -/
def open0 : State :=
  { State.reset with ints := { State.reset.ints with
    fns := State.reset.ints.fns.modify 0 fun x => { x with msixEnable := true, vecMask := 0, intMask := 0 } } }

/-- One message of a source; none where the vector awaits, the source is masked, or ENABLE is 0 (03 R98, R102, R103). -/
theorem test_source_signals : (
    (raise 639 open0).out == [.msix 0 2] && (raise 639 (raise 0 open0)).out == [.msix 0 2] &&
      (raise 639 State.reset).out == [] && isPending (raise 639 State.reset) 639 &&
      (let off := { open0 with ints := { open0.ints with routes := [(0, { enable := false })] } }
       raise 0 off == off)) = true := by decide +kernel

/-- The last byte of the map, and the first beyond it (10 R365, R390). -/
theorem test_hbm_edge : (hbmRead (hbmWrite (Config.hbmEnd - 1) [7] State.reset) (Config.hbmEnd - 1) 1 == [7] &&
    (hbmWrite Config.hbmEnd [7] State.reset).hbm == [] && isPending (hbmWrite Config.hbmEnd [7] State.reset) 360) = true := by
  decide +kernel

/-- A block of zeros is no `DSP.CONFIGURE`: `ST_BAD_PARAM`, and nothing is staged (02 R51). -/
theorem test_failed_check : (fails State.reset (cmd 0x6001 0 (blk 0x6001 [])) == some 0x11 &&
    answers (.dspConfigure r) State.reset (cmd 0x6001 0 (blk 0x6001 [])) == some 0x11) = true := by decide +kernel

/-- In a thermal stop `QUEUE.STATUS` is refused with `ST_DEVICE_STOPPED` (17 R574). -/
theorem test_stopped_refuses :
    (passes State.reset (cmd 0x5103 0 []) &&
      answers (.queueStatus r) { State.reset with thm := { State.reset.thm with stop := 1 } } (cmd 0x5103 0 []) == some 0x70) =
      true := by decide +kernel

/-! ## The host's registers -/

/-- A doorbell 64 ahead of the head is taken, one 65 ahead is not, and the same value changes nothing (02 R44). -/
theorem test_doorbell : (hostOk State.reset 0 &&
    ran (exec (.commandDoorbell 0 64) State.reset) (fun t => (stall t 0).cmdTail == 64 && !(stall t 0).dbErr) &&
    ran (exec (.commandDoorbell 0 65) State.reset) (fun t => (stall t 0).cmdTail == 0 && (stall t 0).dbErr) &&
    ran (exec (.commandDoorbell 0 0) State.reset) (· == State.reset)) = true := by decide +kernel

/-- An index up to the producer is taken, one beyond it sets HEAD_ERR (20 R637). -/
theorem test_ring_heads : (
    ran (exec (.evtHeadWrite 0 3) State.reset) (fun t => (stall t 0).evtHead == 3 && !(stall t 0).headErr) &&
    ran (exec (.evtHeadWrite 0 4) State.reset) (fun t => (stall t 0).evtHead == 0 && (stall t 0).headErr) &&
    ran (exec (.cplHeadWrite 0 0) State.reset) (fun t => !(stall t 0).headErr) &&
    ran (exec (.cplHeadWrite 0 1) State.reset) (fun t => (stall t 0).headErr)) = true := by decide +kernel

/-- The entry that frees takes `EV_EVENTS_LOST` with the count (02 R57). -/
theorem test_events_lost : ran (exec (.evtHeadWrite 0 1) (withStall 0
  (fun x => { x with evtTail := 256, evtLost := 9 }) State.reset))
    (fun t => (Tbl.find? (stall t 0).evt 0).map (fun e => (e.code, e.detail)) == some (1, 9) &&
      (stall t 0).evtLost == 0) = true := by
  decide +kernel

/-- Status bits written 1 clear; a mask bit that falls lets the stall's vector out (20 R638, R640; 03 R97). -/
theorem test_status_bits : (
    ran (exec (.grmStatusClear 0 1) (withStall 0 (fun x => { x with dbErr := true, headErr := true }) State.reset))
      (fun t => !(stall t 0).dbErr && (stall t 0).headErr) &&
    ran (exec (.intStallClear 0 2) State.reset) (fun t => !(stall t 0).evtPend) &&
    ran (exec (.intStallMaskWrite 0 0) (withStall 0 (fun x => { x with evtMask := true }) open0))
      (fun t => t.out == [.msix 0 1])) = true := by decide +kernel

/-- Pending and mask bits of sources routed to F0: source 626 is pending at reset and clears (03 R100). -/
theorem test_pending_bits : (isPending State.reset 626 &&
    ran (exec (.intPendingClear 0 19 (BitVec.ofNat 32 (2 ^ 18))) State.reset) (fun t => !isPending t 626 && isPending t 632) &&
    ran (exec (.intMaskWrite 0 19 0) State.reset) (fun t => !isMasked t 0 639 && isMasked t 0 607)) = true := by decide +kernel

/-- A notice whose occupancy is still above its level sets again at the clear (11 R401). -/
theorem test_notice_sets_again :
    let s := { State.reset with queues := [(0, { configured := true, level := 64, occ := 2, limit := 4, credits := 2,
                                                 packets := [List.replicate 128 0] })] }
    ran (exec (.intPendingClear 0 11 (BitVec.ofNat 32 (2 ^ 16))) (raise 368 s)) (fun t => isPending t 368) = true := by
  decide +kernel

/-- An acknowledged vector with a source still pending is signalled again (03 R102); without one it is not. -/
theorem test_vec_ack : (ran (exec (.intVecAck 0 2) (raise 639 open0)) (fun t => t.out == [.msix 0 2, .msix 0 2]) &&
    ran (exec (.intVecAck 0 3) open0) (fun t => t.out == [])) = true := by decide +kernel

/-- Enabling MSI-X sends the event vector and that of a pending source that nothing masks (02 R64, 03 R103). -/
theorem test_msix_enable : (ran (exec (.msixEnable 0) { open0 with ints := { open0.ints with
      fns := open0.ints.fns.modify 0 fun x => { x with msixEnable := false } } })
      (fun t => (fnInt t 0).msixEnable && t.out.contains (.msix 0 1) && t.out.contains (.msix 0 2)) &&
    ran (exec (.msixMaskWrite 0 none true) State.reset) (fun t => (fnInt t 0).fnMask) &&
    ran (exec (.msixMaskWrite 0 (some 63) false) State.reset) (fun t => !(fnInt t 0).vecMask.getLsbD 63)) = true := by
  decide +kernel

/-- VECTOR 1 is stored as 2; a route to a function that does not exist leads to F0; ENABLE 0 clears the bit; the target of a
route that moves is masked; F1 writes nothing (03 R98-R101). -/
theorem test_route_write : (
    ran (exec (.intRouteWrite 0 5 (BitVec.ofNat 32 0x141F)) State.reset)
      (fun t => routeOf t 5 == { func := 15, vector := 2, fixed := true } && targetOf t 5 == 0) &&
    ran (exec (.intRouteWrite 0 626 0) State.reset) (fun t => !isPending t 626) &&
    ran (exec (.intRouteWrite 0 626 (BitVec.ofNat 32 0x1421)) (withVf State.reset))
      (fun t => targetOf t 626 == 1 && isMasked t 1 626) &&
    ran (exec (.intRouteWrite 1 5 0) (withVf State.reset)) (· == withVf State.reset)) = true := by decide +kernel

/-- The reads with side effects, by the owner and by another function (11 R402, R404; 20 R642, R646). -/
theorem test_reads : (let s := { withVf State.reset with queues := [(3, { configured := true, occ := 2, peak := 7,
                                                                          crossings := 4 })] }
    ran (exec (.queOccRead 0 3) s) (fun t => (queue t 3).crossings == 0 && t.out == [.readData 0 0x4018 (2 + 4 * 2 ^ 24)]) &&
    ran (exec (.quePeakRead 0 3) s) (fun t => (queue t 3).peak == 2 && t.out == [.readData 0 0x401C 7]) &&
    ran (exec (.queOccRead 1 3) s) (fun t => t.out == [.readData 1 0x4018 0]) &&
    ran (exec (.ptpTimeCapture 0 .selected) s) (fun t => (fnInt t 0).selLatch == some ⟨0, 0⟩) &&
    ran (exec (.ptpTimeCapture 0 (.engine 1)) s) (fun t => (fnInt t 0).engLatch == [(1, 0)]) &&
    ran (exec (.lneStatRead 0 71) { s with lanes := s.lanes.modify 71 fun x => { x with downs := 3 } })
      (fun t => (t.lanes.getD 71 {}).downs == 0)) = true := by decide +kernel

/-- READ moves up to WRITE by the owner, not beyond it, and not by another function (20 R643-R645). -/
theorem test_ring_reads : (
    let s := { withVf State.reset with streams := State.reset.streams.modify 0 fun x => { x with statsWr := 2 } }
    ran (exec (.ringReadAdvance 0 (.stats 0) 2) s) (fun t => (stream t 0).statsRd == 2) &&
    ran (exec (.ringReadAdvance 0 (.stats 0) 3) s) (· == s) && ran (exec (.ringReadAdvance 1 (.stats 0) 1) s) (· == s) &&
    ran (exec (.ringReadAdvance 0 (.decOut 0) 0) s) (fun t => t.cod == s.cod) &&
    ran (exec (.ringReadAdvance 0 (.encStats 5) 0) s) (fun t => t.cod == s.cod) &&
    ran (exec (.ringReadAdvance 0 (.netRx 1 31) 0) s) (fun t => t.net == s.net)) = true := by decide +kernel

/-- Words of the map: a register, the last word of the window, the first beyond it (20 R630, R631; 02 R35). -/
theorem test_register_write : (
    ran (exec (.registerWrite 0 0x000 64) State.reset) (fun t => (stall t 0).cmdTail == 64) &&
    ran (exec (.registerWrite 0 0x33FFC 0x11223344) State.reset)
      (fun t => Mem.read (stall t 0).mem 0x13FFC 4 == [0x44, 0x33, 0x22, 0x11]) &&
    ran (exec (.registerWrite 0 0x2108 1) State.reset) (· == State.reset) &&
    ran (exec (.registerWrite 0 0x102000 1) State.reset) (· == State.reset)) = true := by decide +kernel

/-! ## Acceptance -/

/-- A command slot: opcode, SEQ, TARGET, PLOC and the rest 0 (02 R37). -/
def slotState (op seq : Nat) (s : State) : State :=
  withStall 0 (fun x => { x with cmdTail := 1, mem := Mem.writes [] 0x1000 (leBytes 4 seq ++ leBytes 2 op) }) s

/-- The expected SEQ is accepted and the command joins the accepted ones; another completes with `ST_BAD_SEQUENCE`; without a
command nothing changes (02 R45, R48). -/
theorem test_accept : (let s := slotState 0x0305 1 State.reset
    (slotAt (stall s 0)).seq == 1 && (slotAt (stall s 0)).opcode == 0x0305 &&
    ran (exec (.commandAccept 0 []) s) (fun t => (stall t 0).nextSeq == 2 && (stall t 0).cmdHead == 1 && t.cmds.length == 1) &&
    ran (exec (.commandAccept 0 []) (slotState 0x0305 2 State.reset)) (fun t => (stall t 0).nextSeq == 1 && t.cmds == [] &&
      (Tbl.find? (stall t 0).cpl 0).map (·.status) == some 0x13) &&
    ran (exec (.commandAccept 0 []) State.reset) (· == State.reset)) = true := by decide +kernel

/-- After 0xFFFFFFFF comes 1 (02 R37). -/
theorem test_accept_wraps : ran (exec (.commandAccept 0 [])
    (slotState 0x0305 0xFFFFFFFF (withStall 0 (fun x => { x with nextSeq := 0xFFFFFFFF }) State.reset)))
    (fun t => (stall t 0).nextSeq == 1) = true := by decide +kernel

/-! ## Configurations -/

/-- Stream 1 played by the host: 64 × 16, 10 bits, a ring of two slots. -/
def pipe1 : List Byte := blk 0x2001 [(0, 2, 1), (2, 1, 4), (0xB, 1, 1), (0x10, 8, 0x1C0000000), (0x18, 2, 2), (0x1C, 4, 8192)]
/-- Stream 1, 256 × 16 at 25 Hz, with tap 0 written back. -/
def pipe2 : List Byte :=
  blk 0x2001 [(0, 2, 1), (2, 1, 4), (4, 2, 256), (0xB, 1, 1), (0xC, 4, 40000000), (0x10, 8, 0x1C0000000), (0x18, 2, 2),
    (0x1C, 4, 12288), (0x24, 4, 4)]
/-- Tap 0 of a stream: 64 × 16. -/
def tap1 : List Byte :=
  blk 0x2104 [(1, 1, 1), (2, 1, 2), (0xC, 2, 64), (0xE, 2, 16), (0x13, 1, 0xFF), (0x14, 1, 0xFF), (0x15, 1, 0xFF),
    (0x38, 8, 0x1C2000000), (0x40, 2, 3), (0x44, 4, 8192)]
/-- Tap 0 of a stream: 256 × 16. -/
def tap2 : List Byte :=
  blk 0x2104 [(1, 1, 1), (2, 1, 2), (0xC, 2, 256), (0xE, 2, 16), (0x13, 1, 0xFF), (0x14, 1, 0xFF), (0x15, 1, 0xFF),
    (0x38, 8, 0x1C2000000), (0x40, 2, 4), (0x44, 4, 24576)]
/-- Channel 0 of the compressor takes stream 1. -/
def zip0 : List Byte := blk 0x3001 [(0, 2, 1), (4, 2, 1)]
/-- Relay Z14 of group 0 into queue 0. -/
def relay14 : List Byte := blk 0x3001 [(0, 2, 0x4000), (2, 1, 1)]
/-- An encode session on core 0 of stream 1, tap 0, into queue 0. -/
def enc0 : List Byte :=
  blk 0x4001 [(0, 1, 1), (1, 1, 4), (2, 1, 90), (3, 1, 1), (4, 2, 256), (6, 2, 16), (8, 4, 40000000), (0x10, 4, 1000),
    (0x14, 4, 1000), (0x1E, 2, 1)]
/-- A decode session on core 0. -/
def dec0 : List Byte := blk 0x4101 [(0, 1, 1), (2, 1, 90), (8, 8, 0x1C6000000), (0x14, 4, 16384)]
/-- H0 at 1080 lines and 25 Hz. -/
def head0 : List Byte :=
  blk 0x6001 [(0, 2, 1920), (2, 2, 1080), (4, 4, 40000000), (8, 1, 1), (0xB, 1, 0xFF), (0x2C, 8, 0x1C4000000), (0x34, 2, 2)]
/-- Overlay plane 2 of a head: 16 × 2. -/
def overlay2 : List Byte :=
  blk 0x6002 [(0, 1, 2), (1, 1, 1), (2, 1, 2), (7, 1, 1), (0xE, 2, 16), (0x10, 2, 2), (0x18, 8, 0x1C5000000)]
/-- A queue of 8,192 bytes with packets of up to 1,024. -/
def queueBlk (prod cons : Nat × Nat) : List Byte :=
  blk 0x5101 [(0, 4, 8192), (4, 4, 1024), (0x10, 8, 0x1C1000000), (0x18, 1, prod.1), (0x19, 1, prod.2), (0x1A, 1, cons.1),
    (0x1B, 1, cons.2)]
/-- A state with one configured queue. -/
def withQueue (q : Nat) (b : List Byte) (s : State) : State := { s with queues := [(q, queueOf b {})] }
/-- Stream 1 is configured. -/
def s1 : State := conf [((0x2001, 1, 0), pipe1, [])]
/-- Stream 1 and channel 0 of the compressor. -/
def sZip : State := conf [((0x2001, 1, 0), pipe1, []), ((0x3001, 0, 0), zip0, [])]
/-- Stream 1 and its tap, for an encode session. -/
def sEnc : State := withQueue 0 (queueBlk (0x40, 0) (0, 0)) (conf [((0x2001, 1, 0), pipe2, []), ((0x2104, 1, 0), tap2, [])])
/-- The encode session is open. -/
def sOpen : State :=
  { withQueue 0 (queueBlk (0x40, 0) (0, 0))
      (conf [((0x2001, 1, 0), pipe2, []), ((0x2104, 1, 0), tap2, []), ((0x4001, 0, 0), enc0, [])]) with
    cod := { enc := [{ id := 0, core := 0, cores := 1 }] } }
/-- The decode session is open. -/
def sDec : State := { State.reset with cod := { dec := [{ id := 0, core := 0, cores := 1, blk := dec0 }] } }

/-! ## Commands that stage: each starts, and no check fails it -/

/-- `n` zeros and their CRC-64 as bulk data (02 R70). -/
def zeros (n : Nat) : List Byte := List.replicate n 0

/-- FUNC, BRD and CSI. -/
theorem test_stage_bridle : (passes State.reset (cmd 0x0401 0 (blk 0x0401 [])) &&
  passes State.reset (cmd 0x1001 0 (blk 0x1001 [])) &&
    passes State.reset (cmd 0x1002 0 (blk 0x1002 [])) && passes State.reset (cmd 0x1101 0 (blk 0x1101 []))) = true := by
  decide +kernel

/-- PIPE. -/
theorem test_stage_pipe : (passes State.reset (cmd 0x2001 1 pipe1) &&
    passes s1 (cmd 0x2002 1 (blk 0x2002 [(2, 2, 2), (4, 2, 2), (8, 4, 32), (0x10, 8, crc64 (zeros 32))] ++ zeros 32)) &&
    passes s1 (cmd 0x2003 1 (blk 0x2003 [])) && passes s1 (cmd 0x2004 1 (blk 0x2004 [])) &&
    passes s1 (cmd 0x2005 1 (blk 0x2005 [(0x10, 2, 2), (0x14, 4, 8192)]))) = true := by
  decide +kernel

/-- COL. -/
theorem test_stage_colour : (
    passes s1 (cmd 0x2101 1 (blk 0x2101 [(0, 1, 4), (4, 4, 36), (0x10, 8, crc64 (zeros 36))] ++ zeros 36)) &&
    passes s1 (cmd 0x2102 1 (blk 0x2102 [])) && passes s1 (cmd 0x2103 1 (blk 0x2103 [])) && passes s1 (cmd 0x2104 1 tap1) &&
    passes s1 (cmd 0x2105 1 (blk 0x2105 []))) = true := by decide +kernel

/-- ZIP, AUD and ENC. -/
theorem test_stage_store : (passes s1 (cmd 0x3001 0 zip0) &&
    passes (withQueue 0 (queueBlk (0x30, 14) (0, 0)) sZip) (cmd 0x3001 14 relay14) &&
    passes sZip (cmd 0x3002 0 (blk 0x3002 [(0, 8, 0x1C3000000), (8, 8, 0x100000)])) &&
    passes State.reset (cmd 0x3201 0 (blk 0x3201 [])) && passes sOpen (cmd 0x4003 0 (blk 0x4003 [])) &&
    passes sOpen (cmd 0x4005 0 (blk 0x4005 []))) = true := by decide +kernel

/-- MEM and DSP. -/
theorem test_stage_service : (passes State.reset (cmd 0x5001 0 (blk 0x5001 [])) &&
    passes State.reset (cmd 0x5002 0 (blk 0x5002 (((List.range 16).map fun i => (i, 1, 15 - i)) ++ [(0x12, 1, 94)]))) &&
    passes State.reset (cmd 0x6001 0 head0) && passes (conf [((0x6001, 0, 0), head0, [])]) (cmd 0x6002 0 overlay2)) = true := by
  decide +kernel

/-- NET, TTH, MOT and PWR. -/
theorem test_stage_device : (passes State.reset (cmd 0x7001 0 (blk 0x7001 [(0xC, 4, 1)])) &&
    passes State.reset (cmd 0x7002 0 (blk 0x7002 [])) && passes State.reset (cmd 0x8001 0 (blk 0x8001 [])) &&
    passes leader2 (cmd 0x8002 0 (blk 0x8002 [(0, 1, 2), (4, 4, 512), (8, 2, 256), (10, 2, 256)])) &&
    passes State.reset (cmd 0x9001 0 (blk 0x9001 [(0xA, 2, 10)])) &&
    passes (conf [((0x9001, 0, 0), blk 0x9001 [(0, 1, 1), (0xA, 2, 10)],
      [])]) (cmd 0x9002 0 (blk 0x9002 []))) = true := by decide +kernel

/-- `PWR.LIMITS` passes where the estimate, a free value, lies within the profile's cap. -/
theorem test_stage_limits (h : Config.loadEstimateMw 0 % 2 ^ 32 ≤ 65000) :
    (checkPwrLimits (withCmd (cmd 0xA001 0 (blk 0xA001 [])) State.reset) (cmd 0xA001 0 (blk 0xA001 []))).isNone = true := by
  have h1 : decide (65000 < loadOf (withCmd (cmd 0xA001 0 (blk 0xA001 [])) State.reset) 0) = false := by
    have h2 : (withCmd (cmd 0xA001 0 (blk 0xA001 [])) State.reset).freeCtr = 0 := rfl
    simpa [loadOf, h2] using h
  show (inOrder _ _ _ none (need (!(decide (65000 < loadOf _ 0))) _) none).isNone = true
  rw [h1]
  decide +kernel

/-- The staged block is the command's, and its completion has DEFERRED (02 R53, R68). -/
theorem test_staged : ran (exec (.pipeConfigure r) (withCmd (cmd 0x2001 1 pipe1) State.reset))
    (fun t => t.cfg.staged == [{ fn := 0, key := cfgKey 0x2001 1 0, val := { blk := pipe1, bulk := [], crc := 0 } }] &&
      t.cfg.committed == [] && (Tbl.find? (stall t 0).cpl 0).map (·.deferred) == some true) = true := by decide +kernel

/-! ## Epochs -/

/-- A state with one staged block of F0. -/
def sStaged : State := { State.reset with cfg := { staged := [{ fn := 0, key := cfgKey 0xA001 0 0,
                                                                val := { blk := blk 0xA001 [] } }] } }

/-- EPOCH commands start on a lone device (02 R655). -/
theorem test_epoch_commands : (passes sStaged (cmd 0x0301 0 (blk 0x0301 [])) && passes sStaged (cmd 0x0302 0 (blk 0x0302 [])) &&
    passes sStaged (cmd 0x0303 0 (blk 0x0303 [])) && passes sStaged (cmd 0x0304 0 (blk 0x0304 [])) &&
    passes sStaged (cmd 0x0305 0 []) && !arrayWide sStaged (schedOf sStaged (cmd 0x0302 0 (blk 0x0302 [])))) = true := by
  decide +kernel

/-- A commit captures what is staged, and staging is empty again; a discard drops it (02 R71, R655). -/
theorem test_commit_captures : (
    ran (exec (.epochCommit r) (withCmd (cmd 0x0302 0 (blk 0x0302 [])) sStaged))
      (fun t => t.cfg.staged == [] && t.cfg.sched.map (·.img) == [sStaged.cfg.staged] && t.cfg.epoch == 0) &&
    ran (exec (.epochDiscard r) (withCmd (cmd 0x0304 0 (blk 0x0304 [])) sStaged)) (fun t => t.cfg.staged == [])) = true := by
  decide +kernel

/-- A scheduled commit of MODE 0 that waits to apply. -/
def sSched : State :=
  withCmd { cmd 0x0302 0 (blk 0x0302 []) with waiting := true } { State.reset with cfg := { sched := [{
    ref := r, mode := 0, stream := 0, scope := 0, frame := 0, time := ⟨0, 0⟩, expect := 0, img := sStaged.cfg.staged }] } }

/-- The commit applies: epoch 1, the block committed, the answer in RESULT0 (02 R68, R69). -/
theorem test_commit_applies : ((findSched sSched r).any (fun x => mayApply sSched x && !arrayWide sSched x && x.number.isNone &&
      (schedCmd sSched x).isSome) &&
    ran (exec (.epochCommitApply r) sSched) (fun t => t.cfg.epoch == 1 && t.cfg.sched == [] &&
      (Tbl.find? t.cfg.committed (cfgKey 0xA001 0 0)).isSome &&
      (Tbl.find? (stall t 0).cpl 0).map (·.result0) == some 1)) = true := by decide +kernel

/-! ## SYS, STALL, FUNC, BIND -/

/-- Stream 1 runs: its last FS came within two frame periods (log 22). -/
def sRuns : State :=
  let s := conf [((0x2001, 1, 0), pipe2, [])]
  { s with streams := s.streams.modify 1 fun x => { x with known := true, cfg := s.cfg.active } }

/-- `SYS.PROFILE_COMMIT` of profile 2 passes its checks where the Groom's estimate, a free value, lies within the cap. -/
theorem test_profile (h : Config.loadEstimateMw 0 % 2 ^ 32 ≤ 40000) :
    let c := cmd 0x0001 0 (blk 0x0001 [(0, 1, 2)])
    (profileCheck (withCmd c State.reset) c).isNone = true ∧ (profileCheck (withCmd c sRuns) c).isNone = true := by
  have h1 : ∀ s, s.freeCtr = 0 → decide (loadOf s 0 ≤ 40000) = true := by
    intro s hs
    simpa [loadOf, hs] using h
  constructor
  · have h2 := h1 (withCmd (cmd 0x0001 0 (blk 0x0001 [(0, 1, 2)])) State.reset) rfl
    show (inOrder _ _ _ _ (firstFail [need (decide (loadOf _ 0 ≤ 40000)) _, _]) _).isNone = true
    rw [h2]
    decide +kernel
  · have h2 := h1 (withCmd (cmd 0x0001 0 (blk 0x0001 [(0, 1, 2)])) sRuns) rfl
    show (inOrder _ _ _ _ (firstFail [need (decide (loadOf _ 0 ≤ 40000)) _, _]) _).isNone = true
    rw [h2]
    decide +kernel

/-- No stream runs at reset, stream 1 does here; a request that waits is applied at the frame boundary (17 R552). -/
theorem test_profile_applies : (!(List.range 17).any (streamRuns State.reset) && (List.range 17).any (streamRuns sRuns) &&
    (startable (withCmd (cmd 0x0001 0 (blk 0x0001 [])) State.reset) r 0x0001).isSome &&
    ran (exec .profileApply { State.reset with sys := { State.reset.sys with profileReq := some (r, 2, 0, 0) } })
      (fun t => t.sys.profile == 2 && t.sys.profileReq == none)) = true := by decide +kernel

/-- The other SYS commands, STALL.CONFIGURE, FUNC.QUERY and FUNC.RESET_UNITS start; the window shrinks (02 R36). -/
theorem test_system_commands : (passes State.reset (cmd 0x0002 0 []) && passes State.reset (cmd 0x0003 0 (blk 0x0003 [])) &&
    passes State.reset (cmd 0x0004 0 []) && passes State.reset (cmd 0x0402 0 (blk 0x0402 [])) &&
    passes State.reset (cmd 0x0403 0 (blk 0x0403 [])) &&
    ran (exec (.stallConfigure r) (withCmd (cmd 0x0101 0 (blk 0x0101 [(2, 2, 4)])) State.reset))
      (fun t => (stall t 0).windowKib == 4 && t.cmds == []) &&
    ran (exec (.sysLinkPolicy r) (withCmd (cmd 0x0003 0 (blk 0x0003 [(0, 1, 1)])) State.reset))
      (fun t => t.sys.linkPolicy == 1) &&
    ran (exec (.funcResetUnits r) (withCmd (cmd 0x0403 0 (blk 0x0403 [])) State.reset))
      (fun t => safeOf t 47 != 0 && safeOf t 181 != 0)) = true := by decide +kernel

/-- The end of a thermal stop (17 R576). -/
theorem test_resume : ran (exec (.sysResume r) (withCmd (cmd 0x0002 0 []) { State.reset with
      thm := { State.reset.thm with stop := 2, cooled := true, nodes := List.replicate 12 25 }
      sys := { State.reset.sys with phase := .stopped, selfRefresh := true } }))
    (fun t => t.thm.stop == 0 && t.sys.phase == .running) = true := by decide +kernel

/-- Fuse 0 holds 5: 7 programs bit 1; with no bit left in the window ST_TEMP_WINDOW; 2 is refused (17 R579, R580). -/
theorem test_fuses : (let s := { State.reset with sys := { State.reset.sys with fuses := [(0, 5)] },
                                                  thm := { State.reset.thm with builtin := false } }
    passes s (cmd 0x0005 0 (blk 0x0005 [(8, 1, 7)])) &&
    ran (exec (.sysFuseProgram r none) (withCmd (cmd 0x0005 0 (blk 0x0005 [(8, 1, 7)])) s)) (fun t => t.sys.fuses == [(0, 7)]) &&
    ran (exec (.sysFuseProgram r (some 0)) (withCmd (cmd 0x0005 0 (blk 0x0005 [(8, 1, 7)])) s))
      (fun t => t.sys.fuses == [(0, 5)] && (Tbl.find? (stall t 0).cpl 0).map (·.status) == some 0x50) &&
    ran (exec (.sysFuseProgram r none) (withCmd (cmd 0x0005 0 (blk 0x0005 [(8, 1, 2)])) s))
      (fun t => t.sys.fuses == [(0, 5)] && (Tbl.find? (stall t 0).cpl 0).map (·.status) == some 0x11)) = true := by
  decide +kernel

/-- BIND commands start; queue 0 goes to F1, and back (03 R86, R88). -/
theorem test_bind_commands : (
    passes (withVf State.reset) (cmd 0x0201 0 (blk 0x0201 [(0, 1, 0x51), (1, 1, 1), (4, 2, 1)])) &&
    passes { withVf State.reset with bind := { owner := [(47, 1)] } } (cmd 0x0202 0 (blk 0x0202 [(0, 1, 0x51), (4, 2, 1)])) &&
    passes State.reset (cmd 0x0203 0 (blk 0x0203 [(0, 1, 0x51)])) && unitKey 0 0x51 0 == some 47) = true := by decide +kernel

set_option maxRecDepth 20000 in
/-- A rebinding applies: owner F1, and epoch 65,535 goes to 1 (03 R83, R88). -/
theorem test_rebinding : ran (exec (.rebindingApply ⟨0, 0x51, 0⟩) { withVf State.reset with
      bind := { epoch := [(47, 65535)], waiting := [{ unit := ⟨0, 0x51, 0⟩, newOwner := 1, cmd := some r }] } })
    (fun t => ownerOf t 47 == 1 && epochOf t 47 == 1 && t.bind.waiting == []) = true := by decide +kernel

/-- A unit ordered to its safe state is in it: Bridle, stream 0, core 0, the last queue (03 R93). -/
theorem test_safe_state : ([(⟨0, 0x10, 0⟩, 0), (⟨0, 0x20, 0⟩, 5), (⟨0, 0x40, 0⟩, 41), (⟨0, 0x51, 127⟩, 174)] :
    List (UnitRef × Nat)).all (fun e => unitKey e.1.device e.1.cls e.1.inst == some e.2 && unitRef e.2 == e.1 &&
      ran (exec (.safeStateReached e.1) { State.reset with bind := { safe := [(e.2, 1)] } })
        (fun t => safeOf t e.2 == 2)) = true := by decide +kernel

/-! ## Functions, the link, starts -/

set_option maxRecDepth 20000 in
/-- Functions begin and end; a unit of F1 is ordered to its safe state (03 R80, R84). -/
theorem test_functions : (let s := { withVf State.reset with bind := { owner := [(47, 1)] } }
    configOk s && fnExists s 1 &&
    ran (exec .vfEnableSet State.reset) (fun t => t.sys.vfEnable) &&
    ran (exec .vfEnableClear s) (fun t => !t.sys.vfEnable && safeOf t 47 != 0 && t.bind.waiting.length == 1) &&
    ran (exec (.numvfsWrite 15) s) (fun t => t.sys.numVfs == 15) &&
    ran (exec (.numvfsWrite 0) s) (fun t => safeOf t 47 != 0) && ran (exec (.numvfsWrite 16) s) (· == s)) = true := by
  decide +kernel

/-- A function-level reset of F1 (02 R66, R67). -/
theorem test_function_reset :
    ran (exec (.functionLevelReset 1) (withStall 1 (fun x => { x with nextSeq := 7, cmdTail := 3 })
        { withVf State.reset with bind := { owner := [(47, 1)] } }))
      (fun t => (stall t 1).nextSeq == 1 && (stall t 1).cmdTail == 0 && (stall t 1).resetKind == 3 && safeOf t 47 != 0 &&
        ownerOf t 47 == 1) = true := by decide +kernel

set_option maxRecDepth 20000 in
/-- The link goes down and comes up (02 R62, R64, R65; 18 R587). -/
theorem test_link : (!(State.reset.cmds.any aborts) &&
    ran (exec (.linkReset true) State.reset) (fun t => !t.sys.linkUp && (stall t 15).resetKind == 1) &&
    ran (exec (.linkReset false) State.reset) (fun t => (stall t 0).resetKind == 2 && (stall t 0).resetCount == 1) &&
    ran (exec .perstN (withVf State.reset)) (fun t => !t.sys.vfEnable && (stall t 0).resetKind == 4) &&
    ran (exec .linkUp (withStall 0 (fun x => { x with cmdTail := 1, mem := [(0x1000, 9), (0x1040, 9)] })
        { State.reset with sys := { State.reset.sys with linkUp := false } }))
      (fun t => t.sys.linkUp && (stall t 0).resumed && Mem.byte (stall t 0).mem 0x1000 == 9 &&
        Mem.byte (stall t 0).mem 0x1040 == 0)) = true := by decide +kernel

/-- What a good start finds. -/
def goodStart : StartInputs :=
  { deviceIndex := 0, arraySize := 1, diode0 := 100, diode1 := 100, flashReadOk := true, hbmTrained := true
    primaryAuthentic := true, recoveryAuthentic := true, primaryVersion := (3, 2, 0), recoveryVersion := (1, 0, 0)
    tablePrimary := [], tableBackup := [], inTime := true }

/-- SYS_RST_N low. -/
def sHeld : State := { State.reset with sys := { State.reset.sys with phase := .held, sysRstLow := true, ready := false } }

/-- SYS_RST_N, a watched rail, and its recovery (18 R584; 19 R621). -/
theorem test_resets : (
    ran (exec .sysRstNAssertion State.reset) (fun t => t.sys.phase == .held && t.pins.floating) &&
    ran (exec (.supplyUndervoltage 3) State.reset) (fun t => t.sys.phase == .held && t.sys.railsLow == [3]) &&
    ran (exec (.supplyUndervoltage 4) State.reset) (· == State.reset) &&
    ran (exec .supplyRecovery { State.reset with sys := { State.reset.sys with phase := .held, railsLow := [3] } })
      (fun t => t.sys.phase == .released)) = true := by decide +kernel

/-- Release of reset, FAILS 0 and 3. -/
def sReleased (n : Nat) : State :=
  { State.reset with sys := { State.reset.sys with phase := .released, ready := false, fails := n, step := 2 } }

/-- A cold start that succeeds, one that waits for its diodes, and one on the recovery image (18 R589, R595, R596). -/
theorem test_cold_start : (
    ran (exec (.coldStart goodStart) (sReleased 2)) (fun t => t.sys.phase == .running && t.sys.ready && t.sys.fails == 0) &&
    ran (exec (.coldStart { goodStart with diode1 := 360 }) (sReleased 0)) (fun t => t.sys.phase == .released &&
      t.sys.step == 1) &&
    ran (exec (.coldStart { goodStart with primaryAuthentic := false }) (sReleased 3)) (fun t => t.sys.phase == .running) &&
    ran (exec (.coldStart goodStart) { sHeld with sys := { sHeld.sys with railsLow := [] } })
      (fun t => t.sys.phase == .running)) =
      true := by decide +kernel

/-- FAIL_CODE 2, 1, 3 and 4, the count, and the halt at 3 (18 R595, R596). -/
theorem test_failed_starts : (
    ran (exec (.coldStart { goodStart with flashReadOk := false }) (sReleased 0)) (fun t => t.sys.failCode == 2 &&
      t.sys.fails == 1) &&
    ran (exec (.coldStart { goodStart with primaryAuthentic := false }) (sReleased 0)) (fun t => t.sys.failCode == 1) &&
    ran (exec (.coldStart { goodStart with hbmTrained := false }) (sReleased 0)) (fun t => t.sys.failCode == 3) &&
    ran (exec (.coldStart { goodStart with recoveryAuthentic := false }) (sReleased 3))
      (fun t => t.sys.phase == .halted && t.out == [.uart 1]) &&
    ran (exec .hostReadyTimeout (sReleased 2)) (fun t => t.sys.failCode == 4 && t.sys.fails == 3) &&
    ran (exec .hostReadyTimeout (sReleased 3)) (fun t => t.sys.phase == .halted)) = true := by decide +kernel

/-- Retention with a byte in HBM (18 R585, R586; 10 R387-R389). -/
def sRetained : State :=
  { State.reset with hbm := [(5, 7)], sys := { State.reset.sys with
    phase := .retained, selfRefresh := true, ready := false, linkUp := false, retention := some ⟨true, 0⟩ } }

/-- Retention begins, ends at a step on an empty queue but not during STOPPING, times out, and can be lost. -/
theorem test_retention : (
    let entering (late : Bool) : State :=
      { State.reset with hbm := [(5, 7)], sys := { State.reset.sys with entryDue := true, entryLate := late } }
    ran (exec .retentionEntry { State.reset with hbm := [(5, 7)] }) (· == { entering false with
      sys := { (entering false).sys with warmRstLow := true } }) &&
    ran (step (entering false)) (fun t => t.sys.phase == .retained && t.hbm == [(5, 7)] && t.sys.retention == some ⟨true, 0⟩) &&
    ran (step (entering true)) (fun t => t.sys.retention == some ⟨false, 0⟩) &&
    ran (step { entering false with thm := { State.reset.thm with stop := 1 } }) (fun t => t.sys.entryDue) &&
    ran (exec .retentionEntry sRetained) (· == sRetained) &&
    ran (exec .retentionEntryTimeout (entering false)) (fun t => t.sys.entryLate) &&
    ran (exec (.hbmRetentionLost 1) sRetained) (fun t => t.hbm == [] && t.sys.lost)) = true := by decide +kernel

/-- A warm start keeps HBM; with a signature that differs it becomes a cold start (18 R592-R594). -/
theorem test_warm_start : (
    ran (exec (.warmStart ⟨true, true, goodStart⟩) sRetained) (fun t => t.hbm == [(5, 7)] && t.sys.startKind == 1 &&
      t.sys.ready) &&
    ran (exec (.warmStart ⟨true, true, goodStart⟩) { State.reset with hbm := [(5, 7)], sys := { State.reset.sys with
      entryDue := true } }) (fun t => t.hbm == [(5, 7)] && t.sys.startKind == 1 && t.sys.ready) &&
    ran (exec (.warmStart ⟨false, true, goodStart⟩) sRetained) (fun t => t.hbm == [] && t.sys.startKind == 2)) = true := by
  decide +kernel

/-! ## Time -/

/-- Port 0 up, with a PTP instance that times TA. -/
def sPtp : State :=
  let s := conf [((0x7001, 0, 0), blk 0x7001 [(0xC, 4, 1)], [])]
  { s with net := s.net.map fun n => { n with up := [true, false, false, false] } }

/-- TIME commands start. -/
theorem test_time_commands : (passes State.reset (cmd 0x7101 0 (blk 0x7101 [])) &&
  passes State.reset (cmd 0x7102 0 (blk 0x7102 [])) &&
    passes sPtp (cmd 0x7103 0 (blk 0x7103 [])) && passes State.reset (cmd 0x7104 1 (blk 0x7104 [(0, 1, 1)])) &&
    ran (exec (.timeCorrection r) (withCmd (cmd 0x7103 0 (blk 0x7103 [(4, 4, 2 ^ 32 - 1)])) sPtp))
      (fun t => Tbl.find? (netPort t 0).corr 0 == some (-1, 0))) = true := by decide +kernel

/-- A steering that waits for an engine cycle: ACTION 1 sets INCREMENT, 2 adds OFFSET, 4 sets STEP_TIME (13 R451). -/
def sSteer (e action : Nat) : State :=
  withCmd { cmd 0x7101 e (blk 0x7101 [(0, 1, e), (1, 1, action), (4, 8, 0x333333334), (0xC, 8, 10), (0x14, 4,
      100)]) with waiting := true }
    { State.reset with time := { State.reset.time with engines := State.reset.time.engines.modify e fun x => { x with due := some r } } }

/-- The steering applies: 10 ns of offset lie within the window of 50 ns, 100 ns do not; F does not move (13 R451-R453). -/
theorem test_steering : (
    ran (exec (.timeSteerApply 0) (sSteer 0 2)) (fun t => (t.time.engines.getD 0 {}).time == 10 * 2 ^ 32 &&
      t.time.delta == 0 && fUnits t.time == 0 && sUnits t.time == 10 * 2 ^ 32) &&
    ran (exec (.timeSteerApply 0) (sSteer 0 4)) (fun t => t.time.delta == -100 * 2 ^ 32 && fUnits t.time == 0 &&
      sUnits t.time == 0) &&
    ran (exec (.timeSteerApply 1) (sSteer 1 1)) (fun t => (t.time.engines.getD 1 {}).incr == 0x333333334 && t.cmds == [])) =
      true := by decide +kernel

/-- A selection of TB, 100 ns away: S and F do not move, and RESULT0 is Δ in ns (13 R452). -/
theorem test_selection :
    ran (exec .timeSelectApply
      (withCmd { cmd 0x7102 1 (blk 0x7102 [(0, 1, 1), (8, 4, 50)]) with waiting := true } { State.reset with
        time := { State.reset.time with due := [r], engines := [{}, { time := 100 * 2 ^ 32 }] } }))
      (fun t => t.time.sel == 1 && t.time.delta == -100 * 2 ^ 32 && sUnits t.time == 0 && fUnits t.time == 0 &&
        (Tbl.find? (stall t 0).cpl 0).map (·.result0) == some (2 ^ 64 - 100)) = true := by decide +kernel

/-- The end of a transition is told once (13 R660). -/
theorem test_slew_done : (let s := { State.reset with time := { State.reset.time with slewing := true, slewUs := 5 } }
    ran (exec .timeSlewDone s) (fun t => isPending t 561 && !t.time.slewing && (stall t 0).evtTail == 4 &&
      ran (exec .timeSlewDone t) (fun u => (stall u 0).evtTail == 4))) = true := by decide +kernel

/-- An Announce of no importance, and a Delay_Resp. -/
def msg (k : PtpKind) (domain : Nat) : PtpMsg :=
  { kind := k, domain := domain, source := 9, requesting := portIdentity 0, seqId := 3, twoStep := false, originNs := 1000, correction := 0, announce := ⟨1,
      2, 3, 4, 5, 6, 7⟩ }

/-- A slave of source 9 that waits for Delay_Resp 3. -/
def sSlave : State := modPtp 0 (fun x =>
  { x with state := 9, master := some ⟨1, 2, 3, 4, 5, 6, 7⟩, masterId := 9, t1 := some 0, t2 := some 65536, t3 := some (2 * 65536), reqSeq := 3 }) sPtp

/-- An Announce of another clock than the instance's own, whose number is open: hypotheses of 13 R444's statement. -/
def other : PtpMsg := { msg .announce 0 with source := 65536 * (Config.clockIdentity 0 + 1) + 1 }

/-- Another domain is counted; an Announce of another clock, the first from it, makes no master (13 R444, R446; log 27). -/
theorem test_ptp_announce : (ptpEngine sPtp 0 == some 0 && ptpLive sPtp 0 && other.domain == 0 &&
    ran (exec (.ptpMessage 0 (msg .announce 1)) sPtp) (fun t => (netPort t 0).ptp == (netPort sPtp 0).ptp &&
      (netPort t 0).counters.getD 6 0 == 1) &&
    bestForeign sPtp 0 { (netPort sPtp 0).ptp with foreign := noteForeign other 0 (netPort sPtp 0).ptp.foreign } == none) = true ∧
    other.source / 65536 ≠ Config.clockIdentity 0 :=
  ⟨by decide +kernel, by simp only [other]; omega⟩

/-- The instance of port 0 with a role has heard source 9, of a priority1, twice. -/
def sHeard (role priority : Nat) : State :=
  let s := conf [((0x7001, 0, 0), blk 0x7001 [(3, 1, role), (9, 1, 7), (0xC, 4, 1)], [])]
  modPtp 0 (fun x => { x with foreign := [⟨9, ⟨priority, 2, 3, 4, 5, Config.clockIdentity 0 + 1, 7⟩, [0, 0]⟩] })
    { s with net := s.net.map fun n => { n with up := [true, false, false, false] } }

/-- Both masters are noted, each with the ticks of its last Announces (log 27). -/
theorem test_ptp_heard (role priority : Nat) : noteForeign other 0 (netPort (sHeard role priority) 0).ptp.foreign =
    [⟨9, ⟨priority, 2, 3, 4, 5, Config.clockIdentity 0 + 1, 7⟩, [0, 0]⟩, ⟨other.source, other.announce, [0]⟩] := by
  have h1 : (9 == other.source) = false := by simp only [other, beq_eq_false_iff_ne]; omega
  have h2 : (9 != other.source) = true := by simp only [other, bne_iff_ne]; omega
  show noteForeign other 0 [⟨9, ⟨priority, 2, 3, 4, 5, Config.clockIdentity 0 + 1, 7⟩, [0, 0]⟩] = _
  simp [noteForeign, h1, h2]

/-- Heard twice, a master is the best; role 0 follows it, and role 2 where the own priority1 of 7 loses, not where it wins. -/
theorem test_ptp_best (role priority : Nat) (h : (role, priority) ∈ [(0, 8), (2, 6), (2, 8)]) :
    bestForeign (sHeard role priority) 0 { (netPort (sHeard role priority) 0).ptp with
        foreign := noteForeign other 0 (netPort (sHeard role priority) 0).ptp.foreign } =
      some ⟨9, ⟨priority, 2, 3, 4, 5, Config.clockIdentity 0 + 1, 7⟩, [0, 0]⟩ ∧
    (decide (role = 2) && better (ownData (sHeard role priority) 0 0) (portIdentity 0)
      ⟨priority, 2, 3, 4, 5, Config.clockIdentity 0 + 1, 7⟩ 9) = decide ((role, priority) = (2, 8)) := by
  have h3 : ((Config.clockIdentity 0 : Nat) = Config.clockIdentity 0 + 1) = False := by simp
  rw [test_ptp_heard]
  simp only [List.mem_cons, Prod.mk.injEq, List.not_mem_nil, or_false] at h
  rcases h with ⟨rfl, rfl⟩ | ⟨rfl, rfl⟩ | ⟨rfl, rfl⟩ <;> refine ⟨rfl, ?_⟩
  · rfl
  all_goals
    simp only [better, ownData, h3, if_false]
    rfl

/-- meanPathDelay ((1 − 2) + (1000 − 0)) / 2 = 499.5 ns where t1 comes last (13 R445, R447). -/
theorem test_ptp_messages : (ptpState sSlave 0 == 9 &&
    ran (exec (.ptpMessage 0 { msg .followUp 0 with originNs := 0 }) (modPtp 0 (fun x =>
      { x with t1 := none, t4 := some (1000 * 65536), syncSeq := 3 }) sSlave)) (fun t =>
        (netPort t 0).ptp.pathDelay == 999 * 65536 / 2 && (netPort t 0).ptp.state == 9 && isPending t 544)) = true := by decide +kernel

/-- A Delay_Resp for this port, with t1 there and not, and one for another port (13 R445). -/
theorem test_ptp_delay_resp : (msg .delayResp 0).requesting = portIdentity 0 ∧
    { msg .delayResp 0 with requesting := portIdentity 0 + 1 }.requesting ≠ portIdentity 0 ∧
    (((netPort sSlave 0).ptp.master.isSome && (msg .delayResp 0).source == (netPort sSlave 0).ptp.masterId &&
      (msg .delayResp 0).seqId == (netPort sSlave 0).ptp.reqSeq && (netPort sSlave 0).ptp.t1.isSome &&
      (netPort (measure 0 0 0 65536 131072 65536000 sSlave) 0).ptp.pathDelay == 999 * 65536 / 2) = true) :=
  ⟨rfl, by simp, by decide +kernel⟩

/-- A master sends, a slave asks, and a lost master leaves LISTENING or the other engine (13 R446, R449, R455). -/
theorem test_ptp_sends : (
    ran (exec (.ptpMessageSend 0 .sync) (modPtp 0 (fun x => { x with state := 6 }) sPtp)) (fun t => t.out.length == 1) &&
    ran (exec (.delayReqSend 0) sSlave) (fun t => t.out.length == 1 && (netPort t 0).ptp.reqSeq == 0) &&
    (let m := modPtp 0 (fun x => { x with master := some ⟨1, 2, 3, 4, 5, 6, 7⟩ }) sSlave
     ran (exec (.announceTimeout 0) { m with time := { m.time with sel := 1 } }) (fun t => (netPort t 0).ptp.state == 4) &&
     (let two := conf [((0x7001, 0, 0), blk 0x7001 [(0xC, 4, 1)], []), ((0x7001, 1, 0), blk 0x7001 [(0xC, 4, 1), (2, 1, 1)], [])]
      let u := { two with net := [(netPort m 0), (netPort sSlave 0)], time := { two.time with auto := true } }
      enginePort u 1 == some 1 && ptpState u 1 == 9 && ran (exec (.announceTimeout 0) u)
        (fun t => t.time.sel == 1)))) = true := by
  decide +kernel

/-! ## Queues -/

/-- A queue of 4 credits with LEVEL 64, and packets in it. -/
def withPackets (l : List (List Byte)) : State :=
  let n := (l.map fun p => (p.length + 63) / 64).sum
  { State.reset with queues := [(0, { configured := true, size := 256, maxPacket := 128, level := 64, limit := 4,
                                      credits := 4 - n, occ := n, packets := l })] }

/-- Queue commands start (11 R391, R406). -/
theorem test_queue_commands : (passes State.reset (cmd 0x5101 127 (queueBlk (0, 0) (0, 0))) &&
    passes (withPackets []) (cmd 0x5102 0 []) && passes (withPackets []) (cmd 0x5103 0 []) &&
    ran (exec (.queueConfigure r) (withCmd (cmd 0x5101 0 (queueBlk (0, 0) (0, 0))) State.reset))
      (fun t => (queue t 0).credits == 128 && (queue t 0).limit == 128)) = true := by decide +kernel

/-- 128 bytes cost 2 and cross the level of 1; 129 are too long; 65 are too dear for 1 credit (11 R391, R394, R398, R399). -/
theorem test_packet_write : (
    ran (exec (.queuePacketWrite 0 (zeros 128)) (withPackets [])) (fun t => (queue t 0).credits == 2 && (queue t 0).occ == 2 &&
      (queue t 0).crossings == 1 && isPending t 368) &&
    ran (exec (.queuePacketWrite 0 (zeros 64)) (withPackets [])) (fun t => (queue t 0).crossings == 0 && !isPending t 368) &&
    ran (exec (.queuePacketWrite 0 (zeros 129)) (withPackets [])) (· == withPackets []) &&
    ran (exec (.queuePacketWrite 0 (zeros 65)) (withPackets [zeros 128, zeros 64])) (· == withPackets [zeros 128, zeros 64])) =
      true := by decide +kernel

/-- The oldest packet goes once it is read, its credit returns later, and a flush takes the rest (11 R393, R407). -/
theorem test_packet_free : (
    ran (exec (.queuePacketFree 0) (modQueue 0 (fun x => { x with reading := true }) (withPackets [zeros 1, zeros 128])))
      (fun t => (queue t 0).packets == [zeros 128] && (queue t 0).credits == 1 && (queue t 0).returning == 1 &&
        ran (exec (.creditReturn 0) t) (fun u => (queue u 0).credits == 2 && (queue u 0).returning == 0)) &&
    ran (exec (.queuePacketFree 0) (withPackets [zeros 1])) (· == withPackets [zeros 1]) &&
    ran (exec (.queueFlushed 0) (modQueue 0 (fun x => { x with reading := true, flushDue := true })
      (withPackets [zeros 1, zeros 128])))
      (fun t => (queue t 0).packets == [zeros 1] && (queue t 0).credits == 3 && (queue t 0).discarded == 1)) = true := by
  decide +kernel

/-! ## Network ports -/

/-- Counters, links, frames for the Groom (13 R440-R442, R472). -/
theorem test_net : (passes sPtp (cmd 0x7003 0 (blk 0x7003 [])) &&
    ran (exec (.netLinkDown 0 0) sPtp) (fun t => !linkIsUp t 0 0 && (netPort t 0).counters.getD 15 0 == 1) &&
    ran (exec (.netLinkUp 0 0) (conf [((0x7001, 0, 0), blk 0x7001 [(0xC, 4, 1)], [])])) (fun t => linkIsUp t 0 0) &&
    linkIsUp sPtp 0 0 && portIp sPtp 0 == 1 &&
    ran (exec (.netFrameReceived 0 0 (.arpRequest 2 3 1)) sPtp) (fun t => t.out.length == 1 &&
      (netPort t 0).counters.getD 1 0 == 1) &&
    ran (exec (.netFrameReceived 0 0 (.icmpEcho 2 3 1 [9])) sPtp) (fun t => t.out.length == 1) &&
    ran (exec (.netFrameReceived 0 0 .fcsError) sPtp) (fun t => (netPort t 0).counters.getD 2 0 == 1)) = true := by decide +kernel

/-! ## Flows -/

/-- Flow 0 of port 0 with some fields, over stream 1 and tap 0 at 25 Hz. -/
def sFlow (ps : List (Nat × Nat × Nat)) : State :=
  let s := conf [((0x2001, 1, 0), pipe2, []), ((0x2104, 1, 0), tap2, []), ((0x7001, 0, 0), blk 0x7001 [(0xC, 4, 1)], []),
    ((0x7002, 0, 0), blk 0x7002 ([(2, 1, 1), (4, 2, 1), (0xE, 2, 128)] ++ ps), [])]
  { s with net := s.net.map fun n => { n with up := [true, false, false, false] } }

/-- A COMMITTED frame in slot 2 of the tap, of which `n` rows are written. -/
def withSlot (n state : Nat) (s : State) : State :=
  modStream 1 (fun x => { x with taps := [[(2, { serial := 5, rows := n, state := state, blk := tap2 })], [], [], []] }) s

/-- 40 ms later. -/
def later40 (s : State) : State :=
  { s with time := { s.time with engines := s.time.engines.map fun e => { e with time := e.time + 40000000 * 2 ^ 32 } } }

/-- A slot takes the newest frame; without a newer one it repeats the last and counts it (13 R460). -/
theorem test_send_slot : (let s := withSlot 16 1 (sFlow [(1, 1, 1)])
    netLive s 0 && tapPeriod s (FlowCfg.of (blk 0x7002 [(1, 1, 1), (4, 2, 1)])) == 40000000 &&
    ran (exec (.sendSlot 0 0) s) (fun t => (flowSt t 0 0).frame == some 2 && (flowSt t 0 0).last == some 2 &&
      ran (exec (.sendSlot 0 0) (later40 t)) (fun u => (flowSt u 0 0).frame == some 2 &&
        (netPort u 0).counters.getD 9 0 == 1))) = true := by
  decide +kernel

/-- A packet whose row is written leaves, one whose row is not is late (13 R461). -/
theorem test_packet_send : (
    ran (exec (.st2110PacketSend 0 0) (modFlow 0 0 (fun y => { y with frame := some 2, total := 9 }) (withSlot 1 0
      (sFlow [(1, 1, 1)]))))
      (fun t => (flowSt t 0 0).sent == 1 && t.out.length == 1) &&
    ran (exec (.st2110PacketSend 0 0) (modFlow 0 0 (fun y => { y with frame := some 2, total := 9 }) (withSlot 0 0
      (sFlow [(1, 1, 1)]))))
      (fun t => (flowSt t 0 0).sent == 0 && (netPort t 0).counters.getD 7 0 == 1)) = true := by decide +kernel

/-- An RTP header (13 R457, R464): version 2, marker and payload type, sequence number, timestamp, SSRC. -/
theorem test_rtp_header : rtpHeader 96 0x0102 0x03040506 0x0708090A true =
    [0x80, 0xE0, 1, 2, 3, 4, 5, 6, 7, 8, 9, 10] := by decide +kernel

/-- A queue flow begins the packet at the front: 16 bytes of header, then the RTP payload (13 R464). -/
theorem test_queue_flow : (
    let pkt := zeros 8 ++ [2, 0, 0, 0] ++ zeros 4 ++ [7, 9]
    let q : Queue := { configured := true, cons := (0x70, 0), occ := 1, limit := 4, credits := 3, packets := [pkt] }
    let s : State := { sFlow [(1, 1, 4)] with queues := [(0, q)] }
    ran (exec (.queueFlowSend 0 0) s) (fun t => (queue t 0).reading && t.out.length == 1)) = true := by
  decide +kernel

/-- A packet for the flow of kind 9 or 10 at port 0. -/
def rx (ip seqNo ts : Nat) (marker : Bool) : RxPacket :=
  { sub := 0, srcIp := 3, dstIp := ip, dstPort := 6, seqNo := seqNo, rtpTs := ts, marker := marker, row := 0, col := 0, data := [1, 2, 3,
      4] }

/-- A receive flow with a ring of two slots, and slots open. -/
def sRx (kind paths : Nat) (l : List RxSlot) : State :=
  modFlow 0 0 (fun y => { y with slots := l })
    (sFlow [(1, 1, kind), (2, 1, paths), (0x20, 4, 5), (0x28, 2, 6), (0x48, 8, 0x1C7000000), (0x50, 2, 2), (0x54, 4, 4096),
      (0x58, 2, 64), (0x5A, 2, 16)])

/-- A packet of no flow; a new frame; a full ring; a second copy; a shed port (13 R465, R466; 10 R384). -/
theorem test_rx_packet : (
    ran (exec (.rxPacket 0 (rx 4 1 9 false)) (sRx 9 1 [])) (fun t => (netPort t 0).counters.getD 5 0 == 1) &&
    flowFor (sRx 9 1 []) 0 (rx 5 1 9 false) == some (0, 0, 0) &&
    ran (exec (.rxPacket 0 (rx 5 1 9 false)) (sRx 9 1 [])) (fun t => (flowSt t 0 0).slots.map (·.ts) == [9]) &&
    ran (exec (.rxPacket 0 (rx 5 1 9 false)) (sRx 9 1 [⟨7, ⟨0, 0⟩, 1, 0, 1, [], false⟩, ⟨8, ⟨0, 0⟩, 1, 0, 1, [], false⟩]))
      (fun t => (flowSt t 0 0).slots.length == 2 && (netPort t 0).counters.getD 12 0 == 1) &&
    ran (exec (.rxPacket 0 (rx 5 1 9 false)) (sRx 9 1 [⟨9, ⟨0, 0⟩, 1, 0, 1, [1], false⟩]))
      (fun t => (netPort t 0).counters.getD 11 0 == 1) &&
    (let s := sRx 9 1 []
     let shed := { s with fabric := { s.fabric with ports := s.fabric.ports.modify 10 fun x => { x with shed := true } } }
     ran (exec (.rxPacket 0 (rx 5 1 9 false)) shed) (fun t => (flowSt t 0 0).slots == [] &&
       (netPort t 0).counters.getD 14 0 == 1))) =
      true := by decide +kernel

/-- A slot closes, with earlier ones; a kind 10 packet is a record of its own; a lost path is told (13 R466, R467). -/
theorem test_rx_close : (
    ran (exec (.rxSlotClose 0 0) (sRx 9 2 [⟨9, ⟨0, 0⟩, 1, 0, 1, [1], true⟩])) (fun t => (flowSt t 0 0).wr == 1 &&
      (flowSt t 0 0).slots == []) &&
    ran (exec (.rxSlotClose 0 0) (sRx 9 2 [⟨8, ⟨0, 0⟩, 1, 0, 1, [0], false⟩, ⟨9, ⟨0, 0⟩, 1, 0, 1, [1], true⟩]))
      (fun t => (flowSt t 0 0).wr == 2) &&
    ran (exec (.rxSlotClose 0 0) (sRx 9 1 [⟨9, ⟨0, 0⟩, 1, 0, 1, [1], true⟩])) (fun t => (flowSt t 0 0).wr == 0) &&
    ran (exec (.rxPacket 0 (rx 5 1 9 true)) (sRx 10 1 [])) (fun t => (flowSt t 0 0).wr == 1 && (flowSt t 0 0).slots == []) &&
    ran (exec (.pathLost 0 0 1) (sRx 9 2 [])) (fun t => (flowSt t 0 0).lost == [false, true] && isPending t 538)) = true := by
  decide +kernel

/-! ## Display -/

/-- H0 with its overlay plane. -/
def sHead : State := conf [((0x6001, 0, 0), head0, []), ((0x6002, 0, 2), overlay2, [])]

/-- A flip of 32 pixels starts (12 R424). -/
theorem test_flips :
    passes sHead (cmd 0x6003 0 (blk 0x6003 [(1, 1, 2), (8, 2, 16), (0xA, 2, 2), (0x18, 4, 32),
      (0x20, 8, crc64 (zeros 32))] ++ zeros 32)) = true := by
  decide +kernel

/-- A palette entry waits for the flip point (12 R425). -/
theorem test_palette : (passes sHead (cmd 0x6004 0 (blk 0x6004 [(2, 2, 1)] ++ zeros 8)) &&
    ran (exec (.dspPalette r) (withCmd (cmd 0x6004 0 (blk 0x6004 [(2, 2, 1)] ++ zeros 8)) sHead))
      (fun t => (head t 0).requests.map (·.kind) == [2] && t.cmds.map (·.waiting) == [true])) = true := by decide +kernel

/-- H0 follows genlock; H2 is a DSI head that uses TE. -/
def sLock : State :=
  conf [((0x6001, 0, 0), put head0 (9, 1, 1), []), ((0x6001, 2, 0), blk 0x6001 [(0, 2, 64), (2, 2, 16), (4, 4, 20000000),
    (8, 1, 1), (0x25, 1, 1)], [])]

/-- Edges, a loss, the way back, and a missing TE (12 R412, R413, R434). -/
theorem test_genlock : (genlocked sLock 0 && !genlocked sLock 1 &&
    ran (exec .genlockEdge sLock) (fun t => (head t 0).edge.isSome && (head t 1).edge == none) &&
    ran (exec .genlockEdge (modHead 0 (fun y => { y with edge := some (-40), phaseErr := 7 }) sLock))
      (fun t => (head t 0).edge.isSome && !(head t 0).genlockLost) &&
    ran (exec (.genlockLost 0) sLock) (fun t => (head t 0).genlockLost && isPending t 500) &&
    ran (exec (.teMissing 2) sLock) (fun t => isPending t 516)) = true := by decide +kernel

/-- H0 after a loss with a phase error; the edge before came at the time `z`. -/
def sBack (z phase : Int) : State :=
  modHead 0 (fun y => { y with edge := some z, genlockLost := true, phaseErr := phase }) sLock

/-- An edge that lies on the head's timing adds no phase; 5 ns is in lock at the next edge, 1 s is not at one that follows at once;
the way back is 1 µs in a second, one ns in a ms (12 R413). -/
theorem test_genlock_back : (enginesClocked (sBack 0 5) && genlocked (sBack 0 5) 0 && (head (sBack 0 5) 0).genlockLost &&
      (sBack 0 5).heads.length == 4) = true ∧ (∀ z : Int, phaseOff z z 0 = 0) ∧
    (∀ d : Nat, (towards 5 0 d).natAbs ≤ 10) ∧ (∀ z : Int, 10 < (towards 1000000000 0 ((z - z) / 1000000).toNat).natAbs) ∧
    towards 50 0 ((40000000 : Int) / 1000000).toNat = 10 :=
  ⟨by decide +kernel, fun z => by simp [phaseOff], fun d => by unfold towards; omega, fun z => by simp [towards], by decide⟩

/-- The first head frame begins at the flip point; while one is in progress the head and its frame are there (12 R421). -/
theorem test_flip_point : (
    ran (exec (.flipPoint 0) sHead) (fun t => (head t 0).frames == 1 && (head t 0).current.isSome && isPending t 496) &&
    (headIn sHead.cfg.active 0).isSome) = true := by decide +kernel

/-! ## Motion -/

/-- Axis 0 of a type, with some state. -/
def sAxis (type flags : Nat) (g : Axis → Axis) : State :=
  let s := conf [((0x9001, 0, 0), blk 0x9001 [(0, 1, type), (1, 1, flags), (3, 1, 16), (0xA, 2, 30000), (0x1C, 4, 100)], []),
    ((0x9002, 0, 0), blk 0x9002 [(7, 1, 1)], [])]
  { s with axes := s.axes.modify 0 g }

/-- Inputs of a sample: sin, cos, SSI data. -/
def input (sin cos : Int)
  (ssi : Nat) : MotInput := { sin := sin, cos := cos, ssiIdleHigh := true, ssiData := ssi, ssiError := false }

/-- A bad sin/cos sample is counted and moves nothing, a good one is no bad one; an SSI read is the position; a Hall axis
reports the centre of sector 0 (16 R531, R534-R536, R541). -/
theorem test_motion_sample : (
    ran (exec (.motionSample [input 0 30001 0]) (sAxis 2 0 id)) (fun t => (axis t 0).p == 0 && (axis t 0).badRun == 1) &&
    !ampBad (blk 0x9001 [(0xA, 2, 30000)]) (input 0 30000 0) &&
    ran (exec (.motionSample [input 0 0 77]) (sAxis 3 0 id)) (fun t => (axis t 0).p == 77) &&
    ran (exec (.motionSample [input 0 0 0]) (sAxis 0 0 id)) (fun t => axis t 0 == axis State.reset 0) &&
    ran (exec (.motionSample [input 0 0 0]) (sAxis 1 0 id)) (fun t => (axis t 0).angle == 5461)) = true := by decide +kernel

/-- Hall edges: the same state, the next sector, a skipped one, an illegal one (16 R531-R533). -/
theorem test_hall : (
    ran (exec (.hallEdge 0 1 9) (sAxis 1 0 id)) (fun t => (axis t 0).sector == 0 && (axis t 0).illegal == none) &&
    ran (exec (.hallEdge 0 3 9) (sAxis 1 0 id)) (fun t => (axis t 0).sector == 1 && (axis t 0).edgeDir == 1) &&
    ran (exec (.hallEdge 0 2 9) (sAxis 1 0 id)) (fun t => (axis t 0).sector == 2 && (axis t 0).lastEdge == some 9) &&
    ran (exec (.hallEdge 0 7 9) (sAxis 1 0 id)) (fun t => (axis t 0).illegal == some 7 && (axis t 0).sector == 0)) = true := by
  decide +kernel

/-- Inputs break and come back (16 R532, R537). -/
theorem test_inputs : (
    ran (exec (.hallIllegalTimeout 0) (sAxis 1 0 fun x => { x with illegal := some 7 })) (fun t => (axis t 0).broken) &&
    ran (exec (.inputBroken 0) (sAxis 2 0 fun x => { x with badRun := 1 })) (fun t => (axis t 0).broken) &&
    ran (exec (.inputRestored 0) (sAxis 2 0 fun x => { x with broken := true, goodRun := 64 })) (fun t => !(axis t 0).broken &&
      (axis t 0).unref)) =
      true := by decide +kernel

/-- The observer, standstill, a probe that sets the reference, and MOT.READ (16 R538-R544, R551). -/
theorem test_observer : (
    ran (exec (.observerLost 0) (sAxis 1 0 fun x => { x with locked := true, lockRun := 4 })) (fun t => !(axis t 0).locked) &&
    ran (exec (.observerRegained 0) (sAxis 1 0 fun x => { x with edgeRun := 6 })) (fun t => (axis t 0).locked) &&
    ran (exec (.standstill 0) (sAxis 3 0 id)) (fun t => (axis t 0).still) &&
    motGood (sAxis 3 8 id) 0 && ran (exec (.motProbe 0 true 0) (sAxis 3 8 id)) (fun t => (axis t 0).p == 100 &&
      !(axis t 0).unref) &&
    ran (exec (.motProbe 0 true 0) (sAxis 3 0 id)) (fun t => (axis t 0).p == 0 && (axis t 0).counters == [0, 0, 0, 1]) &&
    passes State.reset (cmd 0x9003 0 (blk 0x9003 []))) = true := by decide +kernel

/-! ## Bridle and CSI-2 ingest -/

/-- Stream 1 from VC0 and stream 2 from CSI port 0, both through memory. -/
def sIn : State :=
  conf [((0x1001, 0, 0), blk 0x1001 [(0, 1, 1), (2, 1, 1)], []), ((0x1101, 0, 0), blk 0x1101 [], []),
    ((0x2001, 1, 0), put (put pipe1 (2, 1, 1)) (3, 1, 1), []), ((0x2001, 2, 0), put (put pipe1 (2, 1, 2)) (0x10, 8, 0x1C0800000),
      [])]

/-- A frame of a stream, open on its channel; lane 0 carries it. -/
def opened (i c : Nat) (s : State) : State :=
  modBrd (fun b => { b with map := [0] }) (modChan c (fun x => { x with isOpen := true, serial := 5 }) (modStream i (fun x =>
    { x with frames := [{ serial := 5, time := ⟨0, 0⟩, epoch := 0, cfg := streamCfg s.cfg.active i, source := 1, joined := [c],
                          emb := [[]] }] }) s))

/-- A Bridle packet of VC0 with its CRCs: type, LINE, COUNT, EOL, payload (04 R123, R124). -/
def pkt (type line count eol : Nat) (b : List Byte) : BrdPacket :=
  let h := leBytes 1 (type + 128 * eol) ++ leBytes 2 line ++ leBytes 2 count ++ zeros 2
  let hdr := h ++ leBytes 1 (crc8 h)
  { hdr := hdr, payload := b, crc := crc32 (hdr ++ b), broken := false }

/-- A lane goes down and retracts the frame it carries with LANE_LOSS, fails deskew in no map, and comes up; an ALIGN row
(04 R119-R122, R150, R151). -/
theorem test_lanes : (let s := opened 1 0 sIn
    laneActive s 0 && bridleStreams s.cfg.active == [1] &&
    ran (exec (.laneDown 0) s) (fun t => (brdLane t 0).down && (frameOf t 1 5).map (·.flags) == some (vLane ||| vRetracted)) &&
    ran (exec (.deskewFailure 1) s) (fun t => (brdLane t 1).down && (frameOf t 1 5).map (·.flags) == some 0) &&
    ran (exec (.laneUp 2) (modBrdLane 2 (fun x => { x with down := true }) s)) (fun t => !(brdLane t 2).down &&
      (lane t 2).locked) &&
    ran (exec (.alignRow [4, 5] [7, 8, 7, 7]) s) (fun t => t.brd.alignSeq == some 7 && (brdLane t 0).mark == 4 &&
      (brdLane t 1).mark == 0xFF && (lane t 0).locked && !(lane t 1).locked)) = true := by decide +kernel

/-- A bad header, a disabled channel, an FS, a line and its end (04 R123-R132). -/
theorem test_fs_ld : (
    hdrOf [1, 0, 0, 0, 0, 0, 0, 0] == none &&
    ran (exec (.ldPacket ⟨[1, 0, 0, 0, 0, 0, 0, 0], [], 0, false⟩) sIn) (fun t => t.brd.link == [1, 0, 0, 0, 0, 0]) &&
    ran (exec (.ldPacket (pkt 0x12 0 64 1 (zeros 80))) sIn) (fun t => t.brd.link == [0, 1, 0, 0, 0, 0]) &&
    packetOk sIn.cfg.active ⟨1, 0, false, 0, 0, 4⟩ (pkt 1 0 4 0 (zeros 32)) && accepts sIn 0 1 &&
    ran (exec (.fsPacket (pkt 1 0 4 0 (zeros 32))) sIn) (fun t => (chan t 0).isOpen && (stream t 1).nextSerial == 1 &&
      (stream t 1).frames.map (·.serial) == [0]) &&
    ran (exec (.ldPacket (pkt 2 0 64 1 (zeros 80))) sIn) (fun t => !(chan t 0).isOpen && (chan t 0).counters.getD 5 0 == 1) &&
    ran (exec (.ldPacket (pkt 2 0 64 1 (zeros 80))) (opened 1 0 sIn)) (fun t => (chan t 0).lines == 1 && (chan t 0).cur == none &&
      (chan t 0).pixels == 64)) = true := by decide +kernel

/-- The end of a frame without lines, embedded bytes, a trailer that never comes (04 R129, R130, R142). -/
theorem test_fe_emb : (
    ran (exec (.fePacket (pkt 3 0 2 0 (zeros 16))) (opened 1 0 sIn)) (fun t => !(chan t 0).isOpen &&
      (frameOf t 1 5).map (fun f => bit f.flags 0) == some true) &&
    ran (exec (.embPacket (pkt 4 0 1 0 ([1, 2] ++ zeros 6))) (opened 1 0 sIn)) (fun t =>
      (frameOf t 1 5).map (fun f => (f.emb.headD []).take 2) == some [1, 2]) &&
    ran (exec (.trailerTimeout 0) (opened 1 0 sIn)) (fun t => (frameOf t 1 5).map (·.flags) == some
      (vNoTrailer ||| vRetracted))) =
      true := by decide +kernel

/-- A long packet of port 0. -/
def lp (vc : Nat) (lost : Bool) : CsiPacket := { vc := vc, dataType := 0x2B, payload := zeros 80, crcOk := true,
                                                 headerLost := lost }

/-- CSI-2: another VC is counted, a short packet changes nothing else, FS opens, a line is taken, FE closes, a D-PHY error
retracts (04 R160-R164). -/
theorem test_csi : (let c := 8
    ran (exec (.csiFs 0 1 1) sIn) (fun t => (chan t c).counters.getD 14 0 == 1 && !(chan t c).isOpen) &&
    ran (exec (.csiLsLePacket 0 0 .lineStart 1) sIn) (fun t => (chan t c).counters.getD 0 0 == 1) &&
    ran (exec (.csiFs 0 0 1) sIn) (fun t => (chan t c).isOpen && (stream t 2).nextSerial == 1) &&
    ran (exec (.csiLongPacket 0 (lp 0 false)) (opened 2 c sIn)) (fun t => (chan t c).lines == 1) &&
    ran (exec (.csiLongPacket 0 (lp 1 false)) (opened 2 c sIn)) (fun t => (chan t c).counters.getD 14 0 == 1) &&
    ran (exec (.csiLongPacket 0 (lp 0 true)) sIn) (fun t => isPending t 78) &&
    ran (exec (.csiFe 0 0 1) (opened 2 c sIn)) (fun t => !(chan t c).isOpen) &&
    ran (exec (.csiDphyError 0) (opened 2 c sIn)) (fun t => (frameOf t 2 5).map (·.flags) == some
      (vLane ||| vRetracted))) = true := by
  decide +kernel

/-! ## Triggers, verdicts and pipes -/

/-- BRD.TRIGGER and the counters start; a free edge follows by PERIOD; a due script goes to its idle port; its end
(04 R156-R159). -/
theorem test_triggers : (
    passes State.reset (cmd 0x1003 0 (blk 0x1003 [])) && passes State.reset (cmd 0x1003 0 (blk 0x1003 [(1, 1, 3), (3, 1, 1)])) &&
    passes State.reset (cmd 0x1004 0 (blk 0x1004 [])) && passes State.reset (cmd 0x1102 0 (blk 0x1102 [])) &&
    ran (exec (.brdTrigger r) (withCmd (cmd 0x1003 0 (blk 0x1003 [(0, 1, 2), (1, 1, 1), (8, 8, 2 ^ 36)])) State.reset))
      (fun t => (trig t 2).mode == 1 && (trig t 2).period == 2 ^ 36) &&
    (let s : State := { State.reset with brd := { State.reset.brd with
      trigs := [{ mode := 1, period := 50, nextEdge := 7, script := [9] }, { scriptDue := 1, script := [9] }] } }
     ran (exec (.triggerEdge 0) s) (fun t => (trig t 0).nextEdge == 57 && (trig t 0).scriptDue == 1) &&
     ran (exec (.triggerScript 1) s) (fun t => t.out == [.spi 0 [9]] && (trig t 1).scriptDue == 0)) &&
    ran (exec (.spiScriptDone 0 [3, 4]) (modSpi 0 (fun x => { x with sending := some ⟨false, [9], none⟩ }) State.reset))
      (fun t => (spi t 0).miso == [3] && (spi t 0).sending == none)) = true := by decide +kernel

/-- A decided frame through memory is handed on, a retracted one frees its slot (04 R144, 06 R208). -/
theorem test_verdict : (
    let s (flags : Nat) := modStream 1 (fun x => { x with
      cfg := streamCfg sIn.cfg.active 1
      ring := [(0, 1)]
      frames := x.frames.map fun f => { f with flags := flags, decided := true, slot := some 0 } }) (opened 1 0 sIn)
    ran (exec (.frameVerdict 1) (s 0)) (fun t => (stream t 1).frames == [] && (stream t 1).ring == [(0, 2)] &&
      (stream t 1).ready.map (·.serial) == [5]) &&
    ran (exec (.frameVerdict 1) (s 1)) (fun t => (stream t 1).frames == [] && (stream t 1).ring == [] &&
      (stream t 1).lastVerdict == 1)) =
      true := by decide +kernel

/-- The ready stream of a pipe starts; with none ready the pipe stays free (05 R171). -/
theorem test_pipe_boundary : (
    let busy (k : State) : State := { k with pipes := [some 3, some 3, some 3] }
    let f : ReadyFrame := { slot := 0, serial := 5, epoch := 0, cfg := streamCfg s1.cfg.active 1, record := zeros 256 }
    let ready := modStream 1 (fun x => { x with ring := [(0, 2)], ready := [f] }) s1
    ran (exec (.pipeFrameBoundary 0) (busy sIn)) (fun t => t.pipes == [none, some 3, some 3]) &&
    (streamsIn 1).contains 1 && nextStream 1 ready == some 1 &&
    ran (exec (.pipeFrameBoundary 1) ready) (fun t => t.pipes.getD 1 none == some 1)) = true := by decide +kernel

/-- Host bytes reach the open slot of stream 1 at each of the three stages (04 R147). -/
theorem test_play : (
    let c (fl : Nat) := cmd 0x2006 1 (blk 0x2006 [(0, 1, fl), (8, 4, 64),
      (0x10, 8, crc64 (List.replicate 64 7))] ++ List.replicate 64 7)
    let s2 := modStream 1 (fun x => { x with play := some 0, ring := [(0, 1)] }) s1
    passes s1 (c 1) && passes s2 (c 0) && fails s2 (c 2) == some 0x11 &&
    ran (exec (.pipePlay r) (withCmd (c 1) s1)) (fun t => (stream t 1).play == some 0 && hbmRead t 0x1C0000000 1 == [7]) &&
    answers (.pipePlay r) s2 (c 2) == some 0x11 &&
    (let h := [(5, 1, 1), (6, 1, 10), (0x18, 2, 64), (0x1A, 2, 16), (0x1C, 4, (PipeCfg.of pipe1).pitch)].foldl put (zeros 64)
     let d := cmd 0x2006 1 (blk 0x2006 [(0, 1, 2), (8, 4, 64), (0x10, 8, crc64 h)] ++ h)
     ran (exec (.pipePlay r) (withCmd d s2)) (fun t => (stream t 1).play == none &&
       (stream t 1).nextSerial == 1))) = true := by decide +kernel

/-- Blended shading and a patched tap slot (05 R199, 06 R225). -/
theorem test_blend_patch : (
    ran (exec (.shadingBlendDone 1) s1) (fun t => (stream t 1).blendDone) &&
    (let s := modStream 0 (fun x => { x with
       taps := [[(2, { serial := 5, state := 2, patchFrom := some 1, blk := tap2 })], [], [], []] }) State.reset
     ran (exec (.tapPatchDone 0 0) s) (fun t => (Tbl.find? (tapTable t 0 0) 2).map
       (fun y => (y.rows, y.patched)) == some (16, true) &&
       isPending t 104))) = true := by decide +kernel
/-! ## Recorder, relays, audio -/

/-- SSD 0 has an extent; channel 0 of the compressor is a group. -/
def sRec : State := { sZip with recorder := { sZip.recorder with ssds := [{ extents := [⟨1, 0, 0x100000, 0⟩] }, {}] } }

/-- The recorder's commands start (08 R302, R313-R317). -/
theorem test_rec_commands : (
    passes State.reset (cmd 0x3101 0 (blk 0x3101 [(2, 2, 1), (4, 4, 1)] ++ leBytes 8 0 ++ leBytes 8 262144)) &&
    passes sRec (cmd 0x3102 0 (blk 0x3102 [(0, 2, 1), (3, 1, 0xFF)])) && passes State.reset (cmd 0x3103 0 (blk 0x3103 [])) &&
    passes State.reset (cmd 0x3104 0 (blk 0x3104 [(0x10, 1, 1)])) && passes State.reset (cmd 0x3104 0 (blk 0x3104 [(1, 1, 1)])) &&
    passes State.reset (cmd 0x3105 0 (blk 0x3105 []))) = true := by decide +kernel

/-- A stop where nothing runs, in each state of the recorder; a host read (08 R313-R315). -/
theorem test_rec_stop : (
    let c (now_ : Nat) := cmd 0x3103 0 (blk 0x3103 [(0, 1, now_), (2, 2, 100)])
    let at1 (n : Nat) : State := { sRec with recorder := { sRec.recorder with state := n, zmask := 1, chunkOpen := true } }
    let host := { cmd 0x3105 0 (blk 0x3105 [(0, 1, 1), (4, 4, 1), (0x10, 4, 1)]) with ploc := 2 }
    answers (.recStop r) sRec (c 0) == some 0 && passes (at1 3) (c 0) && passes (at1 1) (c 1) && !stopPassed (at1 1) 100 &&
    ran (exec (.recStop r) (withCmd (c 0) (at1 1))) (fun t => t.recorder.state == 3 && t.recorder.closing.isSome) &&
    passes sRec host && ran (exec (.recStatus r) (withCmd host sRec)) (fun t => (ssd t 0).attached &&
      t.out == ((attachCommands (ssd sRec 0)).map fun k => .nvmeAdmin 0 k) ++ [.nvmeHost 0 1 0 1 false []] &&
      t.recorder.host == [{ ref := r, write := false, ssd := 0, nsid := 1, lba := 0, count := 1 }])) =
      true := by decide +kernel

/-- Relay Z14 of group 0 into queue 0, with a COMMITTED frame of two bytes in the group's ring. -/
def sRelay : State :=
  let e : RingEntry := { no := 1, serial := 5, verdict := 0, stream := 1, off := 0, payload := true, time := ⟨0, 0⟩, epoch := 0
                         record := [1, 2], metaRec := [] }
  { withQueue 0 (queueBlk (0x30, 14) (0, 0))
      (conf [((0x2001, 1, 0), pipe1, []), ((0x3001, 0, 0), zip0, []), ((0x3001, 14, 0), relay14, [])]) with
    groups := [(0, { entries := [e] })] }

/-- A relay sends its next frame when the queue has credits, and a flush empties its queue (08 R299, R300). -/
theorem test_relay : (isRelay sRelay.cfg.active 14 && unitLive sRelay 0x30 14 &&
    ran (exec (.relayPacket 14) sRelay) (fun t => (queue t 0).packets.length == 1 && (relay t 14).next == 2) &&
    ran (exec (.relayPacket 14) { sRelay with queues := [(0, { queueOf (queueBlk (0x30, 14) (0, 0)) {} with credits := 0 })] })
      (fun t => (queue t 0).packets == [] && (relay t 14).next == 0) &&
    passes sRelay (cmd 0x3003 14 [])) = true := by decide +kernel

/-- A Write that completes, that fails once and twice; a chunk that closes (08 R310, R312). -/
theorem test_nvme : (
    let w (again : Bool) : NvmeWrite := { ssd := 0, nsid := 1, lba := 0, fua := false, data := [1], chunk := 1, off := 4096,
                                          retried := again }
    let s (again : Bool) : State := { sRec with recorder := { sRec.recorder with state := 1, writes := [w again] } }
    ran (exec (.nvmeWriteComplete 0 0) (s false)) (fun t => t.recorder.writes == []) &&
    ran (exec (.nvmeWriteComplete 0 4) (s false)) (fun t => t.recorder.writes == [w true] && t.out.length == 1) &&
    ran (exec (.nvmeWriteTimeout 0) (s true)) (fun t => t.recorder.writes == [] && t.recorder.state == 0) &&
    (let k (n : Nat) : State :=
       { sRec with recorder := { sRec.recorder with state := 3, chunkOpen := true, closing := some 2, closePhase := n } }
     ran (exec .chunkClose (k 0)) (fun t => t.recorder.closePhase == 3 && t.recorder.writes.map (·.flush) == [true]) &&
     ran (exec .chunkClose (k 3)) (fun t => t.recorder.writes.map (·.fua) == [true]) &&
     ran (exec .chunkClose (k 4)) (fun t => t.recorder.state == 0 && !t.recorder.chunkOpen && t.recorder.bytes == 4096))) =
      true := by decide +kernel

/-- The media answer a command's access (08 R316). -/
theorem test_host_access : (
    let s := withCmd (cmd 0x3105 0 []) { sRec with recorder := { sRec.recorder with
      host := [{ ref := r, write := false, ssd := 0, nsid := 1, lba := 0, count := 1 }] } }
    ran (exec (.nvmeHostAccessDone r true [1, 2]) s) (fun t => t.cmds == [] && t.recorder.host == []) &&
    (findCmd s r).isSome) = true := by decide +kernel

/-- A word-clock frame is kept; its loss and return (08 R319-R321). -/
theorem test_audio : (let s := conf [((0x3201, 0, 0), blk 0x3201 [(0, 1, 2)], [])]
    ran (exec (.audWordClockFrame 0 [256, 512]) s) (fun t => (t.tdm.getD 0 {}).recent.map (·.2) == [[256, 512]]) &&
    ran (exec (.audClockLost 0) s) (fun t => (t.tdm.getD 0 {}).lost && isPending t 304) &&
    ran (exec (.audClockRestored 0) { s with tdm := [{ lost := true }, {}] }) (fun t => !(t.tdm.getD 0 {}).lost &&
      (t.tdm.getD 0 {}).restart)) = true := by decide +kernel

/-! ## Coding -/

/-- The coding commands start (09 R329-R357). -/
theorem test_coding_commands : (
    passes sEnc (cmd 0x4001 0 enc0) && passes sOpen (cmd 0x4002 0 (blk 0x4002 [])) &&
    passes sOpen (cmd 0x4004 0 (blk 0x4004 [(3, 1, 51)])) && passes State.reset (cmd 0x4101 0 dec0) &&
    passes sDec (cmd 0x4102 0 (blk 0x4102 [])) && passes sDec (cmd 0x4103 0 (blk 0x4103 []))) = true := by decide +kernel

/-- The open session with other state. -/
def sSess (g : EncSess → EncSess) : State := modEnc 0 g sOpen

/-- A picture of serial 5, coded or not, its frame decided or not. -/
def pic5 (coded : Option CodedPic) (v : Option Nat) : EncPic :=
  { serial := 5, time := ⟨0, 0⟩, epoch := 0, ckpt := { gop := 3, refresh := 2, fullness := 0, lastCoded := some 4, poc := 7 },
      irap := false, subst := false, late := false, poc := 8
    target := 800, cap := 1600, tiles := [(0, 0, 4)], coded := coded, verdict := v }

/-- A coded P picture of 256 × 16 of intra CTUs at QP 30 whose slice has `n` bytes: first slice of the picture, PPS 0, slice_type 1,
picture order count 8, an empty reference picture set (H.265 7.3.6.1). -/
def coded (n : Nat) : CodedPic :=
  let plane (w : Nat) := List.replicate 16 (List.replicate w 0)
  { nals := [[2, 1, 0xD0, 0, 0x43] ++ zeros (n - 5)], recon := [plane 256, plane 128, plane 128]
    ctus := List.replicate 4 { bits := 0, cost := 0, mvX := 0, mvY := 0, qp := 30, mode := 1, q := 30 } }

/-- A frame is taken, or dropped where the hold area is full (09 R337, R351). -/
theorem test_picture_start : (
    let fr : List EncFrame := [{ serial := 5, time := ⟨0, 0⟩, epoch := 0 }]
    ran (exec (.encPictureStart 0) (sSess fun x => { x with waiting := fr })) (fun t => match encAt t 0 with
      | some y => y.waiting == [] && y.pics.map (·.serial) == [5] && y.lastCoded == some 5
      | none => false) &&
    ran (exec (.encPictureStart 0) (sSess fun x =>
      { x with waiting := fr, packets := [zeros 1], fullness := some (8 * 4194304) }))
      (fun t => (encAt t 0).isSome)) = true := by decide +kernel

/-- A picture within its cap is told and, with a COMMITTED frame, goes out; one beyond the cap is none (09 R340, R343). -/
theorem test_picture_done : (
    ran (exec (.encPictureDone 0 (coded 100)) (sSess fun x => { x with pics := [pic5 none none] })) (fun t => isPending t 192 &&
      (encAt t 0).map (fun y => y.pics.map (·.coded.isSome)) == some [true]) &&
    ran (exec (.encPictureDone 0 (coded 100)) (sSess fun x => { x with pics := [pic5 none (some 0)] })) (fun t =>
      (encAt t 0).map (fun y => (y.pics, y.pictures, y.refs)) == some ([], 1, [5])) &&
    ran (exec (.encPictureDone 0 (coded 201)) (sSess fun x => { x with pics := [pic5 none none] })) (fun t => !isPending t 192)) =
      true := by decide +kernel

/-- Output waits for credits; a retracted picture is undone to its checkpoint; a member's slices do not come
(06 R219-R223, 09 R351, 14 R493). -/
theorem test_picture_end : (
    let p : List (List Byte) := [zeros 100]
    let dry (s : State) : State := { s with queues := [(0, { queueOf (queueBlk (0x40, 0) (0, 0)) {} with credits := 0 })] }
    ran (exec (.encOutputRelease 0) (sSess fun x => { x with packets := p })) (fun t => (queue t 0).packets == p) &&
    ran (exec (.encOutputRelease 0) (dry (sSess fun x => { x with packets := p }))) (fun t => (queue t 0).packets == []) &&
    ran (exec (.encRollback 0) (sSess fun x => { x with pics := [pic5 none (some 1)], gop := 4, poc := 8 })) (fun t =>
      (encAt t 0).map (fun y => (y.pics, y.gop, y.poc, y.lastCoded)) == some ([], 3, 7, some 4)) &&
    ran (exec (.arraySlicesMissing 0) (sSess fun x => { x with due := [pic5 none (some 0)] })) (fun t =>
      (encAt t 0).map (fun y => (y.due, y.gap)) == some ([], true))) = true := by decide +kernel

/-- An SPS of 64 × 16, 8 bits, 4:2:0, level 3, and a PPS. -/
def sps0 : List Byte :=
  [66, 1, 1, 1, 96, 0, 0, 3, 0, 144, 0, 0, 3, 0, 0, 3, 0, 90, 160, 32, 132, 88, 219, 228, 145, 34, 169, 168, 8, 8, 8, 32, 31,
    202, 5, 71, 115, 89, 64, 1]
def pps0 : List Byte := [68, 1, 192, 115, 192, 137]

/-- A picture of that stream. -/
def dpic : DecodedPic :=
  { luma := List.replicate 16 (List.replicate 64 1), cbcr := List.replicate 8 (List.replicate 32 (2, 3)), lost := [], dpb := [] }

/-- Its access unit, whole and with nothing after it. -/
def au0 : DecAu :=
  { sps := sps0, pps := pps0, cvs := 0, poc := 4, lsb := 4, irap := true, out := true, refs := [], missing := false
    slices := [(0, 0)], whole := true, flush := true }

/-- A decoded picture takes the next slot; where none is free it waits (09 R355, R358). -/
theorem test_dec_picture : (
    let s (wr : Nat) := modDec 0 (fun x => { x with aus := [au0], wr := wr }) sDec
    ((decAt (s 0) 0).bind fun x => (nextAu x).map fun e => e.1 == au0 && decodes x e.1 e.2.1 dpic && decOutputs x e.1 dpic) == some true &&
    !headHolds (s 0) 0 0 &&
    ran (exec (.decPicture 0 dpic) sDec) (fun t => (decAt t 0).map (fun y => (y.wr, y.count)) == some (0, 0)) &&
    ran (exec (.decPicture 0 dpic) (s 0)) (fun t => (decAt t 0).map (fun y => (y.wr, y.count)) == some (1, 1)) &&
    ran (exec (.decPicture 0 dpic) (s 2)) (fun t => (decAt t 0).map (fun y => (y.wr, y.count)) == some (2, 0))) = true := by
  decide +kernel
/-! ## Memory -/

/-- A memory fabric with some state. -/
def sFab (g : Fabric → Fabric) (s : State) : State := { s with fabric := g s.fabric }

/-- The ports of a fabric with one of them changed. -/
def port (k : Nat) (g : RtPort → RtPort) (f : Fabric) : Fabric := { f with ports := f.ports.modify k g }

/-- Two ports in panic begin step 1; each step takes the next; with S at 0 % and a critical port the next used port is shed; the
recovery (10 R380-R385). -/
theorem test_escalation : (
    let one := sFab (port 2 fun x => { x with panic := true }) State.reset
    ran (exec (.portPanic 3 256) one) (fun t => (rtPort t 3).panic && (rtPort t 3).critical && t.fabric.step == 1 &&
      isPending t 323) &&
    ran (exec (.portPanic 3 10) one) (fun t => !(rtPort t 3).panic && t.fabric.step == 0) &&
    ran (exec (.portPanic 4 10) State.reset) (fun t => (rtPort t 4).panic && (rtPort t 4).critical) &&
    ran (exec .memEscalation one) (fun t => t.fabric.step == 1 && t.fabric.beStopped) &&
    ran (exec .memEscalation (sFab (fun f => { f with step := 1 }) one)) (fun t => t.fabric.step == 2 && t.fabric.scale == 75) &&
    ran (exec .memRecovered (sFab (fun f => { f with step := 3 }) State.reset)) (fun t => t.fabric.step == 0 &&
      isPending t 353)) = true := by
  decide +kernel

/-- H0 on RT4 in the shed order is shed, and comes back. -/
theorem test_shed : (
    let s := sFab (fun f => port 2 (fun x =>
      { x with panic := true, critical := true }) { f with step := 2, scale := 0, order := [12, 4] }) sHead
    nextShed s == some 4 && ran (exec .memEscalation s) (fun t => (rtPort t 4).shed && t.fabric.step == 3 &&
      !(rtPort t 12).shed) &&
    ran (exec (.rtRestored 4) (sFab (port 4 fun x => { x with shed := true, due := true }) sHead)) (fun t =>
      !(rtPort t 4).shed && !(rtPort t 4).due) &&
    ran (exec (.rtRestored 14) (sFab (port 14 fun x => { x with shed := true, due := true }) sHead)) (fun t =>
      t.tdm.map (·.restart) == [true, true])) = true := by decide +kernel

/-- Overflows of RT10, RT14, RT4 and RT0; the stacks' sensors and ECC (10 R371, R382, R390). -/
theorem test_overflow : (
    ran (exec (.rtBufferOverflow 10) State.reset) (fun t => (netPort t 0).counters.getD 14 0 == 1) &&
    ran (exec (.rtBufferOverflow 14) State.reset) (fun t => t.tdm.map (·.restart) == [true, true]) &&
    ran (exec (.rtBufferOverflow 4) sHead) (fun t => (head t 0).fallback == [2]) &&
    ran (exec (.rtBufferOverflow 0) (opened 1 0 sIn)) (fun t => (frameOf t 1 5).map (·.flags) == some
      (vOverrun ||| vRetracted)) &&
    ran (exec (.memHot 1) State.reset) (fun t => t.fabric.hot == [false, true] && isPending t 355) &&
    ran (exec (.memHotCleared 1) (sFab (fun f => { f with hot := [true, true] }) State.reset))
      (fun t => t.fabric.hot == [true, false]) &&
    ran (exec (.memEcc 40 7 true) State.reset) (fun t => isPending t 357) &&
    ran (exec (.memEcc 40 7 false) State.reset) (fun t => isPending t 359)) = true := by decide +kernel

/-! ## Power, heat, tests -/

/-- A power state. -/
def sPwr (g : Pwr → Pwr) : State := { State.reset with pwr := g State.reset.pwr }

/-- A thermal state whose model is a board table's, with no power, conductance or capacity in it. -/
def sThm (g : Thm → Thm) : State := { State.reset with thm := g { State.reset.thm with builtin := false } }

/-- PWR commands start; a mean over the cap enters cap throttle, which ends after a window below (17 R559, R560). -/
theorem test_power : (
    passes State.reset (cmd 0xA002 0 (blk 0xA002 [])) && passes State.reset (cmd 0xA003 0 (blk 0xA003 [])) &&
    ran (exec (.powerMeterSample (List.replicate 24 4000)) State.reset) (fun t => t.pwr.throttle && t.pwr.window.length == 1) &&
    ran (exec (.powerMeterSample (List.replicate 24 1)) State.reset) (fun t => !t.pwr.throttle &&
      isPending t 621 == isPending State.reset 621) &&
    ran (exec .capThrottleLeave (sPwr fun x => { x with throttle := true, below := 1000000 }))
      (fun t => !t.pwr.throttle)) = true := by
  decide +kernel

/-- Droops beyond T and 2 T of a snubbed and of a free domain, and the way out of the stages (17 R561-R565). -/
theorem test_droop : (
    let st (n : Nat) (v : Nat) := sPwr fun x => { x with droops := x.droops.modify 3 fun d => { d with stage := n, v := v } }
    ran (exec (.droopSample 3 21) State.reset) (fun t => (domain t 3).stage == 1 && (domain t 3).count == 1) &&
    ran (exec (.droopSample 3 41) State.reset) (fun t => (domain t 3).stage == 2 && (domain t 3).count == 1) &&
    ran (exec (.droopSample 3 20) State.reset) (fun t => (domain t 3).stage == 0 && (domain t 3).count == 0) &&
    ran (exec (.droopSample 12 21) State.reset) (fun t => (domain t 12).stage == 0 && (domain t 12).count == 1) &&
    ran (exec (.snubStageExit 3) (st 2 0)) (fun t => (domain t 3).stage == 1) &&
    ran (exec (.snubStageExit 3) (st 1 0)) (fun t => (domain t 3).stage == 0)) = true := by decide +kernel

/-- 110 °C in the model starts a stop, 118 °C at a diode trips; drift; STOPPED (17 R566-R578). -/
theorem test_heat : (
    ran (exec .thermalModelUpdate (sThm fun x => { x with nodes := List.replicate 12 130 })) (fun t => t.thm.stop == 1 &&
      t.thm.warn) &&
    ran (exec .thermalModelUpdate (sThm fun x => { x with warn := true })) (fun t => !t.thm.warn && t.thm.stop == 0) &&
    ran (exec .modelDriftCheck (sThm fun x => { x with diodes := [40, 25] })) (fun t => t.thm.drift) &&
    ran (exec (.diodeRead 1 471) (sThm id)) (fun t => t.sys.phase == .running && t.thm.diodes.getD 1 0 == 471 / 4) &&
    ran (exec (.diodeRead 1 472) (sThm id)) (fun t => t.sys.phase == .tripped && t.thm.tripLow && !t.sys.linkUp) &&
    ran (exec .thmStopComplete (sThm fun x => { x with stop := 1 })) (fun t => t.thm.stop == 2 && t.sys.phase == .stopped &&
      t.sys.selfRefresh)) = true := by decide +kernel

/-- PLLs, reference clocks and the PPS output (13 R452, 17 R554, 18). -/
theorem test_clocks : (
    ran (exec .pllLostLock State.reset) (isPending · 624) &&
      ran (exec (.referenceClockMissing 1) State.reset) (isPending · 625) &&
    ran (exec (.ppsPulse 1) State.reset) (fun t => t.out == [.pps 1])) = true := by decide +kernel

/-- A Muck-out state. -/
def sMck (g : Mck → Mck) : State := { State.reset with mck := g State.reset.mck }

/-- TEST commands start; a PRBS checker in lock answers its counts (15 R521-R524, 18 R606). -/
theorem test_test_commands : (
    passes State.reset (cmd 0xB001 0 (blk 0xB001 [])) && passes State.reset (cmd 0xB001 0 (blk 0xB001 [(0, 1, 2)])) &&
    passes State.reset (cmd 0xB002 0 (blk 0xB002 [])) && passes State.reset (cmd 0xB003 0 (blk 0xB003 [])) &&
    (let s := modLane 0 (fun x => { x with chk := true, prbsLock := true, bits := 10 }) State.reset
     ran (exec (.testPrbs r ⟨5, 1, true⟩) (withCmd (cmd 0xB002 0 (blk 0xB002 [(1, 1, 4)])) s)) (fun t =>
       (lane t 0).bits == 15 && (lane t 0).errors == 1))) = true := by decide +kernel

/-- A slice that differs runs again and is marked the second time; a good one clears its mark; spare rows; margins
(18 R599-R605). -/
theorem test_muckout : (
    let cur (again : Bool) (marks : Nat) := sMck fun m =>
      { m with pipes := m.pipes.modify 1 fun x => { x with cur := some (4, again), failed := marks } }
    ran (exec (.muckoutSliceDone 1 false) (cur false 0)) (fun t => (mckPipe t 1).failed == 0) &&
    ran (exec (.muckoutSliceDone 1 false) (cur true 0)) (fun t => (mckPipe t 1).failed == 16 && isPending t 636) &&
    ran (exec (.muckoutSliceDone 1 true) (cur false 16)) (fun t => (mckPipe t 1).failed == 0) &&
    ran (exec (.spareRowScrub 2 1 3 (.corrected 5)) State.reset) (fun t => t.mck.ecc == 5) &&
    ran (exec (.spareRowScrub 2 1 3 .bad) State.reset) (fun t => t.mck.badRows == [(779, true)]) &&
    (let s := modLane 7 (fun x => { x with locked := true }) State.reset
     ran (exec (.laneMarginReading 7 ⟨7, 8, 4, 4⟩) s) (fun t => (lane t 7).low && isPending t 638) &&
     ran (exec (.laneMarginReading 7 ⟨8, 8, 4, 4⟩) s) (fun t => !(lane t 7).low))) = true := by decide +kernel

/-- A reading completes the command that waits for it (15 R524). -/
theorem test_margin_done : (
    let s := modLane 7 (fun x => { x with reading := some r }) (withCmd (cmd 0xB003 0 (blk 0xB003 [(0, 1, 7)])) State.reset)
    ran (exec (.testMarginDone 7 ⟨7, 8, 4, 4⟩) s) (fun t => t.cmds == [] &&
      (lane t 7).reading == none)) = true := by decide +kernel

/-! ## Tether and array -/

/-- A tether packet with its header CRC. -/
def tpkt (route seq : Nat) (b : TthBody) (ok : Bool) : TthPacket :=
  let h := leBytes 1 (bodyType b) ++ leBytes 1 route ++ leBytes 2 seq ++ leBytes 2 2 ++ zeros 1
  { hdr := h ++ leBytes 1 (crc8 h), words := 2, crcOk := ok, body := b }

/-- A bad CRC is told, as is a LENGTH that is not the payload's, and counted where the class is not retransmitted; the next
packet of a class is taken, a repeated one changes nothing but its acknowledgement, a gap nothing; acknowledgements (14
R477-R480). -/
theorem test_tth_packet : (
    let e (n : Nat) (ok : Bool) := tpkt 0 n (.lostEvents 0 3) ok
    ran (exec (.tthPacket 1 (e 0 false)) leader2) (fun t => (tthPort t 1).discarded == 0 && isPending t 577) &&
    ran (exec (.tthPacket 1 { e 0 true with words := 3 }) leader2) (fun t => isPending t 577) &&
    ran (exec (.tthPacket 1 { e 0 true with hdr := 2 :: zeros 6 ++ [1] }) leader2) (fun t => (tthPort t 1).discarded == 1) &&
    ran (exec (.tthPacket 1 (e 0 true)) leader2) (fun t => (stall t 0).memberLost == 3 && Tbl.get 0 (tthPort t 1).rxSeq 2 == 1) &&
    ran (exec (.tthPacket 1 (e 2 true)) leader2) (fun t => (stall t 0).memberLost == 0 && t.out == []) &&
    ran (exec (.tthPacket 1 (e 65535 true)) leader2) (fun t => (stall t 0).memberLost == 0 && t.out.length == 1) &&
    (let w : State := { leader2 with tth := { leader2.tth with ports := [{}, { up := true, window := [(2, [(4, .ack 0 0, 0),
        (5, .ack 0 0, 0)])] }] } }
     ran (exec (.tthPacket 1 (tpkt 0 0 (.ack 2 4) true)) w) (fun t => (Tbl.get [] (tthPort t 1).window 2).map (·.1) == [5]) &&
     ran (exec (.tthAckTimeout 1 2) w) (fun t => t.out.length == 2 && isPending t 578))) = true := by decide +kernel

/-- The leader of two devices on a stripe array of 512 columns. -/
def sStripe : State :=
  let c := conf [((0x8002, 0, 0), blk 0x8002 [(0, 1, 2), (1, 1, 1), (4, 4, 512), (8, 2, 256), (10, 2, 256)], []),
    ((0x2001, 0, 0), pipe2, [])]
  { c with sys := leader2.sys, tth := leader2.tth }

/-- A halo row joins its frame, waits for it, or marks it; a link fails and comes up (14 R480, R486, R487). -/
theorem test_halo_link : (
    let h (ok : Bool) : HaloRow := { arrayRow := 0, serial := 5, flags := 0, pixels := [], bits := 10, dual := false, crcOk := ok }
    let s := modStream 0 (fun x =>
      { x with frames := [{ serial := 5, time := ⟨0, 0⟩, epoch := 0, cfg := streamCfg sStripe.cfg.active 0 }] }) sStripe
    striped s.cfg.active 0 &&
    ran (exec (.haloRow 1 (h true)) s) (fun t => (frameOf t 0 5).map (fun f => f.halo.map (·.1)) == some [1]) &&
    ran (exec (.haloRow 1 (h true)) sStripe) (fun t => t.tth.early.map (·.1) == [1]) &&
    ran (exec (.haloRow 1 (h false)) s) (fun t => (frameOf t 0 5).map (·.flags) == some vCrc) &&
    ran (exec (.tthLinkDown 1 3) leader2) (fun t => !(tthPort t 1).up && (lane t 41).downs == 1 && (lane t 42).downs == 0) &&
    ran (exec (.tthLinkUp 1) { leader2 with tth := {} }) (fun t => (tthPort t 1).up && (lane t 47).locked &&
      isPending t 576)) = true := by
  decide +kernel

/-- Digests, hold policy, a relayed command without an answer (14 R481, R494). -/
theorem test_array_commands : (
    passes State.reset (cmd 0x8003 0 (blk 0x8003 [])) && passes State.reset (cmd 0x8004 0 (blk 0x8004 [])) &&
    ran (exec (.relayTimeout r) (withCmd { cmd 0x0105 0 [] with device := 1, relayed := true,
                                                                sent := true } leader2)) (fun t => t.cmds == [] &&
      isPending t 587 && t.tth.timedOut == [(r, 1)])) = true := by decide +kernel

/-- A commit of the array without all answers returns its image, with GO it stays, applied it completes (14 R496, R497). -/
theorem test_array_commit : (
    let x : Sched := { ref := r, mode := 0, stream := 16, scope := 2, frame := 0, time := ⟨0, 0⟩, expect := 0,
                       img := sStaged.cfg.staged }
    let s (y : Sched) := withCmd (cmd 0x0302 0 (blk 0x0302 [(2, 1, 2)])) { leader2 with cfg := { sched := [y] } }
    (findSched (s x) r).isSome && arrayWide (s x) x &&
    ran (exec (.prepareDeadline r) (s x)) (fun t => t.cfg.staged == sStaged.cfg.staged && t.cfg.sched == [] && t.cmds == []) &&
    ran (exec (.prepareDeadline r) (s { x with go := true })) (· == s { x with go := true }) &&
    ran (exec (.arrayCommitTimeout r) (s { x with applied := some (7, 1) })) (fun t => t.cmds == [] &&
      t.cfg.sched == [])) = true := by
  decide +kernel

/-- Time over the tether and idle control blocks (14 R494, R499-R502). -/
theorem test_array_time : (
    ran (exec .idleControlBlock member) (fun t => t.tth.blocks.map (·.1) == [1]) &&
    ran (exec .timePacketSend leader2) (fun t => t.out.length == 1) &&
    (let m : State := { member with tth := { member.tth with ports := [{ up := true }, {}], locked := true } }
     ran (exec (.hopDelayMeasure 77) m) (fun t => t.tth.hopDelay == 77) &&
     ran (exec .timeLockLoss m) (fun t => !t.tth.locked))) = true := by decide +kernel

/-! ## Clauses with premises of their own -/

/-- The masks after a cold start set no bit below 20, an address hashed twice is itself, and `MEM.HASH` refuses a mask with bit 0
(10 R366-R368). -/
theorem test_hash : (defaultMasks.length == 10 && defaultMasks.all (· % 2 ^ 20 == 0) &&
    hashAddr defaultMasks 0x1234567890 != 0x1234567890 &&
    hashAddr defaultMasks (hashAddr defaultMasks 0x1234567890) == 0x1234567890 &&
    (location defaultMasks 0x2FFFFFFFF).isSome &&
    fails State.reset (cmd 0x5001 0 (blk 0x5001 [(0, 8, 1)])) == some 0x11) = true := by decide +kernel

set_option maxRecDepth 20000 in
/-- A discard of the whole array tells the members; a binding of a member's unit asks the member first; one of a unit that is to
leave a function, and is safe, needs no command (02 R655, 03 R84, R88; log 44). -/
theorem test_member_messages : (
    let all := cmd 0x0304 0 (blk 0x0304 [(2, 1, 2)])
    let bind := { cmd 0x0201 0 (blk 0x0201 [(0, 1, 0x51), (1, 1, 1), (4, 2, 1)]) with device := 1 }
    passes leader2 all && scopeOf leader2 all.region == 2 &&
    ran (exec (.epochDiscard r) (withCmd all leader2)) (fun t => t.out.length == 1) &&
    passes (withVf leader2) bind && ran (exec (.bindAssign r) (withCmd bind (withVf leader2))) (fun t =>
      t.bind.waiting.map (·.asked) == [true] && t.out.length == 1) &&
    ran (exec (.rebindingApply ⟨0, 0x51, 0⟩) { State.reset with
        bind := { safe := [(47, 2)], waiting := [{ unit := ⟨0, 0x51, 0⟩, newOwner := 0, cmd := none }] } })
      (fun t => t.bind.waiting == [])) = true := by decide +kernel

/-- A head and an engine reach their safe states (03 R93). -/
theorem test_safe_more : ([(⟨0, 0x60, 0⟩, 175), (⟨0, 0x71, 0⟩, 181)] : List (UnitRef × Nat)).all (fun e =>
    unitKey e.1.device e.1.cls e.1.inst == some e.2 && unitRef e.2 == e.1 && ran (exec (.safeStateReached e.1) { State.reset with
      bind := { safe := [(e.2, 1)] }
      time := { State.reset.time with engines := State.reset.time.engines.modify 0 fun x => { x with due := some r } } })
      (fun t => safeOf t e.2 == 2 && ((t.time.engines.getD 0 {}).due == none) == (e.2 == 181))) = true := by decide +kernel

/-- A lower profile's cap takes a CAP_MW above it back to the profile's own (17 R581). -/
theorem test_profile_cap :
    let s := conf [((0xA001, 0, 0), blk 0xA001 [(4, 4, 65000)], [])]
    (fieldAt (limitsBlk s.cfg.committed) 4 4 == 65000 && profileCap 2 < 65000 &&
    ran (exec .profileApply { s with sys := { s.sys with profileReq := some (r, 2, 0, 0) } })
      (fun t => fieldAt (limitsBlk t.cfg.committed) 4 4 == 0)) = true := by decide +kernel

/-- A flow whose slot has not ended, and whose packet's time has not come; a LIVE flow takes a frame that is still written; a wide
sender is never late (13 R460, R461; log 28). -/
theorem test_flow_not_due : (
    let hold := withSlot 16 1 (sFlow [(1, 1, 1)])
    let x := FlowCfg.of (blk 0x7002 [(1, 1, 1), (2, 1, 1), (4, 2, 1), (0xE, 2, 128)])
    let send (s : State) := modFlow 0 0 (fun y => { y with frame := some 2, total := 9, slotAt := some 40000000 }) s
    flowNow hold 0 0 == some x && (retractedNow hold x none).isNone &&
    ran (exec (.sendSlot 0 0) hold) (fun t => !slotDue t 0 0 x && ran (exec (.sendSlot 0 0) t) (fun u => flowSt u 0 0 == flowSt t 0 0)) &&
    !packetDue (send hold) 0 0 x && packetDue (send (later40 (later40 hold))) 0 0 x &&
    ran (exec (.st2110PacketSend 0 0) (send hold)) (fun t => (flowSt t 0 0).sent == 0 && t.out == []) &&
    ran (exec (.sendSlot 0 0) (withSlot 3 0 (sFlow [(1, 1, 1), (3, 1, 1)]))) (fun t => (flowSt t 0 0).frame == some 2) &&
    ran (exec (.st2110PacketSend 0 0) (modFlow 0 0 (fun y => { y with frame := some 2, total := 9 })
        (withSlot 0 0 (sFlow [(1, 1, 1), (0xC, 1, 2)]))))
      (fun t => (flowSt t 0 0).sent == 0 && (netPort t 0).counters.getD 7 0 == 0)) = true := by decide +kernel

/-- A head that waits for genlock has no flip point; a frame in progress ends at the next one with its record (12 R412, R435). -/
theorem test_flip_record : (!frameDue sLock 0 && frameDue sHead 0 && ran (exec (.flipPoint 0) sHead) (fun t => frameDue t 0 &&
    (head t 0).requests == [] && (head t 0).current.isSome && t.hbm == [] &&
    ran (exec (.flipPoint 0) t) (fun u => (head u 0).flips == 1))) = true := by decide +kernel

/-- An SSI axis reads its encoder at every SAMPLE_DIV-th instant (16 R535). -/
theorem test_ssi_waits : ran (exec (.motionSample [input 0 0 77]) (sAxis 3 0 fun x => { x with wait := 2, p := 5 }))
    (fun t => (axis t 0).wait == 1 && (axis t 0).p == 5) = true := by decide +kernel

/-- A lane of no logical lane; a script that waits for its port; a spare's script answers its command (04 R152, R154, R158). -/
theorem test_lane_script : (
    let s := opened 1 0 sIn
    let w : State := modSpi 0 (fun x => { x with sending := some ⟨false, [9],
        some r⟩ }) { State.reset with brd := { State.reset.brd with
      trigs := [{ scriptDue := 2, script := [9] }] } }
    32 ≤ logicalOf s 1 && laneActive s 1 &&
    ran (exec (.triggerScript 0) w) (fun t => t.out == [] && (spi t 0).queue.length == 1 && (trig t 0).scriptDue == 1) &&
    ran (exec (.spiScriptDone 0 [3, 4]) (withCmd (cmd 0x1003 0 []) w)) (fun t => t.cmds == [])) = true := by decide +kernel

/-- FIRST opens a slot that is free; LAST hands it on (04 R147). -/
theorem test_play_slot : (freeRingSlot s1 1 (PipeCfg.of pipe1) == some 0 && pipeIn s1.cfg.committed 1 == some (PipeCfg.of pipe1)) =
    true := by decide +kernel

/-- The second failure of a Write of an open chunk begins the close of reason 5; a failure of that close ends the recorder
(08 R312). -/
theorem test_media_error : (
    let w : NvmeWrite := { ssd := 0, nsid := 1, lba := 0, fua := false, data := [1], chunk := 1, off := 4096, retried := true }
    let s (n : Nat) : State := { sRec with recorder := { sRec.recorder with
      state := 1, chunkOpen := true, writes := [w], closing := if n = 0 then none else some 5, closePhase := n } }
    oldestWrite (s 0) 0 == some w &&
    ran (exec (.nvmeWriteTimeout 0) (s 0)) (fun t => t.recorder.state == 3 && t.recorder.closing == some 5) &&
    ran (exec (.nvmeWriteTimeout 0) (s 1)) (fun t => t.recorder.state == 0 && !t.recorder.chunkOpen)) = true := by decide +kernel

/-- While a recording runs, the samples of its channels are kept (08 R320). -/
theorem test_audio_kept :
    let c := conf [((0x3201, 0, 0), blk 0x3201 [(0, 1, 2)], [])]
    let s := { c with recorder := { c.recorder with state := 1, audioMask := 3 } }
    (audioChans s == (3, 0) && ran (exec (.audWordClockFrame 0 [256,
        512]) s) (fun t => t.recorder.audio.length == 1)) = true := by
  decide +kernel

/-- A busy session waits for its output, an idle one closes; a picture does not start behind one in the cores (09 R351, R354). -/
theorem test_sessions : (
    let close := cmd 0x4002 0 (blk 0x4002 [])
    let fr : List EncFrame := [{ serial := 5, time := ⟨0, 0⟩, epoch := 0 }]
    let full := [zeros 1]
    ran (exec (.encClose r) (withCmd close (sSess fun x => { x with packets := full }))) (fun t => t.cmds.map (·.waiting) == [true] &&
      (encAt t 0).map (fun y => (y.packets, y.closing)) == some (full, some r)) &&
    ran (exec (.encClose r) (withCmd close sOpen)) (fun t => t.cod.enc == [] && t.cmds == []) &&
    ran (exec (.encPictureStart 0) (sSess fun x => { x with waiting := fr, pics := [pic5 none none] })) (fun t =>
      (encAt t 0).map (·.waiting) == some fr)) = true := by decide +kernel

/-- A picture with lost CTUs is not output where conceal is off; without its parameter sets there is none (09 R357, R359). -/
theorem test_dec_lost : (
    let s (a : DecAu) := modDec 0 (fun x => { x with aus := [a] }) sDec
    ran (exec (.decPicture 0 { dpic with lost := [0] }) (s { au0 with broken := true, missing := true })) (fun t =>
      (decAt t 0).map (fun y => (y.wr, y.aus)) == some (0, []) && isPending t 199) &&
    ran (exec (.decPicture 0 { dpic with lost := [0] }) (s au0)) (· == s au0) &&
    ran (exec (.decPicture 0 dpic) (s { au0 with sps := [] })) (· == s { au0 with sps := [] })) = true := by decide +kernel

/-- A thermal stop waits for the recorder (08 R323, 17 R573). -/
theorem test_stop_waits :
    let s := sThm fun x => { x with stop := 1 }
    ran (exec .thmStopComplete { s with recorder := { s.recorder with state := 1, begun := true, chunkOpen := true } })
      (fun t => t.thm.stop == 1 && t.recorder.thermal && t.sys.phase == .running) = true := by decide +kernel

/-- A snub of domain 1 slows the pipes and nothing else (17 R558, R563). -/
theorem test_snub_clock : ran (exec (.droopSample 1 41) State.reset) (fun t => clockStage t .pipe == 2 && clockStage t .zrec == 0 &&
    clockPercent (clockStage t .pipe) == 50) = true := by decide +kernel

/-! ## More clauses with premises of their own -/

/-- A detached command and a member's copy complete into nothing (02 R66; log 44). -/
theorem test_no_completion : ([{ cmd 0x5103 0 [] with detached := true }, { cmd 0x5103 0 [] with copy := true }].all fun c =>
    complete c {} (withCmd c State.reset) == State.reset) = true := by decide +kernel

/-- From the start of an entry into self-refresh on, a command that names a buffer is refused (10 R387). -/
theorem test_entry_refuses : (let s : State := { State.reset with sys := { State.reset.sys with entryDue := true } }
    buffersOf 0x2001 pipe1 != [] && answers (.pipeConfigure r) s (cmd 0x2001 1 pipe1) == some 0x70) = true := by decide +kernel

/-- No commit of the array with GO waits behind the one that applies (02 R68). -/
theorem test_no_number_waits : ((numbered sSched).filter fun e => sSched.cfg.sched.any (·.ref == e.1)) = [] := by decide +kernel

/-- A crossing of LEVEL 0 counts and sets no notice (11 R395, R398). -/
theorem test_level_zero : ran (exec (.queuePacketWrite 0 (zeros 1)) (modQueue 0 (fun x => { x with level := 0 }) (withPackets [])))
    (fun t => (queue t 0).crossings == 1 && !isPending t 368) = true := by decide +kernel

/-- Port 0 in mode 1 with its links up, with FEC and without. -/
def sLinks (fec : Nat) : State :=
  let s := conf [((0x7001, 0, 0), blk 0x7001 [(0, 1, 1), (1, 1, fec), (0xC, 4, 1)], [])]
  { s with net := s.net.map fun n => { n with up := [true, true, false, false] } }

/-- FEC counts where the links have FEC; a sub-port of mode 1 answers; a query is answered by reports (13 R440, R441, R472). -/
theorem test_net_frames : (
    ran (exec (.netFrameReceived 0 1 (.fecCorrected 3)) (sLinks 0)) (fun t => (netPort t 0).counters.getD 3 0 == 3) &&
    ran (exec (.netFrameReceived 0 1 (.fecUncorrectable 3)) (sLinks 0)) (fun t => (netPort t 0).counters.getD 4 0 == 3) &&
    ran (exec (.netFrameReceived 0 1 (.fecCorrected 3)) (sLinks 1)) (· == sLinks 1) &&
    portMode (sLinks 0).cfg.active 0 == 1 && decide (1500 ≤ portMtu (sLinks 0).cfg.active 0) &&
    frameFits (portMtu (sLinks 0).cfg.active 0) (zeros 42) &&
    ran (exec (.netLinkUp 0 2) (sLinks 0)) (fun t => linkIsUp t 0 2) &&
    ran (exec (.netFrameReceived 0 0 .igmpQuery) sPtp) (fun t => t.out.length == (joinedOn sPtp 0).length) &&
    ran (exec (.netFrameReceived 0 0 (.arpRequest 2 3 4)) sPtp) (fun t => t.out == [] && (netPort t 0).counters.getD 5 0 == 1)) =
      true := by decide +kernel

/-- A master's Follow_Up and Announce leave, and it answers a Delay_Req; a role 2 instance that follows no one is MASTER, one that
loses its master too; a LISTENING one goes on with another master that qualifies (13 R444-R446). -/
theorem test_ptp_more : (
    let m := modPtp 0 (fun x => { x with state := 6, sent := some (3, 7) }) sPtp
    let two (l : List Foreign) (role : Nat) : State :=
      let s := conf [((0x7001, 0, 0), blk 0x7001 [(3, 1, role), (0xC, 4, 1)], [])]
      modPtp 0 (fun x => { x with state := 9, master := some ⟨1, 2, 3, 4, 5, 6, 7⟩, masterId := 9, foreign := l })
        { s with net := s.net.map fun n => { n with up := [true, false, false, false] }, time := { s.time with sel := 1 } }
    let f : Foreign := ⟨8, ⟨1, 2, 3, 4, 5, 6, 7⟩, [0, 0]⟩
    decide (1500 ≤ portMtu sPtp.cfg.active 0) && ptpState m 0 == 6 &&
    ran (exec (.ptpMessageSend 0 .followUp) m) (fun t => t.out.length == 1 && (netPort t 0).ptp.sent == none) &&
    ran (exec (.ptpMessageSend 0 .followUp) (modPtp 0 (fun x => { x with sent := none }) m)) (fun t => t.out == []) &&
    ran (exec (.ptpMessageSend 0 .announce) m) (fun t => t.out.length == 1 && (netPort t 0).ptp.announceSeq == 1) &&
    ran (exec (.ptpMessage 0 (msg .delayReq 0)) m) (fun t => t.out.length == 1) &&
    ran (exec (.announceTimeout 0) (modPtp 0 (fun x => { x with master := none }) (two [] 2))) (fun t => (netPort t 0).ptp.state == 6) &&
    ran (exec (.announceTimeout 0) (two [] 2)) (fun t => (netPort t 0).ptp.state == 6 && isPending t 545) &&
    ran (exec (.announceTimeout 0) (two [f] 0)) (fun t => (netPort t 0).ptp.state == 8 && (netPort t 0).ptp.masterId == 8)) = true := by
  decide +kernel

/-- In place of a retracted frame a HOLD flow sends the most recent COMMITTED one, once (06 R228, 13 R460). -/
theorem test_hold_retracted : (
    let s := modStream 1 (fun x => { x with lastRetracted := some (6, ⟨0, 0⟩, 0) }) (withSlot 16 1 (sFlow [(1, 1, 1)]))
    (flowNow s 0 0).map (fun x => (retractedNow s x none, slotHere s 0 0 x)) == some (some (6, ⟨0, 0⟩), true) &&
    ran (exec (.sendSlot 0 0) s) (fun t => (flowSt t 0 0).frame == some 2 && (flowSt t 0 0).dropped == some 6)) = true := by
  decide +kernel

/-- A packet of a flow with PATHS 2 leaves on both ports (13 R457). -/
theorem test_two_paths : (
    let s := modFlow 0 0 (fun y => { y with frame := some 2, total := 9 }) (withSlot 1 0 (sFlow [(1, 1, 1), (2, 1, 2)]))
    let two : State := { s with cfg := { s.cfg with active := Tbl.set s.cfg.active (cfgKey 0x7001 1 0) ⟨blk 0x7001 [(0xC, 4, 2)], [], 0⟩ } }
    netLive two 1 && linkIsUp two 1 0 && frameFits (portMtu two.cfg.active 1) (zeros 1514) &&
    ran (exec (.st2110PacketSend 0 0) two) (fun t => t.out.length == 2)) = true := by decide +kernel

/-- A packet of more than the MTU; a port in its safe state; the one-packet slot of a seen packet (13 R441, R465, R470). -/
theorem test_rx_more : (
    let s := sRx 9 1 []
    ran (exec (.rxPacket 0 { rx 5 1 9 false with data := zeros 1453 }) s) (fun t => (netPort t 0).counters.getD 5 0 == 1 &&
      (flowSt t 0 0).slots == []) &&
    ran (exec (.rxPacket 0 (rx 5 1 9 false)) { s with bind := { safe := [(myUnit s 0x70 0, 2)] } }) (fun t =>
      (flowSt t 0 0).slots == [] && (netPort t 0).counters.getD 0 0 == 1 && (netPort t 0).counters.getD 5 0 == 0) &&
    ran (exec (.rxPacket 0 (rx 5 1 9 true)) (modFlow 0 0 (fun y => { y with closed := [(9, 1, 1)] }) (sRx 10 2 []))) (fun t =>
      (netPort t 0).counters.getD 11 0 == 1)) = true := by decide +kernel

/-- No frame, no trailer to wait for (04 R142). -/
theorem test_no_trailer : (openStream sIn 0).isSome = true ∧ (openFrameOf sIn 1 0).isNone = true ∧
    ran (exec (.trailerTimeout 0) sIn) (· == sIn) = true := by decide +kernel

/-- The 65th access of an SSD waits for a place, and one that is up already is not brought up again (08 R301). -/
theorem test_host_places : (
    let host := { cmd 0x3105 0 (blk 0x3105 [(0, 1, 1), (4, 4, 1), (0x10, 4, 1)]) with ploc := 2 }
    let h : HostAccess := { ref := ⟨1, 1⟩, write := false, ssd := 0, nsid := 1, lba := 0, count := 1 }
    let up (n : Nat) : State := { sRec with recorder := { sRec.recorder with
      host := List.replicate n h, ssds := sRec.recorder.ssds.modify 0 fun x => { x with attached := true } } }
    ran (exec (.recStatus r) (withCmd host (up 64))) (fun t => t.out == [] && t.recorder.host.length == 65) &&
    ran (exec (.recStatus r) (withCmd host (up 0))) (fun t => t.out.length == 1)) = true := by decide +kernel

/-- An in-line session waits for its first rows, drops a frame while RT2 is shed, and takes one that has come (09 R336, R351; 10
R384). -/
theorem test_inline_session : (
    let s (rows : Nat) : State :=
      { withQueue 0 (queueBlk (0x40, 0) (0, 0))
          (conf [((0x2001, 1, 0), pipe2, []), ((0x2104, 1, 0), tap2, []), ((0x4001, 0, 0), put enc0 (3, 1, 0), [])]) with
        cod := { enc := [{ id := 0, core := 0, cores := 1, waiting := [{ serial := 5, time := ⟨0, 0⟩, epoch := 0, rows := rows }] }] } }
    let shed (t : State) : State := { t with fabric := { t.fabric with ports := t.fabric.ports.modify 2 fun x => { x with shed := true } } }
    ran (exec (.encPictureStart 0) (s 0)) (· == s 0) &&
    ran (exec (.encPictureStart 0) (shed (s 16))) (fun t => isPending t 195 &&
      (encAt t 0).map (fun y => (y.waiting.length, y.pics.length, y.gap)) == some (0, 0, true)) &&
    ran (exec (.encPictureStart 0) (s 16)) (fun t => (encAt t 0).map (fun y => y.pics.map (·.serial)) == some [5])) = true := by
  decide +kernel

/-- Samples of another size are no picture of an access unit (09 R355). -/
theorem test_dec_size : (let s := modDec 0 (fun x => { x with aus := [au0] }) sDec
    ran (exec (.decPicture 0 { dpic with luma := [] }) s) (· == s)) = true := by decide +kernel

/-- An error in the bits of a slice is told with its data, and its picture loses CTUs (09 R358). -/
theorem test_slice_error : (
    let x : DecSess := { id := 0, core := 0, cores := 1, blk := dec0, aus := [au0], parse := .taking }
    let y := withErrors [⟨1, 7⟩, ⟨4, 7⟩, ⟨1, 8⟩] false 7 x
    y.2 == [⟨1, 7⟩] && y.1.aus == [{ au0 with broken := true }] && (withErrors [] false 7 x) == (x, [])) = true := by decide +kernel

/-- Submitted data: an SPS and a PPS are kept; DISCONT drops them (09 'DEC.SUBMIT', R357). -/
theorem test_dec_submit : (
    let data := [0, 0, 1] ++ sps0 ++ [0, 0, 1] ++ pps0
    let x : DecSess := { id := 0, core := 0, cores := 1, blk := dec0 }
    (takeSubmitted [] 0 data x).1.sets == [sps0, pps0] && (takeSubmitted [] 0 data x).2 == [] &&
    (takeSubmitted [] 2 [] (takeSubmitted [] 0 data x).1).1.sets == []) = true := by decide +kernel

/-- S falls from 25 % to 0 with a critical port: the next port is shed at once; buffers that overflow unshed (10 R381, R384). -/
theorem test_scale_zero : (
    let s := sFab (fun f => port 2 (fun x => { x with panic := true, critical := true })
      { f with step := 2, scale := 25, order := [12, 4] }) sHead
    anyPanic s && ran (exec .memEscalation s) (fun t => (rtPort t 4).shed && t.fabric.step == 3 && t.fabric.scale == 0) &&
    ran (exec (.rtBufferOverflow 8) (modFlow 0 0 (fun y => { y with sent := 1, total := 9 }) (sFlow [(1, 1, 1)]))) (fun t =>
      (flowSt t 0 0).stopped && !(flowSt t 0 1).stopped) &&
    (let f : ReadyFrame := { slot := 0, serial := 5, epoch := 0, cfg := [], record := [] }
     let w : State := { modStream 0 (fun x => { x with ready := [f] }) State.reset with pipes := [some 0, none, none] }
     ran (exec (.rtBufferOverflow 1) w) (fun t => (stream t 0).ready.map (·.unwritten) == [true]))) = true := by decide +kernel

/-! ## Tether blocks, routes and pins -/

/-- An idle control block of a device whose frame of a serial started at 0 s. -/
def idle (serial device digest : Nat) : IdleBlock :=
  ⟨0, serial, device, true, false, true, digest, ⟨0, 0⟩, 1⟩

/-- A member adopts the leader's serial, whose frame then retracts (14 R488). -/
theorem test_serial_slip : (
    let f : Frame := { serial := 5, time := ⟨0, 0⟩, epoch := 0, cfg := streamCfg sStripe.cfg.active 0 }
    let m : State := { sStripe with sys := { sStripe.sys with device := 1 }
                                    tth := { sStripe.tth with blocks := [(0, (idle 9 0 0, 0))] } }
    let t := checkLeader 5 (modStream 0 (fun x => { x with frames := [f], nextSerial := 6 }) m)
    (stream t 0).frames.map (fun g => (g.serial, g.flags)) == [(9, 33)] && (stream t 0).nextSerial == 10) = true := by
  decide +kernel

/-- A digest that differs is told before the blocks of all devices are in (14 R498). -/
theorem test_digests : (
    let s (l : Tbl (IdleBlock × Nat)) : State := { leader2 with sys := { leader2.sys with arraySize := 3 }, tth := { blocks := l } }
    digestMask (s [(0, (idle 9 0 1, 0)), (1, (idle 9 1 4, 0))]) 9 == some 2 &&
    digestMask (s [(0, (idle 9 0 1, 0)), (1, (idle 9 1 1, 0))]) 9 == none &&
    digestMask (s [(0, (idle 9 0 1, 0)), (1, (idle 9 1 1, 0)), (2, (idle 9 2 1, 0))]) 9 == some 0) = true := by decide +kernel

/-- A queue packet comes in pieces (14 R491). -/
theorem test_route_parts : (
    let s := modQueue 3 (fun _ => { configured := true, maxPacket := 4096, credits := 64, limit := 64 }) leader2
    let t := onRoute 1 3 false [1] s
    (queue t 3).packets == [] && (queue (onRoute 1 3 true [2] t) 3).packets == [[1, 2]]) = true := by decide +kernel

/-- A packet of a queue with a route to queue 5 of device 1 joins the tether's window as it is freed (14 R491). -/
theorem test_route_free : (
    let c := conf [((0x8001, 0, 0), blk 0x8001 [(2, 1, 1), (8, 1, 1), (10, 2, 0), (12, 1, 1), (14, 2, 5)], [])]
    let s : State := modQueue 0 (fun x => { x with cons := (0x80, 1) }) { leader2 with cfg := c.cfg, queues := (withPackets [zeros 1]).queues }
    routeDest s 0 == some (1, 5) && ran (exec (.queuePacketFree 0) s) (fun t => (queue t 0).packets == [] &&
      (Tbl.get [] (tthPort t 1).window 4).map (·.2.1) == [.route 5 true (zeros 1)])) = true := by decide +kernel

/-- SDI_EN and MOD_RESET_N follow the lanes and the ports (19 R616). -/
theorem test_pins : (sdiEn sHead 0 && !sdiEn sHead 1 && !sdiEn State.reset 0 && modResetN sPtp 0 && !modResetN State.reset 0) = true := by
  decide +kernel

end Sys2Proof.Tests
end

section
/-! The doorbell of a stall's command ring (02 R42 to R44). -/
namespace Sys2Proof.Machine

open Sys2Proof

/-- Changing a stall to what it already is changes nothing. -/
theorem modStall_eq_self {k : Nat} {g : Stall → Stall} {s : State} (h : g (stall s k) = stall s k) : modStall k g s = s := by
  have hl : s.stalls.modify k g = s.stalls := by
    refine List.ext_getElem (List.length_modify ..) fun i _ hi => ?_
    rw [List.getElem_modify]
    split
    · next hk => subst hk; simpa [stall, hi] using h
    · rfl
  simp [modStall, hl]

/-- The doorbell command is a write to the register, where the host's access reaches the device. -/
theorem exec_commandDoorbell {fn : Nat} {value : Word} {s : State} (h : hostOk s fn = true) :
    exec (.commandDoorbell fn value) s = .next (doorbellWrite fn value s) :=
  congrArg Host.Outcome.next (if_pos h)

/-- The test of a doorbell, in the terms of 02 R44: the present index, or one that neither falls behind P nor leaves more than
64 commands. -/
theorem doorbellOk_iff {h p v : Idx} :
    doorbellOk h p v = true ↔ v = p ∨ (p - h).toNat ≤ (v - h).toNat ∧ (v - h).toNat ≤ 64 := by
  simp [doorbellOk]

section
variable {f g : Nat} {value : Word} {s : State}

/-- A doorbell write reaches no state but the stalls'. -/
theorem doorbellWrite_frame : { doorbellWrite f value s with stalls := s.stalls } = s := rfl

/-- A doorbell write reaches no stall but its own. -/
theorem stall_doorbellWrite_ne (h : g ≠ f) : stall (doorbellWrite f value s) g = stall s g := stall_modStall_ne h

/-- A doorbell that takes effect moves the producer index. -/
theorem stall_doorbellWrite_taken (hf : f < s.stalls.length)
    (h : doorbellOk (stall s f).cmdHead (stall s f).cmdTail (value.setWidth 16) = true) :
    stall (doorbellWrite f value s) f = { stall s f with cmdTail := value.setWidth 16 } :=
  (stall_modStall hf).trans (if_pos h)

/-- A doorbell that is discarded sets DB_ERR. -/
theorem stall_doorbellWrite_discarded (hf : f < s.stalls.length)
    (h : ¬ doorbellOk (stall s f).cmdHead (stall s f).cmdTail (value.setWidth 16) = true) :
    stall (doorbellWrite f value s) f = { stall s f with dbErr := true } :=
  (stall_modStall hf).trans (if_neg h)

/-- A doorbell with the present producer index changes nothing. -/
theorem doorbellWrite_eq_self (h : value.setWidth 16 = (stall s f).cmdTail) : doorbellWrite f value s = s :=
  modStall_eq_self (by simp [h, doorbellOk_iff])

end

/-- Settles O13: the three outcomes of 02 R44 are the branches of the doorbell's test, and the rest is the frame of a change
to one stall. -/
theorem doorbellMovesProducerIndex : Obligations.DoorbellMovesProducerIndex := by
  intro fn value s hhost hfn x h p v
  refine ⟨_, exec_commandDoorbell hhost, doorbellWrite_frame, fun g hg => stall_doorbellWrite_ne hg, ?same, ?taken, ?discarded⟩
  case same => exact doorbellWrite_eq_self
  case taken =>
    intro hbehind hfull
    exact stall_doorbellWrite_taken hfn (doorbellOk_iff.mpr (.inr ⟨hbehind, hfull⟩))
  case discarded =>
    intro hnew hrange
    exact stall_doorbellWrite_discarded hfn fun hok => (doorbellOk_iff.mp hok).elim hnew hrange

end Sys2Proof.Machine
end

section
/-! The route of an interrupt source (03 R98 to R101): what a message leaves of the interrupt state, what a write to INT_ROUTE_n
stores, and what becomes of a source that moves to another function. -/
namespace Sys2Proof.Machine

open Sys2Proof

section
variable {f g k n v : Nat} {value : Word} {b s t : State}

/-! ## What decides a source's target, and its pending and mask bits -/

/-- A source's target rests on the straps and functions, the owners, and the routes alone. -/
theorem targetOf_congr (hsys : t.sys = s.sys) (hbind : t.bind = s.bind) (hroutes : t.ints.routes = s.ints.routes) :
    targetOf t n = targetOf s n := by
  unfold targetOf routeOf fnExists ownerOf
  rw [hsys, hbind, hroutes]

/-- A FIXED route to a function that does not exist leads to F0 (03 R99). -/
theorem targetOf_fixed_missing (hfixed : (routeOf s n).fixed = true) (hmissing : fnExists s (routeOf s n).func = false) :
    targetOf s n = 0 := by
  simp [targetOf, hfixed, hmissing]

/-- The bit of a source in a word with that bit alone. -/
theorem getLsbD_sourceBit (hn : n < 640) : (1#640 <<< n).getLsbD n = true := by
  simp [hn]

/-- A source whose pending bit is cleared is not pending. -/
theorem isPending_unpend (hn : n < 640) : isPending (unpend n s) n = false := by
  simp [isPending, unpend, hn]

/-- A change of a function's part that leaves the mask bits leaves every function's. -/
theorem isMasked_modFnInt {h : FnInt → FnInt} (hh : ∀ x, (h x).intMask = x.intMask) :
    isMasked (modFnInt k h s) g n = isMasked s g n := by
  unfold isMasked
  by_cases hg : g = k
  · subst hg
    by_cases hl : g < s.ints.fns.length
    · rw [fnInt_modFnInt hl, hh]
    · simp [fnInt, modFnInt, List.getD_eq_getElem?_getD, hl]
  · rw [fnInt_modFnInt_ne hg]

/-- Setting the mask bit of a source at a function masks it there. -/
theorem isMasked_modFnInt_set (hf : f < s.ints.fns.length) (hn : n < 640) :
    isMasked (modFnInt f (fun x => { x with intMask := x.intMask ||| (1#640 <<< n) }) s) f n = true := by
  rw [isMasked, fnInt_modFnInt hf, BitVec.getLsbD_or, getLsbD_sourceBit hn, Bool.or_true]

/-! ## Messages -/

/-- A message leaves the pending bits. -/
@[simp] theorem isPending_trySignal : isPending (trySignal f v s) n = isPending s n := by
  rw [trySignal_eq]; rfl

/-- A message leaves the mask bits. -/
@[simp] theorem isMasked_trySignal : isMasked (trySignal f v s) g n = isMasked s g n := by
  unfold trySignal
  split
  · exact isMasked_modFnInt fun _ => rfl
  · rfl

/-- A source that is raised on the leader leaves the mask bits. -/
theorem isMasked_raise (hlead : isLeader s = true) : isMasked (raise k s) g n = isMasked s g n := by
  unfold raise
  simp only [hlead, Bool.not_true, Bool.false_eq_true, if_false]
  split
  · rfl
  · split
    · rfl
    · exact isMasked_trySignal

/-- A source with ENABLE 0 is not raised (03 R98). -/
theorem raise_disabled (h : (routeOf s n).enable = false) : raise n s = s := by
  simp [raise, h]

/-! ## A source whose route has moved (03 R101) -/

/-- A source cleared at its old target and masked at its new one. -/
def maskedAtTarget (n : Nat) (s : State) : State :=
  modFnInt (targetOf s n) (fun x => { x with intMask := x.intMask ||| (1#640 <<< n) }) (unpend n s)

/-- A source that keeps its target is left alone. -/
theorem rerouted_kept (h : targetOf b n = targetOf s n) : rerouted b n s = s := if_pos h

/-- A source that moves is set again only where its condition lasts. -/
theorem rerouted_moved (h : targetOf b n ≠ targetOf s n) :
    rerouted b n s = if conditionHolds b n then raise n (maskedAtTarget n s) else maskedAtTarget n s := if_neg h

/-- The old target's pending bit is gone. -/
theorem isPending_maskedAtTarget (hn : n < 640) : isPending (maskedAtTarget n s) n = false := isPending_unpend hn

/-- The new target's mask bit is set. -/
theorem isMasked_maskedAtTarget (hn : n < 640) (hf : targetOf s n < s.ints.fns.length) :
    isMasked (maskedAtTarget n s) (targetOf s n) n = true := isMasked_modFnInt_set hf hn

/-- A source that moves on the leader changes the pending bits, the functions' parts, and what has left the device. -/
theorem rerouted_eq (hlead : isLeader s = true) : rerouted b n s =
    { s with out := (rerouted b n s).out
             ints := { s.ints with pend := (rerouted b n s).ints.pend, fns := (rerouted b n s).ints.fns } } := by
  by_cases h : targetOf b n = targetOf s n
  · rw [rerouted_kept h]
  · rw [rerouted_moved h]
    split
    · obtain ⟨hstalls, htth⟩ := raise_leader (n := n) (s := maskedAtTarget n s) hlead
      rw [raise_eq, hstalls, htth]
      rfl
    · rfl

/-- A source that is disabled and not pending stays so. -/
theorem isPending_rerouted_disabled (hn : n < 640) (hoff : (routeOf s n).enable = false) (hclear : isPending s n = false) :
    isPending (rerouted b n s) n = false := by
  by_cases h : targetOf b n = targetOf s n
  · rw [rerouted_kept h]; exact hclear
  · rw [rerouted_moved h, raise_disabled (s := maskedAtTarget n s) hoff, ite_self]
    exact isPending_maskedAtTarget hn

/-- A source that moves is masked at its new target. -/
theorem isMasked_rerouted (hlead : isLeader s = true) (hn : n < 640) (hmoved : targetOf b n ≠ targetOf s n)
    (hf : targetOf s n < s.ints.fns.length) : isMasked (rerouted b n s) (targetOf s n) n = true := by
  rw [rerouted_moved hmoved]
  split
  · rw [isMasked_raise (s := maskedAtTarget n s) hlead]; exact isMasked_maskedAtTarget hn hf
  · exact isMasked_maskedAtTarget hn hf

/-- A source that moves and whose condition does not last is not pending. -/
theorem isPending_rerouted_moved (hn : n < 640) (hmoved : targetOf b n ≠ targetOf s n) (hcond : conditionHolds b n = false) :
    isPending (rerouted b n s) n = false := by
  rw [rerouted_moved hmoved, hcond]
  exact isPending_maskedAtTarget hn

/-! ## A write to INT_ROUTE_n -/

/-- The first part of F0's write: the route is stored, and a source with ENABLE 0 is no longer pending. -/
def routeStored (n : Nat) (value : Word) (s : State) : State :=
  let r := routeWritten (routeOf s n) value
  let t : State := { s with ints := { s.ints with routes := Tbl.put {} s.ints.routes n r } }
  if r.enable then t else unpend n t

/-- Storing a route changes the routes and the pending bits. -/
theorem routeStored_eq : routeStored n value s =
    { s with ints := { s.ints with routes := Tbl.put {} s.ints.routes n (routeWritten (routeOf s n) value)
                                   pend := (routeStored n value s).ints.pend } } := by
  unfold routeStored
  dsimp only
  split <;> rfl

/-- Storing a route leaves the straps. -/
theorem isLeader_routeStored : isLeader (routeStored n value s) = isLeader s := by
  rw [routeStored_eq]; rfl

/-- The stored route takes its fields, a VECTOR of 0 or 1 as 2 (03 R98, R99). -/
theorem routeOf_routeStored (hwf : Tbl.wf s.ints.routes = true) :
    routeOf (routeStored n value s) n = routeWritten (routeOf s n) value := by
  rw [routeStored_eq]; exact Tbl.get_put hwf

/-- Every other route stays. -/
theorem routeOf_routeStored_ne (h : k ≠ n) : routeOf (routeStored n value s) k = routeOf s k := by
  rw [routeStored_eq]; exact Tbl.get_put_ne h

/-- A source with ENABLE 0 is not pending once its route is stored (03 R98). -/
theorem isPending_routeStored_disabled (hn : n < 640) (hoff : value.getLsbD 12 = false) :
    isPending (routeStored n value s) n = false := by
  unfold routeStored
  dsimp only
  rw [if_neg (by simp only [routeWritten, hoff, Bool.false_eq_true, not_false_eq_true])]
  exact isPending_unpend hn

/-- F0's write stores the route, moves the source, and may then send the message of its new vector. -/
theorem routeWrite_f0 : routeWrite 0 n value s = rerouted s n (routeStored n value s) ∨
    ∃ f v, routeWrite 0 n value s = trySignal f v (rerouted s n (routeStored n value s)) := by
  let m := rerouted s n (routeStored n value s)
  by_cases h : targetOf s n = targetOf m n ∧ vectorOf s n ≠ vectorOf m n ∧ isPending m n ∧ !isMasked m (targetOf m n) n
  · exact .inr ⟨_, _, if_pos h⟩
  · exact .inl (if_neg h)

/-- The pending bits after F0's write are those of the source's move. -/
theorem isPending_routeWrite :
    isPending (routeWrite 0 n value s) k = isPending (rerouted s n (routeStored n value s)) k := by
  rcases routeWrite_f0 (n := n) (value := value) (s := s) with h | ⟨f, v, h⟩ <;> simp [h]

/-- The mask bits after F0's write are those of the source's move. -/
theorem isMasked_routeWrite :
    isMasked (routeWrite 0 n value s) g k = isMasked (rerouted s n (routeStored n value s)) g k := by
  rcases routeWrite_f0 (n := n) (value := value) (s := s) with h | ⟨f, v, h⟩ <;> simp [h]

/-- Beyond storing the route, F0's write on the leader changes the pending bits, the functions' parts, and what has left the
device. -/
theorem routeWrite_eq (hlead : isLeader s = true) : routeWrite 0 n value s =
    { routeStored n value s with
      out := (routeWrite 0 n value s).out
      ints := { (routeStored n value s).ints with
        pend := (routeWrite 0 n value s).ints.pend, fns := (routeWrite 0 n value s).ints.fns } } := by
  have hlead' : isLeader (routeStored n value s) = true := isLeader_routeStored.trans hlead
  rcases routeWrite_f0 (n := n) (value := value) (s := s) with h | ⟨f, v, h⟩
  · rw [h]; exact rerouted_eq hlead'
  · rw [h, trySignal_eq]
    generalize trySignal f v _ = m
    rw [rerouted_eq hlead']

/-- The routes after F0's write are those stored. -/
theorem routeOf_routeWrite (hlead : isLeader s = true) :
    routeOf (routeWrite 0 n value s) k = routeOf (routeStored n value s) k := by
  rw [routeWrite_eq hlead]; rfl

/-- The targets after F0's write follow the stored routes. -/
theorem targetOf_routeWrite (hlead : isLeader s = true) :
    targetOf (routeWrite 0 n value s) k = targetOf (routeStored n value s) k := by
  rw [routeWrite_eq hlead]
  exact targetOf_congr rfl rfl rfl

/-- The route command is a write to the register, where the host's access reaches the device. -/
theorem exec_intRouteWrite (hhost : hostOk s f = true) (hn : n < 640) :
    exec (.intRouteWrite f n value) s = .next (routeWrite f n value s) := by
  have h : exec (.intRouteWrite f n value) s =
      .next (whenHost f (fun t => if n < 640 then routeWrite f n value t else t) s) := rfl
  rw [h, whenHost_of hhost, if_pos hn]

/-- Only the leader takes the host's accesses. -/
theorem isLeader_of_hostOk (h : hostOk s f = true) : isLeader s = true := by
  simp only [hostOk, Bool.and_eq_true] at h
  exact h.2

end

/-- Settles O17: F0's write stores the route and moves the source, and the message that may follow leaves the routes and the
pending and mask bits. -/
theorem routeWrittenByF0 : Obligations.RouteWrittenByF0 := by
  intro fn src value s hhost hsrc hwf hfns
  refine ⟨_, exec_intRouteWrite hhost hsrc, fun hfn => if_pos hfn, ?_⟩
  rintro rfl
  have hlead := isLeader_of_hostOk hhost
  have htarget := targetOf_routeWrite (n := src) (k := src) (value := value) hlead
  have hroute : routeOf (routeWrite 0 src value s) src = routeWritten (routeOf s src) value :=
    (routeOf_routeWrite hlead).trans (routeOf_routeStored hwf)
  refine ⟨?frame, hroute, ?others, ?missing, ?disabled, ?moved⟩
  case frame => rw [routeWrite_eq hlead, routeStored_eq]
  case others => exact fun m hm => (routeOf_routeWrite hlead).trans (routeOf_routeStored_ne hm)
  case missing =>
    intro hfixed hmissing
    refine targetOf_fixed_missing ?_ ?_ <;> rw [hroute]
    · exact hfixed
    · simpa [routeWritten, hfixed] using hmissing
  case disabled =>
    intro hoff
    rw [isPending_routeWrite]
    refine isPending_rerouted_disabled hsrc ?_ (isPending_routeStored_disabled hsrc hoff)
    rw [routeOf_routeStored hwf]
    exact hoff
  case moved =>
    rw [htarget]
    intro hne hlt
    refine ⟨?_, fun hcond => ?_⟩
    · rw [isMasked_routeWrite]
      have hfns' : (routeStored src value s).ints.fns = s.ints.fns := by rw [routeStored_eq]
      exact isMasked_rerouted (isLeader_routeStored.trans hlead) hsrc hne.symm (hfns' ▸ hfns _ hlt)
    · rw [isPending_routeWrite]
      exact isPending_rerouted_moved hsrc hne.symm hcond

end Sys2Proof.Machine
end

section
/-! Cold starts (18 R585, R589, R595 to R598; 17 R578): what step 1 latches, what a failed start leaves, and what host-ready
makes of the state. -/
namespace Sys2Proof.Machine

open Sys2Proof

section
variable {code cls detail unit k : Nat} {e : Event} {inp : StartInputs} {s : State}

/-! ## What F0's events, interrupt sources and lane equalisation leave -/

/-- What they leave of a state: all but F0's stall, the interrupts, the tether, the lanes, the free values drawn and what has
left the device. -/
def unreported (s : State) : State :=
  { s with stalls := s.stalls.drop 1, out := [], ints := {}, tth := {}, lanes := [], freeCtr := 0 }

/-- A fold of operations that each leave a reading of the state leaves it. -/
theorem foldl_leaves {α β : Type} {p : State → β} {op : State → α → State} (h : ∀ t a, p (op t a) = p t) :
    ∀ (l : List α) (s : State), p (l.foldl op s) = p s
  | [], _ => rfl
  | a :: l, s => (foldl_leaves h l (op s a)).trans (h s a)

/-- An event for F0 reaches no stall but F0's. -/
theorem drop_stalls_postEvent : (postEvent 0 e s).stalls.drop 1 = s.stalls.drop 1 := by
  have hmod (g : Stall → Stall) (t : State) : (modStall 0 g t).stalls.drop 1 = t.stalls.drop 1 :=
    List.drop_modify_of_lt _ _ _ _ Nat.one_pos
  unfold postEvent
  split
  · rw [memberEvent_eq]
  · split
    · rfl
    · split
      · exact hmod _ _
      · unfold writeEvent raiseEvt
        dsimp only
        split <;> simp only [trySignal_stalls, hmod]

/-- An event of the device itself goes to F0. -/
theorem unreported_sysEvent : unreported (sysEvent code cls unit detail s) = unreported s := by
  have h : (sysEvent code cls unit detail s).stalls.drop 1 = s.stalls.drop 1 := drop_stalls_postEvent
  unfold unreported
  rw [h, sysEvent_eq]

/-- An interrupt source reaches no stall: a member's goes to the leader (03 R105). -/
theorem raise_stalls : (raise k s).stalls = s.stalls := by
  by_cases hlead : isLeader s = true
  · exact (raise_leader hlead).1
  · have hmember : (!isLeader s) = true := by simpa using hlead
    unfold raise postEvent
    rw [if_pos hmember, if_pos hmember, memberEvent_eq]
    split <;> rfl

/-- An interrupt source changes the interrupts, and at a member the tether. -/
theorem unreported_raise : unreported (raise k s) = unreported s := by
  unfold unreported
  rw [raise_stalls, raise_eq]

/-- Equalisation changes the lanes and draws free values (15 R512). -/
theorem unreported_equalise (classes lanes : List Nat) : unreported (equalise classes lanes s) = unreported s :=
  foldl_leaves (fun t l => foldl_leaves (op := fun u c => equaliseAt c l u) (fun _ _ => rfl) classes t) lanes s

/-- Receivers that lock or lose their lock change the lanes. -/
theorem unreported_lanesTurn (up : Bool) (lanes : List Nat) : unreported (lanesTurn up lanes s) = unreported s := by
  refine foldl_leaves (fun t k => ?_) lanes s
  rfl

/-- The endpoint is equalised, and its receivers lock (15 R508, R512). -/
theorem unreported_equaliseEndpoint : unreported (equaliseEndpoint s) = unreported s :=
  (unreported_lanesTurn _ _).trans (unreported_equalise _ _)

/-- The root port is equalised (15 R512). -/
theorem unreported_equaliseRoot : unreported (equaliseRoot s) = unreported s := unreported_equalise _ _

/-- What host-ready tells goes to F0. -/
theorem unreported_tellReady : unreported (tellReady s) = unreported s := by
  have hraise (c : Bool) (n : Nat) (t : State) : unreported (if c then raise n t else t) = unreported t := by
    split <;> [exact unreported_raise; rfl]
  have hmodel (c : Bool) (t : State) : unreported (if c then sysEvent 0xA008 0xA0 0 0 t else t) = unreported t := by
    split <;> [exact unreported_sysEvent; rfl]
  unfold tellReady
  simp only [hraise, hmodel, unreported_raise, unreported_sysEvent]

/-! ## Host-ready (18 R597) -/

/-- The device at the host-ready of a cold start: it runs in profile 1 with FAILS 0, nothing is owned, configured or
accepted, HBM is unwritten, and the straps, the fuses and the engines are as they were. -/
theorem coldReady_facts : let t := coldReady inp s
    t.sys.phase = .running ∧ t.sys.ready = true ∧ t.sys.fails = 0 ∧ t.sys.profile = 1 ∧ t.sys.fuses = s.sys.fuses ∧
      t.sys.device = s.sys.device ∧ t.bind = {} ∧ t.cfg = {} ∧ t.cmds = [] ∧ t.hbm = [] ∧ t.time = s.time ∧
      t.pins.floating = false ∧ t.stalls.drop 1 = List.replicate 15 {} := by
  have h : unreported (coldReady inp s) = unreported _ :=
    unreported_tellReady.trans (unreported_equaliseRoot.trans unreported_equaliseEndpoint)
  have read {β : Type} (p : State → β) := congrArg p h
  exact ⟨read (·.sys.phase), read (·.sys.ready), read (·.sys.fails), read (·.sys.profile), read (·.sys.fuses),
    read (·.sys.device), read (·.bind), read (·.cfg), read (·.cmds), read (·.hbm), read (·.time), read (·.pins.floating),
    read (·.stalls)⟩

/-- Where the stalls after F0's are new, each reads as new. -/
theorem stall_of_drop {f : Nat} (h : s.stalls.drop 1 = List.replicate 15 {}) (hf : 1 ≤ f) : stall s f = {} := by
  obtain ⟨g, rfl⟩ := Nat.exists_eq_add_of_le hf
  rw [stall, List.getD_eq_getElem?_getD, ← List.getElem?_drop, h, List.getElem?_replicate]
  split <;> rfl

/-! ## Failed starts (18 R595, R596) -/

/-- A start that fails notes its FAIL_CODE; the next begins, or the device halts with the code on the UART. -/
theorem failStart_facts : let t := failStart code s
    t.sys.failCode = code ∧ t.sys.fuses = s.sys.fuses ∧ t.hbm = s.hbm ∧
      (s.sys.fails = 3 → t.sys.phase = .halted ∧ t.sys.ready = false ∧ t.out = s.out ++ [.uart code]) ∧
      (s.sys.fails ≠ 3 → t.sys.phase = .released ∧ t.sys.fails = s.sys.fails + 1 ∧ t.out = s.out) := by
  dsimp only
  unfold failStart
  dsimp only
  split
  · next h => exact ⟨rfl, rfl, rfl, fun _ => ⟨rfl, rfl, rfl⟩, fun hn => absurd h hn⟩
  · next h => exact ⟨rfl, rfl, rfl, fun hy => absurd hy h, fun _ => ⟨rfl, rfl, rfl⟩⟩

/-! ## The steps of a cold start (18 R585, R589) -/

/-- A cold start at step 1: SYS_RST_N is high, the straps are latched and the diodes read; from reset it begins here. -/
def atStepOne (inp : StartInputs) (s : State) : State :=
  let t : State := { s with sys := { s.sys with sysRstLow := false } }
  latchStraps inp (if t.sys.phase = .released then { t with sys := { t.sys with step := 1 } } else beginStart t)

/-- The diodes of step 1 are those that the start reads (17 R578). -/
theorem tooHot_atStepOne :
    tooHot (atStepOne inp s) = false ↔ (inp.diode0 : Rat) / 4 < 90 ∧ (inp.diode1 : Rat) / 4 < 90 := by
  simp [tooHot, atStepOne, latchStraps]

/-- Whether the image that the failed-start count chooses is authentic (18 R596). -/
def imageAuthentic (inp : StartInputs) (s : State) : Bool :=
  if s.sys.fails = 3 then inp.recoveryAuthentic else inp.primaryAuthentic

/-- The same, in the terms of the statement. -/
theorem imageAuthentic_iff : imageAuthentic inp s = true ↔
    if s.sys.fails = 3 then inp.recoveryAuthentic = true else inp.primaryAuthentic = true := by
  unfold imageAuthentic; split <;> rfl

section
variable (hphase : s.sys.phase = .held ∨ s.sys.phase = .released) (hrails : s.sys.railsLow = [])
include hphase

/-- Step 1 leaves the failed-start count, the fuses and what has left the device; the time engines run from it (13 R450). -/
theorem atStepOne_facts : let t := atStepOne inp s
    t.sys.phase = .released ∧ t.sys.step = 1 ∧ t.sys.fails = s.sys.fails ∧ t.sys.fuses = s.sys.fuses ∧ t.out = s.out ∧
      t.sys.device = inp.deviceIndex % 4 ∧ t.time = if s.sys.phase = .held then {} else s.time := by
  rcases hphase with h | h <;> simp [atStepOne, latchStraps, beginStart, h]

/-- The count that chooses the image is that before the start. -/
theorem imageAuthentic_atStepOne : imageAuthentic inp (atStepOne inp s) = imageAuthentic inp s := by
  obtain ⟨-, -, hfails, -⟩ := atStepOne_facts (inp := inp) hphase
  rw [imageAuthentic, hfails]; rfl

include hrails

/-- In reset, or after its release, with every watched rail up, a cold start goes from step 1 through its checks in their
order. -/
theorem exec_coldStart : exec (.coldStart inp) s = .next (
    if tooHot (atStepOne inp s) then atStepOne inp s
    else if !inp.flashReadOk then failStart 2 (atStepOne inp s)
    else if !imageAuthentic inp s then failStart 1 (atStepOne inp s)
    else if !inp.hbmTrained then failStart 3 (atStepOne inp s)
    else if !inp.inTime then { atStepOne inp s with sys := { (atStepOne inp s).sys with step := 6 } }
    else coldReady inp (atStepOne inp s)) := by
  have h : exec (.coldStart inp) s = .next (coldSteps inp { s with sys := { s.sys with sysRstLow := false } }) := by
    have harm : exec (.coldStart inp) s = execColdStart inp s := rfl
    rw [harm, execColdStart]
    rcases hphase with hp | hp <;> simp [hp, hrails]
  rw [h, ← imageAuthentic_atStepOne hphase]
  rfl

/-- A start with a hot diode waits at step 1 (17 R578). -/
theorem exec_coldStart_hot (hhot : tooHot (atStepOne inp s) = true) :
    exec (.coldStart inp) s = .next (atStepOne inp s) := by
  rw [exec_coldStart hphase hrails, if_pos hhot]

/-- A cold start whose checks pass reaches host-ready. -/
theorem exec_coldStart_ready (hcool : tooHot (atStepOne inp s) = false) (hflash : inp.flashReadOk = true)
    (hauth : imageAuthentic inp s = true) (hhbm : inp.hbmTrained = true) (htime : inp.inTime = true) :
    exec (.coldStart inp) s = .next (coldReady inp (atStepOne inp s)) := by
  simp [exec_coldStart hphase hrails, hcool, hflash, hauth, hhbm, htime]

/-- The first check that fails gives the FAIL_CODE (18 R595). -/
theorem exec_coldStart_failed (hcool : tooHot (atStepOne inp s) = false)
    (h : (code = 2 ∧ inp.flashReadOk = false) ∨ (code = 1 ∧ inp.flashReadOk = true ∧ imageAuthentic inp s = false) ∨
      (code = 3 ∧ inp.flashReadOk = true ∧ imageAuthentic inp s = true ∧ inp.hbmTrained = false)) :
    exec (.coldStart inp) s = .next (failStart code (atStepOne inp s)) := by
  rw [exec_coldStart hphase hrails]
  rcases h with ⟨rfl, hflash⟩ | ⟨rfl, hflash, hauth⟩ | ⟨rfl, hflash, hauth, hhbm⟩
  · simp [hcool, hflash]
  · simp [hcool, hflash, hauth]
  · simp [hcool, hflash, hauth, hhbm]

end

/-- A start that is not at step 1 waits for no diode, and fails where host-ready is late (18 R595). -/
theorem exec_hostReadyTimeout (hphase : s.sys.phase = .released) (hstep : s.sys.step ≠ 1) :
    exec .hostReadyTimeout s = .next (failStart 4 s) :=
  congrArg Host.Outcome.next (if_pos ⟨hphase, by simp [hstep]⟩)

end

/-- Settles O31: a start whose checks pass, one that a check fails, one that waits for its diodes, and one that is late are the
outcomes of the steps from step 1, which leaves FAILS, the fuses and what has left the device. -/
theorem coldStartReachesHostReady : Obligations.ColdStartReachesHostReady := by
  intro inp s hrails hphase cool authentic
  have hcool : tooHot (atStepOne inp s) = false ↔ cool := tooHot_atStepOne
  have hauth : imageAuthentic inp s = true ↔ authentic := imageAuthentic_iff
  obtain ⟨hph, hstep, hfails, hfuses, hout, hdev, htime⟩ := atStepOne_facts (inp := inp) hphase
  refine ⟨?ready, ?failed, ?hot, ?late⟩
  case ready =>
    intro hc hf ha hh ht
    obtain ⟨rphase, rready, rfails, rprofile, rfuses, rdevice, rbind, rcfg, rcmds, rhbm, rtime, rpins, rstalls⟩ :=
      coldReady_facts (inp := inp) (s := atStepOne inp s)
    refine ⟨_, exec_coldStart_ready hphase hrails (hcool.mpr hc) hf (hauth.mpr ha) hh ht, rphase, rready, rfails, rprofile,
      rfuses.trans hfuses, rdevice.trans hdev, rbind, rcfg, rcmds, rhbm, rtime.trans htime, rpins, fun u => ?_,
      fun f hf _ => stall_of_drop rstalls hf⟩
    rw [ownerOf, epochOf, rbind]
    exact ⟨rfl, rfl⟩
  case failed =>
    rintro code ⟨hc, hcode⟩
    rw [← hauth, Bool.not_eq_true] at hcode
    obtain ⟨fcode, ffuses, -, fhalt, fnext⟩ := failStart_facts (code := code) (s := atStepOne inp s)
    rw [hfails, hout] at fhalt fnext
    exact ⟨_, exec_coldStart_failed hphase hrails (hcool.mpr hc) hcode, fcode, ffuses.trans hfuses, fhalt, fnext⟩
  case hot =>
    intro hc
    rw [← hcool, Bool.not_eq_false] at hc
    exact ⟨_, exec_coldStart_hot hphase hrails hc, hph, hfails, hstep, hout⟩
  case late =>
    intro hrel hne
    obtain ⟨fcode, -, fhbm, fhalt, fnext⟩ := failStart_facts (code := 4) (s := s)
    refine ⟨_, exec_hostReadyTimeout hrel hne, fcode, fhbm, fun h3 => ?_, fun h3 => ?_⟩
    · obtain ⟨hhalted, -, huart⟩ := fhalt h3
      exact ⟨hhalted, huart⟩
    · obtain ⟨hreleased, hcount, hquiet⟩ := fnext h3
      exact ⟨hcount, hreleased, hquiet⟩

end Sys2Proof.Machine
end

section
/-! The hash of HBM addresses (10 R366, R367): it turns over bits 8 to 19 alone and reads bits 20 and up alone, so it undoes
itself; and MEM.HASH with a mask outside [35:20] fails at the first of its checks. -/
namespace Sys2Proof.Machine

open Sys2Proof

section
variable {masks : List Nat} {a b m n k : Nat} {x : Location}

/-! ## The bits that the hash turns over -/

theorem parity_le_one : parity a ≤ 1 := Nat.le_of_lt_succ (Nat.mod_lt _ two_pos)

theorem eight_le_hashedBit : 8 ≤ hashedBit k := by
  unfold hashedBit; split <;> omega

/-- The ten masks hash ten different bits below the row, so what they turn over stays below it. -/
theorem hashDelta_lt_row (hlen : masks.length = 10) : hashDelta masks a < 2 ^ 20 := by
  have hbits : masks.zipIdx.map (fun e => 2 ^ hashedBit e.2) = (List.range 10).map (2 ^ hashedBit ·) := by
    rw [← hlen, List.range_eq_range', ← List.zipIdx_map_snd, List.map_map]; rfl
  calc hashDelta masks a
      ≤ (masks.zipIdx.map fun e => 2 ^ hashedBit e.2).sum :=
        List.sum_le_sum fun _ _ => mul_le_of_le_one_left (Nat.zero_le _) parity_le_one
    _ = ((List.range 10).map (2 ^ hashedBit ·)).sum := congrArg List.sum hbits
    _ < 2 ^ 20 := by decide

/-- The byte within an interleave unit is not hashed. -/
theorem hashDelta_mod_unit : hashDelta masks a % 2 ^ 8 = 0 := by
  refine Nat.mod_eq_zero_of_dvd (List.dvd_sum fun x hx => ?_)
  obtain ⟨e, -, rfl⟩ := List.mem_map.mp hx
  exact (pow_dvd_pow 2 eight_le_hashedBit).mul_left _

/-- A mask that sets no bit below `n` sees the bits from `n` up alone. -/
theorem and_mask_congr (hm : m % 2 ^ n = 0) (h : a / 2 ^ n = b / 2 ^ n) : a &&& m = b &&& m := by
  refine Nat.ext_div_mod (n := 2 ^ n) ?_ ?_
  · rw [Nat.and_div_two_pow, Nat.and_div_two_pow, h]
  · rw [Nat.and_mod_two_pow, Nat.and_mod_two_pow, hm, Nat.and_zero, Nat.and_zero]

theorem hashDelta_congr (hmasks : ∀ m ∈ masks, m % 2 ^ 20 = 0) (h : a / 2 ^ 20 = b / 2 ^ 20) :
    hashDelta masks a = hashDelta masks b := by
  refine congrArg List.sum (List.map_congr_left fun e he => ?_)
  rw [and_mask_congr (hmasks e.1 (List.fst_mem_of_mem_zipIdx he)) h]

/-! ## The hashed address -/

/-- The row and the stack ID are not hashed. -/
theorem hashAddr_div_row (hlen : masks.length = 10) : hashAddr masks a / 2 ^ 20 = a / 2 ^ 20 := by
  rw [hashAddr, Nat.xor_div_two_pow, Nat.div_eq_of_lt (hashDelta_lt_row hlen), Nat.xor_zero]

theorem hashAddr_mod_unit : hashAddr masks a % 2 ^ 8 = a % 2 ^ 8 := by
  rw [hashAddr, Nat.xor_mod_two_pow, hashDelta_mod_unit, Nat.xor_zero]

/-- The hash leaves the bits that it reads, so a second hash turns the same bits back. -/
theorem hashAddr_involutive (hlen : masks.length = 10) (hmasks : ∀ m ∈ masks, m % 2 ^ 20 = 0) :
    Function.Involutive (hashAddr masks) := by
  intro a
  have hdelta : hashDelta masks (hashAddr masks a) = hashDelta masks a :=
    hashDelta_congr hmasks (hashAddr_div_row hlen)
  rw [hashAddr, hdelta, hashAddr, Nat.xor_xor_cancel_right]

/-! ## The place of an address -/

/-- Inside the map a place is the hashed address without its byte, cut into fields (10 R365). -/
theorem location_eq_some (h : location masks a = some x) :
    x.pc = hashAddr masks a / 2 ^ 8 % 64 ∧ x.column = hashAddr masks a / 2 ^ 14 % 4 ∧ x.bank = hashAddr masks a / 2 ^ 16 % 4 ∧
    x.group = hashAddr masks a / 2 ^ 18 % 4 ∧ x.row = hashAddr masks a / 2 ^ 20 % 2 ^ 14 ∧
    x.stackId = hashAddr masks a / 2 ^ 34 := by
  unfold location at h
  split at h
  · cases h
  · cases h
    exact ⟨rfl, rfl, rfl, rfl, rfl, rfl⟩

theorem location_row_stackId (hlen : masks.length = 10) (h : location masks a = some x) :
    x.row = a / 2 ^ 20 % 2 ^ 14 ∧ x.stackId = a / 2 ^ 34 := by
  obtain ⟨-, -, -, -, hrow, hstack⟩ := location_eq_some h
  have hkept := hashAddr_div_row (a := a) hlen
  omega

/-- A place holds all bits of the hashed address but the byte within its interleave unit. -/
theorem hashAddr_div_unit_of_location (ha : location masks a = some x) (hb : location masks b = some x) :
    hashAddr masks a / 2 ^ 8 = hashAddr masks b / 2 ^ 8 := by
  have hfieldsA := location_eq_some ha
  have hfieldsB := location_eq_some hb
  omega

/-- Two addresses with one place and one byte in its interleave unit are the same. -/
theorem location_injective (hlen : masks.length = 10) (hmasks : ∀ m ∈ masks, m % 2 ^ 20 = 0)
    (ha : location masks a = some x) (hb : location masks b = some x) (hbyte : a % 2 ^ 8 = b % 2 ^ 8) : a = b := by
  refine (hashAddr_involutive hlen hmasks).injective (Nat.ext_div_mod (n := 2 ^ 8) ?_ ?_)
  · exact hashAddr_div_unit_of_location ha hb
  · rw [hashAddr_mod_unit, hashAddr_mod_unit, hbyte]

end

section
variable {r : CmdRef} {s : State} {c : Cmd} {k : Nat} {lay : List Fld} {region : List Byte} {more : List Nat}
  {bulkLen key : Nat} {size s11 : Option Reply}

/-! ## The refusal of MEM.HASH -/

/-- A faulty offset fails step 7 (02 R53). -/
theorem blockFault_of_mem (h : k ∈ more) : ∃ off, blockFault lay region more = some (badParam off) := by
  have hmem := List.mem_append_right (fieldFaults lay region) h
  obtain ⟨o, l, hl⟩ := List.exists_cons_of_ne_nil (List.ne_nil_of_mem hmem)
  exact ⟨l.foldl min o, by rw [blockFault, hl, lowestFault]⟩

/-- Step 7 comes before the others (02 R50). -/
theorem stagedCheck_of_mem (h : k ∈ more) :
    ∃ off, stagedCheck lay bulkLen key more size s11 s c = some (badParam off) := by
  obtain ⟨off, hoff⟩ := blockFault_of_mem (lay := lay) (region := c.region)
    (List.mem_append_left (bufferFaults s c.opcode key c.region) h)
  exact ⟨off, by simp only [stagedCheck, inOrder, hoff, firstFail]⟩

/-- A refusal for a field keeps the state's free values. -/
theorem refuse_badParam {off : Nat} : refuse c (badParam off) s = complete c (badParam off) s := rfl

/-- A mask that sets a bit outside [35:20] is a fault where DEFAULTS does not ignore the masks (10 R369). -/
theorem mem_hashFaults (hk : k < 10) (hown : bit (fieldAt region 0x50 1) 0 = false)
    (hmask : fieldAt region (8 * k) 8 % 2 ^ 20 ≠ 0 ∨ 2 ^ 36 ≤ fieldAt region (8 * k) 8) : 8 * k ∈ hashFaults region := by
  rw [hashFaults, hown, if_neg Bool.false_ne_true]
  refine List.mem_map_of_mem (List.mem_filter.mpr ⟨List.mem_range.mpr hk, ?_⟩)
  simpa only [Bool.or_eq_true, bne_iff_ne, decide_eq_true_eq] using hmask

theorem exec_memHash_of_fault (hstart : startable s r 0x5001 = some c) (hfault : k ∈ hashFaults c.region) :
    ∃ off, exec (.memHash r) s = .next (complete c (badParam off) s) := by
  obtain ⟨off, hoff⟩ : ∃ off, checkMemHash s c = some (badParam off) := stagedCheck_of_mem hfault
  exact ⟨off, congrArg Host.Outcome.next ((runCmd_refused hstart hoff).trans refuse_badParam)⟩

end

/-- Settles O56: the hash undoes itself, a place gives the hashed address back but for the byte in its unit, and a mask outside
[35:20] is a fault of the block. -/
theorem hashKeepsAddressesApart : Obligations.HashKeepsAddressesApart := by
  refine ⟨fun masks a hlen hmasks => ⟨hashAddr_involutive hlen hmasks a, hashAddr_div_row hlen,
    fun x hx => location_row_stackId hlen hx, fun b hin hsame hbyte => ?apart⟩,
    fun r s c k hstart hk hown hmask => ?refused⟩
  case apart =>
    obtain ⟨x, hx⟩ := Option.ne_none_iff_exists'.mp hin
    exact location_injective hlen hmasks hx (hsame ▸ hx) hbyte
  case refused =>
    obtain ⟨off, hexec⟩ := exec_memHash_of_fault hstart (mem_hashFaults hk hown hmask)
    have hstatus : (badParam off).status ≠ 0 := by simp [badParam]
    exact ⟨badParam off, hstatus, hexec⟩

end Sys2Proof.Machine
end

section
/-! Credited queues (11): what a change of one queue leaves, the cost of packets, and that no report, completion or tether packet
touches a queue. -/
namespace Sys2Proof.Machine

open Sys2Proof

section
variable {q n cls code inst : Nat} {frame : Option Nat} {g : Queue → Queue} {x : Queue} {s t : State}
variable {c : Cmd} {rep : Reply} {data : List Byte}

/-! ## A queue after a change -/

/-- A queue that differs from one never configured is listed, in canonical form or not. -/
theorem queue_modQueue_of_ne (h : g (queue s q) ≠ {}) : queue (modQueue q g s) q = g (queue s q) := by
  simp [queue, modQueue, Tbl.put, show g (Tbl.get {} s.queues q) ≠ {} from h]

theorem queue_modQueue_of_configured (h : (g (queue s q)).configured = true) : queue (modQueue q g s) q = g (queue s q) :=
  queue_modQueue_of_ne fun he => by simp [he] at h

theorem queue_modQueue_of_flushDue (h : (g (queue s q)).flushDue = true) : queue (modQueue q g s) q = g (queue s q) :=
  queue_modQueue_of_ne fun he => by simp [he] at h

/-- States with the same list have the same queues. -/
theorem queue_congr (h : t.queues = s.queues) : queue t q = queue s q := by
  unfold queue; rw [h]

/-! ## What touches no queue -/

@[simp] theorem complete_queues : (complete c rep s).queues = s.queues := by rw [complete_eq]

@[simp] theorem unitEvent_queues : (unitEvent code cls inst frame n s).queues = s.queues := by rw [unitEvent_eq]

@[simp] theorem raise_queues : (raise n s).queues = s.queues := by rw [raise_eq]

@[simp] theorem refuse_queues : (refuse c rep s).queues = s.queues := by
  unfold refuse; split <;> simp

@[simp] theorem startLeavesSafe_queues : (startLeavesSafe cls inst s).queues = s.queues := rfl

/-- The completions of several commands with one reply. -/
theorem foldl_complete_queues {l : List Cmd} : (l.foldl (fun t c => complete c rep t) s).queues = s.queues := by
  induction l generalizing s with
  | nil => rfl
  | cons c l ih => exact ih.trans complete_queues

/-! ## The cost of packets (11 R391) -/

theorem packetCost_eq : packetCost data = (data.length + 63) / 64 := rfl

theorem unitsOfPackets_cons {l : List (List Byte)} : unitsOfPackets (data :: l) = packetCost data + unitsOfPackets l := rfl

theorem unitsOfPackets_append {l m : List (List Byte)} : unitsOfPackets (l ++ m) = unitsOfPackets l + unitsOfPackets m := by
  simp [unitsOfPackets]

theorem crosses_iff : crosses x n = true ↔ x.occ ≤ x.level / 64 ∧ x.level / 64 < x.occ + n := by
  simp [crosses]

/-- What a flush leaves of the packets: the one being read. -/
theorem unitsOfPackets_kept_add_flushed :
    unitsOfPackets (if x.reading then x.packets.take 1 else []) + unitsOfPackets (flushed x) = unitsOfPackets x.packets := by
  unfold flushed
  split
  · rw [← unitsOfPackets_append, List.take_append_drop]
  · exact Nat.zero_add _

end

/-! ## A packet on its route (14 R491) -/

section
variable {q n p cls d : Nat} {bcast : Bool} {b : TthBody} {s : State}

theorem tthSend_sys : (tthSend p cls b d bcast s).sys = s.sys := by rw [tthSend_eq]

/-- A port that a packet takes the next number of its class from; `x` is the port before (14 R477-R479). -/
def portTakes (cls : Nat) (b : TthBody) (route : Nat) (x y : TthPort) : TthPort :=
  { y with txSeq := Tbl.set y.txSeq cls ((Tbl.get 0 x.txSeq cls + 1) % 65536)
           window := if tthKept cls b then Tbl.set y.window cls (Tbl.get [] x.window cls ++ [(Tbl.get 0 x.txSeq cls, b, route)])
             else y.window }

theorem tthPut_tth {route : Nat} :
    (tthPut p cls b route s).tth = (modPort p (portTakes cls b route (tthPort s p)) s).tth := by
  unfold tthPut
  dsimp only
  split <;> rfl

theorem tthPut_ports_length {route : Nat} : (tthPut p cls b route s).tth.ports.length = s.tth.ports.length := by
  rw [tthPut_tth]; exact List.length_modify ..

/-- A tether packet that is kept joins its port's window of its class. -/
theorem tthPut_window {route : Nat} (hkept : tthKept cls b = true) (hp : p < s.tth.ports.length) :
    (Tbl.get [] (tthPort (tthPut p cls b route s) p).window cls).map (·.2.1) =
      (Tbl.get [] (tthPort s p).window cls).map (·.2.1) ++ [b] := by
  have hport : tthPort (tthPut p cls b route s) p = portTakes cls b route (tthPort s p) (tthPort s p) :=
    (congrArg (fun t : Tth => t.ports.getD p {}) tthPut_tth).trans (tthPort_modPort hp)
  simp [hport, portTakes, hkept]

/-- Packets sent one after another towards a device. -/
def sendAll {α : Type} (cls d : Nat) (body : α → TthBody) (l : List α) (s : State) : State :=
  l.foldl (fun t e => tthSend (portTo t d) cls (body e) d false t) s

/-- They change what has left the device and the tether. -/
theorem sendAll_eq {α : Type} {body : α → TthBody} {l : List α} : sendAll cls d body l s =
    { s with out := (sendAll cls d body l s).out, tth := (sendAll cls d body l s).tth } := by
  induction l generalizing s with
  | nil => rfl
  | cons e l ih =>
    have hcons : sendAll cls d body (e :: l) s = sendAll cls d body l (tthSend (portTo s d) cls (body e) d false s) := rfl
    rw [hcons, ih, tthSend_eq]

/-- They join the window in their order. -/
theorem sendAll_window {α : Type} {body : α → TthBody} (hkept : ∀ e, tthKept cls (body e) = true) {l : List α}
    (hp : portTo s d < s.tth.ports.length) :
    (Tbl.get [] (tthPort (sendAll cls d body l s) (portTo s d)).window cls).map (·.2.1) =
      (Tbl.get [] (tthPort s (portTo s d)).window cls).map (·.2.1) ++ l.map body := by
  induction l generalizing s with
  | nil => simp [sendAll]
  | cons e l ih =>
    have hport : portTo (tthSend (portTo s d) cls (body e) d false s) d = portTo s d := by unfold portTo; rw [tthSend_sys]
    have hwin := tthPut_window (route := s.sys.device + 4 * d + 16 * b2n false) (hkept e) hp
    have hrest := ih (s := tthSend (portTo s d) cls (body e) d false s) (by rw [hport, tthSend, tthPut_ports_length]; exact hp)
    rw [hport, tthSend, hwin, List.append_assoc] at hrest
    exact hrest

/-- The piece of a packet that goes to queue `n`, and whether it is the last of `count`. -/
def routePiece (n count : Nat) (e : List Byte × Nat) : TthBody := .route n (e.2 + 1 == count) e.1

/-- A queue whose consumer is not the tether sends nothing. -/
theorem sendRoute_of_not_tether (h : (queue s q).cons.1 ≠ 0x80) : sendRoute q s = s := if_pos h

/-- A routed queue sends the pieces of its oldest packet. -/
theorem sendRoute_routed {p : List Byte} {l : List (List Byte)} (hcons : (queue s q).cons.1 = 0x80)
    (hroute : routeDest s q = some (d, n)) (hpackets : (queue s q).packets = p :: l) :
    sendRoute q s = sendAll 4 d (routePiece n (pieces 2048 p).length) (pieces 2048 p).zipIdx s := by
  simp [sendRoute, hcons, hroute, hpackets, sendAll, routePiece]

/-- A queue without a route, or without a packet, sends nothing. -/
theorem sendRoute_of_none (h : routeDest s q = none ∨ (queue s q).packets = []) : sendRoute q s = s := by
  rcases h with h | h <;> simp [sendRoute, h]

theorem sendRoute_eq : sendRoute q s = { s with out := (sendRoute q s).out, tth := (sendRoute q s).tth } := by
  by_cases hcons : (queue s q).cons.1 = 0x80
  · cases hroute : routeDest s q with
    | none => rw [sendRoute_of_none (.inl hroute)]
    | some dest =>
      cases hpackets : (queue s q).packets with
      | nil => rw [sendRoute_of_none (.inr hpackets)]
      | cons p l => rw [sendRoute_routed hcons hroute hpackets, sendAll_eq]
  · rw [sendRoute_of_not_tether hcons]

theorem sendRoute_queues : (sendRoute q s).queues = s.queues := by rw [sendRoute_eq]

end

end Sys2Proof.Machine
end

section
/-! The commands of a credited queue (11 R391 to R408): what each leaves of its queue. -/
namespace Sys2Proof.Machine

open Sys2Proof

section
variable {q k : Nat} {data p : List Byte} {l : List (List Byte)} {r : CmdRef} {c : Cmd} {s : State}

/-! ## QUEUE.CONFIGURE, QUEUE.FLUSH, QUEUE.STATUS -/

/-- A queue configured under a block, its unit out of its safe state (03 R96). -/
def queueConfigured (c : Cmd) (s : State) : State := startLeavesSafe 0x51 c.target (modQueue c.target (queueOf c.region) s)

theorem exec_queueConfigure (hstart : startable s r 0x5101 = some c) (hpass : queueCheck s c = none) :
    exec (.queueConfigure r) s = .next (complete c {} (queueConfigured c s)) :=
  congrArg Host.Outcome.next (runCmd_effect hstart hpass)

theorem queueConfigured_frame : queueConfigured c s =
    { s with queues := (queueConfigured c s).queues, bind := { s.bind with safe := (queueConfigured c s).bind.safe } } := rfl

theorem queue_queueConfigured : queue (queueConfigured c s) c.target = queueOf c.region (queue s c.target) :=
  (queue_congr startLeavesSafe_queues).trans (queue_modQueue_of_configured rfl)

theorem queue_queueConfigured_ne (h : k ≠ c.target) : queue (queueConfigured c s) k = queue s k :=
  (queue_congr startLeavesSafe_queues).trans (queue_modQueue_ne h)

/-- A queue with one more flush that waits. -/
def flushOrdered (c : Cmd) (x : Queue) : Queue := { x with flushes := x.flushes ++ [⟨c.fn, c.seq⟩], flushDue := true }

theorem exec_queueFlush (hstart : startable s r 0x5102 = some c) (hpass : checkQueueFlush s c = none) :
    exec (.queueFlush r) s = .next (setWaiting c (modQueue c.target (flushOrdered c) s)) :=
  congrArg Host.Outcome.next (runCmd_effect hstart hpass)

theorem exec_queueStatus (hstart : startable s r 0x5103 = some c) (hpass : checkQueueStatus s c = none) :
    exec (.queueStatus r) s = .next (complete c (okReply (queueStatus0 s c.target) (queueStatus1 s c.target)) s) :=
  congrArg Host.Outcome.next (runCmd_effect hstart hpass)

/-! ## Packets -/

theorem queueTakes_iff : queueTakes s q data = true ↔ (queue s q).configured = true ∧ data.length ≤ (queue s q).maxPacket ∧
    packetCost data ≤ (queue s q).credits ∧ safeOf s (myUnit s 0x51 q) ≠ 2 := by
  simp [queueTakes, and_assoc]

theorem exec_queuePacketWrite (hclock : enginesClocked s = true) (hdata : data ≠ []) : exec (.queuePacketWrite q data) s =
    .next (if queueTakes s q data then queueWrite q data s else s) := by
  have hlen : 0 < data.length := List.length_pos_iff.mpr hdata
  simp [exec, execQueuePacketWrite, hclock, hlen]

theorem queueWrite_crossing (h : crosses (queue s q) (packetCost data) = true) : queueWrite q data s =
    if (queue s q).level = 0 then modQueue q (queueAdd data) s else raise (368 + q) (modQueue q (queueAdd data) s) := by
  by_cases hlevel : (queue s q).level = 0
  · simp [queueWrite, hlevel]
  · simp [queueWrite, h, hlevel]

theorem queueWrite_not_crossing (h : ¬ crosses (queue s q) (packetCost data) = true) :
    queueWrite q data s = modQueue q (queueAdd data) s := if_neg fun hc => h hc.1

/-- A write changes the queues, and what the notice of a crossing changes. -/
theorem queueWrite_queues : (queueWrite q data s).queues = (modQueue q (queueAdd data) s).queues := by
  unfold queueWrite; split
  · exact raise_queues
  · rfl

theorem consumerReads_iff : consumerReads s q = true ↔
    (queue s q).reading = true ∨ (queue s q).cons.1 = 0x80 ∧ (routeDest s q).isSome = true := by
  simp [consumerReads]

theorem exec_queuePacketFree_idle (h : consumerReads s q = false) : exec (.queuePacketFree q) s = .next s := by
  simp [exec, execQueuePacketFree, h]

theorem exec_queuePacketFree (hclock : enginesClocked s = true) (hconf : (queue s q).configured = true)
    (hpackets : (queue s q).packets = p :: l) (hreads : consumerReads s q = true) :
    exec (.queuePacketFree q) s = .next (modQueue q queueFree (sendRoute q s)) := by
  simp [exec, execQueuePacketFree, hclock, hconf, hpackets, hreads]

theorem queueFree_cons {x : Queue} (h : x.packets = p :: l) : queueFree x =
    { x with packets := l, occ := x.occ - packetCost p, returning := x.returning + packetCost p, reading := false } := by
  simp [queueFree, h]

theorem queueFree_configured {x : Queue} : (queueFree x).configured = x.configured := by
  unfold queueFree; split <;> rfl

/-- The freed queue, whatever its packet did on the tether. -/
theorem queue_free (hconf : (queue s q).configured = true) :
    queue (modQueue q queueFree (sendRoute q s)) q = queueFree (queue s q) := by
  have hsame : queue (sendRoute q s) q = queue s q := queue_congr sendRoute_queues
  rw [queue_modQueue_of_configured (by rw [hsame, queueFree_configured, hconf]), hsame]

theorem queue_free_ne (h : k ≠ q) : queue (modQueue q queueFree (sendRoute q s)) k = queue s k :=
  (queue_modQueue_ne h).trans (queue_congr sendRoute_queues)

/-- Freeing a packet changes the queues, the tether, and what has left the device. -/
theorem modQueue_sendRoute_eq : modQueue q queueFree (sendRoute q s) =
    { s with queues := (modQueue q queueFree (sendRoute q s)).queues, tth := (modQueue q queueFree (sendRoute q s)).tth
             out := (modQueue q queueFree (sendRoute q s)).out } := by
  rw [sendRoute_eq]; rfl

/-! ## Credits on their way, and flushes at a packet boundary -/

/-- A queue whose credits have come back. -/
def creditsBack (x : Queue) : Queue := { x with credits := x.credits + x.returning, returning := 0 }

theorem exec_creditReturn (hclock : enginesClocked s = true) (h : 0 < (queue s q).returning) :
    exec (.creditReturn q) s = .next (modQueue q creditsBack s) :=
  congrArg Host.Outcome.next (if_pos (by simp [hclock, h]))

theorem exec_queueFlushed (hclock : enginesClocked s = true) (hdue : (queue s q).flushDue = true) :
    exec (.queueFlushed q) s = .next (flushQueue q s) :=
  congrArg Host.Outcome.next (if_pos (by simp [hclock, hdue]))

/-- The event and the completions of a flush touch no queue. -/
theorem flushQueue_queues : (flushQueue q s).queues = (modQueue q queueFlush s).queues :=
  foldl_complete_queues.trans unitEvent_queues

/-- A flush that no command waits for is the discard and its event. -/
theorem flushQueue_of_none_waiting (h : (queue s q).flushes = []) :
    flushQueue q s = unitEvent 0x5101 0x51 q none (flushDetail (queue s q)) (modQueue q queueFlush s) := by
  simp [flushQueue, h]

end

/-! ## The clauses -/

/-- Settles O37: each command changes its own queue as the model's `queueOf`, `queueAdd`, `queueFree` and `queueFlush` say, and a
packet on its route joins the tether's window in pieces. -/
theorem queuePacketsMoveCredits : Obligations.QueuePacketsMoveCredits := by
  refine ⟨fun r s c => ⟨?configure, ?flush, ?status⟩, fun q data s hclock hdata hconf => ⟨?written, ?notWritten⟩,
    fun q s hclock hconf => ⟨?notRead, ?free, ?route, ?credit, ?flushed⟩⟩
  case configure =>
    intro hstart hpass
    exact ⟨_, exec_queueConfigure hstart hpass, queueConfigured_frame, fun _ => queue_queueConfigured_ne, queue_queueConfigured⟩
  case flush =>
    intro hstart hpass
    exact ⟨_, exec_queueFlush hstart hpass, rfl, queue_modQueue_of_flushDue rfl, fun _ => queue_modQueue_ne⟩
  case status =>
    intro hstart hpass
    exact exec_queueStatus hstart hpass
  case written =>
    intro hlen hcost hsafe
    have hexec : exec (.queuePacketWrite q data) s = .next (queueWrite q data s) :=
      (exec_queuePacketWrite hclock hdata).trans
        (congrArg Host.Outcome.next (if_pos (queueTakes_iff.mpr ⟨hconf, hlen, hcost, hsafe⟩)))
    refine ⟨modQueue q (queueAdd data) s, queueAdd data (queue s q), rfl, rfl, queue_modQueue_of_configured hconf,
      fun _ => queue_modQueue_ne, fun hcross => ⟨?_, ?_⟩, fun hcross => ⟨?_, ?_⟩⟩
    · exact if_pos (crosses_iff.mpr hcross)
    · rw [hexec, queueWrite_crossing (crosses_iff.mpr hcross)]
    · exact if_neg (mt crosses_iff.mp hcross)
    · rw [hexec, queueWrite_not_crossing (mt crosses_iff.mp hcross)]
  case notWritten =>
    intro h
    rw [exec_queuePacketWrite hclock hdata, if_neg]
    intro htakes
    obtain ⟨-, hlen, hcost, -⟩ := queueTakes_iff.mp htakes
    rw [packetCost_eq] at hcost
    omega
  case notRead =>
    intro hreading hcons
    exact exec_queuePacketFree_idle (Bool.eq_false_iff.mpr fun h => by simp [consumerReads_iff, hreading, hcons] at h)
  case free =>
    intro p l hpackets hcons hreading
    refine ⟨_, exec_queuePacketFree hclock hconf hpackets (consumerReads_iff.mpr (.inl hreading)), ?_,
      (queue_free hconf).trans (queueFree_cons hpackets), fun _ => queue_free_ne⟩
    rw [sendRoute_of_not_tether hcons]
    rfl
  case route =>
    intro p l d n hpackets hcons hroute hport
    refine ⟨_, exec_queuePacketFree hclock hconf hpackets (consumerReads_iff.mpr (.inr ⟨hcons, by simp [hroute]⟩)),
      modQueue_sendRoute_eq, (queue_free hconf).trans (queueFree_cons hpackets), fun _ => queue_free_ne, ?_⟩
    rw [sendRoute_routed hcons hroute hpackets]
    exact sendAll_window (fun _ => rfl) hport
  case credit =>
    intro hreturning
    exact ⟨_, exec_creditReturn hclock hreturning, rfl, queue_modQueue_of_configured hconf, fun _ => queue_modQueue_ne⟩
  case flushed =>
    intro hdue hnone
    refine ⟨modQueue q queueFlush s, ?_, rfl, fun _ => queue_modQueue_ne, ?_⟩
    · rw [exec_queueFlushed hclock hdue, flushQueue_of_none_waiting hnone]
      rfl
    · rw [queue_modQueue_of_configured hconf, hnone]
      rfl

end Sys2Proof.Machine
end

section
/-! The conservation of credits (11 R392): every command of a queue keeps that its occupancy is the cost of its packets, and that
credits, occupancy and credits on their way make K. -/
namespace Sys2Proof.Machine

open Sys2Proof

section
variable {q op : Nat} {data b : List Byte} {r : CmdRef} {c : Cmd} {x : Queue} {s t : State} {g : Queue → Queue}

/-! ## One queue -/

/-- What 11 R392 says of one queue. -/
def CreditsConserved (x : Queue) : Prop := x.occ = unitsOfPackets x.packets ∧ x.credits + x.occ + x.returning = x.limit

theorem queueOf_conserves : CreditsConserved (queueOf b x) := ⟨rfl, rfl⟩

theorem flushOrdered_conserves (h : CreditsConserved x) : CreditsConserved (flushOrdered c x) := h

/-- A producer that holds the cost turns credits into occupancy. -/
theorem queueAdd_conserves (h : CreditsConserved x) (hcost : packetCost data ≤ x.credits) :
    CreditsConserved (queueAdd data x) := by
  obtain ⟨hocc, hsum⟩ := h
  refine ⟨?_, ?_⟩
  · simp [queueAdd, hocc, unitsOfPackets]
  · simp only [queueAdd]; omega

/-- The oldest packet's cost is part of the occupancy. -/
theorem queueFree_conserves (h : CreditsConserved x) : CreditsConserved (queueFree x) := by
  obtain ⟨hocc, hsum⟩ := h
  cases hp : x.packets with
  | nil => rw [show queueFree x = x by simp [queueFree, hp]]; exact ⟨hocc, hsum⟩
  | cons p l =>
    rw [hp, unitsOfPackets_cons] at hocc
    rw [queueFree_cons hp]
    refine ⟨?_, ?_⟩ <;> dsimp only <;> omega

theorem creditsBack_conserves (h : CreditsConserved x) : CreditsConserved (creditsBack x) := by
  obtain ⟨hocc, hsum⟩ := h
  exact ⟨hocc, by simp only [creditsBack]; omega⟩

/-- A flush splits the occupancy into what stays and what it discards. -/
theorem queueFlush_conserves (h : CreditsConserved x) : CreditsConserved (queueFlush x) := by
  obtain ⟨hocc, hsum⟩ := h
  have hsplit := unitsOfPackets_kept_add_flushed (x := x)
  refine ⟨?_, ?_⟩ <;> simp only [queueFlush] <;> omega

/-! ## Every queue -/

/-- 11 R392 of every queue, their list in canonical form. -/
def AllConserved (s : State) : Prop := Tbl.wf s.queues = true ∧ ∀ q, CreditsConserved (queue s q)

theorem AllConserved.congr (h : AllConserved s) (hq : t.queues = s.queues) : AllConserved t := by
  obtain ⟨hwf, hall⟩ := h
  exact ⟨hq ▸ hwf, fun k => queue_congr (q := k) hq ▸ hall k⟩

/-- A change that conserves its own queue's credits conserves every queue's. -/
theorem modQueue_conserves (h : AllConserved s) (hg : CreditsConserved (queue s q) → CreditsConserved (g (queue s q))) :
    AllConserved (modQueue q g s) := by
  obtain ⟨hwf, hall⟩ := h
  refine ⟨Tbl.wf_put hwf, fun k => ?_⟩
  by_cases hk : k = q
  · subst hk; rw [queue_modQueue hwf]; exact hg (hall k)
  · rw [queue_modQueue_ne hk]; exact hall k

/-- A command whose effect conserves credits does so too where it is refused, or is not there. -/
theorem runCmd_conserves {chk : State → Cmd → Option Reply} {eff : Cmd → State → State} (h : AllConserved s)
    (heff : ∀ c, AllConserved (eff c s)) : AllConserved (runCmd r op chk eff s) := by
  cases hstart : startable s r op with
  | none => rw [runCmd_none hstart]; exact h
  | some c =>
    cases hchk : chk s c with
    | none => rw [runCmd_effect hstart hchk]; exact heff c
    | some rep => rw [runCmd_refused hstart hchk]; exact h.congr refuse_queues

/-- What happens only under a condition. -/
theorem ite_conserves {cond : Prop} [Decidable cond] (h : AllConserved s) (ht : cond → AllConserved t) :
    AllConserved (if cond then t else s) := by
  split
  · next hcond => exact ht hcond
  · exact h

/-! ## The commands -/

theorem execQueueConfigure_conserves (h : AllConserved s) (he : exec (.queueConfigure r) s = .next t) : AllConserved t := by
  obtain rfl := Host.Outcome.next.inj he
  refine runCmd_conserves h fun c => ?_
  exact (modQueue_conserves h fun _ => queueOf_conserves).congr (t := effectQueueConfigure c s) complete_queues

theorem execQueueFlush_conserves (h : AllConserved s) (he : exec (.queueFlush r) s = .next t) : AllConserved t := by
  obtain rfl := Host.Outcome.next.inj he
  refine runCmd_conserves h fun c => ?_
  exact (modQueue_conserves h flushOrdered_conserves).congr (t := effectQueueFlush c s) setWaiting_queues

theorem execQueueStatus_conserves (h : AllConserved s) (he : exec (.queueStatus r) s = .next t) : AllConserved t := by
  obtain rfl := Host.Outcome.next.inj he
  exact runCmd_conserves h fun _ => h.congr complete_queues

theorem execQueuePacketWrite_conserves (h : AllConserved s) (he : exec (.queuePacketWrite q data) s = .next t) :
    AllConserved t := by
  obtain rfl := Host.Outcome.next.inj he
  refine ite_conserves h fun hcond => ?_
  obtain ⟨-, -, hcost, -⟩ := queueTakes_iff.mp ((Bool.and_eq_true ..).mp hcond).2
  exact (modQueue_conserves h fun hx => queueAdd_conserves hx hcost).congr queueWrite_queues

theorem execQueuePacketFree_conserves (h : AllConserved s) (he : exec (.queuePacketFree q) s = .next t) : AllConserved t := by
  obtain rfl := Host.Outcome.next.inj he
  exact ite_conserves h fun _ => modQueue_conserves (h.congr sendRoute_queues) queueFree_conserves

theorem execCreditReturn_conserves (h : AllConserved s) (he : exec (.creditReturn q) s = .next t) : AllConserved t := by
  obtain rfl := Host.Outcome.next.inj he
  exact ite_conserves h fun _ => modQueue_conserves h creditsBack_conserves

theorem execQueueFlushed_conserves (h : AllConserved s) (he : exec (.queueFlushed q) s = .next t) : AllConserved t := by
  obtain rfl := Host.Outcome.next.inj he
  exact ite_conserves h fun _ => (modQueue_conserves h queueFlush_conserves).congr flushQueue_queues

end

/-- Settles O38: a configured queue starts with all K credits and no occupancy, and the queue's own commands conserve credits. -/
theorem queueCreditsConserved : Obligations.QueueCreditsConserved := by
  refine ⟨fun r s c hstart hpass => ?configured, fun r q data s t => ?conserved⟩
  case configured =>
    have hsame (k : Nat) : queue (complete c {} (queueConfigured c s)) k = queue (queueConfigured c s) k :=
      queue_congr complete_queues
    refine ⟨_, exec_queueConfigure hstart hpass, ?_, fun k hk => (hsame k).trans (queue_queueConfigured_ne hk), ?_, ?_⟩
    · rw [complete_eq]; rfl
    · rw [hsame, queue_queueConfigured]; rfl
    · rw [hsame, queue_queueConfigured]; rfl
  case conserved =>
    simp only [List.forall_mem_cons]
    exact ⟨execQueueConfigure_conserves, execQueueFlush_conserves, execQueueStatus_conserves, execQueuePacketWrite_conserves,
      execQueuePacketFree_conserves, execCreditReturn_conserves, execQueueFlushed_conserves, by simp⟩

end Sys2Proof.Machine
end

section
/-! Fuses (17 R579, R580): `SYS.FUSE_PROGRAM` sets the bits of its value that are not yet set, lowest first and as far as the
temperature window allows, in one field alone; a value that lacks a programmed bit fails at the first of its checks. -/
namespace Sys2Proof.Machine

open Sys2Proof

section
variable {old v i n : Nat} {l : List Nat} {left : Option Nat} {s : State} {c : Cmd} {r : CmdRef}

/-! ## Bits -/

/-- Setting the bits of a list sets those bits and no other. -/
theorem bit_foldl_or_eq : ∀ {l : List Nat} {v : Nat},
    bit (l.foldl (fun v k => v ||| 2 ^ k) v) i = (bit v i || decide (i ∈ l))
  | [], v => by simp
  | k :: l, v => by
    have hhead : bit (v ||| 2 ^ k) i = (bit v i || decide (i = k)) := by
      simp only [bit_eq_testBit, Nat.testBit_or, Nat.testBit_two_pow, eq_comm]
    simp only [List.foldl_cons, bit_foldl_or_eq (l := l), hhead, Bool.or_assoc, List.mem_cons, Bool.decide_or]

/-- A value that lacks a bit does not hold every bit. -/
theorem and_ne_of_bit (hold : bit old i = true) (hv : bit v i = false) : old &&& v ≠ old := by
  intro heq
  rw [bit_eq_testBit] at hold hv
  have hand : (old &&& v).testBit i = false := by rw [Nat.testBit_and, hv, Bool.and_false]
  rw [heq, hold] at hand
  exact Bool.noConfusion hand

/-! ## The bits that a command programs -/

/-- The bits of a value that are not yet set, from the lowest. -/
def fusesDue (old v : Nat) : List Nat := (List.range 384).filter fun i => bit v i && !bit old i

/-- Those of them that are set before the window is left. -/
def fusesSet (left : Option Nat) (l : List Nat) : List Nat :=
  match left with
  | some n => l.take n
  | none => l

theorem filter_setBits : (setBits v).filter (fun i => !bit old i) = fusesDue old v := by
  simp only [setBits, List.filter_filter, fusesDue, Bool.and_comm]

theorem mem_fusesDue : i ∈ fusesDue old v ↔ i < 384 ∧ bit v i = true ∧ bit old i = false := by
  simp [fusesDue]

theorem mem_of_mem_fusesSet (h : i ∈ fusesSet left l) : i ∈ l := by
  cases left with
  | none => exact h
  | some n => exact List.mem_of_mem_take h

/-- The value of the field that the command names, after it. -/
def fuseValue (left : Option Nat) (old v : Nat) : Nat :=
  (fusesSet left (fusesDue old v)).foldl (fun v i => v ||| 2 ^ i) old

theorem bit_fuseValue : bit (fuseValue left old v) i = (bit old i || decide (i ∈ fusesSet left (fusesDue old v))) :=
  bit_foldl_or_eq

/-- A programmed bit was programmed before or is one of the value. -/
theorem bit_of_bit_fuseValue (h : bit (fuseValue left old v) i = true) : bit old i = true ∨ bit v i = true := by
  rw [bit_fuseValue, Bool.or_eq_true, decide_eq_true_eq] at h
  exact h.imp_right fun hset => (mem_fusesDue.mp (mem_of_mem_fusesSet hset)).2.1

/-- Where the window stays open, every bit of the value is programmed. -/
theorem bit_fuseValue_none (hi : i < 384) : bit (fuseValue none old v) i = (bit old i || bit v i) := by
  have hdue : decide (i ∈ fusesDue old v) = (bit v i && !bit old i) := by simp [fusesDue, hi]
  rw [bit_fuseValue, fusesSet, hdue]
  cases bit old i <;> simp

/-! ## The command -/

/-- The state with a field of the fuses programmed. -/
def fuseProgrammed (left : Option Nat) (k v : Nat) (s : State) : State :=
  { s with sys := { s.sys with fuses := Tbl.put 0 s.sys.fuses k (fuseValue left (Tbl.get 0 s.sys.fuses k) v) } }

/-- The answer of the command: `ST_TEMP_WINDOW` with the number of bits set where some are left (R579). -/
def fuseReply (left : Option Nat) (l : List Nat) : Reply :=
  if (fusesSet left l).length < l.length then { status := 0x50, detail := (fusesSet left l).length } else {}

theorem fuseReply_none : fuseReply none l = {} := if_neg (lt_irrefl l.length)

theorem fuseReply_some (h : n < l.length) : fuseReply (some n) l = { status := 0x50, detail := n } := by
  have hlen : (fusesSet (some n) l).length = n := List.length_take_of_le h.le
  rw [fuseReply, hlen, if_pos h]

theorem fuseEffect_eq : fuseEffect left c s =
    complete c (fuseReply left (fusesDue (Tbl.get 0 s.sys.fuses (fieldAt c.region 0 1)) (fieldAt c.region 8 48)))
      (fuseProgrammed left (fieldAt c.region 0 1) (fieldAt c.region 8 48) s) := by
  unfold fuseEffect fuseReply fuseProgrammed fuseValue
  rw [← filter_setBits]
  cases left <;> exact (apply_ite (complete c · _) _ _ _).symm

theorem exec_sysFuseProgram (hstart : startable s r 0x0005 = some c) (hpass : fuseCheck s c = none) :
    exec (.sysFuseProgram r left) s = .next (complete c
      (fuseReply left (fusesDue (Tbl.get 0 s.sys.fuses (fieldAt c.region 0 1)) (fieldAt c.region 8 48)))
      (fuseProgrammed left (fieldAt c.region 0 1) (fieldAt c.region 8 48) s)) :=
  congrArg Host.Outcome.next ((runCmd_effect hstart hpass).trans fuseEffect_eq)

/-- A value that would clear a programmed bit is a fault of the block, which comes before the window (02 R50, 17 R580). -/
theorem fuseCheck_of_clears (hold : bit (Tbl.get 0 s.sys.fuses (fieldAt c.region 0 1)) i = true)
    (hv : bit (fieldAt c.region 8 48) i = false) : ∃ off, fuseCheck s c = some (badParam off) := by
  have hfault : 8 ∈ faultIf ((Tbl.get 0 s.sys.fuses (fieldAt c.region 0 1) &&& fieldAt c.region 8 48) !=
      Tbl.get 0 s.sys.fuses (fieldAt c.region 0 1)) 8 := by
    rw [faultIf, if_pos (bne_iff_ne.mpr (and_ne_of_bit hold hv))]
    exact List.mem_singleton_self 8
  obtain ⟨off, hoff⟩ := blockFault_of_mem (lay := laySysFuse) (region := c.region) hfault
  exact ⟨off, by simp only [fuseCheck, inOrder, hoff, firstFail]⟩

end

/-- Settles O25: the field takes the bits that the window allows, and a value that lacks a programmed bit fails step 7. -/
theorem fusesOnlySetBits : Obligations.FusesOnlySetBits := by
  refine fun r left s c hstart hwf => ⟨fun hpass => ?programmed, fun ⟨i, hold, hv⟩ => ?refused⟩
  case programmed =>
    have hvalue : Tbl.get 0 (fuseProgrammed left (fieldAt c.region 0 1) (fieldAt c.region 8 48) s).sys.fuses
        (fieldAt c.region 0 1) = fuseValue left (Tbl.get 0 s.sys.fuses (fieldAt c.region 0 1)) (fieldAt c.region 8 48) :=
      Tbl.get_put hwf
    refine ⟨_, _, exec_sysFuseProgram hstart hpass, rfl, fun j hj => Tbl.get_put_ne hj, ?_⟩
    rw [hvalue]
    refine ⟨fun i => bit_foldl_or, fun i => bit_of_bit_fuseValue, ?_, ?_⟩
    · rintro rfl
      exact ⟨fuseReply_none, fun i => bit_fuseValue_none⟩
    · rintro n rfl
      exact fuseReply_some
  case refused =>
    obtain ⟨off, hoff⟩ := fuseCheck_of_clears hold hv
    exact ⟨badParam off, rfl, congrArg Host.Outcome.next (runCmd_refused hstart hoff)⟩

end Sys2Proof.Machine
end

section
/-! The heads of a stall's completion and event rings (20 R637), and what the event ring takes once entries free (02 R57,
03 R94). -/
namespace Sys2Proof.Machine

open Sys2Proof

section
variable {f g : Nat} {value : Word} {e : Event} {s t u : State}

/-! ## The completion ring -/

/-- The completion head command is a write to the register, where the host's access reaches the device. -/
theorem exec_cplHeadWrite (h : hostOk s f = true) : exec (.cplHeadWrite f value) s = .next (cplHeadSet f value s) :=
  congrArg Host.Outcome.next (whenHost_of h)

/-- A write of the completion head reaches no state but the stalls'. -/
theorem cplHeadSet_frame : { cplHeadSet f value s with stalls := s.stalls } = s := rfl

/-- A write of the completion head reaches no stall but its own. -/
theorem stall_cplHeadSet_ne (h : g ≠ f) : stall (cplHeadSet f value s) g = stall s g := stall_modStall_ne h

/-- An index that does not pass the producer of completions is taken. -/
theorem stall_cplHeadSet_taken (hf : f < s.stalls.length)
    (h : (value.setWidth 16 - (stall s f).cplHead).toNat ≤ ((stall s f).cplTail - (stall s f).cplHead).toNat) :
    stall (cplHeadSet f value s) f = { stall s f with cplHead := value.setWidth 16 } :=
  (stall_modStall hf).trans (if_pos h)

/-- An index beyond the producer of completions is ignored and sets HEAD_ERR. -/
theorem stall_cplHeadSet_ignored (hf : f < s.stalls.length)
    (h : ((stall s f).cplTail - (stall s f).cplHead).toNat < (value.setWidth 16 - (stall s f).cplHead).toNat) :
    stall (cplHeadSet f value s) f = { stall s f with headErr := true } :=
  (stall_modStall hf).trans (if_neg (Nat.not_le.mpr h))

/-! ## What the event ring takes once entries free (02 R57, 03 R94) -/

/-- The `EV_EVENTS_LOST` record of a stall (02 R57), of the device as a whole (log 11). -/
def eventsLostRecord (f : Nat) (s : State) : Event :=
  { code := 0x0001, device := s.sys.device, time := eventTime f s, detail := (stall s f).evtLost }

/-- The state after a stall's lost events are told: the count is 0, and the record stands in the ring. -/
def eventsLostTold (f : Nat) (s : State) : State :=
  writeEvent f (eventsLostRecord f s) (modStall f (fun y => { y with evtLost := 0 }) s)

/-- Lost events are told before the records that wait, where an entry is free. -/
theorem eventsFreed_lost (h : 0 < (stall s f).evtLost ∧ used (stall s f).evtTail (stall s f).evtHead < 256) :
    eventsFreed f s = drainWaiting f (stall (eventsLostTold f s) f).evtWait (eventsLostTold f s) := by
  unfold eventsFreed
  dsimp only
  rw [if_pos h]
  rfl

/-- Without lost events or a free entry, only the records that wait are looked at. -/
theorem eventsFreed_kept (h : ¬ (0 < (stall s f).evtLost ∧ used (stall s f).evtTail (stall s f).evtHead < 256)) :
    eventsFreed f s = drainWaiting f (stall s f).evtWait s := by
  unfold eventsFreed
  dsimp only
  rw [if_neg h]

/-- Where no record waits, none is written. -/
theorem drainWaiting_none (h : (stall s f).evtWait = []) : drainWaiting f (stall s f).evtWait s = s := by
  rw [h]
  exact modStall_eq_self (by rw [← h])

/-- Where no event was lost and no record waits, nothing happens. -/
theorem eventsFreed_none (hlost : (stall s f).evtLost = 0) (hwait : (stall s f).evtWait = []) : eventsFreed f s = s :=
  (eventsFreed_kept fun h => h.1.ne' hlost).trans (drainWaiting_none hwait)

theorem length_modStall {m : Stall → Stall} : (modStall f m s).stalls.length = s.stalls.length := List.length_modify ..

/-- The stall whose lost events are told. -/
theorem stall_eventsLostTold (hf : f < s.stalls.length) :
    let x := stall s f
    stall (eventsLostTold f s) f =
      { x with evtLost := 0, evtTail := x.evtTail + 1, evtPend := true
               evt := Tbl.set x.evt (x.evtTail.toNat % 256) { eventsLostRecord f s with phase := phaseOf x.evtTail 256 } } := by
  obtain ⟨hstall, -, -⟩ := writeEvent_facts (e := eventsLostRecord f s)
    (s := modStall f (fun y => { y with evtLost := 0 }) s) (length_modStall.symm ▸ hf)
  rw [stall_modStall hf] at hstall
  exact hstall

/-- Where events were lost, an entry is free and no record waits, the telling of the loss is all. -/
theorem eventsFreed_lost_alone (hf : f < s.stalls.length) (hlost : 0 < (stall s f).evtLost)
    (hfree : used (stall s f).evtTail (stall s f).evtHead < 256) (hwait : (stall s f).evtWait = []) :
    eventsFreed f s = eventsLostTold f s :=
  (eventsFreed_lost ⟨hlost, hfree⟩).trans (drainWaiting_none (by rw [stall_eventsLostTold hf]; exact hwait))

/-! ## What events written to a stall's ring leave -/

/-- From `s` to `t`, events may have been written to the stall of `f`: no other stall changes, `f`'s consumer index stays, and
beyond the stalls only messages leave the device. -/
structure EventsWritten (f : Nat) (s t : State) : Prop where
  frame : t = { s with stalls := t.stalls, out := t.out, ints := { s.ints with fns := t.ints.fns } }
  length : t.stalls.length = s.stalls.length
  others : ∀ g, g ≠ f → stall t g = stall s g
  head : (stall t f).evtHead = (stall s f).evtHead

namespace EventsWritten

theorem trans (h : EventsWritten f s t) (h' : EventsWritten f t u) : EventsWritten f s u where
  frame := by rw [h'.frame, h.frame]
  length := h'.length.trans h.length
  others g hg := (h'.others g hg).trans (h.others g hg)
  head := h'.head.trans h.head

/-- A change of the stall that leaves its consumer index. -/
theorem ofModStall {m : Stall → Stall} (hf : f < s.stalls.length) (hm : ∀ x, (m x).evtHead = x.evtHead) :
    EventsWritten f s (modStall f m s) where
  frame := rfl
  length := length_modStall
  others _ hg := stall_modStall_ne hg
  head := by rw [stall_modStall hf, hm]

/-- One event. -/
theorem ofWriteEvent (hf : f < s.stalls.length) : EventsWritten f s (writeEvent f e s) := by
  obtain ⟨hstall, hothers, hframe⟩ := writeEvent_facts (e := e) hf
  refine ⟨hframe, ?length, hothers, by rw [hstall]⟩
  unfold writeEvent raiseEvt
  dsimp only
  split <;> simp only [trySignal_stalls, length_modStall]

/-- The records that wait for entries. -/
theorem ofDrainWaiting (es : List Event) (hf : f < s.stalls.length) : EventsWritten f s (drainWaiting f es s) := by
  induction es generalizing s with
  | nil => exact ofModStall hf fun _ => rfl
  | cons e es ih =>
    unfold drainWaiting
    split
    · have hone : EventsWritten f s (writeEvent f e s) := ofWriteEvent hf
      exact hone.trans (ih (hone.length.symm ▸ hf))
    · exact ofModStall hf fun _ => rfl

/-- The telling of lost events. -/
theorem ofEventsLostTold (hf : f < s.stalls.length) : EventsWritten f s (eventsLostTold f s) := by
  have hcleared : EventsWritten f s (modStall f (fun y => { y with evtLost := 0 }) s) := ofModStall hf fun _ => rfl
  exact hcleared.trans (ofWriteEvent (hcleared.length.symm ▸ hf))

/-- All that the ring takes once entries free. -/
theorem ofEventsFreed (hf : f < s.stalls.length) : EventsWritten f s (eventsFreed f s) := by
  by_cases h : 0 < (stall s f).evtLost ∧ used (stall s f).evtTail (stall s f).evtHead < 256
  · have htold : EventsWritten f s (eventsLostTold f s) := ofEventsLostTold hf
    rw [eventsFreed_lost h]
    exact htold.trans (ofDrainWaiting _ (htold.length.symm ▸ hf))
  · rw [eventsFreed_kept h]
    exact ofDrainWaiting _ hf

end EventsWritten

/-! ## The event ring -/

/-- The state with a stall's event consumer index moved. -/
def evtHeadMoved (f : Nat) (v : Idx) (s : State) : State := modStall f (fun y => { y with evtHead := v }) s

/-- The event head command is a write to the register, where the host's access reaches the device. -/
theorem exec_evtHeadWrite (h : hostOk s f = true) : exec (.evtHeadWrite f value) s = .next (evtHeadSet f value s) :=
  congrArg Host.Outcome.next (whenHost_of h)

/-- An index that does not pass the producer of events is taken, and the ring takes what waits. -/
theorem evtHeadSet_taken
    (h : (value.setWidth 16 - (stall s f).evtHead).toNat ≤ ((stall s f).evtTail - (stall s f).evtHead).toNat) :
    evtHeadSet f value s = eventsFreed f (evtHeadMoved f (value.setWidth 16) s) := if_pos h

/-- An index beyond the producer of events is ignored and sets HEAD_ERR. -/
theorem evtHeadSet_ignored
    (h : ((stall s f).evtTail - (stall s f).evtHead).toNat < (value.setWidth 16 - (stall s f).evtHead).toNat) :
    evtHeadSet f value s = modStall f (fun y => { y with headErr := true }) s := if_neg (Nat.not_le.mpr h)

/-- A write of the event head does one of the two. -/
theorem evtHeadSet_taken_or_ignored :
    evtHeadSet f value s = eventsFreed f (evtHeadMoved f (value.setWidth 16) s) ∨
      evtHeadSet f value s = modStall f (fun y => { y with headErr := true }) s := ite_eq_or_eq ..

section
variable {v : Idx} (hf : f < s.stalls.length)
include hf

theorem stall_evtHeadMoved : stall (evtHeadMoved f v s) f = { stall s f with evtHead := v } := stall_modStall hf

theorem lt_length_evtHeadMoved : f < (evtHeadMoved f v s).stalls.length := length_modStall.symm ▸ hf

/-- A consumer index does not enter the time of an event. -/
theorem eventTime_evtHeadMoved : eventTime f (evtHeadMoved f v s) = eventTime f s := by
  unfold eventTime
  rw [stall_evtHeadMoved hf]
  rfl

/-- Events follow the moved consumer index, which stays where it was written. -/
theorem eventsWritten_evtHeadMoved : EventsWritten f (evtHeadMoved f v s) (eventsFreed f (evtHeadMoved f v s)) :=
  .ofEventsFreed (lt_length_evtHeadMoved hf)

end

/-- A write of the event head reaches the stalls, and messages may leave the device. -/
theorem evtHeadSet_frame (hf : f < s.stalls.length) : evtHeadSet f value s =
    { s with stalls := (evtHeadSet f value s).stalls, out := (evtHeadSet f value s).out
             ints := { s.ints with fns := (evtHeadSet f value s).ints.fns } } := by
  rcases evtHeadSet_taken_or_ignored (f := f) (value := value) (s := s) with h | h
  · rw [h]; exact (eventsWritten_evtHeadMoved hf).frame
  · rw [h]; rfl

/-- A write of the event head reaches no stall but its own. -/
theorem stall_evtHeadSet_ne (hf : f < s.stalls.length) (hg : g ≠ f) : stall (evtHeadSet f value s) g = stall s g := by
  rcases evtHeadSet_taken_or_ignored (f := f) (value := value) (s := s) with h | h
  · rw [h]
    exact ((eventsWritten_evtHeadMoved hf).others g hg).trans (stall_modStall_ne hg)
  · rw [h]
    exact stall_modStall_ne hg

end

/-- Settles O14: an index that does not pass its producer is taken, any other sets HEAD_ERR alone, and an event entry that frees
takes `EV_EVENTS_LOST` first. -/
theorem ringHeadWritesFreeEntries : Obligations.RingHeadWritesFreeEntries := by
  intro fn value s hhost hfn x v
  refine ⟨⟨_, exec_cplHeadWrite hhost, cplHeadSet_frame, fun g => stall_cplHeadSet_ne, stall_cplHeadSet_taken hfn,
    stall_cplHeadSet_ignored hfn⟩, _, exec_evtHeadWrite hhost, evtHeadSet_frame hfn, fun g => stall_evtHeadSet_ne hfn,
    fun hbeyond => ?ignored, fun htaken => ?taken⟩
  case ignored =>
    rw [evtHeadSet_ignored hbeyond]
    exact ⟨stall_modStall hfn, rfl⟩
  case taken =>
    have hmoved : stall (evtHeadMoved fn v s) fn = { x with evtHead := v } := stall_evtHeadMoved hfn
    rw [evtHeadSet_taken htaken]
    refine ⟨?head, fun hlost hwait => ?none, fun hlost hwait hfree => ?lost⟩
    case head => rw [(eventsWritten_evtHeadMoved hfn).head, hmoved]
    case none =>
      rw [eventsFreed_none (by rw [hmoved]; exact hlost) (by rw [hmoved]; exact hwait)]
      exact ⟨hmoved, rfl⟩
    case lost =>
      have hlen := lt_length_evtHeadMoved (v := v) hfn
      rw [eventsFreed_lost_alone hlen (by rw [hmoved]; exact hlost) (by rw [hmoved]; exact hfree) (by rw [hmoved]; exact hwait),
        stall_eventsLostTold hlen, eventsLostRecord, eventTime_evtHeadMoved hfn, hmoved]
      exact ⟨rfl, rfl, Tbl.find?_set⟩

end Sys2Proof.Machine
end

section
/-! What every command keeps (95): the queue of waiting commands, the soundness of the state, and the fuse bits that are set. -/
namespace Sys2Proof.Machine

open Sys2Proof

section
variable {P : List Instr} {F : Tbl Nat} {s u : State}

/-- Every command keeps what its own operation keeps. -/
theorem exec_ok : ∀ {i : Instr}, Ok P F s → exec i s = .next u → Ok P F u
  | .commandDoorbell .., h, he => execCommandDoorbell_ok h he
  | .commandAccept .., h, he => execCommandAccept_ok h he
  | .cplHeadWrite .., h, he => execCplHeadWrite_ok h he
  | .evtHeadWrite .., h, he => execEvtHeadWrite_ok h he
  | .grmStatusClear .., h, he => execGrmStatusClear_ok h he
  | .intPendingClear .., h, he => execIntPendingClear_ok h he
  | .intMaskWrite .., h, he => execIntMaskWrite_ok h he
  | .intVecAck .., h, he => execIntVecAck_ok h he
  | .intStallClear .., h, he => execIntStallClear_ok h he
  | .intStallMaskWrite .., h, he => execIntStallMaskWrite_ok h he
  | .intRouteWrite .., h, he => execIntRouteWrite_ok h he
  | .ringReadAdvance .., h, he => execRingReadAdvance_ok h he
  | .queOccRead .., h, he => execQueOccRead_ok h he
  | .quePeakRead .., h, he => execQuePeakRead_ok h he
  | .ptpTimeCapture .., h, he => execPtpTimeCapture_ok h he
  | .lneStatRead .., h, he => execLneStatRead_ok h he
  | .registerWrite .., h, he => execRegisterWrite_ok h he
  | .msixEnable .., h, he => execMsixEnable_ok h he
  | .vfEnableClear, h, he => execVfEnableClear_ok h he
  | .numvfsWrite .., h, he => execNumvfsWrite_ok h he
  | .linkReset .., h, he => execLinkReset_ok h he
  | .linkUp, h, he => execLinkUp_ok h he
  | .functionLevelReset .., h, he => execFunctionLevelReset_ok h he
  | .perstN, h, he => execPerstN_ok h he
  | .coldStart .., h, he => execColdStart_ok h he
  | .hostReadyTimeout, h, he => execHostReadyTimeout_ok h he
  | .retentionEntry, h, he => execRetentionEntry_ok h he
  | .retentionEntryTimeout, h, he => execRetentionEntryTimeout_ok h he
  | .warmStart .., h, he => execWarmStart_ok h he
  | .supplyUndervoltage .., h, he => execSupplyUndervoltage_ok h he
  | .hbmRetentionLost .., h, he => execHbmRetentionLost_ok h he
  | .safeStateReached .., h, he => execSafeStateReached_ok h he
  | .rebindingApply .., h, he => execRebindingApply_ok h he
  | .epochCommitApply .., h, he => execEpochCommitApply_ok h he
  | .profileApply, h, he => execProfileApply_ok h he
  | .sysProfileCommit .., h, he => execSysProfileCommit_ok h he
  | .sysResume .., h, he => execSysResume_ok h he
  | .sysLinkPolicy .., h, he => execSysLinkPolicy_ok h he
  | .sysInfo .., h, he => execSysInfo_ok h he
  | .sysFuseProgram .., h, he => execSysFuseProgram_ok h he
  | .stallConfigure .., h, he => execStallConfigure_ok h he
  | .bindAssign .., h, he => execBindAssign_ok h he
  | .bindRelease .., h, he => execBindRelease_ok h he
  | .bindQuery .., h, he => execBindQuery_ok h he
  | .epochStage .., h, he => execEpochStage_ok h he
  | .epochCommit .., h, he => execEpochCommit_ok h he
  | .epochCommitAt .., h, he => execEpochCommitAt_ok h he
  | .epochDiscard .., h, he => execEpochDiscard_ok h he
  | .epochQuery .., h, he => execEpochQuery_ok h he
  | .funcShares .., h, he => execFuncShares_ok h he
  | .funcQuery .., h, he => execFuncQuery_ok h he
  | .funcResetUnits .., h, he => execFuncResetUnits_ok h he
  | .brdConfigure .., h, he => execBrdConfigure_ok h he
  | .brdSpare .., h, he => execBrdSpare_ok h he
  | .brdTrigger .., h, he => execBrdTrigger_ok h he
  | .brdCounters .., h, he => execBrdCounters_ok h he
  | .csiConfigure .., h, he => execCsiConfigure_ok h he
  | .csiCounters .., h, he => execCsiCounters_ok h he
  | .pipeConfigure .., h, he => execPipeConfigure_ok h he
  | .pipeGridLoad .., h, he => execPipeGridLoad_ok h he
  | .pipeBlack .., h, he => execPipeBlack_ok h he
  | .pipeMerge .., h, he => execPipeMerge_ok h he
  | .pipeStats .., h, he => execPipeStats_ok h he
  | .pipePlay .., h, he => execPipePlay_ok h he
  | .colLutLoad .., h, he => execColLutLoad_ok h he
  | .colMatrix .., h, he => execColMatrix_ok h he
  | .colWb .., h, he => execColWb_ok h he
  | .colOutput .., h, he => execColOutput_ok h he
  | .colNr .., h, he => execColNr_ok h he
  | .zipConfigure .., h, he => execZipConfigure_ok h he
  | .zipPreroll .., h, he => execZipPreroll_ok h he
  | .zipFlush .., h, he => execZipFlush_ok h he
  | .recExtents .., h, he => execRecExtents_ok h he
  | .recStart .., h, he => execRecStart_ok h he
  | .recStop .., h, he => execRecStop_ok h he
  | .recKey .., h, he => execRecKey_ok h he
  | .recStatus .., h, he => execRecStatus_ok h he
  | .audConfigure .., h, he => execAudConfigure_ok h he
  | .encOpen .., h, he => execEncOpen_ok h he
  | .encClose .., h, he => execEncClose_ok h he
  | .encRoi .., h, he => execEncRoi_ok h he
  | .encRate .., h, he => execEncRate_ok h he
  | .encStats .., h, he => execEncStats_ok h he
  | .decOpen .., h, he => execDecOpen_ok h he
  | .decSubmit .., h, he => execDecSubmit_ok h he
  | .decClose .., h, he => execDecClose_ok h he
  | .memHash .., h, he => execMemHash_ok h he
  | .memShedOrder .., h, he => execMemShedOrder_ok h he
  | .queueConfigure .., h, he => execQueueConfigure_ok h he
  | .queueFlush .., h, he => execQueueFlush_ok h he
  | .queueStatus .., h, he => execQueueStatus_ok h he
  | .dspConfigure .., h, he => execDspConfigure_ok h he
  | .dspPlane .., h, he => execDspPlane_ok h he
  | .dspFlip .., h, he => execDspFlip_ok h he
  | .dspPalette .., h, he => execDspPalette_ok h he
  | .netConfigure .., h, he => execNetConfigure_ok h he
  | .netFlow .., h, he => execNetFlow_ok h he
  | .netCounters .., h, he => execNetCounters_ok h he
  | .timeSteer .., h, he => execTimeSteer_ok h he
  | .timeSelect .., h, he => execTimeSelect_ok h he
  | .timeCorrection .., h, he => execTimeCorrection_ok h he
  | .timeRead .., h, he => execTimeRead_ok h he
  | .tthConfigure .., h, he => execTthConfigure_ok h he
  | .tthStripes .., h, he => execTthStripes_ok h he
  | .tthDigests .., h, he => execTthDigests_ok h he
  | .tthHoldPolicy .., h, he => execTthHoldPolicy_ok h he
  | .motConfigure .., h, he => execMotConfigure_ok h he
  | .motObserver .., h, he => execMotObserver_ok h he
  | .motRead .., h, he => execMotRead_ok h he
  | .pwrLimits .., h, he => execPwrLimits_ok h he
  | .pwrThermalModel .., h, he => execPwrThermalModel_ok h he
  | .pwrRead .., h, he => execPwrRead_ok h he
  | .testMuckout .., h, he => execTestMuckout_ok h he
  | .testPrbs .., h, he => execTestPrbs_ok h he
  | .testMargin .., h, he => execTestMargin_ok h he
  | .laneDown .., h, he => execLaneDown_ok h he
  | .laneUp .., h, he => execLaneUp_ok h he
  | .alignRow .., h, he => execAlignRow_ok h he
  | .deskewFailure .., h, he => execDeskewFailure_ok h he
  | .fsPacket .., h, he => execFsPacket_ok h he
  | .ldPacket .., h, he => execLdPacket_ok h he
  | .fePacket .., h, he => execFePacket_ok h he
  | .embPacket .., h, he => execEmbPacket_ok h he
  | .trailerTimeout .., h, he => execTrailerTimeout_ok h he
  | .frameVerdict .., h, he => execFrameVerdict_ok h he
  | .encRollback .., h, he => execEncRollback_ok h he
  | .tapPatchDone .., h, he => execTapPatchDone_ok h he
  | .spiScriptDone .., h, he => execSpiScriptDone_ok h he
  | .triggerEdge .., h, he => execTriggerEdge_ok h he
  | .triggerScript .., h, he => execTriggerScript_ok h he
  | .csiFs .., h, he => execCsiFs_ok h he
  | .csiLongPacket .., h, he => execCsiLongPacket_ok h he
  | .csiFe _ _ frameNo, h, he => execCsiFe_ok (_frameNo := frameNo) h he
  | .csiDphyError .., h, he => execCsiDphyError_ok h he
  | .pipeFrameBoundary .., h, he => execPipeFrameBoundary_ok h he
  | .shadingBlendDone .., h, he => execShadingBlendDone_ok h he
  | .relayPacket .., h, he => execRelayPacket_ok h he
  | .nvmeWriteComplete .., h, he => execNvmeWriteComplete_ok h he
  | .nvmeWriteTimeout .., h, he => execNvmeWriteTimeout_ok h he
  | .chunkClose, h, he => execChunkClose_ok h he
  | .audWordClockFrame .., h, he => execAudWordClockFrame_ok h he
  | .audClockLost .., h, he => execAudClockLost_ok h he
  | .audClockRestored .., h, he => execAudClockRestored_ok h he
  | .encPictureStart .., h, he => execEncPictureStart_ok h he
  | .encPictureDone .., h, he => execEncPictureDone_ok h he
  | .encOutputRelease .., h, he => execEncOutputRelease_ok h he
  | .decPicture .., h, he => execDecPicture_ok h he
  | .memEscalation, h, he => execMemEscalation_ok h he
  | .memRecovered, h, he => execMemRecovered_ok h he
  | .rtRestored .., h, he => execRtRestored_ok h he
  | .memHot .., h, he => execMemHot_ok h he
  | .memEcc .., h, he => execMemEcc_ok h he
  | .queuePacketWrite .., h, he => execQueuePacketWrite_ok h he
  | .queuePacketFree .., h, he => execQueuePacketFree_ok h he
  | .creditReturn .., h, he => execCreditReturn_ok h he
  | .queueFlushed .., h, he => execQueueFlushed_ok h he
  | .flipPoint .., h, he => execFlipPoint_ok h he
  | .genlockEdge, h, he => execGenlockEdge_ok h he
  | .genlockLost .., h, he => execGenlockLost_ok h he
  | .teMissing .., h, he => execTeMissing_ok h he
  | .netLinkDown .., h, he => execNetLinkDown_ok h he
  | .netLinkUp .., h, he => execNetLinkUp_ok h he
  | .netFrameReceived .., h, he => execNetFrameReceived_ok h he
  | .ptpMessage .., h, he => execPtpMessage_ok h he
  | .ptpMessageSend .., h, he => execPtpMessageSend_ok h he
  | .announceTimeout .., h, he => execAnnounceTimeout_ok h he
  | .timeSteerApply .., h, he => execTimeSteerApply_ok h he
  | .timeSelectApply, h, he => execTimeSelectApply_ok h he
  | .timeSlewDone, h, he => execTimeSlewDone_ok h he
  | .sendSlot .., h, he => execSendSlot_ok h he
  | .st2110PacketSend .., h, he => execSt2110PacketSend_ok h he
  | .queueFlowSend .., h, he => execQueueFlowSend_ok h he
  | .rxPacket .., h, he => execRxPacket_ok h he
  | .rxSlotClose .., h, he => execRxSlotClose_ok h he
  | .pathLost .., h, he => execPathLost_ok h he
  | .tthPacket .., h, he => execTthPacket_ok h he
  | .haloRow .., h, he => execHaloRow_ok h he
  | .tthAckTimeout .., h, he => execTthAckTimeout_ok h he
  | .tthLinkDown .., h, he => execTthLinkDown_ok h he
  | .tthLinkUp .., h, he => execTthLinkUp_ok h he
  | .relayTimeout .., h, he => execRelayTimeout_ok h he
  | .idleControlBlock, h, he => execIdleControlBlock_ok h he
  | .prepareDeadline .., h, he => execPrepareDeadline_ok h he
  | .arrayCommitTimeout .., h, he => execArrayCommitTimeout_ok h he
  | .timePacketSend, h, he => execTimePacketSend_ok h he
  | .hopDelayMeasure .., h, he => execHopDelayMeasure_ok h he
  | .timeLockLoss, h, he => execTimeLockLoss_ok h he
  | .motionSample .., h, he => execMotionSample_ok h he
  | .hallEdge .., h, he => execHallEdge_ok h he
  | .hallIllegalTimeout .., h, he => execHallIllegalTimeout_ok h he
  | .inputBroken .., h, he => execInputBroken_ok h he
  | .inputRestored .., h, he => execInputRestored_ok h he
  | .observerLost .., h, he => execObserverLost_ok h he
  | .observerRegained .., h, he => execObserverRegained_ok h he
  | .standstill .., h, he => execStandstill_ok h he
  | .motProbe .., h, he => execMotProbe_ok h he
  | .powerMeterSample .., h, he => execPowerMeterSample_ok h he
  | .capThrottleLeave, h, he => execCapThrottleLeave_ok h he
  | .droopSample .., h, he => execDroopSample_ok h he
  | .snubStageExit .., h, he => execSnubStageExit_ok h he
  | .thermalModelUpdate, h, he => execThermalModelUpdate_ok h he
  | .thmStopComplete, h, he => execThmStopComplete_ok h he
  | .diodeRead .., h, he => execDiodeRead_ok h he
  | .modelDriftCheck, h, he => execModelDriftCheck_ok h he
  | .muckoutSliceDone .., h, he => execMuckoutSliceDone_ok h he
  | .spareRowScrub .., h, he => execSpareRowScrub_ok h he
  | .laneMarginReading .., h, he => execLaneMarginReading_ok h he
  | .sysRstNAssertion, h, he => execSysRstNAssertion_ok h he
  | .supplyRecovery, h, he => execSupplyRecovery_ok h he
  | .vfEnableSet, h, he => execVfEnableSet_ok h he
  | .msixMaskWrite .., h, he => execMsixMaskWrite_ok h he
  | .pllLostLock, h, he => execPllLostLock_ok h he
  | .referenceClockMissing .., h, he => execReferenceClockMissing_ok h he
  | .ppsPulse .., h, he => execPpsPulse_ok h he
  | .portPanic .., h, he => execPortPanic_ok h he
  | .rtBufferOverflow .., h, he => execRtBufferOverflow_ok h he
  | .memHotCleared .., h, he => execMemHotCleared_ok h he
  | .csiLsLePacket _ _ kind line, h, he => execCsiLsLePacket_ok (_kind := kind) (_line := line) h he
  | .delayReqSend .., h, he => execDelayReqSend_ok h he
  | .arraySlicesMissing .., h, he => execArraySlicesMissing_ok h he
  | .nvmeHostAccessDone .., h, he => execNvmeHostAccessDone_ok h he
  | .testMarginDone .., h, he => execTestMarginDone_ok h he

/-- Taking the front command from the queue keeps what the rest of the state holds. -/
theorem Ok.withPending (h : Ok P F s) (rest : List Instr) : Ok rest F { s with pending := rest } :=
  ⟨rfl, h.hbm, h.stalls, h.sys⟩

end

/-- Settles O3: a step on an empty queue is a clock cycle, which keeps a sound state and its fuses; a step on a waiting command is
that command, which keeps them too. -/
theorem stepKeepsSoundState : Obligations.StepKeepsSoundState := by
  intro s t hs hstep
  unfold step at hstep
  split at hstep
  case h_1 =>
    obtain rfl := Host.Outcome.next.inj hstep
    have h := idleStep_ok (Ok.of_sound hs)
    exact ⟨h.sound, h.sys.fuses⟩
  case h_2 i rest _ =>
    have h := exec_ok ((Ok.of_sound hs).withPending rest) hstep
    exact ⟨h.sound, h.sys.fuses⟩

/-- Settles O5: among what every command keeps is the queue. -/
theorem execLeavesQueue : Obligations.ExecLeavesQueue := by
  intro i s t hs hexec
  exact (exec_ok (Ok.of_sound hs) hexec).pending

end Sys2Proof.Machine
end

section
/-! What a completion, an event, an interrupt source and a write to HBM do (02 R53 to R57, R651; 03 R98 to R103; 10 R365). -/
namespace Sys2Proof.Machine

open Sys2Proof

section
variable {c : Cmd} {r : Reply} {bs : List Byte} {bind f g n v k a : Nat} {e : Event} {relayed : Bool} {s : State}

/-! ## Results over the parameter region (02 R651) -/

/-- Results leave the number of stalls. -/
theorem writeResults_stalls_length : (writeResults c bs s).stalls.length = s.stalls.length := by
  unfold writeResults
  split
  · rfl
  · split
    · exact length_modStall
    · split <;> rfl

/-- Results reach no stall but the command's own. -/
theorem stall_writeResults_ne (h : f ≠ c.fn) : stall (writeResults c bs s) f = stall s f := by
  unfold writeResults
  split
  · rfl
  · split
    · exact stall_modStall_ne h
    · split <;> rfl

/-- Of the command's own stall, results change the bytes of its parameter region alone. -/
theorem stall_writeResults (hf : c.fn < s.stalls.length) : ∃ m, stall (writeResults c bs s) c.fn = { stall s c.fn with mem := m } ∧
    ∀ a, ¬ (bit c.flags 4 = true ∧ c.ploc = 1 ∧ 0x10000 + c.ploff ≤ a ∧ a < 0x10000 + c.ploff + bs.length) →
      Mem.byte m a = Mem.byte (stall s c.fn).mem a := by
  unfold writeResults
  split
  · exact ⟨_, rfl, fun _ _ => rfl⟩
  · next hflag =>
    split
    · next hloc =>
      refine ⟨_, stall_modStall hf, fun a ha => Mem.byte_writes_out ?_⟩
      have hflag' : bit c.flags 4 = true := by simpa using hflag
      simp only [hflag', hloc, true_and, not_and, not_lt] at ha
      omega
    · split <;> exact ⟨_, rfl, fun _ _ => rfl⟩

/-- Without RESULT_TO_PAYLOAD no result is written. -/
theorem writeResults_none (h : bit c.flags 4 = false) : writeResults c bs s = s := by
  simp [writeResults, h]

/-! ## Completions (02 R53 to R55) -/

/-- A detached command, and a copy, only leave the accepted ones (02 R66, log 44). -/
theorem completeWith_discarded (h : c.detached = true ∨ c.copy = true) : completeWith c bind relayed r s = dropCmd c s := by
  have h' : (c.detached || c.copy) = true := by simpa using h
  simp [completeWith, h']

/-- The state before the entry is written: the command dropped, its results laid over its region, LAST_COMPLETED advanced. -/
def beforeEntry (c : Cmd) (r : Reply) (s : State) : State :=
  modStall c.fn (fun x => { x with lastCompleted := lastDone (dropCmd c s) c.fn }) (writeResults c r.data (dropCmd c s))

/-- On the leader a command completes with an entry in its stall. -/
theorem completeWith_leader (hlead : isLeader s = true) (hdet : c.detached = false) (hcopy : c.copy = false) :
    completeWith c bind relayed r s = writeCpl c.fn (replyCpl c bind relayed r) (bit c.flags 2) (beforeEntry c r s) := by
  simp [completeWith, hlead, hdet, hcopy, beforeEntry]

theorem beforeEntry_stalls_length : (beforeEntry c r s).stalls.length = s.stalls.length :=
  length_modStall.trans writeResults_stalls_length

theorem stall_beforeEntry_ne (h : f ≠ c.fn) : stall (beforeEntry c r s) f = stall s f :=
  (stall_modStall_ne h).trans (stall_writeResults_ne h)

theorem stall_beforeEntry (hf : c.fn < s.stalls.length) : ∃ m,
    stall (beforeEntry c r s) c.fn = { stall s c.fn with lastCompleted := lastDone (dropCmd c s) c.fn, mem := m } ∧
    ∀ a, ¬ (bit c.flags 4 = true ∧ c.ploc = 1 ∧ 0x10000 + c.ploff ≤ a ∧ a < 0x10000 + c.ploff + r.data.length) →
      Mem.byte m a = Mem.byte (stall s c.fn).mem a := by
  obtain ⟨m, hm, hbytes⟩ := stall_writeResults (c := c) (bs := r.data) (s := dropCmd c s) hf
  refine ⟨m, ?_, hbytes⟩
  rw [beforeEntry, stall_modStall (writeResults_stalls_length.symm ▸ hf), hm]
  rfl

/-- Before the entry only the stalls, the accepted commands and what has left the device change. -/
theorem beforeEntry_eq : beforeEntry c r s =
    { s with stalls := (beforeEntry c r s).stalls, cmds := (dropCmd c s).cmds, out := (beforeEntry c r s).out } := by
  unfold beforeEntry; rw [writeResults_eq]; rfl

/-- What a completion on the leader does: the entry in the ring, LAST_COMPLETED, the bytes of the results, and the frame. -/
theorem completeWith_facts (hlead : isLeader s = true) (hdet : c.detached = false) (hcopy : c.copy = false)
    (hf : c.fn < s.stalls.length) :
    let t := completeWith c bind relayed r s
    let x := stall s c.fn
    (∃ m, stall t c.fn = { x with
        cpl := Tbl.set x.cpl (x.cplTail.toNat % 128) { replyCpl c bind relayed r with phase := phaseOf x.cplTail 128 }
        cplTail := x.cplTail + 1, cplPend := x.cplPend || bit c.flags 2
        lastCompleted := lastDone (dropCmd c s) c.fn, mem := m } ∧
      ∀ a, ¬ (bit c.flags 4 = true ∧ c.ploc = 1 ∧ 0x10000 + c.ploff ≤ a ∧ a < 0x10000 + c.ploff + r.data.length) →
        Mem.byte m a = Mem.byte x.mem a) ∧
    (∀ f, f ≠ c.fn → stall t f = stall s f) ∧
    t = { s with stalls := t.stalls, cmds := (dropCmd c s).cmds, out := t.out, ints := { s.ints with fns := t.ints.fns } } ∧
    (bit c.flags 4 = false → bit c.flags 2 = false → t.out = s.out ∧ t.ints = s.ints) := by
  intro t x
  have ht : t = writeCpl c.fn (replyCpl c bind relayed r) (bit c.flags 2) (beforeEntry c r s) :=
    completeWith_leader hlead hdet hcopy
  obtain ⟨m, hm, hbytes⟩ := stall_beforeEntry (r := r) hf
  obtain ⟨hstall, hothers, hframe, hquiet⟩ := writeCpl_facts (c := replyCpl c bind relayed r) (b := bit c.flags 2)
    (s := beforeEntry c r s) (beforeEntry_stalls_length.symm ▸ hf)
  rw [← ht] at hstall hothers hframe hquiet
  refine ⟨⟨m, ?_, hbytes⟩, fun f hne => (hothers f hne).trans (stall_beforeEntry_ne hne), ?_, fun hres hnote => ?_⟩
  · rw [hstall, hm]
  · rw [hframe, beforeEntry_eq]
  · obtain ⟨hout, hints⟩ := hquiet hnote
    rw [hout, hints, beforeEntry, writeResults_none hres]
    exact ⟨rfl, rfl⟩

/-- The entry that a completion on the leader writes. -/
theorem complete_entry (hlead : isLeader s = true) (hdet : c.detached = false) (hcopy : c.copy = false)
    (hf : c.fn < s.stalls.length) :
    Tbl.find? (stall (complete c r s) c.fn).cpl ((stall s c.fn).cplTail.toNat % 128) =
      some { replyCpl c c.bind false r with phase := phaseOf (stall s c.fn).cplTail 128 } := by
  obtain ⟨⟨m, hstall, -⟩, -⟩ := completeWith_facts (bind := c.bind) (relayed := false) (r := r) hlead hdet hcopy hf
  rw [complete, hstall]
  exact Tbl.find?_set

/-! ## Events (02 R56, R57) -/

section
variable (hlead : isLeader s = true)
include hlead

/-- An event for a function that does not exist is discarded (03 R84). -/
theorem postEvent_absent (h : fnExists s f = false) : postEvent f e s = s := by
  simp [postEvent, hlead, h]

/-- An event that finds the ring full is counted. -/
theorem postEvent_full (h : fnExists s f = true) (hfull : 256 ≤ used (stall s f).evtTail (stall s f).evtHead) :
    postEvent f e s = modStall f (fun x => { x with evtLost := x.evtLost + 1 }) s := by
  simp [postEvent, hlead, h, hfull]

/-- An event that finds an entry free is written. -/
theorem postEvent_free (h : fnExists s f = true) (hfree : used (stall s f).evtTail (stall s f).evtHead < 256) :
    postEvent f e s = writeEvent f e s := by
  simp [postEvent, hlead, h, hfree]

end

/-! ## Interrupt sources (03 R98, R102, R103) -/

/-- The pending bits with one more. -/
def pended (n : Nat) (s : State) : State := { s with ints := { s.ints with pend := s.ints.pend ||| (1#640 <<< n) } }

/-- What a source with ENABLE set does on the leader: its bit, and its message where the bit was clear and nothing masks it. -/
theorem raise_enabled (hlead : isLeader s = true) (hon : (routeOf s n).enable = true) : raise n s =
    if isPending s n || isMasked s (targetOf s n) n then pended n s
    else trySignal (targetOf s n) (vectorOf s n) (pended n s) := by
  simp [raise, hlead, hon, pended]

/-- The bit of one source in a word with another's. -/
theorem getLsbD_shifted_one {m : Nat} (hm : m < 640) : (1#640 <<< n).getLsbD m = decide (m = n) := by
  by_cases h : m = n
  · subst h; simp [hm]
  · simp only [BitVec.getLsbD_shiftLeft, hm, decide_true, Bool.true_and, h, decide_false]
    by_cases hlt : m < n
    · simp [hlt]
    · simp only [hlt, decide_false, Bool.not_false, Bool.true_and, BitVec.getLsbD_one, Bool.and_eq_false_imp]
      intro _
      simpa using (by omega : m - n ≠ 0)

theorem isPending_pended {m : Nat} (hm : m < 640) : isPending (pended n s) m = (decide (m = n) || isPending s m) := by
  unfold isPending pended
  rw [BitVec.getLsbD_or, getLsbD_shifted_one hm, Bool.or_comm]

/-- Whether a message leaves when a vector is signalled. -/
theorem trySignal_sends (hcan : canSend s f v = true) (hawait : (fnInt s f).await.getLsbD v = false) :
    trySignal f v s = sendVector f v s := by
  simp [trySignal, hcan, hawait]

theorem trySignal_quiet (h : canSend s f v = false ∨ (fnInt s f).await.getLsbD v = true) : trySignal f v s = s := by
  rcases h with h | h <;> simp [trySignal, h]

end

/-- Settles O7: the entry and its frame are what `completeWith_facts` says of the leader; a detached command and a copy are only
dropped. -/
theorem completionEntryWritten : Obligations.CompletionEntryWritten := by
  refine ⟨fun c r s h => completeWith_discarded h, ?_⟩
  intro c r s hlead hdet hcopy hf t x
  obtain ⟨⟨m, hstall, hbytes⟩, hothers, hframe, hquiet⟩ := completeWith_facts (bind := c.bind) (relayed := false) (r := r) hlead hdet hcopy hf
  refine ⟨complete_entry hlead hdet hcopy hf, fun k hk => ?_, ?_, fun a ha => ?_, hothers, ?_, hquiet⟩
  · rw [show stall t c.fn = _ from hstall]
    exact Tbl.find?_set_ne hk
  · rw [show stall t c.fn = _ from hstall]
  · rw [show stall t c.fn = _ from hstall]
    exact hbytes a ha
  · rw [show t = _ from hframe, dropCmd]
    simp only [hdet, beq_false]

/-- Settles O8: the three outcomes are the branches of `postEvent` on the leader, and the ring's entry is what `writeEvent_facts`
says. -/
theorem eventWrittenOrCounted : Obligations.EventWrittenOrCounted := by
  intro f e s hlead hf t x
  obtain ⟨hstall, hothers, hframe⟩ := writeEvent_facts (e := e) hf
  refine ⟨postEvent_absent hlead, fun hyes hfull => ?full, fun hyes hfree => ?free, fun g hg => ?others⟩
  case full =>
    rw [show t = _ from postEvent_full hlead hyes hfull]
    exact ⟨stall_modStall hf, rfl⟩
  case free =>
    rw [show t = _ from postEvent_free hlead hyes hfree, hstall]
    exact ⟨Tbl.find?_set, fun k hk => Tbl.find?_set_ne hk, rfl, hframe⟩
  case others =>
    cases hex : fnExists s f
    · rw [show t = _ from postEvent_absent hlead hex]
    · rcases Nat.lt_or_ge (x.evtTail - x.evtHead).toNat 256 with hfree | hfull
      · rw [show t = _ from postEvent_free hlead hex hfree]
        exact hothers g hg
      · rw [show t = _ from postEvent_full hlead hex hfull]
        exact stall_modStall_ne hg

/-- Settles O9: `raise` on the leader sets the bit, and `trySignal` sends where the vector awaits nothing. -/
theorem sourceSignalsItsVector : Obligations.SourceSignalsItsVector := by
  intro n s hn hlead t f v
  refine ⟨raise_disabled, fun hon => ?_⟩
  have ht : t = if isPending s n || isMasked s f n then pended n s else trySignal f v (pended n s) := raise_enabled hlead hon
  refine ⟨fun m hm => ?pending, fun hclear hunmasked hcan hawait => ?sent, fun hquiet => ?quiet, ?frame⟩
  case pending =>
    rw [ht, ← isPending_pended hm]
    split
    · rfl
    · exact isPending_trySignal
  case sent =>
    rw [ht, if_neg (by simp [hclear, hunmasked]), trySignal_sends (s := pended n s) hcan hawait]
    exact ⟨rfl, rfl⟩
  case quiet =>
    rw [ht]
    split
    · exact ⟨rfl, rfl⟩
    · next h =>
      rw [Bool.or_eq_true, not_or, Bool.not_eq_true, Bool.not_eq_true] at h
      rw [h.1, h.2] at hquiet
      have hquiet' : canSend s f v = false ∨ (fnInt s f).await.getLsbD v = true := by simpa using hquiet
      rw [trySignal_quiet (s := pended n s) hquiet']
      exact ⟨rfl, rfl⟩
  case frame =>
    rw [ht]
    split
    · rfl
    · rw [trySignal_eq]; rfl

/-- Settles O10: inside the map the memory's own laws apply; beyond it the write is dropped. -/
theorem hbmWriteReadBack : Obligations.HbmWriteReadBack := by
  intro a bs s hok
  refine ⟨fun hin => ?_, fun hout => if_neg (by omega)⟩
  rw [hbmWrite_eq, if_pos hin]
  exact ⟨Mem.read_writes hok.1, ⟨Mem.wf_writes hok.1, Mem.below_writes hok.2 hin⟩, fun b hb => Mem.byte_writes_out hb, rfl⟩

end Sys2Proof.Machine
end

section
/-! The checks of steps 7 to 12 (02 R50, R51): every command of the reference runs under the checks of its row, and step 8 refuses
it in a thermal stop, or where it names a buffer in HBM that is to enter self-refresh (17 R574, 10 R387). -/
namespace Sys2Proof.Machine

open Sys2Proof

section
variable {r : CmdRef} {left : Option Nat} {errs : List DecFault} {seen : PrbsSeen} {c : Cmd} {rep r0 : Reply} {s t : State}
variable {a b x : Option Reply} {l m : List (Option Reply)}

/-! ## Refusals -/

/-- A refusal is a completion, and may draw a free value. -/
theorem refuse_eq (c : Cmd) (rep : Reply) (s : State) : refuse c rep s =
    { s with stalls := (refuse c rep s).stalls, cmds := (refuse c rep s).cmds, out := (refuse c rep s).out
             ints := { s.ints with fns := (refuse c rep s).ints.fns }, tth := (refuse c rep s).tth
             freeCtr := (refuse c rep s).freeCtr } := by
  unfold refuse
  split
  · rw [complete_eq]; rfl
  · rw [complete_eq]

/-- The entry that a refusal on the leader writes. -/
theorem refuse_entry (hlead : isLeader s = true) (hdet : c.detached = false) (hcopy : c.copy = false)
    (hf : c.fn < s.stalls.length) :
    Tbl.find? (stall (refuse c rep s) c.fn).cpl ((stall s c.fn).cplTail.toNat % 128) =
      some { replyCpl c c.bind false rep with phase := phaseOf (stall s c.fn).cplTail 128 } := by
  unfold refuse
  split
  · exact complete_entry (s := bump s) hlead hdet hcopy hf
  · exact complete_entry hlead hdet hcopy hf

/-! ## The rows run their checks -/

/-- A row's command runs under the row's opcode and checks. -/
def CmdRow.Runs (r : CmdRef) (w : CmdRow) : Prop :=
  ∃ eff : Cmd → State → State, ∀ s, exec w.instr s = .next (runCmd r w.op w.chk eff s)

/-- Every row of the command reference does. -/
theorem commandRows_run : ∀ w ∈ commandRows r left errs seen, w.Runs r := by
  simp only [commandRows, groomRows, ingestRows, storeRows, serviceRows, deviceRows, List.forall_mem_append,
    List.forall_mem_cons, List.not_mem_nil, false_implies, implies_true, and_true]
  repeat' apply And.intro
  all_goals exact ⟨_, fun _ => rfl⟩

/-- A command of a row that a check of the row fails is refused. -/
theorem exec_row_refused {w : CmdRow} (hw : w ∈ commandRows r left errs seen) (hstart : startable s r w.op = some c)
    (hfail : w.chk s c = some rep) : exec w.instr s = .next (refuse c rep s) := by
  obtain ⟨eff, hrun⟩ := commandRows_run w hw
  rw [hrun, runCmd_refused hstart hfail]

/-! ## Step 8 among the checks -/

/-- A list of checks refuses (`a`), and would refuse with `r0` alone if it did not without step 8 (`b`). -/
structure RefusedBy (r0 : Reply) (a b : Option Reply) : Prop where
  refuses : a.isSome = true
  only : b = none → a = some r0

/-- A check that refuses comes first, whatever follows. -/
theorem RefusedBy.head (h : RefusedBy r0 a b) : RefusedBy r0 (firstFail (a :: l)) (firstFail (b :: m)) := by
  obtain ⟨rep, rfl⟩ := Option.isSome_iff_exists.mp h.refuses
  refine ⟨rfl, fun hnone => h.only ?_⟩
  cases b with
  | none => rfl
  | some _ => exact absurd hnone (Option.some_ne_none _)

/-- A check before it makes no difference. -/
theorem RefusedBy.cons (x : Option Reply) (h : RefusedBy r0 (firstFail l) (firstFail m)) :
    RefusedBy r0 (firstFail (x :: l)) (firstFail (x :: m)) := by
  cases x with
  | none => exact h
  | some rep => exact ⟨rfl, fun hnone => absurd hnone (Option.some_ne_none _)⟩

/-- The state with another stage of the thermal stop, and another answer to whether an entry into self-refresh is due. -/
def stopSetTo (stop : Nat) (due : Bool) (s : State) : State :=
  { s with thm := { s.thm with stop := stop }, sys := { s.sys with entryDue := due } }

section
variable {stop : Nat} {due : Bool} {p : PipeCfg}

/-- HBM after a unit's write: beyond the map it stays as it was (10 R390). -/
theorem hbmWrite_hbm {a : Nat} {bs : List Byte} :
    (hbmWrite a bs s).hbm = if a + bs.length ≤ Config.hbmEnd then Mem.writes s.hbm a bs else s.hbm := by
  rw [hbmWrite_eq]
  split
  · rfl
  · rw [raise_eq]

theorem openPlay_stopSetTo {i : Nat} : openPlay i p (stopSetTo stop due s) = stopSetTo stop due (openPlay i p s) := by
  have hfree : freeRingSlot (stopSetTo stop due s) i p = freeRingSlot s i p := rfl
  have hplay : (stream (stopSetTo stop due s) i).play = (stream s i).play := rfl
  unfold openPlay
  rw [hfree, hplay]
  cases (stream s i).play <;> cases freeRingSlot s i p <;> rfl

/-- What a playback would write does not depend on the stop. -/
theorem playMismatch_stopSetTo : playMismatch (stopSetTo stop due s) c p = playMismatch s c p := by
  unfold playMismatch playWritten
  dsimp only
  rw [openPlay_stopSetTo, ← apply_ite (stopSetTo stop due)]
  generalize (if bit (fieldAt c.region 0 1) 0 = true then openPlay c.target p s else s) = u
  have hstream : stream (stopSetTo stop due u) c.target = stream u c.target := rfl
  rw [hstream]
  cases (stream u c.target).play with
  | none => rfl
  | some n =>
    simp only [Option.map_some, hbmRead, hbmWrite_hbm]
    rfl

variable (h : stopped s c = some r0)
include h

/-- Step 8 follows step 7 in the order of R50. -/
theorem refusedBy_inOrder {s7 s9 s10 s11 t9 t10 t11 : Option Reply} :
    RefusedBy r0 (inOrder s c s7 s9 s10 s11) (inOrder (stopSetTo stop due s) c s7 t9 t10 t11) :=
  .cons _ (.head ⟨by rw [h]; rfl, fun _ => h⟩)

/-- Playback has no checks before its pipe is known (04 R147). -/
theorem refusedBy_playCheck : RefusedBy r0 (playCheck s c) (playCheck (stopSetTo stop due s) c) := by
  have hcfg : (stopSetTo stop due s).cfg = s.cfg := rfl
  unfold playCheck
  rw [hcfg]
  cases pipeIn s.cfg.committed c.target with
  | none => exact ⟨rfl, fun hnone => absurd hnone (Option.some_ne_none _)⟩
  | some p =>
    dsimp only
    rw [playMismatch_stopSetTo]
    exact refusedBy_inOrder h

/-- The checks that come before the others where a pair of heads, or a compressor's ring, is not the command's to change. -/
theorem refusedBy_first : RefusedBy r0 (dspConfigureCheck s c) (dspConfigureCheck (stopSetTo stop due s) c) ∧
    RefusedBy r0 (checkDspPlane s c) (checkDspPlane (stopSetTo stop due s) c) ∧
    RefusedBy r0 (prerollCheck s c) (prerollCheck (stopSetTo stop due s) c) :=
  ⟨.cons _ (.cons _ (.head (refusedBy_inOrder h))), .cons _ (.head (refusedBy_inOrder h)), .cons _ (.head (refusedBy_inOrder h))⟩

/-- The checks that others follow: a resume's temperature, a fuse's, and those of a commit. -/
theorem refusedBy_followed : RefusedBy r0 (checkSysResume s c) (checkSysResume (stopSetTo stop due s) c) ∧
    RefusedBy r0 (fuseCheck s c) (fuseCheck (stopSetTo stop due s) c) ∧
    RefusedBy r0 (checkEpochCommit s c) (checkEpochCommit (stopSetTo stop due s) c) ∧
    RefusedBy r0 (checkEpochCommitAt s c) (checkEpochCommitAt (stopSetTo stop due s) c) :=
  ⟨.head (refusedBy_inOrder h), .head (refusedBy_inOrder h), .head (refusedBy_inOrder h), .head (refusedBy_inOrder h)⟩

/-- Step 8 refuses in every row. -/
theorem refusedBy_commandRows : ∀ w ∈ commandRows r left errs seen,
    RefusedBy r0 (w.chk s c) (w.chk (stopSetTo stop due s) c) := by
  simp only [commandRows, groomRows, ingestRows, storeRows, serviceRows, deviceRows, List.forall_mem_append,
    List.forall_mem_cons, List.not_mem_nil, false_implies, implies_true, and_true, true_and, refusedBy_first h,
    refusedBy_followed h, refusedBy_playCheck h]
  repeat' apply And.intro
  all_goals exact refusedBy_inOrder h

/-- A command of a row that step 8 refuses is refused, with step 8's answer where no other check fails. -/
theorem exec_row_stopped {w : CmdRow} (hw : w ∈ commandRows r left errs seen) (hstart : startable s r w.op = some c) :
    ∃ rep, exec w.instr s = .next (refuse c rep s) ∧ (w.chk (stopSetTo stop due s) c = none → rep = r0) := by
  obtain ⟨hrefuses, honly⟩ := refusedBy_commandRows (stop := stop) (due := due) h w hw
  obtain ⟨rep, hrep⟩ := Option.isSome_iff_exists.mp hrefuses
  exact ⟨rep, exec_row_refused hw hstart hrep, fun hnone => Option.some.inj (hrep.symm.trans (honly hnone))⟩

end

/-- Step 8 refuses a command that a device in a thermal stop does not take (17 R574). -/
theorem stopped_of_stop (hstop : s.thm.stop ≠ 0) (hno : stopAllows c = false) : stopped s c = some { status := 0x70 } := by
  simp [stopped, need, hstop, hno]

/-- Step 8 refuses a command that names a buffer in HBM that is to enter self-refresh (10 R387). -/
theorem stopped_of_entryDue (hdue : s.sys.entryDue = true) (hbuf : buffersOf c.opcode c.region ≠ []) :
    stopped s c = some { status := 0x70 } := by
  simp [stopped, need, hdue, hbuf]

end

/-- Settles O11: a row runs under its checks, and a refusal is a completion with the reply of the check. -/
theorem failedCheckOnlyCompletes : Obligations.FailedCheckOnlyCompletes := by
  intro r left errs seen w hw s c rep hstart hfail
  exact ⟨_, exec_row_refused hw hstart hfail, rfl, refuse_eq c rep s, fun hlead hdet hcopy hf =>
    ⟨_, refuse_entry hlead hdet hcopy hf, rfl, rfl, rfl, rfl⟩⟩

/-- Settles O12: step 8 stands among the checks of every row, and the checks before it do not look at the stop. -/
theorem stoppedDeviceRefusesCommands : Obligations.StoppedDeviceRefusesCommands := by
  intro r left errs seen w hw s c hstart
  have hop : c.opcode = w.op := startable_op hstart
  refine ⟨fun hstop hlist hstatus => ?stop, fun hdue hbuf => ?entry⟩
  case stop =>
    have hno : stopAllows c = false := by
      rw [stopAllows, hop, hlist, Bool.false_or, Bool.and_eq_false_imp, beq_iff_eq]
      intro hrec
      simpa using hstatus hrec
    obtain ⟨rep, hexec, honly⟩ :=
      exec_row_stopped (stop := 0) (due := s.sys.entryDue) (stopped_of_stop hstop hno) hw hstart
    exact ⟨rep, hexec, fun hnone => by rw [honly hnone]⟩
  case entry =>
    rw [← hop] at hbuf
    obtain ⟨rep, hexec, honly⟩ :=
      exec_row_stopped (stop := s.thm.stop) (due := false) (stopped_of_entryDue hdue hbuf) hw hstart
    exact ⟨rep, hexec, fun hnone => by rw [honly hnone]⟩

end Sys2Proof.Machine
end

section
/-! The host's interrupt registers (20 R638, R640; 03 R100 to R103): status, pending and mask bits, and the vectors. -/
namespace Sys2Proof.Machine

open Sys2Proof

section
variable {f g k n v m : Nat} {value : Word} {mask : Bool} {s t u : State}

/-! ## Folds over the bits of a register -/

/-- A relation that each operation of a fold is in, and that is transitive, holds of the fold. -/
theorem foldl_steps {α : Type} {R : State → State → Prop} {op : State → α → State} (hrefl : ∀ s, R s s)
    (htrans : ∀ {s t u}, R s t → R t u → R s u) : ∀ (l : List α), (∀ s, ∀ a ∈ l, R s (op s a)) → ∀ s, R s (l.foldl op s)
  | [], _, s => hrefl s
  | a :: l, hop, s => htrans (hop s a List.mem_cons_self)
      (foldl_steps hrefl htrans l (fun t b hb => hop t b (List.mem_cons_of_mem _ hb)) (op s a))

/-- A fold of operations each of which gives one reading, of those below a bound, a new value: every reading in the list is new,
every other one as before. -/
theorem foldl_reads {α : Type} {b : Nat} {op : State → Nat → State} {read new : State → Nat → α} {Inv : State → Prop}
    (hinv : ∀ {s} j, Inv s → Inv (op s j)) (hnew : ∀ {s} j, j < b → Inv s → read (op s j) j = new s j)
    (hother : ∀ {s} i j, i < b → Inv s → i ≠ j → read (op s j) i = read s i ∧ new (op s j) i = new s i) :
    ∀ (l : List Nat) (s : State), Inv s → l.Nodup → ∀ i, i < b → read (l.foldl op s) i = if i ∈ l then new s i else read s i
  | [], _, _, _, i, _ => by simp
  | j :: l, s, hs, hl, i, hi => by
    obtain ⟨hj, hl⟩ := List.nodup_cons.mp hl
    rw [List.foldl_cons, foldl_reads hinv hnew hother l (op s j) (hinv j hs) hl i hi]
    by_cases hij : i = j
    · subst hij
      simp [hj, hnew i hi hs]
    · obtain ⟨hread, hnew'⟩ := hother i j hi hs hij
      simp [hij, hread, hnew']

/-! ## Messages -/

/-- From `s` to `t` messages alone may have left: what has left the device and the functions' parts of the interrupts may differ. -/
def Messaged (s t : State) : Prop := t = { s with out := t.out, ints := { s.ints with fns := t.ints.fns } }

theorem Messaged.refl (s : State) : Messaged s s := rfl

theorem Messaged.trans (h : Messaged s t) (h' : Messaged t u) : Messaged s u := by
  unfold Messaged at *
  rw [h', h]

theorem messaged_trySignal : Messaged s (trySignal f v s) := trySignal_eq

theorem messaged_resignal : Messaged s (resignal f v s) := resignal_eq

theorem messaged_modFnInt {h : FnInt → FnInt} : Messaged s (modFnInt f h s) := rfl

/-- A message leaves the pending bits, the routes and their targets, and the stalls. -/
theorem Messaged.isPending (h : Messaged s t) : isPending t n = isPending s n := by
  unfold Messaged at h; rw [h]; rfl

theorem Messaged.targetOf (h : Messaged s t) : targetOf t n = targetOf s n := by
  unfold Messaged at h; rw [h]; rfl

theorem Messaged.vectorOf (h : Messaged s t) : vectorOf t n = vectorOf s n := by
  unfold Messaged at h; rw [h]; rfl

theorem Messaged.stall (h : Messaged s t) : stall t n = stall s n := by
  unfold Messaged at h; rw [h]; rfl

/-- A message of a vector is the entry that it awaits, and what leaves the device. -/
theorem sendVector_eq : sendVector f v s =
    emit (.msix f v) (modFnInt f (fun x => { x with await := x.await ||| (1#64 <<< v) }) s) := rfl

/-- A change of a function's part reaches no other function, and no part that it keeps. -/
theorem fnInt_modFnInt_cases {h : FnInt → FnInt} :
    fnInt (modFnInt f h s) g = fnInt s g ∨ g = f ∧ fnInt (modFnInt f h s) g = h (fnInt s g) := by
  by_cases hg : g = f
  · subst hg
    by_cases hl : g < s.ints.fns.length
    · exact .inr ⟨rfl, fnInt_modFnInt hl⟩
    · left
      simp [fnInt, modFnInt, List.getD_eq_getElem?_getD, hl]
  · exact .inl (fnInt_modFnInt_ne hg)

/-- Of a function's part, a message changes the vectors that await. -/
theorem fnInt_trySignal : ∃ a, fnInt (trySignal f v s) g = { fnInt s g with await := a } := by
  unfold trySignal
  split
  · rcases fnInt_modFnInt_cases (f := f) (g := g) (s := s) (h := fun x => { x with await := x.await ||| (1#64 <<< v) })
      with h | ⟨-, h⟩ <;> exact ⟨_, h⟩
  · exact ⟨_, rfl⟩

theorem fnInt_trySignal_ne (h : g ≠ f) : fnInt (trySignal f v s) g = fnInt s g := by
  unfold trySignal
  split
  · exact fnInt_modFnInt_ne h
  · rfl

theorem fnInt_resignal : ∃ a, fnInt (resignal f v s) g = { fnInt s g with await := a } := by
  unfold resignal
  split
  · exact fnInt_trySignal
  · exact ⟨_, rfl⟩

theorem fnInt_resignal_ne (h : g ≠ f) : fnInt (resignal f v s) g = fnInt s g := by
  unfold resignal
  split
  · exact fnInt_trySignal_ne h
  · rfl

theorem length_fns_modFnInt {h : FnInt → FnInt} : (modFnInt f h s).ints.fns.length = s.ints.fns.length :=
  List.length_modify ..

theorem length_fns_trySignal : (trySignal f v s).ints.fns.length = s.ints.fns.length := by
  unfold trySignal
  split
  · exact length_fns_modFnInt
  · rfl

/-! ## GRM_STATUS and INT_STALL (20 R638, R640) -/

/-- The status command is a write to the register, where the host's access reaches the device. -/
theorem exec_grmStatusClear (h : hostOk s f = true) : exec (.grmStatusClear f value) s = .next (grmStatusWrite f value s) :=
  congrArg Host.Outcome.next (whenHost_of h)

theorem exec_intStallClear (h : hostOk s f = true) : exec (.intStallClear f value) s = .next (intStallWrite f value s) :=
  congrArg Host.Outcome.next (whenHost_of h)

theorem exec_intStallMaskWrite (h : hostOk s f = true) :
    exec (.intStallMaskWrite f value) s = .next (intStallWrite f value s) :=
  congrArg Host.Outcome.next (whenHost_of h)

/-- A stall whose INT_STALL takes a written value. -/
def intStallTaken (value : Word) (x : Stall) : Stall :=
  { x with cplPend := x.cplPend && !value.getLsbD 0, evtPend := x.evtPend && !value.getLsbD 1
           cplMask := value.getLsbD 8, evtMask := value.getLsbD 9 }

/-- A write to INT_STALL changes its stall, and messages may leave. -/
theorem messaged_intStallWrite : Messaged (modStall f (intStallTaken value) s) (intStallWrite f value s) := by
  have h (b : Bool) (v : Nat) (t : State) : Messaged t (if b then resignal f v t else t) := by
    split
    · exact messaged_resignal
    · exact .refl t
  exact (h _ 0 _).trans (h _ 1 _)

/-- Where no source was masked, none is signalled anew. -/
theorem intStallWrite_unmasked (hcpl : (stall s f).cplMask = false) (hevt : (stall s f).evtMask = false) :
    intStallWrite f value s = modStall f (intStallTaken value) s := by
  unfold intStallWrite
  simp only [hcpl, hevt, Bool.false_eq_true, if_false]
  rfl

/-- What a write to INT_STALL leaves. -/
theorem intStallWrite_facts (hf : f < s.stalls.length) : let t := intStallWrite f value s
    t = { s with stalls := t.stalls, out := t.out, ints := { s.ints with fns := t.ints.fns } } ∧
      (∀ g, g ≠ f → stall t g = stall s g) ∧ stall t f = intStallTaken value (stall s f) ∧
      ((stall s f).cplMask = false → (stall s f).evtMask = false → t.out = s.out ∧ t.ints = s.ints) := by
  have hm : Messaged (modStall f (intStallTaken value) s) (intStallWrite f value s) := messaged_intStallWrite
  refine ⟨?_, fun g hg => hm.stall.trans (stall_modStall_ne hg), hm.stall.trans (stall_modStall hf), fun hcpl hevt => ?_⟩
  · unfold Messaged at hm; rw [hm]; rfl
  · rw [intStallWrite_unmasked hcpl hevt]
    exact ⟨rfl, rfl⟩

/-! ## INT_PENDING (03 R100) -/

theorem exec_intPendingClear (h : hostOk s f = true) (hk : k < 20) :
    exec (.intPendingClear f k value) s = .next (pendingWrite f k value s) :=
  (congrArg Host.Outcome.next (whenHost_of h)).trans (congrArg Host.Outcome.next (if_pos hk))

/-- From `s` to `t` sources alone may have been cleared or raised on the leader: the pending bits may differ, and what messages
change. -/
def Cleared (s t : State) : Prop := t = { s with out := t.out, ints := { s.ints with pend := t.ints.pend, fns := t.ints.fns } }

theorem Cleared.trans (h : Cleared s t) (h' : Cleared t u) : Cleared s u := by
  unfold Cleared at *
  rw [h', h]

theorem Cleared.targetOf (h : Cleared s t) : targetOf t n = targetOf s n := by
  unfold Cleared at h; rw [h]; rfl

theorem Cleared.routeOf (h : Cleared s t) : routeOf t n = routeOf s n := by
  unfold Cleared at h; rw [h]; rfl

theorem Cleared.isLeader (h : Cleared s t) : isLeader t = isLeader s := by
  unfold Cleared at h; rw [h]; rfl

theorem Cleared.noticeDue (h : Cleared s t) : noticeDue t n = noticeDue s n := by
  unfold Cleared at h; rw [h]; rfl

/-- On the leader a source that is raised changes the pending bits, and a message may leave. -/
theorem cleared_raise (hlead : isLeader s = true) : Cleared s (raise n s) := by
  obtain ⟨hstalls, htth⟩ := raise_leader (n := n) hlead
  have h := raise_eq n s
  rw [hstalls, htth] at h
  exact h

theorem isPending_unpend_ne (hm : m < 640) (h : m ≠ n) : isPending (unpend n s) m = isPending s m := by
  unfold isPending unpend
  rw [BitVec.getLsbD_and, BitVec.getLsbD_not, getLsbD_shifted_one hm]
  simp [hm, h]

/-- A source that is raised on the leader is pending where ENABLE is set, and leaves every other source. -/
theorem isPending_raise (hlead : isLeader s = true) (hm : m < 640) :
    isPending (raise n s) m = (decide (m = n) && (routeOf s n).enable || isPending s m) := by
  cases hon : (routeOf s n).enable
  · simp [raise_disabled hon]
  · rw [raise_enabled hlead hon, Bool.and_true, ← isPending_pended hm]
    split
    · rfl
    · exact isPending_trySignal

/-- Whether a cleared source sets again: a level notice whose occupancy is still above its level (11 R401). -/
def setsAgain (s : State) (n : Nat) : Bool := decide (368 ≤ n ∧ n < 496) && noticeDue s (n - 368)

theorem clearSource_eq : clearSource n s = if setsAgain s n then raise n (unpend n s) else unpend n s := by
  unfold clearSource setsAgain
  by_cases hn : 368 ≤ n ∧ n < 496
  · simp only [hn, and_self, if_true, decide_true, Bool.true_and]
  · simp [hn]

theorem cleared_clearSource (hlead : isLeader s = true) : Cleared s (clearSource n s) := by
  have hun : Cleared s (unpend n s) := rfl
  rw [clearSource_eq]
  split
  · exact hun.trans (cleared_raise hlead)
  · exact hun

/-- A cleared source is pending only where it sets again and ENABLE is set. -/
theorem isPending_clearSource (hlead : isLeader s = true) (hn : n < 640) :
    isPending (clearSource n s) n = (setsAgain s n && (routeOf s n).enable) := by
  have hroute : routeOf (unpend n s) n = routeOf s n := rfl
  rw [clearSource_eq]
  cases setsAgain s n
  · simp [isPending_unpend hn]
  · simp [isPending_raise (s := unpend n s) hlead hn, isPending_unpend hn, hroute]

theorem isPending_clearSource_ne (hlead : isLeader s = true) (hm : m < 640) (h : m ≠ n) :
    isPending (clearSource n s) m = isPending s m := by
  rw [clearSource_eq]
  split
  · simp [isPending_raise (s := unpend n s) hlead hm, h, isPending_unpend_ne hm h]
  · exact isPending_unpend_ne hm h

/-- One bit of a write to INT_PENDING_k. -/
def pendingBitWrite (f k : Nat) (value : Word) (s : State) (j : Nat) : State :=
  if value.getLsbD j && isPending s (32 * k + j) && targetOf s (32 * k + j) == f then clearSource (32 * k + j) s else s

theorem pendingWrite_eq : pendingWrite f k value s = (List.range 32).foldl (pendingBitWrite f k value) s := rfl

theorem cleared_pendingBitWrite (hlead : isLeader s = true) (j : Nat) : Cleared s (pendingBitWrite f k value s j) := by
  unfold pendingBitWrite
  split
  · exact cleared_clearSource hlead
  · rfl

/-- A write to INT_PENDING_k on the leader changes the pending bits, and messages may leave. -/
theorem cleared_pendingWrite (hlead : isLeader s = true) : Cleared s (pendingWrite f k value s) := by
  rw [pendingWrite_eq]
  exact foldl_steps (R := fun s t => isLeader s = true → Cleared s t) (fun _ _ => rfl)
    (fun h h' hs => (h hs).trans (h' ((h hs).isLeader.trans hs))) _ (fun _ j _ ht => cleared_pendingBitWrite ht j) s hlead

/-- What a write to INT_PENDING_k makes of the pending bit of a source of the word. -/
def pendingTaken (f k : Nat) (value : Word) (s : State) (j : Nat) : Bool :=
  if value.getLsbD j = true ∧ targetOf s (32 * k + j) = f then
    isPending s (32 * k + j) && setsAgain s (32 * k + j) && (routeOf s (32 * k + j)).enable
  else isPending s (32 * k + j)

theorem isPending_pendingBitWrite_ne (hlead : isLeader s = true) (hm : m < 640) {j : Nat} (h : m ≠ 32 * k + j) :
    isPending (pendingBitWrite f k value s j) m = isPending s m := by
  unfold pendingBitWrite
  split
  · exact isPending_clearSource_ne hlead hm h
  · rfl

theorem isPending_pendingBitWrite (hlead : isLeader s = true) {j : Nat} (hj : 32 * k + j < 640) :
    isPending (pendingBitWrite f k value s j) (32 * k + j) = pendingTaken f k value s j := by
  unfold pendingBitWrite pendingTaken
  cases hp : isPending s (32 * k + j)
  · simp [hp]
  · by_cases hw : value.getLsbD j = true ∧ targetOf s (32 * k + j) = f
    · simp [hw, isPending_clearSource hlead hj]
    · rw [if_neg (by simpa using hw), if_neg hw, hp]

/-- One bit leaves what a write makes of another. -/
theorem pendingTaken_pendingBitWrite (hlead : isLeader s = true) {i j : Nat} (hi : 32 * k + i < 640) (hij : i ≠ j) :
    pendingTaken f k value (pendingBitWrite f k value s j) i = pendingTaken f k value s i := by
  have hc : Cleared s (pendingBitWrite f k value s j) := cleared_pendingBitWrite hlead j
  unfold pendingTaken setsAgain
  rw [isPending_pendingBitWrite_ne hlead hi (by omega), hc.targetOf, hc.routeOf, hc.noticeDue]

/-- The sources of the word after a write to INT_PENDING_k. -/
theorem isPending_pendingWrite (hlead : isLeader s = true) (hk : k < 20) {j : Nat} (hj : j < 32) :
    isPending (pendingWrite f k value s) (32 * k + j) = pendingTaken f k value s j := by
  have h := foldl_reads (b := 32) (Inv := fun t => isLeader t = true) (op := pendingBitWrite f k value)
    (read := fun t i => isPending t (32 * k + i)) (new := pendingTaken f k value)
    (fun j ht => (cleared_pendingBitWrite ht j).isLeader.trans ht)
    (fun i hi ht => isPending_pendingBitWrite ht (by omega))
    (fun i j hi ht hij => ⟨isPending_pendingBitWrite_ne ht (by omega) (by omega), pendingTaken_pendingBitWrite ht (by omega) hij⟩)
    (List.range 32) s hlead List.nodup_range j hj
  rw [if_pos (List.mem_range.mpr hj)] at h
  exact h

/-- Every other source. -/
theorem isPending_pendingWrite_ne (hlead : isLeader s = true) (hm : m < 640) (h : m / 32 ≠ k) :
    isPending (pendingWrite f k value s) m = isPending s m := by
  rw [pendingWrite_eq]
  refine And.right (foldl_steps (R := fun t u => isLeader t = true → isLeader u = true ∧ isPending u m = isPending t m)
    (fun _ ht => ⟨ht, rfl⟩) (fun h h' ht => ?_) _ (fun t j hj ht => ?_) s hlead)
  · obtain ⟨hu, hpend⟩ := h ht
    obtain ⟨hv, hpend'⟩ := h' hu
    exact ⟨hv, hpend'.trans hpend⟩
  · rw [List.mem_range] at hj
    exact ⟨(cleared_pendingBitWrite ht j).isLeader.trans ht, isPending_pendingBitWrite_ne ht hm (by omega)⟩

/-! ## INT_MASK (03 R100, R103) -/

theorem exec_intMaskWrite (h : hostOk s f = true) (hk : k < 20) :
    exec (.intMaskWrite f k value) s = .next (maskWrite f k value s) :=
  (congrArg Host.Outcome.next (whenHost_of h)).trans (congrArg Host.Outcome.next (if_pos hk))

/-- A function's part with the mask bit of a source taking a value. -/
def maskBitSet (n : Nat) (b : Bool) (x : FnInt) : FnInt :=
  { x with intMask := if b then x.intMask ||| (1#640 <<< n) else x.intMask &&& ~~~(1#640 <<< n) }

/-- One bit of a write to INT_MASK_k. -/
def maskBitWrite (f k : Nat) (value : Word) (s : State) (j : Nat) : State :=
  let n := 32 * k + j
  if targetOf s n == f then
    let t := modFnInt f (maskBitSet n (value.getLsbD j)) s
    if !value.getLsbD j && isMasked s f n && isPending s n then trySignal f (vectorOf s n) t else t
  else s

theorem maskWrite_eq : maskWrite f k value s = (List.range 32).foldl (maskBitWrite f k value) s := rfl

theorem getLsbD_maskBitSet {x : FnInt} {b : Bool} (hm : m < 640) :
    (maskBitSet n b x).intMask.getLsbD m = if m = n then b else x.intMask.getLsbD m := by
  unfold maskBitSet
  cases b
  · simp only [Bool.false_eq_true, if_false, BitVec.getLsbD_and, BitVec.getLsbD_not, getLsbD_shifted_one hm, hm]
    by_cases h : m = n <;> simp [h]
  · simp only [if_true, BitVec.getLsbD_or, getLsbD_shifted_one hm]
    by_cases h : m = n <;> simp [h]

/-- The mask bit of a source after its bit of the word is written. -/
theorem isMasked_modFnInt_maskBitSet {b : Bool} (hf : f < s.ints.fns.length) (hm : m < 640) :
    isMasked (modFnInt f (maskBitSet n b) s) f m = if m = n then b else isMasked s f m := by
  unfold isMasked
  rw [fnInt_modFnInt hf, getLsbD_maskBitSet hm]

theorem messaged_maskBitWrite (j : Nat) : Messaged s (maskBitWrite f k value s j) := by
  unfold maskBitWrite
  dsimp only
  split
  · split
    · exact messaged_modFnInt.trans messaged_trySignal
    · exact messaged_modFnInt
  · exact .refl s

theorem length_fns_maskBitWrite (j : Nat) : (maskBitWrite f k value s j).ints.fns.length = s.ints.fns.length := by
  unfold maskBitWrite
  dsimp only
  split
  · split
    · exact length_fns_trySignal.trans length_fns_modFnInt
    · exact length_fns_modFnInt
  · rfl

theorem isMasked_maskBitWrite (hf : f < s.ints.fns.length) (hm : m < 640) {j : Nat} :
    isMasked (maskBitWrite f k value s j) f m =
      if m = 32 * k + j ∧ targetOf s (32 * k + j) = f then value.getLsbD j else isMasked s f m := by
  unfold maskBitWrite
  dsimp only
  by_cases ht : targetOf s (32 * k + j) = f
  · rw [if_pos (by simpa using ht)]
    simp only [ht, and_true]
    rw [← isMasked_modFnInt_maskBitSet (n := 32 * k + j) hf hm]
    split
    · exact isMasked_trySignal
    · rfl
  · simp [ht]

theorem fnInt_maskBitWrite_ne (h : g ≠ f) (j : Nat) : fnInt (maskBitWrite f k value s j) g = fnInt s g := by
  unfold maskBitWrite
  dsimp only
  split
  · split
    · exact (fnInt_trySignal_ne h).trans (fnInt_modFnInt_ne h)
    · exact fnInt_modFnInt_ne h
  · rfl

theorem messaged_maskWrite : Messaged s (maskWrite f k value s) :=
  foldl_steps Messaged.refl Messaged.trans _ (fun _ j _ => messaged_maskBitWrite j) s

theorem fnInt_maskWrite_ne (h : g ≠ f) : fnInt (maskWrite f k value s) g = fnInt s g :=
  foldl_leaves (p := fun t => fnInt t g) (fun _ j => fnInt_maskBitWrite_ne h j) (List.range 32) s

/-- What a write to INT_MASK_k makes of the mask bit of a source of the word. -/
def maskTaken (f k : Nat) (value : Word) (s : State) (j : Nat) : Bool :=
  if targetOf s (32 * k + j) = f then value.getLsbD j else isMasked s f (32 * k + j)

/-- The sources of the word after a write to INT_MASK_k. -/
theorem isMasked_maskWrite (hf : f < s.ints.fns.length) (hk : k < 20) {j : Nat} (hj : j < 32) :
    isMasked (maskWrite f k value s) f (32 * k + j) = maskTaken f k value s j := by
  have hbit {t : State} (i : Nat) : targetOf (maskBitWrite f k value t i) = targetOf t := by
    funext n
    exact (messaged_maskBitWrite i).targetOf
  have h := foldl_reads (b := 32) (Inv := fun t => f < t.ints.fns.length) (op := maskBitWrite f k value)
    (read := fun t i => isMasked t f (32 * k + i)) (new := maskTaken f k value)
    (fun i ht => (length_fns_maskBitWrite i).symm ▸ ht)
    (fun i hi ht => by simp [isMasked_maskBitWrite ht (m := 32 * k + i) (by omega), maskTaken])
    (fun i i' hi ht hne => by simp [isMasked_maskBitWrite ht (m := 32 * k + i) (by omega), maskTaken, hbit, hne])
    (List.range 32) s hf List.nodup_range j hj
  rw [if_pos (List.mem_range.mpr hj)] at h
  exact h

/-- Every other source. -/
theorem isMasked_maskWrite_ne (hf : f < s.ints.fns.length) (hm : m < 640) (h : m / 32 ≠ k) :
    isMasked (maskWrite f k value s) f m = isMasked s f m := by
  rw [maskWrite_eq]
  refine And.right (foldl_steps
    (R := fun t u => f < t.ints.fns.length → f < u.ints.fns.length ∧ isMasked u f m = isMasked t f m)
    (fun _ ht => ⟨ht, rfl⟩) (fun h h' ht => ?_) _ (fun t j hj ht => ?_) s hf)
  · obtain ⟨hu, hmask⟩ := h ht
    obtain ⟨hv, hmask'⟩ := h' hu
    exact ⟨hv, hmask'.trans hmask⟩
  · rw [List.mem_range] at hj
    exact ⟨(length_fns_maskBitWrite j).symm ▸ ht, (isMasked_maskBitWrite ht hm).trans (if_neg (by omega))⟩

end

/-- Settles O15: the two status registers change their stall as written; the folds over a word of INT_PENDING and of INT_MASK give
each source of the word its new bit and leave every other. -/
theorem statusAndPendingBitsWritten : Obligations.StatusAndPendingBitsWritten := by
  refine ⟨fun fn value s hhost hfn => ⟨?status, ?intStall⟩, fun fn k value s hhost hk => ⟨?pending, fun hfn => ?mask⟩⟩
  case status =>
    exact ⟨_, exec_grmStatusClear hhost, rfl, fun g hg => stall_modStall_ne hg, stall_modStall hfn⟩
  case intStall =>
    rintro i (rfl | rfl)
    · exact ⟨_, exec_intStallClear hhost, intStallWrite_facts hfn⟩
    · exact ⟨_, exec_intStallMaskWrite hhost, intStallWrite_facts hfn⟩
  case pending =>
    have hlead := isLeader_of_hostOk hhost
    refine ⟨_, exec_intPendingClear hhost hk, cleared_pendingWrite hlead, fun n hn => ?_⟩
    by_cases hword : n / 32 = k
    · have hsplit : 32 * k + n % 32 = n := by omega
      have h := isPending_pendingWrite (f := fn) (value := value) hlead hk (Nat.mod_lt n (by decide : 0 < 32))
      rw [hsplit] at h
      rw [h, pendingTaken, hsplit]
      simp only [hword, true_and, setsAgain, Bool.and_assoc]
    · rw [isPending_pendingWrite_ne hlead hn hword, if_neg fun h => hword h.1]
  case mask =>
    refine ⟨_, exec_intMaskWrite hhost hk, messaged_maskWrite, fun n hn => ?_, fun g hg => fnInt_maskWrite_ne hg⟩
    by_cases hword : n / 32 = k
    · have hsplit : 32 * k + n % 32 = n := by omega
      have h := isMasked_maskWrite (value := value) hfn hk (Nat.mod_lt n (by decide : 0 < 32))
      rw [hsplit] at h
      rw [h, maskTaken, hsplit]
      simp only [hword, true_and]
    · rw [isMasked_maskWrite_ne hfn hn hword, if_neg fun h => hword h.1]

end Sys2Proof.Machine
end

section
/-! MSI-X vectors (03 R102, R103; 02 R64): acknowledgement, Enable and the masks. -/
namespace Sys2Proof.Machine

open Sys2Proof

section
variable {f g n v m : Nat} {value : Word} {entry : Option Nat} {mask : Bool} {x : FnInt} {s t u : State}

/-! ## Acknowledgement (03 R102) -/

theorem exec_intVecAck (h : hostOk s f = true) : exec (.intVecAck f value) s = .next (vecAck f value s) :=
  congrArg Host.Outcome.next (whenHost_of h)

/-- A function's part in which a vector no longer awaits. -/
def acknowledged (v : Nat) (x : FnInt) : FnInt := { x with await := x.await &&& ~~~(1#64 <<< v) }

/-- The bit of one vector in a word with another's. -/
theorem getLsbD_shifted_vector (hm : m < 64) : (1#64 <<< n).getLsbD m = decide (m = n) := by
  by_cases h : m = n
  · subst h; simp [hm]
  · simp only [BitVec.getLsbD_shiftLeft, hm, decide_true, Bool.true_and, h, decide_false]
    by_cases hlt : m < n
    · simp [hlt]
    · simp only [hlt, decide_false, Bool.not_false, Bool.true_and, BitVec.getLsbD_one, Bool.and_eq_false_imp]
      intro _
      simpa using (by omega : m - n ≠ 0)

theorem getLsbD_acknowledged (hm : m < 64) : (acknowledged v x).await.getLsbD m = (x.await.getLsbD m && !decide (m = v)) := by
  simp only [acknowledged, BitVec.getLsbD_and, BitVec.getLsbD_not, getLsbD_shifted_vector hm, hm, decide_true, Bool.true_and]

/-- A message is sent where a vector that awaits nothing is due and the function may send it. -/
theorem resignal_sends (hdue : vectorDue s f v = true) (hcan : canSend s f v = true)
    (hawait : (fnInt s f).await.getLsbD v = false) : resignal f v s = sendVector f v s := by
  simp [resignal, hdue, trySignal_sends hcan hawait]

theorem resignal_quiet (h : (vectorDue s f v && canSend s f v) = false) : resignal f v s = s := by
  unfold resignal
  split
  · next hdue => exact trySignal_quiet (.inl (by simpa [hdue] using h))
  · rfl

/-- A vector that is acknowledged is due for the same sources. -/
theorem vectorDue_acknowledged : vectorDue (modFnInt f (acknowledged m) s) f v = vectorDue s f v := by
  have hmask (n : Nat) : isMasked (modFnInt f (acknowledged m) s) f n = isMasked s f n := isMasked_modFnInt fun _ => rfl
  unfold vectorDue
  simp only [hmask]
  rfl

section
variable (hf : f < s.ints.fns.length)
include hf

/-- A vector that is acknowledged may still be sent. -/
theorem canSend_acknowledged : canSend (modFnInt f (acknowledged m) s) f v = canSend s f v := by
  unfold canSend
  rw [fnInt_modFnInt hf]
  rfl

/-- The vectors that await after a message: its own, too. -/
theorem getLsbD_await_sendVector (hm : m < 64) :
    (fnInt (sendVector f v s) f).await.getLsbD m = ((fnInt s f).await.getLsbD m || decide (m = v)) := by
  rw [sendVector_eq]
  show (fnInt (modFnInt f _ s) f).await.getLsbD m = _
  rw [fnInt_modFnInt hf, BitVec.getLsbD_or, getLsbD_shifted_vector hm]

/-- The outcome of an acknowledgement: the vector's message where it is due and can be sent, and the vector's part alone. -/
theorem vecAck_facts : let t := vecAck f value s
    let v := value.toNat % 64
    (∀ m, m ≠ v → m < 64 → (fnInt t f).await.getLsbD m = (fnInt s f).await.getLsbD m) ∧
    (if vectorDue s f v && canSend s f v then t.out = s.out ++ [.msix f v] ∧ (fnInt t f).await.getLsbD v = true
      else t.out = s.out ∧ (fnInt t f).await.getLsbD v = false) := by
  intro t v
  have hv : v < 64 := Nat.mod_lt _ (by decide)
  have hawait {m : Nat} (hm : m < 64) : (fnInt (modFnInt f (acknowledged v) s) f).await.getLsbD m =
      ((fnInt s f).await.getLsbD m && !decide (m = v)) := by
    rw [fnInt_modFnInt hf, getLsbD_acknowledged hm]
  cases hdue : vectorDue s f v && canSend s f v
  · have ht : t = modFnInt f (acknowledged v) s :=
      resignal_quiet (s := modFnInt f (acknowledged v) s) (by rw [vectorDue_acknowledged, canSend_acknowledged hf, hdue])
    rw [ht]
    exact ⟨fun m hne hm => by simp [hawait hm, hne], rfl, by simp [hawait hv]⟩
  · obtain ⟨hd, hc⟩ := Bool.and_eq_true_iff.mp hdue
    have ht : t = sendVector f v (modFnInt f (acknowledged v) s) :=
      resignal_sends (v := v) (s := modFnInt f (acknowledged v) s) (vectorDue_acknowledged.trans hd) ((canSend_acknowledged hf).trans hc)
        (by simp [hawait hv])
    have hsent {m : Nat} (hm : m < 64) := getLsbD_await_sendVector (f := f) (v := v) (m := m)
      (s := modFnInt f (acknowledged v) s) (length_fns_modFnInt.symm ▸ hf) hm
    rw [ht]
    exact ⟨fun m hne hm => by simp [hsent hm, hawait hm, hne], rfl, by simp [hsent hv]⟩

end

/-! ## MSI-X Enable (03 R103, 02 R64) -/

theorem exec_msixEnable (h : hostOk s f = true) : exec (.msixEnable f) s = .next (msixOn f s) :=
  congrArg Host.Outcome.next (whenHost_of h)

/-- The state with MSI-X Enable set and the stall sources raised again. -/
def enabledAgain (f : Nat) (s : State) : State := modFnInt f (fun x => { x with msixEnable := true }) (stallSourcesAgain f s)

theorem msixOn_eq : msixOn f s = (dueVectors (enabledAgain f s) f).foldl (fun t v => forceSignal f v t) (enabledAgain f s) := rfl

theorem messaged_forceSignal : Messaged s (forceSignal f v s) := by
  unfold forceSignal
  split <;> rfl

/-- A forced message leaves all of a function's part but the vectors that await. -/
theorem fnInt_forceSignal : ∃ a, fnInt (forceSignal f v s) g = { fnInt s g with await := a } := by
  unfold forceSignal
  split
  · rcases fnInt_modFnInt_cases (f := f) (g := g) (s := s) (h := fun x => { x with await := x.await ||| (1#64 <<< v) })
      with h | ⟨-, h⟩ <;> exact ⟨_, h⟩
  · exact ⟨_, rfl⟩

/-- Whether a function may send does not depend on the vectors that await. -/
theorem Messaged.canSend (h : Messaged s t) (ha : ∃ a, fnInt t f = { fnInt s f with await := a }) :
    canSend t f v = canSend s f v := by
  obtain ⟨a, ha⟩ := ha
  unfold Messaged at h
  unfold Machine.canSend
  rw [ha, h]
  rfl

/-- What a run of forced messages keeps: all but what has left the device, which grows, and the vectors that await. -/
structure Forced (f : Nat) (s t : State) : Prop where
  messaged : Messaged s t
  grows : ∃ o, t.out = s.out ++ o
  part : ∃ a, fnInt t f = { fnInt s f with await := a }

theorem Forced.trans (h : Forced f s t) (h' : Forced f t u) : Forced f s u where
  messaged := h.messaged.trans h'.messaged
  grows := by
    obtain ⟨o, ho⟩ := h.grows
    obtain ⟨o', ho'⟩ := h'.grows
    exact ⟨o ++ o', by rw [ho', ho, List.append_assoc]⟩
  part := by
    obtain ⟨a, ha⟩ := h.part
    obtain ⟨a', ha'⟩ := h'.part
    exact ⟨a', by rw [ha', ha]⟩

theorem forced_forceSignal : Forced f s (forceSignal f v s) where
  messaged := messaged_forceSignal
  grows := by
    unfold forceSignal
    split
    · exact ⟨[.msix f v], rfl⟩
    · exact ⟨[], (List.append_nil _).symm⟩
  part := fnInt_forceSignal

theorem forced_foldl (l : List Nat) (s : State) : Forced f s (l.foldl (fun t v => forceSignal f v t) s) :=
  foldl_steps (R := Forced f) (fun _ => ⟨rfl, ⟨[], (List.append_nil _).symm⟩, ⟨_, rfl⟩⟩) Forced.trans l (fun _ _ _ => forced_forceSignal) s

/-- Each vector of the run that the function may send leaves. -/
theorem mem_out_foldl_forceSignal {l : List Nat} (hv : v ∈ l) (hcan : canSend s f v = true) :
    .msix f v ∈ (l.foldl (fun t v => forceSignal f v t) s).out := by
  induction l generalizing s with
  | nil => exact absurd hv List.not_mem_nil
  | cons w l ih =>
    rw [List.foldl_cons]
    rcases List.mem_cons.mp hv with rfl | hv
    · obtain ⟨o, ho⟩ := (forced_foldl (f := f) l (forceSignal f v s)).grows
      have hsent : forceSignal f v s = sendVector f v s := if_pos hcan
      rw [ho, hsent]
      exact List.mem_append_left _ (List.mem_append_right _ List.mem_cons_self)
    · have hone : Forced f s (forceSignal f w s) := forced_forceSignal
      exact ih hv ((hone.messaged.canSend hone.part).trans hcan)

/-- A source that is pending and not masked makes its vector due. -/
theorem mem_dueVectors (hn : n < 640) (hp : isPending s n = true) (ht : targetOf s n = f) (hm : isMasked s f n = false) :
    vectorOf s n ∈ dueVectors s f := by
  unfold dueVectors
  refine List.mem_dedup.mpr (List.mem_append_right _ (List.mem_map.mpr ⟨n, List.mem_filter.mpr ⟨?_, ?_⟩, rfl⟩))
  · exact List.mem_range.mpr hn
  · simp [hp, ht, hm]

/-! ## Masks (03 R103) -/

theorem exec_msixMaskWrite (h : hostOk s f = true) : exec (.msixMaskWrite f entry mask) s = .next (msixMask f entry mask s) :=
  congrArg Host.Outcome.next (whenHost_of h)

/-- A function's part with the mask bit of a vector, or the function's own mask, taking a value. -/
def msixMasked (entry : Option Nat) (mask : Bool) (x : FnInt) : FnInt :=
  match entry with
  | some v => { x with vecMask := if mask then x.vecMask ||| (1#64 <<< v) else x.vecMask &&& ~~~(1#64 <<< v) }
  | none => { x with fnMask := mask }

/-- Setting a mask changes the function's part alone; clearing one signals vectors besides. -/
theorem msixMask_set : msixMask f entry true s = modFnInt f (msixMasked entry true) s := by
  cases entry <;> rfl

theorem msixMask_cleared : msixMask f entry false s = match entry with
    | some v => resignal f v (modFnInt f (msixMasked (some v) false) s)
    | none => (dueVectors (modFnInt f (msixMasked none false) s) f).foldl (fun t v => trySignal f v t)
        (modFnInt f (msixMasked none false) s) := by
  cases entry <;> rfl

theorem getLsbD_msixMasked (hv : v < 64) : (msixMasked (some v) mask x).vecMask.getLsbD v = mask := by
  cases mask <;> simp [msixMasked, hv]

/-- What follows the change of a mask: messages, which leave all of the function's part but the vectors that await. -/
theorem msixMask_facts : Messaged s (msixMask f entry mask s) ∧
    ∃ a, fnInt (msixMask f entry mask s) f = { fnInt (modFnInt f (msixMasked entry mask) s) f with await := a } := by
  cases mask
  · rw [msixMask_cleared]
    cases entry with
    | some v => exact ⟨messaged_modFnInt.trans messaged_resignal, fnInt_resignal⟩
    | none =>
      refine ⟨messaged_modFnInt.trans (foldl_steps Messaged.refl Messaged.trans _ (fun _ _ _ => messaged_trySignal) _), ?_⟩
      refine foldl_steps (R := fun t u => ∃ a, fnInt u f = { fnInt t f with await := a }) (fun _ => ⟨_, rfl⟩) ?_ _
        (fun _ _ _ => fnInt_trySignal) _
      rintro s t u ⟨a, ha⟩ ⟨a', ha'⟩
      exact ⟨a', by rw [ha', ha]⟩
  · rw [msixMask_set]
    exact ⟨messaged_modFnInt, _, rfl⟩

end

/-- Settles O16: an acknowledged vector is due and can be sent as before; Enable forces the vectors that are due; a change of a
mask is followed by messages, which leave the masks. -/
theorem vectorsAcknowledgedAndMasked : Obligations.VectorsAcknowledgedAndMasked := by
  intro fn s hhost hfn hstall
  refine ⟨fun value => ?ack, ?enable, fun entry mask => ?mask⟩
  case ack =>
    obtain ⟨hothers, hsent⟩ := vecAck_facts (value := value) hfn
    exact ⟨_, exec_intVecAck hhost, messaged_modFnInt.trans messaged_resignal,
      fun g hg => (fnInt_resignal_ne hg).trans (fnInt_modFnInt_ne hg), hothers, hsent⟩
  case enable =>
    have hrun := forced_foldl (f := fn) (dueVectors (enabledAgain fn s) fn) (enabledAgain fn s)
    rw [← msixOn_eq] at hrun
    have hpart : fnInt (enabledAgain fn s) fn = { fnInt s fn with msixEnable := true } := fnInt_modFnInt hfn
    obtain ⟨a, ha⟩ := hrun.part
    refine ⟨_, exec_msixEnable hhost, by rw [ha, hpart], ?_, hrun.messaged.stall.trans (stall_modStall hstall),
      fun n hn hp ht hm hfm hvm => ?_⟩
    · have h := hrun.messaged
      unfold Messaged at h
      rw [h]
      rfl
    · have hmask : isMasked (enabledAgain fn s) fn n = isMasked s fn n := isMasked_modFnInt fun _ => rfl
      have hhost' : (groomOn s && s.sys.linkUp && isLeader s) = true := by
        simp only [hostOk, Bool.and_eq_true] at hhost ⊢
        exact ⟨⟨hhost.1.2, hhost.1.1.2⟩, hhost.2⟩
      have hcan : canSend (enabledAgain fn s) fn (vectorOf s n) = true := by
        unfold canSend
        rw [hpart]
        simp only [hfm, hvm, Bool.not_false, Bool.and_true]
        exact hhost'
      exact mem_out_foldl_forceSignal (mem_dueVectors hn hp ht (hmask.trans hm)) hcan
  case mask =>
    obtain ⟨hm, a, ha⟩ := msixMask_facts (f := fn) (entry := entry) (mask := mask) (s := s)
    rw [fnInt_modFnInt hfn] at ha
    refine ⟨_, exec_msixMaskWrite hhost, hm, ?_, ?_, ?_⟩
    · rintro rfl
      rw [msixMask_set]
      rfl
    · rintro rfl
      rw [ha]
      rfl
    · rintro v rfl hv
      rw [ha]
      exact ⟨getLsbD_msixMasked hv, rfl⟩

end Sys2Proof.Machine
end

section
/-! The host's reads with side effects, the READ indices of the rings (20 R642 to R646; 11 R402, R404), and writes by offset
(20 R630, R631). -/
namespace Sys2Proof.Machine

open Sys2Proof

section
variable {f g l k n o q e v : Nat} {value : Word} {ring : RingReg} {s : State} (h : hostOk s f = true)
include h

/-! ## Reads with side effects -/

theorem exec_queOccRead (hq : q < 128) : exec (.queOccRead f q) s = .next (occRead f q s) :=
  (congrArg Host.Outcome.next (whenHost_of h)).trans (congrArg Host.Outcome.next (if_pos hq))

theorem exec_quePeakRead (hq : q < 128) : exec (.quePeakRead f q) s = .next (peakRead f q s) :=
  (congrArg Host.Outcome.next (whenHost_of h)).trans (congrArg Host.Outcome.next (if_pos hq))

theorem exec_ptpTimeCapture {w : TimeReg} (hw : w.wf = true) : exec (.ptpTimeCapture f w) s = .next (timeCapture f w s) :=
  (congrArg Host.Outcome.next (whenHost_of h)).trans (congrArg Host.Outcome.next (if_pos hw))

theorem exec_lneStatRead (hl : l < 72) : exec (.lneStatRead f l) s = .next (laneStatRead f l s) :=
  (congrArg Host.Outcome.next (whenHost_of h)).trans (congrArg Host.Outcome.next (if_pos hl))

theorem exec_ringReadAdvance : exec (.ringReadAdvance f ring value) s = .next (readAdvance f ring value s) :=
  congrArg Host.Outcome.next (whenHost_of h)

/-! ## Writes by offset -/

theorem exec_registerWrite : exec (.registerWrite f o value) s = .next (regWrite f o value s) :=
  congrArg Host.Outcome.next (whenHost_of h)

end

section
variable {f g l k n o q e v : Nat} {value : Word} {ring : RingReg} {s : State}

/-- A read of QUE_OCC in the owner's BAR clears CROSSINGS. -/
theorem occRead_owner (h : ownerOf s (myUnit s 0x51 q) = f) : occRead f q s =
    emit (.readData f (0x4000 + 8 * q) (queOcc (queue s q))) (modQueue q (fun x => { x with crossings := 0 }) s) := by
  simp [occRead, h]

theorem occRead_other (h : ownerOf s (myUnit s 0x51 q) ≠ f) : occRead f q s = emit (.readData f (0x4000 + 8 * q) 0) s := by
  simp [occRead, h]

/-- A read of QUE_PEAK in the owner's BAR loads PEAK with the occupancy. -/
theorem peakRead_owner (h : ownerOf s (myUnit s 0x51 q) = f) : peakRead f q s =
    emit (.readData f (0x4004 + 8 * q) (quePeak (queue s q))) (modQueue q (fun x => { x with peak := x.occ }) s) := by
  simp [peakRead, h]

theorem peakRead_other (h : ownerOf s (myUnit s 0x51 q) ≠ f) : peakRead f q s = emit (.readData f (0x4004 + 8 * q) 0) s := by
  simp [peakRead, h]

/-- A read of LNE_STAT changes the lanes and answers; in the BAR of another function than F0 it answers 0. -/
theorem laneStatRead_facts : let t := laneStatRead f l s
    { t with lanes := s.lanes, out := s.out } = s ∧
      (f ≠ 0 → t.lanes = s.lanes ∧ t.out = s.out ++ [.readData f (0x101000 + 8 * l) 0]) ∧
      (f = 0 → t.out = s.out ++ [.readData f (0x101000 + 8 * l) (lneStat (s.lanes.getD l {}))] ∧
        t.lanes = s.lanes.modify l fun x => { x with syncErr := 0, downs := 0 }) := by
  dsimp only
  unfold laneStatRead
  split
  · next hf => exact ⟨rfl, fun _ => ⟨rfl, rfl⟩, fun h0 => absurd h0 hf⟩
  · next hf => exact ⟨rfl, fun h0 => absurd h0 hf, fun _ => ⟨rfl, rfl⟩⟩

theorem readOk_iff {rd wr : Nat} : readOk rd wr v = true ↔ (v + 65536 - rd) % 65536 ≤ (wr + 65536 - rd) % 65536 :=
  decide_eq_true_iff

/-- A READ index is taken from the owner, where it frees slots and passes no WRITE (20 R645). -/
theorem readAdvance_eq : readAdvance f ring value s =
    if ownerOf s (ringOf s ring).1 = f ∧ readOk (ringOf s ring).2.1 (ringOf s ring).2.2 (value.toNat % 65536) = true then
      setRead ring (value.toNat % 65536) s else s := by
  simp [readAdvance]

/-! ## The words of a stall (02 R35, log 7) -/

/-- A stall with a word written to its command ring or its payload window. -/
def wordWritten (o : Nat) (value : Word) (x : Stall) : Stall :=
  { x with mem := Mem.writes x.mem o (leBytes 4 value.toNat)
           begun := if o < 0x2000 then x.begun ||| (1#64 <<< ((o - 0x1000) / 64)) else x.begun }

theorem stallWrite_inside
    (h : (0x1000 ≤ o ∧ o < 0x2000) ∨ (0x10000 ≤ o ∧ o + 4 ≤ 0x10000 + 1024 * (stall s f).windowKib)) :
    stallWrite f o value s = modStall f (wordWritten o value) s := if_pos h

theorem length_leBytes : ∀ {n v : Nat}, (leBytes n v).length = n
  | 0, _ => rfl
  | n + 1, v => by rw [leBytes, List.length_cons, length_leBytes]

/-! ## The offsets of the map (20 R630, R631) -/

/-- Beyond the ring index registers, and before them, no ring stands. -/
theorem ringAt_none (h : o < 0x5000 ∨ 0x5200 ≤ o) : ringAt o = none := by
  unfold ringAt
  rw [if_neg (by omega), if_neg (by omega), if_neg (by omega), if_neg (by omega)]

theorem regWrite_ignored (h : o % 4 ≠ 0 ∨ (0x2108 ≤ o ∧ o < 0x5000) ∨ 0x102000 ≤ o) : regWrite f o value s = s := by
  unfold regWrite
  by_cases ho : o % 4 ≠ 0
  · rw [if_pos ho]
  · rw [if_neg ho, if_neg (by omega), if_neg (by omega), if_neg (by omega), if_neg (by omega), if_neg (by omega),
      if_neg (by omega), if_neg (by omega), if_neg (by omega), if_neg (by omega), if_neg (by omega), ringAt_none (by omega)]

theorem regWrite_pending (hk : k < 20) : regWrite f (0x2000 + 4 * k) value s = pendingWrite f k value s := by
  have hidx : (0x2000 + 4 * k - 0x2000) / 4 = k := by omega
  unfold regWrite
  rw [if_neg (by omega), if_neg (by omega), if_neg (by omega), if_neg (by omega), if_neg (by omega), if_pos (by omega), hidx]

theorem regWrite_mask (hk : k < 20) : regWrite f (0x2080 + 4 * k) value s = maskWrite f k value s := by
  have hidx : (0x2080 + 4 * k - 0x2080) / 4 = k := by omega
  unfold regWrite
  rw [if_neg (by omega), if_neg (by omega), if_neg (by omega), if_neg (by omega), if_neg (by omega), if_neg (by omega),
    if_pos (by omega), hidx]

theorem regWrite_route (hn : n < 640) : regWrite f (0x100000 + 4 * n) value s = routeWrite f n value s := by
  have hidx : (0x100000 + 4 * n - 0x100000) / 4 = n := by omega
  unfold regWrite
  rw [if_neg (by omega), if_neg (by omega), if_neg (by omega), if_neg (by omega), if_neg (by omega), if_neg (by omega),
    if_neg (by omega), if_neg (by omega), if_neg (by omega), if_neg (by omega), if_pos (by omega), hidx]

theorem regWrite_stall (h4 : o % 4 = 0) (ho : o < 0x20000) : regWrite f (0x20000 + o) value s = stallWrite f o value s := by
  have hidx : 0x20000 + o - 0x20000 = o := by omega
  unfold regWrite
  rw [if_neg (by omega), if_neg (by omega), if_neg (by omega), if_neg (by omega), if_neg (by omega), if_neg (by omega),
    if_neg (by omega), if_neg (by omega), if_neg (by omega), if_pos (by omega), hidx]

end

/-- Settles O18: each read answers the value before it and changes its own register; a READ index is taken or ignored. -/
theorem readsAndRingAdvancesFollowed : Obligations.ReadsAndRingAdvancesFollowed := by
  refine ⟨fun fn s hhost => ⟨fun q hq hown => ?owner, fun q hq hother => ?other, exec_ptpTimeCapture hhost rfl,
    fun e he => exec_ptpTimeCapture hhost (decide_eq_true he), fun l hl => ?lane⟩, ?advance⟩
  case owner =>
    rw [exec_queOccRead hhost hq, exec_quePeakRead hhost hq, occRead_owner hown, peakRead_owner hown]
    exact ⟨rfl, rfl⟩
  case other =>
    rw [exec_queOccRead hhost hq, exec_quePeakRead hhost hq, occRead_other hother, peakRead_other hother]
    exact ⟨rfl, rfl⟩
  case lane =>
    obtain ⟨hframe, hvf, hf0⟩ := laneStatRead_facts (f := fn) (l := l) (s := s)
    refine ⟨_, exec_lneStatRead hhost hl, hframe, hvf, fun h0 => ?_⟩
    obtain ⟨hout, hlanes⟩ := hf0 h0
    refine ⟨hout, fun y hy => ?_, fun m hm => ?_⟩
    · rw [hlanes, List.getElem?_modify_eq, hy]
      rfl
    · rw [hlanes, List.getElem?_modify_ne _ _ hm.symm]
  case advance =>
    intro fn ring value s hhost x v
    refine ⟨_, exec_ringReadAdvance hhost, fun hignored => ?_, fun hown hrange => ?_⟩
    · rw [readAdvance_eq, if_neg]
      rintro ⟨hown, hok⟩
      rcases hignored with hne | hlt
      · exact hne hown
      · exact Nat.not_le.mpr hlt (readOk_iff.mp hok)
    · rw [readAdvance_eq, if_pos ⟨hown, readOk_iff.mpr hrange⟩]
      cases ring with
      | stats i => rfl
      | decOut c => exact ⟨rfl, by simp [setRead, v]⟩
      | encStats c => exact ⟨rfl, by simp [setRead, v]⟩
      | netRx p fl => rfl

/-- Settles O19: the offset of each register leads to the register's own command, the words of the command ring and of the payload
window to the stall, and any other offset nowhere. -/
theorem registerWriteFollowsMap : Obligations.RegisterWriteFollowsMap := by
  intro fn value s hhost
  have hreg (o : Nat) := exec_registerWrite (o := o) (value := value) hhost
  refine ⟨?_, ?_, ?_, ?_, fun k hk => ⟨?_, ?_⟩, ?_, ?_, fun n hn => ?_, fun o ho => ?_, fun o h4 ho hfn hwf => ?word⟩
  · rw [hreg, exec_commandDoorbell hhost]; rfl
  · rw [hreg, exec_cplHeadWrite hhost]; rfl
  · rw [hreg, exec_evtHeadWrite hhost]; rfl
  · rw [hreg, exec_grmStatusClear hhost]; rfl
  · rw [hreg, regWrite_pending hk, exec_intPendingClear hhost hk]
  · rw [hreg, regWrite_mask hk, exec_intMaskWrite hhost hk]
  · rw [hreg, exec_intVecAck hhost]; rfl
  · rw [hreg, exec_intStallMaskWrite hhost]; rfl
  · rw [hreg, regWrite_route hn, exec_intRouteWrite hhost hn]
  · rw [hreg, regWrite_ignored ho]
  case word =>
    have hinside : (0x1000 ≤ o ∧ o < 0x2000) ∨ (0x10000 ≤ o ∧ o + 4 ≤ 0x10000 + 1024 * (stall s fn).windowKib) := by omega
    have hstall : stall (modStall fn (wordWritten o value) s) fn = wordWritten o value (stall s fn) := stall_modStall hfn
    refine ⟨modStall fn (wordWritten o value) s, ?_, rfl, ?_, fun a ha => ?_, ?_⟩
    · rw [hreg, regWrite_stall h4 (by omega), stallWrite_inside hinside]
    · have h := Mem.read_writes (bs := leBytes 4 value.toNat) (a := o) hwf
      rw [length_leBytes] at h
      rw [hstall]
      exact h
    · rw [hstall]
      exact Mem.byte_writes_out (by rw [length_leBytes]; exact ha)
    · rw [hstall, wordWritten]

end Sys2Proof.Machine
end

section
/-! Acceptance (02 R45 to R53): the slot that GRM_CMD_HEAD passes, a SEQ that is not the expected one, and a command that passes
steps 2 to 6. -/
namespace Sys2Proof.Machine

open Sys2Proof

section
variable {f bind d : Nat} {m : List (Nat × Byte)} {q : Word} {y : Slot} {c : Cmd} {r : Reply} {n cls : Nat} {b : TthBody}
  {i : OpInfo} {segs : List (Nat × Nat)} {region : List Byte} {s : State}

/-! ## What reaches no stall -/

/-- From `s` to `t` tether packets alone may have been sent: what has left the device and the tether may differ. -/
def Transmitted (s t : State) : Prop := t = { s with out := t.out, tth := t.tth }

theorem Transmitted.refl (s : State) : Transmitted s s := rfl

theorem Transmitted.trans {t u : State} (h : Transmitted s t) (h' : Transmitted t u) : Transmitted s u := by
  unfold Transmitted at *
  rw [h', h]

theorem transmitted_tthBroadcast : Transmitted s (tthBroadcast cls b s) := by
  have hsend (p : Nat) (t : State) : Transmitted t (tthSend p cls b 0 true t) := tthSend_eq p cls b 0 true t
  unfold tthBroadcast
  dsimp only
  split <;> split
  · exact hsend 1 s
  · exact (hsend 0 s).trans (hsend 1 _)
  · exact .refl s
  · exact hsend 0 s

theorem Transmitted.stalls {t : State} (h : Transmitted s t) : t.stalls = s.stalls := by
  unfold Transmitted at h; rw [h]

theorem renumberCommit_stalls {ref : CmdRef} : (renumberCommit ref n s).stalls = s.stalls := by
  exact transmitted_tthBroadcast.stalls

theorem giveNumber_stalls {after : CmdRef × Target × Nat → Bool} : (giveNumber after s).2.stalls = s.stalls :=
  foldl_leaves (p := fun t => t.stalls) (fun _ _ => renumberCommit_stalls) _ s

/-- Sending a command on to its member reaches no stall. -/
theorem relayOut_stalls : (relayOut c s).stalls = s.stalls := by
  unfold relayOut
  split
  next n t hpair =>
    rw [tthSend_eq]
    split at hpair
    · obtain ⟨-, rfl⟩ := Prod.mk.inj hpair
      exact giveNumber_stalls
    · obtain ⟨-, rfl⟩ := Prod.mk.inj hpair
      rfl

theorem relayDue_stalls : (relayDue s).stalls = s.stalls := by
  refine foldl_leaves (p := fun t => t.stalls) (fun t c => ?_) _ s
  split
  · exact relayOut_stalls
  · rfl

/-- A command that joins the accepted ones reaches no stall. -/
theorem enqueue_stalls : (enqueue c s).stalls = s.stalls := by
  unfold enqueue
  split
  · rfl
  · exact relayDue_stalls

theorem enqueue_here (h : c.device = s.sys.device) : enqueue c s = { s with cmds := s.cmds ++ [c] } := if_pos (.inl h)

/-! ## The record of acceptance (02 R45, R67) -/

/-- From `s` to `t` a stall keeps its command consumer index, the number it expects and the last one accepted. -/
def AcceptKept (f : Nat) (s t : State) : Prop :=
  (stall t f).cmdHead = (stall s f).cmdHead ∧ (stall t f).nextSeq = (stall s f).nextSeq ∧
    (stall t f).lastAccepted = (stall s f).lastAccepted

theorem acceptKept_of_stalls {t : State} (h : t.stalls = s.stalls) : AcceptKept f s t := by
  have hstall : stall t f = stall s f := by unfold stall; rw [h]
  unfold AcceptKept
  rw [hstall]
  exact ⟨rfl, rfl, rfl⟩

/-- A refusal at acceptance keeps it. -/
theorem acceptKept_refuseAt (hlead : isLeader s = true) (hf : f < s.stalls.length) :
    AcceptKept f s (refuseAt f y bind r s) := by
  obtain ⟨⟨m, hstall, -⟩, -⟩ := completeWith_facts (c := slotCmd f y 0 [] []) (bind := bind) (relayed := false) (r := r)
    hlead rfl rfl hf
  have hstall' : stall (refuseAt f y bind r s) f = _ := hstall
  unfold AcceptKept
  rw [hstall']
  exact ⟨rfl, rfl, rfl⟩

/-- Steps 2 to 6 keep it. -/
theorem acceptKept_judge (hlead : isLeader s = true) (hf : f < s.stalls.length) : AcceptKept f s (judge f y m s) := by
  have hrefuse (bind : Nat) (r : Reply) : AcceptKept f s (refuseAt f y bind r s) := acceptKept_refuseAt hlead hf
  have henqueue (c : Cmd) : AcceptKept f s (enqueue c s) := acceptKept_of_stalls enqueue_stalls
  unfold judge
  split
  · exact hrefuse _ _
  · split
    · exact hrefuse _ _
    · split
      · exact hrefuse _ _
      · split
        · exact hrefuse _ _
        · split
          · split
            · exact hrefuse _ _
            · exact henqueue _
          · exact henqueue _

/-- A command of this device that passes steps 2 to 6 joins the accepted ones. -/
theorem judge_passes (hop : opInfo y.opcode = some i) (h3 : step3 (lbaBytes s) (stall s f) m i y = .ok (segs, region))
    (h4 : step4 s y = none) (h5 : mayIssue s f y region = true)
    (h6 : judgesEpoch s f y = true → y.bind = targetEpoch s y) (hdev : y.device = s.sys.device) :
    judge f y m s =
      { s with cmds := s.cmds ++ [slotCmd f y (if judgesEpoch s f y then y.bind else 0) segs region] } := by
  have hhere (bind : Nat) : enqueue (slotCmd f y bind segs region) s =
      { s with cmds := s.cmds ++ [slotCmd f y bind segs region] } := enqueue_here hdev
  unfold judge
  simp only [hop, h3, h4, h5, Bool.not_true, Bool.false_eq_true, if_false, hhere]
  split
  · next hj => rw [if_neg (not_not.mpr (h6 hj))]
  · rfl

/-! ## The way of a slot (02 R45, R48) -/

theorem exec_commandAccept (hlead : isLeader s = true) (hon : groomOn s = true) (hfn : fnExists s f = true) :
    exec (.commandAccept f m) s = .next (acceptNext f m s) :=
  congrArg Host.Outcome.next (if_pos (by rw [hlead, hon, hfn]; rfl))

theorem acceptNext_nothing (h : (stall s f).cmdHead = (stall s f).cmdTail ∨ cplFree s f = false) : acceptNext f m s = s :=
  if_pos (by simpa using h)

/-- With a command in the ring and a completion entry free, the SEQ decides. -/
theorem acceptNext_taken (hring : (stall s f).cmdHead ≠ (stall s f).cmdTail) (hfree : cplFree s f = true) : acceptNext f m s =
    if (slotAt (stall s f)).seq ≠ (stall s f).nextSeq then refuseSeq f (slotAt (stall s f)) (takeSlot f s)
    else judge f (slotAt (stall s f)) m (countAccepted f (slotAt (stall s f)).seq (takeSlot f s)) :=
  if_neg (by simp [hring, hfree])

section
variable (hf : f < s.stalls.length)
include hf

theorem stall_takeSlot : stall (takeSlot f s) f = { stall s f with
    cmdHead := (stall s f).cmdHead + 1
    begun := (stall s f).begun &&& ~~~(1#64 <<< ((stall s f).cmdHead.toNat % 64)) } := stall_modStall hf

theorem stall_countAccepted : stall (countAccepted f q s) f = { stall s f with lastAccepted := q, nextSeq := seqSucc q } :=
  stall_modStall hf

/-- The completion of a SEQ that is not the expected one. -/
theorem stall_refuseSeq : stall (refuseSeq f y s) f = { stall s f with
    cpl := Tbl.set (stall s f).cpl ((stall s f).cplTail.toNat % 128)
      { seq := y.seq, opcode := y.opcode, status := 0x13, phase := phaseOf (stall s f).cplTail 128 }
    cplTail := (stall s f).cplTail + 1, cplPend := (stall s f).cplPend || bit y.flags 2 } := by
  obtain ⟨hstall, -⟩ := writeCpl_facts (c := { seq := y.seq, opcode := y.opcode, status := 0x13 }) (b := bit y.flags 2) hf
  exact hstall

theorem refuseSeq_cmds : (refuseSeq f y s).cmds = s.cmds := by
  obtain ⟨-, -, hframe, -⟩ := writeCpl_facts (c := { seq := y.seq, opcode := y.opcode, status := 0x13 }) (b := bit y.flags 2) hf
  unfold refuseSeq
  rw [hframe]

end

end

/-- Settles O20: a slot is taken where a command and a completion entry are there; a wrong SEQ completes alone, and the record of
acceptance stands through steps 2 to 6. -/
theorem commandsAcceptedInOrder : Obligations.CommandsAcceptedInOrder := by
  intro f m s hlead hon hfn hf x y
  refine ⟨_, exec_commandAccept hlead hon hfn, acceptNext_nothing, fun hring hfree => ?_⟩
  have hlen : f < (takeSlot f s).stalls.length := length_modStall.symm ▸ hf
  have htaken := stall_takeSlot hf
  rw [acceptNext_taken hring hfree]
  by_cases hseq : y.seq = x.nextSeq
  · rw [if_neg (not_not.mpr hseq)]
    set u := countAccepted f y.seq (takeSlot f s) with hu
    have hcounted : stall u f = _ := stall_countAccepted hlen
    rw [htaken] at hcounted
    obtain ⟨hhead, hnext, hlast⟩ := acceptKept_judge (f := f) (m := m) (y := y) (s := u) hlead (length_modStall.symm ▸ hlen)
    rw [hcounted] at hhead hnext hlast
    refine ⟨hhead, fun hne => absurd hseq hne, fun _ => ⟨hlast, hnext, fun i segs region hop h3 h4 h5 h6 hdev => ?_⟩⟩
    have h3' : step3 (lbaBytes u) (stall u f) m i y = .ok (segs, region) := by
      rw [hcounted]
      exact h3
    have hjudged := judge_passes (s := u) hop h3' h4 h5 h6 hdev
    exact congrArg (·.cmds) hjudged
  · rw [if_pos hseq]
    have hrefused : stall (refuseSeq f y (takeSlot f s)) f = _ := stall_refuseSeq hlen
    rw [htaken] at hrefused
    rw [show slotAt (stall s f) = y from rfl, hrefused]
    exact ⟨rfl, fun _ => ⟨Tbl.find?_set, rfl, rfl, rfl, rfl, refuseSeq_cmds hlen⟩, fun he => absurd he hseq⟩

end Sys2Proof.Machine
end

section
/-! Staging (02 R53, R68 to R70, R79): a command that stages its parameter block as it is writes the block into staged state and
completes with DEFERRED. -/
namespace Sys2Proof.Machine

open Sys2Proof

section
variable {r : CmdRef} {c : Cmd} {w : StageRow} {s t u : State}

/-- What a row stages: the block of the command's region, and the bulk data after it with their CRC-64. -/
def StageRow.val (w : StageRow) (c : Cmd) : CfgVal :=
  { blk := c.region.take w.len, bulk := (c.region.drop w.len).take w.bulk
    crc := crc64 ((c.region.drop w.len).take w.bulk) }

/-- The parameters that a row stages its block for. -/
def StageRow.key (w : StageRow) : Nat := cfgKey w.op w.unit w.slot

/-- The effect of a row: its block is staged, and the command completes with DEFERRED. -/
def StageRow.effect (w : StageRow) (c : Cmd) (s : State) : State :=
  complete c { deferred := true } (stagePut c.fn w.key (w.val c) s)

/-- A row's command runs under the row's opcode and checks, with the row's effect; a command of the tether tells the members
first, and that of the power limits draws a free value after. -/
def StageRow.Runs (r : CmdRef) (c : Cmd) (w : StageRow) : Prop :=
  ∃ eff : Cmd → State → State, (∀ s, exec w.instr s = .next (runCmd r w.op w.chk eff s)) ∧
    ∀ s, eff c s = w.effect c s ∨ eff c s = w.effect c (toMembers c s) ∨ eff c s = bump (w.effect c s)

theorem stageRowsIngest_run : ∀ w ∈ stageRowsIngest r c, w.Runs r c := by
  simp only [stageRowsIngest, List.forall_mem_cons, List.not_mem_nil, false_implies, implies_true, and_true]
  repeat' apply And.intro
  all_goals exact ⟨_, fun _ => rfl, fun _ => .inl rfl⟩

theorem stageRowsColour_run : ∀ w ∈ stageRowsColour r c, w.Runs r c := by
  simp only [stageRowsColour, List.forall_mem_cons, List.not_mem_nil, false_implies, implies_true, and_true]
  repeat' apply And.intro
  all_goals exact ⟨_, fun _ => rfl, fun _ => .inl rfl⟩

theorem stageRowsTether_run :
    StageRow.Runs r c ⟨.tthConfigure r, 0x8001, checkTthConfigure, blockLen layTthConfigure, 0, 0, 0⟩ ∧
    StageRow.Runs r c ⟨.tthStripes r, 0x8002, checkTthStripes, blockLen layTthStripes, 0, 0, 0⟩ :=
  ⟨⟨_, fun _ => rfl, fun _ => .inr (.inl rfl)⟩, ⟨_, fun _ => rfl, fun _ => .inr (.inl rfl)⟩⟩

theorem stageRowsLimits_run : StageRow.Runs r c ⟨.pwrLimits r, 0xA001, checkPwrLimits, blockLen layPwrLimits, 0, 0, 0⟩ :=
  ⟨_, fun _ => rfl, fun _ => .inr (.inr rfl)⟩

theorem stageRowsService_run : ∀ w ∈ stageRowsService r c, w.Runs r c := by
  simp only [stageRowsService, List.forall_mem_cons, List.not_mem_nil, false_implies, implies_true, and_true, true_and,
    stageRowsTether_run, stageRowsLimits_run]
  repeat' apply And.intro
  all_goals exact ⟨_, fun _ => rfl, fun _ => .inl rfl⟩

/-- Every row runs so. -/
theorem stageRows_run : ∀ w ∈ stageRows r c, w.Runs r c := by
  simp only [stageRows, List.forall_mem_append]
  exact ⟨⟨stageRowsIngest_run, stageRowsColour_run⟩, stageRowsService_run⟩

/-- From `s` to `t` a row has staged its block, and its command has completed with DEFERRED. -/
structure StageRow.Staged (w : StageRow) (c : Cmd) (s t : State) : Prop where
  frame : t = { s with stalls := t.stalls, cmds := t.cmds, out := t.out, ints := { s.ints with fns := t.ints.fns }, tth := t.tth
                       freeCtr := t.freeCtr
                       cfg := { s.cfg with staged := t.cfg.staged, stagings := s.cfg.stagings + 1 } }
  staged : t.cfg.staged = (s.cfg.staged.filter fun e => e.key ≠ w.key) ++
    [{ fn := c.fn, key := w.key, val := w.val c, order := s.cfg.stagings }]
  entry : isLeader s = true → c.detached = false → c.copy = false → c.fn < s.stalls.length →
    ∃ e, Tbl.find? (stall t c.fn).cpl ((stall s c.fn).cplTail.toNat % 128) = some e ∧ e.seq = c.seq ∧ e.status = 0 ∧
      e.deferred = true

/-- The staged state with a block staged in the place of the one before. -/
theorem stagePut_staged {f key : Nat} {v : CfgVal} : (stagePut f key v s).cfg.staged =
    (s.cfg.staged.filter fun e => e.key ≠ key) ++ [{ fn := f, key := key, val := v, order := s.cfg.stagings }] := by
  simp only [stagePut, putStaged, bne, decide_not]
  rfl

theorem staged_effect : w.Staged c s (w.effect c s) where
  frame := by rw [StageRow.effect, complete_eq]; rfl
  staged := by
    rw [StageRow.effect, complete_eq]
    exact stagePut_staged
  entry hlead hdet hcopy hf :=
    ⟨_, complete_entry (s := stagePut c.fn w.key (w.val c) s) hlead hdet hcopy hf, rfl, rfl, rfl⟩

theorem transmitted_toMembers : Transmitted s (toMembers c s) := by
  unfold toMembers
  split
  · exact transmitted_tthBroadcast
  · exact .refl s

theorem StageRow.Staged.after (hsent : Transmitted s u) (h : w.Staged c u t) : w.Staged c s t := by
  unfold Transmitted at hsent
  obtain ⟨hframe, hstaged, hentry⟩ := h
  rw [hsent] at hframe hstaged hentry
  exact ⟨hframe, hstaged, hentry⟩

theorem StageRow.Staged.bump (h : w.Staged c s t) : w.Staged c s (bump t) where
  frame := congrArg Machine.bump h.frame
  staged := h.staged
  entry := h.entry

end

/-- Settles O21: every row runs with the effect of its block staged and its command completed. -/
theorem stagedCommandsDefer : Obligations.StagedCommandsDefer := by
  intro r s c w hw hstart hpass
  obtain ⟨eff, hrun, heff⟩ := stageRows_run w hw
  have hexec : exec w.instr s = .next (eff c s) := by rw [hrun, runCmd_effect hstart hpass]
  have hstaged : w.Staged c s (eff c s) := by
    rcases heff s with h | h | h <;> rw [h]
    · exact staged_effect
    · exact staged_effect.after transmitted_toMembers
    · exact staged_effect.bump
  exact ⟨_, hexec, hstaged.frame, hstaged.staged, hstaged.entry⟩

end Sys2Proof.Machine
end

section
/-! Commits (02 R68 to R72, R655): the commands of the class EPOCH, and the commit that applies. -/
namespace Sys2Proof.Machine

open Sys2Proof

section
variable {c : Cmd} {r : CmdRef} {s t : State} {f op scope : Nat}

/-! ## Staging, discarding, querying -/

theorem Transmitted.cfg (h : Transmitted s t) : t.cfg = s.cfg := by
  unfold Transmitted at h; rw [h]

/-- What a discard leaves of the configuration: the staged state of the other functions, or nothing. -/
theorem discardStaged_sent (h : Transmitted s t) : discardStaged f scope t =
    sweepSessions { t with cfg := { s.cfg with staged := if scope = 0 then s.cfg.staged.filter fun e => e.fn != f else [] } } := by
  unfold discardStaged
  rw [h.cfg]

theorem effectEpochDiscard_eq : effectEpochDiscard c s =
    let u := if scopeOf s c.region = 2 ∧ isLeader s = true then tthBroadcast 2 (.groom .discard) s else s
    complete c {} (sweepSessions { u with cfg := { s.cfg with
      staged := if scopeOf s c.region = 0 then s.cfg.staged.filter fun e => e.fn != c.fn else [] } }) := by
  refine congrArg (complete c {}) (discardStaged_sent ?_)
  split
  · exact transmitted_tthBroadcast
  · exact .refl s

/-! ## Commits are scheduled -/

/-- What a commit of one device takes: the staged state of its scope, with which it is scheduled; its command waits. -/
def captureCommit (c : Cmd) (s : State) : State :=
  setWaiting c { s with cfg := { s.cfg with
    sched := s.cfg.sched ++ [schedOf s c]
    staged := if (schedOf s c).scope = 0 then s.cfg.staged.filter (·.fn != c.fn) else [] } }

/-- A commit of this device alone is scheduled; a member tells the leader. -/
theorem scheduleCommit_alone (h : arrayWide s (schedOf s c) = false) : scheduleCommit c s =
    if !isLeader s then tthSend 0 2 (.groom (.scheduled c.fn c.seq)) 0 false (captureCommit c s) else captureCommit c s := by
  simp only [scheduleCommit, h, Bool.false_eq_true, if_false]
  rfl

theorem scheduleCommit_transmits (h : arrayWide s (schedOf s c) = false) :
    Transmitted (captureCommit c s) (scheduleCommit c s) := by
  rw [scheduleCommit_alone h]
  split
  · exact tthSend_eq ..
  · exact .refl _

theorem scheduleCommit_leader (h : arrayWide s (schedOf s c) = false) (hlead : isLeader s = true) :
    (scheduleCommit c s).tth = s.tth ∧ (scheduleCommit c s).out = s.out := by
  rw [scheduleCommit_alone h, hlead]
  exact ⟨rfl, rfl⟩

theorem firstFail_eq_none {l : List (Option Reply)} : firstFail l = none ↔ ∀ x ∈ l, x = none := by
  induction l with
  | nil => simp [firstFail]
  | cons x l ih => cases x <;> simp [firstFail, ih]

theorem commitCheck_waiting {lay : List Fld} (h : commitCheck lay s c = none) : (waitingCommits s).length < 4 := by
  have hroom := firstFail_eq_none.mp h _ (List.mem_cons_of_mem _ (List.mem_cons_self ..))
  simpa [need] using hroom

theorem target_commit (h : c.opcode = 0x0302) : c.target_.mode = 0 := by simp [Cmd.target_, h]

theorem target_commitAt (h : c.opcode = 0x0303) : c.target_.mode = fieldAt c.region 0 1 ∧
    c.target_.stream = fieldAt c.region 1 1 ∧ c.target_.frame = fieldAt c.region 4 2 := by simp [Cmd.target_, h]

/-- The commands that schedule a commit run so under their opcodes and checks. -/
theorem exec_commit {i : Instr}
    (h : (i = .epochCommit r ∧ op = 0x0302 ∧ checkEpochCommit s c = none) ∨
      (i = .epochCommitAt r ∧ op = 0x0303 ∧ checkEpochCommitAt s c = none)) (hstart : startable s r op = some c) :
    exec i s = .next (scheduleCommit c s) ∧ (waitingCommits s).length < 4 := by
  rcases h with ⟨rfl, rfl, hpass⟩ | ⟨rfl, rfl, hpass⟩
  · exact ⟨congrArg Host.Outcome.next (runCmd_effect hstart hpass), commitCheck_waiting hpass⟩
  · exact ⟨congrArg Host.Outcome.next (runCmd_effect hstart hpass), commitCheck_waiting hpass⟩

end

/-- Settles O22: the commands of the class run with their effects; a commit of one device is scheduled with its staged image. -/
theorem epochCommandsTakeEffect : Obligations.EpochCommandsTakeEffect := by
  refine ⟨fun r s c => ⟨fun hstart hpass => ?_, fun hstart hpass => ?_, fun hstart hpass => ?_⟩, ?_⟩
  · exact congrArg Host.Outcome.next (runCmd_effect hstart hpass)
  · dsimp only
    rw [← effectEpochDiscard_eq]
    exact congrArg Host.Outcome.next (runCmd_effect hstart hpass)
  · exact congrArg Host.Outcome.next (runCmd_effect hstart hpass)
  intro r s c i op hi hstart hlone
  obtain ⟨hexec, hfree⟩ := exec_commit hi hstart
  have hsent := scheduleCommit_transmits hlone
  have hop := startable_op hstart
  refine ⟨scheduleCommit c s, schedOf s c, hexec, hfree, ?_, scheduleCommit_leader hlone, rfl, rfl, rfl, ?_, ?_, ?_, ?_⟩
  · rw [hsent]
    rfl
  · simp only [schedOf, stageDigest]
  · rw [hsent.cfg]
    rfl
  · rintro rfl
    exact target_commit hop
  · rintro rfl
    exact target_commitAt hop

end Sys2Proof.Machine
end

section
/-! The boundary of a scheduled commit (02 R68, R69): its image over the committed state, the units that switch at once, and what
stays. -/
namespace Sys2Proof.Machine

open Sys2Proof

section
variable {c : Cmd} {x : Sched} {n : Word} {s t u : State}

/-- From `s` to `t` a commit may have switched units: the parameters in use, safe states, the network ports, the streams and what
has left the device may differ. -/
def Switched (s t : State) : Prop :=
  t = { s with cfg := { s.cfg with active := t.cfg.active }, bind := { s.bind with safe := t.bind.safe }, net := t.net
               streams := t.streams, out := t.out }

theorem Switched.refl (s : State) : Switched s s := rfl

theorem Switched.trans (h : Switched s t) (h' : Switched t u) : Switched s u := by
  unfold Switched at *
  rw [h', h]

theorem switched_switchKeys {p : Nat → Bool} : Switched s (switchKeys p s) := rfl

theorem switched_leaveSafe {e : Staged} : Switched s (leaveSafe e s) := by
  unfold leaveSafe
  split
  · split <;> rfl
  · rfl

theorem switched_netTx {p sub : Nat} {frame : List Byte} : Switched s (netTx p sub frame s) := by
  unfold netTx
  split <;> rfl

theorem switched_modStream {i : Nat} {g : StreamSt → StreamSt} : Switched s (modStream i g s) := rfl

theorem switched_endCarried {old new : Tbl CfgVal} : Switched s (endCarried old new s) := by
  refine foldl_steps Switched.refl Switched.trans _ (fun t i _ => ?_) s
  dsimp only
  split <;> split <;> rfl

theorem switched_zeroService {keys : List Nat} : Switched s (zeroService keys s) :=
  foldl_steps Switched.refl Switched.trans _ (fun _ _ _ => switched_modStream) s

theorem switched_latchAtCommit : Switched s (latchAtCommit s) :=
  foldl_steps Switched.refl Switched.trans _ (fun _ _ _ => switched_modStream) s

theorem latchAtCommit_cfg : (latchAtCommit s).cfg = s.cfg := foldl_leaves (p := State.cfg) (op := fun t i => takeLens t.cfg.committed i true t) (fun _ _ => rfl) _ s

theorem switched_joinGroups {img : List Staged} : Switched s (joinGroups img s) :=
  foldl_steps Switched.refl Switched.trans _ (fun _ _ _ => switched_netTx) s

/-- The commit of an image: the committed state and the number, the units that switch, and HBM under the masks in use. -/
theorem applyImage_switched : Switched
    { s with cfg := { s.cfg with committed := overlay s.cfg.committed x.img, epoch := n }
             hbm := remapHbm (hashMasks s.cfg.active) (hashMasks (applyImage x n s).cfg.active) s.hbm }
    (applyImage x n s) := by
  set s1 : State := { s with cfg := { s.cfg with committed := overlay s.cfg.committed x.img, epoch := n } } with hs1
  obtain ⟨v, hv, heq⟩ : ∃ v, Switched s1 v ∧ applyImage x n s = latchAtCommit (remapAfter s.cfg.active v) :=
    ⟨_, ((((switched_switchKeys.trans (foldl_steps Switched.refl Switched.trans _ (fun _ _ _ => switched_leaveSafe) _)).trans
      switched_joinGroups).trans switched_zeroService).trans switched_endCarried), rfl⟩
  have hactive : (applyImage x n s).cfg.active = v.cfg.active := by
    rw [heq, latchAtCommit_cfg]
    rfl
  have hremap : Switched { s1 with hbm := remapHbm (hashMasks s.cfg.active) (hashMasks v.cfg.active) s.hbm }
      (remapAfter s.cfg.active v) := by
    unfold Switched remapAfter at *
    rw [hv]
  rw [hactive, heq]
  exact hremap.trans switched_latchAtCommit

/-- The number that a commit takes where no commit of the array has to be numbered again. -/
theorem takeNumber_eq
    (h : x.number ≠ none ∨ ((numbered s).filter fun e => s.cfg.sched.any (·.ref == e.1)) = []) :
    ∃ a, takeNumber x s = (x.number.getD (nextNumber s), { s with cfg := { s.cfg with assigned := a } }) := by
  unfold takeNumber
  cases hnum : x.number with
  | some m => exact ⟨s.cfg.assigned, rfl⟩
  | none =>
    have hnone := h.resolve_left (not_not_intro hnum)
    simp only [giveNumber, hnone, List.foldl_nil, List.headD_nil, BitVec.ofNat_toNat, BitVec.setWidth_eq]
    exact ⟨_, rfl⟩

/-- A due commit of one device applies and answers. -/
theorem applyCommit_alone (hlone : arrayWide s x = false) (hcmd : schedCmd s x = some c)
    (h : x.number ≠ none ∨ ((numbered s).filter fun e => s.cfg.sched.any (·.ref == e.1)) = []) :
    ∃ a v u, v = { s with cfg := { s.cfg with sched := s.cfg.sched.filter (fun y => y.ref != x.ref), assigned := a } } ∧
      u = applyImage x (x.number.getD (nextNumber s)) v ∧
      applyCommit x s = complete c (okReply u.cfg.epoch.toNat (digest u.cfg.committed)) u := by
  obtain ⟨a, hnum⟩ := takeNumber_eq h
  refine ⟨a, _, _, rfl, rfl, ?_⟩
  have hfind : schedCmd (applyImage x (x.number.getD (nextNumber s))
      { s with cfg := { s.cfg with sched := s.cfg.sched.filter (fun y => y.ref != x.ref), assigned := a } }) x = some c := by
    unfold schedCmd
    rw [applyImage_switched]
    exact hcmd
  simp only [applyCommit, hnum, hlone, Bool.false_eq_true, if_false, dropSched, completeCommit, hfind, Nat.add_zero]

end

/-- Settles O23: the commit applies, and its command completes on the state that it leaves. -/
theorem commitAppliesImage : Obligations.CommitAppliesImage := by
  intro r s x c hfind hon hmay hlone hlead hcmd hdet hcopy hf hnum
  obtain ⟨a, v, u, hv, hu, happly⟩ := applyCommit_alone hlone hcmd hnum
  have hexec : exec (.epochCommitApply r) s = .next (applyCommit x s) := by
    simp only [exec, execEpochCommitApply, hfind, hon, hmay, Bool.and_self, if_true]
  have hsw := applyImage_switched (x := x) (n := x.number.getD (nextNumber s)) (s := v)
  rw [← hu, hv] at hsw
  unfold Switched at hsw
  have hstall : stall u c.fn = stall s c.fn := by rw [hsw]; rfl
  have hentry := complete_entry (c := c) (s := u) (r := okReply u.cfg.epoch.toNat (digest u.cfg.committed))
    (by rw [hsw]; exact hlead) hdet hcopy (by rw [hsw]; exact hf)
  rw [hstall] at hentry
  rw [happly] at hexec
  have hdone := complete_eq c (okReply u.cfg.epoch.toNat (digest u.cfg.committed)) u
  have hcommitted : u.cfg.committed = overlay s.cfg.committed x.img := by rw [hsw]
  have hepoch : u.cfg.epoch = x.number.getD (nextNumber s) := by rw [hsw]
  refine ⟨_, hexec, ?_, ?_, ?_, fun hone hfresh => ?_, ?_, ?_, ?_, ?_, fun hmasks => ?_, _, hentry, rfl, rfl, ?_, ?_⟩
  · rw [hdone, hsw]
    rfl
  · rw [hdone, ← hcommitted]
  · rw [hdone, ← hepoch]
  · rw [hdone, hsw]
    simp [hfresh, nextNumber, hone]
  · rw [hdone, hsw]
  · rw [hdone, hsw]
  · rw [hdone, hsw]
  · rw [hdone, hsw]
  · rw [hdone] at hmasks ⊢
    have hmasks : hashMasks s.cfg.active = hashMasks u.cfg.active := hmasks.symm
    rw [hsw]
    exact if_pos hmasks
  · rw [hdone]
    rfl
  · simp only [replyCpl, okReply, hcommitted]

end Sys2Proof.Machine
end

section
/-! Units ordered to their safe states (03 R93), and the commands of the classes SYS, STALL and FUNC (02, 17 R552). -/
namespace Sys2Proof.Machine

open Sys2Proof

section
variable {c : Cmd} {f k p u : Nat} {l : List Nat} {s t v : State}

/-! ## Orders to safe states -/

/-- From `s` to `t` units may have been ordered to their safe states: the table of these, and the packets that tell members. -/
def Ordered (s t : State) : Prop := t = { s with bind := { s.bind with safe := t.bind.safe }, out := t.out, tth := t.tth }

theorem Ordered.refl (s : State) : Ordered s s := rfl

theorem Ordered.trans (h : Ordered s t) (h' : Ordered t v) : Ordered s v := by
  unfold Ordered at *
  rw [h', h]

theorem ordered_orderSafe : Ordered s (orderSafe u s) := by
  unfold orderSafe Ordered
  dsimp only
  split
  · split <;> rfl
  · rw [tthSend_eq]

/-- A unit that is ordered does not go on. -/
theorem safeOf_orderSafe : safeOf (orderSafe u s) u ≠ 0 := by
  unfold orderSafe
  dsimp only
  split
  · split
    · simp [safeOf]
    · assumption
  · rw [tthSend_eq]
    simp [safeOf]

/-- The order reaches no other unit. -/
theorem safeOf_orderSafe_ne (h : k ≠ u) : safeOf (orderSafe u s) k = safeOf s k := by
  unfold orderSafe
  dsimp only
  split
  · split
    · exact Tbl.get_set_ne h
    · rfl
  · rw [tthSend_eq]
    exact Tbl.get_set_ne h

/-- Every unit of a list is ordered, and no other. -/
theorem safeOf_orderAll : ∀ (l : List Nat) (s : State),
    Ordered s (l.foldl (fun t u => orderSafe u t) s) ∧
    (∀ k, k ∈ l ∨ safeOf s k ≠ 0 → safeOf (l.foldl (fun t u => orderSafe u t) s) k ≠ 0) ∧
    ∀ k, k ∉ l → safeOf (l.foldl (fun t u => orderSafe u t) s) k = safeOf s k
  | [], s => ⟨.refl s, by simp, fun _ _ => rfl⟩
  | u :: l, s => by
    obtain ⟨hframe, hsafe, hother⟩ := safeOf_orderAll l (orderSafe u s)
    refine ⟨ordered_orderSafe.trans hframe, fun k hk => hsafe k ?_, fun k hk => ?_⟩
    · by_cases hku : k = u
      · exact .inr (hku ▸ safeOf_orderSafe)
      · rw [safeOf_orderSafe_ne hku]
        simpa [hku] using hk
    · obtain ⟨hku, hkl⟩ : k ≠ u ∧ k ∉ l := by simpa using hk
      exact (hother k hkl).trans (safeOf_orderSafe_ne hku)

/-- A unit of this device is ordered where it goes on, and no packet leaves. -/
theorem orderSafe_here (h : u / 256 = s.sys.device) : orderSafe u s =
    if safeOf s u = 0 then { s with bind := { s.bind with safe := Tbl.set s.bind.safe u 1 } } else s := if_pos (.inl h)

/-- From `s` to `t` units of this device may have been ordered: those that had left their safe states alone. -/
def OrderedHere (s t : State) : Prop :=
  t = { s with bind := { s.bind with safe := t.bind.safe } } ∧ ∀ k, safeOf s k ≠ 0 → safeOf t k = safeOf s k

theorem OrderedHere.trans (h : OrderedHere s t) (h' : OrderedHere t v) : OrderedHere s v := by
  refine ⟨?_, fun k hk => ?_⟩
  · have hframe' := h'.1
    rw [h.1] at hframe'
    exact hframe'
  · rw [h'.2 k (by rwa [h.2 k hk]), h.2 k hk]

theorem orderedHere_orderSafe (h : u / 256 = s.sys.device) : OrderedHere s (orderSafe u s) := by
  rw [orderSafe_here h]
  split
  next hlive =>
    refine ⟨rfl, fun k hk => Tbl.get_set_ne fun hku => hk (hku ▸ hlive)⟩
  · exact ⟨rfl, fun _ _ => rfl⟩

theorem orderedHere_all : ∀ (l : List Nat) (s : State), (∀ u ∈ l, u / 256 = s.sys.device) →
    OrderedHere s (l.foldl (fun t u => orderSafe u t) s)
  | [], _, _ => ⟨rfl, fun _ _ => rfl⟩
  | u :: l, s, h => by
    have hu := orderedHere_orderSafe (h u List.mem_cons_self)
    have hdev : (orderSafe u s).sys = s.sys := by rw [hu.1]
    exact hu.trans (orderedHere_all l _ fun v hv => hdev ▸ h v (List.mem_cons_of_mem _ hv))

/-- The units of a function on this device. -/
theorem mem_unitsOf : u ∈ unitsOf s f ↔ (∃ k < 187, s.sys.device * 256 + k = u) ∧ ownerOf s u = f := by
  simp [unitsOf]

/-- The number of a unit of this device names the device. -/
theorem device_of_mem_unitsOf (h : u ∈ unitsOf s f) : u / 256 = s.sys.device := by
  obtain ⟨⟨k, hk, rfl⟩, -⟩ := mem_unitsOf.mp h
  omega

/-! ## Profiles (17 R552, R581) -/

/-- The configuration under a profile: a CAP_MW above the profile's cap becomes 0. -/
def capFixed (p : Nat) (t : Tbl CfgVal) : Tbl CfgVal :=
  if profileCap p < fieldAt (limitsBlk t) 4 4 then
    Tbl.set t (cfgKey 0xA001 0 0) { blk := (limitsBlk t).take 4 ++ leBytes 4 0 ++ (limitsBlk t).drop 8 }
  else t

theorem setProfile_eq : setProfile p s = raise 627 { s with
    sys := { s.sys with profile := p }
    cfg := { s.cfg with committed := capFixed p s.cfg.committed, active := capFixed p s.cfg.active } } := rfl

theorem capFixed_of_le {m : Tbl CfgVal} (h : fieldAt (limitsBlk m) 4 4 ≤ profileCap p) : capFixed p m = m :=
  if_neg (by omega)

theorem fieldAt_capCleared {b : List Byte} (h : 4 ≤ b.length) : fieldAt (b.take 4 ++ leBytes 4 0 ++ b.drop 8) 4 4 = 0 := by
  have hdrop : (b.take 4 ++ (leBytes 4 0 ++ b.drop 8)).drop 4 = leBytes 4 0 ++ b.drop 8 :=
    List.drop_left' (by simpa using h)
  rw [List.append_assoc, fieldAt, hdrop, List.take_left' length_leBytes]
  rfl

theorem cap_capFixed {m : Tbl CfgVal} (h : profileCap p < fieldAt (limitsBlk m) 4 4) (hlen : 4 ≤ (limitsBlk m).length) :
    fieldAt (limitsBlk (capFixed p m)) 4 4 = 0 := by
  have hblk : limitsBlk (capFixed p m) = (limitsBlk m).take 4 ++ leBytes 4 0 ++ (limitsBlk m).drop 8 := by
    rw [capFixed, if_pos h, limitsBlk, blkIn, Tbl.find?_set]
    rfl
  rw [hblk, fieldAt_capCleared hlen]

/-! ## The window of a stall (02 R36) -/

/-- The entries that a test of their keys keeps read as before. -/
theorem find?_filter_key {α : Type} {q : Nat → Bool} {n : Nat} : ∀ {m : Tbl α},
    Tbl.find? (m.filter fun e => q e.1) n = if q n then Tbl.find? m n else none
  | [] => by simp [Tbl.find?]
  | (j, w) :: m => by
    have ih := find?_filter_key (q := q) (n := n) (m := m)
    by_cases hj : j = n
    · subst hj
      by_cases hq : q j = true <;> simp [hq, Tbl.find?, ih]
    · by_cases hq : q j = true <;> simp [hq, Tbl.find?, hj, ih]

/-- What is cleared reads 0, every other byte as before. -/
theorem byte_clear {m : Mem} {a n i : Nat} : Mem.byte (Mem.clear m a n) i = if a ≤ i ∧ i < a + n then 0 else Mem.byte m i := by
  have hfind := find?_filter_key (q := fun i => decide (i < a) || decide (a + n ≤ i)) (n := i) (m := m)
  rw [Mem.byte, Tbl.get, Mem.clear, hfind]
  by_cases h : a ≤ i ∧ i < a + n
  · rw [if_pos h, if_neg (by simp; omega)]
    rfl
  · rw [if_neg h, if_pos (by simp; omega)]
    rfl

end

/-! ## The commands -/

section
variable {r : CmdRef} {c : Cmd} {s : State}

/-- With no stream running, a profile takes effect before the command completes. -/
theorem profileEffect_now (hcheck : bit (fieldAt c.region 1 1) 0 = false) (hstill : (List.range 17).any (streamRuns s) = false) :
    profileEffect c s =
      complete c (okReply (profileResult0 s (fieldAt c.region 0 1)) (profileResult1 s (fieldAt c.region 0 1) (fieldAt c.region 4 4)))
        (setProfile (fieldAt c.region 0 1) (bump s)) := by
  simp only [profileEffect, hcheck, hstill, Bool.false_eq_true, if_false]

/-- While a stream runs, the request waits. -/
theorem profileEffect_later (hcheck : bit (fieldAt c.region 1 1) 0 = false) (hrun : (List.range 17).any (streamRuns s) = true) :
    profileEffect c s = setWaiting c { bump s with sys := { s.sys with
      profileReq := some (⟨c.fn, c.seq⟩, fieldAt c.region 0 1, profileResult0 s (fieldAt c.region 0 1),
        profileResult1 s (fieldAt c.region 0 1) (fieldAt c.region 4 4)) } } := by
  simp only [profileEffect, hcheck, hrun, Bool.false_eq_true, if_false, if_true]
  rfl

/-- A profile that applies at the boundary: the profile takes effect, and the command that waits completes. -/
theorem applyProfile_facts {q : CmdRef} {p r0 r1 : Nat} (hreq : s.sys.profileReq = some (q, p, r0, r1)) :
    ∃ t, applyProfile s = t ∧ t = { reported s t with
        sys := { s.sys with profile := p, profileReq := none }, cfg := t.cfg, cmds := t.cmds } ∧
      t.cfg.committed = capFixed p s.cfg.committed := by
  unfold applyProfile
  rw [hreq]
  dsimp only
  rw [setProfile_eq]
  split
  · refine ⟨_, rfl, ?_, ?_⟩
    · rw [complete_eq, raise_eq]
      rfl
    · rw [complete_eq, raise_eq]
  · refine ⟨_, rfl, ?_, ?_⟩
    · rw [raise_eq]
      rfl
    · rw [raise_eq]

/-- A stall's window: its size, and the bytes below it. -/
theorem setWindow_facts {f kib : Nat} (hf : f < s.stalls.length) :
    let u := setWindow f kib s
    { u with stalls := s.stalls } = s ∧ (∀ g, g ≠ f → stall u g = stall s g) ∧
      stall u f = { stall s f with windowKib := kib, mem := (stall u f).mem } ∧
      ∀ a, a < 0x10000 + 1024 * kib → Mem.byte (stall u f).mem a = Mem.byte (stall s f).mem a := by
  have hstall : stall (setWindow f kib s) f = _ := stall_modStall hf
  refine ⟨rfl, fun g hg => stall_modStall_ne hg, by rw [hstall], fun a ha => ?_⟩
  rw [hstall]
  dsimp only
  split
  · rw [byte_clear, if_neg (by omega)]
  · rfl

end

/-- Settles O24: each command runs with its effect. -/
theorem profileAndSystemCommandsTakeEffect : Obligations.ProfileAndSystemCommandsTakeEffect := by
  refine ⟨fun r s => ⟨fun c hstart hpass => ?profile, fun q p r0 r1 hreq hon => ?boundary⟩, fun r s c => ⟨?resume, ?policy, ?info,
    ?query, ?window, ?units⟩⟩
  case profile =>
    have hexec : exec (.sysProfileCommit r) s = .next (profileEffect c s) :=
      congrArg Host.Outcome.next (runCmd_effect hstart hpass)
    refine ⟨fun hcheck => ?_, fun hcheck hstill => ?_, fun hcheck hrun => ?_⟩
    · rw [hexec, profileEffect, if_pos hcheck]
    · rw [hexec, profileEffect_now hcheck hstill, setProfile_eq]
      refine ⟨_, rfl, ?_, ?_⟩
      · rw [raise_eq]
        rfl
      · rw [raise_eq]
        rfl
    · rw [hexec, profileEffect_later hcheck hrun]
      exact ⟨_, rfl, rfl, rfl, rfl, rfl⟩
  case boundary =>
    obtain ⟨t, ht, hframe, hcap⟩ := applyProfile_facts hreq
    refine ⟨t, ?_, hframe, fun hle => hcap.trans (capFixed_of_le hle), fun hlt hlen => ?_⟩
    · rw [← ht]
      exact congrArg Host.Outcome.next (if_pos hon)
    · rw [hcap, cap_capFixed hlt hlen]
  case resume =>
    intro hstart hpass
    refine ⟨endStop s, congrArg Host.Outcome.next (runCmd_effect hstart hpass), fun h => if_pos h, fun h => if_neg h⟩
  case policy =>
    exact fun hstart hpass => congrArg Host.Outcome.next (runCmd_effect hstart hpass)
  case info =>
    exact fun hstart hpass => ⟨_, _, congrArg Host.Outcome.next (runCmd_effect hstart hpass)⟩
  case query =>
    exact fun hstart hpass => ⟨_, _, congrArg Host.Outcome.next (runCmd_effect hstart hpass)⟩
  case window =>
    exact fun hstart hpass hf => ⟨_, congrArg Host.Outcome.next (runCmd_effect hstart hpass), setWindow_facts hf⟩
  case units =>
    intro hstart hpass
    obtain ⟨-, hordered, hother⟩ := safeOf_orderAll (unitsOf s (fieldAt c.region 0 1)) s
    obtain ⟨hframe, hkept⟩ := orderedHere_all (unitsOf s (fieldAt c.region 0 1)) s fun u hu => device_of_mem_unitsOf hu
    refine ⟨orderUnits (fieldAt c.region 0 1) s, congrArg Host.Outcome.next (runCmd_effect hstart hpass), hframe,
      fun k hk hown => hordered _ (.inl (mem_unitsOf.mpr ⟨⟨k, hk, rfl⟩, hown⟩)), hkept,
      fun k hown => hother k fun hmem => hown (mem_unitsOf.mp hmem).2⟩

end Sys2Proof.Machine
end

section
/-! Rebindings (03 R83, R86 to R92): what reports, what returns the commands of a unit, and the rebinding that applies. -/
namespace Sys2Proof.Machine

open Sys2Proof

section
variable {c : Cmd} {k n u : Nat} {w : Rebind} {b s t v : State}

/-! ## What reports -/

/-- From `s` to `t` the device may have reported: events, interrupt sources and the packets that take them to the leader. -/
def Reported (s t : State) : Prop := t = reported s t

theorem Reported.refl (s : State) : Reported s s := rfl

theorem Reported.trans (h : Reported s t) (h' : Reported t v) : Reported s v := by
  unfold Reported at *
  rw [h', h]
  rfl

theorem reported_raise : Reported s (raise n s) := raise_eq n s

theorem reported_postEvent {f : Nat} {e : Event} : Reported s (postEvent f e s) := by
  rw [Reported, postEvent_eq]; rfl

theorem reported_modFnInt {f : Nat} {g : FnInt → FnInt} : Reported s (modFnInt f g s) := rfl

theorem reported_unpend : Reported s (unpend n s) := rfl

theorem reported_tthSend {p cls d : Nat} {m : TthBody} {x : Bool} : Reported s (tthSend p cls m d x s) := by
  rw [Reported, tthSend_eq]; rfl

theorem reported_rerouted : Reported s (rerouted b n s) := by
  by_cases h : targetOf b n = targetOf s n
  · rw [rerouted_kept h]
    exact .refl s
  · rw [rerouted_moved h]
    have hmasked : Reported s (maskedAtTarget n s) := reported_unpend.trans reported_modFnInt
    split
    · exact hmasked.trans reported_raise
    · exact hmasked

theorem reported_reroutedAll : Reported s (reroutedAll b s) :=
  foldl_steps Reported.refl Reported.trans _ (fun _ _ _ => reported_rerouted) s

/-- From `s` to `t` commands may have completed, beside what the device has reported. -/
def Answered (s t : State) : Prop := t = { reported s t with cmds := t.cmds }

theorem Answered.trans (h : Answered s t) (h' : Answered t v) : Answered s v := by
  unfold Answered at *
  rw [h', h]
  rfl

theorem Reported.answered (h : Reported s t) : Answered s t := by
  unfold Reported at h
  unfold Answered
  rw [h]
  rfl

theorem answered_completeWith {bind : Nat} {far : Bool} {r : Reply} : Answered s (completeWith c bind far r s) := by
  rw [Answered, completeWith_eq]; rfl

theorem answered_complete {r : Reply} : Answered s (complete c r s) := answered_completeWith

/-! ## What a unit leaves (03 R89) -/

/-- From `s` to `t` commands may have been withdrawn and returned. -/
def Returned (s t : State) : Prop :=
  t = { reported s t with cmds := t.cmds, heads := t.heads, time := t.time, sys := { s.sys with profileReq := t.sys.profileReq } }

theorem Returned.refl (s : State) : Returned s s := rfl

theorem Returned.trans (h : Returned s t) (h' : Returned t v) : Returned s v := by
  unfold Returned at *
  rw [h', h]
  rfl

theorem Answered.returned (h : Answered s t) : Returned s t := by
  unfold Answered at h
  unfold Returned
  rw [h]
  rfl

theorem returned_withdraw : Returned s (withdraw c s) := rfl

theorem returned_returnQueued : Returned s (returnQueued u n s) :=
  foldl_steps Returned.refl Returned.trans _ (fun _ _ _ => returned_withdraw.trans answered_completeWith.returned) s

/-! ## The rebinding (03 R89, R90) -/

/-- The state with a unit's new binding: owner and epoch. -/
def rebound (w : Rebind) (k new : Nat) (s : State) : State :=
  { s with bind := { s.bind with epoch := Tbl.put 1 s.bind.epoch k new, owner := Tbl.put 0 s.bind.owner k w.newOwner } }

theorem reported_bindEvent {code f e d : Nat} {r : UnitRef} : Reported s (bindEvent code f r e d s) := reported_postEvent

theorem reported_tellOwner {r : UnitRef} {f e : Nat} : Reported s (tellOwner r f e s) := by
  unfold tellOwner
  split
  · exact .refl s
  · exact reported_tthSend

/-- The command that a rebinding was for completes with the new epoch. -/
def rebindDone (w : Rebind) (new : Nat) (s : State) : State :=
  match w.cmd with
  | some r => match findCmd s r with
    | some c => complete c (okReply new 0) s
    | none => s
  | none => s

theorem answered_rebindDone : Answered s (rebindDone w n s) := by
  unfold rebindDone
  split
  · split
    · exact answered_complete
    · exact (Reported.refl s).answered
  · exact (Reported.refl s).answered

/-- The state in which a unit has left its old owner. -/
def unitLeft (w : Rebind) (k : Nat) (s : State) : State :=
  let here := unboundOf k s
  bindEvent 0x0201 (ownerOf s k) w.unit (epochOf s k)
    ((here.count + 0) % 65536 + 2 ^ 16 * b2n (here.staged || false) + 2 ^ 17 * b2n (here.pruned || false))
    (unbind k { s with bind := { s.bind with waiting := s.bind.waiting.filter (· != w) } })

theorem reported_unitLeft : ∃ v, Returned { s with bind := { s.bind with waiting := s.bind.waiting.filter (· != w) } } v ∧
    Reported (discardUnit k v) (unitLeft w k s) := ⟨_, returned_returnQueued, reported_bindEvent⟩

/-- The state in which a unit has its new owner, and its events tell so. -/
def unitJoined (w : Rebind) (k new : Nat) (s : State) : State :=
  tellOwner w.unit w.newOwner new (bindEvent 0x0202 w.newOwner w.unit new
    (new + 2 ^ 16 * b2n (unitRuns (rebound w k new s) k || false)) (reroutedAll s (rebound w k new s)))

theorem reported_unitJoined : Reported (rebound w k n s) (unitJoined w k n s) :=
  (reported_reroutedAll.trans reported_bindEvent).trans reported_tellOwner

theorem applyRebind_eq (hkey : unitKey w.unit.device w.unit.cls w.unit.inst = some k) : applyRebind w {} s =
    rebindDone w (nextEpoch (epochOf s k)) (unitJoined w k (nextEpoch (epochOf s k)) (unitLeft w k s)) := by
  have hk : (unitKey w.unit.device w.unit.cls w.unit.inst).getD 0 = k := by rw [hkey]; rfl
  rw [← hk]
  rfl

/-- A rebinding that applies: what the unit leaves, the new binding, and reports between and after. -/
theorem applyRebind_steps (hkey : unitKey w.unit.device w.unit.cls w.unit.inst = some k) :
    ∃ v t, Returned { s with bind := { s.bind with waiting := s.bind.waiting.filter (· != w) } } v ∧
      Reported (discardUnit k v) t ∧ Answered (rebound w k (nextEpoch (epochOf s k)) t) (applyRebind w {} s) := by
  obtain ⟨v, hreturned, hleft⟩ := reported_unitLeft (w := w) (k := k) (s := s)
  rw [applyRebind_eq hkey]
  exact ⟨v, _, hreturned, hleft, reported_unitJoined.answered.trans answered_rebindDone⟩

/-- What a rebinding that applies leaves of the owners, the epochs, staged state and the rebindings that wait. -/
theorem applyRebind_facts (hkey : unitKey w.unit.device w.unit.cls w.unit.inst = some k) :
    let t := applyRebind w {} s
    t = { reported s t with bind := t.bind, cfg := t.cfg, cmds := t.cmds, cod := t.cod, heads := t.heads, sys := t.sys
                            time := t.time } ∧
      t.bind = { s.bind with
        waiting := s.bind.waiting.filter (· != w), epoch := Tbl.put 1 s.bind.epoch k (nextEpoch (epochOf s k))
        owner := Tbl.put 0 s.bind.owner k w.newOwner } ∧
      t.cfg.staged = s.cfg.staged.filter (fun e => keyUnitNo s e.key != some k) ∧ t.cfg.committed = s.cfg.committed := by
  obtain ⟨v, y, hv, hy, ht⟩ := applyRebind_steps (s := s) hkey
  unfold Returned at hv
  unfold Reported at hy
  unfold Answered at ht
  dsimp only
  rw [ht, hy, hv]
  exact ⟨rfl, rfl, rfl, rfl⟩

/-! ## The commands of the class BIND (03 R86) -/

/-- The commands that ask for a rebinding run so under their opcodes, and name the new owner. -/
theorem exec_bind {r : CmdRef} {i : Instr} {op f : Nat}
    (h : (i = .bindAssign r ∧ op = 0x0201 ∧ f = fieldAt c.region 1 1) ∨ (i = .bindRelease r ∧ op = 0x0202 ∧ f = 0))
    (hstart : startable s r op = some c) (hpass : bindCheck s c = none) :
    exec i s = .next (bindEffect c s) ∧
      bindRebind c = { unit := ⟨c.device, fieldAt c.region 0 1, fieldAt c.region 2 2⟩, newOwner := f, cmd := some ⟨c.fn, c.seq⟩ } := by
  have hop := startable_op hstart
  rcases h with ⟨rfl, rfl, rfl⟩ | ⟨rfl, rfl, rfl⟩
  · refine ⟨congrArg Host.Outcome.next (runCmd_effect hstart hpass), ?_⟩
    simp only [bindRebind, bindOwner, hop, if_true, bindUnit]
  · refine ⟨congrArg Host.Outcome.next (runCmd_effect hstart hpass), ?_⟩
    simp [bindRebind, bindOwner, hop, bindUnit]

end

/-- Settles O26: a rebinding waits, and applies in the order of 03 R89. -/
theorem rebindingsWaitAndApply : Obligations.RebindingsWaitAndApply := by
  refine ⟨fun r s c => ⟨fun i op f hi hstart hpass hdev => ?here, fun i op f hi hstart hpass hdev => ?far,
    fun k hstart hpass hkey => ?query⟩, fun unit s w k hon hlead hkey hfind hdev hidle hask hdone hsafe howner hepoch => ?apply⟩
  case here =>
    obtain ⟨hexec, hw⟩ := exec_bind hi hstart hpass
    rw [hexec, bindEffect, if_pos hdev, hw]
    rfl
  case far =>
    obtain ⟨hexec, hw⟩ := exec_bind hi hstart hpass
    rw [hexec, bindEffect, if_neg hdev, hw, tthSend_eq]
    exact ⟨_, rfl, rfl, rfl, rfl⟩
  case query =>
    have hk : bindKey c = k := congrArg (Option.getD · 0) hkey
    refine (congrArg Host.Outcome.next (runCmd_effect hstart hpass)).trans ?_
    rw [effectBindQuery, hk]
    rfl
  case apply =>
    have hwkey : unitKey w.unit.device w.unit.cls w.unit.inst = some k := by
      simpa using List.find?_some hfind
    have hexec : exec (.rebindingApply unit) s = .next (applyRebind w {} s) := by
      have hready : (w.cmd.isSome || safeOf s k == 2) = true := by simpa using hsafe
      have hown : (unit.device == s.sys.device) = true := by simpa using hdev
      simp only [exec, execRebindingApply, hkey, hfind, hon, hown, hidle, hask, hdone, hready, hlead,
        Bool.not_false, Bool.and_self, if_true]
    obtain ⟨hframe, hbind, hstaged, hcommitted⟩ := applyRebind_facts (s := s) hwkey
    refine ⟨_, hexec, hframe, ?_, ?_, fun j hj => ⟨?_, ?_⟩, hstaged, ?_, hcommitted⟩
    · rw [ownerOf, hbind]
      exact Tbl.get_put howner
    · rw [epochOf, hbind]
      exact Tbl.get_put hepoch
    · rw [ownerOf, hbind]
      exact Tbl.get_put_ne hj
    · rw [epochOf, hbind]
      exact Tbl.get_put_ne hj
    · rw [hbind]

end Sys2Proof.Machine
end

section
/-! What the recorder may change as it takes frames, writes its chunks and stops (08 R301 to R324): the recorder, the commands
that wait for it, the capture groups, the lanes of its SSDs, the count of free values, and what it reports. -/
namespace Sys2Proof.Machine

open Sys2Proof

section
variable {c : Cmd} {d n z : Nat} {e : RingEntry} {s t u : State}

theorem recorded_refl (s : State) : recorded s s := rfl

theorem recorded.trans (h : recorded s t) (h' : recorded t u) : recorded s u := by
  unfold recorded at *
  rw [h', h]
  rfl

theorem Answered.recorded (h : Answered s t) : recorded s t := by
  unfold Answered at h
  unfold Machine.recorded
  rw [h]
  rfl

theorem Reported.recorded (h : Reported s t) : Machine.recorded s t := h.answered.recorded

theorem recorded_foldl {α : Type} {op : State → α → State} (l : List α) (h : ∀ t, ∀ a ∈ l, recorded t (op t a)) :
    recorded s (l.foldl op s) := foldl_steps recorded_refl recorded.trans l h s

/-! ## Its parts -/

theorem recorded_modRec {g : Rec → Rec} : recorded s (modRec g s) := rfl

theorem recorded_modSsd {g : Ssd → Ssd} : recorded s (modSsd d g s) := rfl

theorem recorded_modGroup {g : Group → Group} : recorded s (modGroup z g s) := rfl

theorem recorded_modLane {l : Nat} {g : Lane → Lane} : recorded s (modLane l g s) := rfl

theorem recorded_bump : recorded s (bump s) := rfl

theorem recorded_emit {o : Out} : recorded s (emit o s) := rfl

theorem recorded_complete {r : Reply} : recorded s (complete c r s) := answered_complete.recorded

theorem reported_unitEvent {code cls inst detail : Nat} {frame : Option Nat} :
    Reported s (unitEvent code cls inst frame detail s) := reported_postEvent

theorem reported_sysEvent {code cls unit detail : Nat} : Reported s (sysEvent code cls unit detail s) := reported_postEvent

/-- An event of a unit and the source that tells of it. -/
theorem reported_tell {code cls inst detail : Nat} {frame : Option Nat} :
    Reported s (raise n (unitEvent code cls inst frame detail s)) := reported_unitEvent.trans reported_raise

theorem recorded_completeAll {l : List Cmd} {r : Cmd → Reply} : recorded s (l.foldl (fun t c => complete c (r c) t) s) :=
  recorded_foldl l fun _ _ _ => recorded_complete

/-! ## The media (08 R301) -/

theorem recorded_lanesTurn {up : Bool} {l : List Nat} : recorded s (lanesTurn up l s) :=
  recorded_foldl l fun _ _ _ => recorded_modLane

theorem recorded_sendAdmin {l : List NvmeAdmin} : recorded s (sendAdmin d l s) := recorded_foldl l fun _ _ _ => recorded_emit

theorem recorded_attachSsd : recorded s (attachSsd d s) := by
  unfold attachSsd
  split
  · exact recorded_refl s
  · exact (recorded_lanesTurn.trans recorded_sendAdmin).trans recorded_modSsd

theorem recorded_pushWrite {w : NvmeWrite} : recorded s (pushWrite w s) := by
  have h : recorded s (modRec (fun x => { x with writes := x.writes ++ [w] }) (attachSsd w.ssd s)) :=
    recorded_attachSsd.trans recorded_modRec
  unfold pushWrite
  dsimp only
  split
  · exact h.trans recorded_emit
  · exact h

theorem recorded_sendTo : recorded s (sendTo n s) := by
  refine recorded_foldl _ fun t k _ => ?_
  dsimp only
  split
  · exact recorded_refl t
  · exact recorded_pushWrite.trans recorded_modRec

theorem recorded_sendPadded {body : List Byte} : recorded s (sendPadded body n s) :=
  (recorded_modRec.trans recorded_sendTo).trans recorded_modRec

theorem recorded_judgeLow : recorded s (judgeLow s) := by
  refine recorded_foldl _ fun t d _ => ?_
  dsimp only
  split
  · exact recorded_modSsd.trans reported_tell.recorded
  · exact recorded_modSsd

/-! ## Chunks (08 R303 to R310) -/

theorem recorded_placeChunk : recorded s (placeChunk s) := recorded_foldl _ fun _ _ _ => recorded_modSsd

theorem recorded_answerStart {k : Nat} : recorded s (answerStart n k s) := by
  unfold answerStart
  split
  · exact recorded_modRec.trans recorded_complete
  · exact recorded_refl s

theorem recorded_mediaFull : recorded s (mediaFull s) := recorded_modRec.trans reported_tell.recorded

theorem recorded_openChunk : recorded s (openChunk s) := by
  unfold openChunk
  dsimp only
  split
  · exact recorded_mediaFull
  · exact (recorded_placeChunk.trans recorded_modRec).trans recorded_pushWrite

theorem recorded_putBytes {bs : List Byte} : recorded s (putBytes bs s) := recorded_modRec.trans recorded_sendTo

theorem recorded_putIndex {i : IndexEntry} : recorded s (putIndex i s) := recorded_modRec

theorem recorded_beginClose : recorded s (beginClose n s) := by
  unfold beginClose
  dsimp only
  split
  · exact recorded_putBytes.trans recorded_modRec
  · exact recorded_modRec

theorem recorded_leaveChunk : recorded s (leaveChunk n s) := (recorded_foldl _ fun _ _ _ => recorded_modSsd).trans recorded_modRec

/-! ## Records (08 R306 to R309) -/

theorem recorded_takeAudio : recorded s (takeAudio e s).2 := by
  unfold takeAudio
  dsimp only
  split
  · exact recorded_refl s
  · exact recorded_modRec.trans recorded_bump

theorem recorded_writeMeta {k : Nat} : recorded s (writeMeta e n k s) := by
  unfold writeMeta
  dsimp only
  split
  · exact recorded_putBytes.trans recorded_putIndex
  · exact (recorded_putIndex.trans recorded_modRec).trans recorded_beginClose

theorem recorded_writeFrame {r : List Byte} : recorded s (writeFrame e r s) := by
  unfold writeFrame
  dsimp only
  split
  · exact recorded_writeMeta
  · split
    · exact recorded_putBytes.trans recorded_writeMeta
    · split
      · exact recorded_modRec.trans recorded_beginClose
      · exact ((recorded_putBytes.trans recorded_putIndex).trans recorded_modRec).trans recorded_beginClose

theorem recorded_writeGap {k r i : Nat} : recorded s (writeGap n k r i s) :=
  (recorded_putBytes.trans recorded_putIndex).trans recorded_bump

theorem recorded_taken : recorded s (taken z e s) := recorded_modGroup

theorem recorded_keepAudio : recorded s (keepAudio z e s) := recorded_modGroup

theorem recorded_recordEntry : recorded s (recordEntry z e s) := by
  unfold recordEntry
  dsimp only
  split
  · split
    · exact recorded_putIndex.trans recorded_taken
    · exact recorded_beginClose
  · exact ((recorded_takeAudio.trans recorded_taken).trans recorded_keepAudio).trans recorded_writeFrame

/-! ## Stops and steps (08 R315, R322 to R324) -/

theorem recorded_finishStop : recorded s (finishStop n s) := by
  unfold finishStop
  dsimp only
  split
  · exact (((recorded_modRec.trans reported_tell.recorded).trans recorded_completeAll).trans recorded_complete).trans
      recorded_bump
  · exact (recorded_modRec.trans reported_tell.recorded).trans recorded_completeAll

theorem recorded_stopFor : recorded s (stopFor n s) := by
  unfold stopFor
  split
  · exact recorded_finishStop
  · exact recorded_modRec

theorem recorded_noteLost : recorded s (noteLost z s) := by
  unfold noteLost
  split
  · split
    · exact recorded_modGroup.trans recorded_writeGap
    · exact recorded_beginClose
  · exact recorded_refl s

theorem recorded_openToStop : recorded s (openToStop s) := by
  unfold openToStop
  dsimp only
  split
  · exact recorded_openChunk
  · exact recorded_openChunk.trans recorded_finishStop

theorem recorded_stopStep : recorded s (stopStep s) := by
  unfold stopStep
  dsimp only
  split
  · exact recorded_finishStop
  · split
    · split
      · exact recorded_modRec.trans recorded_writeFrame
      · exact recorded_openToStop
    · split
      · split
        · exact recorded_noteLost
        · exact recorded_openToStop
      · split
        · exact recorded_beginClose
        · exact recorded_finishStop

theorem recorded_thermalEnd : recorded s (thermalEnd s) := by
  unfold thermalEnd
  dsimp only
  split
  · exact (recorded_modGroup.trans (recorded_foldl _ fun _ _ _ => recorded_modGroup)).trans recorded_stopFor
  · exact (recorded_foldl _ fun _ _ _ => recorded_modGroup).trans recorded_stopFor

theorem recorded_openFor : recorded s (openFor e s) := by
  unfold openFor
  dsimp only
  split
  · exact recorded_openChunk.trans recorded_answerStart
  · exact recorded_openChunk

/-- One step of the recorder. -/
theorem recorded_drainOne : recorded s (drainOne s) := by
  have hrefl := recorded_refl s
  unfold drainOne
  dsimp only
  split
  · exact hrefl
  split
  · exact recorded_stopStep
  split
  · exact hrefl
  split
  · split
    · exact recorded_modRec.trans recorded_writeFrame
    · exact recorded_openChunk
  split
  · exact recorded_stopFor
  split
  · split
    · exact recorded_thermalEnd
    · exact hrefl
  split
  · exact recorded_stopFor
  split
  · split
    · exact recorded_thermalEnd
    · exact hrefl
  split
  · exact recorded_openFor
  split
  · exact recorded_noteLost
  · exact recorded_recordEntry

theorem recorded_drainFor : ∀ (n : Nat) {s : State}, recorded s (drainFor n s)
  | 0, s => recorded_refl s
  | n + 1, _ => recorded_drainOne.trans (recorded_drainFor n)

theorem recorded_drain : recorded s (drain s) := (recorded_drainFor _).trans recorded_judgeLow

theorem recorded_stopRecorder : recorded s (stopRecorder n s) := by
  unfold stopRecorder
  split
  · exact recorded_refl s
  · exact recorded_stopFor.trans recorded_drain

end

end Sys2Proof.Machine
end

section
/-! Units that reach their safe states (03 R93, R95): what each class does, and what its consumers are told. -/
namespace Sys2Proof.Machine

open Sys2Proof

section
variable {cls inst k : Nat} {unit : UnitRef} {s t u : State}

/-- From `s` to `t` a unit may have entered its safe state. -/
def SafeEntered (s t : State) : Prop :=
  t = { reported s t with
    brd := t.brd, cmds := t.cmds, cod := t.cod, freeCtr := t.freeCtr, groups := t.groups, lanes := t.lanes, queues := t.queues
    recorder := t.recorder, relays := t.relays, streams := t.streams, time := t.time }

theorem SafeEntered.trans (h : SafeEntered s t) (h' : SafeEntered t u) : SafeEntered s u := by
  unfold SafeEntered at *
  rw [h', h]
  rfl

theorem recorded.safeEntered (h : recorded s t) : SafeEntered s t := by
  unfold recorded at h
  unfold SafeEntered
  rw [h]
  rfl

theorem safeEntered_flushQueue : SafeEntered s (flushQueue k s) := by
  have hqueue : SafeEntered s (modQueue k queueFlush s) := rfl
  exact hqueue.trans (reported_unitEvent.recorded.trans recorded_completeAll).safeEntered

theorem safeEntered_relayFlushed : SafeEntered s (relayFlushed k s) := by
  have hrelay {g : Relay → Relay} {t : State} : SafeEntered t (modRelay k g t) := rfl
  exact (safeEntered_flushQueue.trans hrelay).trans reported_tell.recorded.safeEntered

/-- An engine's steering that waits is answered, and is gone. -/
theorem dropSteer_facts : ∃ v, (v = s ∨ v = modEngine k (fun x => { x with due := none }) s) ∧ Answered v (dropSteer k s) ∧
    (k < s.time.engines.length → (v.time.engines.getD k {}).due = none) := by
  unfold dropSteer
  split
  next r hdue =>
    refine ⟨_, .inr rfl, ?_, fun hk => ?_⟩
    · dsimp only
      split
      · exact answered_complete
      · exact (Reported.refl _).answered
    · simp [modEngine, List.getD_eq_getElem?_getD, hk]
  next hdue =>
    exact ⟨s, .inl rfl, (Reported.refl s).answered, fun _ => hdue⟩

theorem safeEntered_dropSteer : SafeEntered s (dropSteer k s) := by
  obtain ⟨v, rfl | rfl, hanswered, -⟩ := dropSteer_facts (k := k) (s := s)
  · exact hanswered.recorded.safeEntered
  · have hengine : SafeEntered s (modEngine k (fun x => { x with due := none }) s) := rfl
    exact hengine.trans hanswered.recorded.safeEntered

theorem safeEntered_enterSafe : SafeEntered s (enterSafe cls inst s) := by
  unfold enterSafe
  split
  · rfl
  · rfl
  · split
    · exact safeEntered_relayFlushed
    · rfl
  · exact recorded_stopRecorder.safeEntered
  · rfl
  · split
    · exact safeEntered_flushQueue
    · rfl
  · exact safeEntered_dropSteer
  · rfl

theorem reported_tellConsumers : Reported s (tellConsumers cls inst s) := by
  refine foldl_steps Reported.refl Reported.trans _ (fun t c _ => ?_) s
  dsimp only
  split
  · exact .refl t
  · exact reported_bindEvent

theorem reported_tellSafe : Reported s (tellSafe k s) := by
  unfold tellSafe
  split
  · exact .refl s
  · exact reported_tthSend

/-- The classes that neither flush nor record. -/
def plainClasses : List Nat := [0x10, 0x11, 0x20, 0x32, 0x40, 0x60, 0x70, 0x71, 0x90]

/-- Of these, the triggers' class and the engines' apart, none reaches the sensor block or, but for the streams', a stream. -/
theorem enterSafe_brd (hcls : cls ∈ plainClasses) (h : cls ≠ 0x10) : (enterSafe cls inst s).brd = s.brd := by
  simp only [plainClasses, List.mem_cons, List.not_mem_nil, or_false] at hcls
  rcases hcls with rfl | rfl | rfl | rfl | rfl | rfl | rfl | rfl | rfl
  case inl => exact absurd rfl h
  case inr.inr.inr.inr.inr.inr.inr.inl =>
    obtain ⟨v, hv, hanswered, -⟩ := dropSteer_facts (k := inst) (s := s)
    have hbrd : (dropSteer inst s).brd = v.brd := by unfold Answered at hanswered; rw [hanswered]; rfl
    rcases hv with rfl | rfl <;> exact hbrd
  all_goals rfl

theorem enterSafe_streams (hcls : cls ∈ plainClasses) (h : cls ≠ 0x20) : (enterSafe cls inst s).streams = s.streams := by
  simp only [plainClasses, List.mem_cons, List.not_mem_nil, or_false] at hcls
  rcases hcls with rfl | rfl | rfl | rfl | rfl | rfl | rfl | rfl | rfl
  case inr.inr.inl => exact absurd rfl h
  case inr.inr.inr.inr.inr.inr.inr.inl =>
    obtain ⟨v, hv, hanswered, -⟩ := dropSteer_facts (k := inst) (s := s)
    have hstreams : (dropSteer inst s).streams = v.streams := by unfold Answered at hanswered; rw [hanswered]; rfl
    rcases hv with rfl | rfl <;> exact hstreams
  all_goals rfl

theorem enterSafe_trigs : ∀ x ∈ (enterSafe 0x10 inst s).brd.trigs, x.mode = 0 ∧ x.scriptDue = 0 := by
  intro x hx
  obtain ⟨y, -, rfl⟩ := List.mem_map.mp hx
  exact ⟨rfl, rfl⟩

theorem enterSafe_stream (h : inst < s.streams.length) :
    (stream (enterSafe 0x20 inst s) inst).tnrRef = none ∧ (stream (enterSafe 0x20 inst s) inst).lastGood = none := by
  have hstream : stream (enterSafe 0x20 inst s) inst = endTnr (stream s inst) := stream_modStream h
  rw [hstream]
  exact ⟨rfl, rfl⟩

theorem enterSafe_waiting : ∀ x ∈ (enterSafe 0x40 inst s).cod.enc, x.core = inst → x.waiting = [] := by
  intro x hx hcore
  obtain ⟨y, -, rfl⟩ := List.mem_map.mp hx
  by_cases hy : y.core = inst
  · rw [if_pos hy]
  · rw [if_neg hy] at hcore
    exact absurd hcore hy

theorem enterSafe_due (h : inst < s.time.engines.length) : ((enterSafe 0x71 inst s).time.engines.getD inst {}).due = none := by
  obtain ⟨v, -, hanswered, hdue⟩ := dropSteer_facts (k := inst) (s := s)
  unfold Answered at hanswered
  have htime : (enterSafe 0x71 inst s).time = v.time := by
    show (dropSteer inst s).time = v.time
    rw [hanswered]
    rfl
  rw [htime]
  exact hdue h

end

/-- Settles O27: the unit enters the safe state of its class, and its consumers and the leader are told. -/
theorem safeStateReachedByClass : Obligations.SafeStateReachedByClass := by
  intro unit s k hon hdev hkey hordered href
  set v : State := { s with bind := { s.bind with safe := Tbl.set s.bind.safe k 2 } } with hv
  set w : State := enterSafe unit.cls unit.inst v with hw
  have hexec : exec (.safeStateReached unit) s = .next (tellSafe k (tellConsumers unit.cls unit.inst w)) := by
    have hown : (unit.device == s.sys.device) = true := by simpa using hdev
    simp only [exec, execSafeStateReached, hkey, hon, hown, hordered, beq_self_eq_true, Bool.and_self, if_true, reachSafe, href,
      hw, hv]
  have htold : Reported w (tellSafe k (tellConsumers unit.cls unit.inst w)) := reported_tellConsumers.trans reported_tellSafe
  have hentered : SafeEntered v w := safeEntered_enterSafe
  refine ⟨_, hexec, ?_⟩
  generalize tellSafe k (tellConsumers unit.cls unit.inst w) = t at htold
  unfold Reported at htold
  have hbind : t.bind = v.bind := by
    unfold SafeEntered at hentered
    rw [htold, hentered]
    rfl
  refine ⟨?_, ?_, fun j hj => ?_, ?_, ?_, fun hcls => ⟨fun h => ?_, fun h => ?_, fun h hi => ?_, fun h hi => ?_, fun h => ?_,
    fun h => ?_⟩⟩
  · unfold SafeEntered at hentered
    rw [htold, hentered, hv]
    rfl
  · rw [safeOf, hbind]
    exact Tbl.get_set
  · rw [safeOf, hbind]
    exact Tbl.get_set_ne hj
  · rw [hbind]
  · rw [hbind]
  · rw [htold, hw, h]
    exact enterSafe_trigs (inst := unit.inst)
  · rw [htold]
    exact enterSafe_brd hcls h
  · have hstream : stream t unit.inst = stream w unit.inst := by rw [htold]; rfl
    rw [hstream, hw, h]
    exact enterSafe_stream hi
  · rw [htold, hw, h]
    exact enterSafe_due hi
  · rw [htold]
    exact enterSafe_streams hcls h
  · rw [htold, hw, h]
    exact enterSafe_waiting

end Sys2Proof.Machine
end

section
/-! Functions that are reset (02 R66, 03 R94) on a state that no start leaves: one whose array counts no device. -/
namespace Sys2Proof.Machine

open Sys2Proof

/-- A device whose array size is 0, with function 1 enabled, which owns unit 0. -/
def emptyArray : State :=
  { State.reset with
    sys := { State.reset.sys with arraySize := 0, vfEnable := true, numVfs := 1 }
    bind := { State.reset.bind with owner := [(0, 1)] } }

theorem exec_flr_emptyArray : exec (.functionLevelReset 1) emptyArray = .next (resetFunction 1 emptyArray) := rfl

/-- No unit of the array is ordered, for the array counts none. -/
theorem safeOf_flr_emptyArray : safeOf (resetFunction 1 emptyArray) 0 = 0 := rfl

/-- Refutes O28: the statement leaves the array size open, and a function-level reset orders the units of the devices that it
counts (02 R66). With size 0 unit 0, which the function owns, is not ordered to its safe state. Every sound state has a size of 1
or more. -/
theorem not_functionsBeginEndAndReset : ¬ Obligations.FunctionsBeginEndAndReset := by
  intro ⟨_, h⟩
  obtain ⟨t, hexec, -, -, -, -, -, -, -, -, -, -, -, -, -, -, -, hordered, -⟩ :=
    h 1 emptyArray rfl rfl (by decide) (by decide) (by decide)
  rw [exec_flr_emptyArray] at hexec
  obtain rfl : resetFunction 1 emptyArray = t := Host.Outcome.next.inj hexec
  exact hordered 0 (by decide) rfl safeOf_flr_emptyArray

end Sys2Proof.Machine
end

section
/-! The host link (02 R62 to R67, 15 R512, 18 R587): what a link reset records, what a reset of the endpoint ends, and the command
rings after the link has come up. -/
namespace Sys2Proof.Machine

open Sys2Proof

section
variable {k n u kind : Nat} {l : List Nat} {b s t v : State}

/-! ## Lanes -/

/-- From `s` to `t` lanes alone may have changed, and free values may have been drawn for their equalisation. -/
def Laned (s t : State) : Prop := t = { s with lanes := t.lanes, freeCtr := t.freeCtr }

theorem Laned.refl (s : State) : Laned s s := rfl

theorem Laned.trans (h : Laned s t) (h' : Laned t v) : Laned s v := by
  unfold Laned at *
  rw [h', h]

theorem laned_modLane {g : Lane → Lane} : Laned s (modLane k g s) := rfl

theorem laned_equaliseAt {c : Nat} : Laned s (equaliseAt c k s) := rfl

theorem laned_equalise {classes : List Nat} : Laned s (equalise classes l s) :=
  foldl_steps Laned.refl Laned.trans _
    (fun t _ _ => foldl_steps Laned.refl Laned.trans _ (fun _ _ _ => laned_equaliseAt) t) s

theorem laned_lanesTurn {up : Bool} : Laned s (lanesTurn up l s) :=
  foldl_steps Laned.refl Laned.trans _ (fun _ _ _ => laned_modLane) s

theorem laned_equaliseEndpoint : Laned s (equaliseEndpoint s) := laned_equalise.trans laned_lanesTurn

/-- A receiver that loses its lock, which is counted. -/
def unlockedLane (x : Lane) : Lane := { x with locked := false, downs := if x.locked then min 255 (x.downs + 1) else x.downs }

theorem lanesTurn_down_eq : lanesTurn false l s = l.foldl (fun t k => modLane k unlockedLane t) s := by
  have hlane : (fun x : Lane => { x with
      locked := false, downs := if (false || !x.locked) = true then x.downs else min 255 (x.downs + 1) }) = unlockedLane := by
    funext x
    cases h : x.locked <;> simp [unlockedLane, h]
  unfold lanesTurn
  rw [hlane]

theorem lanesTurn_frame : lanesTurn false l s = { s with lanes := (lanesTurn false l s).lanes } := by
  refine foldl_steps (R := fun s t => t = { s with lanes := t.lanes }) (fun _ => rfl) (fun h h' => ?_) l (fun _ _ _ => rfl) s
  rw [h', h]

/-- The lanes of a list without repetition go down, and no other. -/
theorem lane_lanesTurn_down : ∀ (l : List Nat) (s : State), l.Nodup → ∀ k, k < s.lanes.length →
    lane (lanesTurn false l s) k = if k ∈ l then unlockedLane (lane s k) else lane s k := by
  intro l s hl k hk
  rw [lanesTurn_down_eq]
  exact foldl_reads (Inv := fun t => t.lanes.length = s.lanes.length) (new := fun t i => unlockedLane (lane t i)) (b := s.lanes.length)
    (fun j h => by simpa [modLane] using h) (fun j hj h => lane_modLane (by rw [h]; exact hj))
    (fun i j _ _ hij => ⟨lane_modLane_ne hij, by rw [lane_modLane_ne hij]⟩) l s rfl hl k hk

/-! ## The command rings (02 R64, R65) -/

theorem clearSlots_eq {x : Stall} : clearSlots x =
    { x with discarded := (clearSlots x).discarded, mem := (clearSlots x).mem, begun := (clearSlots x).begun, resumed := true } := rfl

/-- A byte after some slots of the ring have been cleared. -/
theorem byte_clearRing (l : List Nat) (m : Mem) (a : Nat) : Mem.byte (l.foldl (fun m k => Mem.clear m (0x1000 + 64 * k) 64) m) a =
    if ∃ k ∈ l, 0x1000 + 64 * k ≤ a ∧ a < 0x1000 + 64 * k + 64 then 0 else Mem.byte m a := by
  induction l generalizing m with
  | nil => simp
  | cons j l ih =>
    rw [List.foldl_cons, ih, byte_clear]
    simp only [List.mem_cons, exists_eq_or_imp]
    by_cases hl : ∃ k ∈ l, 0x1000 + 64 * k ≤ a ∧ a < 0x1000 + 64 * k + 64
    · rw [if_pos hl, if_pos (.inr hl)]
    · rw [if_neg hl]
      simp only [hl, or_false]

theorem mem_beyondDoorbell {x : Stall} {j : Nat} : j ∈ beyondDoorbell x ↔
    ∃ k < 64 - (x.cmdTail - x.cmdHead).toNat, (x.cmdTail.toNat + k) % 64 = j := by
  simp [beyondDoorbell, used]

/-- A slot between the indices is none of those beyond the last landed doorbell. -/
theorem slot_within {x : Stall} {j k : Nat} (hj : j < (x.cmdTail - x.cmdHead).toNat)
    (hk : k < 64 - (x.cmdTail - x.cmdHead).toNat) : (x.cmdTail.toNat + k) % 64 ≠ (x.cmdHead.toNat + j) % 64 := by
  have htail : x.cmdTail.toNat = (x.cmdHead.toNat + (x.cmdTail - x.cmdHead).toNat) % 2 ^ 16 := by
    bv_omega
  omega

/-- The memory of a stall after the link has come up. -/
theorem clearSlots_bytes (x : Stall) :
    (∀ k, k < 64 - (x.cmdTail - x.cmdHead).toNat → ∀ i, i < 64 →
      Mem.byte (clearSlots x).mem (0x1000 + 64 * ((x.cmdTail.toNat + k) % 64) + i) = 0) ∧
    (∀ a, a < 0x1000 ∨ 0x2000 ≤ a → Mem.byte (clearSlots x).mem a = Mem.byte x.mem a) ∧
    (∀ k, k < (x.cmdTail - x.cmdHead).toNat → (x.cmdTail - x.cmdHead).toNat ≤ 64 → ∀ i, i < 64 →
      Mem.byte (clearSlots x).mem (0x1000 + 64 * ((x.cmdHead.toNat + k) % 64) + i) =
        Mem.byte x.mem (0x1000 + 64 * ((x.cmdHead.toNat + k) % 64) + i)) := by
  have hbyte (a : Nat) : Mem.byte (clearSlots x).mem a = _ := byte_clearRing (beyondDoorbell x) x.mem a
  refine ⟨fun k hk i hi => ?_, fun a ha => ?_, fun k hk _ i hi => ?_⟩
  · rw [hbyte, if_pos ⟨_, mem_beyondDoorbell.mpr ⟨k, hk, rfl⟩, by omega, by omega⟩]
  · rw [hbyte, if_neg]
    rintro ⟨j, hj, hlow, hhigh⟩
    obtain ⟨m, -, rfl⟩ := mem_beyondDoorbell.mp hj
    omega
  · rw [hbyte, if_neg]
    rintro ⟨j, hj, hlow, hhigh⟩
    obtain ⟨m, hm, rfl⟩ := mem_beyondDoorbell.mp hj
    exact slot_within hk hm (by omega)

/-! ## A link reset (02 R62, R63, R67) -/

/-- A link reset under the policy CONTINUE, with no command that would abort: the record in every stall, the lanes, and the
message to the members. -/
theorem linkLost_facts (hpolicy : s.sys.linkPolicy = 0) (hnone : s.cmds.any aborts = false) :
    ∃ v, v = { s with
        sys := { s.sys with linkUp := false }
        ints := { s.ints with fns := s.ints.fns.map fun x => { x with msixEnable := false } }
        stalls := s.stalls.map fun x => { x with resetCount := (x.resetCount + 1) % 2 ^ 32, resetKind := kind, aborted := 0 }
        lanes := (lanesTurn false endpointLanes s).lanes } ∧ linkLost kind s = tellMembers .linkReset v := by
  refine ⟨_, rfl, ?_⟩
  have hlist : s.cmds.filter aborts = [] := List.filter_eq_nil_iff.mpr (by simpa using hnone)
  unfold linkLost abortAll safeAll
  rw [lanesTurn_frame]
  simp only [recordReset, msixOff, hlist, List.foldl_nil, hpolicy]
  rfl

theorem transmitted_tellMembers {m : GroomMsg} : Transmitted s (tellMembers m s) := by
  unfold tellMembers
  split
  · exact transmitted_tthBroadcast
  · exact .refl s

/-- A device alone tells nobody. -/
theorem tellMembers_alone {m : GroomMsg} (hlead : isLeader s = true) (hone : s.sys.arraySize = 1) : tellMembers m s = s := by
  have hdev : s.sys.device = 0 := by simpa [isLeader] using hlead
  simp [tellMembers, hlead, tthBroadcast, hdev, hone]

/-! ## The functions that end with the endpoint's configuration space (03 R84, 18 R587) -/

/-- From `s` to `t` units may have been ordered and released: what waits, the safe states, and what tells the members. -/
def Released (s t : State) : Prop :=
  t = { s with bind := { s.bind with safe := t.bind.safe, waiting := t.bind.waiting }, out := t.out, tth := t.tth }

theorem Released.refl (s : State) : Released s s := rfl

theorem Released.trans (h : Released s t) (h' : Released t v) : Released s v := by
  unfold Released at *
  rw [h', h]

theorem Ordered.released (h : Ordered s t) : Released s t := by
  unfold Ordered at h
  unfold Released
  rw [h]

theorem released_addRelease {r : UnitRef} : Released s (addRelease r s) := rfl

theorem released_tellRelease {r : UnitRef} : Released s (tellRelease r s) := by
  unfold tellRelease
  split
  · exact .refl s
  · rw [Released, tthSend_eq]

theorem released_releaseUnits {f : Nat} : Released s (releaseUnits f s) :=
  foldl_steps Released.refl Released.trans _
    (fun _ _ _ => (released_addRelease.trans released_tellRelease).trans ordered_orderSafe.released) s

theorem unitRef_device : (unitRef u).device = u / 256 := by
  unfold unitRef
  dsimp only
  split <;> rfl

/-- The units of the device at index 0 are released without a packet. -/
theorem out_releaseUnits {f : Nat} (hdev : s.sys.device = 0) (hown : ∀ e ∈ s.bind.owner, e.1 < 256) :
    (releaseUnits f s).out = s.out := by
  have hstep : ∀ t, ∀ u ∈ ownedBy s f, t.sys.device = 0 →
      (orderSafe u (tellRelease (unitRef u) (addRelease (unitRef u) t))).sys = t.sys ∧
        (orderSafe u (tellRelease (unitRef u) (addRelease (unitRef u) t))).out = t.out := by
    intro t u hu ht
    obtain ⟨e, he, rfl⟩ := List.mem_map.mp hu
    have hlow : e.1 / 256 = 0 := by
      have := hown e (List.mem_filter.mp he).1
      omega
    have htell : tellRelease (unitRef e.1) (addRelease (unitRef e.1) t) = addRelease (unitRef e.1) t :=
      if_pos (unitRef_device.trans (hlow.trans ht.symm))
    rw [htell, orderSafe_here (s := addRelease (unitRef e.1) t) (hlow.trans ht.symm)]
    split <;> exact ⟨rfl, rfl⟩
  exact (foldl_steps (R := fun t v => t.sys.device = 0 → v.sys = t.sys ∧ v.out = t.out) (fun _ _ => ⟨rfl, rfl⟩)
    (fun h h' ht => by
      obtain ⟨hsys, hout⟩ := h ht
      obtain ⟨hsys', hout'⟩ := h' (by rw [hsys]; exact ht)
      exact ⟨hsys'.trans hsys, hout'.trans hout⟩) _ hstep s hdev).2

/-- From `s` to `t` sources may have been set and masked while no message can leave. -/
def Masked (s t : State) : Prop :=
  t = { s with ints := { s.ints with pend := t.ints.pend, fns := t.ints.fns } } ∧
    ∀ f, (fnInt t f).msixEnable = (fnInt s f).msixEnable

theorem Masked.trans (h : Masked s t) (h' : Masked t v) : Masked s v := by
  refine ⟨?_, fun f => (h'.2 f).trans (h.2 f)⟩
  rw [h'.1, h.1]

theorem masked_raise (hlead : isLeader s = true) (hdown : s.sys.linkUp = false) : Masked s (raise n s) := by
  cases hon : (routeOf s n).enable with
  | false =>
    rw [raise_disabled hon]
    exact ⟨rfl, fun _ => rfl⟩
  | true =>
    have hquiet : trySignal (targetOf s n) (vectorOf s n) (pended n s) = pended n s :=
      trySignal_quiet (s := pended n s) (.inl (by simp [canSend, pended, hdown]))
    rw [raise_enabled hlead hon, hquiet, ite_self]
    exact ⟨rfl, fun _ => rfl⟩

theorem masked_maskedAtTarget : Masked s (maskedAtTarget n s) := by
  refine ⟨rfl, fun f => ?_⟩
  rcases fnInt_modFnInt_cases (f := targetOf s n) (g := f) (s := unpend n s)
    (h := fun x => { x with intMask := x.intMask ||| (1#640 <<< n) }) with h | ⟨-, h⟩ <;>
  · have hmsix := congrArg FnInt.msixEnable h
    exact hmsix

theorem masked_rerouted (hlead : isLeader s = true) (hdown : s.sys.linkUp = false) : Masked s (rerouted b n s) := by
  by_cases h : targetOf b n = targetOf s n
  · rw [rerouted_kept h]
    exact ⟨rfl, fun _ => rfl⟩
  · rw [rerouted_moved h]
    split
    · exact masked_maskedAtTarget.trans (masked_raise hlead hdown)
    · exact masked_maskedAtTarget

theorem masked_reroutedAll (hlead : isLeader s = true) (hdown : s.sys.linkUp = false) : Masked s (reroutedAll b s) :=
  foldl_steps (R := fun s t => isLeader s = true → s.sys.linkUp = false → Masked s t) (fun _ _ _ => ⟨rfl, fun _ => rfl⟩)
    (fun h h' hlead hdown => by
      have hst := h hlead hdown
      have hsys := congrArg State.sys hst.1
      exact hst.trans (h' (by unfold isLeader; rw [hsys]; exact hlead) (by rw [hsys]; exact hdown)))
    _ (fun _ _ _ hlead hdown => masked_rerouted hlead hdown) s hlead hdown

/-- The functions end with the endpoint's configuration space while the link is down. -/
theorem endFunctions_facts (hlead : isLeader s = true) (hdown : s.sys.linkUp = false) :
    let t := endFunctions 0 clearConfig s
    t = { s with sys := { s.sys with vfEnable := false, numVfs := 0 }
                 bind := { s.bind with safe := t.bind.safe, waiting := t.bind.waiting }, out := t.out, tth := t.tth
                 ints := { s.ints with pend := t.ints.pend, fns := t.ints.fns } } ∧
      (∀ f, (fnInt t f).msixEnable = (fnInt s f).msixEnable) ∧
      (s.sys.device = 0 → (∀ e ∈ s.bind.owner, e.1 < 256) → t.out = s.out) := by
  set gone := ((List.range 15).map (· + 1)).filter fun f => fnExists s f && decide (0 < f) with hgone
  set v := gone.foldl (fun t f => releaseUnits f t) s with hv
  have hreleased : Released s v := foldl_steps Released.refl Released.trans _ (fun _ _ _ => released_releaseUnits) s
  have hout : s.sys.device = 0 → (∀ e ∈ s.bind.owner, e.1 < 256) → v.out = s.out := fun hdev hown =>
    (foldl_steps (R := fun t v => t.sys.device = 0 → (∀ e ∈ t.bind.owner, e.1 < 256) → Released t v ∧ v.out = t.out)
      (fun t _ _ => ⟨.refl t, rfl⟩)
      (fun h h' hdev hown => by
        obtain ⟨hst, hout⟩ := h hdev hown
        have hsys := congrArg State.sys hst
        have howner := congrArg (·.bind.owner) hst
        obtain ⟨htu, hout'⟩ := h' (by rw [hsys]; exact hdev) (by rw [howner]; exact hown)
        exact ⟨hst.trans htu, hout'.trans hout⟩)
      gone (fun _ _ _ hdev hown => ⟨released_releaseUnits, out_releaseUnits hdev hown⟩) s hdev hown).2
  unfold Released at hreleased
  set w := clearConfig { v with bind := { v.bind with waiting := v.bind.waiting.map (redirect 0) } } with hw
  have hleadw : isLeader w = true := by rw [hw, hreleased]; exact hlead
  have hdownw : w.sys.linkUp = false := by rw [hw, hreleased]; exact hdown
  obtain ⟨hframe, hmsix⟩ := masked_reroutedAll (b := s) hleadw hdownw
  have ht : endFunctions 0 clearConfig s = reroutedAll s w := rfl
  dsimp only
  rw [ht]
  clear_value w v
  generalize reroutedAll s w = t at hframe hmsix
  refine ⟨?_, fun f => (hmsix f).trans ?_, fun hdev hown => ?_⟩
  · rw [hframe, hw, hreleased]
    rfl
  · have hints : w.ints = s.ints := by rw [hw, hreleased]; rfl
    rw [fnInt, hints]
    rfl
  · rw [hframe, hw]
    exact hout hdev hown

end

/-- Settles O29: what a link reset records, what PERST_N ends beside it, and the command rings after LINK_UP. -/
theorem linkResetAndLinkUpFollowed : Obligations.LinkResetAndLinkUpFollowed := by
  refine ⟨fun hot s hon hlead hpolicy hnone => ⟨fun hup => ?reset, ?perst⟩, fun s hon hlead hdown hstop => ?up⟩
  case reset =>
    obtain ⟨v, hv, hlost⟩ := linkLost_facts (kind := if hot then 1 else 2) hpolicy hnone
    have hexec : exec (.linkReset hot) s = .next (tellMembers .linkReset v) := by
      rw [← hlost]
      simp only [exec, execLinkReset, hon, hlead, hup, Bool.and_self, if_true]
    have hsent : Transmitted v (tellMembers .linkReset v) := transmitted_tellMembers
    have hlane (l : Nat) : lane (tellMembers .linkReset v) l = lane (lanesTurn false endpointLanes s) l := by
      unfold Transmitted at hsent
      rw [hsent, hv]
      rfl
    refine ⟨_, hexec, ?_, fun l hl => ?_, fun l hl hlen => ?_, fun hone => ?_⟩
    · unfold Transmitted at hsent
      rw [hsent, hv]
    · rw [hlane]
      by_cases hlen : l < s.lanes.length
      · rw [lane_lanesTurn_down _ _ (by decide) l hlen, if_neg hl]
      · have hlength : (lanesTurn false endpointLanes s).lanes.length = s.lanes.length := by
          rw [lanesTurn_down_eq]
          exact foldl_leaves (p := fun t => t.lanes.length) (op := fun t k => modLane k unlockedLane t)
            (fun _ _ => by simp [modLane]) _ s
        simp only [lane, List.getD_eq_getElem?_getD]
        rw [List.getElem?_eq_none (by omega), List.getElem?_eq_none (by omega)]
    · rw [hlane, lane_lanesTurn_down _ _ (by decide) l hlen, if_pos hl]
      rfl
    · have htell : tellMembers .linkReset v = v := tellMembers_alone (by rw [hv]; exact hlead) (by rw [hv]; exact hone)
      rw [htell, hv]
      exact ⟨rfl, rfl⟩
  case perst =>
    obtain ⟨v, hv, hlost⟩ := linkLost_facts (kind := 4) hpolicy hnone
    set w := tellMembers .linkReset v with hw
    have hsent : Transmitted v w := transmitted_tellMembers
    have hframe : w = { v with out := w.out, tth := w.tth } := hsent
    rw [hv] at hframe
    have hexec : exec .perstN s = .next (endFunctions 0 clearConfig w) := by
      rw [← hlost]
      simp only [exec, execPerstN, hon, hlead, Bool.and_self, if_true]
    obtain ⟨hended, hmsix, hout⟩ := endFunctions_facts (s := w) (by rw [hframe]; exact hlead) (by rw [hframe])
    refine ⟨_, hexec, ?_, ?_, fun hone hown => ?_, ?_, ?_, ?_, ?_, fun f => ?_⟩
    · rw [hended, hframe]
    · rw [hended, hframe]
    · have htell : w = v := tellMembers_alone (by rw [hv]; exact hlead) (by rw [hv]; exact hone)
      have hdev : s.sys.device = 0 := by simpa [isLeader] using hlead
      rw [hout (by rw [hframe]; exact hdev) (by rw [hframe]; exact hown), htell, hv]
    · rw [hended, hframe]
    · rw [hended, hframe]
    · rw [hended, hframe]
    · rw [hended, hframe]
    · rw [hmsix f, hframe]
      simp only [fnInt, List.getD_eq_getElem?_getD, List.getElem?_map]
      cases s.ints.fns[f]? <;> rfl
  case up =>
    set v : State := { s with sys := { s.sys with linkUp := true }, stalls := s.stalls.map clearSlots } with hv
    have hexec : exec .linkUp s = .next (equaliseEndpoint v) := by
      have hcool : coolEvent (equaliseEndpoint v) = equaliseEndpoint v := by
        refine if_neg fun h => hstop ?_
        have hlaned : Laned v (equaliseEndpoint v) := laned_equaliseEndpoint
        unfold Laned at hlaned
        rw [hlaned] at h
        exact h.1
      rw [← hcool]
      simp only [exec, execLinkUp, hon, hlead, hdown, Bool.not_false, Bool.and_self, if_true, hv]
    have hlaned : Laned v (equaliseEndpoint v) := laned_equaliseEndpoint
    unfold Laned at hlaned
    refine ⟨_, hexec, ?_, ?_, fun f hf => ?_⟩
    · rw [hlaned, hv]
    · rw [hlaned, hv]
      exact List.length_map _
    · have hstall : stall (equaliseEndpoint v) f = clearSlots (stall s f) := by
        rw [hlaned, hv]
        simp [stall, List.getD_eq_getElem?_getD, hf]
      rw [hstall]
      exact ⟨clearSlots_eq, clearSlots_bytes (stall s f)⟩

end Sys2Proof.Machine
end

section
/-! Resets, retention and warm starts (18 R584 to R598, 19 R617, R621; 10 R387 to R389). -/
namespace Sys2Proof.Machine

open Sys2Proof

section
variable {code : Nat} {inp : StartInputs} {warm : WarmInputs} {s t : State}

/-! ## The entry into self-refresh (10 R387) -/

/-- The queues of the SSDs are deleted: the recorder's SSDs, and what has left the device. -/
theorem detachSsds_frame : detachSsds s = { s with recorder := (detachSsds s).recorder, out := (detachSsds s).out } := by
  have hadmin {d : Nat} {l : List NvmeAdmin} {t : State} : sendAdmin d l t = { t with out := (sendAdmin d l t).out } :=
    foldl_steps (R := fun t u => u = { t with out := u.out }) (fun _ => rfl) (fun h h' => by rw [h', h]) l (fun _ _ _ => rfl) t
  refine foldl_steps (R := fun t u => u = { t with recorder := u.recorder, out := u.out }) (fun _ => rfl)
    (fun h h' => by rw [h', h]) _ (fun t d _ => ?_) s
  split
  · rw [hadmin]
    rfl
  · rfl

theorem entryEnded_due (hdue : s.sys.entryDue = true) (hstop : s.thm.stop ≠ 1) :
    entryEnded s = enterRetention (!s.sys.entryLate) s := if_pos ⟨hdue, hstop⟩

theorem entryEnded_none (hdue : s.sys.entryDue = false) : entryEnded s = s := if_neg (by simp [hdue])

/-- A step on an empty queue of a device that is not ready sends nothing on. -/
theorem clockTick_notReady (h : s.sys.ready = false) :
    clockTick s = { s with tick := s.tick + 1, time := if enginesRun s then timeCycle s.time else s.time } :=
  if_neg (by simp [groomOn, h])

/-- The state at the end of an entry. -/
theorem enterRetention_facts {valid : Bool} : let t := enterRetention valid s
    t.hbm = s.hbm ∧ t.sys.phase = .retained ∧ t.sys.selfRefresh = true ∧ t.sys.linkUp = false ∧ t.sys.ready = false ∧
      t.sys.entryDue = false ∧ t.sys.retention = some ⟨valid, Tbl.get 0 s.sys.fuses 1⟩ ∧ t.cfg = s.cfg ∧ t.bind = s.bind := by
  unfold enterRetention
  rw [detachSsds_frame]
  exact ⟨rfl, rfl, rfl, rfl, rfl, rfl, rfl, rfl, rfl⟩

/-! ## Warm starts (18 R592 to R597) -/

/-- The host-ready of a warm start: what it keeps of the configuration and of HBM. -/
theorem warmReady_facts (hstop : s.thm.stop ≠ 2) : let t := warmReady s
    t.hbm = s.hbm ∧ t.sys.phase = .running ∧ t.sys.ready = true ∧ t.sys.startKind = 1 ∧ t.sys.fails = 0 ∧
      t.sys.profile = s.sys.profile ∧ t.sys.fuses = s.sys.fuses ∧ t.cfg.epoch = s.cfg.epoch ∧ t.cfg.staged = [] ∧
      t.cfg.sched = [] ∧ t.bind = releasedBind s.bind ∧ t.cmds = [] ∧ t.cfg.committed = keptConfig s.cfg.committed := by
  have h : unreported (warmReady s) = unreported _ :=
    unreported_tellReady.trans (unreported_equaliseRoot.trans unreported_equaliseEndpoint)
  have read {β : Type} (p : State → β) := congrArg p h
  refine ⟨read (·.hbm), (read (·.sys.phase)).trans ?_, read (·.sys.ready), read (·.sys.startKind), read (·.sys.fails),
    read (·.sys.profile), read (·.sys.fuses), read (·.cfg.epoch), read (·.cfg.staged), read (·.cfg.sched), read (·.bind),
    read (·.cmds), read (·.cfg.committed)⟩
  exact if_neg (by simpa using hstop)

theorem mem_keptConfig {m : Tbl CfgVal} {e : Nat × CfgVal} (h : e ∈ keptConfig m) :
    e ∈ m ∧ e.1 / 65536 ∈ [0x0401, 0xA001, 0x5001, 0x5002] := by
  simpa [keptConfig] using h

/-- A start of the second kind that has nothing configured, owned or written leaves nothing so, and is not of the first kind. -/
def Blank (m : Tbl Nat) (s : State) : Prop :=
  s.hbm = [] ∧ s.cfg = {} ∧ s.bind = {} ∧ s.sys.fuses = m ∧ s.sys.startKind = 2

theorem blank_failStart {m : Tbl Nat} (h : Blank m s) : Blank m (failStart code s) := by
  unfold failStart
  dsimp only
  split <;> exact h

/-- The host-ready of a cold start after a warm start that failed. -/
theorem coldReady_startKind : (coldReady inp s).sys.startKind = if s.sys.fails == 3 then 3 else if s.sys.startKind = 2 then 2 else 0 := by
  have h : unreported (coldReady inp s) = unreported _ :=
    unreported_tellReady.trans (unreported_equaliseRoot.trans unreported_equaliseEndpoint)
  exact congrArg (·.sys.startKind) h

/-- A cold start of such a device ends with nothing configured, owned or written. -/
theorem coldSteps_blank {m : Tbl Nat} (h : Blank m s) : let t := coldSteps inp s
    t.hbm = [] ∧ t.cfg = {} ∧ t.bind = {} ∧ t.sys.fuses = m ∧ t.sys.startKind ≠ 1 := by
  have hkind {u : State} (hu : Blank m u) : u.hbm = [] ∧ u.cfg = {} ∧ u.bind = {} ∧ u.sys.fuses = m ∧ u.sys.startKind ≠ 1 := by
    obtain ⟨hhbm, hcfg, hbind, hfuses, hstart⟩ := hu
    exact ⟨hhbm, hcfg, hbind, hfuses, by rw [hstart]; decide⟩
  unfold coldSteps
  dsimp only
  set v := latchStraps inp (if s.sys.phase = .released then { s with sys := { s.sys with step := 1 } } else beginStart s)
    with hv
  have hblank : Blank m v := by
    rw [hv]
    split <;> exact h
  generalize (if v.sys.fails = 3 then inp.recoveryAuthentic else inp.primaryAuthentic) = authentic
  split
  · exact hkind hblank
  split
  · exact hkind (blank_failStart hblank)
  split
  · exact hkind (blank_failStart hblank)
  split
  · exact hkind (blank_failStart hblank)
  split
  · exact hkind hblank
  · obtain ⟨-, -, -, -, hfuses, -, hbind, hcfg, -, hhbm, -⟩ := coldReady_facts (inp := inp) (s := v)
    obtain ⟨-, -, -, hfuses', -⟩ := hblank
    refine ⟨hhbm, hcfg, hbind, hfuses.trans hfuses', ?_⟩
    rw [coldReady_startKind]
    split_ifs <;> decide

theorem warmFault_valid {h : Nat} (hrec : s.sys.retention = some ⟨true, h⟩) (hlost : s.sys.lost = false)
    (hsig : warm.signatureRowsMatch = true) (himage : warm.imageHashMatches = true) (hkey : h = Tbl.get 0 s.sys.fuses 1) :
    warmFault warm s = 0 := by
  simp [warmFault, hrec, hlost, hsig, himage, hkey]

/-- A warm start that a check fails has a FAIL_CODE. -/
theorem warmFault_ne_zero {h : Nat} (hbad : s.sys.retention = none ∨ s.sys.retention = some ⟨false, h⟩ ∨ s.sys.lost = true ∨
    warm.signatureRowsMatch = false ∨ warm.imageHashMatches = false ∨
    (s.sys.retention = some ⟨true, h⟩ ∧ h ≠ Tbl.get 0 s.sys.fuses 1)) : warmFault warm s ≠ 0 := by
  unfold warmFault
  rcases hbad with hb | hb | hb | hb | hb | ⟨hb, hkey⟩
  · simp [hb]
  · simp [hb]
  · cases s.sys.retention <;> simp [hb]
  · cases s.sys.retention with
    | none => simp
    | some r => simp only [hb]; split_ifs <;> simp_all
  · cases s.sys.retention with
    | none => simp
    | some r => simp only [hb]; split_ifs <;> simp_all
  · simp only [hb]
    split_ifs <;> simp_all

/-- A warm start of a device that is retained. -/
theorem exec_warmStart (hphase : s.sys.phase = .retained) (hdue : s.sys.entryDue = false) :
    ∃ v, v = { s with sys := { s.sys with warmRstLow := false } } ∧
      exec (.warmStart warm) s = .next (if warmFault warm v = 0 then warmReady v else warmFailed (warmFault warm v) warm v) := by
  refine ⟨_, rfl, ?_⟩
  simp only [exec, execWarmStart, entryEnded_none hdue, hphase, if_true]

end

/-- Settles O30: the state in reset, and the recovery of the rails. -/
theorem resetKeepsFailedStarts : Obligations.ResetKeepsFailedStarts := by
  refine fun s => ⟨⟨_, rfl, rfl, rfl, rfl, rfl, rfl, rfl, rfl, rfl, rfl, rfl, rfl, rfl, rfl, rfl, rfl, rfl, rfl, rfl, rfl⟩,
    fun rail hrail => ⟨_, congrArg Host.Outcome.next (if_pos hrail), rfl, List.mem_cons_self, rfl, rfl, rfl, rfl, rfl, rfl, rfl⟩,
    fun rail hrail => congrArg Host.Outcome.next (if_neg (by omega)), fun hlow => ?_⟩
  have hsome : s.sys.railsLow.isEmpty = false := by simpa using hlow
  simp only [exec, execSupplyRecovery, hsome, Bool.false_eq_true, if_false]
  cases s.sys.sysRstLow <;> rfl

/-- Settles O32: an entry into self-refresh, and the warm start that follows. -/
theorem retentionAndWarmStartKeepHbm : Obligations.RetentionAndWarmStartKeepHbm := by
  refine ⟨fun s => ⟨fun hready hrst hphase => ?entry, fun hoff => ?ignored, rfl, fun hdue hstop hempty => ?ended,
    fun k hk href => ?lost⟩, fun inp s hdue hstop => ?late, fun inp s h hphase hdue => ⟨?warm, fun hbad => ?cold⟩⟩
  case entry =>
    simp only [exec, execRetentionEntry, hready, hrst]
    rcases hphase with h | h <;> rw [h] <;> rfl
  case ignored =>
    refine congrArg Host.Outcome.next (if_pos ?_)
    rcases hoff with h | h <;> simp [h]
  case ended =>
    obtain ⟨hhbm, hphase, href, hlink, hready, hdue', hrec, hcfg, hbind⟩ := enterRetention_facts (valid := !s.sys.entryLate) (s := s)
    have hstep : step s = .next (clockTick (enterRetention (!s.sys.entryLate) s)) := by
      simp only [step, hempty, idleStep, entryEnded_due hdue hstop]
    rw [hstep, clockTick_notReady hready]
    exact ⟨_, rfl, hhbm, hphase, href, hlink, hready, hdue', hrec, hcfg, hbind⟩
  case lost =>
    exact congrArg Host.Outcome.next (if_pos ⟨href, hk⟩)
  case late =>
    obtain ⟨-, hphase, -, -, -, hdue', -⟩ := enterRetention_facts (valid := !s.sys.entryLate) (s := s)
    simp only [exec, execWarmStart, entryEnded_due hdue hstop, entryEnded_none hdue', hphase, if_true]
  case warm =>
    intro hrec hlost hsig himage hkey hstop
    obtain ⟨v, hv, hexec⟩ := exec_warmStart (warm := inp) hphase hdue
    have hfault : warmFault inp v = 0 := warmFault_valid (by rw [hv]; exact hrec) (by rw [hv]; exact hlost) hsig himage
      (by rw [hv]; exact hkey)
    rw [hfault, if_pos rfl] at hexec
    obtain ⟨hhbm, hrun, hready, hkind, hfails, hprofile, hfuses, hepoch, hstaged, hsched, hbind, hcmds, hcommitted⟩ :=
      warmReady_facts (s := v) (by rw [hv]; exact hstop)
    rw [hv] at hhbm hprofile hfuses hepoch hcommitted hbind
    refine ⟨_, hexec, ?_, hrun, hready, hkind, hfails, ?_, ?_, ?_, hstaged, hsched, fun k => ?_, hcmds, fun e he => ?_⟩
    · rw [hv]; exact hhbm
    · rw [hv]; exact hprofile
    · rw [hv]; exact hfuses
    · rw [hv]; exact hepoch
    · rw [ownerOf, hv, hbind]
      rfl
    · rw [hv, hcommitted] at he
      exact mem_keptConfig he
  case cold =>
    obtain ⟨v, hv, hexec⟩ := exec_warmStart (warm := inp) hphase hdue
    have hfault : warmFault inp v ≠ 0 := warmFault_ne_zero (h := h) (by rw [hv]; exact hbad)
    rw [if_neg hfault] at hexec
    refine ⟨_, hexec, coldSteps_blank ⟨rfl, rfl, rfl, ?_, rfl⟩⟩
    rw [hv]
    rfl

end Sys2Proof.Machine
end

section
/-! Network time (13 R448 to R455, R660): the commands of the class TIME, and the timelines across a steering and a selection. -/
namespace Sys2Proof.Machine

open Sys2Proof

section
variable {c : Cmd} {r : CmdRef} {e k p n v : Nat} {b : List Byte} {before x y : TimeSt} {moved : Bool} {l : List Cmd}
  {s t u : State}

/-! ## Bytes that read back -/

theorem leNat_leBytes : ∀ {n v : Nat}, leNat (leBytes n v) = v % 256 ^ n
  | 0, v => by simp [leBytes, leNat, Nat.mod_one]
  | n + 1, v => by
    have hsplit : v % (256 * 256 ^ n) = v % 256 + 256 * (v / 256 % 256 ^ n) := Nat.mod_mul
    have hpow : 256 ^ (n + 1) = 256 * 256 ^ n := Nat.pow_succ'
    rw [leBytes, leNat, leNat_leBytes, BitVec.toNat_ofNat, hpow, hsplit]

/-- A number written little-endian between other bytes reads back. -/
theorem fieldAt_leBytes {a b : List Byte} {i : Nat} (hi : a.length = i) : fieldAt (a ++ (leBytes n v ++ b)) i n = v % 256 ^ n := by
  rw [fieldAt, List.drop_left' hi, List.take_left' length_leBytes, leNat_leBytes]

theorem unsigned_lt {w : Nat} {i : Int} : unsigned w i < 2 ^ w := by
  have hpos : (0 : Int) < 2 ^ w := by positivity
  have hlt := Int.emod_lt_of_pos i hpos
  have hnonneg := Int.emod_nonneg i hpos.ne'
  unfold unsigned
  zify
  rw [Int.toNat_of_nonneg hnonneg]
  exact hlt

/-! ## The commands of the class TIME -/

theorem length_timeReadBytes : (timeReadBytes s e).length = 32 := by
  simp [timeReadBytes, length_leBytes]

theorem fieldAt_timeReadBytes :
    fieldAt (timeReadBytes s e) 8 8 = unsigned 64 s.time.delta ∧ fieldAt (timeReadBytes s e) 16 8 = unsigned 64 s.time.phi := by
  have hlt (i : Int) : unsigned 64 i % 256 ^ 8 = unsigned 64 i := Nat.mod_eq_of_lt unsigned_lt
  unfold timeReadBytes
  simp only [List.append_assoc]
  constructor
  · rw [fieldAt_leBytes length_leBytes, hlt]
  · rw [← List.append_assoc, fieldAt_leBytes (by simp [length_leBytes]), hlt]

/-! ## S and F across a change of an engine (13 R452, R453) -/

/-- After R452 the frame timeline is where it was. -/
theorem fUnits_retime : fUnits (retime before x) = fUnits before := by
  simp only [fUnits, retime]
  omega

/-- After R452 the selected time is where it was, or was within the window and is the engine's. -/
theorem sUnits_retime : sUnits (retime before x) = sUnits before ∨
    (retime before x).delta = 0 ∧ (sUnits before - sUnits (retime before x)).natAbs ≤ x.windowNs * 2 ^ 32 := by
  by_cases h : (sUnits before - ((x.engines.getD x.sel {}).time : Int)).natAbs ≤ x.windowNs * 2 ^ 32
  · have hdelta : (retime before x).delta = 0 := if_pos h
    have hs : sUnits (retime before x) = ((x.engines.getD x.sel {}).time : Int) + (retime before x).delta := rfl
    refine .inr ⟨hdelta, ?_⟩
    rw [hs, hdelta, add_zero]
    exact h
  · have hdelta : (retime before x).delta = sUnits before - ((x.engines.getD x.sel {}).time : Int) := if_neg h
    have hs : sUnits (retime before x) = ((x.engines.getD x.sel {}).time : Int) + (retime before x).delta := rfl
    refine .inl ?_
    rw [hs, hdelta]
    omega

/-- From `x` to `y` a cycle's selections and steering keep S and F, as R452 and R453 have it. -/
def TimeKept (window : Nat) (x y : TimeSt) : Prop :=
  fUnits y = fUnits x ∧ (sUnits y = sUnits x ∨ y.delta = 0 ∧ (sUnits x - sUnits y).natAbs ≤ window * 2 ^ 32)

theorem timeKept_retime : TimeKept x.windowNs before (retime before x) := ⟨fUnits_retime, sUnits_retime⟩

/-- The engine that a steering reaches. -/
theorem engine_modEngine {g : Engine → Engine} (h : e < s.time.engines.length) :
    (modEngine e g s).time.engines.getD e {} = g (s.time.engines.getD e {}) := by
  simp [modEngine, List.getD_eq_getElem?_getD, h]

theorem engine_modEngine_ne {g : Engine → Engine} (h : k ≠ e) :
    (modEngine e g s).time.engines.getD k {} = s.time.engines.getD k {} := by
  simp [modEngine, List.getD_eq_getElem?_getD, Ne.symm h]

/-- A steering with the fields of its block. -/
theorem steered_facts {z : Engine} (b : List Byte) : let a := fieldAt b 1 1
    let y := steered b z
    y.due = none ∧ y.steered = true ∧ y.incr = (if bit a 0 then fieldAt b 4 8 else z.incr) ∧
      (bit a 2 = true → y.time = timeUnits (timeAt b 0x14) % timeRange) ∧
      (bit a 2 = false → bit a 1 = true →
        (y.time : Int) = ((z.time : Int) + signed 64 (fieldAt b 0xC 8) * 2 ^ 32) % (timeRange : Int)) ∧
      (bit a 2 = false → bit a 1 = false → y.time = z.time) := by
  refine ⟨rfl, rfl, rfl, fun h => if_pos h, fun h2 h1 => ?_, fun h2 h1 => ?_⟩
  · have hrange : (timeRange : Int) ≠ 0 := by decide
    simp only [steered, h2, h1, Bool.false_eq_true, if_false, if_true]
    exact Int.toNat_of_nonneg (Int.emod_nonneg _ hrange)
  · simp only [steered, h2, h1, Bool.false_eq_true, if_false]

/-- A steering that moves no engine's time, or not that of the selected engine, leaves S and F. -/
theorem steered_keeps (h : (steerMoves b && e == s.time.sel) = false) :
    ((modEngine e (steered b) s).time.engines.getD s.time.sel {}).time = (s.time.engines.getD s.time.sel {}).time := by
  by_cases he : s.time.sel = e
  · subst he
    have hstill : bit (fieldAt b 1 1) 1 = false ∧ bit (fieldAt b 1 1) 2 = false := by simpa [steerMoves] using h
    by_cases hlen : s.time.sel < s.time.engines.length
    · rw [engine_modEngine hlen]
      exact (steered_facts b).2.2.2.2.2 hstill.2 hstill.1
    · simp [modEngine, List.getD_eq_getElem?_getD, List.getElem?_eq_none (Nat.le_of_not_lt hlen)]
  · rw [engine_modEngine_ne he]

/-! ## A steering at an engine cycle (13 R451) -/

/-- Without a selection due, a steering is laid over its engine, and R452 is applied where the selected time has moved. -/
theorem applySelections_none (hdue : s.time.due = []) :
    applySelections before moved s = { s with time := if moved then retime before s.time else s.time } := by
  have hlist : cmdsOf s s.time.due = [] := by rw [hdue]; rfl
  have hall : selectAll before moved [] s.time = if moved then retime before s.time else s.time := by
    have hsame : ({ s.time with due := [] } : TimeSt) = s.time := by rw [← hdue]
    simp [selectAll, hsame]
  have hsel : (if moved then retime before s.time else s.time).sel = s.time.sel := by cases moved <;> rfl
  simp only [applySelections, hlist, hall, hsel, List.foldl_nil, List.isEmpty_nil, if_true, ne_eq, not_true_eq_false, if_false]

/-- The time state after a steering. -/
theorem applySteer_facts (hlead : isLeader s = true) (hdue : s.time.due = []) :
    ∃ t, applySteer e c s = complete c (okReply ((t.time.engines.getD e {}).time / 2 ^ 32 % 2 ^ 64) 0) t ∧
      t = { s with time := t.time, ints := t.ints, out := t.out } ∧
      (∀ k, t.time.engines.getD k {} = (modEngine e (steered c.region) s).time.engines.getD k {}) ∧
      TimeKept s.time.windowNs s.time t.time := by
  set v := modEngine e (steered c.region) s with hv
  set moved := steerMoves c.region && e == s.time.sel with hmoved
  set w : State := { v with time := if moved then retime s.time v.time else v.time } with hw
  have hsel : applySelections s.time moved v = w := applySelections_none hdue
  have hengines (k : Nat) : w.time.engines.getD k {} = v.time.engines.getD k {} := by
    show (if moved then retime s.time v.time else v.time).engines.getD k {} = _
    cases moved <;> rfl
  have hraise := raise_eq (544 + 8 * e + 3) w
  obtain ⟨hstalls, htth⟩ := raise_leader (n := 544 + 8 * e + 3) (s := w) hlead
  have htime : (raise (544 + 8 * e + 3) w).time = w.time := by rw [hraise]
  refine ⟨raise (544 + 8 * e + 3) w, ?_, ?_, fun k => ?_, ?_⟩
  · unfold applySteer
    dsimp only
    rw [← hv, hsel, htime, hengines]
  · rw [hraise, hstalls, htth]
    rfl
  · rw [htime]
    exact hengines k
  · rw [htime]
    show TimeKept s.time.windowNs s.time (if moved then retime s.time v.time else v.time)
    cases hm : moved with
    | true => exact timeKept_retime
    | false =>
      have hstill := steered_keeps (s := s) hm
      have hf : fUnits v.time = fUnits s.time := congrArg (fun m : Nat => (m : Int) + s.time.phi) hstill
      have hs : sUnits v.time = sUnits s.time := congrArg (fun m : Nat => (m : Int) + s.time.delta) hstill
      exact ⟨hf, .inl hs⟩

/-! ## A selection at an engine cycle (13 R452, R660) -/

theorem selectValues_facts (b : List Byte) (x : TimeSt) : let y := selectValues b x
    y.engines = x.engines ∧ y.due = x.due ∧ y.slewPpb = fieldAt b 4 4 ∧ y.windowNs = fieldAt b 8 4 ∧ y.delta = x.delta ∧
      y.phi = x.phi ∧ y.sel = (if bit (fieldAt b 1 1) 0 then x.sel else fieldAt b 0 1) ∧
      y.auto = (if bit (fieldAt b 1 1) 0 then x.auto else bit (fieldAt b 1 1) 1) := by
  unfold selectValues
  dsimp only
  split <;> simp_all

/-- One selection that is due: its values, S and F, and Δ after step 1. -/
theorem selectAll_facts (x : TimeSt) (c : Cmd) : let y := selectAll x false [c] x
    y.engines = x.engines ∧ y.due = [] ∧ y.slewPpb = fieldAt c.region 4 4 ∧ y.windowNs = fieldAt c.region 8 4 ∧
      y.sel = (if bit (fieldAt c.region 1 1) 0 then x.sel else fieldAt c.region 0 1) ∧
      y.auto = (if bit (fieldAt c.region 1 1) 0 then x.auto else bit (fieldAt c.region 1 1) 1) ∧
      TimeKept (fieldAt c.region 8 4) x y ∧
      stepOneDelta x y (y.sel != x.sel) = sUnits x - ((x.engines.getD y.sel {}).time : Int) := by
  obtain ⟨hengines, hdue, hslew, hwindow, hdelta, hphi, hsel, hauto⟩ := selectValues_facts c.region { x with due := [] }
  set z := selectValues c.region { x with due := [] } with hz
  have hy : selectAll x false [c] x = if z.sel != x.sel then retime x z else z := rfl
  dsimp only
  rw [hy]
  cases hchange : z.sel != x.sel with
  | true =>
    have hkept : TimeKept z.windowNs x (retime x z) := timeKept_retime
    rw [hwindow] at hkept
    refine ⟨hengines, hdue, hslew, hwindow, hsel, hauto, hkept, ?_⟩
    have hsel' : (retime x z).sel = z.sel := rfl
    have hengines' : (retime x z).engines = x.engines := hengines
    simp only [if_true, stepOneDelta, hsel', hchange, hengines']
  | false =>
    have hsame : z.sel = x.sel := by simpa using hchange
    have hs : sUnits z = sUnits x := by rw [sUnits, sUnits, hengines, hdelta, hsame]
    have hf : fUnits z = fUnits x := by rw [fUnits, fUnits, hengines, hphi, hsame]
    refine ⟨hengines, hdue, hslew, hwindow, hsel, hauto, ⟨hf, .inl hs⟩, ?_⟩
    simp only [Bool.false_eq_true, if_false, stepOneDelta, hchange]
    rw [hdelta, hsame, sUnits]
    simp

/-- The state after one selection that is due, and the answer. -/
theorem applySelections_one (hlead : isLeader s = true) (hdue : s.time.due = [⟨c.fn, c.seq⟩])
    (hfind : findCmd s ⟨c.fn, c.seq⟩ = some c) :
    ∃ t left, applySelections s.time false s = complete c (okReply (unsigned 64 ((sUnits s.time -
        ((s.time.engines.getD t.time.sel {}).time : Int)) / 2 ^ 32)) left) t ∧
      t = { s with time := t.time, ints := t.ints, out := t.out, tth := t.tth } ∧ (s.sys.arraySize = 1 → t.tth = s.tth) ∧
      t.time = selectAll s.time false [c] s.time := by
  have hlist : cmdsOf s s.time.due = [c] := by rw [hdue]; simp [cmdsOf, hfind]
  set y := selectAll s.time false [c] s.time with hy
  set v : State := tellMembers (.timeRates y.slewPpb y.windowNs) { s with time := y } with hv
  set w : State := if y.sel ≠ s.time.sel then raise 560 v else v with hw
  have hsent : Transmitted { s with time := y } v := transmitted_tellMembers
  have hleadv : isLeader v = true := by unfold Transmitted at hsent; rw [hsent]; exact hlead
  have hraised : w = { v with ints := w.ints, out := w.out } := by
    rw [hw]
    split
    · obtain ⟨hstalls, htth⟩ := raise_leader (n := 560) (s := v) hleadv
      rw [raise_eq, hstalls, htth]
    · rfl
  have hframe : w = { s with time := w.time, ints := w.ints, out := w.out, tth := w.tth } := by
    unfold Transmitted at hsent
    rw [hraised, hsent]
  have htime : w.time = y := by
    unfold Transmitted at hsent
    rw [hraised, hsent]
  refine ⟨w, slewLeft s.time y (y.sel != s.time.sel), ?_, hframe, fun hone => ?_, htime⟩
  · have hdelta := (selectAll_facts s.time c).2.2.2.2.2.2.2
    simp only [applySelections, hlist, ← hy, Bool.false_or, List.foldl_cons, List.foldl_nil, List.isEmpty_cons,
      Bool.false_eq_true, if_false, ← hv, ← hw]
    rw [htime, ← hdelta]
  · have hquiet : v = { s with time := y } := tellMembers_alone hlead hone
    rw [hraised, hquiet]

end

/-- Settles O33: a steering and a selection wait, a correction is kept, and a read answers. -/
theorem timeCommandsTakeEffect : Obligations.TimeCommandsTakeEffect := by
  intro r s c
  refine ⟨fun hstart hpass => ?_, fun hstart hpass => ?_, fun hstart hpass hport => ?_, fun hstart hpass => ?_⟩
  · exact congrArg Host.Outcome.next (runCmd_effect hstart hpass)
  · exact congrArg Host.Outcome.next (runCmd_effect hstart hpass)
  · refine ⟨_, congrArg Host.Outcome.next (runCmd_effect hstart hpass), rfl, fun p hp => netPort_modNet_ne hp, ?_, ?_⟩
    · rw [netPort_modNet hport]
    · rw [netPort_modNet hport]
      exact Tbl.find?_set
  · exact ⟨_, congrArg Host.Outcome.next (runCmd_effect hstart hpass), length_timeReadBytes, fieldAt_timeReadBytes⟩

/-- Settles O34: R452 and R453 hold across a steering and a selection; the end of a transition is told once. -/
theorem timelinesKeptAcrossSteeringAndSelection : Obligations.TimelinesKeptAcrossSteeringAndSelection := by
  refine ⟨fun e s r c hon hlead hdue hfind hnone hsafe => ?steer, fun s c hon hlead hdue hfind => ?select,
    fun s hon hslew hdelta hphi => ?done⟩
  case steer =>
    have hlen : e < s.time.engines.length := by
      by_contra hout
      rw [List.getD_eq_default _ _ (by omega)] at hdue
      cases hdue
    obtain ⟨t, happly, hframe, hengines, hf, hs⟩ := applySteer_facts (c := c) (e := e) hlead hnone
    have hexec : exec (.timeSteerApply e) s = .next (applySteer e c s) := by
      simp only [exec, execTimeSteerApply, hdue, hfind, hon, Bool.true_and]
      rw [if_pos (by simpa using hsafe)]
    have hengine : t.time.engines.getD e {} = steered c.region (s.time.engines.getD e {}) :=
      (hengines e).trans (engine_modEngine hlen)
    refine ⟨t, hexec.trans (congrArg _ happly), hframe, fun k hk => (hengines k).trans (engine_modEngine_ne hk), ?_, hf, hs⟩
    rw [hengine]
    exact steered_facts c.region
  case select =>
    obtain ⟨t, left, happly, hframe, hquiet, htime⟩ := applySelections_one hlead hdue hfind
    obtain ⟨hengines, hdue', hslew, hwindow, hsel, hauto, ⟨hf, hs⟩, -⟩ := selectAll_facts s.time c
    have hexec : exec .timeSelectApply s = .next (applySelections s.time false s) := by
      simp only [exec, execTimeSelectApply, hdue, hon, List.isEmpty_cons, Bool.not_true, Bool.or_self, Bool.false_eq_true, if_false]
    rw [← htime] at hengines hdue' hslew hwindow hsel hauto hf hs
    exact ⟨t, _, hexec.trans (congrArg _ happly), hframe, hquiet, hengines, hdue', hslew, hwindow, hsel, hauto, hf, hs, rfl, rfl⟩
  case done =>
    have hexec : exec .timeSlewDone s = .next (raise 561 (sysEvent 0x7104 0x71 s.time.sel
        (s.time.sel + 2 ^ 32 * (s.time.slewUs % 2 ^ 32)) { s with time := { s.time with slewing := false } })) := by
      simp only [exec, execTimeSlewDone, hon, hslew, hdelta, hphi, beq_self_eq_true, Bool.and_self, if_true]
    refine ⟨hexec, fun t ht => ?_⟩
    have hreported : Reported { s with time := { s.time with slewing := false } } t := by
      rw [hexec] at ht
      rw [← Host.Outcome.next.inj ht]
      exact reported_sysEvent.trans reported_raise
    have hstill : t.time.slewing = false := by unfold Reported at hreported; rw [hreported]; rfl
    simp only [exec, execTimeSlewDone, hstill, Bool.and_false, Bool.false_and, Bool.false_eq_true, if_false]

end Sys2Proof.Machine
end

section
/-! The PTP instances of the network ports (13 R444 to R449, R455; 01 R33): what they take, follow and measure, and what they
send. -/
namespace Sys2Proof.Machine

open Sys2Proof

section
variable {e n p i : Nat} {f : Foreign} {g h : Ptp → Ptp} {m : PtpMsg} {x : Ptp} {s t u : State}

/-! ## The clock of a port -/

theorem ptp_modPtp (hp : p < s.net.length) : (netPort (modPtp p g s) p).ptp = g (netPort s p).ptp := by
  rw [modPtp, netPort_modNet hp]

theorem ptp_countAt : (netPort (countAt p i n s) p).ptp = (netPort s p).ptp := by
  by_cases hp : p < s.net.length
  · rw [countAt, netPort_modNet hp]
  · simp [netPort, countAt, modNet, List.getD_eq_getElem?_getD, List.getElem?_eq_none (Nat.le_of_not_lt hp)]

theorem length_countAt : (countAt p i n s).net.length = s.net.length := by simp [countAt, modNet]

/-- Two changes of a port clock, one after the other, are one. -/
theorem modPtp_modPtp : modPtp p g (modPtp p h s) = modPtp p (fun y => g (h y)) s := by
  simp only [modPtp, modNet, List.modify_modify_eq]
  rfl

/-- A change of a port clock is the value that it gives. -/
theorem modPtp_value (hp : p < s.net.length) : modPtp p g s = modPtp p (fun _ => g (netPort s p).ptp) s := by
  have hnet : s.net.modify p (fun n => { n with ptp := g n.ptp }) =
      s.net.modify p (fun n => { n with ptp := g (netPort s p).ptp }) := by
    refine List.ext_getElem? fun k => ?_
    by_cases hk : p = k
    · subst hk
      simp [netPort, List.getD_eq_getElem?_getD, hp]
    · simp [List.getElem?_modify_ne _ _ hk]
  simp only [modPtp, modNet, hnet]

/-- A change of a port clock that has a value already. -/
theorem modPtp_over {y : Ptp} : modPtp p g (modPtp p (fun _ => y) s) = modPtp p (fun _ => g y) s := modPtp_modPtp

/-! ## Masters (13 R444, R446) -/

/-- The port clock after it has followed a master. -/
def followed (f : Foreign) (y : Ptp) : Ptp :=
  if y.master.isSome && y.masterId == f.source then { y with master := some f.data }
  else { y with state := 8, master := some f.data, masterId := f.source, t1 := none, t2 := none, t3 := none, t4 := none }

theorem follow_modPtp {y : Ptp} (hp : p < s.net.length) : follow p e f (modPtp p (fun _ => y) s) =
    if y.master.isSome && y.masterId == f.source && y.master.map (·.gmIdentity) == some f.data.gmIdentity then
      modPtp p (fun _ => followed f y) s
    else tellMaster e f.data.gmIdentity (modPtp p (fun _ => followed f y) s) := by
  simp only [follow, ptp_modPtp hp, modPtp_over]
  rfl

/-- The port clock that follows nobody. -/
def unfollowed (master : Bool) (y : Ptp) : Ptp :=
  { y with state := if master then 6 else 4, master := none, t1 := none, t2 := none, t3 := none, t4 := none }

theorem unfollow_modPtp {y : Ptp} {master : Bool} (hp : p < s.net.length) : unfollow p e master (modPtp p (fun _ => y) s) =
    if master && y.master.isSome then tellMaster e (Config.clockIdentity p) (modPtp p (fun _ => unfollowed master y) s)
    else modPtp p (fun _ => unfollowed master y) s := by
  simp only [unfollow, ptp_modPtp hp, modPtp_over]
  rfl

/-- The state decision for the best master heard. -/
theorem takeBest_eq : takeBest p e f s =
    if (decide (ptpRole s p = 2) && better (ownData s p e) (portIdentity p) f.data f.source) = true then unfollow p e true s
    else follow p e f s := by
  simp only [takeBest, Bool.and_eq_true, decide_eq_true_eq]

/-- What a port's clock decides is about the configuration, the clock and the engines. -/
theorem bestForeign_modNet {k : Nat} {q : NetPort → NetPort} : bestForeign (modNet k q s) p x = bestForeign s p x := rfl

/-- The best master is one of those heard. -/
theorem bestForeign_mem (h : bestForeign s p x = some f) : f ∈ x.foreign := by
  have hfold : ∀ (l : List Foreign) (o : Option Foreign), (∀ g, o = some g → g ∈ x.foreign) → (∀ g ∈ l, g ∈ x.foreign) →
      ∀ g, l.foldl (fun m f => match m with
        | none => some f
        | some g => if better f.data f.source g.data g.source then some f else some g) o = some g → g ∈ x.foreign := by
    intro l
    induction l with
    | nil => exact fun o ho _ g hg => ho g hg
    | cons a l ih =>
      refine fun o ho hl => ih _ (fun g hg => ?_) (fun g hg => hl g (List.mem_cons_of_mem _ hg))
      have ha := hl a List.mem_cons_self
      cases o with
      | none => exact Option.some.inj hg ▸ ha
      | some b =>
        dsimp only at hg
        split at hg
        · exact Option.some.inj hg ▸ ha
        · exact ho g hg
  exact hfold _ none (fun _ hg => nomatch hg) (fun g hg => (List.mem_filter.mp hg).1) f h

/-! ## The exchange (13 R445) -/

/-- The state that a completed exchange leaves, from the state before its last time. -/
def measured (p e : Nat) (t1 t2 t3 t4 : Int) (s : State) : State :=
  let d := ((t2 - t3) + (t4 - t1)) / 2
  raise (544 + 8 * e) (unitEvent 0x7101 0x71 e none (unsigned 64 (t2 - t1 - d))
    (modPtp p (fun y => { y with state := 9, pathDelay := d, t1 := none, t2 := none, t3 := none, t4 := none }) s))

/-- The last time of an exchange completes it. -/
theorem endExchange_modPtp {t1 t2 t3 t4 : Int} (hp : p < s.net.length) (h1 : (g (netPort s p).ptp).t1 = some t1)
    (h2 : (g (netPort s p).ptp).t2 = some t2) (h3 : (g (netPort s p).ptp).t3 = some t3)
    (h4 : (g (netPort s p).ptp).t4 = some t4)
    (hg : ∀ (d : Int) y, { g y with state := 9, pathDelay := d, t1 := none, t2 := none, t3 := none, t4 := none } =
      { y with state := 9, pathDelay := d, t1 := none, t2 := none, t3 := none, t4 := none }) :
    endExchange p e (modPtp p g s) = measured p e t1 t2 t3 t4 s := by
  simp only [endExchange, ptp_modPtp hp, h1, h2, h3, h4, measure, modPtp_modPtp, hg, measured]

theorem endExchange_open (h : (netPort s p).ptp.t1 = none) : endExchange p e s = s := by
  simp [endExchange, h]

/-! ## A message taken (13 R444 to R447) -/

theorem exec_ptpMessage (heng : ptpEngine s p = some e) (hlive : ptpLive s p = true) :
    exec (.ptpMessage p m) s = .next (onPtp p e m (countAt p 0 1 s)) := by
  simp only [exec, execPtpMessage, heng, hlive, if_true]

/-- A message of another domain is counted. -/
theorem onPtp_domain (h : m.domain ≠ fieldAt ((activeBlk s 0x7001 p 0).getD []) 4 1) : onPtp p e m s = countAt p 6 1 s := if_pos h

section
variable (hdom : m.domain = fieldAt ((activeBlk s 0x7001 p 0).getD []) 4 1)
include hdom

theorem onPtp_announce (hkind : m.kind = .announce) : onPtp p e m s = onAnnounce p e m s := by
  unfold onPtp
  dsimp only
  rw [if_neg (not_not_intro hdom), hkind]

theorem onPtp_delayReq (hkind : m.kind = .delayReq) (hmaster : ptpState s p = 6) : onPtp p e m s = answerDelayReq p e m s := by
  unfold onPtp
  dsimp only
  rw [if_neg (not_not_intro hdom), hkind]
  exact if_pos hmaster

/-- A message of the master that the port clock follows. -/
theorem onPtp_master (hmaster : (netPort s p).ptp.master.isSome = true) (hstate : ptpState s p = 8 ∨ ptpState s p = 9)
    (hsource : m.source = (netPort s p).ptp.masterId) :
    (m.kind = .delayResp → onPtp p e m s = onDelayResp p e m s) ∧ (m.kind = .followUp → onPtp p e m s = onFollowUp p e m s) := by
  have hfrom : ((netPort s p).ptp.master.isSome && (ptpState s p == 8 || ptpState s p == 9) &&
      m.source == (netPort s p).ptp.masterId) = true := by
    simpa [hmaster, hsource] using hstate
  constructor
  all_goals
    intro hkind
    unfold onPtp
    dsimp only
    rw [if_neg (not_not_intro hdom), hkind]
    exact if_pos hfrom

end

/-! ## A message sent (13 R441, R444, R449) -/

theorem length_beBytes {v : Nat} : (beBytes n v).length = n := by simp [beBytes, length_leBytes]

/-- A frame that is as long as an MTU at most fits. -/
theorem frameFits_of_le {mtu : Nat} {l : List Byte} (h : l.length ≤ mtu) : frameFits mtu l = true := by
  simp only [frameFits, decide_eq_true_eq]
  omega

theorem length_vlanTag_le {v : Nat} : (vlanTag v).length ≤ 4 := by
  unfold vlanTag
  split <;> simp [length_beBytes]

theorem length_ptpFrame_le {kind : PtpKind} {seqId flags interval : Nat} {corr : Int} {body : List Byte} :
    (ptpFrame s p kind seqId flags corr interval body).length ≤ 100 + body.length := by
  have htag := length_vlanTag_le (v := fieldAt ((activeBlk s 0x7001 p 0).getD []) 0x12 2)
  simp only [ptpFrame, udpFrame, ipFrame, etherFrame, udpPayload, ipHeader, List.length_append, length_beBytes, length_leBytes,
    List.length_replicate, List.length_cons, List.length_nil]
  omega

/-- The link of a port whose port clock is live is up. -/
theorem linkIsUp_of_ptp (heng : ptpEngine s p = some e) (hlive : ptpLive s p = true) : linkIsUp s p 0 = true := by
  have hup : (netPort s p).up.getD 0 false = true := by
    simp only [ptpLive, Bool.and_eq_true] at hlive
    exact hlive.2
  have hmode : portMode s.cfg.active p ≠ 0xFF := by
    unfold ptpEngine at heng
    split at heng
    next b hb =>
      split at heng
      · cases heng
      next hoff =>
        have hblk : blkIn s.cfg.active 0x7001 p 0 = some b := hb
        rw [portMode, hblk]
        exact fun h => hoff (.inl h)
    next => cases heng
  rw [linkIsUp, hup, Bool.and_true]
  simpa using hmode

/-- A message of a live port clock leaves, and is counted. -/
theorem ptpTx_sends {kind : PtpKind} {seqId flags interval : Nat} {corr : Int} {body : List Byte} (hup : linkIsUp s p 0 = true)
    (hmtu : 1500 ≤ portMtu s.cfg.active p) (hbody : body.length ≤ 1000) :
    ptpTx p kind seqId flags corr interval body s =
      countAt p 1 1 (emit (.net p 0 (ptpFrame s p kind seqId flags corr interval body)) s) := by
  have hfit : frameFits (portMtu s.cfg.active p) (ptpFrame s p kind seqId flags corr interval body) = true :=
    frameFits_of_le (by have := length_ptpFrame_le (s := s) (p := p) (kind := kind) (seqId := seqId) (flags := flags)
                          (interval := interval) (corr := corr) (body := body)
                        omega)
  simp [ptpTx, netTx, hup, hfit]

theorem length_stampTimestamp {v : Int} : (stampTimestamp v).length = 10 := by simp [stampTimestamp, ptpTime, length_beBytes]

/-! ## A master that is lost (13 R446, R455) -/

/-- From `s` to `t` one network port alone may have changed, beside what the device has reported. -/
structure NetReported (p : Nat) (s t : State) : Prop where
  frame : t = { reported s t with net := t.net }
  other : ∀ q, q ≠ p → netPort t q = netPort s q

theorem NetReported.trans (h : NetReported p s t) (h' : NetReported p t u) : NetReported p s u where
  frame := by
    rw [h'.frame, h.frame]
    rfl
  other q hq := (h'.other q hq).trans (h.other q hq)

theorem Reported.netReported (h : Reported s t) : NetReported p s t := by
  unfold Reported at h
  rw [h]
  exact ⟨rfl, fun _ _ => rfl⟩

theorem netReported_modPtp : NetReported p s (modPtp p g s) := ⟨rfl, fun _ hq => netPort_modNet_ne hq⟩

theorem reported_tellMaster {gm : Nat} : Reported s (tellMaster e gm s) := reported_tell

theorem netReported_follow : NetReported p s (follow p e f s) := by
  unfold follow
  dsimp only
  split
  · exact netReported_modPtp
  · exact netReported_modPtp.trans reported_tellMaster.netReported

theorem netReported_unfollow {master : Bool} : NetReported p s (unfollow p e master s) := by
  unfold unfollow
  dsimp only
  split
  · exact netReported_modPtp.trans reported_tellMaster.netReported
  · exact netReported_modPtp

theorem netReported_loseMaster : NetReported p s (loseMaster p e s) := by
  unfold loseMaster
  dsimp only
  split
  · rw [takeBest_eq]
    split
    · exact netReported_modPtp.trans netReported_unfollow
    · exact netReported_modPtp.trans netReported_follow
  · exact netReported_modPtp.trans netReported_unfollow

/-- Of an engine that is not selected nothing is selected in its place. -/
theorem autoSelect_other (h : e ≠ s.time.sel) : autoSelect e s = s := if_neg (by simp [h])

/-- The port clock without what it heard of the master that it followed. -/
def withoutMaster (x : Ptp) : Ptp := { x with foreign := x.foreign.filter (·.source != x.masterId) }

/-- A port clock without its master decides from the masters heard. -/
theorem loseMaster_eq : loseMaster p e s = match bestForeign s p (netPort (modPtp p withoutMaster s) p).ptp with
    | some f => takeBest p e f (modPtp p withoutMaster s)
    | none => unfollow p e (ptpRole s p == 2) (modPtp p withoutMaster s) := rfl

theorem loseMaster_some (hp : p < s.net.length) (hbest : bestForeign s p (withoutMaster (netPort s p).ptp) = some f) :
    loseMaster p e s = takeBest p e f (modPtp p (fun _ => withoutMaster (netPort s p).ptp) s) := by
  rw [loseMaster_eq, ptp_modPtp hp, hbest, modPtp_value hp]

theorem loseMaster_none (hp : p < s.net.length) (hbest : bestForeign s p (withoutMaster (netPort s p).ptp) = none) :
    loseMaster p e s = unfollow p e (ptpRole s p == 2) (modPtp p (fun _ => withoutMaster (netPort s p).ptp) s) := by
  rw [loseMaster_eq, ptp_modPtp hp, hbest, modPtp_value hp]

end

end Sys2Proof.Machine
end

section
/-! The messages of PTP instances, taken and sent (13 R444 to R449, R455). -/
namespace Sys2Proof.Machine

open Sys2Proof

section
variable {e p q : Nat} {f : Foreign} {m : PtpMsg} {x : Ptp} {s t u : State}

/-- Counting a frame leaves what the port clock decides by. -/
theorem ptpState_modNet {k : Nat} {g : NetPort → NetPort} (h : (netPort (modNet k g s) p).ptp = (netPort s p).ptp) :
    ptpState (modNet k g s) p = ptpState s p := by
  unfold ptpState
  rw [h]
  rfl

theorem ptpState_countAt {i n : Nat} : ptpState (countAt p i n s) p = ptpState s p := ptpState_modNet ptp_countAt

theorem netPort_countAt {i n : Nat} : ∃ l, netPort (countAt p i n s) p = { netPort s p with counters := l } := by
  by_cases hp : p < s.net.length
  · exact ⟨_, by rw [countAt, netPort_modNet hp]⟩
  · refine ⟨(netPort s p).counters, ?_⟩
    simp [netPort, countAt, modNet, List.getD_eq_getElem?_getD, List.getElem?_eq_none (Nat.le_of_not_lt hp)]

theorem corrOf_countAt {i n : Nat} : corrOf (countAt p i n s) p = corrOf s p := by
  obtain ⟨l, h⟩ := netPort_countAt (p := p) (i := i) (n := n) (s := s)
  unfold corrOf
  rw [h]
  rfl

theorem linkIsUp_countAt {i n k : Nat} : linkIsUp (countAt p i n s) p k = linkIsUp s p k := by
  obtain ⟨l, h⟩ := netPort_countAt (p := p) (i := i) (n := n) (s := s)
  unfold linkIsUp
  rw [h]
  rfl

/-- Whether the own clock of a port beats a master, and its role lets it be one. -/
def beatsMaster (s : State) (p e : Nat) (f : Foreign) : Bool :=
  decide (ptpRole s p = 2) && better (ownData s p e) (portIdentity p) f.data f.source

/-- What has been reported leaves what the port clock decides by. -/
theorem Reported.ptp (h : Reported s t) : netPort t p = netPort s p ∧ (∀ x, bestForeign t p x = bestForeign s p x) ∧
    (∀ f, beatsMaster t p e f = beatsMaster s p e f) ∧ ptpRole t p = ptpRole s p ∧ t.net.length = s.net.length ∧
    t.time = s.time := by
  unfold Reported at h
  rw [h]
  exact ⟨rfl, fun _ => rfl, fun _ => rfl, rfl, rfl, rfl⟩

/-- The port clock with an Announce noted. -/
def heardOf (m : PtpMsg) (s : State) (x : Ptp) : Ptp := { x with foreign := noteForeign m s.tick x.foreign }

/-- An Announce that qualifies is noted, and the state decision follows. -/
theorem onAnnounce_eq (hp : p < s.net.length) (hrole : ptpRole s p ≠ 1) (hsteps : m.announce.stepsRemoved < 255)
    (hown : m.source / 65536 ≠ Config.clockIdentity p) :
    let heard := heardOf m s (netPort s p).ptp
    (bestForeign s p heard = none → onAnnounce p e m s = modPtp p (fun _ => heard) s) ∧
    ∀ f, bestForeign s p heard = some f → onAnnounce p e m s = takeBest p e f (modPtp p (fun _ => heard) s) := by
  intro heard
  have hkeep : ¬(ptpRole s p = 1 ∨ 255 ≤ m.announce.stepsRemoved ∨ m.source / 65536 = Config.clockIdentity p) := by
    rintro (h | h | h)
    · exact hrole h
    · omega
    · exact hown h
  have hdecide : onAnnounce p e m s = decidePtp p e (modPtp p (fun _ => heard) s) := by
    unfold onAnnounce
    rw [if_neg hkeep, modPtp_value hp]
    rfl
  have hheard : (netPort (modPtp p (fun _ => heard) s) p).ptp = heard := ptp_modPtp hp
  rw [hdecide, decidePtp, hheard]
  simp only [modPtp, bestForeign_modNet]
  exact ⟨fun h => by rw [h], fun f h => by rw [h]⟩

/-- A Delay_Req is answered with its ingress time. -/
theorem answerDelayReq_facts (hup : linkIsUp s p 0 = true) (hmtu : 1500 ≤ portMtu s.cfg.active p) :
    let t4 := stampOf s p e - (corrOf s p).1
    let t := answerDelayReq p e m s
    t = { s with net := t.net, out := t.out, freeCtr := s.freeCtr + 1 } ∧
      t.out = s.out ++ [.net p 0 (ptpFrame s p .delayResp m.seqId 0 (m.correction - stampFraction t4)
        (fieldAt ((activeBlk s 0x7001 p 0).getD []) 7 1) (stampTimestamp t4 ++ beBytes 10 m.source))] := by
  dsimp only
  unfold answerDelayReq
  dsimp only
  rw [ptpTx_sends hup hmtu (by simp [length_stampTimestamp, length_beBytes])]
  exact ⟨rfl, rfl⟩

/-- The state decision for a master, over a port clock that has a value. -/
theorem takeBest_follow {y : Ptp} (hp : p < s.net.length) (hbeats : beatsMaster s p e f = false) :
    takeBest p e f (modPtp p (fun _ => y) s) =
      if y.master.isSome && y.masterId == f.source && y.master.map (·.gmIdentity) == some f.data.gmIdentity then
        modPtp p (fun _ => followed f y) s
      else tellMaster e f.data.gmIdentity (modPtp p (fun _ => followed f y) s) := by
  rw [takeBest_eq, if_neg, follow_modPtp hp]
  exact fun h => absurd (h.symm.trans hbeats) (by decide)

theorem takeBest_unfollow {y : Ptp} (hp : p < s.net.length) (hbeats : beatsMaster s p e f = true) :
    takeBest p e f (modPtp p (fun _ => y) s) =
      if y.master.isSome then tellMaster e (Config.clockIdentity p) (modPtp p (fun _ => unfollowed true y) s)
      else modPtp p (fun _ => unfollowed true y) s := by
  rw [takeBest_eq]
  exact (if_pos hbeats).trans ((unfollow_modPtp hp).trans (by rw [Bool.true_and]))

/-- A port clock that has lost its master goes on with the best of the others, of those that its own clock does not beat. -/
theorem loseMaster_follow (hp : p < s.net.length) (hbest : bestForeign s p (withoutMaster (netPort s p).ptp) = some f)
    (hbeats : beatsMaster s p e f = false) : loseMaster p e s = tellMaster e f.data.gmIdentity (modPtp p (fun _ =>
      { withoutMaster (netPort s p).ptp with
        state := 8, master := some f.data, masterId := f.source, t1 := none, t2 := none, t3 := none, t4 := none }) s) := by
  have hother : ((withoutMaster (netPort s p).ptp).masterId == f.source) = false := by
    obtain ⟨-, hsource⟩ := List.mem_filter.mp (bestForeign_mem hbest)
    exact beq_false_of_ne (Ne.symm (bne_iff_ne.mp hsource))
  rw [loseMaster_some hp hbest, takeBest_follow hp hbeats]
  simp only [followed, hother, Bool.and_false, Bool.false_and, Bool.false_eq_true, if_false]

/-- Without one, it is master or listens. -/
theorem loseMaster_unfollow (hp : p < s.net.length) (hmaster : (netPort s p).ptp.master.isSome = true)
    (hbest : ∀ f, bestForeign s p (withoutMaster (netPort s p).ptp) = some f → beatsMaster s p e f = true) :
    loseMaster p e s =
      let v := modPtp p (fun _ => unfollowed (ptpRole s p == 2) (withoutMaster (netPort s p).ptp)) s
      if ptpRole s p = 2 then tellMaster e (Config.clockIdentity p) v else v := by
  have hsome : (withoutMaster (netPort s p).ptp).master.isSome = true := hmaster
  cases h : bestForeign s p (withoutMaster (netPort s p).ptp) with
  | none =>
    rw [loseMaster_none hp h, unfollow_modPtp hp, hsome, Bool.and_true]
    simp only [beq_iff_eq]
  | some f =>
    have hbeats := hbest f h
    have hrole : ptpRole s p = 2 := by
      simp only [beatsMaster, Bool.and_eq_true, decide_eq_true_eq] at hbeats
      exact hbeats.1
    rw [loseMaster_some hp h, takeBest_unfollow hp hbeats, hsome]
    simp only [hrole, beq_self_eq_true, if_true]

/-- With AUTO, the engine of a slave is selected in place of the selected one (13 R455). -/
theorem autoSelect_slave (hsel : e = s.time.sel) (hauto : s.time.auto = true) (hlead : isLeader s = true)
    (heng : enginePort s (1 - e) = some q) (hslave : ptpState s q = 9) (hsafe : safeOf s (myUnit s 0x71 e) = 0) :
    autoSelect e s = raise 562 (raise 560 { s with time := retime s.time { s.time with sel := 1 - e } }) := by
  have hcond : (e == s.time.sel && s.time.auto && (ptpState s q == 9) && isLeader s && safeOf s (myUnit s 0x71 e) == 0) = true := by
    rw [hslave, hlead, hsafe, hauto, ← hsel]
    simp
  unfold autoSelect
  dsimp only
  rw [heng]
  exact if_pos hcond

/-- A timeout of a port clock that follows a master. -/
theorem exec_announceTimeout (heng : ptpEngine s p = some e) (hlive : ptpLive s p = true)
    (hmaster : (netPort s p).ptp.master.isSome = true) : exec (.announceTimeout p) s =
      .next (autoSelect e (loseMaster p e (raise (544 + 8 * e + 1) (unitEvent 0x7102 0x71 e none e s)))) := by
  have hclocked : portClocked s p = true := by
    simp only [ptpLive, Bool.and_eq_true] at hlive
    exact hlive.1
  have hsome : (netPort s p).ptp.master.isNone = false := by
    rw [← Option.not_isSome, hmaster]
    rfl
  simp only [exec, execAnnounceTimeout, heng, hclocked, hsome, Bool.not_true, Bool.false_eq_true, if_false]

end

/-- Settles O35: messages are taken, masters followed and lost, and exchanges completed. -/
theorem ptpMessagesFollowed : Obligations.PtpMessagesFollowed := by
  intro p e m s heng hlive hp b x role counted beats measured
  have hexec : exec (.ptpMessage p m) s = .next (onPtp p e m counted) := exec_ptpMessage heng hlive
  have hx : (netPort counted p).ptp = x := ptp_countAt
  have hlen : p < counted.net.length := by rw [length_countAt]; exact hp
  refine ⟨fun hdom => ?domain, fun hdom hkind hrole hsteps hown => ?announce, fun hdom hmaster hstate hsource => ⟨?resp, ?follow⟩,
    fun hdom hkind hstate hmtu => ?req, fun hrole hnone => ?silent, fun hmaster hother => ?lost,
    fun q hmaster hsel hauto hlead hengq hslave hsafe => ?auto⟩
  case domain => exact hexec.trans (congrArg _ (onPtp_domain hdom))
  case announce =>
    obtain ⟨hnone, hsome⟩ := onAnnounce_eq (e := e) hlen hrole hsteps hown
    rw [hx] at hnone hsome
    have hexec' := hexec.trans (congrArg _ (onPtp_announce (e := e) (s := counted) hdom hkind))
    refine ⟨fun hbest => ?_, fun f hbest hbeats => ?_, fun f hbest hbeats => ?_⟩
    · exact hexec'.trans (congrArg _ (hnone hbest))
    · exact hexec'.trans (congrArg _ ((hsome f hbest).trans (takeBest_follow hlen hbeats)))
    · exact hexec'.trans (congrArg _ ((hsome f hbest).trans (takeBest_unfollow hlen hbeats)))
  case resp =>
    intro hkind hseq t4
    have hresp := (onPtp_master (e := e) (s := counted) hdom (by rw [hx]; exact hmaster)
      (by rw [ptpState_countAt]; exact hstate) (by rw [hx]; exact hsource)).1 hkind
    rw [hexec, hresp, onDelayResp, hx]
    refine ⟨fun hwho => ?_, fun hwho t2 t3 h2 h3 => ⟨fun t1 h1 => ?_, fun h1 => ?_⟩⟩
    · rw [if_neg (by simp [hwho])]
    · rw [if_pos (by simp [hseq, hwho, h3])]
      exact congrArg _ (endExchange_modPtp hlen (by rw [hx]; exact h1) (by rw [hx]; exact h2) (by rw [hx]; exact h3) rfl
        fun _ _ => rfl)
    · rw [if_pos (by simp [hseq, hwho, h3])]
      exact congrArg _ (endExchange_open (by rw [ptp_modPtp hlen, hx]; exact h1))
  case follow =>
    intro t2 t3 t4 hkind hseq h1 h2 h3 h4
    have hfollow := (onPtp_master (e := e) (s := counted) hdom (by rw [hx]; exact hmaster)
      (by rw [ptpState_countAt]; exact hstate) (by rw [hx]; exact hsource)).2 hkind
    rw [hexec, hfollow, onFollowUp, hx, if_pos (by simp [hseq, h1, h2])]
    exact congrArg _ (endExchange_modPtp hlen (by rw [hx]) (by rw [hx]; exact h2) (by rw [hx]; exact h3)
      (by rw [hx]; exact h4) fun _ _ => rfl)
  case req =>
    have hreq := onPtp_delayReq (e := e) (s := counted) hdom hkind (by rw [ptpState_countAt]; exact hstate)
    obtain ⟨hframe, hout⟩ := answerDelayReq_facts (e := e) (m := m) (s := counted) (linkIsUp_countAt.trans (linkIsUp_of_ptp heng hlive)) hmtu
    rw [corrOf_countAt] at hout
    exact ⟨_, hexec.trans (congrArg _ hreq), hframe, hout⟩
  case silent =>
    have hclocked : portClocked s p = true := by
      simp only [ptpLive, Bool.and_eq_true] at hlive
      exact hlive.1
    have hquiet : (netPort s p).ptp.master.isNone = true := by rw [Option.isNone_iff_eq_none]; exact hnone
    refine ⟨modPtp p (fun y => { y with state := if ptpRole s p = 2 then 6 else y.state }) s, ?_, ?_, rfl⟩
    · simp only [exec, execAnnounceTimeout, heng, hclocked, hquiet, Bool.not_true, Bool.false_eq_true, if_false, if_true]
    · rw [ptp_modPtp hp]
      have hrole' : ptpRole s p = 2 := hrole
      simp only [hrole', if_true]
      rfl
  case lost =>
    intro rest told best
    have htold : Reported s told := reported_unitEvent.trans reported_raise
    obtain ⟨hport, hbest, hbeats, hrole, hlen', htime⟩ := htold.ptp (p := p) (e := e)
    have hlost : NetReported p told (loseMaster p e told) := netReported_loseMaster
    have hexec' : exec (.announceTimeout p) s = .next (loseMaster p e told) := by
      refine (exec_announceTimeout heng hlive hmaster).trans (congrArg _ (autoSelect_other ?_))
      show e ≠ (loseMaster p e told).time.sel
      rw [hlost.frame]
      show e ≠ told.time.sel
      rw [htime]
      exact hother
    have hrest : withoutMaster (netPort told p).ptp = rest := by rw [hport]; rfl
    refine ⟨fun f hf => ?_, fun hnone => ?_⟩
    · obtain ⟨hfound, hfit⟩ := Option.filter_eq_some_iff.mp hf
      have hlose := loseMaster_follow (e := e) (s := told) (p := p) (f := f) (by rw [hlen']; exact hp)
        (by rw [hrest, hbest]; exact hfound) (by
          have hbeat : beats f = false := by simpa using hfit
          rw [hbeats]
          exact hbeat)
      rw [hrest] at hlose
      exact hexec'.trans (congrArg _ hlose)
    · have hlose := loseMaster_unfollow (e := e) (s := told) (p := p) (by rw [hlen']; exact hp) (by rw [hport]; exact hmaster)
        fun f hf => ?_
      · rw [hrest, hrole] at hlose
        refine hexec'.trans (congrArg _ (hlose.trans ?_))
        have hrole' : ptpRole s p = role := rfl
        rw [hrole']
        by_cases htwo : role = 2
        · simp only [htwo, beq_self_eq_true, if_true]
          rfl
        · simp only [htwo, if_false, beq_false_of_ne htwo]
          rfl
      · rw [hrest, hbest] at hf
        rw [hbeats]
        by_contra hkeep
        have hkeep' : beats f = false := Bool.eq_false_of_not_eq_true hkeep
        have hsome : best = some f := Option.filter_eq_some_iff.mpr ⟨hf, by simpa using hkeep'⟩
        rw [hnone] at hsome
        cases hsome
  case auto =>
    set told := raise (544 + 8 * e + 1) (unitEvent 0x7102 0x71 e none e s) with htold
    set v := loseMaster p e told with hv
    have hreported : NetReported p s v :=
      (reported_unitEvent.trans reported_raise : Reported s told).netReported.trans netReported_loseMaster
    have hexec' : exec (.announceTimeout p) s = .next (autoSelect e v) := exec_announceTimeout heng hlive hmaster
    have htime : v.time = s.time := by rw [hreported.frame]; rfl
    have hqp : q ≠ p := by
      rintro rfl
      have hq : ptpEngine s q = some (1 - e) := by simpa using List.find?_some hengq
      have := Option.some.inj (heng.symm.trans hq)
      omega
    have hslavev : ptpState v q = 9 := by
      rw [← hslave, ptpState, ptpState, hreported.other q hqp, hreported.frame]
      rfl
    have hengv : enginePort v (1 - e) = some q := by rw [hreported.frame]; exact hengq
    have hleadv : isLeader v = true := by rw [hreported.frame]; exact hlead
    have hsafev : safeOf v (myUnit v 0x71 e) = 0 := by rw [hreported.frame]; exact hsafe
    have hauto' := autoSelect_slave (s := v) (by rw [htime]; exact hsel) (by rw [htime]; exact hauto) hleadv hengv hslavev hsafev
    have htold' : Reported { v with time := retime v.time { v.time with sel := 1 - e } } (autoSelect e v) := by
      rw [hauto']
      exact reported_raise.trans reported_raise
    have htime' : (autoSelect e v).time = retime s.time { s.time with sel := 1 - e } := by
      unfold Reported at htold'
      rw [htold', htime]
      rfl
    refine ⟨_, hexec', ?_, ?_, ?_, ?_⟩
    · unfold Reported at htold'
      rw [htold', hreported.frame]
      rfl
    · rw [htime']
      rfl
    · rw [htime', fUnits_retime]
    · rw [htime']
      rfl

end Sys2Proof.Machine
end

section
/-! The messages that a PTP port clock sends (13 R444, R445, R447, R449). -/
namespace Sys2Proof.Machine

open Sys2Proof

section
variable {e p : Nat} {kind : PtpKind} {seqId flags interval : Nat} {corr : Int} {body : List Byte} {g : Ptp → Ptp} {s : State}

theorem length_ptpTime {v : Nat} : (ptpTime v).length = 10 := by simp [ptpTime, length_beBytes]

theorem length_announceBody {a : AnnounceData} : (announceBody a).length = 30 := by
  simp [announceBody, length_ptpTime, length_beBytes]

/-- A message that leaves, and what the port clock notes of it. -/
theorem ptpTx_noted (hp : p < s.net.length) (hup : linkIsUp s p 0 = true) (hmtu : 1500 ≤ portMtu s.cfg.active p)
    (hbody : body.length ≤ 1000) : let t := modPtp p g (ptpTx p kind seqId flags corr interval body s)
    t.out = s.out ++ [.net p 0 (ptpFrame s p kind seqId flags corr interval body)] ∧ (netPort t p).ptp = g (netPort s p).ptp ∧
      t = { s with net := t.net, out := t.out } := by
  dsimp only
  rw [ptpTx_sends hup hmtu hbody]
  refine ⟨rfl, ?_, rfl⟩
  rw [ptp_modPtp (by rw [length_countAt]; exact hp), ptp_countAt]
  rfl

theorem exec_ptpSend (heng : ptpEngine s p = some e) (hlive : ptpLive s p = true) :
    (ptpState s p = 6 → exec (.ptpMessageSend p .sync) s = .next (sendSync p e s) ∧
      exec (.ptpMessageSend p .followUp) s = .next (sendFollowUp p s) ∧
      exec (.ptpMessageSend p .announce) s = .next (sendAnnounce p e s)) ∧
    exec (.ptpMessageSend p .delayReq) s = .next (sendDelayReq p e s) ∧
    exec (.delayReqSend p) s = .next (sendDelayReq p e s) := by
  simp +contextual [exec, execPtpMessageSend, execDelayReqSend, heng, hlive]

end

/-- Settles O36: each message leaves in its frame, and the port clock notes its number and its stamp. -/
theorem ptpMessagesSent : Obligations.PtpMessagesSent := by
  intro p e s heng hlive hp hmtu b x egress two
  have hup := linkIsUp_of_ptp heng hlive
  obtain ⟨hmaster, hreq, hreq'⟩ := exec_ptpSend heng hlive
  refine ⟨fun hstate => ?master, fun i hi hstate hsome ht2 => ?slave⟩
  case master =>
    obtain ⟨hsync, hfollow, hannounce⟩ := hmaster hstate
    refine ⟨?sync, fun n stamp hsent => ?followUp, fun hsent => ?none, ?announce⟩
    case sync =>
      refine ⟨_, hsync, ?_⟩
      have htwo : twoStep s p = two := rfl
      unfold sendSync
      rw [htwo]
      cases two with
      | true =>
        obtain ⟨hout, hptp, hframe⟩ := ptpTx_noted (p := p) (s := s) (kind := .sync) (seqId := x.txSeq) (flags := 0x0200) (corr := 0)
          (interval := portByte s p 5) (body := ptpTime 0)
          (g := fun y => { y with txSeq := (y.txSeq + 1) % 65536, sent := some (y.txSeq, egress) }) hp hup hmtu
          (by simp [length_ptpTime])
        exact ⟨hout, hptp, congrArg bump hframe⟩
      | false =>
        obtain ⟨hout, hptp, hframe⟩ := ptpTx_noted (p := p) (s := s) (kind := .sync) (seqId := x.txSeq) (flags := 0)
          (corr := stampFraction egress) (interval := portByte s p 5) (body := stampTimestamp egress)
          (g := fun y => { y with txSeq := (y.txSeq + 1) % 65536, sent := none }) hp hup hmtu (by simp [length_stampTimestamp])
        exact ⟨hout, hptp, congrArg bump hframe⟩
    case followUp =>
      refine ⟨_, hfollow, ?_⟩
      have hsent' : (netPort s p).ptp.sent = some (n, stamp) := hsent
      unfold sendFollowUp
      rw [hsent']
      exact ptpTx_noted hp hup hmtu (by simp [length_stampTimestamp])
    case none =>
      have hsent' : (netPort s p).ptp.sent = none := hsent
      rw [hfollow, sendFollowUp, hsent']
    case announce =>
      exact ⟨_, hannounce, ptpTx_noted hp hup hmtu (by simp [length_announceBody])⟩
  case slave =>
    have hexec : exec i s = .next (sendDelayReq p e s) := by
      rcases hi with rfl | rfl
      · exact hreq'
      · exact hreq
    have hmay : (netPort s p).ptp.master.isSome ∧ (ptpState s p = 8 ∨ ptpState s p = 9) ∧ (netPort s p).ptp.t2.isSome :=
      ⟨hsome, hstate, ht2⟩
    obtain ⟨hout, hptp, hframe⟩ := ptpTx_noted (p := p) (s := s) (kind := .delayReq) (seqId := x.nextReq) (flags := 0)
      (corr := stampFraction egress) (interval := 0x7F) (body := stampTimestamp egress)
      (g := fun y => { y with
        t3 := some (egress - stampFraction egress), t4 := none, reqSeq := y.nextReq, nextReq := (y.nextReq + 1) % 65536 })
      hp hup hmtu (by simp [length_stampTimestamp])
    refine ⟨_, hexec, ?_⟩
    unfold sendDelayReq
    rw [if_pos hmay]
    exact ⟨hout, hptp, congrArg bump hframe⟩

end Sys2Proof.Machine
end

section
/-! The statements about the queue, the clock and the reset state. -/

namespace Sys2Proof.Machine

open Sys2Proof

section

variable {s t u : State}

/-! ## What waits for a member -/

/-- From `s` to `t` commands were numbered and sent on to members: only the accepted commands, the configuration, what leaves and
the tether move. -/
def SentOn (s t : State) : Prop := t = { s with cmds := t.cmds, cfg := t.cfg, out := t.out, tth := t.tth }

theorem SentOn.refl (s : State) : SentOn s s := rfl

theorem SentOn.trans (h : SentOn s t) (h' : SentOn t u) : SentOn s u := by
  unfold SentOn at *
  rw [h', h]

theorem Transmitted.sentOn (h : Transmitted s t) : SentOn s t := by
  unfold Transmitted SentOn at *
  rw [h]

theorem sentOn_renumberCommit {r : CmdRef} {n : Nat} : SentOn s (renumberCommit r n s) :=
  .trans (t := { s with cmds := _, cfg := _ }) rfl transmitted_tthBroadcast.sentOn

theorem sentOn_giveNumber {after : CmdRef × Target × Nat → Bool} : SentOn s (giveNumber after s).2 :=
  (foldl_steps SentOn.refl SentOn.trans _ (fun _ _ _ => sentOn_renumberCommit) s).trans rfl

/-- The command marked as sent on. -/
def sentMark (c : Cmd) (n : Option Word) (t : State) : State :=
  { t with cmds := t.cmds.map fun x => if x.same c then { x with sent := true, number := n } else x }

theorem sentOn_relayOut {c : Cmd} : SentOn s (relayOut c s) := by
  unfold relayOut
  split
  next n t hpair =>
    have hnumber : SentOn s t := by
      split at hpair
      · obtain ⟨-, rfl⟩ := Prod.mk.inj hpair
        exact sentOn_giveNumber
      · obtain ⟨-, rfl⟩ := Prod.mk.inj hpair
        exact .refl s
    exact hnumber.trans (.trans (t := sentMark c n t) rfl (Transmitted.sentOn (tthSend_eq ..)))

theorem sentOn_relayDue : SentOn s (relayDue s) :=
  foldl_steps SentOn.refl SentOn.trans _ (fun t c _ => by
    split
    · exact sentOn_relayOut
    · exact .refl t) s

theorem relayDue_eq_self (h : ∀ c ∈ s.cmds, c.relayed = true → c.sent = true) : relayDue s = s := by
  have none_waits : (s.cmds.filter fun c => c.relayed && !c.sent) = [] :=
    List.filter_eq_nil_iff.mpr fun c hc => by
      cases hr : c.relayed with
      | false => simp
      | true => simp [h c hc hr]
  rw [relayDue, none_waits]
  rfl

/-! ## A cycle of the clock -/

/-- A cycle without what the Groom sends on. -/
def ticked (s : State) : State :=
  { s with tick := s.tick + 1, time := if enginesRun s then timeCycle s.time else s.time }

theorem clockTick_eq : clockTick s = if isLeader s && groomOn s then relayDue (ticked s) else ticked s := rfl

theorem sentOn_clockTick : SentOn (ticked s) (clockTick s) := by
  rw [clockTick_eq]
  split
  · exact sentOn_relayDue
  · exact .refl _

theorem clockTick_clock : (clockTick s).tick = s.tick + 1 ∧
    (clockTick s).time = if enginesRun s then timeCycle s.time else s.time := by
  have h : SentOn (ticked s) (clockTick s) := sentOn_clockTick
  unfold SentOn at h
  rw [h]
  exact ⟨rfl, rfl⟩

theorem clockTick_eq_ticked (h : ∀ c ∈ s.cmds, c.relayed = true → c.sent = true) : clockTick s = ticked s := by
  rw [clockTick_eq, relayDue_eq_self (s := ticked s) h, ite_self]

theorem ticked_frame : ticked s = { s with
    tick := (ticked s).tick
    time := { s.time with engines := (ticked s).time.engines, delta := (ticked s).time.delta, phi := (ticked s).time.phi } } := by
  unfold ticked
  split <;> rfl

theorem engine_timeCycle {x : TimeSt} {k : Nat} {e : Engine} (h : x.engines[k]? = some e) :
    (timeCycle x).engines[k]? = some { e with time := (e.time + e.incr) % (2 ^ 48 * (1000000000 * 2 ^ 32)) } := by
  show (x.engines.map engineCycle)[k]? = _
  rw [List.getElem?_map, h]
  rfl

theorem idleStep_eq_clockTick (h : s.sys.entryDue = false ∨ s.thm.stop = 1) : idleStep s = clockTick s := by
  have hended : entryEnded s = s := if_neg fun ⟨hdue, hstop⟩ => h.elim (fun h' => by simp [h'] at hdue) hstop
  rw [idleStep, hended]

theorem fnInt_reset {f : Nat} : fnInt State.reset f = {} :=
  (List.getD_eq_getElem?_getD ..).trans (List.getElem?_getD_replicate_default_eq ..)

theorem stall_of_reset : ∀ f : Fin 16, (stall State.reset f).nextSeq = 1 ∧ (stall State.reset f).cmdTail = 0 ∧
    (stall State.reset f).cplTail = 0 := by
  decide

theorem evtTail_of_reset : ∀ f : Fin 16, 1 ≤ f.val → (stall State.reset f).evtTail = 0 := by decide

end

/-! ## The obligations -/

/-- Settles O1: it is the second equation of `step`. -/
theorem stepRunsFrontCommand : Obligations.StepRunsFrontCommand := fun _ _ _ => rfl

/-- Settles O2: what the Groom sends on leaves the clock, and the clock's cycle is that of each engine. -/
theorem emptyQueueTicksEngines : Obligations.EmptyQueueTicksEngines := by
  intro s hqueue hentry
  have hstep : step s = .next (clockTick s) := by
    rw [step, hqueue]
    exact congrArg Host.Outcome.next (idleStep_eq_clockTick hentry)
  obtain ⟨htick, htime⟩ := clockTick_clock (s := s)
  refine ⟨_, hstep, htick, fun hsent => ?_, fun hstill => ?_, fun hrun k e he => ?_⟩
  · rw [clockTick_eq_ticked hsent]
    exact ticked_frame
  · rw [htime, hstill]
    rfl
  · rw [htime, if_pos hrun]
    exact engine_timeCycle he

/-- Settles O4: HBM is empty, and the sixteen stalls hold no byte of the host. -/
theorem resetIsSound : Obligations.ResetIsSound :=
  ⟨⟨rfl, by decide⟩, by decide, rfl, by decide, by decide, by decide, by decide⟩

/-- Settles O6: every table of the reset state is empty or has sixteen equal rows. -/
theorem resetRegisterValues : Obligations.ResetRegisterValues := by
  refine ⟨fun _ => ⟨rfl, rfl⟩, rfl, rfl, rfl, rfl, rfl, rfl, fun _ => rfl, fun f hf => ?_, fun f hpos hf => ?_, rfl, by decide, rfl, rfl⟩
  · rw [fnInt_reset]
    exact ⟨rfl, rfl, stall_of_reset ⟨f, hf⟩⟩
  · exact evtTail_of_reset ⟨f, hf⟩ hpos

end Sys2Proof.Machine
end

section
/-! The network ports' counters, links and frames of the Groom (13 R440-R442, R472). -/

namespace Sys2Proof.Machine

open Sys2Proof

section

variable {p sub i n mac ip : Nat} {frame : List Byte} {data : List Byte} {s t : State}

/-! ## Counters and frames sent -/

theorem counters_countAt (hp : p < s.net.length) (hi : i < (netPort s p).counters.length) : (netPort (countAt p i n s) p).counters =
    (netPort s p).counters.set i (min ((netPort s p).counters.getD i 0 + n) 0xFFFFFFFF) := by
  rw [countAt, netPort_modNet hp, List.getD_eq_getElem _ _ hi]
  exact List.modify_eq_set_getElem? .. |>.trans (by simp [List.getElem?_eq_getElem hi])

theorem netTx_sends (hup : linkIsUp s p sub = true) (hfit : frameFits (portMtu s.cfg.active p) frame = true) :
    netTx p sub frame s = countAt p 1 1 (emit (.net p sub frame) s) := if_pos (by rw [hup, hfit]; rfl)

theorem length_arpReply_le : (arpReply s p mac ip).length ≤ 64 := by
  have htag := length_vlanTag_le (v := 0)
  simp only [arpReply, etherFrame, List.length_append, length_beBytes, length_leBytes, List.length_replicate, List.length_cons,
    List.length_nil]
  omega

theorem length_igmpReport_le {kind group : Nat} : (igmpReport s p kind group).length ≤ 64 := by
  have htag := length_vlanTag_le (v := 0)
  simp only [igmpReport, ipFrame, etherFrame, ipHeader, List.length_append, length_beBytes, length_leBytes,
    List.length_replicate, List.length_cons, List.length_nil]
  omega

/-! ## Reports in answer to a query (13 R441) -/

/-- A report of a joined group, on its own sub-port. -/
def reportOn (p sub : Nat) (t : State) (g : Nat × Nat) : State :=
  if g.1 = sub then netTx p sub (igmpReport t p 2 g.2) t else t

theorem reportOn_sends {g : Nat × Nat} (hup : linkIsUp s p sub = true) (hmtu : 1500 ≤ portMtu s.cfg.active p) (hg : g.1 = sub) :
    reportOn p sub s g = countAt p 1 1 (emit (.net p sub (igmpReport s p 2 g.2)) s) :=
  (if_pos hg).trans (netTx_sends hup (frameFits_of_le (length_igmpReport_le.trans (by omega))))

/-- Every group of the sub-port is reported, in order. -/
theorem foldl_reportOn (hmtu : 1500 ≤ portMtu s.cfg.active p) : ∀ (l : List (Nat × Nat)) (t : State),
    t = { s with net := t.net, out := t.out } → linkIsUp t p sub = true →
    l.foldl (reportOn p sub) t = { s with net := (l.foldl (reportOn p sub) t).net, out := (l.foldl (reportOn p sub) t).out } ∧
    (l.foldl (reportOn p sub) t).out = t.out ++ (l.filter (·.1 = sub)).map fun g => .net p sub (igmpReport s p 2 g.2)
  | [], t, ht, _ => ⟨ht, by simp⟩
  | g :: l, t, ht, hup => by
    by_cases hg : g.1 = sub
    · have hsame : igmpReport t p 2 g.2 = igmpReport s p 2 g.2 := by rw [ht]; rfl
      have hone := reportOn_sends hup (by rw [ht]; exact hmtu) hg
      have ih := foldl_reportOn hmtu l (reportOn p sub t g) (by rw [hone, ht]; rfl)
        (by rw [hone, linkIsUp_countAt]; exact hup)
      refine ⟨ih.1, ih.2.trans ?_⟩
      rw [hone, hsame, List.filter_cons_of_pos (by simpa using hg), List.map_cons]
      exact List.append_assoc ..
    · have hone : reportOn p sub t g = t := if_neg hg
      rw [List.foldl_cons, hone, List.filter_cons_of_neg (by simpa using hg)]
      exact foldl_reportOn hmtu l t ht hup

/-! ## Links and frames -/

theorem hasSub_of (hp : p < 2) (hsub : sub < 4) (h : sub = 0 ∨ portMode s.cfg.active p = 1) : hasSub s p sub = true := by
  rcases h with h | h <;> simp [hasSub, hp, hsub, h]

theorem hasFec_iff : hasFec s p = true ↔
    ¬ (portMode s.cfg.active p = 1 ∧ fieldAt ((activeBlk s 0x7001 p 0).getD []) 1 1 = 1) := by
  simp [hasFec, portByte, ← not_and_or]

theorem exec_netFrameReceived {f : NetFrame} (hclk : enginesClocked s = true) (hsub : hasSub s p sub = true)
    (hup : linkIsUp s p sub = true) : exec (.netFrameReceived p sub f) s = .next (onFrame p sub f s) :=
  congrArg Host.Outcome.next (if_pos (by rw [hclk, hsub, hup]; rfl))

end

/-! ## The obligation -/

/-- Settles O39: each row by its own equation; the reports of a query by a fold over the groups joined. -/
theorem netPortsCountAndTell : Obligations.NetPortsCountAndTell := by
  refine ⟨fun r s c hstart hpass => congrArg Host.Outcome.next (runCmd_effect hstart hpass),
    fun p i n s hp hi => ⟨counters_countAt hp hi, rfl⟩, fun p sub s hclk hp hsub => ?_⟩
  dsimp only
  refine ⟨fun hup => ?down, fun hdown hthere hmode hfree => ?up, fun hthere hup => ?frames⟩
  case down => exact congrArg Host.Outcome.next (if_pos (by rw [hclk, hup]; simp [hp, hsub]))
  case up =>
    have hall : (linkLanes s p sub).any (forcedOff s) = false := List.any_eq_false.mpr fun l hl => by simp [hfree l hl]
    exact congrArg Host.Outcome.next (if_pos (by rw [hclk, hasSub_of hp hsub hthere, hdown, hall]; simpa using hmode))
  case frames =>
    have row (f : NetFrame) : exec (.netFrameReceived p sub f) s = .next (onFrame p sub f s) :=
      exec_netFrameReceived hclk (hasSub_of hp hsub hthere) hup
    have hgot : linkIsUp (countAt p 0 1 s) p sub = true := linkIsUp_countAt.trans hup
    refine ⟨row _, row _, fun n => ⟨fun hfec => ⟨?corrected, ?bad⟩, fun hnone => ⟨?corrected0, ?bad0⟩⟩, fun mac from_ hmtu => ?arp,
      fun mac from_ data hfit => ?echo, fun mac from_ data ip hip => ⟨?arpOther, ?echoOther⟩, fun hmtu => ?query⟩
    case corrected => exact (row _).trans (congrArg Host.Outcome.next (if_pos (hasFec_iff.mpr hfec)))
    case bad => exact (row _).trans (congrArg Host.Outcome.next (if_pos (hasFec_iff.mpr hfec)))
    case corrected0 => exact (row _).trans (congrArg Host.Outcome.next (if_neg fun h => hnone (hasFec_iff.mp h)))
    case bad0 => exact (row _).trans (congrArg Host.Outcome.next (if_neg fun h => hnone (hasFec_iff.mp h)))
    case arp => exact (row _).trans (congrArg Host.Outcome.next
      ((if_pos rfl).trans (netTx_sends hgot (frameFits_of_le (length_arpReply_le.trans (Nat.le_trans (by decide) hmtu))))))
    case echo => exact (row _).trans (congrArg Host.Outcome.next ((if_pos rfl).trans (netTx_sends hgot hfit)))
    case arpOther => exact (row _).trans (congrArg Host.Outcome.next (if_neg hip))
    case echoOther => exact (row _).trans (congrArg Host.Outcome.next (if_neg hip))
    case query => exact ⟨_, row _, foldl_reportOn hmtu (joinedOn s p) (countAt p 0 1 s) rfl hgot⟩

end Sys2Proof.Machine
end

section
/-! A send slot of a HOLD flow whose frame was retracted (06 R228). -/
namespace Sys2Proof.Machine

open Sys2Proof

/-- `PIPE.CONFIGURE` with a period of 1 ns, `PIPE.TAP` with FRAME_DIV 1, and a flow of kind 1 of stream 0 and tap 0. -/
def heldConfig : Tbl CfgVal :=
  [(cfgKey 0x2001 0 0, ⟨List.replicate 12 0 ++ [1], [], 0⟩), (cfgKey 0x2104 0 0, ⟨List.replicate 16 0 ++ [1], [], 0⟩),
    (cfgKey 0x7002 0 0, ⟨[0, 1], [], 0⟩)]

/-- Flow 0 of port 0 takes stream 0, which has retracted frame 6; slot 2 of its tap holds frame 5, COMMITTED. -/
def heldFlow : State :=
  { State.reset with
    cfg := { committed := heldConfig, active := heldConfig }
    streams := [{ taps := [[(2, { serial := 5, state := 1 })]], lastRetracted := some (6, ⟨0, 0⟩, 0) }] }

/-- The flow as its port works with it. -/
def heldCfg : FlowCfg := FlowCfg.of [0, 1]

theorem flowNow_heldFlow : flowNow heldFlow 0 0 = some heldCfg := by decide +kernel

theorem flowNow_switched_heldFlow : flowNow (switchFlow 0 0 heldFlow) 0 0 = some heldCfg := by decide +kernel

theorem sends_heldFlow : ∃ t, exec (.sendSlot 0 0) heldFlow = .next t ∧ t.freeCtr = 1 := ⟨_, rfl, by decide +kernel⟩

/-- Refutes O40: the DETAIL of the event that tells of a retracted frame is a free value (log 6), so a slot that sends another frame
in its place moves the count of free values on; the statement holds that count still. -/
theorem not_flowsSend : ¬ Obligations.FlowsSend := by
  intro ⟨hslot, _⟩
  obtain ⟨-, hdue⟩ := hslot 0 0 heldFlow heldCfg (by decide) (by decide) flowNow_heldFlow rfl
  obtain ⟨-, hretracted⟩ := hdue (.inr (by decide +kernel)) heldCfg flowNow_switched_heldFlow rfl (by decide +kernel)
    (by decide +kernel)
  have hnewest (z : Nat × TapSlot) (hz : some (2, { serial := 5, state := 1 }) = some z) : serialAfter 6 z.2.serial = true := by
    obtain rfl := Option.some.inj hz
    decide
  obtain ⟨t, hexec, ⟨_, _, hframe, _⟩, _⟩ := hretracted (6, ⟨0, 0⟩) (2, { serial := 5, state := 1 }) rfl (by decide +kernel)
    (by decide +kernel) (fun z hz => hnewest z ((by decide +kernel : some _ = _).trans hz)) (by decide +kernel)
  obtain ⟨u, hexec', hfree⟩ := sends_heldFlow
  obtain rfl : u = t := Host.Outcome.next.inj (hexec'.symm.trans hexec)
  have hkept : u.freeCtr = 0 := congrArg State.freeCtr hframe
  omega

end Sys2Proof.Machine
end

section
/-! The receive flows of the network ports (13 R465-R467, R470; 10 R384). -/
namespace Sys2Proof.Machine

open Sys2Proof

section

variable {p f i j n q sub port a : Nat} {x : FlowCfg} {k : RxPacket} {g : FlowSt → FlowSt} {bs : List Byte} {s t u : State}

/-! ## What a unit stores and tells -/

/-- From `s` to `t` a unit has written to HBM, and events and sources have told of it. -/
def Stored (s t : State) : Prop := t = { reported s t with hbm := t.hbm }

theorem Stored.refl (s : State) : Stored s s := rfl

theorem Stored.trans (h : Stored s t) (h' : Stored t u) : Stored s u := by
  unfold Stored at *
  rw [h', h]
  rfl

theorem Stored.ite {c : Prop} [Decidable c] (h : Stored s t) (h' : Stored s u) : Stored s (if c then t else u) := by
  split
  · exact h
  · exact h'

theorem Reported.stored (h : Reported s t) : Stored s t := by
  unfold Reported Stored at *
  rw [h]
  rfl

theorem stored_hbmWrite : Stored s (hbmWrite a bs s) := by
  unfold hbmWrite
  split
  · rfl
  · exact reported_raise.stored

theorem Stored.net (h : Stored s t) : t.net = s.net := by
  unfold Stored at h
  rw [h]
  rfl

/-- From `s` to `t` the network ports have moved too. -/
def NetStored (s t : State) : Prop := t = { reported s t with net := t.net, hbm := t.hbm }

theorem NetStored.trans (h : NetStored s t) (h' : NetStored t u) : NetStored s u := by
  unfold NetStored at *
  rw [h', h]
  rfl

theorem Stored.netStored (h : Stored s t) : NetStored s t := by
  unfold Stored NetStored at *
  rw [h]
  rfl

/-! ## Flows -/

/-- The tables of a state hold a flow. -/
def HasFlow (s : State) (p f : Nat) : Prop := p < s.net.length ∧ f < (netPort s p).flows.length

theorem HasFlow.of_net (h : HasFlow s p f) (hnet : t.net = s.net) : HasFlow t p f := by
  unfold HasFlow netPort at *
  rwa [hnet]

theorem flowSt_of_net (hnet : t.net = s.net) : flowSt t p f = flowSt s p f := by
  unfold flowSt netPort
  rw [hnet]

theorem flowSt_modFlow (h : HasFlow s p f) : flowSt (modFlow p f g s) p f = g (flowSt s p f) := by
  rw [flowSt, modFlow, netPort_modNet h.1]
  simp [flowSt, List.getD_eq_getElem?_getD, h.2]

theorem hasFlow_modFlow (h : HasFlow s p f) : HasFlow (modFlow p f g s) p f := by
  refine ⟨by simpa [modFlow, modNet] using h.1, ?_⟩
  rw [modFlow, netPort_modNet h.1]
  simpa using h.2

theorem flows_countAt : (netPort (countAt q i n s) p).flows = (netPort s p).flows := by
  by_cases hq : p = q
  · subst hq
    obtain ⟨l, h⟩ := netPort_countAt (p := p) (i := i) (n := n) (s := s)
    rw [h]
  · rw [countAt, netPort_modNet_ne hq]

theorem flowSt_countAt : flowSt (countAt q i n s) p f = flowSt s p f := by
  unfold flowSt
  rw [flows_countAt]

theorem hasFlow_countAt (h : HasFlow s p f) : HasFlow (countAt q i n s) p f :=
  ⟨by rw [length_countAt]; exact h.1, by rw [flows_countAt]; exact h.2⟩

/-! ## Slots that close (13 R466) -/

/-- A flow whose oldest slot has closed. -/
def slotClosed (r : RxSlot) (l : List RxSlot) (z : FlowSt) : FlowSt :=
  { z with slots := l, wr := (z.wr + 1) % 65536, closed := ((r.ts, r.seqs.headD 0, r.paths / 2) :: z.closed).take 256 }

theorem closeSlot_cons {r : RxSlot} {l : List RxSlot} (h : (flowSt s p f).slots = r :: l) : closeSlot p f x s =
    raise (528 + 8 * p + 3) (unitEvent 0x7003 0x70 p none
      ((flowSt s p f).wr % max x.ringSlots 1 + 2 ^ 8 * f + 2 ^ 32 * missingOf r.seqs) (modFlow p f (slotClosed r l)
        (hbmWrite (rxAddr x (flowSt s p f).wr) (rxHeader r (missingOf r.seqs)) s))) := by
  unfold closeSlot
  dsimp only
  split
  next hnil => rw [h] at hnil; cases hnil
  next r' l' hcons =>
    obtain ⟨rfl, rfl⟩ := List.cons.inj (h.symm.trans hcons)
    rfl

theorem closeSlot_facts {r : RxSlot} {l : List RxSlot} (hflow : HasFlow s p f) (h : (flowSt s p f).slots = r :: l) :
    NetStored s (closeSlot p f x s) ∧ HasFlow (closeSlot p f x s) p f ∧
      flowSt (closeSlot p f x s) p f = slotClosed r l (flowSt s p f) := by
  rw [closeSlot_cons h]
  generalize hw : hbmWrite (rxAddr x (flowSt s p f).wr) (rxHeader r (missingOf r.seqs)) s = w
  have hstored : Stored s w := hw ▸ stored_hbmWrite
  have htold : Stored (modFlow p f (slotClosed r l) w) (raise (528 + 8 * p + 3) (unitEvent 0x7003 0x70 p none
      ((flowSt s p f).wr % max x.ringSlots 1 + 2 ^ 8 * f + 2 ^ 32 * missingOf r.seqs) (modFlow p f (slotClosed r l) w))) :=
    reported_tell.stored
  have hflow' := hflow.of_net hstored.net
  refine ⟨?_, (hasFlow_modFlow hflow').of_net htold.net, ?_⟩
  · exact hstored.netStored.trans (.trans (t := modFlow p f (slotClosed r l) w) rfl htold.netStored)
  · rw [flowSt_of_net htold.net, flowSt_modFlow hflow', flowSt_of_net hstored.net]

theorem closeSlots_facts : ∀ {n : Nat} {s : State}, HasFlow s p f → n ≤ (flowSt s p f).slots.length →
    NetStored s (closeSlots p f x n s) ∧ (flowSt (closeSlots p f x n s) p f).slots = (flowSt s p f).slots.drop n ∧
      (n ≠ 0 → (flowSt (closeSlots p f x n s) p f).wr = ((flowSt s p f).wr + n) % 65536)
  | 0, _, _, _ => ⟨rfl, rfl, fun h => absurd rfl h⟩
  | n + 1, s, hflow, hn => by
    cases hslots : (flowSt s p f).slots with
    | nil => rw [hslots] at hn; cases hn
    | cons r l =>
      obtain ⟨hone, hflow', hst⟩ := closeSlot_facts (x := x) hflow hslots
      have hn' : n ≤ (flowSt (closeSlot p f x s) p f).slots.length := by
        rw [hst]
        rw [hslots] at hn
        exact Nat.le_of_succ_le_succ hn
      obtain ⟨hrest, hdrop, hwr⟩ := closeSlots_facts (n := n) hflow' hn'
      refine ⟨hone.trans hrest, ?_, fun _ => ?_⟩
      · show (flowSt (closeSlots p f x n (closeSlot p f x s)) p f).slots = _
        rw [hdrop, hst]
        rfl
      · show (flowSt (closeSlots p f x n (closeSlot p f x s)) p f).wr = _
        by_cases h0 : n = 0
        · subst h0
          show (flowSt (closeSlot p f x s) p f).wr = _
          rw [hst]
          rfl
        · rw [hwr h0, hst]
          show (((flowSt s p f).wr + 1) % 65536 + n) % 65536 = ((flowSt s p f).wr + (n + 1)) % 65536
          rw [Nat.mod_add_mod, Nat.add_assoc, Nat.add_comm 1]

/-! ## Packets (13 R465) -/

theorem stored_rxVideo {base : Nat} : Stored s (rxVideo x base k s) := by
  unfold rxVideo
  refine foldl_steps Stored.refl Stored.trans _ (fun t i _ => ?_) s
  exact .ite (.refl t) (.ite (.refl t) (stored_hbmWrite.trans stored_hbmWrite))

/-- What a packet that a live flow takes does where its path was not lost and its port is not shed. -/
theorem rxTake_shed (hlost : (flowSt s p f).lost.getD i false = false) (hshed : rxShed s p = true) :
    rxTake port p f i x k s = raise (528 + 8 * p + 6) (countAt port 14 1 s) := by
  unfold rxTake
  rw [hlost]
  exact if_pos hshed

theorem rxTake_closed (hlost : (flowSt s p f).lost.getD i false = false) (hshed : rxShed s p = false)
    (hclosed : (flowSt s p f).closed.any (foundClosed x i k) = true) : rxTake port p f i x k s = rxAfterClose port p f i x k s := by
  unfold rxTake
  rw [hlost]
  exact (if_neg (by simp [hshed])).trans (if_pos hclosed)

theorem rxTake_open (hlost : (flowSt s p f).lost.getD i false = false) (hshed : rxShed s p = false)
    (hclosed : (flowSt s p f).closed.any (foundClosed x i k) = false) : rxTake port p f i x k s =
      if (flowSt s p f).slots.findIdx (·.ts == k.rtpTs) < (flowSt s p f).slots.length then
        rxInSlot port p f i x k ((flowSt s p f).slots.findIdx (·.ts == k.rtpTs)) s
      else rxNew port p f i x k s := by
  unfold rxTake
  rw [hlost]
  exact (if_neg (by simp [hshed])).trans (if_neg (by simp [hclosed]))

theorem rxInSlot_twice (h : ((flowSt s p f).slots.getD j { ts := 0, first := ⟨0, 0⟩ }).seqs.contains k.seqNo = true) :
    rxInSlot port p f i x k j s = countAt port 11 1 (modFlow p f (fun z =>
      { z with slots := z.slots.modify j fun r => { r with paths := r.paths ||| 2 ^ i } }) s) := if_pos h

theorem rxInSlot_added (h : ((flowSt s p f).slots.getD j { ts := 0, first := ⟨0, 0⟩ }).seqs.contains k.seqNo = false)
    (hmarker : k.marker = true → x.paths ≠ 1) : rxInSlot port p f i x k j s = rxVideo x (rxAddr x ((flowSt s p f).wr + j) + 4096) k
      (modFlow p f (fun z => { z with slots := z.slots.modify j (rxAdd i k) }) s) :=
  (if_neg (ne_true_of_eq_false h)).trans (if_neg (by simpa using hmarker))

theorem rxNew_full (hfull : x.ringSlots ≤
      used (BitVec.ofNat 16 (flowSt s p f).wr) (BitVec.ofNat 16 (flowSt s p f).rd) + (flowSt s p f).slots.length)
    (hfirst : (flowSt s p f).dropped ≠ some k.rtpTs) : rxNew port p f i x k s =
      countAt port 12 1 (modFlow p f (fun z => { z with dropped := some k.rtpTs }) s) := (if_pos hfull).trans (if_neg hfirst)

theorem modify_append_singleton {α : Type} (h : α → α) (l : List α) (b : α) : (l ++ [b]).modify l.length h = l ++ [h b] := by
  induction l with
  | nil => rfl
  | cons c l ih => exact congrArg (c :: ·) ih

/-- A flow with the slot that a packet opens. -/
def slotOpened (port : Nat) (k : RxPacket) (s : State) (z : FlowSt) : FlowSt :=
  { z with slots := z.slots ++ [{ ts := k.rtpTs, first := rxStamp port k s }] }

section

variable (hflow : HasFlow s p f) (hfree : used (BitVec.ofNat 16 (flowSt s p f).wr) (BitVec.ofNat 16 (flowSt s p f).rd) +
    (flowSt s p f).slots.length < x.ringSlots)
include hflow hfree

theorem rxNew_video (hkind : x.kind = 9) (hmarker : k.marker = true → x.paths ≠ 1) :
    NetStored s (rxNew port p f i x k s) ∧ flowSt (rxNew port p f i x k s) p f = { flowSt s p f with
      slots := (flowSt s p f).slots ++ [rxAdd i k { ts := k.rtpTs, first := rxStamp port k s }] } := by
  have hopen : rxNew port p f i x k s =
      rxInSlot port p f i x k (flowSt s p f).slots.length (modFlow p f (slotOpened port k s) s) :=
    (if_neg (by omega)).trans (if_neg (by simp [hkind]))
  have hst : flowSt (modFlow p f (slotOpened port k s) s) p f = slotOpened port k s (flowSt s p f) := flowSt_modFlow hflow
  have hempty : (((flowSt (modFlow p f (slotOpened port k s) s) p f).slots.getD (flowSt s p f).slots.length
      { ts := 0, first := ⟨0, 0⟩ }).seqs.contains k.seqNo) = false := by
    rw [hst]
    simp [slotOpened, List.getD_eq_getElem?_getD]
  rw [hopen, rxInSlot_added hempty hmarker]
  refine ⟨.trans (t := modFlow p f _ (modFlow p f (slotOpened port k s) s)) rfl stored_rxVideo.netStored, ?_⟩
  rw [flowSt_of_net stored_rxVideo.net, flowSt_modFlow (hasFlow_modFlow hflow), hst]
  simp [slotOpened, modify_append_singleton]

theorem rxNew_single (hkind : x.kind ≠ 9) : NetStored s (rxNew port p f i x k s) ∧
    (flowSt (rxNew port p f i x k s) p f).wr = ((flowSt s p f).wr + 1) % 65536 ∧
    ((flowSt s p f).slots = [] → (flowSt (rxNew port p f i x k s) p f).slots = []) := by
  have hopen : rxNew port p f i x k s = rxSingle port p f i x k s := (if_neg (by omega)).trans (if_pos hkind)
  rw [hopen]
  unfold rxSingle
  dsimp only
  generalize hw : hbmWrite (rxAddr x (flowSt s p f).wr + 27) (k.data.take (x.slotBytes - 27)) s = w
  have hstored : Stored s w := hw ▸ stored_hbmWrite
  have hflow' := hflow.of_net hstored.net
  set r := rxAdd i k { ts := k.rtpTs, first := rxStamp port k s } with hr
  set v := modFlow p f (fun z => { z with slots := z.slots ++ [r] }) w with hv
  have hst : flowSt v p f = { flowSt s p f with slots := (flowSt s p f).slots ++ [r] } := by
    rw [hv, flowSt_modFlow hflow', flowSt_of_net hstored.net]
  obtain ⟨r', l, hslots⟩ := List.exists_cons_of_ne_nil (l := (flowSt v p f).slots) (by rw [hst]; simp)
  obtain ⟨hclosed, -, hlast⟩ := closeSlot_facts (x := x) (hasFlow_modFlow hflow') hslots
  refine ⟨hstored.netStored.trans (.trans (t := v) rfl hclosed), ?_, fun hnil => ?_⟩
  · rw [hlast, hst]
    rfl
  · rw [hlast]
    rw [hst, hnil] at hslots
    exact (List.cons.inj hslots).2.symm

end

theorem exec_rxPacket (hclk : enginesClocked s = true) (hsub : hasSub s port k.sub = true) (hup : linkIsUp s port k.sub = true)
    (hfor : flowFor s port k = some (q, f, i)) (hnow : flowNow s q f = some x) : exec (.rxPacket port k) s = .next
      (if !rxFits s port x k then countAt port 5 1 (countAt port 0 1 s)
       else if netLive s q && netLive s port then rxTake port q f i x k (countAt port 0 1 s) else countAt port 0 1 s) := by
  have hfor' : flowFor (countAt port 0 1 s) port k = some (q, f, i) := hfor
  have hnow' : flowNow (countAt port 0 1 s) q f = some x := hnow
  refine congrArg Host.Outcome.next ((if_neg (by simp [hclk, hsub, hup])).trans ?_)
  dsimp only
  rw [hfor']
  dsimp only
  rw [hnow']
  rfl

theorem hasSub_port (h : hasSub s port sub = true) : port < 2 := by
  simp only [hasSub, Bool.and_eq_true, decide_eq_true_eq] at h
  exact h.1

/-- A packet comes to a flow of its own port, or of the other one. -/
theorem flowFor_port (h : flowFor s port k = some (q, f, i)) (hport : port < 2) : q < 2 := by
  have hmem := List.mem_of_find?_eq_some h
  simp only [List.mem_flatMap, List.mem_cons, List.not_mem_nil, or_false, Prod.mk.injEq] at hmem
  obtain ⟨_, -, ⟨rfl, -⟩ | ⟨rfl, -⟩⟩ := hmem <;> omega

theorem exec_rxPacket_none (hclk : enginesClocked s = true) (hsub : hasSub s port k.sub = true)
    (hup : linkIsUp s port k.sub = true) (hfor : flowFor s port k = none) :
    exec (.rxPacket port k) s = .next (countAt port 5 1 (countAt port 0 1 s)) := by
  have hfor' : flowFor (countAt port 0 1 s) port k = none := hfor
  refine congrArg Host.Outcome.next ((if_neg (by simp [hclk, hsub, hup])).trans ?_)
  dsimp only
  rw [hfor']

theorem exec_rxSlotClose (hnow : flowNow s p f = some x) : exec (.rxSlotClose p f) s = .next
    (if netLive s p && x.kind == 9 && x.paths == 2 &&
        decide ((flowSt s p f).slots.findIdx (·.marker) < (flowSt s p f).slots.length) then
      closeSlots p f x ((flowSt s p f).slots.findIdx (·.marker) + 1) s else s) := by
  simp only [exec, execRxSlotClose, hnow]

theorem exec_pathLost (hnow : flowNow s p f = some x) : exec (.pathLost p f i) s = .next
    (if enginesClocked s && decide (9 ≤ x.kind) && x.paths == 2 && decide (i < 2) && !(flowSt s p f).lost.getD i true then
      pathChange (pathPort p i) p f i true s else s) := by
  simp only [exec, execPathLost, hnow]

end

/-! ## The obligation -/

/-- Settles O41: what a packet does by the branch that its flow's state selects; slots that close one after the other by
`closeSlots_facts`. -/
theorem flowsReceive : Obligations.FlowsReceive := by
  refine ⟨fun port k s hclk hsub hup hlen => ?packet, fun p f s x hnow hp hf => ?close⟩
  case packet =>
    dsimp only
    refine ⟨exec_rxPacket_none hclk hsub hup, fun q f i x hfor hnow => ?_, fun q f i x hfor hnow hfit hq hport hf hlost => ?_⟩
    · have hexec := exec_rxPacket hclk hsub hup hfor hnow
      refine ⟨fun hlong => hexec.trans (congrArg Host.Outcome.next (if_pos (by rw [hlong]; rfl))), fun hfit hsafe => ?_⟩
      rw [hexec, hfit]
      rcases hsafe with h | h <;> rw [h] <;> simp
    · have hrow : exec (.rxPacket port k) s = .next (rxTake port q f i x k (countAt port 0 1 s)) := by
        rw [exec_rxPacket hclk hsub hup hfor hnow, hfit, hq, hport]
        rfl
      have hst : flowSt (countAt port 0 1 s) q f = flowSt s q f := flowSt_countAt
      have hflow : HasFlow (countAt port 0 1 s) q f := hasFlow_countAt ⟨by have := flowFor_port hfor (hasSub_port hsub); omega, hf⟩
      rw [← hst] at hlost ⊢
      refine ⟨fun hshed => hrow.trans (congrArg Host.Outcome.next (rxTake_shed hlost hshed)), fun hshed hclosed hkind => ?_,
        fun hshed hclosed hnew => ?_, fun j hshed hclosed hj hlt htwice => ?_⟩
      · rw [hrow, rxTake_closed hlost hshed hclosed]
        exact congrArg Host.Outcome.next (if_pos hkind)
      · have hnone : rxTake port q f i x k (countAt port 0 1 s) = rxNew port q f i x k (countAt port 0 1 s) := by
          rw [rxTake_open hlost hshed hclosed, if_neg]
          rw [List.findIdx_eq_length_of_false (by simpa using hnew)]
          exact Nat.lt_irrefl _
        rw [hnone] at hrow
        refine ⟨fun hfull hfirst => hrow.trans (congrArg Host.Outcome.next (rxNew_full hfull hfirst)),
          fun hfree hkind hmarker hi => ?_, fun hfree hkind => ?_⟩
        · obtain ⟨hframe, hnewest⟩ := rxNew_video (i := i) hflow hfree hkind hmarker
          refine ⟨_, hrow, hframe, hnewest.trans ?_⟩
          simp only [rxAdd, Nat.zero_or, Nat.zero_add, List.nil_append, Bool.false_or]
          rfl
        · obtain ⟨hframe, hwr, hslots⟩ := rxNew_single (port := port) (i := i) (k := k) hflow hfree (x := x) (by omega)
          exact ⟨_, hrow, hframe, hwr, hslots⟩
      · rw [hrow, rxTake_open hlost hshed hclosed, ← hj, if_pos hlt]
        exact congrArg Host.Outcome.next (rxInSlot_twice htwice)
  case close =>
    dsimp only
    refine ⟨fun hother => ?_, fun r l hlive hkind hpaths hslots hmarker => ?_, fun j hlive hkind hpaths hj hlt => ?_,
      fun i hi hclk hkind hpaths hlost => ?_⟩
    · rw [exec_rxSlotClose hnow]
      rcases hother with h | h <;> simp [h]
    · have hfirst : (flowSt s p f).slots.findIdx (·.marker) = 0 := by rw [hslots, List.findIdx_cons, hmarker]; rfl
      rw [exec_rxSlotClose hnow, hfirst, hslots, hlive, hkind, hpaths]
      exact congrArg Host.Outcome.next (closeSlot_cons hslots)
    · rw [exec_rxSlotClose hnow, ← hj, if_pos (by simp [hlive, hkind, hpaths, hlt])]
      obtain ⟨hframe, hdrop, hwr⟩ := closeSlots_facts (x := x) (n := j + 1) ⟨hp, hf⟩ hlt
      exact ⟨_, rfl, hframe, hdrop, hwr (Nat.succ_ne_zero j)⟩
    · rw [exec_pathLost hnow, hclk, hpaths, hlost, if_pos (by simp [hkind, hi])]
      rfl

end Sys2Proof.Machine
end

section
/-! Display heads: updates that wait for a flip point, and genlock (12 R412, R413, R424, R434, R439). -/
namespace Sys2Proof.Machine

open Sys2Proof

section

variable {h k n code : Nat} {z : Int} {g : Head → Head} {q : FlipReq} {c : Cmd} {s t u : State}

/-- From `s` to `t` heads have moved, and events and sources have told of it. -/
def HeadsTold (s t : State) : Prop := t = { reported s t with heads := t.heads }

theorem HeadsTold.refl (s : State) : HeadsTold s s := rfl

theorem HeadsTold.trans (hst : HeadsTold s t) (htu : HeadsTold t u) : HeadsTold s u := by
  unfold HeadsTold at *
  rw [htu, hst]
  rfl

theorem Reported.ite {p : Prop} [Decidable p] (ht : Reported s t) (hu : Reported s u) : Reported s (if p then t else u) := by
  split
  · exact ht
  · exact hu

theorem Reported.headsTold (hst : Reported s t) : HeadsTold s t := by
  unfold Reported HeadsTold at *
  rw [hst]
  rfl

theorem Reported.heads (hst : Reported s t) : t.heads = s.heads := by
  unfold Reported at hst
  rw [hst]
  rfl

theorem head_of_heads (hheads : t.heads = s.heads) : head t h = head s h := by
  unfold head
  rw [hheads]

theorem length_modHead : (modHead h g s).heads.length = s.heads.length := by simp [modHead]

/-! ## Updates (12 R424) -/

theorem addRequest_facts (hh : h < s.heads.length) : let t := addRequest q h c s
    t = { s with heads := t.heads, cmds := s.cmds.map fun y => if y.same c then { y with waiting := true } else y } ∧
      head t h = { head s h with requests := (head s h).requests ++ [q] } ∧ ∀ j, j ≠ h → head t j = head s j :=
  ⟨rfl, head_modHead hh, fun _ hj => head_modHead_ne hj⟩

/-! ## Genlock (12 R412, R413) -/

/-- What a head takes of a genlock edge. -/
def edgeTaken (z : Int) (y : Head) : Head :=
  match y.edge with
  | none => { y with edge := some z }
  | some e =>
    let d := z - e
    let rate := (d / 1000000).toNat
    let m := if y.measured ≤ 0 then d else y.measured
    let off := towards (y.phaseErr + phaseOff z e m) 0 rate
    { y with edge := some z, gap := d, phaseErr := off, measured := if (d - y.gap).natAbs ≤ rate then d else m
             genlockLost := y.genlockLost && decide (10 < off.natAbs) }

theorem reported_tellGenlock : Reported s (tellGenlock code h s) := by
  unfold tellGenlock
  dsimp only
  split
  · exact reported_tell
  · exact reported_unitEvent

theorem edgeTaken_first (he : (head s h).edge = none) : onEdge z h s = modHead h (fun y => { y with edge := some z }) s := by
  unfold onEdge
  dsimp only
  rw [he]

/-- An edge after another: what the head takes, and what may tell that the loss has ended. -/
theorem reported_onEdge {e : Int} (he : (head s h).edge = some e) : ∃ g : Head → Head,
    g (head s h) = edgeTaken z (head s h) ∧ Reported (modHead h g s) (onEdge z h s) := by
  unfold onEdge edgeTaken
  dsimp only
  rw [he]
  dsimp only
  exact ⟨_, rfl, .ite reported_tellGenlock (.refl _)⟩

/-- A change of a head, and what is told of it. -/
theorem told_modHead (ht : Reported (modHead h g s) t) : HeadsTold s t ∧ t.heads.length = s.heads.length ∧
    (h < s.heads.length → head t h = g (head s h)) ∧ ∀ j, j ≠ h → head t j = head s j :=
  ⟨.trans (t := modHead h g s) rfl ht.headsTold, by rw [ht.heads, length_modHead],
    fun hh => (head_of_heads ht.heads).trans (head_modHead hh), fun _ hj => (head_of_heads ht.heads).trans (head_modHead_ne hj)⟩

theorem onEdge_facts : HeadsTold s (onEdge z h s) ∧ (onEdge z h s).heads.length = s.heads.length ∧
    (h < s.heads.length → head (onEdge z h s) h = edgeTaken z (head s h)) ∧ ∀ j, j ≠ h → head (onEdge z h s) j = head s j := by
  cases he : (head s h).edge with
  | none =>
    rw [edgeTaken_first he]
    obtain ⟨hframe, hlen, hhead, hrest⟩ := told_modHead (g := fun y => { y with edge := some z }) (.refl (modHead h _ s))
    exact ⟨hframe, hlen, fun hh => (hhead hh).trans (by unfold edgeTaken; rw [he]), hrest⟩
  | some e =>
    obtain ⟨g, hg, ht⟩ := reported_onEdge (z := z) he
    rw [← hg]
    exact told_modHead ht

/-- The edge at one of the heads of a device. -/
def edgeAt (s : State) (z : Int) (t : State) (h : Nat) : State := if genlocked s h then onEdge z h t else t

/-- What a head is after the edge. -/
def headAfterEdge (s : State) (z : Int) (t : State) (h : Nat) : Head := if genlocked s h then edgeTaken z (head t h) else head t h

theorem edgeAt_facts : HeadsTold t (edgeAt s z t h) ∧ (edgeAt s z t h).heads.length = t.heads.length ∧
    (h < t.heads.length → head (edgeAt s z t h) h = headAfterEdge s z t h) ∧ ∀ j, j ≠ h → head (edgeAt s z t h) j = head t j := by
  unfold edgeAt headAfterEdge
  split
  · exact onEdge_facts
  · exact ⟨.refl t, rfl, fun _ => rfl, fun _ _ => rfl⟩

/-- The edge at every head: those that take their timing from it take it, once each. -/
theorem edges_facts (hlen : s.heads.length = 4) : HeadsTold s ([0, 1, 2, 3].foldl (edgeAt s z) s) ∧ ∀ h, h < 4 →
    head ([0, 1, 2, 3].foldl (edgeAt s z) s) h = headAfterEdge s z s h := by
  refine ⟨foldl_steps HeadsTold.refl HeadsTold.trans _ (fun _ _ _ => edgeAt_facts.1) s, fun h hh => ?_⟩
  have hother {t : State} (i j : Nat) (hij : i ≠ j) :
      head (edgeAt s z t j) i = head t i ∧ headAfterEdge s z (edgeAt s z t j) i = headAfterEdge s z t i := by
    obtain ⟨-, -, -, hrest⟩ := edgeAt_facts (s := s) (z := z) (t := t) (h := j)
    exact ⟨hrest i hij, by unfold headAfterEdge; rw [hrest i hij]⟩
  have hread := foldl_reads (b := 4) (Inv := fun t => t.heads.length = 4) (op := edgeAt s z) (read := head)
    (new := headAfterEdge s z) (fun j ht => edgeAt_facts.2.1.trans ht)
    (fun j hj ht => edgeAt_facts.2.2.1 (hj.trans_eq ht.symm))
    (fun i j _ _ hij => hother i j hij)
    [0, 1, 2, 3] s hlen (by decide) h hh
  rw [hread, if_pos (by simp; omega)]

theorem exec_genlockEdge (hclk : enginesClocked s = true) :
    exec .genlockEdge s = .next ([0, 1, 2, 3].foldl (edgeAt s (timeNs (stampTime s 48 0))) s) :=
  congrArg Host.Outcome.next (if_pos hclk)

end

/-! ## The obligation -/

/-- Settles O42: an update by `addRequest`; an edge by a fold over the heads, of which each takes its own. -/
theorem flipsAndGenlockFollowed : Obligations.FlipsAndGenlockFollowed := by
  refine ⟨fun r s c i op hrow hstart hh => ?update, fun s hclk hlen => ⟨fun h hh => ?edge, fun h hgen hlost => ?lost,
    fun h c hhead hpanel hte => ?te⟩⟩
  case update =>
    dsimp only
    obtain ⟨rfl, rfl, hpass⟩ | ⟨rfl, rfl, hpass⟩ := hrow
    · obtain ⟨hframe, hhead, hrest⟩ := addRequest_facts (s := s) (c := c) hh
      exact ⟨_, _, congrArg Host.Outcome.next (runCmd_effect hstart hpass), hframe, hhead, hrest, rfl,
        fun _ => ⟨rfl, rfl, rfl, rfl, rfl⟩, fun hop => by cases hop⟩
    · obtain ⟨hframe, hhead, hrest⟩ := addRequest_facts (s := s) (c := c) hh
      exact ⟨_, _, congrArg Host.Outcome.next (runCmd_effect hstart hpass), hframe, hhead, hrest, rfl,
        (fun hop => by cases hop), fun _ => ⟨rfl, rfl, rfl, rfl⟩⟩
  case edge =>
    obtain ⟨hframe, hheads⟩ := edges_facts (z := timeNs (stampTime s 48 0)) hlen
    refine ⟨_, exec_genlockEdge hclk, hframe, fun hfree => (hheads h hh).trans (if_neg (by simp [hfree])), fun hgen => ?_⟩
    have htaken := (hheads h hh).trans (if_pos hgen)
    exact ⟨fun he => htaken.trans (by unfold edgeTaken; rw [he]), fun e he => htaken.trans (by unfold edgeTaken; rw [he])⟩
  case lost =>
    exact congrArg Host.Outcome.next (if_pos (by simp [hclk, hgen, hlost]))
  case te =>
    simp only [exec, execTeMissing, hhead]
    exact congrArg Host.Outcome.next (if_pos (by simp [hclk, hpanel, hte]))

end Sys2Proof.Machine
end

section
/-! A flip point: how a head frame ends, what a head takes into use, and how the next head frame begins (12 R412 to R436). -/
namespace Sys2Proof.Machine

open Sys2Proof

section

variable {α β : Type} {π : Head → α} {h i k n x0 cause : Nat} {a : Nat} {bs : List Byte} {g : Head → Head} {c : HeadCfg} {q : FlipReq}
  {l : List Nat} {t' : Time} {f : FlipRec} {s t u : State}

/-! ## What a flip point may change -/

/-- From `s` to `t` heads may have moved, HBM been written, commands completed and a configuration been taken into use. -/
def HeadWork (s t : State) : Prop :=
  t = { reported s t with
    heads := t.heads, hbm := t.hbm, cmds := t.cmds, freeCtr := t.freeCtr, cfg := { s.cfg with active := t.cfg.active } }

theorem HeadWork.refl (s : State) : HeadWork s s := rfl

theorem HeadWork.tells (hst : HeadWork s t) : isLeader t = isLeader s ∧ routeOf t n = routeOf s n := by
  unfold HeadWork at hst
  rw [hst]
  exact ⟨rfl, rfl⟩

theorem HeadWork.trans (hst : HeadWork s t) (htu : HeadWork t u) : HeadWork s u := by
  unfold HeadWork at *
  rw [htu, hst]
  rfl

/-- From `s` to `t` each head keeps what `π` reads of it. -/
def HeadsKeep (π : Head → α) (s t : State) : Prop := t.heads.length = s.heads.length ∧ ∀ i, π (head t i) = π (head s i)

theorem HeadsKeep.of_heads (hst : t.heads = s.heads) : HeadsKeep π s t :=
  ⟨congrArg List.length hst, fun _ => congrArg π (head_of_heads hst)⟩

theorem HeadsKeep.trans (hst : HeadsKeep π s t) (htu : HeadsKeep π t u) : HeadsKeep π s u :=
  ⟨htu.1.trans hst.1, fun i => (htu.2 i).trans (hst.2 i)⟩

theorem headsKeep_modHead (hπ : ∀ y, π (g y) = π y) : HeadsKeep π s (modHead h g s) := by
  refine ⟨length_modHead, fun i => ?_⟩
  by_cases hi : i = h
  · subst hi
    by_cases hlt : i < s.heads.length
    · rw [head_modHead hlt, hπ]
    · simp [head, modHead, List.getD_eq_getElem?_getD, List.getElem?_eq_none (Nat.le_of_not_lt hlt)]
  · rw [head_modHead_ne hi]

/-- What is kept of more is kept of less. -/
theorem HeadsKeep.less (hst : HeadsKeep π s t) (φ : α → β) : HeadsKeep (fun y => φ (π y)) s t :=
  ⟨hst.1, fun i => congrArg φ (hst.2 i)⟩

/-- From `s` to `t` neither HBM nor the configuration moves, and every head keeps what `π` reads of it. -/
def Shows (π : Head → α) (s t : State) : Prop :=
  t = { reported s t with heads := t.heads, cmds := t.cmds, freeCtr := t.freeCtr } ∧ HeadsKeep π s t

theorem Shows.refl (s : State) : Shows π s s := ⟨rfl, .of_heads rfl⟩

theorem Shows.trans (hst : Shows π s t) (htu : Shows π t u) : Shows π s u := by
  obtain ⟨hst, hπ⟩ := hst
  obtain ⟨htu, hπ'⟩ := htu
  refine ⟨?_, hπ.trans hπ'⟩
  rw [htu, hst]
  rfl

theorem Shows.after (htu : Shows π t u) (hst : Shows π s t) : Shows π s u := hst.trans htu

theorem Shows.ite {p : Prop} [Decidable p] (ht : Shows π s t) (hu : Shows π s u) : Shows π s (if p then t else u) := by
  split
  · exact ht
  · exact hu

theorem Shows.less (hst : Shows π s t) (φ : α → β) : Shows (fun y => φ (π y)) s t := ⟨hst.1, hst.2.less φ⟩

theorem Shows.work (hst : Shows π s t) : HeadWork s t := by
  obtain ⟨hst, -⟩ := hst
  unfold HeadWork
  rw [hst]
  rfl

theorem Shows.hbm (hst : Shows π s t) : t.hbm = s.hbm := by
  obtain ⟨hst, -⟩ := hst
  rw [hst]
  rfl

theorem Shows.cfg (hst : Shows π s t) : t.cfg = s.cfg := by
  obtain ⟨hst, -⟩ := hst
  rw [hst]
  rfl

theorem Reported.shows (hst : Reported s t) : Shows π s t := by
  refine ⟨?_, .of_heads hst.heads⟩
  unfold Reported at hst
  rw [hst]
  rfl

theorem shows_complete {c : Cmd} {r : Reply} : Shows π s (complete c r s) := by
  rw [complete_eq]
  exact ⟨rfl, .of_heads rfl⟩

theorem shows_modHead (hπ : ∀ y, π (g y) = π y) : Shows π s (modHead h g s) := ⟨rfl, headsKeep_modHead hπ⟩

theorem shows_bump : Shows π s (bump s) := ⟨rfl, .of_heads rfl⟩

theorem shows_emit {o : Out} : Shows π s (emit o s) := ⟨rfl, .of_heads rfl⟩

theorem shows_hbmTouch : Shows π s (hbmTouch a n s) := .ite (.refl s) reported_raise.shows

theorem shows_foldl {γ : Type} {op : State → γ → State} (l : List γ) (hop : ∀ s b, Shows π s (op s b)) : Shows π s (l.foldl op s) :=
  foldl_steps Shows.refl Shows.trans l (fun t b _ => hop t b) s

/-- What the rows of a head frame are made of stays, but for what it shows beside them. -/
def headCore (y : Head) : Nat × List (Option PlanePic) × List FlipReq × Nat := (y.frames, y.vids, y.requests, y.flips)

/-- What stays of a head while its pictures change. -/
def headCounts (y : Head) : Nat × List FlipReq × Nat := (y.frames, y.requests, y.flips)

theorem Shows.counts (hst : Shows headCore s t) : Shows headCounts s t := hst.less fun e => (e.1, e.2.2)

/-! ## Fallback (12 R437) -/

theorem shows_markAll : Shows headCore s (markAll h s) := by
  unfold markAll
  split
  · exact .ite (.refl s) (shows_modHead fun _ => rfl)
  · exact .refl s

theorem shows_setFallback : Shows headCore s (setFallback h l s) :=
  .ite (shows_modHead fun _ => rfl) (.after shows_markAll (shows_modHead fun _ => rfl))

theorem shows_fallBackRow : Shows headCore s (fallBackRow h s) :=
  .ite (.refl s) (.after shows_bump (shows_modHead fun _ => rfl))

theorem shows_fallBack : Shows headCore s (fallBack h cause s) :=
  .ite (.refl s) ((shows_setFallback.trans shows_fallBackRow).trans reported_tell.shows)

theorem shows_judgeFallback : Shows headCore s (judgeFallback h s) :=
  .after (shows_modHead fun _ => rfl) (shows_setFallback.trans (shows_foldl _ fun _ _ => shows_fallBack))

/-! ## The end of a head frame (12 R435) -/

theorem shows_emitFrame : Shows headCore s (emitFrame h c f s) :=
  .ite (.ite (shows_emit.trans shows_emit) shows_emit)
    (.trans (.ite (.refl s) shows_emit) (shows_foldl _ fun _ _ => shows_emit))

theorem shows_touchPlanes : Shows headCore s (touchPlanes h s) :=
  (shows_foldl _ fun _ _ => shows_hbmTouch).trans (shows_foldl _ fun _ _ => shows_hbmTouch)

theorem shows_tellRetracted : Shows headCounts s (tellRetracted h k n c s) := by
  unfold tellRetracted
  split
  · dsimp only
    exact .ite (.refl s) (.after reported_tell.shows (shows_modHead fun _ => rfl))
  · exact .refl s

/-- The rows that a panel still lacks stay changed (12 R432). -/
def rowsMarked (h : Nat) (late : List VideoView) (c : HeadCfg) (s : State) : State :=
  if isSdi h then s else modHead h (fun y => { y with
    cells := late.foldl (fun t v => v.lateRows.foldl (fun u r =>
      markCells c.width c.height (v.x, v.y + r, v.cur.width, 1) u) t) y.cells }) s

theorem shows_rowsMarked {late : List VideoView} : Shows headCore s (rowsMarked h late c s) := by
  unfold rowsMarked
  exact .ite (.refl s) (shows_modHead fun _ => rfl)

theorem tellUnderrun_eq {m : Nat} {late : List VideoView} : tellUnderrun h n m late c s =
    if n = 0 then rowsMarked h late c s else raise (496 + 8 * h + 2) (unitEvent 0x6003 0x60 h none
      (h + 2 ^ 16 * min n 65535 + 2 ^ 32 * (m % 2 ^ 32)) (rowsMarked h late c s)) := rfl

theorem shows_tellUnderrun {m : Nat} {late : List VideoView} : Shows headCore s (tellUnderrun h n m late c s) := by
  rw [tellUnderrun_eq]
  exact .ite shows_rowsMarked (shows_rowsMarked.trans reported_tell.shows)

theorem headWork_hbmWrite : HeadWork s (hbmWrite a bs s) := by
  unfold hbmWrite
  split
  · rfl
  · exact (reported_raise.shows (π := id)).work

theorem heads_hbmWrite : (hbmWrite a bs s).heads = s.heads := by
  unfold hbmWrite
  split
  · rfl
  · exact reported_raise.heads

/-- A head whose frame has ended. -/
def frameEnded (y : Head) : Head := { y with flips := (y.flips + 1) % 2 ^ 32, current := none, fbRow := none }

/-- How a head frame ends: what it sent, the flip record, the head, what is told. -/
theorem endHeadFrame_eq (hcur : (head s h).current = some f) (hhead : headIn s.cfg.active h = some c) : ∃ flags verdict under v w,
    Shows headCore s v ∧ Shows headCore (hbmWrite (c.ringBase + (head s h).flips % max 1 c.ringSlots * 32)
      (flipRecord { f with flags := flags } verdict under) v) w ∧ Shows headCounts (modHead h frameEnded w) (endHeadFrame h s) := by
  unfold endHeadFrame
  rw [hcur, hhead]
  dsimp only
  exact ⟨_, _, _, bump (bump (bump (bump (emitFrame h c f s)))), touchPlanes h _,
    .after shows_bump (.after shows_bump (.after shows_bump (.after shows_bump shows_emitFrame))), shows_touchPlanes,
    .after shows_tellUnderrun.counts (.after shows_tellRetracted (.after shows_tellRetracted shows_setFallback.counts))⟩

theorem endHeadFrame_none (hnone : (head s h).current = none ∨ headIn s.cfg.active h = none) :
    endHeadFrame h s = modHead h (fun y => { y with current := none }) s := by
  unfold endHeadFrame
  split
  next hcur hhead => rcases hnone with hnone | hnone <;> simp [hnone] at hcur hhead
  next => rfl

theorem headWork_endHeadFrame : HeadWork s (endHeadFrame h s) ∧ (endHeadFrame h s).heads.length = s.heads.length := by
  cases hcur : (head s h).current with
  | none => rw [endHeadFrame_none (.inl hcur)]; exact ⟨rfl, length_modHead⟩
  | some f =>
    cases hhead : headIn s.cfg.active h with
    | none => rw [endHeadFrame_none (.inr hhead)]; exact ⟨rfl, length_modHead⟩
    | some c =>
      obtain ⟨_, _, _, v, w, hv, hw, ht⟩ := endHeadFrame_eq hcur hhead
      refine ⟨(hv.work.trans headWork_hbmWrite).trans (hw.work.trans (.trans (t := modHead h frameEnded w) rfl ht.work)), ?_⟩
      rw [ht.2.1, length_modHead, hw.2.1, heads_hbmWrite, hv.2.1]

/-! ## What a head takes into use (12 R415) -/

/-- What stays of a head that restarts. -/
def headQueue (y : Head) : List FlipReq × Nat := (y.requests, y.flips)

theorem Shows.queue (hst : Shows headCounts s t) : Shows headQueue s t := hst.less fun e => e.2

theorem shows_restartHead {period : Nat} : Shows headQueue s (restartHead h period s) :=
  .after reported_tell.shows (shows_modHead fun _ => rfl)

theorem shows_restartHalf {before after : Tbl CfgVal} : Shows headQueue s (restartHalf h before after s) := by
  unfold restartHalf
  split
  · exact .refl s
  · split
    · exact .ite (shows_modHead fun _ => rfl) shows_restartHead
    · exact shows_modHead fun _ => rfl

/-- The parameters that a head takes into use. -/
def headKeys (h : Nat) (s : State) (k : Nat) : Bool :=
  keyOp k / 256 == 0x60 && (keyUnit k == h || ((h == 0 && (pairIn s.cfg.active || pairIn s.cfg.committed)) && keyUnit k == 1))

/-- A head takes a configuration into use, and keeps the updates that wait for it and its count of flips. -/
theorem switchHead_facts : HeadWork s (switchHead h s) ∧ (switchHead h s).hbm = s.hbm ∧ HeadsKeep headQueue s (switchHead h s) := by
  have hrest : Shows headQueue (switchKeys (headKeys h s) s) (switchHead h s) := by
    unfold switchHead
    dsimp only
    split
    · exact .after shows_restartHalf (.ite (.after shows_restartHead (shows_modHead fun _ => rfl)) (shows_modHead fun _ => rfl))
    · exact .after shows_restartHalf (shows_modHead fun _ => rfl)
  exact ⟨.trans (t := switchKeys (headKeys h s) s) rfl hrest.work, hrest.hbm, (HeadsKeep.of_heads rfl).trans hrest.2⟩

/-! ## How the next head frame begins (12 R421 to R436) -/

theorem shows_flipPlane : Shows headCounts s (flipPlane h k c s) := by
  unfold flipPlane
  split
  · exact .refl s
  · split
    · exact .refl s
    · exact shows_modHead fun _ => rfl

theorem overlayWrite_facts {ovW : Nat} {r : Nat × Nat × Nat × Nat} {data : List Byte} :
    HeadWork s (overlayWrite a ovW r data s) ∧ (overlayWrite a ovW r data s).heads = s.heads :=
  ⟨foldl_steps HeadWork.refl HeadWork.trans _ (fun _ _ _ => headWork_hbmWrite) s,
    foldl_leaves (p := State.heads) (fun _ _ => heads_hbmWrite) _ s⟩

theorem applyOverlay_facts : HeadWork s (applyOverlay h c q s) ∧ HeadsKeep headCore s (applyOverlay h c q s) := by
  unfold applyOverlay
  split
  · exact ⟨.refl s, .of_heads rfl⟩
  · dsimp only
    refine ⟨.trans (overlayWrite_facts.1.trans overlayWrite_facts.1) (.trans (t := modHead h _ _) rfl (.refl _)), ?_⟩
    exact .trans (.of_heads (overlayWrite_facts.2.trans overlayWrite_facts.2)) (headsKeep_modHead fun _ => rfl)

theorem shows_applyPalette : Shows headCore s (applyPalette h c q s) := shows_modHead fun _ => rfl

theorem shows_answerFlip : Shows headCore s (answerFlip h t' q s) := by
  unfold answerFlip
  split
  · exact .ite shows_complete (.after shows_complete reported_raise.shows)
  · exact .refl s

/-- From `s` to `t` updates were applied: every head keeps what they do not touch. -/
def Updated (s t : State) : Prop := HeadWork s t ∧ HeadsKeep headCore s t

theorem Updated.refl (s : State) : Updated s s := ⟨.refl s, .of_heads rfl⟩

theorem Updated.trans (hst : Updated s t) (htu : Updated t u) : Updated s u := ⟨hst.1.trans htu.1, hst.2.trans htu.2⟩

theorem Shows.updated (hst : Shows headCore s t) : Updated s t := ⟨hst.work, hst.2⟩

theorem updated_applyRequest : Updated s (applyRequest h c t' q s) := by
  unfold applyRequest
  split
  · exact .trans applyOverlay_facts shows_answerFlip.updated
  · exact .trans shows_applyPalette.updated shows_answerFlip.updated
  · exact shows_answerFlip.updated

/-- A head without the updates that are due. -/
def withoutDue (due : List FlipReq) (y : Head) : Head := { y with requests := y.requests.filter fun q => !due.contains q }

theorem updated_applyRequests {due : List FlipReq} : Updated (modHead h (withoutDue due) s) (applyRequests h c t' due s) :=
  foldl_steps Updated.refl Updated.trans _ (fun _ _ _ => updated_applyRequest) _

theorem shows_pushFrame {packets : Bool} : Shows headCore s (pushFrame h c packets s).1 := by
  unfold pushFrame
  split
  · exact .refl s
  · exact shows_modHead fun _ => rfl

/-- The updates that are not due wait on. -/
theorem filter_not_contains (p : FlipReq → Bool) (l : List FlipReq) :
    (l.filter fun q => !(l.filter p).contains q) = l.filter fun q => !p q := by
  refine List.filter_congr fun q hq => ?_
  simp [List.mem_filter, hq]

/-- The head with its next count. -/
def frameBegun (h : Nat) (c : HeadCfg) (s : State) : State :=
  modHead h (fun y => { y with frames := y.frames + 1, lastStart := frameGrid s h c })
    (judgeFallback h (if h = 0 ∧ c.lock then judgeFallback 1 s else s))

/-- The head with the pictures of its planes. -/
def picturesTaken (h : Nat) (c : HeadCfg) (s : State) : State :=
  if safeOf s (myUnit s 0x60 h) = 2 then frameBegun h c s else flipPlane h 1 c (flipPlane h 0 c (frameBegun h c s))

/-- The updates that are due at a flip point. -/
def updatesDue (h : Nat) (s : State) : List FlipReq := (head s h).requests.filter (flipDue (nowNs s))

/-- A head with its updates applied, and what it pushes taken. -/
def updatesApplied (h : Nat) (c : HeadCfg) (t' : Time) (packets : Bool) (s : State) : State :=
  (pushFrame h c packets (bump (applyRequests h c t' (updatesDue h s) s))).1

theorem beginHeadFrame_eq : ∃ t' packets f, let w := updatesApplied h c t' packets (picturesTaken h c s)
    beginHeadFrame h c s = raise (496 + 8 * h) (modHead h (fun y => { y with current := some f }) w) ∧
      f.frame = (head w h).frames % 2 ^ 32 ∧ f.v0 = (((head (picturesTaken h c s) h).vids.getD 0 none).map (·.serial)).getD 0 ∧
      f.v1 = (((head (picturesTaken h c s) h).vids.getD 1 none).map (·.serial)).getD 0 := ⟨_, _, _, rfl, rfl, rfl, rfl⟩

theorem judged_shows : Shows headCore s (judgeFallback h (if h = 0 ∧ c.lock then judgeFallback 1 s else s)) :=
  .after shows_judgeFallback (.ite shows_judgeFallback (.refl s))

theorem frameBegun_facts (hh : h < s.heads.length) : Shows headQueue s (frameBegun h c s) ∧
    (head (frameBegun h c s) h).frames = (head s h).frames + 1 := by
  have hj : Shows headCore s (judgeFallback h (if h = 0 ∧ c.lock then judgeFallback 1 s else s)) := judged_shows
  refine ⟨.after (shows_modHead fun _ => rfl) hj.counts.queue, ?_⟩
  have hframes := congrArg Prod.fst (hj.2.2 h)
  unfold frameBegun
  rw [head_modHead (hj.2.1 ▸ hh)]
  exact congrArg (· + 1) hframes

theorem picturesTaken_facts (hh : h < s.heads.length) : Shows headQueue s (picturesTaken h c s) ∧
    (head (picturesTaken h c s) h).frames = (head s h).frames + 1 := by
  obtain ⟨hbegun, hframes⟩ := frameBegun_facts (c := c) hh
  have hplanes : Shows headCounts (frameBegun h c s) (picturesTaken h c s) := .ite (.refl _) (.after shows_flipPlane shows_flipPlane)
  exact ⟨hbegun.trans hplanes.queue, (congrArg Prod.fst (hplanes.2.2 h)).trans hframes⟩

/-- What waits for a flip point is applied: the head keeps its count and its pictures, and the updates that are not due. -/
theorem updatesApplied_facts {packets : Bool} (hh : h < s.heads.length) : let w := updatesApplied h c t' packets s
    HeadWork s w ∧ w.heads.length = s.heads.length ∧ (head w h).frames = (head s h).frames ∧ (head w h).vids = (head s h).vids ∧
      (head w h).requests = (head s h).requests.filter (fun q => !flipDue (nowNs s) q) ∧ (head w h).flips = (head s h).flips ∧
      ((head s h).requests = [] → w.hbm = s.hbm) := by
  have hwithout : HeadWork s (modHead h (withoutDue (updatesDue h s)) s) := rfl
  obtain ⟨hwork, hkeep⟩ : Updated (modHead h (withoutDue (updatesDue h s)) s) (updatesApplied h c t' packets s) :=
    updated_applyRequests.trans (Shows.updated (.after shows_pushFrame shows_bump))
  have hcore := hkeep.2 h
  rw [head_modHead hh] at hcore
  simp only [headCore, withoutDue, Prod.mk.injEq] at hcore
  obtain ⟨hframes, hvids, hrequests, hflips⟩ := hcore
  refine ⟨hwithout.trans hwork, hkeep.1.trans length_modHead, hframes, hvids, hrequests.trans (filter_not_contains _ _), hflips,
    fun hnone => ?_⟩
  have hpush : Shows headCore (applyRequests h c t' (updatesDue h s) s) (updatesApplied h c t' packets s) :=
    .after shows_pushFrame shows_bump
  rw [hpush.hbm]
  unfold updatesDue
  rw [hnone]
  rfl

/-- How a head frame begins (12 R421 to R436). -/
theorem beginHeadFrame_facts (hh : h < s.heads.length) : ∃ w f,
    beginHeadFrame h c s = raise (496 + 8 * h) (modHead h (fun y => { y with current := some f }) w) ∧ HeadWork s w ∧
      w.heads.length = s.heads.length ∧ (head w h).frames = (head s h).frames + 1 ∧ f.frame = ((head s h).frames + 1) % 2 ^ 32 ∧
      f.v0 = (((head w h).vids.getD 0 none).map (·.serial)).getD 0 ∧
      f.v1 = (((head w h).vids.getD 1 none).map (·.serial)).getD 0 ∧
      (head w h).requests = (head s h).requests.filter (fun q => !flipDue (nowNs s) q) ∧ (head w h).flips = (head s h).flips ∧
      ((head s h).requests = [] → w.hbm = s.hbm) := by
  obtain ⟨t', packets, f, heq, hframe, hv0, hv1⟩ := beginHeadFrame_eq (h := h) (c := c) (s := s)
  obtain ⟨htaken, hcount⟩ := picturesTaken_facts (c := c) hh
  obtain ⟨hwork, hlen, hframes, hvids, hrequests, hflips, hhbm⟩ :=
    updatesApplied_facts (c := c) (t' := t') (packets := packets) (htaken.2.1 ▸ hh)
  have hqueue := htaken.2.2 h
  simp only [headQueue, Prod.mk.injEq] at hqueue
  obtain ⟨hreq, hfl⟩ := hqueue
  have hnow : nowNs (picturesTaken h c s) = nowNs s := by rw [htaken.1]; rfl
  rw [hreq, hnow] at hrequests
  exact ⟨_, f, heq, htaken.work.trans hwork, hlen.trans htaken.2.1, hframes.trans hcount, by rw [hframe, hframes, hcount],
    by rw [hv0, hvids], by rw [hv1, hvids], hrequests, hflips.trans hfl, fun hnone => (hhbm (hreq.trans hnone)).trans htaken.hbm⟩

/-! ## The flip point -/

theorem exec_flipPoint (hclk : enginesClocked s = true) (hh : h < 4) (hdue : frameDue s h = true) :
    exec (.flipPoint h) s = .next (let s1 := switchHead h (endHeadFrame h s)
      if h = 1 ∧ pairIn s1.cfg.active then s1
      else match headIn s1.cfg.active h with
        | some c => beginHeadFrame h c s1
        | none => s1) :=
  congrArg Host.Outcome.next (if_neg (by simp [hclk, hdue]; omega))

/-- A flip point ends at what the head has taken into use, or begins a head frame from there. -/
theorem flipPoint_cases (hclk : enginesClocked s = true) (hh : h < 4) (hdue : frameDue s h = true) : ∃ t,
    exec (.flipPoint h) s = .next t ∧
      (t = switchHead h (endHeadFrame h s) ∨ ∃ c, t = beginHeadFrame h c (switchHead h (endHeadFrame h s))) := by
  refine ⟨_, exec_flipPoint hclk hh hdue, ?_⟩
  dsimp only
  split
  · exact .inl rfl
  · split
    · exact .inr ⟨_, rfl⟩
    · exact .inl rfl

theorem read_eq_take {m : Mem} : ∀ {n a : Nat}, Mem.read m a n = (Mem.read m a (n + k)).take n
  | 0, _ => by simp [Mem.read]
  | n + 1, a => by
    rw [Nat.add_right_comm, Mem.read, Mem.read, List.take_succ_cons, ← read_eq_take]

theorem length_flipRecord {verdict under : Nat} : (flipRecord f verdict under).length = 32 := by
  simp [flipRecord, timeBytes, length_leBytes]

theorem read_flipRecord {verdict under : Nat} (hwf : Mem.wf s.hbm = true) :
    Mem.read (Mem.writes s.hbm a (flipRecord f verdict under)) a 18 =
      leBytes 4 f.frame ++ leBytes 2 f.v0 ++ leBytes 2 f.v1 ++ timeBytes f.time := by
  have hall := Mem.read_writes (bs := flipRecord f verdict under) (a := a) hwf
  rw [length_flipRecord] at hall
  have hsplit : flipRecord f verdict under = (leBytes 4 f.frame ++ leBytes 2 f.v0 ++ leBytes 2 f.v1 ++ timeBytes f.time) ++
      (leBytes 2 verdict ++ leBytes 2 f.flags ++ leBytes 2 (min under 65535) ++ leBytes 4 f.push ++ leBytes 4 0) := by
    simp only [flipRecord, List.append_assoc]
  rw [read_eq_take (k := 14), hall, hsplit]
  exact List.take_left' (by simp [timeBytes, length_leBytes])

/-- The end of a head frame writes its flip record, and counts the flip. -/
theorem endHeadFrame_facts (hh : h < s.heads.length) (hcur : (head s h).current = some f) (hhead : headIn s.cfg.active h = some c)
    (hend : c.ringBase + (head s h).flips % max 1 c.ringSlots * 32 + 32 ≤ Config.hbmEnd) : ∃ flags verdict under,
    (endHeadFrame h s).hbm = Mem.writes s.hbm (c.ringBase + (head s h).flips % max 1 c.ringSlots * 32)
      (flipRecord { f with flags := flags } verdict under) ∧ (endHeadFrame h s).heads.length = s.heads.length ∧
    (head (endHeadFrame h s) h).requests = (head s h).requests ∧
    (head (endHeadFrame h s) h).flips = ((head s h).flips + 1) % 2 ^ 32 := by
  obtain ⟨flags, verdict, under, v, w, hv, hw, ht⟩ := endHeadFrame_eq hcur hhead
  have hkeep : HeadsKeep headCore s w := hv.2.trans (.trans (.of_heads heads_hbmWrite) hw.2)
  have hcounts := ht.2.2 h
  rw [head_modHead (hkeep.1 ▸ hh)] at hcounts
  have hcore := hkeep.2 h
  simp only [headCounts, headCore, frameEnded, Prod.mk.injEq] at hcounts hcore
  obtain ⟨-, hrequests, hflips⟩ := hcounts
  obtain ⟨-, -, hrequests', hflips'⟩ := hcore
  refine ⟨flags, verdict, under, ?_, ht.2.1.trans (length_modHead.trans hkeep.1), hrequests.trans hrequests',
    by rw [hflips, hflips']⟩
  rw [ht.hbm]
  show w.hbm = _
  rw [hw.hbm, hbmWrite_hbm, length_flipRecord, if_pos hend, hv.hbm]

end

/-! ## The obligation -/

/-- Settles O43: the end of a head frame, what the head takes into use, and the beginning of the next, each by its facts. -/
theorem flipPointBeginsHeadFrame : Obligations.FlipPointBeginsHeadFrame := by
  intro h s hclk hh hlen
  dsimp only
  have hused : HeadWork s (switchHead h (endHeadFrame h s)) := headWork_endHeadFrame.1.trans switchHead_facts.1
  refine ⟨fun hnot => ?notDue, fun c hdue hpair hhead => ?begins, fun f c hdue hcur hhead hreq hwf hend => ?ends⟩
  case notDue => exact congrArg Host.Outcome.next (if_pos (by simp [hnot]))
  case begins =>
    have hlen1 : h < (switchHead h (endHeadFrame h s)).heads.length := by
      rw [switchHead_facts.2.2.1, headWork_endHeadFrame.2]
      omega
    obtain ⟨w, f, heq, hwork, hlenw, hframes, hframe, hv0, hv1, hrequests, -, -⟩ := beginHeadFrame_facts (c := c) hlen1
    have hexec := exec_flipPoint hclk hh hdue
    dsimp only at hexec
    rw [if_neg (fun hp => by simp [hpair hp.1] at hp), hhead] at hexec
    dsimp only at hexec
    rw [heq] at hexec
    refine ⟨_, f, hexec, ?_⟩
    generalize hu : modHead h (fun y => { y with current := some f }) w = u
    have hwu : HeadWork w u := by rw [← hu]; rfl
    have hheads : head (raise (496 + 8 * h) u) h = { head w h with current := some f } := by
      rw [head_of_heads reported_raise.heads, ← hu, head_modHead (hlenw ▸ hlen1)]
    refine ⟨((hused.trans hwork).trans hwu).trans (reported_raise.shows (π := id)).work, by rw [hheads], by rw [hheads]; exact hframes,
      hframe, by rw [hheads]; exact hv0, by rw [hheads]; exact hv1, by rw [hheads]; exact hrequests, fun hon hlead => ?_⟩
    obtain ⟨hleads, -⟩ := HeadWork.tells (n := 0) ((hused.trans hwork).trans hwu)
    obtain ⟨-, hroute⟩ := HeadWork.tells (n := 496 + 8 * h) (hwork.trans hwu)
    rw [isPending_raise (hleads.trans hlead) (by omega), hroute, hon]
    simp
  case ends =>
    obtain ⟨flags, verdict, under, hhbm, hlen', hreq', hflips⟩ := endHeadFrame_facts (by omega) hcur hhead hend
    obtain ⟨hwork, hsame, hqueue⟩ := switchHead_facts (h := h) (s := endHeadFrame h s)
    obtain ⟨t, hexec, ht⟩ := flipPoint_cases hclk hh hdue
    obtain ⟨hreq1, hflips1⟩ := Prod.mk.inj (hqueue.2 h)
    obtain ⟨htwork, htflips, hthbm⟩ : HeadWork (switchHead h (endHeadFrame h s)) t ∧
        (head t h).flips = (head (switchHead h (endHeadFrame h s)) h).flips ∧
        t.hbm = (switchHead h (endHeadFrame h s)).hbm := by
      obtain rfl | ⟨c', rfl⟩ := ht
      · exact ⟨.refl _, rfl, rfl⟩
      · obtain ⟨w, f', heq, hw, hlenw, -, -, -, -, -, hflw, hhbmw⟩ := beginHeadFrame_facts (h := h) (c := c')
          (s := switchHead h (endHeadFrame h s)) (by rw [hqueue.1, hlen']; omega)
        have htold : Shows headQueue w (beginHeadFrame h c' (switchHead h (endHeadFrame h s))) := by
          rw [heq]
          exact .after reported_raise.shows (shows_modHead fun _ => rfl)
        exact ⟨hw.trans htold.work, (Prod.mk.inj (htold.2.2 h)).2.trans hflw,
          htold.hbm.trans (hhbmw (hreq1.trans (hreq'.trans hreq)))⟩
    refine ⟨t, hexec, hused.trans htwork, htflips.trans (hflips1.trans hflips), ?_⟩
    rw [hbmRead, hthbm, hsame, hhbm]
    exact read_flipRecord hwf

end Sys2Proof.Machine
end

section
/-! Motion feedback: samples of the axes (16 R528-R541). -/
namespace Sys2Proof.Machine

open Sys2Proof

section

variable {α : Type} {a j k n : Nat} {g : Axis → Axis} {i : MotInput} {b : List Byte} {x : Axis} {p : Nat → Bool} {s t u : State}

/-! ## What a switch takes into use (02 R69) -/

/-- A table with another one laid over it: the other's values first. -/
theorem find?_foldl_set : ∀ {m : Tbl α} {k : Tbl α} {b : Nat}, Tbl.above b m = true →
    Tbl.find? (m.foldl (fun t e => Tbl.set t e.1 e.2) k) n = (Tbl.find? m n).or (Tbl.find? k n)
  | [], _, _, _ => by simp [Tbl.find?]
  | (j, w) :: m, k, b, h => by
    simp only [Tbl.above, Bool.and_eq_true] at h
    rw [List.foldl_cons, find?_foldl_set h.2]
    by_cases hj : j = n
    · subst hj
      simp [Tbl.find?, Tbl.find?_lt h.2 (Nat.lt_succ_self j), Tbl.find?_set]
    · simp [Tbl.find?, hj, Tbl.find?_set_ne (Ne.symm hj)]

theorem find?_switchKeys (hwf : Tbl.wf s.cfg.committed = true) : Tbl.find? (switchKeys p s).cfg.active n =
    if p n then Tbl.find? s.cfg.committed n else Tbl.find? s.cfg.active n := by
  show Tbl.find? (List.foldl _ (s.cfg.active.filter fun e => !p e.1) (s.cfg.committed.filter fun e => p e.1)) n = _
  rw [find?_foldl_set (Tbl.above_filter hwf), find?_filter_key, find?_filter_key (q := fun e => !p e)]
  cases p n <;> simp

/-- The parameters of an axis. -/
def axisKey (a k : Nat) : Bool := k == cfgKey 0x9001 a 0 || k == cfgKey 0x9002 a 0

/-- The committed and the used configuration of a state hold the same blocks of an axis, and the committed one is in canonical
form. -/
structure AxisSettled (a : Nat) (s : State) : Prop where
  wf : Tbl.wf s.cfg.committed = true
  mot : motBlk s.cfg.committed a = motBlk s.cfg.active a
  obs : obsBlk s.cfg.committed a = obsBlk s.cfg.active a

/-- From `s` to `t` the blocks of an axis are the same. -/
def AxisCfgKept (a : Nat) (s t : State) : Prop :=
  t.cfg.committed = s.cfg.committed ∧ motBlk t.cfg.active a = motBlk s.cfg.active a ∧ obsBlk t.cfg.active a = obsBlk s.cfg.active a

theorem AxisCfgKept.refl (s : State) : AxisCfgKept a s s := ⟨rfl, rfl, rfl⟩

theorem AxisCfgKept.trans (h : AxisCfgKept a s t) (h' : AxisCfgKept a t u) : AxisCfgKept a s u :=
  ⟨h'.1.trans h.1, h'.2.1.trans h.2.1, h'.2.2.trans h.2.2⟩

theorem AxisCfgKept.settled (h : AxisCfgKept a s t) (hs : AxisSettled a s) : AxisSettled a t where
  wf := by rw [h.1]; exact hs.wf
  mot := by rw [h.1, h.2.1]; exact hs.mot
  obs := by rw [h.1, h.2.2]; exact hs.obs

theorem AxisCfgKept.observes (h : AxisCfgKept a s t) : observes t.cfg.active a = observes s.cfg.active a := by
  unfold Machine.observes motType
  rw [h.2.1, h.2.2]

/-- Another axis's switch leaves the blocks of an axis. -/
theorem axisCfgKept_switch_ne (hwf : Tbl.wf s.cfg.committed = true) (hj : j ≠ a) (hja : j < 4) (ha : a < 4) :
    AxisCfgKept a s (switchKeys (axisKey j) s) := by
  have hmot : axisKey j (cfgKey 0x9001 a 0) = false := by simp [axisKey, cfgKey]; omega
  have hobs : axisKey j (cfgKey 0x9002 a 0) = false := by simp [axisKey, cfgKey]; omega
  refine ⟨rfl, ?_, ?_⟩
  · unfold motBlk blkIn
    rw [find?_switchKeys hwf, hmot]
    rfl
  · unfold obsBlk blkIn
    rw [find?_switchKeys hwf, hobs]
    rfl

/-- The switch of an axis whose blocks are in use already changes none of them. -/
theorem axisCfgKept_switch (hs : AxisSettled a s) : AxisCfgKept a s (switchKeys (axisKey a) s) := by
  have hmot : axisKey a (cfgKey 0x9001 a 0) = true := by simp [axisKey]
  have hobs : axisKey a (cfgKey 0x9002 a 0) = true := by simp [axisKey]
  refine ⟨rfl, Eq.trans ?_ hs.mot, Eq.trans ?_ hs.obs⟩
  · unfold motBlk blkIn
    rw [find?_switchKeys hs.wf, hmot]
    rfl
  · unfold obsBlk blkIn
    rw [find?_switchKeys hs.wf, hobs]
    rfl

theorem switchAxis_settled (hs : AxisSettled a s) : switchAxis a s = switchKeys (axisKey a) s := by
  obtain ⟨-, hmot, hobs⟩ := axisCfgKept_switch hs
  unfold switchAxis
  dsimp only
  have hmine : (switchKeys (fun k => k == cfgKey 0x9001 a 0 || k == cfgKey 0x9002 a 0) s) = switchKeys (axisKey a) s := rfl
  rw [hmine, hmot, hobs, if_neg (by simp [axisRestarts]), if_neg (by simp)]

/-! ## What a sample of an axis moves -/

/-- From `s` to `t` one axis may have moved, and events and sources have told of it. -/
def AxisMoved (a : Nat) (s t : State) : Prop :=
  t = { reported s t with axes := t.axes, freeCtr := t.freeCtr } ∧ t.axes.length = s.axes.length ∧ ∀ j, j ≠ a → axis t j = axis s j

theorem AxisMoved.refl (s : State) : AxisMoved a s s := ⟨rfl, rfl, fun _ _ => rfl⟩

theorem AxisMoved.trans (h : AxisMoved a s t) (h' : AxisMoved a t u) : AxisMoved a s u := by
  obtain ⟨hst, hlen, hrest⟩ := h
  obtain ⟨htu, hlen', hrest'⟩ := h'
  refine ⟨?_, hlen'.trans hlen, fun j hj => (hrest' j hj).trans (hrest j hj)⟩
  rw [htu, hst]
  rfl

theorem AxisMoved.ite {c : Prop} [Decidable c] (ht : AxisMoved a s t) (hu : AxisMoved a s u) :
    AxisMoved a s (if c then t else u) := by
  split
  · exact ht
  · exact hu

theorem Reported.axes (h : Reported s t) : t.axes = s.axes := by
  unfold Reported at h
  rw [h]
  rfl

theorem axis_of_axes (h : t.axes = s.axes) : axis t j = axis s j := by
  unfold axis
  rw [h]

theorem Reported.axisMoved (h : Reported s t) : AxisMoved a s t := by
  refine ⟨?_, by rw [h.axes], fun _ _ => axis_of_axes h.axes⟩
  unfold Reported at h
  rw [h]
  rfl

theorem axisMoved_modAxis : AxisMoved a s (modAxis a g s) :=
  ⟨rfl, by simp [modAxis], fun _ hj => axis_modAxis_ne hj⟩

theorem axisMoved_bump : AxisMoved a s (bump s) := ⟨rfl, rfl, fun _ _ => rfl⟩

theorem reported_motSource : Reported s (motSource a n s) := reported_raise

theorem reported_sampleSources {x z : Axis} {faulty : Bool} : Reported s (sampleSources a x z faulty s) := by
  have hstill : Reported s (if x.still && !z.still then motSource a 4 s else s) := .ite reported_motSource (.refl s)
  exact .ite (hstill.trans reported_motSource) hstill

/-- What an axis takes of a sample. -/
def axisTaken (a : Nat) (i : MotInput) (x : Axis) (s : State) : Axis :=
  let b := motBlk s.cfg.active a
  if fieldAt b 0 1 = 1 then
    let y := if x.illegal.isSome then { x with goodRun := 0 } else { x with goodRun := x.goodRun + 1 }
    if staysBroken y then y else hallSample b (obsBlk s.cfg.active a) (observes s.cfg.active a) y
  else if fieldAt b 0 1 = 2 then sinSample b (ampBad b i) (angleCode s i) x
  else ssiSample b i x

/-- An axis that samples: an SSI axis counts its instants anew. -/
def axisTurned (b : List Byte) (x : Axis) : Axis := if fieldAt b 0 1 = 3 then { x with wait := fieldAt b 0xE 1 - 1 } else x

theorem axisMoved_switchAxis : AxisMoved a (switchKeys (axisKey a) s) (switchAxis a s) :=
  .ite axisMoved_modAxis (.ite axisMoved_modAxis (.refl _))

theorem axisMoved_sampleAxis : AxisMoved a (switchAxis a s) (sampleAxis a i s) := by
  unfold sampleAxis
  dsimp only
  refine .ite (.refl _) (.ite axisMoved_modAxis (.trans ?_ reported_sampleSources.axisMoved))
  have htaken (z : Axis) {c : Prop} [Decidable c] (v : State) : AxisMoved a v (modAxis a (fun _ => z) (if c then bump v else v)) :=
    .trans (.ite axisMoved_bump (.refl v)) axisMoved_modAxis
  exact .ite (.trans (htaken ..) axisMoved_modAxis) (htaken ..)

theorem sampleAxis_none (htyp : fieldAt (motBlk (switchAxis a s).cfg.active a) 0 1 = 0) : sampleAxis a i s = switchAxis a s :=
  if_pos htyp

theorem sampleAxis_waits (htyp : fieldAt (motBlk (switchAxis a s).cfg.active a) 0 1 = 3) (hwait : (axis (switchAxis a s) a).wait ≠ 0) :
    sampleAxis a i s = modAxis a (fun _ => { axis (switchAxis a s) a with wait := (axis (switchAxis a s) a).wait - 1 })
      (switchAxis a s) := by
  unfold sampleAxis
  generalize switchAxis a s = v at *
  simp only [htyp, ssiTurn, hwait, if_true, if_false, Bool.not_false, OfNat.ofNat_ne_zero]

/-- Whose turn it is, an axis samples. -/
theorem turn_eq (hturn : fieldAt b 0 1 = 3 → x.wait = 0) :
    (if fieldAt b 0 1 = 3 then ssiTurn b x else (true, x)) = (true, axisTurned b x) := by
  unfold axisTurned
  split
  next h => exact if_pos (hturn h)
  next => rfl

/-- What a sample tells leaves the axis, but for its last good lens value. -/
theorem axis_told {z w : Axis} {f good : Bool} (ha : a < s.axes.length) : ∃ gl, axis (sampleSources a w z f
    (if good then modAxis a (fun w => { w with goodLens := some w.lens }) s else s)) a = { axis s a with goodLens := gl } := by
  rw [axis_of_axes reported_sampleSources.axes]
  split
  · exact ⟨_, axis_modAxis ha⟩
  · exact ⟨_, rfl⟩

/-- What an axis takes of a sample, with its lens value and the time of the sample. -/
def axisStamped (a : Nat) (i : MotInput) (x : Axis) (s : State) : Axis :=
  { axisTaken a i x s with lens := lensOf (motBlk s.cfg.active a) (axisTaken a i x s).p, stamp := timeNs (stampTime s (50 + a) 0) }

/-- The axis with its sample, and one free value more drawn where the angle has one. -/
def axisWritten (a : Nat) (z : Axis) (s : State) : State :=
  modAxis a (fun _ => z) (if fieldAt (motBlk s.cfg.active a) 0 1 = 2 then bump s else s)

theorem sampleAxis_takes (htyp : fieldAt (motBlk (switchAxis a s).cfg.active a) 0 1 ≠ 0)
    (hturn : fieldAt (motBlk (switchAxis a s).cfg.active a) 0 1 = 3 → (axis (switchAxis a s) a).wait = 0) : ∃ (x z : Axis) (f good : Bool),
    z = axisStamped a i x (switchAxis a s) ∧ x = axisTurned (motBlk (switchAxis a s).cfg.active a) (axis (switchAxis a s) a) ∧
    sampleAxis a i s = sampleSources a x z f (if good then modAxis a (fun w => { w with goodLens := some w.lens })
      (axisWritten a z (switchAxis a s)) else axisWritten a z (switchAxis a s)) := by
  unfold sampleAxis
  generalize switchAxis a s = v at *
  dsimp only
  rw [turn_eq hturn, if_neg htyp, if_neg (by simp)]
  exact ⟨_, _, _, _, rfl, rfl, rfl⟩

theorem axis_sampleAxis (htyp : fieldAt (motBlk (switchAxis a s).cfg.active a) 0 1 ≠ 0)
    (hturn : fieldAt (motBlk (switchAxis a s).cfg.active a) 0 1 = 3 → (axis (switchAxis a s) a).wait = 0)
    (ha : a < (switchAxis a s).axes.length) : ∃ lens stamp gl, axis (sampleAxis a i s) a =
      { axisTaken a i (axisTurned (motBlk (switchAxis a s).cfg.active a) (axis (switchAxis a s) a)) (switchAxis a s) with
        lens := lens, stamp := stamp, goodLens := gl } := by
  obtain ⟨x, z, f, good, rfl, rfl, heq⟩ := sampleAxis_takes (i := i) htyp hturn
  rw [heq]
  generalize switchAxis a s = v at *
  have hlen : a < (if fieldAt (motBlk v.cfg.active a) 0 1 = 2 then bump v else v).axes.length := by split <;> exact ha
  obtain ⟨gl, hgl⟩ := axis_told (a := a) (f := f) (good := good) (w := axisTurned (motBlk v.cfg.active a) (axis v a))
    (z := axisStamped a i (axisTurned (motBlk v.cfg.active a) (axis v a)) v)
    (s := axisWritten a (axisStamped a i (axisTurned (motBlk v.cfg.active a) (axis v a)) v) v) (by simpa [axisWritten, modAxis] using hlen)
  rw [hgl, axisWritten, axis_modAxis hlen]
  exact ⟨_, _, gl, rfl⟩

/-! ## The samples of one instant -/

/-- A fold passes through the operation of each of its elements; those of the others come before and after it. -/
theorem foldl_passes {β : Type} {op : State → β → State} {R : State → State → Prop} (hrefl : ∀ s, R s s)
    (htrans : ∀ {s t u}, R s t → R t u → R s u) {l : List β} {e : β} (hnodup : l.Nodup) (he : e ∈ l)
    (hop : ∀ s, ∀ c ∈ l, c ≠ e → R s (op s c)) (s : State) : ∃ u, R s u ∧ R (op u e) (l.foldl op s) := by
  obtain ⟨l1, l2, rfl⟩ := List.append_of_mem he
  obtain ⟨-, hcons, hdisjoint⟩ := List.nodup_append.mp hnodup
  have hrest := (List.nodup_cons.mp hcons).1
  refine ⟨l1.foldl op s, foldl_steps hrefl htrans l1 (fun t c hc => hop t c (by simp [hc]) (hdisjoint c hc e (by simp))) s, ?_⟩
  rw [List.foldl_append, List.foldl_cons]
  exact foldl_steps hrefl htrans l2 (fun t c hc => hop t c (by simp [hc]) (fun h => hrest (h ▸ hc))) _

/-- From `s` to `t` axes may have sampled. -/
def Sampled (s t : State) : Prop :=
  t = { reported s t with axes := t.axes, freeCtr := t.freeCtr, cfg := { s.cfg with active := t.cfg.active } }

theorem Sampled.refl (s : State) : Sampled s s := rfl

theorem Sampled.trans (h : Sampled s t) (h' : Sampled t u) : Sampled s u := by
  unfold Sampled at *
  rw [h', h]
  rfl

theorem AxisMoved.sampled (h : AxisMoved a s t) : Sampled s t := by
  obtain ⟨h, -⟩ := h
  unfold Sampled
  rw [h]
  rfl

theorem AxisMoved.cfg (h : AxisMoved a s t) : t.cfg = s.cfg := by
  obtain ⟨h, -⟩ := h
  rw [h]
  rfl

/-- A sample of an axis, from its switch on. -/
theorem axisMoved_sample : AxisMoved a (switchKeys (axisKey a) s) (sampleAxis a i s) := axisMoved_switchAxis.trans axisMoved_sampleAxis

/-- From `s` to `t` other axes than `a` have sampled. -/
structure Beside (a : Nat) (s t : State) : Prop where
  sampled : Sampled s t
  length : t.axes.length = s.axes.length
  axis : axis t a = axis s a
  kept : AxisSettled a s → AxisCfgKept a s t

theorem Beside.refl (s : State) : Beside a s s := ⟨.refl s, rfl, rfl, fun _ => .refl s⟩

theorem Beside.trans (h : Beside a s t) (h' : Beside a t u) : Beside a s u where
  sampled := h.sampled.trans h'.sampled
  length := h'.length.trans h.length
  axis := h'.axis.trans h.axis
  kept := fun hs => (h.kept hs).trans (h'.kept ((h.kept hs).settled hs))

theorem beside_sampleAxis (hj : j ≠ a) (hj4 : j < 4) (ha4 : a < 4) : Beside a s (sampleAxis j i s) := by
  obtain h := axisMoved_sample (a := j) (i := i) (s := s)
  refine ⟨.trans (t := switchKeys (axisKey j) s) rfl h.sampled, h.2.1, h.2.2 a hj.symm, fun hs => ?_⟩
  obtain ⟨hcom, hmot, hobs⟩ := axisCfgKept_switch_ne hs.wf hj hj4 ha4
  unfold AxisCfgKept
  rw [h.cfg]
  exact ⟨hcom, hmot, hobs⟩

theorem exec_motionSample {inputs : List MotInput} (hclk : enginesClocked s = true) : exec (.motionSample inputs) s =
    .next ((List.range 4).foldl (fun t a => sampleAxis a (inputs.getD a ⟨0, 0, false, 0, false⟩) t) s) :=
  congrArg Host.Outcome.next (if_pos hclk)

/-- Of the samples of one instant, that of an axis is the only one that moves it. -/
theorem motionSample_passes {inputs : List MotInput} (hclk : enginesClocked s = true) (ha : a < 4) (hi : inputs[a]? = some i) :
    ∃ t u, exec (.motionSample inputs) s = .next t ∧ Sampled s t ∧ Beside a s u ∧ axis t a = axis (sampleAxis a i u) a := by
  obtain ⟨u, hbefore, hafter⟩ := foldl_passes (op := fun t a => sampleAxis a (inputs.getD a ⟨0, 0, false, 0, false⟩) t)
    (R := Beside a) Beside.refl Beside.trans (List.nodup_range (n := 4)) (List.mem_range.mpr ha)
    (fun t j hj hne => beside_sampleAxis hne (List.mem_range.mp hj) ha) s
  have hin : inputs.getD a ⟨0, 0, false, 0, false⟩ = i := by rw [List.getD_eq_getElem?_getD, hi]; rfl
  rw [hin] at hafter
  have hown : Sampled u (sampleAxis a i u) := .trans (t := switchKeys (axisKey a) u) rfl axisMoved_sample.sampled
  exact ⟨_, u, exec_motionSample hclk, (hbefore.sampled.trans hown).trans hafter.sampled, hbefore, hafter.axis⟩

/-! ## What each type of axis takes -/

theorem sinSample_good {code : Nat} (hbroken : x.broken = false) : sinSample b false code x =
    tracked b (toAngle code { runs false x with overspeed := x.overspeed || overspeedNow false code x }) := by
  have hstays : staysBroken (runs false x) = false := by simp [staysBroken, runs, hbroken]
  simp [sinSample, hstays, hbroken]

theorem ssiSample_good (hgood : ssiBad b i = false) (hbroken : x.broken = false) : ssiSample b i x =
    tracked b { runs false x with p := wrapP (x.offset + ssiValue (bit (fieldAt b 1 1) 1) (i.ssiData % 2 ^ fieldAt b 3 1)) } := by
  have hstays : staysBroken (runs false x) = false := by simp [staysBroken, runs, hbroken]
  simp [ssiSample, hgood, hstays]

theorem angleCode_eq : ∃ d, d ≤ 8 ∧ angleCode s i = (Machine.atan2Code i.sin i.cos + d + 65532) % 65536 :=
  ⟨draw s 8, Nat.le_of_lt_succ (Nat.mod_lt _ (by decide)), rfl⟩

theorem sinSample_bad {code : Nat} : sinSample b true code x = tracked b (runs true x) := rfl

theorem hallSample_unlocked {o : List Byte} {obs : Bool} (h : obs = false ∨ x.locked = false) : hallSample b o obs x =
    { toSector (centre b x.sector) x with speed := hallSpeed false (toSector (centre b x.sector) x) } :=
  if_neg (by rcases h with h | h <;> simp [h])

theorem axisTaken_hall (htyp : fieldAt (motBlk s.cfg.active a) 0 1 = 1) (hbroken : x.broken = false) : ∃ run,
    axisTaken a i x s = hallSample (motBlk s.cfg.active a) (obsBlk s.cfg.active a) (observes s.cfg.active a)
      { x with goodRun := run } := by
  have hrun : ∃ run, (if x.illegal.isSome then { x with goodRun := 0 } else { x with goodRun := x.goodRun + 1 }) =
      { x with goodRun := run } := by
    split
    · exact ⟨_, rfl⟩
    · exact ⟨_, rfl⟩
  obtain ⟨run, hrun⟩ := hrun
  refine ⟨run, (if_pos htyp).trans ?_⟩
  rw [hrun]
  exact if_neg (by simp [staysBroken, hbroken])

theorem axisTaken_sin (htyp : fieldAt (motBlk s.cfg.active a) 0 1 = 2) : axisTaken a i x s =
    sinSample (motBlk s.cfg.active a) (ampBad (motBlk s.cfg.active a) i) (angleCode s i) x :=
  (if_neg (by omega)).trans (if_pos htyp)

theorem axisTaken_ssi (htyp : fieldAt (motBlk s.cfg.active a) 0 1 = 3) : axisTaken a i x s = ssiSample (motBlk s.cfg.active a) i x :=
  (if_neg (by omega)).trans (if_neg (by omega))

end

/-! ## The obligation -/

/-- Settles O44: the sample of an axis is the only one that moves it, and a switch to the blocks in use changes nothing. -/
theorem motionSamplesMoveAxes : Obligations.MotionSamplesMoveAxes := by
  intro inputs s a i hclk ha hlen hi hwf hmot hobs
  dsimp only
  obtain ⟨t, u, hexec, hframe, hbeside, haxis⟩ := motionSample_passes hclk ha hi
  have hsettled : AxisSettled a s := ⟨hwf, hmot, hobs⟩
  have hkept := hbeside.kept hsettled
  have hswitch := switchAxis_settled (hkept.settled hsettled)
  have hkept' : AxisCfgKept a s (switchAxis a u) := by
    rw [hswitch]
    exact hkept.trans (axisCfgKept_switch (hkept.settled hsettled))
  have hx : axis (switchAxis a u) a = axis s a := by rw [hswitch]; exact hbeside.axis
  have hlen' : a < (switchAxis a u).axes.length := by
    rw [hswitch]
    show a < u.axes.length
    rw [hbeside.length, hlen]
    exact ha
  have hblk := hkept'.2.1
  refine ⟨t, hexec, hframe, fun htyp => ?none, fun htyp hwait => ?waits, fun htyp hgood hbroken => ?sin, fun htyp hbad => ?sinBad,
    fun htyp hwait hgood hbroken => ?ssi, fun htyp hbroken hfree => ?hall⟩
  case none => rw [haxis, sampleAxis_none (by rw [hblk]; exact htyp), hx]
  case waits =>
    rw [haxis, sampleAxis_waits (by rw [hblk]; exact htyp) (by rw [hx]; exact hwait), axis_modAxis hlen', hx]
  all_goals
    obtain ⟨lens, stamp, gl, hsample⟩ := axis_sampleAxis (a := a) (i := i) (s := u) (by rw [hblk]; omega)
      (fun h3 => by rw [hblk] at h3; rw [hx]; omega) hlen'
    rw [hx, hblk] at hsample
    rw [haxis, hsample]
  case sin =>
    obtain ⟨d, hd, hcode⟩ := angleCode_eq (s := switchAxis a u) (i := i)
    rw [axisTurned, if_neg (by omega), axisTaken_sin (by rw [hblk]; exact htyp), hblk, hgood, sinSample_good hbroken, hcode]
    exact ⟨d, hd, rfl, rfl, rfl, rfl⟩
  case sinBad =>
    rw [axisTurned, if_neg (by omega), axisTaken_sin (by rw [hblk]; exact htyp), hblk, hbad, sinSample_bad]
    exact ⟨rfl, rfl, rfl, rfl, rfl⟩
  case ssi =>
    rw [axisTurned, if_pos htyp, axisTaken_ssi (by rw [hblk]; exact htyp), hblk, ssiSample_good hgood (x := { axis s a with wait := fieldAt (motBlk s.cfg.active a) 0xE 1 - 1 }) hbroken]
    exact ⟨rfl, rfl, rfl⟩
  case hall =>
    obtain ⟨run, htaken⟩ := axisTaken_hall (i := i) (s := switchAxis a u) (by rw [hblk]; exact htyp) hbroken
    rw [axisTurned, if_neg (by omega), htaken, hkept'.observes, hallSample_unlocked (x := { axis s a with goodRun := run }) hfree, hblk]
    exact ⟨rfl, rfl, rfl, rfl⟩

end Sys2Proof.Machine
end

section
/-! Motion feedback: Hall edges, broken inputs, the observer, standstill and probes (16 R531-R544, R551). -/
namespace Sys2Proof.Machine

open Sys2Proof

section

variable {a k n hall clock clocks : Nat} {rising : Bool} {g : Axis → Axis} {b o : List Byte} {x : Axis} {s t u : State}

/-! ## Hall edges (16 R531-R533) -/

theorem getD_of_findIdx? {l : List Nat} (h : l.findIdx? (· == n) = some k) : l.getD k 0 = n := by
  obtain ⟨hk, heq, -⟩ := List.findIdx?_eq_some_iff_getElem.mp h
  rw [List.getD_eq_getElem _ _ hk]
  simpa using heq

theorem findIdx?_none_of_notMem {l : List Nat} (h : n ∉ l) : l.findIdx? (· == n) = none := by
  rw [List.findIdx?_eq_none_iff]
  intro m hm
  simpa using fun e : m = n => h (e ▸ hm)

theorem exec_hallEdge_legal (hclk : enginesClocked s = true) (ha : a < 4) (htyp : fieldAt (motBlk s.cfg.active a) 0 1 = 1)
    (hk : (hallStates (motBlk s.cfg.active a)).findIdx? (· == hall) = some k) : exec (.hallEdge a hall clock) s =
      .next (legalEdge (motBlk s.cfg.active a) (obsBlk s.cfg.active a) a k clock s) := by
  simp only [exec, execHallEdge, hk, hclk, htyp, ha, decide_true, beq_self_eq_true, Bool.and_self, Bool.not_true, if_false,
    Bool.false_eq_true]

theorem exec_hallEdge_illegal (hclk : enginesClocked s = true) (ha : a < 4) (htyp : fieldAt (motBlk s.cfg.active a) 0 1 = 1)
    (hnot : hall ∉ hallStates (motBlk s.cfg.active a)) : exec (.hallEdge a hall clock) s = .next (illegalEdge a hall s) := by
  simp only [exec, execHallEdge, findIdx?_none_of_notMem hnot, hclk, htyp, ha, decide_true, beq_self_eq_true, Bool.and_self,
    Bool.not_true, if_false, Bool.false_eq_true]

/-- The source of an edge that ends a standstill. -/
def edgeTold (a : Nat) (s : State) : State := if (axis s a).still then motSource a 4 s else s

theorem axes_edgeTold : (edgeTold a s).axes = s.axes := by
  unfold edgeTold
  split
  · exact reported_motSource.axes
  · rfl

/-- An axis after an edge to an adjacent state. -/
def edgeTaken1 (b o : List Byte) (obs : Bool) (hall k clock diff : Nat) (x y : Axis) : Axis :=
  let period := match x.lastEdge with
    | some e => (clock - e) * 40
    | none => 0
  let dir : Int := if diff = 1 then 1 else -1
  let z := if obs && !y.locked then countEdge (fieldAt o 6 1) dir period y else y
  { z with hall := hall, sector := k, illegal := none, still := false, edgeDir := dir
           period := period, lastEdge := some clock, turned := turnedTo b (obs && x.locked) k y }

theorem legalEdge_adjacent (hstate : (hallStates b).getD k 0 = hall)
    (hdiff : (k + 6 - (axis s a).sector) % 6 = 1 ∨ (k + 6 - (axis s a).sector) % 6 = 5) : legalEdge b o a k clock s =
      modAxis a (edgeTaken1 b o (observes s.cfg.active a) hall k clock ((k + 6 - (axis s a).sector) % 6) (axis s a))
        (edgeTold a s) := by
  subst hstate
  exact (if_neg (by omega)).trans (if_pos hdiff)

theorem edgeTaken1_eq {obs : Bool} {diff : Nat} : ∃ run, (obs = false ∨ x.locked = true → run = x.edgeRun) ∧
    edgeTaken1 b o obs hall k clock diff x x =
      { x with hall := hall, sector := k, illegal := none, still := false, edgeRun := run, lastEdge := some clock
               turned := turnedTo b (obs && x.locked) k x, edgeDir := if diff = 1 then 1 else -1
               period := match x.lastEdge with
                 | some e => (clock - e) * 40
                 | none => 0 } := by
  unfold edgeTaken1
  dsimp only
  split
  next h =>
    refine ⟨_, fun hor => ?_, rfl⟩
    rcases hor with hor | hor <;> simp [hor] at h
  next => exact ⟨_, fun _ => rfl, rfl⟩

theorem legalEdge_jump (hstate : (hallStates b).getD k 0 = hall) (hdiff : (k + 6 - (axis s a).sector) % 6 ∈ [2, 3, 4]) :
    legalEdge b o a k clock s = motSource a 5 (modAxis a (fun y =>
      { y with hall := hall, sector := k, illegal := none, still := false, edgeRun := 0, lastEdge := some clock
               turned := turnedTo b (observes s.cfg.active a && (axis s a).locked) k y }) (edgeTold a s)) := by
  subst hstate
  simp only [List.mem_cons, List.not_mem_nil, or_false] at hdiff
  exact (if_neg (by omega)).trans (if_neg (by omega))

end

/-! ## The obligation -/

/-- Settles O45: each row by its own equation. -/
theorem motionEventsChangeAxes : Obligations.MotionEventsChangeAxes := by
  refine ⟨fun r s c hstart hpass => congrArg Host.Outcome.next (runCmd_effect hstart hpass), fun a s hclk ha hlen => ?_⟩
  dsimp only
  have hin : a < s.axes.length := hlen ▸ ha
  refine ⟨fun hall clock k htyp hk => ⟨fun hdiff => ?same, fun hdiff => ?adjacent, fun hdiff => ?jump⟩,
    fun hall clock htyp hnot hnew => ?illegal, fun i hrow hbroken => ?broken, fun hbroken hgood => ?restored,
    fun hobs hlocked hrun => ?lost, fun hobs hlocked hrun => ?regained, fun htyp hstill => ?standstill,
    fun rising clocks htyp hedge => ?probe⟩
  case same =>
    rw [exec_hallEdge_legal hclk ha htyp hk]
    exact congrArg Host.Outcome.next (if_pos hdiff)
  case adjacent =>
    rw [exec_hallEdge_legal hclk ha htyp hk, legalEdge_adjacent (getD_of_findIdx? hk) hdiff]
    have hold (j : Nat) : axis (edgeTold a s) j = axis s j := axis_of_axes axes_edgeTold
    obtain ⟨run, hrun, hx⟩ := edgeTaken1_eq (b := motBlk s.cfg.active a) (o := obsBlk s.cfg.active a) (x := axis s a) (hall := hall)
      (k := k) (clock := clock) (obs := observes s.cfg.active a) (diff := (k + 6 - (axis s a).sector) % 6)
    refine ⟨_, rfl, rfl, fun j hj => (axis_modAxis_ne hj).trans (hold j), ?_⟩
    rw [axis_modAxis (by rw [axes_edgeTold]; exact hin), hold, hx]
    exact ⟨rfl, hrun⟩
  case jump =>
    rw [exec_hallEdge_legal hclk ha htyp hk, legalEdge_jump (getD_of_findIdx? hk) hdiff]
    rfl
  case illegal =>
    rw [exec_hallEdge_illegal hclk ha htyp hnot]
    exact congrArg Host.Outcome.next (if_neg hnew)
  case broken =>
    have hbreaks : breakInput a s = motSource a 1 (motEvent 0x9002 a (0 + 2 ^ 32 * motFlags
        (modAxis a (fun y => { y with broken := true, goodRun := 0 }) s) a) (modAxis a (fun y => { y with broken := true, goodRun := 0 }) s)) := by
      rw [Nat.zero_add]
      rfl
    rw [← hbreaks]
    obtain ⟨rfl, htyp, hillegal⟩ | ⟨rfl, htyp, hrun⟩ := hrow
    · exact congrArg Host.Outcome.next (if_pos (by simp [hclk, hillegal, hbroken, htyp]))
    · exact congrArg Host.Outcome.next (if_pos (by simp [hclk, hbroken, htyp, hrun]))
  case restored => exact congrArg Host.Outcome.next (if_pos (by simp [hclk, hbroken, hgood]))
  case lost =>
    refine ⟨_, congrArg Host.Outcome.next (if_pos (by simp [hclk, hobs, hlocked, hrun])), rfl, ?_⟩
    rw [axis_modAxis hin]
    exact ⟨rfl, rfl, rfl⟩
  case regained =>
    refine ⟨_, congrArg Host.Outcome.next (if_pos (by simp [hclk, hobs, hlocked, hrun])), rfl, ?_⟩
    rw [axis_modAxis hin]
    exact ⟨rfl, rfl, rfl⟩
  case standstill => exact congrArg Host.Outcome.next (if_pos (by simp [hclk, htyp, hstill]))
  case probe =>
    refine ⟨_, congrArg Host.Outcome.next (if_neg (by simp [hclk, htyp, hedge])), rfl, ?_⟩
    rw [axis_modAxis hin]
    cases hsets : bit (fieldAt (motBlk s.cfg.active a) 1 1) 3 && motGood s a with
    | false =>
      exact ⟨rfl, rfl, fun _ => rfl, fun hset hgood => by simp [hset, hgood] at hsets⟩
    | true =>
      rw [Bool.and_eq_true] at hsets
      exact ⟨rfl, rfl, fun hor => by rcases hor with h | h <;> simp [h] at hsets, fun _ _ => ⟨rfl, rfl⟩⟩

end Sys2Proof.Machine
end

section
/-! Frames that retract (04 R142; 06 R204). -/
namespace Sys2Proof.Machine

open Sys2Proof

section

variable {c i j k n fl : Nat} {f : Frame} {g : Frame → Frame} {h : Chan → Chan} {s t u : State}

/-! ## What a retraction may change -/

/-- From `s` to `t` frames and channels of the ingest may have moved, and events and sources have told of it. -/
def FramesMoved (s t : State) : Prop :=
  t = { reported s t with brd := { s.brd with chans := t.brd.chans }, csi := t.csi, streams := t.streams }

theorem FramesMoved.refl (s : State) : FramesMoved s s := rfl

theorem FramesMoved.trans (hst : FramesMoved s t) (htu : FramesMoved t u) : FramesMoved s u := by
  unfold FramesMoved at *
  rw [htu, hst]
  rfl

theorem FramesMoved.ite {p : Prop} [Decidable p] (ht : FramesMoved s t) (hu : FramesMoved s u) :
    FramesMoved s (if p then t else u) := by
  split
  · exact ht
  · exact hu

theorem Reported.framesMoved (hst : Reported s t) : FramesMoved s t := by
  unfold Reported FramesMoved at *
  rw [hst]
  rfl

theorem reported_tthBroadcast {cls : Nat} {b : TthBody} : Reported s (tthBroadcast cls b s) := by
  have h : Transmitted s (tthBroadcast cls b s) := transmitted_tthBroadcast
  unfold Transmitted at h
  unfold Reported
  rw [h]
  rfl

theorem framesMoved_modFrame : FramesMoved s (modFrame i n g s) := rfl

theorem framesMoved_modChan : FramesMoved s (modChan c h s) := by
  unfold modChan
  split <;> rfl

theorem framesMoved_dropPackets : FramesMoved s (dropPackets n f s) :=
  foldl_steps FramesMoved.refl FramesMoved.trans _ (fun _ _ _ => framesMoved_modChan) s

theorem framesMoved_latchLens {m : Tbl CfgVal} : FramesMoved s (latchLens m i s) := .ite (.refl s) rfl

theorem framesMoved_decideFrame : FramesMoved s (decideFrame i n s) := by
  unfold decideFrame
  split
  · exact .refl s
  · exact .ite (framesMoved_modFrame.trans reported_tthBroadcast.framesMoved) framesMoved_modFrame

theorem framesMoved_addFlags : FramesMoved s (addFlags i n fl f s) :=
  .ite (framesMoved_modFrame.trans reported_tthBroadcast.framesMoved) framesMoved_modFrame

/-- A frame as its retraction leaves it, before it is decided. -/
def retractedIn (i n fl : Nat) (f : Frame) (s : State) : State :=
  dropPackets n f (modFrame i n (fun g => (openChans s n f).foldl (fun g x => countOpen x g) (retracted fl g)) s)

theorem retract_eq (hf : frameOf s i n = some f) : retract i n fl s =
    if bit f.flags 0 then addFlags i n fl f s
    else if f.decided then retractedIn i n fl f s
    else latchLens (retractedIn i n fl f s).cfg.committed i (decideFrame i n (retractedIn i n fl f s)) := by
  unfold retract
  rw [hf]
  rfl

theorem retract_none (hf : frameOf s i n = none) : retract i n fl s = s := by
  unfold retract
  rw [hf]

theorem framesMoved_retract : FramesMoved s (retract i n fl s) := by
  cases hf : frameOf s i n with
  | none => rw [retract_none hf]; exact .refl s
  | some f =>
    have hin : FramesMoved s (retractedIn i n fl f s) := framesMoved_modFrame.trans framesMoved_dropPackets
    rw [retract_eq hf]
    exact .ite framesMoved_addFlags (.ite hin (hin.trans (framesMoved_decideFrame.trans framesMoved_latchLens)))

theorem framesMoved_retractAll : FramesMoved s (retractAll i fl s) :=
  foldl_steps FramesMoved.refl FramesMoved.trans _ (fun _ _ _ => framesMoved_retract) s

/-! ## The frames of a stream -/

theorem stream_of_streams (h : t.streams = s.streams) : stream t k = stream s k := by
  unfold stream
  rw [h]

/-- What a change of a stream leaves of every stream, it leaves of one that the device does not have too. -/
theorem kept_modStream {α : Type} {π : StreamSt → α} {x : StreamSt → StreamSt} (hπ : ∀ y, π (x y) = π y) :
    π (stream (modStream i x s) k) = π (stream s k) := by
  by_cases hk : k = i
  · subst hk
    by_cases hlt : k < s.streams.length
    · rw [stream_modStream hlt, hπ]
    · simp [stream, modStream, List.getD_eq_getElem?_getD, List.getElem?_eq_none (Nat.le_of_not_lt hlt)]
  · rw [stream_modStream_ne hk]

theorem frames_modFrame : (stream (modFrame i n g s) i).frames = (stream s i).frames.map fun f => if f.serial = n then g f else f := by
  by_cases hlt : i < s.streams.length
  · rw [modFrame, stream_modStream hlt]
  · simp [stream, modFrame, modStream, List.getD_eq_getElem?_getD, List.getElem?_eq_none (Nat.le_of_not_lt hlt)]

theorem frames_modFrame_ne (hk : k ≠ i) : (stream (modFrame i n g s) k).frames = (stream s k).frames :=
  congrArg StreamSt.frames (stream_modStream_ne hk)

theorem streams_modChan : (modChan c h s).streams = s.streams := by
  unfold modChan
  split <;> rfl

theorem streams_dropPackets : (dropPackets n f s).streams = s.streams :=
  foldl_leaves (p := State.streams) (fun _ _ => streams_modChan) _ s

theorem Reported.streams (hst : Reported s t) : t.streams = s.streams := by
  unfold Reported at hst
  rw [hst]
  rfl

theorem frames_latchLens {m : Tbl CfgVal} : (stream (latchLens m i s) k).frames = (stream s k).frames := by
  unfold latchLens
  split
  · rfl
  · exact kept_modStream fun _ => rfl

/-- A frame that is decided. -/
def frameDecided (g : Frame) : Frame := { g with decided := true }

/-- A frame that takes further flags. -/
def frameFlagged (fl : Nat) (g : Frame) : Frame := { g with flags := g.flags ||| fl }

theorem frameDecided_serial : (frameDecided f).serial = f.serial := rfl

/-- The frames of a stream after one of them is decided. -/
theorem frames_decideFrame (hf : frameOf s i n = some f) : (stream (decideFrame i n s) k).frames =
    (stream (modFrame i n frameDecided s) k).frames := by
  unfold decideFrame
  rw [hf]
  dsimp only
  split
  · rw [stream_of_streams reported_tthBroadcast.streams]
    rfl
  · rfl

theorem frames_addFlags : (stream (addFlags i n fl f s) k).frames =
    (stream (modFrame i n (frameFlagged fl) s) k).frames := by
  unfold addFlags
  dsimp only
  split
  · rw [stream_of_streams reported_tthBroadcast.streams]
    rfl
  · rfl

/-- A change that leaves the serials moves the frame that it is of. -/
theorem frameOf_modFrame (hserial : ∀ f, (g f).serial = f.serial) : frameOf (modFrame i n g s) i n = (frameOf s i n).map g := by
  unfold frameOf
  rw [frames_modFrame]
  induction (stream s i).frames with
  | nil => rfl
  | cons f l ih =>
    by_cases hf : f.serial = n
    · simp [hf, hserial]
    · simpa [List.find?_cons, hf] using ih

theorem frameOf_of_frames (hst : (stream t i).frames = (stream s i).frames) : frameOf t i n = frameOf s i n := by
  unfold frameOf
  rw [hst]

/-! ## What a retraction leaves of a frame (04 R142) -/

/-- A retracted frame with the lines and pixels of its open channels counted. -/
def retractedWith (l : List Chan) (fl : Nat) (f : Frame) : Frame := l.foldl (fun g x => countOpen x g) (retracted fl f)

theorem countOpens_kept {l : List Chan} : (l.foldl (fun g x => countOpen x g) f).serial = f.serial ∧
    (l.foldl (fun g x => countOpen x g) f).flags = f.flags ∧ (l.foldl (fun g x => countOpen x g) f).rows = f.rows := by
  induction l generalizing f with
  | nil => exact ⟨rfl, rfl, rfl⟩
  | cons x l ih => exact ih (f := countOpen x f)

theorem retractedWith_kept {l : List Chan} : (retractedWith l fl f).serial = f.serial ∧
    (retractedWith l fl f).flags = f.flags ||| fl ||| vRetracted ∧ (retractedWith l fl f).rows = f.rows.take f.released :=
  countOpens_kept (f := retracted fl f)

theorem frames_retractedIn : (stream (retractedIn i n fl f s) k).frames =
    (stream (modFrame i n (retractedWith (openChans s n f) fl) s) k).frames := by
  rw [retractedIn, stream_of_streams streams_dropPackets]
  rfl

/-- How a frame that is open here retracts. -/
theorem frames_retract_open (hf : frameOf s i n = some f) (hopen : bit f.flags 0 = false) (hdec : f.decided = false) :
    ∃ u, (∀ k, (stream u k).frames = (stream (modFrame i n (retractedWith (openChans s n f) fl) s) k).frames) ∧
      ∀ k, (stream (retract i n fl s) k).frames = (stream (modFrame i n frameDecided u) k).frames := by
  refine ⟨retractedIn i n fl f s, fun k => frames_retractedIn, fun k => ?_⟩
  have hin : frameOf (retractedIn i n fl f s) i n = some (retractedWith (openChans s n f) fl f) := by
    rw [frameOf_of_frames frames_retractedIn, frameOf_modFrame (fun _ => retractedWith_kept.1), hf]
    rfl
  rw [retract_eq hf, if_neg (by simp [hopen]), if_neg (by simp [hdec]), frames_latchLens, frames_decideFrame hin]

theorem frameOf_retract (hf : frameOf s i n = some f) (hopen : bit f.flags 0 = false) (hdec : f.decided = false) :
    ∃ g, frameOf (retract i n fl s) i n = some g ∧ g.flags = f.flags ||| fl ||| vRetracted ∧ g.decided = true ∧
      g.rows = f.rows.take f.released := by
  obtain ⟨u, hu, hframes⟩ := frames_retract_open (fl := fl) hf hopen hdec
  obtain ⟨-, hflags, hrows⟩ := retractedWith_kept (l := openChans s n f) (fl := fl) (f := f)
  refine ⟨frameDecided (retractedWith (openChans s n f) fl f), ?_, hflags, rfl, hrows⟩
  rw [frameOf_of_frames (hframes i), frameOf_modFrame (fun _ => frameDecided_serial), frameOf_of_frames (hu i),
    frameOf_modFrame (fun _ => retractedWith_kept.1), hf]
  rfl

/-- A frame that has retracted takes further flags. -/
theorem frames_retract_again (hf : frameOf s i n = some f) (hgone : bit f.flags 0 = true) : (stream (retract i n fl s) k).frames =
    (stream (modFrame i n (frameFlagged fl) s) k).frames := by
  rw [retract_eq hf, if_pos hgone, frames_addFlags]

/-- A retraction leaves the frames of every other stream. -/
theorem frames_retract_ne (hk : k ≠ i) : (stream (retract i n fl s) k).frames = (stream s k).frames := by
  cases hf : frameOf s i n with
  | none => rw [retract_none hf]
  | some f =>
    have hin : (stream (retractedIn i n fl f s) k).frames = (stream s k).frames := by
      rw [frames_retractedIn, frames_modFrame_ne hk]
    rw [retract_eq hf]
    split
    · rw [frames_addFlags, frames_modFrame_ne hk]
    · split
      · exact hin
      · rw [frames_latchLens]
        cases hd : frameOf (retractedIn i n fl f s) i n with
        | none => rw [decideFrame, hd]; exact hin
        | some d => rw [frames_decideFrame hd, frames_modFrame_ne hk]; exact hin

/-! ## A stream with one frame -/

theorem frameOf_single (hone : (stream s k).frames = [f]) : frameOf s k f.serial = some f := by
  simp [frameOf, hone]

/-- The stream's one frame has been retracted with flags. -/
def OneGone (k n flags : Nat) (t : State) : Prop :=
  ∃ g, (stream t k).frames = [g] ∧ g.flags = flags ∧ g.serial = n ∧ g.decided = true

theorem oneGone_retract (hone : (stream s k).frames = [f]) (hopen : bit f.flags 0 = false) (hdec : f.decided = false) :
    OneGone k f.serial (f.flags ||| fl ||| vRetracted) (retract k f.serial fl s) := by
  obtain ⟨u, hu, hframes⟩ := frames_retract_open (fl := fl) (frameOf_single hone) hopen hdec
  obtain ⟨hserial, hflags, -⟩ := retractedWith_kept (l := openChans s f.serial f) (fl := fl) (f := f)
  refine ⟨frameDecided (retractedWith (openChans s f.serial f) fl f), ?_, hflags, hserial, rfl⟩
  rw [hframes k, frames_modFrame, hu k, frames_modFrame, hone]
  simp [hserial]

theorem oneGone_again {n flags : Nat} (h : OneGone k n flags s) (hgone : bit flags 0 = true) (hin : flags ||| fl = flags) :
    OneGone k n flags (retract k n fl s) := by
  obtain ⟨g, hone, hflags, hserial, hdec⟩ := h
  subst hserial hflags
  refine ⟨frameFlagged fl g, ?_, hin, rfl, hdec⟩
  rw [frames_retract_again (frameOf_single hone) hgone, frames_modFrame, hone]
  simp

/-- A retraction of every open frame of a stream whose one frame is open, or has been retracted. -/
theorem oneGone_retractAll (hone : (stream s k).frames = [f]) (hopen : bit f.flags 0 = false) (hdec : f.decided = false) :
    OneGone k f.serial (f.flags ||| fl ||| vRetracted) (retractAll k fl s) := by
  have hlist : retractAll k fl s = retract k f.serial fl s := by simp [retractAll, hone, hdec]
  rw [hlist]
  exact oneGone_retract hone hopen hdec

theorem oneGone_retractAll_again {n flags : Nat} (h : OneGone k n flags s) (hgone : bit flags 0 = true)
    (hin : flags ||| fl = flags) : OneGone k n flags (retractAll k fl s) := by
  have hlist : retractAll k fl s = s ∨ retractAll k fl s = retract k n fl s := by
    obtain ⟨g, hone, -, rfl, -⟩ := h
    unfold retractAll
    rw [hone, List.filter_cons]
    split
    · exact .inr rfl
    · exact .inl rfl
  rcases hlist with hlist | hlist <;> rw [hlist]
  · exact h
  · exact oneGone_again h hgone hin

theorem frames_retractAll_ne (hk : k ≠ i) : (stream (retractAll i fl s) k).frames = (stream s k).frames :=
  foldl_leaves (p := fun t => (stream t k).frames) (fun _ _ => frames_retract_ne hk) _ s

theorem OneGone.of_frames {n flags : Nat} (h : OneGone k n flags s) (hst : (stream t k).frames = (stream s k).frames) :
    OneGone k n flags t := by
  unfold OneGone at *
  rwa [hst]

theorem bit_zero_retracted {v : Nat} : bit (v ||| vRetracted) 0 = true := by
  rw [bit_eq_testBit]
  simp [vRetracted]

/-- A retraction of the open frames of several streams reaches the one frame of each. -/
theorem oneGone_foldl (hopen : bit f.flags 0 = false) (hdec : f.decided = false) : ∀ (l : List Nat) (s : State),
    (OneGone k f.serial (f.flags ||| fl ||| vRetracted) s ∨ ((stream s k).frames = [f] ∧ k ∈ l)) →
      OneGone k f.serial (f.flags ||| fl ||| vRetracted) (l.foldl (fun t i => retractAll i fl t) s)
  | [], s, h => h.elim id fun h => absurd h.2 List.not_mem_nil
  | i :: l, s, h => by
    refine oneGone_foldl hopen hdec l _ ?_
    by_cases hk : k = i
    · subst hk
      refine .inl (h.elim (fun h => oneGone_retractAll_again h ?_ ?_) fun h => oneGone_retractAll h.1 hopen hdec)
      · exact bit_zero_retracted
      · rw [Nat.or_right_comm, Nat.or_assoc f.flags, Nat.or_self]
    · have hsame := frames_retractAll_ne (fl := fl) (s := s) hk
      refine h.imp (fun h => h.of_frames hsame) fun h => ⟨hsame.trans h.1, ?_⟩
      exact (List.mem_cons.mp h.2).resolve_left hk

end

end Sys2Proof.Machine
end

section
/-! Bridle lanes (04 R119-R122, R142, R150-R152). -/
namespace Sys2Proof.Machine

open Sys2Proof

section

variable {j k l p : Nat} {a : SpiJob} {f : Frame} {marks seqs : List Nat} {s t u : State}

/-! ## A lane that is declared down -/

/-- From `s` to `t` spares were prepared and frames retracted: the lanes stay as they were. -/
def LanesKept (s t : State) : Prop :=
  t = { reported s t with
    brd := { s.brd with chans := t.brd.chans, failed := t.brd.failed, spis := t.brd.spis }, csi := t.csi, streams := t.streams }

theorem LanesKept.refl (s : State) : LanesKept s s := rfl

theorem LanesKept.trans (hst : LanesKept s t) (htu : LanesKept t u) : LanesKept s u := by
  unfold LanesKept at *
  rw [htu, hst]
  rfl

theorem FramesMoved.lanesKept (h : FramesMoved s t) : LanesKept s t := by
  unfold FramesMoved at h
  unfold LanesKept
  rw [h]
  rfl

theorem lanesKept_startScript : LanesKept s (startScript p s) ∧ (startScript p s).streams = s.streams := by
  unfold startScript
  split
  · exact ⟨rfl, rfl⟩
  · split <;> exact ⟨rfl, rfl⟩

theorem lanesKept_queueScript : LanesKept s (queueScript p a s) ∧ (queueScript p a s).streams = s.streams := by
  obtain ⟨hkept, hstreams⟩ := lanesKept_startScript (p := p) (s := modSpi p (fun x => { x with queue := x.queue ++ [a] }) s)
  exact ⟨.trans (t := modSpi p _ s) rfl hkept, hstreams⟩

theorem LanesKept.lanes (h : LanesKept s t) : brdLane t j = brdLane s j ∧ lane t j = lane s j := by
  unfold LanesKept at h
  rw [h]
  exact ⟨rfl, rfl⟩

/-- A lane that is down, out of lock. -/
def laneDropped (l : Nat) (s : State) : State :=
  modLane l (fun x => { x with locked := false, downs := min 255 (x.downs + 1) }) (modBrdLane l (fun x => { x with down := true }) s)

/-- What tells that a lane is down. -/
def downTold (l : Nat) (s : State) : State :=
  raise l (unitEvent 0x1001 0x10 0 none (l + 2 ^ 8 * (logicalOf s l % 32) + 2 ^ 16 * b2n (spareLane s l).isNone) (laneDropped l s))

/-- The spare that is to take over for a lane (04 R152). -/
def sparePrepared (s0 : State) (l : Nat) (s : State) : State :=
  let s3 := if (spareLane s0 l).isNone then s
    else modBrd (fun b => { b with failed := b.failed.filter (·.1 != logicalOf s0 l) ++ [(logicalOf s0 l, l)] }) s
  if (spareLane s0 l).isSome && fieldAt (spareBlk s0) 1 1 != 0 then
    queueScript (fieldAt (brdBlk s0) 4 1) { spare := true, words := spareScript (spareBlk s0) (logicalOf s0 l), ref := none } s3
  else s3

theorem lanesKept_sparePrepared : LanesKept s (sparePrepared u l s) ∧ (sparePrepared u l s).streams = s.streams := by
  unfold sparePrepared
  dsimp only
  split
  · obtain ⟨hkept, hstreams⟩ := lanesKept_queueScript (p := fieldAt (brdBlk u) 4 1)
      (a := { spare := true, words := spareScript (spareBlk u) (logicalOf u l), ref := none })
      (s := if (spareLane u l).isNone then s else modBrd (fun b =>
        { b with failed := b.failed.filter (·.1 != logicalOf u l) ++ [(logicalOf u l, l)] }) s)
    refine ⟨.trans ?_ hkept, hstreams.trans ?_⟩ <;> split <;> rfl
  · split <;> exact ⟨rfl, rfl⟩

theorem declareDown_eq (hact : laneActive s l = true) (hup : (brdLane s l).down = false) : declareDown l s =
    if 32 ≤ logicalOf s l then downTold l s
    else if s.brd.map.getD l 0xFF < 32 then
      (bridleStreams s.cfg.active).foldl (fun t i => retractAll i vLane t) (sparePrepared s l (downTold l s))
    else sparePrepared s l (downTold l s) := by
  unfold declareDown
  rw [hact, hup]
  rfl

/-- What declaring a lane down changes: the lane, and where its map holds it the frames. -/
theorem declareDown_kept (hact : laneActive s l = true) (hup : (brdLane s l).down = false) :
    LanesKept (laneDropped l s) (declareDown l s) := by
  have htold : LanesKept (laneDropped l s) (downTold l s) := (reported_tell.framesMoved).lanesKept
  have hspare := htold.trans (lanesKept_sparePrepared (u := s) (l := l)).1
  rw [declareDown_eq hact hup]
  split
  · exact htold
  · split
    · exact hspare.trans (foldl_steps LanesKept.refl LanesKept.trans _ (fun _ _ _ => framesMoved_retractAll.lanesKept) _)
    · exact hspare

/-- Declaring a lane down retracts the one open frame of a stream of Bridle, where the map holds the lane. -/
theorem declareDown_retracts (hact : laneActive s l = true) (hup : (brdLane s l).down = false) (hmap : s.brd.map.getD l 0xFF < 32)
    (hk : k ∈ bridleStreams s.cfg.active) (hone : (stream s k).frames = [f]) (hopen : bit f.flags 0 = false)
    (hdec : f.decided = false) : OneGone k f.serial (f.flags ||| vLane ||| vRetracted) (declareDown l s) := by
  have hlogical : logicalOf s l = s.brd.map.getD l 0xFF := if_pos hmap
  rw [declareDown_eq hact hup, if_neg (by omega), if_pos hmap]
  refine oneGone_foldl hopen hdec _ _ (.inr ⟨?_, hk⟩)
  have htold : (downTold l s).streams = s.streams := reported_tell.streams
  rw [stream_of_streams (lanesKept_sparePrepared.2.trans htold), hone]

theorem brdLane_modBrdLane {g : BrdLane → BrdLane} (h : l < s.brd.lanes.length) :
    brdLane (modBrdLane l g s) l = g (brdLane s l) := by
  simp [brdLane, modBrdLane, modBrd, List.getD_eq_getElem?_getD, h]

theorem brdLane_modBrdLane_ne {g : BrdLane → BrdLane} (h : j ≠ l) : brdLane (modBrdLane l g s) j = brdLane s j := by
  simp [brdLane, modBrdLane, modBrd, List.getD_eq_getElem?_getD, Ne.symm h]

theorem laneDropped_facts (hbrd : l < s.brd.lanes.length) (hlane : l < s.lanes.length) :
    (brdLane (laneDropped l s) l).down = true ∧ (∀ j, j ≠ l → brdLane (laneDropped l s) j = brdLane s j) ∧
    lane (laneDropped l s) l = { lane s l with locked := false, downs := min 255 ((lane s l).downs + 1) } ∧
    ∀ j, j ≠ l → lane (laneDropped l s) j = lane s j := by
  have hlane' : l < (modBrdLane l (fun x => { x with down := true }) s).lanes.length := hlane
  refine ⟨congrArg BrdLane.down (brdLane_modBrdLane hbrd), fun j hj => brdLane_modBrdLane_ne hj, lane_modLane hlane',
    fun j hj => lane_modLane_ne hj⟩

/-- A lane that goes down before and besides what else its row does to it. -/
theorem declareDown_facts (hact : laneActive s l = true) (hup : (brdLane s l).down = false) (hbrd : l < s.brd.lanes.length)
    (hlane : l < s.lanes.length) : let t := declareDown l s
    t = { reported s t with brd := t.brd, csi := t.csi, lanes := t.lanes, streams := t.streams } ∧ (brdLane t l).down = true ∧
      (∀ j, j ≠ l → brdLane t j = brdLane s j) ∧ (∀ j, j ≠ l → lane t j = lane s j) ∧ (lane t l).locked = false ∧
      (lane t l).downs = min 255 ((lane s l).downs + 1) := by
  have hkept := declareDown_kept hact hup
  obtain ⟨hdown, hothers, hself, hrest⟩ := laneDropped_facts hbrd hlane
  refine ⟨?_, by rw [hkept.lanes.1]; exact hdown, fun j hj => hkept.lanes.1.trans (hothers j hj),
    fun j hj => hkept.lanes.2.trans (hrest j hj), by rw [hkept.lanes.2, hself], by rw [hkept.lanes.2, hself]⟩
  unfold LanesKept at hkept
  rw [hkept]
  rfl

/-- What the row of a lane that goes down answers for it. -/
def LaneGone (l : Nat) (s t : State) : Prop :=
  t = { reported s t with brd := t.brd, csi := t.csi, lanes := t.lanes, streams := t.streams } ∧ (brdLane t l).down = true ∧
    (∀ j, j ≠ l → brdLane t j = brdLane s j) ∧ (∀ j, j ≠ l → lane t j = lane s j) ∧ (lane t l).locked = false ∧
    (lane t l).downs = min 255 ((lane s l).downs + 1) ∧
    (∀ k f, s.brd.map.getD l 0xFF < 32 → k ∈ bridleStreams s.cfg.active → (stream s k).frames = [f] → f.decided = false →
      bit f.flags 0 = false → ∃ g, (stream t k).frames = [g] ∧ g.flags = f.flags ||| vLane ||| vRetracted ∧
        g.serial = f.serial ∧ g.decided = true)

/-- A lane that is declared down after its source or its sync errors were noted. -/
theorem laneGone_declareDown (hu : u = { reported s u with lanes := u.lanes }) (hdowns : (lane u l).downs = (lane s l).downs)
    (hothers : ∀ j, j ≠ l → lane u j = lane s j) (hact : laneActive s l = true) (hup : (brdLane s l).down = false)
    (hbrd : l < s.brd.lanes.length) (hlane : l < u.lanes.length) : LaneGone l s (declareDown l u) := by
  have hbrdOf : u.brd = s.brd := by rw [hu]; rfl
  have hcfg : u.cfg = s.cfg := by rw [hu]; rfl
  have hstreams : u.streams = s.streams := by rw [hu]; rfl
  have hbrdLane : ∀ j, brdLane u j = brdLane s j := fun j => congrArg (fun b : Brd => b.lanes.getD j {}) hbrdOf
  have hact' : laneActive u l = true := by
    rw [laneActive, brdBlk, hcfg]
    exact hact
  have hup' : (brdLane u l).down = false := by rw [hbrdLane]; exact hup
  obtain ⟨hframe, hdown, hbrdRest, hrest, hlocked, hcount⟩ := declareDown_facts hact' hup' (hbrdOf ▸ hbrd) hlane
  refine ⟨?_, hdown, fun j hj => (hbrdRest j hj).trans (hbrdLane j), fun j hj => (hrest j hj).trans (hothers j hj), hlocked,
    hdowns ▸ hcount, fun k f hmap hk hone hdec hopen => ?_⟩
  · rw [hframe, hu]
    rfl
  · exact declareDown_retracts hact' hup' (hbrdOf ▸ hmap) (hcfg ▸ hk) ((stream_of_streams hstreams).symm ▸ hone) hopen hdec

/-! ## The marks of an ALIGN row (04 R119-R121) -/

/-- A lane under an ALIGN row of sequence number `q`. -/
def markTaken (marks seqs : List Nat) (q : Nat) (t : State) (l : Nat) : State :=
  if seqs.getD l 0 = q then modLane l (fun x => { x with locked := true }) (modBrdLane l (fun x => { x with mark := marks.getD l 0xFF }) t)
  else countLink 5 1 t

/-- From `s` to `t` lanes other than `l` may have taken marks. -/
structure MarkedBeside (l : Nat) (s t : State) : Prop where
  frame : t = { s with brd := { s.brd with lanes := t.brd.lanes, link := t.brd.link }, lanes := t.lanes }
  brdLength : t.brd.lanes.length = s.brd.lanes.length
  length : t.lanes.length = s.lanes.length
  brdLane : brdLane t l = brdLane s l
  lane : lane t l = lane s l

theorem MarkedBeside.refl (s : State) : MarkedBeside l s s := ⟨rfl, rfl, rfl, rfl, rfl⟩

theorem MarkedBeside.trans (h : MarkedBeside l s t) (h' : MarkedBeside l t u) : MarkedBeside l s u where
  frame := by rw [h'.frame, h.frame]
  brdLength := h'.brdLength.trans h.brdLength
  length := h'.length.trans h.length
  brdLane := h'.brdLane.trans h.brdLane
  lane := h'.lane.trans h.lane

theorem markedBeside_markTaken {q : Nat} (hj : j ≠ l) : MarkedBeside l s (markTaken marks seqs q s j) := by
  unfold markTaken
  split
  · exact ⟨rfl, List.length_modify .., List.length_modify .., brdLane_modBrdLane_ne hj.symm, lane_modLane_ne hj.symm⟩
  · exact ⟨rfl, rfl, rfl, rfl, rfl⟩

theorem markTaken_frame {q : Nat} : markTaken marks seqs q s j = { s with
    brd := { s.brd with lanes := (markTaken marks seqs q s j).brd.lanes, link := (markTaken marks seqs q s j).brd.link }
    lanes := (markTaken marks seqs q s j).lanes } := by
  unfold markTaken
  split <;> rfl

/-- The state under an ALIGN row of sequence number `q`, before the lanes take their marks. -/
def aligning (q : Nat) (s : State) : State := modBrd (fun b => { b with alignSeq := some q }) s

/-- From `s` to `t` lanes may have taken marks. -/
def Aligned (s t : State) : Prop :=
  t = { s with brd := { s.brd with lanes := t.brd.lanes, link := t.brd.link }, lanes := t.lanes }

theorem Aligned.refl (s : State) : Aligned s s := rfl

theorem Aligned.trans (h : Aligned s t) (h' : Aligned t u) : Aligned s u := by
  unfold Aligned at *
  rw [h', h]

/-- An up lane of the row takes its mark, whatever the others do. -/
theorem foldl_markTaken_own {q : Nat} {ls : List Nat} (hin : l ∈ ls) (hnodup : ls.Nodup) (hseq : seqs.getD l 0 = q)
    (hbrd : l < s.brd.lanes.length) (hlane : l < s.lanes.length) :
    brdLane (ls.foldl (markTaken marks seqs q) s) l = { brdLane s l with mark := marks.getD l 0xFF } ∧
      (lane (ls.foldl (markTaken marks seqs q) s) l).locked = true := by
  obtain ⟨u, hu, ht⟩ := foldl_passes MarkedBeside.refl MarkedBeside.trans hnodup hin
    (fun s j _ hj => markedBeside_markTaken (marks := marks) (seqs := seqs) (q := q) (s := s) hj) s
  have hown : markTaken marks seqs q u l =
      modLane l (fun x => { x with locked := true }) (modBrdLane l (fun x => { x with mark := marks.getD l 0xFF }) u) := if_pos hseq
  have hbrd' : l < u.brd.lanes.length := hu.brdLength ▸ hbrd
  have hlane' : l < (modBrdLane l (fun x => { x with mark := marks.getD l 0xFF }) u).lanes.length := hu.length ▸ hlane
  constructor
  · rw [ht.brdLane, hown, ← hu.brdLane]
    exact brdLane_modBrdLane hbrd'
  · rw [ht.lane, hown, lane_modLane hlane']

/-- A lane that is not of the row, or whose sequence number differs, keeps its mark. -/
theorem foldl_markTaken_not {q : Nat} {ls : List Nat} (hnot : l ∉ ls ∨ seqs.getD l 0 ≠ q) :
    brdLane (ls.foldl (markTaken marks seqs q) s) l = brdLane s l := by
  refine (foldl_steps (R := fun s t => brdLane t l = brdLane s l) (fun _ => rfl) (fun h h' => h'.trans h) ls (fun t j hj => ?_) s)
  by_cases hl : j = l
  · subst hl
    rw [markTaken, if_neg (hnot.resolve_left fun h => h hj)]
    rfl
  · exact (markedBeside_markTaken hl).brdLane

theorem mem_upLanes (hact : laneActive s l = true) : l ∈ upLanes s ↔ (brdLane s l).down = false := by
  have hlt : l < 32 := by
    simp only [laneActive, Bool.and_eq_true, decide_eq_true_eq] at hact
    exact hact.1
  simp [upLanes, hlt, hact]

theorem exec_alignRow (hclk : enginesClocked s = true) : exec (.alignRow marks seqs) s =
    .next ((upLanes s).foldl (markTaken marks seqs (rowSeq s seqs)) (aligning (rowSeq s seqs) s)) :=
  congrArg Host.Outcome.next (if_neg (by simp [hclk]))

end

/-! ## The obligation -/

/-- Settles O46: a lane that goes down by what `declareDown` does, the marks of an ALIGN row by a fold in which each lane takes its
own. -/
theorem lanesFollowed : Obligations.LanesFollowed := by
  intro l s hclk hact hbrd hlanes
  have hl : l < 32 := by
    simp only [laneActive, Bool.and_eq_true, decide_eq_true_eq] at hact
    exact hact.1
  refine ⟨fun i hi hup => ?down, fun hup hfree => ?deskew, fun hdown hfree => ?laneUp, fun hforced => ?forced,
    fun marks seqs => ?align⟩
  case down =>
    rcases hi with rfl | rfl
    · have hlane : l < s.lanes.length := by omega
      have hrow : exec (.laneDown l) s = .next (declareDown l (modLane l (fun x => { x with syncErr := min 65535 (x.syncErr + 4) }) s)) :=
        congrArg Host.Outcome.next (if_pos (by simp [hclk, hl]))
      exact ⟨_, hrow, laneGone_declareDown rfl (by rw [lane_modLane hlane]) (fun j hj => lane_modLane_ne hj) hact hup
        (by omega) (by rw [modLane, List.length_modify]; exact hlane)⟩
    · have hrow : exec (.deskewFailure l) s = .next (declareDown l (raise (56 + l / 4) s)) :=
        congrArg Host.Outcome.next (if_pos (by rw [hclk, hact]; rfl))
      have hlanes' : (raise (56 + l / 4) s).lanes = s.lanes := by rw [raise_eq]
      have hlane : ∀ j, lane (raise (56 + l / 4) s) j = lane s j := fun j => congrArg (fun x : List Lane => x.getD j {}) hlanes'
      exact ⟨_, hrow, laneGone_declareDown (by rw [raise_eq]; rfl) (by rw [hlane]) (fun j _ => hlane j) hact hup (by omega)
        (by rw [hlanes']; omega)⟩
  case deskew =>
    have hact' : laneActive (raise (56 + l / 4) s) l = true := by rw [raise_eq]; exact hact
    have hup' : (brdLane (raise (56 + l / 4) s) l).down = false := by rw [raise_eq]; exact hup
    have hlog : logicalOf (raise (56 + l / 4) s) l = logicalOf s l := by rw [raise_eq]; rfl
    have hrow : exec (.deskewFailure l) s = .next (declareDown l (raise (56 + l / 4) s)) :=
      congrArg Host.Outcome.next (if_pos (by rw [hclk, hact]; rfl))
    rw [hrow, declareDown_eq hact' hup', hlog, if_pos hfree, downTold, hlog]
    rfl
  case laneUp => exact congrArg Host.Outcome.next (if_pos (by simp [hclk, hact, hdown, hfree]))
  case forced => exact congrArg Host.Outcome.next (if_neg (by simp [hforced]))
  case align =>
    generalize hq : rowSeq s seqs = q
    have hframe := foldl_steps (R := Aligned) .refl .trans (upLanes s)
      (fun t j _ => markTaken_frame (marks := marks) (seqs := seqs) (q := q) (j := j) (s := t)) (aligning q s)
    refine ⟨_, hq ▸ exec_alignRow hclk, ?_, ?_, fun hup hseq => ?_, fun hnot => ?_⟩
    · rw [hframe]
      rfl
    · rw [hframe]
      rfl
    · obtain ⟨hmark, hlocked⟩ := foldl_markTaken_own (s := aligning q s) (marks := marks) (seqs := seqs)
        (ls := upLanes s) ((mem_upLanes hact).mpr hup) (List.nodup_range.filter _) hseq (hbrd ▸ hl) (hlanes ▸ (by omega))
      exact ⟨hmark, hlocked⟩
    · have hrest := foldl_markTaken_not (s := aligning q s) (marks := marks) (seqs := seqs) (q := q) (ls := upLanes s) (l := l)
        (hnot.imp (fun hdown hin => by simp [(mem_upLanes hact).mp hin] at hdown) id)
      exact hrest

end Sys2Proof.Machine
end

section
/-! Triggers and the scripts of the sensor-control SPI masters (04 R156-R159). -/
namespace Sys2Proof.Machine

open Sys2Proof

section

variable {k o p : Nat} {a : SpiJob} {b : List Byte} {c : Cmd} {s t u : State}

/-! ## Scripts of a port -/

theorem spi_modSpi {g : Spi → Spi} (h : p < s.brd.spis.length) : spi (modSpi p g s) p = g (spi s p) := by
  simp [spi, modSpi, modBrd, List.getD_eq_getElem?_getD, h]

theorem trig_modTrig {g : Trig → Trig} (h : o < s.brd.trigs.length) : trig (modTrig o g s) o = g (trig s o) := by
  simp [trig, modTrig, modBrd, List.getD_eq_getElem?_getD, h]

theorem trig_modTrig_ne {g : Trig → Trig} (h : k ≠ o) : trig (modTrig o g s) k = trig s k := by
  simp [trig, modTrig, modBrd, List.getD_eq_getElem?_getD, Ne.symm h]

/-- A port beyond those of the device has nothing to send. -/
theorem spi_of_length_le (h : s.brd.spis.length ≤ p) : spi s p = {} := by
  simp [spi, List.getD_eq_getElem?_getD, List.getElem?_eq_none h]

theorem trig_of_length_le (h : s.brd.trigs.length ≤ o) : trig s o = {} := by
  simp [trig, List.getD_eq_getElem?_getD, List.getElem?_eq_none h]

theorem lt_spis_of_sending (h : (spi s p).sending = some a) : p < s.brd.spis.length := by
  by_contra hle
  rw [spi_of_length_le (by omega)] at h
  simp at h

/-- Only the masters and what has left the device change when scripts start. -/
theorem startScript_frame : startScript p s =
    { s with brd := { s.brd with spis := (startScript p s).brd.spis }, out := (startScript p s).out } := by
  unfold startScript
  split
  · rfl
  · split <;> rfl

theorem startScript_busy (h : (spi s p).sending ≠ none) : startScript p s = s := by
  rw [startScript, if_pos (Option.isSome_iff_ne_none.mpr h)]

theorem startScript_empty (h : (spi s p).queue = []) : startScript p s = s := by
  unfold startScript
  rw [h]
  exact ite_self _

theorem startScript_one (h : (spi s p).sending = none) (hq : (spi s p).queue = [a]) :
    (startScript p s).out = s.out ++ [.spi p a.words] := by
  have hnext : nextScript [a] = some a := by
    unfold nextScript
    cases hspare : a.spare <;> simp [hspare]
  unfold startScript
  rw [h, hq, hnext]
  rfl

theorem queueScript_frame : queueScript p a s =
    { s with brd := { s.brd with spis := (queueScript p a s).brd.spis }, out := (queueScript p a s).out } :=
  startScript_frame

/-- A script that falls due on an idle port is sent at once. -/
theorem queueScript_idle (hp : p < s.brd.spis.length) (h : (spi s p).sending = none) (hq : (spi s p).queue = []) :
    (queueScript p a s).out = s.out ++ [.spi p a.words] := by
  refine startScript_one ?_ ?_ <;> rw [spi_modSpi hp]
  · exact h
  · rw [hq]
    rfl

/-- A script that falls due on a busy port waits in its queue. -/
theorem queueScript_busy (hp : p < s.brd.spis.length) (h : (spi s p).sending ≠ none) :
    (queueScript p a s).out = s.out ∧ (spi (queueScript p a s) p).queue = (spi s p).queue ++ [a] := by
  have heq : queueScript p a s = modSpi p (fun x => { x with queue := x.queue ++ [a] }) s :=
    startScript_busy (by rw [spi_modSpi hp]; exact h)
  rw [heq, spi_modSpi hp]
  exact ⟨rfl, rfl⟩

/-! ## `BRD.TRIGGER` and edges -/

theorem effectBrdTrigger_set (hmode : fieldAt c.region 1 1 ≠ 3) : effectBrdTrigger c s =
    complete c (misoReply (spi s (fieldAt c.region 0x1C 1)).miso)
      (modTrig (fieldAt c.region 0 1) (setTrigger c.region (fUnits s.time)) s) :=
  if_neg hmode

theorem effectBrdTrigger_send (hmode : fieldAt c.region 1 1 = 3) (hwords : fieldAt c.region 3 1 ≠ 0) :
    effectBrdTrigger c s = queueScript (fieldAt c.region 0x1C 1)
      { spare := false, words := scriptWords c.region, ref := some ⟨c.fn, c.seq⟩ } (setWaiting c s) :=
  (if_pos hmode).trans (if_neg hwords)

theorem afterEdge_eq {x : Trig} (hmode : x.mode = 1 ∨ x.mode = 2) : afterEdge x =
    { x with mode := if x.mode = 2 then 0 else 1
             nextEdge := if x.mode = 2 then x.nextEdge else x.nextEdge + x.period
             scriptDue := x.scriptDue + if x.script = [] then 0 else 1 } := by
  unfold afterEdge b2n
  rcases hmode with h | h <;> cases hs : x.script <;> simp [h]

/-- The time at which an edge leaves. -/
def edgeTime (s : State) (o : Nat) : Int := (trig s o).nextEdge + (draw s (4 * 2 ^ 32) : Nat) - 2 * 2 ^ 32

/-- An edge leaves within 2 ns of its time (log 6). -/
theorem edgeTime_near : (edgeTime s o - (trig s o).nextEdge).natAbs ≤ 2 * 2 ^ 32 := by
  have hdraw : draw s (4 * 2 ^ 32) < 4 * 2 ^ 32 + 1 := Nat.mod_lt _ (by omega)
  unfold edgeTime
  omega

theorem exec_triggerEdge (hclk : enginesClocked s = true) (hmode : (trig s o).mode = 1 ∨ (trig s o).mode = 2)
    (hsafe : safeOf s (myUnit s 0x10 0) ≠ 2) : exec (.triggerEdge o) s =
    .next (raise (68 + o) (emit (.trigger o ((trig s o).polarity == 1) (trig s o).pulseNs (toTime (edgeTime s o)))
      (bump (modTrig o afterEdge s)))) :=
  congrArg Host.Outcome.next (if_pos (by simp [hclk, hmode, hsafe]))

theorem exec_triggerScript (hclk : enginesClocked s = true) (hdue : 0 < (trig s o).scriptDue) : exec (.triggerScript o) s =
    .next (queueScript (trig s o).port { spare := false, words := (trig s o).script, ref := none }
      (modTrig o (fun y => { y with scriptDue := y.scriptDue - 1 }) s)) :=
  congrArg Host.Outcome.next (if_pos (by simp [hclk, Nat.ne_of_gt hdue]))

/-- The port of a script that ends, with the words read back. -/
def scriptEnded (p : Nat) (miso : List Nat) (a : SpiJob) (s : State) : State :=
  raise (72 + p) (modSpi p (fun x => { x with sending := none, miso := miso.take a.words.length }) s)

theorem exec_spiScriptDone {miso : List Nat} (hclk : enginesClocked s = true) (hsend : (spi s p).sending = some a) :
    exec (.spiScriptDone p miso) s = .next (startScript p (match a.ref.bind (findCmd (scriptEnded p miso a s)) with
      | some c => complete c (misoReply (miso.take a.words.length)) (scriptEnded p miso a s)
      | none => scriptEnded p miso a s)) := by
  simp only [exec, execSpiScriptDone, hsend, hclk]
  rfl

theorem scriptEnded_queue {miso : List Nat} (hsend : (spi s p).sending = some a) :
    (spi (scriptEnded p miso a s) p).queue = (spi s p).queue := by
  have hbrd : (scriptEnded p miso a s).brd =
      (modSpi p (fun x => { x with sending := none, miso := miso.take a.words.length }) s).brd := by
    rw [scriptEnded, raise_eq]
  have hspi : spi (scriptEnded p miso a s) p = _ :=
    (congrArg (fun b : Brd => b.spis.getD p {}) hbrd).trans (spi_modSpi (lt_spis_of_sending hsend))
  rw [hspi]

end

/-! ## The obligation -/

/-- Settles O48: each row changes one output and, where a script falls due, its port. -/
theorem triggersAndScripts : Obligations.TriggersAndScripts := by
  refine ⟨fun r s c hstart hpass => ?_, fun s hclk => ⟨fun o hmode hsafe => ?edge, fun o hdue hport => ?script,
    fun p miso a hsend hqueue => ?done⟩⟩
  · have hrow : exec (.brdTrigger r) s = .next (effectBrdTrigger c s) :=
      congrArg Host.Outcome.next (runCmd_effect hstart hpass)
    refine ⟨fun hmode ho => ?set, fun hmode hwords hport => ?send⟩
    case set =>
      have hown : trig (modTrig (fieldAt c.region 0 1) (setTrigger c.region (fUnits s.time)) s) (fieldAt c.region 0 1) =
          setTrigger c.region (fUnits s.time) (trig s (fieldAt c.region 0 1)) := trig_modTrig ho
      refine ⟨_, _, hrow.trans (congrArg _ (effectBrdTrigger_set hmode)), rfl, fun k hk => trig_modTrig_ne hk, ?_⟩
      rw [hown]
      exact ⟨rfl, rfl, rfl, rfl, rfl, rfl, rfl, rfl⟩
    case send =>
      have heff := effectBrdTrigger_send (s := s) hmode hwords
      refine ⟨_, hrow.trans (congrArg _ heff), ?_, ?_, ?_, fun hsend hqueue => ?_⟩
      · rw [queueScript_frame]
        rfl
      · rw [queueScript_frame]
        rfl
      · rw [queueScript_frame]
        rfl
      · exact queueScript_idle (s := setWaiting c s) hport hsend hqueue
  case edge =>
    have ho : o < s.brd.trigs.length := by
      by_contra hle
      rw [trig_of_length_le (by omega)] at hmode
      simp at hmode
    exact ⟨_, edgeTime s o, exec_triggerEdge hclk hmode hsafe, rfl, edgeTime_near, rfl,
      (trig_modTrig ho).trans (afterEdge_eq hmode), fun k hk => trig_modTrig_ne hk⟩
  case script =>
    have ho : o < s.brd.trigs.length := by
      by_contra hle
      rw [trig_of_length_le (by omega)] at hdue
      simp at hdue
    have htrig : ∀ (a : SpiJob) (t : State) k, trig (queueScript (trig s o).port a t) k = trig t k := fun a t k => by
      rw [queueScript_frame]
      rfl
    refine ⟨_, exec_triggerScript hclk hdue, ?_, ?_, fun k hk => (htrig _ _ k).trans (trig_modTrig_ne hk),
      fun hsend hqueue => queueScript_idle (s := modTrig o _ s) hport hsend hqueue,
      fun hsend => queueScript_busy (s := modTrig o _ s) hport hsend⟩
    · rw [queueScript_frame]
      rfl
    · rw [htrig, trig_modTrig ho]
  case done =>
    have hempty : (spi (scriptEnded p miso a s) p).queue = [] := (scriptEnded_queue hsend).trans hqueue
    have hrow := exec_spiScriptDone (miso := miso) hclk hsend
    refine ⟨scriptEnded p miso a s, rfl, fun href => ?_, fun q c href hfind => ?_⟩
    · rw [hrow, href]
      exact congrArg _ (startScript_empty hempty)
    · have hfind' : findCmd (scriptEnded p miso a s) q = some c := by
        rw [scriptEnded, raise_eq]
        exact hfind
      rw [hrow, href, Option.bind_some, hfind']
      have hafter : (spi (complete c (misoReply (miso.take a.words.length)) (scriptEnded p miso a s)) p).queue = [] := by
        rw [complete_eq]
        exact hempty
      exact congrArg _ (startScript_empty hafter)

end Sys2Proof.Machine
end

section
/-! What the development of a frame changes: taps, statistics, references and the coding sessions' frames
(06 R215, R224, R225; 07 R240, R275; 09 R336). -/
namespace Sys2Proof.Machine

open Sys2Proof

section

variable {α β : Type} {a b c h i k n v w x y : Nat} {π : StreamSt → α} {g : StreamSt → StreamSt} {p : PipeCfg} {f : Frame} {d : Developed}
  {bytes : List Byte} {slots : List (Option Nat)} {rows : List RowRec} {l : Tbl CfgVal} {done : Bool} {s t u : State}

/-! ## Fields of the streams -/

/-- From `s` to `t` the streams keep a part of what they hold. -/
structure StreamsKeep (π : StreamSt → α) (s t : State) : Prop where
  length : t.streams.length = s.streams.length
  kept : ∀ k, π (stream t k) = π (stream s k)

theorem StreamsKeep.of_streams (hst : t.streams = s.streams) : StreamsKeep π s t :=
  ⟨congrArg List.length hst, fun _ => congrArg π (stream_of_streams hst)⟩

theorem StreamsKeep.refl (s : State) : StreamsKeep π s s := .of_streams rfl

theorem StreamsKeep.trans (hst : StreamsKeep π s t) (htu : StreamsKeep π t u) : StreamsKeep π s u :=
  ⟨htu.length.trans hst.length, fun k => (htu.kept k).trans (hst.kept k)⟩

theorem StreamsKeep.less (φ : α → β) (hst : StreamsKeep π s t) : StreamsKeep (fun z => φ (π z)) s t :=
  ⟨hst.length, fun k => congrArg φ (hst.kept k)⟩

theorem StreamsKeep.ite {p : Prop} [Decidable p] (ht : StreamsKeep π s t) (hu : StreamsKeep π s u) :
    StreamsKeep π s (if p then t else u) := by
  split
  · exact ht
  · exact hu

theorem streamsKeep_modStream (hg : ∀ z, π (g z) = π z) : StreamsKeep π s (modStream i g s) :=
  ⟨List.length_modify .., fun _ => kept_modStream hg⟩

/-- What a stream holds apart from the taps, the records and the references of its pipe. -/
def flow (z : StreamSt) : List Frame × List ReadyFrame × Tbl Nat × Option Nat × Nat × Nat × Nat :=
  (z.frames, z.ready, z.ring, z.play, z.nextSerial, z.lastSerial, z.lastVerdict)

/-! ## The relation of the development -/

/-- From `s` to `t` frames were developed: HBM was written, and the streams and the coding sessions took of it. -/
def Written (s t : State) : Prop :=
  t = { reported s t with streams := t.streams, hbm := t.hbm, cod := t.cod } ∧ StreamsKeep flow s t

theorem Written.refl (s : State) : Written s s := ⟨rfl, .refl s⟩

theorem Written.trans (hst : Written s t) (htu : Written t u) : Written s u := by
  obtain ⟨hst, hkept⟩ := hst
  obtain ⟨htu, hkept'⟩ := htu
  refine ⟨?_, hkept.trans hkept'⟩
  rw [htu, hst]
  rfl

theorem Written.ite {p : Prop} [Decidable p] (ht : Written s t) (hu : Written s u) : Written s (if p then t else u) := by
  split
  · exact ht
  · exact hu

theorem Stored.written (hst : Stored s t) : Written s t := by
  have hstreams : t.streams = s.streams := by rw [hst]; rfl
  refine ⟨?_, .of_streams hstreams⟩
  unfold Stored at hst
  rw [hst]
  rfl

theorem Reported.written (hst : Reported s t) : Written s t := hst.stored.written

theorem written_modStream (hg : ∀ z, flow (g z) = flow z) : Written s (modStream i g s) := ⟨rfl, streamsKeep_modStream hg⟩

theorem written_hbmWrite : Written s (hbmWrite a bytes s) := stored_hbmWrite.written

theorem written_foldl {op : State → β → State} (hop : ∀ t e, Written t (op t e)) {l : List β} : Written s (l.foldl op s) :=
  foldl_steps .refl .trans l (fun t e _ => hop t e) s

/-! ## Taps (06 R224, R225) -/

theorem written_modTapSlot {slot : Nat} {g : TapSlot → TapSlot} : Written s (modTapSlot i k slot g s) :=
  written_modStream fun _ => rfl

theorem written_dropOldSlots : Written s (dropOldSlots i k s) := written_modStream fun _ => rfl

theorem written_openTapSlots {time : Time} : Written s (openTapSlots l i n time slots s) := by
  refine written_foldl fun t k => ?_
  dsimp only
  split
  · exact written_dropOldSlots.trans (written_modStream fun _ => rfl)
  · exact .refl t

theorem written_sendMerge {x : TapCfg} : Written s (sendMerge k n x c h a b bytes s) :=
  written_foldl fun _ _ => written_foldl fun _ _ => written_foldl fun _ _ => reported_tthSend.written

theorem stored_writeRows : Stored s (writeRows a b w h x c k n bytes s) :=
  foldl_steps Stored.refl Stored.trans _ (fun _ _ _ => stored_hbmWrite) s

theorem written_writeRows : Written s (writeRows a b w h x c k n bytes s) := stored_writeRows.written

theorem written_patchSlot {key : Nat} : Written s (patchSlot i k key s) := by
  unfold patchSlot
  split
  · exact .refl s
  · exact written_writeRows.trans written_modTapSlot

theorem written_patchPending : Written s (patchPending i k s) :=
  .ite (.refl s) ((written_foldl fun _ _ => written_patchSlot).trans reported_raise.written)

theorem written_writeTap : Written s (writeTap i k p f d a done s) := by
  unfold writeTap
  split
  · exact .ite (.refl s) (.ite (((written_patchPending.trans written_writeRows).trans written_modTapSlot).trans written_sendMerge)
      ((written_patchPending.trans written_writeRows).trans written_modTapSlot))
  · exact .refl s

theorem written_writeTaps : Written s (writeTaps i p f d a done s) := written_foldl fun _ _ => written_writeTap

theorem written_commitTapSlots : Written s (commitTapSlots i slots v s) := by
  refine written_foldl fun t k => ?_
  split
  · exact written_modTapSlot
  · exact .refl t

theorem written_retractTapSlots : Written s (retractTapSlots i slots v s) := by
  refine written_foldl fun t k => ?_
  split
  · exact written_modTapSlot
  · exact .refl t

/-! ## Statistics, references, records (07 R240-R243, R274-R276) -/

theorem reported_streamSource : Reported s (streamSource i a b s) := reported_raise

theorem written_publishStats {img : List (List Rgb)} : Written s (publishStats i l p n v a img s) := by
  unfold publishStats
  refine .trans ?_ reported_streamSource.written
  refine .trans ?_ reported_unitEvent.written
  refine .trans ?_ (written_modStream fun _ => rfl)
  exact written_hbmWrite

theorem written_dropStats : Written s (dropStats i s) := by
  refine .trans ?_ reported_streamSource.written
  exact written_modStream fun _ => rfl

theorem written_writeTnr {img : List (List Int)} : Written s (writeTnr i l p a img s) := .ite (.refl s) written_hbmWrite

theorem written_keepTnr {img : List (List Int)} : Written s (keepTnr l p f img s) := by
  unfold keepTnr
  split
  · exact .refl s
  · exact .ite written_writeTnr (written_writeTnr.trans (written_modStream fun _ => rfl))

theorem written_keepTnrThrough {img : List (List Int)} : Written s (keepTnrThrough i l p f img s) :=
  .ite (.refl s) (written_writeTnr.trans (written_modStream fun _ => rfl))

theorem written_noteRecord : Written s (noteRecord i n bytes s) := written_modStream fun _ => rfl

theorem reported_tellSplit : Reported s (tellSplit i n rows s) := by
  unfold tellSplit
  split
  · exact reported_unitEvent.trans reported_streamSource
  · exact .refl s

theorem written_inlineStats : Written s (inlineStats p f d s) := .ite written_publishStats (.refl s)

/-! ## Frames for the coding sessions (09 R336) -/

theorem written_modEnc {g : EncSess → EncSess} : Written s (modEnc n g s) := ⟨rfl, .of_streams rfl⟩

theorem written_queueFrame {fr : EncFrame} {l : List EncSess} : Written s (queueFrame fr l s) :=
  written_foldl fun _ _ => written_modEnc

theorem written_encTapCommitted : Written s (encTapCommitted i f s) := by
  refine written_foldl fun t k => ?_
  dsimp only
  split
  · exact written_queueFrame
  · exact .refl t

theorem written_encTapRows : Written s (encTapRows p f d a done s) := by
  refine written_foldl fun t x => ?_
  dsimp only
  split
  · exact .ite (.refl t) written_modEnc
  · exact .refl t

end

end Sys2Proof.Machine
end

section
/-! What the capture groups and the coding sessions change as frames reach them (06 R216, R217, R220; 08 R283-R297; 09 R345-R354). -/
namespace Sys2Proof.Machine

open Sys2Proof

section

variable {a i n q z : Nat} {b : List Byte} {c : CodedPic} {e : EncCfg} {f : Frame} {m : PipeCfg} {p : EncPic} {x : EncSess} {s t u : State}

/-! ## Capture groups -/

/-- From `s` to `t` capture groups coded rows. -/
def Captured (s t : State) : Prop := t = { reported s t with groups := t.groups, hbm := t.hbm, relays := t.relays }

theorem Captured.refl (s : State) : Captured s s := rfl

theorem Captured.trans (hst : Captured s t) (htu : Captured t u) : Captured s u := by
  unfold Captured at *
  rw [htu, hst]
  rfl

theorem Captured.ite {p : Prop} [Decidable p] (ht : Captured s t) (hu : Captured s u) : Captured s (if p then t else u) := by
  split
  · exact ht
  · exact hu

theorem Stored.captured (hst : Stored s t) : Captured s t := by
  unfold Stored at hst
  unfold Captured
  rw [hst]
  rfl

theorem Reported.captured (hst : Reported s t) : Captured s t := hst.stored.captured

theorem captured_modGroup {g : Group → Group} : Captured s (modGroup z g s) := rfl

theorem captured_modRelay {g : Relay → Relay} : Captured s (modRelay z g s) := by
  unfold Captured modRelay
  rfl

theorem reported_raiseLost : Reported s (raiseLost z s) :=
  foldl_steps Reported.refl Reported.trans _ (fun _ _ _ => reported_raise) s

theorem captured_lostToRecorder {gone : List RingEntry} : Captured s (lostToRecorder z gone s) := by
  unfold lostToRecorder
  refine .ite (.refl s) ?_
  split
  · exact .refl s
  · exact (captured_modGroup.trans (reported_unitEvent.trans (reported_raiseLost.trans reported_raise)).captured)

theorem captured_lostToRelay {gone : List RingEntry} : Captured s (lostToRelay z n gone s) := by
  unfold lostToRelay
  refine .ite (.refl s) ?_
  split
  · exact .refl s
  · exact (captured_modRelay.trans (reported_unitEvent.trans (reported_raiseLost.trans reported_raise)).captured)

theorem captured_reclaim : Captured s (reclaim z n s) :=
  .ite (.refl s) (((captured_lostToRecorder.trans captured_lostToRelay).trans captured_lostToRelay).trans captured_modGroup)

theorem captured_ringWrite : Captured s (ringWrite z n b s) := (stored_hbmWrite.trans stored_hbmWrite).captured

theorem captured_zipFeed {rows : List RowRec} : Captured s (zipFeed z m n rows s) := by
  unfold zipFeed
  dsimp only
  split
  · exact .refl s
  · exact .ite captured_modGroup ((captured_reclaim.trans captured_modGroup).trans captured_ringWrite)

theorem captured_zipBegin {l : Tbl CfgVal} : Captured s (zipBegin l z n s) := by
  unfold zipBegin
  split
  · exact .refl s
  · exact .ite (.refl s) ((Captured.ite (.refl s) captured_modGroup).trans captured_modGroup)

/-- From `s` to `t` capture groups published frames, and the recorder followed them. -/
def Published (s t : State) : Prop :=
  t = { reported s t with
    groups := t.groups, hbm := t.hbm, relays := t.relays, recorder := t.recorder, cmds := t.cmds, lanes := t.lanes
    freeCtr := t.freeCtr }

theorem Published.refl (s : State) : Published s s := rfl

theorem Published.trans (hst : Published s t) (htu : Published t u) : Published s u := by
  unfold Published at *
  rw [htu, hst]
  rfl

theorem Published.ite {p : Prop} [Decidable p] (ht : Published s t) (hu : Published s u) : Published s (if p then t else u) := by
  split
  · exact ht
  · exact hu

theorem Captured.published (hst : Captured s t) : Published s t := by
  unfold Captured at hst
  unfold Published
  rw [hst]
  rfl

theorem recorded.published (hst : Machine.recorded s t) : Published s t := by
  unfold Machine.recorded at hst
  unfold Published
  rw [hst]
  rfl

theorem Published.streams (hst : Published s t) : t.streams = s.streams := by rw [hst]; rfl

theorem recorded_beginAt {e : RingEntry} : Machine.recorded s (beginAt e s) :=
  recorded_modRec.trans (recorded_foldl _ fun _ _ _ => recorded_modGroup)

theorem recorded_recorderSees : Machine.recorded s (recorderSees z s) := by
  unfold recorderSees
  split
  · exact recorded_refl s
  · refine recorded.trans ?_ recorded_drain
    split
    · split
      · exact recorded_beginAt
      · exact recorded_refl s
    · exact recorded_refl s

theorem published_addEntry {e : RingEntry} : Published s (addEntry z e s) :=
  (recorded_modRec.trans recorded_modGroup).published

theorem published_keepRecord {w : ZipWork} : Published s (keepRecord z i m f w b s) :=
  ((captured_reclaim.trans captured_modGroup).trans captured_ringWrite).published.trans published_addEntry

theorem published_zipVerdict : Published s (zipVerdict z i m f b s) := by
  unfold zipVerdict
  split
  · exact .refl s
  · refine .ite (published_keepRecord.trans reported_raise.captured.published) ?_
    split
    · exact captured_modGroup.published.trans published_addEntry
    · exact captured_modGroup.published
    · exact published_keepRecord

theorem published_zipWhole : Published s (zipWhole z i m f b s) :=
  (captured_zipBegin.trans captured_zipFeed).published.trans published_zipVerdict

theorem published_publishWhole : Published s (publishWhole i m f b s) :=
  foldl_steps Published.refl Published.trans _ (fun _ _ _ => published_zipWhole.trans recorded_recorderSees.published) s

theorem published_inlineGroups : Published s (inlineGroups m f b s) :=
  foldl_steps Published.refl Published.trans _ (fun _ _ _ => published_zipVerdict.trans recorded_recorderSees.published) s

/-! ## Coding sessions -/

/-- From `s` to `t` coding sessions released pictures, and some that were closing closed. -/
def Coded (s t : State) : Prop :=
  t = { reported s t with cod := t.cod, hbm := t.hbm, queues := t.queues, cmds := t.cmds, cfg := t.cfg }

theorem Coded.refl (s : State) : Coded s s := rfl

theorem Coded.trans (hst : Coded s t) (htu : Coded t u) : Coded s u := by
  unfold Coded at *
  rw [htu, hst]
  rfl

theorem Coded.ite {p : Prop} [Decidable p] (ht : Coded s t) (hu : Coded s u) : Coded s (if p then t else u) := by
  split
  · exact ht
  · exact hu

theorem Stored.coded (hst : Stored s t) : Coded s t := by
  unfold Stored at hst
  unfold Coded
  rw [hst]
  rfl

theorem Answered.coded (hst : Answered s t) : Coded s t := by
  unfold Answered at hst
  unfold Coded
  rw [hst]
  rfl

theorem Reported.coded (hst : Reported s t) : Coded s t := hst.stored.coded

theorem Coded.streams (hst : Coded s t) : t.streams = s.streams := by rw [hst]; rfl

theorem coded_modEnc {g : EncSess → EncSess} : Coded s (modEnc n g s) := rfl

theorem coded_queueWrite : Coded s (queueWrite q b s) := .ite (Coded.trans (t := modQueue q _ s) rfl reported_raise.coded) rfl

theorem coded_pump : ∀ {k : Nat} {s : State}, Coded s (pump n q k s)
  | 0, s => .refl s
  | k + 1, s => by
    unfold pump
    split
    · exact .ite (.trans (.trans coded_modEnc coded_queueWrite) coded_pump) (.refl s)
    · exact .refl s

theorem coded_tryClose : Coded s (tryClose n s) := by
  unfold tryClose
  split
  · split
    · refine .ite ?_ (.refl s)
      dsimp only
      split
      · exact Coded.trans (t := dropSession _ s) rfl answered_complete.coded
      · rfl
    · exact .refl s
  · exact .refl s

theorem coded_pumpSession : Coded s (pumpSession x q s) := coded_pump.trans coded_tryClose

theorem coded_sendPicture : Coded s (sendPicture x e p c s) := coded_modEnc.trans coded_pumpSession

theorem coded_exportStats : Coded s (exportStats x e p c s) := by
  unfold exportStats
  split
  · exact .refl s
  · dsimp only
    refine .ite (.refl s) (.ite coded_modEnc ?_)
    exact .trans (.trans (.trans stored_hbmWrite.coded coded_modEnc) reported_unitEvent.coded) reported_raise.coded

theorem coded_assemble : Coded s (assemble n s) := by
  unfold assemble
  split
  · exact .refl s
  · split
    · exact .refl s
    · split
      · exact .refl s
      · exact .ite (coded_modEnc.trans coded_sendPicture) (.refl s)

theorem coded_keepStats {d k : Nat} {v : PeerStats} : Coded s (keepStats n d k v s) := coded_modEnc

theorem coded_releasePicture : Coded s (releasePicture x e p c s) := by
  unfold releasePicture
  split
  · split
    · refine .trans ?_ coded_assemble
      refine .trans ?_ coded_modEnc
      refine .trans ?_ reported_tthBroadcast.coded
      refine .trans ?_ coded_keepStats
      refine .trans ?_ coded_exportStats
      exact coded_modEnc
    · refine .trans ?_ coded_tryClose
      refine .trans ?_ coded_modEnc
      refine .trans ?_ reported_tthSend.coded
      refine .trans ?_ reported_tthBroadcast.coded
      refine .trans ?_ coded_keepStats
      refine .trans ?_ coded_exportStats
      exact coded_modEnc
  · refine .trans ?_ coded_sendPicture
    refine .trans ?_ coded_exportStats
    exact coded_modEnc

theorem coded_releaseReady : ∀ {k : Nat} {s : State}, Coded s (releaseReady n k s)
  | 0, s => .refl s
  | k + 1, s => by
    unfold releaseReady
    split
    · split
      · split
        · exact .ite (.refl s) (coded_releasePicture.trans coded_releaseReady)
        · exact .refl s
      · exact .refl s
    · exact .refl s

theorem coded_encVerdictOne {k : Nat} : Coded s (encVerdictOne n k x s) := by
  unfold encVerdictOne
  split
  · exact .refl s
  · exact .ite (.refl s) (.ite (coded_modEnc.trans coded_releaseReady) (.ite coded_modEnc (.refl s)))

theorem coded_encVerdict {k : Nat} : Coded s (encVerdict n k s) :=
  foldl_steps Coded.refl Coded.trans _ (fun _ _ _ => coded_encVerdictOne) s

end

end Sys2Proof.Machine
end

section
/-! Verdicts (04 R143-R147; 06 R208, R209): what they leave of the frames of a stream, of its ring and of what waits for its pipe. -/
namespace Sys2Proof.Machine

open Sys2Proof

section

variable {c i j k m n : Nat} {b : List Byte} {f g : Frame} {h : Frame → Frame} {p : PipeCfg} {r : ReadyFrame} {s t u : State}

theorem flow_inj {y z : StreamSt} : flow y = flow z ↔ y.frames = z.frames ∧ y.ready = z.ready ∧ y.ring = z.ring ∧
    y.play = z.play ∧ y.nextSerial = z.nextSerial ∧ y.lastSerial = z.lastSerial ∧ y.lastVerdict = z.lastVerdict := by
  simp only [flow, Prod.mk.injEq]

/-! ## Rows that go to the consumers of stream 0 (06 R204, R213) -/

/-- What a frame keeps while its rows move. -/
def marks (f : Frame) : Nat × Time × Tbl CfgVal × List (List Byte) := (f.serial, f.time, f.cfg, f.emb)

/-- What a stream holds apart from the rows of its frames and the work of its pipe. -/
def shown (z : StreamSt) :
    List (Nat × Time × Tbl CfgVal × List (List Byte)) × List ReadyFrame × Tbl Nat × Option Nat × Nat × Nat × Nat :=
  ((flow z).1.map marks, (flow z).2)

/-- From `s` to `t` rows moved to the consumers of stream 0. -/
def RowsMoved (s t : State) : Prop :=
  t = { reported s t with streams := t.streams, hbm := t.hbm, cod := t.cod, groups := t.groups, relays := t.relays } ∧ StreamsKeep shown s t

theorem RowsMoved.refl (s : State) : RowsMoved s s := ⟨rfl, .refl s⟩

theorem RowsMoved.trans (hst : RowsMoved s t) (htu : RowsMoved t u) : RowsMoved s u := by
  obtain ⟨hst, hkept⟩ := hst
  obtain ⟨htu, hkept'⟩ := htu
  refine ⟨?_, hkept.trans hkept'⟩
  rw [htu, hst]
  rfl

theorem RowsMoved.ite {p : Prop} [Decidable p] (ht : RowsMoved s t) (hu : RowsMoved s u) : RowsMoved s (if p then t else u) := by
  split
  · exact ht
  · exact hu

theorem StreamsKeep.shown (hst : StreamsKeep flow s t) : StreamsKeep Machine.shown s t := hst.less fun z => (z.1.map marks, z.2)

theorem Written.rowsMoved (hst : Written s t) : RowsMoved s t := by
  refine ⟨?_, hst.2.shown⟩
  obtain ⟨hst, -⟩ := hst
  rw [hst]
  rfl

theorem Captured.rowsMoved (hst : Captured s t) : RowsMoved s t := by
  have hstreams : t.streams = s.streams := by rw [hst]; rfl
  refine ⟨?_, .of_streams hstreams⟩
  unfold Captured at hst
  rw [hst]
  rfl

theorem Reported.rowsMoved (hst : Reported s t) : RowsMoved s t := hst.written.rowsMoved

/-- A change of frames that keeps their marks. -/
theorem shown_modFrame (hh : ∀ f, marks (h f) = marks f) {z : StreamSt} :
    shown { z with frames := z.frames.map fun f => if f.serial = n then h f else f } = shown z := by
  have hmap : (z.frames.map fun f => if f.serial = n then h f else f).map marks = z.frames.map marks := by
    rw [List.map_map]
    refine List.map_congr_left fun f _ => ?_
    simp only [Function.comp]
    split
    · exact hh f
    · rfl
  simp only [shown, flow, hmap]

theorem rowsMoved_modFrame (hh : ∀ f, marks (h f) = marks f) : RowsMoved s (modFrame i n h s) :=
  ⟨rfl, streamsKeep_modStream fun _ => shown_modFrame hh⟩

theorem rowsMoved_formEstimate : RowsMoved s (formEstimate p f m s) := by
  refine .ite (.refl s) ?_
  refine .trans ?_ (Written.rowsMoved (written_modStream fun _ => rfl))
  exact rowsMoved_modFrame fun _ => rfl

theorem rowsMoved_tellSplitOnce {rows : List RowRec} : RowsMoved s (tellSplitOnce i f rows s) := by
  refine .ite (.refl s) ?_
  refine .trans ?_ (rowsMoved_modFrame fun _ => rfl)
  exact reported_tellSplit.rowsMoved

theorem rowsMoved_zipFeeds {l : List Nat} {rows : List RowRec} :
    RowsMoved s (l.foldl (fun t z => zipFeed z p n rows t) s) :=
  foldl_steps RowsMoved.refl RowsMoved.trans _ (fun _ _ _ => captured_zipFeed.rowsMoved) s

theorem rowsMoved_releaseFrame : RowsMoved s (releaseFrame p f s) := by
  unfold releaseFrame
  extract_lets n s1 s2 s3 s4
  have hfed : RowsMoved s s4 := by
    refine .trans ?_ rowsMoved_zipFeeds
    refine .trans ?_ rowsMoved_tellSplitOnce
    refine .trans ?_ (rowsMoved_modFrame fun _ => rfl)
    exact rowsMoved_formEstimate
  refine .ite (.refl s) ?_
  split
  · exact hfed
  · exact hfed.trans (written_writeTaps.trans written_encTapRows).rowsMoved

theorem rowsMoved_releaseRows : RowsMoved s (releaseRows s) := by
  refine foldl_steps RowsMoved.refl RowsMoved.trans _ (fun t f _ => ?_) s
  split
  · exact .ite rowsMoved_releaseFrame (.refl t)
  · exact .refl t

theorem reported_sendHalos {y : Nat} {e : RowRec} : Reported s (sendHalos p n y e s) := by
  refine foldl_steps Reported.refl Reported.trans _ (fun t side _ => ?_) s
  dsimp only
  split
  · exact .refl t
  · exact reported_tthSend

theorem rowsMoved_unholdFrame : RowsMoved s (unholdFrame f s) := by
  have hheld : RowsMoved s (modFrame 0 f.serial (fun g => { g with held := false }) s) := rowsMoved_modFrame fun _ => rfl
  unfold unholdFrame
  split
  · exact .ite (hheld.trans (foldl_steps RowsMoved.refl RowsMoved.trans _ (fun _ _ _ => reported_sendHalos.rowsMoved) _)) hheld
  · exact hheld

theorem rowsMoved_unhold : RowsMoved s (unhold s) :=
  foldl_steps RowsMoved.refl RowsMoved.trans _ (fun t _ _ => .ite rowsMoved_unholdFrame (.refl t)) s

/-! ## Muck-out in the windows between frames (18 R599-R602) -/

/-- From `s` to `t` Muck-out went on. -/
def Mucked (s t : State) : Prop := t = { reported s t with mck := t.mck }

theorem Mucked.refl (s : State) : Mucked s s := rfl

theorem Mucked.trans (hst : Mucked s t) (htu : Mucked t u) : Mucked s u := by
  unfold Mucked at *
  rw [htu, hst]
  rfl

theorem Mucked.ite {p : Prop} [Decidable p] (ht : Mucked s t) (hu : Mucked s u) : Mucked s (if p then t else u) := by
  split
  · exact ht
  · exact hu

theorem Reported.mucked (hst : Reported s t) : Mucked s t := by
  unfold Reported at hst
  unfold Mucked
  rw [hst]
  rfl

theorem Mucked.streams (hst : Mucked s t) : t.streams = s.streams := by rw [hst]; rfl

theorem Mucked.pipes (hst : Mucked s t) : t.pipes = s.pipes := by rw [hst]; rfl

theorem mucked_endCycle : Mucked s (endCycle s) :=
  Mucked.trans (t := modMck _ s) rfl (reported_sysEvent.trans reported_raise).mucked

theorem mucked_checkCycle : Mucked s (checkCycle s) := .ite mucked_endCycle (.refl s)

theorem mucked_openWindow : Mucked s (openWindow i n s) :=
  .ite (.refl s) (.ite rfl (.trans (t := modMckPipe i _ s) rfl mucked_checkCycle))

theorem mucked_idleSlice : Mucked s (idleSlice i s) := .ite (.refl s) mucked_openWindow

theorem mucked_abandonSlice : Mucked s (abandonSlice i s) := by
  unfold abandonSlice
  split
  · exact .refl s
  · exact .trans (t := modMckPipe i _ s) rfl mucked_checkCycle

theorem streamsKeep_afterVerdict : StreamsKeep shown s (afterVerdict p s) := by
  have hrows := (rowsMoved_unhold.trans rowsMoved_releaseRows (s := s)).2
  exact .ite (hrows.trans (.of_streams mucked_openWindow.streams)) hrows

/-! ## Verdicts of stream 0 in-line -/

theorem streams_countChan : (countChan c k n s).streams = s.streams := streams_modChan

theorem streams_countVerdict : (countVerdict m c s).streams = s.streams := by
  have hcounted : (countChan c 10 (b2n (bit m 2)) (countChan c 9 (b2n (bit m 1)) (countChan c 8 (b2n (bit m 3))
      (countChan c (if bit m 0 then 7 else 6) 1 s)))).streams = s.streams := by
    rw [streams_countChan, streams_countChan, streams_countChan, streams_countChan]
  unfold countVerdict
  dsimp only
  split
  · exact hcounted
  · exact reported_raise.streams.trans hcounted

theorem streams_countVerdicts {l : List Nat} : (l.foldl (fun t c => countVerdict m c t) s).streams = s.streams :=
  foldl_leaves (p := State.streams) (fun _ _ => streams_countVerdict) l s

theorem streamsKeep_commitInline : StreamsKeep flow s (commitInline p f s) := by
  have hrest : ∀ {d : Developed} {v : State}, StreamsKeep flow v (if anyClipped s 0 p f d then raise 103 v else v) :=
    fun {_ v} => .ite (.of_streams reported_raise.streams) (.refl v)
  unfold commitInline
  refine .trans ?_ (.of_streams coded_encVerdict.streams)
  refine .trans ?_ (.of_streams published_inlineGroups.streams)
  refine .trans ?_ written_noteRecord.2
  refine .trans ?_ hrest
  refine .trans ?_ written_keepTnr.2
  refine .trans ?_ written_inlineStats.2
  refine .trans ?_ written_encTapCommitted.2
  exact written_commitTapSlots.2

theorem streamsKeep_retractInline : StreamsKeep flow s (retractInline p f s) := by
  have hrest : ∀ {d : Developed} {v : State}, StreamsKeep flow v (if anyClipped s 0 p f d then raise 103 v else v) :=
    fun {_ v} => .ite (.of_streams reported_raise.streams) (.refl v)
  unfold retractInline
  refine .trans ?_ (.of_streams coded_encVerdict.streams)
  refine .trans ?_ (.of_streams published_inlineGroups.streams)
  refine .trans ?_ (streamsKeep_modStream fun _ => rfl)
  refine .trans ?_ written_noteRecord.2
  refine .trans ?_ (.of_streams reported_raise.streams)
  refine .trans ?_ (.of_streams reported_unitEvent.streams)
  refine .trans ?_ hrest
  refine .trans ?_ written_keepTnr.2
  refine .trans ?_ written_inlineStats.2
  exact written_retractTapSlots.2

/-! ## Verdicts of frames through memory (04 R144, R145) -/

theorem written_noteReady : Written s (noteReady i s) := written_modStream fun _ => rfl

/-- A frame is handed to its pipe: it waits there, and its slot is COMMITTED. -/
def handed (i : Nat) (r : ReadyFrame) (s : State) : State :=
  setRing i r.slot 2 (modStream i (fun x => { x with ready := x.ready ++ [r] }) s)

theorem streamsKeep_handOn : StreamsKeep flow (handed i r s) (handOn i r s) :=
  .ite (written_noteReady.2.trans (.of_streams mucked_abandonSlice.streams)) written_noteReady.2

/-- The frame that a COMMITTED verdict hands to the pipe. -/
def committedFrame (s : State) (i : Nat) (p : PipeCfg) (f : Frame) (n : Nat) : ReadyFrame :=
  { slot := n, serial := f.serial, epoch := f.epoch, cfg := f.cfg, record := metaRecord s i p f [] [] 9, tnr := f.tnr.map (·.2)
    statsOk := !bit f.colour 3, stale := f.stale, weights := f.weights, shade := f.shade, estGen := f.estGen, tapGen := f.tapGen }

theorem streamsKeep_commitSlot (hslot : f.slot = some n) : ∃ u, StreamsKeep flow s u ∧
    StreamsKeep flow (handed i (committedFrame s i p f n) u) (commitSlot i p f s) := by
  unfold commitSlot
  rw [hslot]
  refine ⟨_, ?_, streamsKeep_handOn.trans (.of_streams published_publishWhole.streams)⟩
  refine .trans ?_ written_noteRecord.2
  refine .trans written_hbmWrite.2 (streamsKeep_modStream fun z => ?_)
  split <;> rfl

theorem commitSlot_none (hslot : f.slot = none) : commitSlot i p f s = s := by
  unfold commitSlot
  rw [hslot]

theorem retractSlot_eq : retractSlot i p f s =
    match f.slot with
    | some n => if frameRing f.cfg i = frameRing (stream (noteRecord i f.serial (metaRecord s i p f [] [] 9) s) i).cfg i then
        setRing i n 0 (noteRecord i f.serial (metaRecord s i p f [] [] 9) s)
      else noteRecord i f.serial (metaRecord s i p f [] [] 9) s
    | none => noteRecord i f.serial (metaRecord s i p f [] [] 9) s := rfl

/-- What a stream holds apart from its ring and the frames that wait for its pipe. -/
def rest (z : StreamSt) : List Frame × Nat × Nat := (z.frames, z.lastSerial, z.lastVerdict)

theorem StreamsKeep.rest (hst : StreamsKeep flow s t) : StreamsKeep Machine.rest s t :=
  hst.less fun z => (z.1, z.2.2.2.2.2.1, z.2.2.2.2.2.2)

theorem streamsKeep_handed : StreamsKeep rest s (handed i r s) := by
  unfold handed setRing
  refine .trans ?_ (streamsKeep_modStream fun _ => rfl)
  exact streamsKeep_modStream fun _ => rfl

theorem rest_commitSlot : StreamsKeep rest s (commitSlot i p f s) := by
  cases hslot : f.slot with
  | none => rw [commitSlot_none hslot]; exact .refl s
  | some n =>
    obtain ⟨u, hu, ht⟩ := streamsKeep_commitSlot (s := s) (i := i) (p := p) hslot
    exact hu.rest.trans (streamsKeep_handed.trans ht.rest)

theorem rest_retractSlot : StreamsKeep rest s (retractSlot i p f s) := by
  rw [retractSlot_eq]
  split
  · exact .ite (written_noteRecord.2.rest.trans (streamsKeep_modStream fun _ => rfl)) written_noteRecord.2.rest
  · exact written_noteRecord.2.rest

theorem stream_handed (hi : i < s.streams.length) : (stream (handed i r s) i).ready = (stream s i).ready ++ [r] ∧
    (stream (handed i r s) i).ring = Tbl.put 0 (stream s i).ring r.slot 2 := by
  have hi' : i < (modStream i (fun x => { x with ready := x.ready ++ [r] }) s).streams.length := by
    rw [modStream, List.length_modify]
    exact hi
  unfold handed setRing
  rw [stream_modStream hi', stream_modStream hi]
  exact ⟨rfl, rfl⟩

/-- A COMMITTED frame through memory waits for its pipe in its slot. -/
theorem commitSlot_hands (hi : i < s.streams.length) (hslot : f.slot = some n) (hwf : Tbl.wf (stream s i).ring = true) :
    Tbl.get 0 (stream (commitSlot i p f s) i).ring n = 2 ∧
      (stream (commitSlot i p f s) i).ready = (stream s i).ready ++ [committedFrame s i p f n] := by
  obtain ⟨u, hu, ht⟩ := streamsKeep_commitSlot (s := s) (i := i) (p := p) hslot
  obtain ⟨hready, hring⟩ := stream_handed (r := committedFrame s i p f n) (s := u) (i := i) (hu.length ▸ hi)
  obtain ⟨-, hready0, hring0, -⟩ := flow_inj.mp (hu.kept i)
  obtain ⟨-, hready1, hring1, -⟩ := flow_inj.mp (ht.kept i)
  constructor
  · rw [hring1, hring, hring0]
    exact Tbl.get_put hwf
  · rw [hready1, hready, hready0]

theorem stream_setRing (hi : i < s.streams.length) : (stream (setRing i n m s) i).ring = Tbl.put 0 (stream s i).ring n m ∧
    (stream (setRing i n m s) i).ready = (stream s i).ready := by
  rw [setRing, stream_modStream hi]
  exact ⟨rfl, rfl⟩

/-- The slot of a RETRACTED frame through memory is free, and its pipe never sees it. -/
theorem retractSlot_frees (hi : i < s.streams.length) (hslot : f.slot = some n) (hwf : Tbl.wf (stream s i).ring = true)
    (hring : frameRing f.cfg i = frameRing (stream s i).cfg i) : Tbl.get 0 (stream (retractSlot i p f s) i).ring n = 0 ∧
      (stream (retractSlot i p f s) i).ready = (stream s i).ready := by
  rw [retractSlot_eq, hslot]
  have hnoted : stream (noteRecord i f.serial (metaRecord s i p f [] [] 9) s) i = _ := stream_modStream hi
  have hi' : i < (noteRecord i f.serial (metaRecord s i p f [] [] 9) s).streams.length := by
    rw [noteRecord, modStream, List.length_modify]
    exact hi
  obtain ⟨hput, hready⟩ := stream_setRing (n := n) (m := 0) hi'
  dsimp only
  rw [if_pos (by rw [hnoted]; exact hring), hput, hready, hnoted]
  exact ⟨Tbl.get_put (t := (stream s i).ring) hwf, rfl⟩

/-! ## The verdict of a frame -/

/-- A frame with the verdict that it takes. -/
def judged (s : State) (i : Nat) (f : Frame) : Frame := { f with flags := unionFlags s i f }

/-- The verdict of a frame has reached its counters and its consumers. -/
def consumed (i : Nat) (p : PipeCfg) (f : Frame) (s : State) : State :=
  match p.source == 0, bit f.flags 0 with
  | true, false => commitInline p f s
  | true, true => retractInline p f s
  | false, false => commitSlot i p f s
  | false, true => retractSlot i p f s

/-- The members' counters of a verdict. -/
def verdictsCounted (p : PipeCfg) (flags : Nat) (s : State) : State :=
  if p.source ≤ 2 then (members p).foldl (fun t c => countVerdict flags c t) s else s

theorem passVerdict_eq : passVerdict i p f s =
    if p.source = 0 then afterVerdict p (closeFrame i (judged s i f) (consumed i p (judged s i f) (verdictsCounted p (unionFlags s i f) s)))
    else closeFrame i (judged s i f) (consumed i p (judged s i f) (verdictsCounted p (unionFlags s i f) s)) := rfl

theorem streams_verdictsCounted : (verdictsCounted p m s).streams = s.streams := by
  unfold verdictsCounted
  split
  · exact streams_countVerdicts
  · rfl

theorem rest_consumed : StreamsKeep rest s (consumed i p f s) := by
  unfold consumed
  split
  · exact streamsKeep_commitInline.rest
  · exact streamsKeep_retractInline.rest
  · exact rest_commitSlot
  · exact rest_retractSlot

theorem streams_closeFrame : (closeFrame i f s).streams = (modStream i (fun x =>
    { x with frames := x.frames.filter fun g => g.serial != f.serial, lastSerial := f.serial, lastVerdict := f.flags }) s).streams := by
  unfold closeFrame
  dsimp only
  split <;> rfl

theorem stream_closeFrame (hi : i < s.streams.length) : stream (closeFrame i f s) i =
    { stream s i with frames := (stream s i).frames.filter fun g => g.serial != f.serial
                      lastSerial := f.serial, lastVerdict := f.flags } :=
  (stream_of_streams streams_closeFrame).trans (stream_modStream hi)

/-- What a stream shows once the verdict of its oldest frame is passed. -/
theorem passVerdict_shown (hi : i < s.streams.length) : ∃ v, StreamsKeep shown v (passVerdict i p f s) ∧
    (stream v i).lastSerial = f.serial ∧ (stream v i).lastVerdict = unionFlags s i f ∧
    (stream v i).frames = (stream s i).frames.filter (fun g => g.serial != f.serial) ∧ (p.source ≠ 0 → v = passVerdict i p f s) := by
  have hrest : StreamsKeep rest s (consumed i p (judged s i f) (verdictsCounted p (unionFlags s i f) s)) :=
    .trans (.of_streams streams_verdictsCounted) rest_consumed
  have hi' : i < (consumed i p (judged s i f) (verdictsCounted p (unionFlags s i f) s)).streams.length := by
    rw [hrest.length]
    exact hi
  have hclosed := stream_closeFrame (f := judged s i f) hi'
  have hframes := congrArg (fun z => z.1) (hrest.kept i)
  refine ⟨closeFrame i (judged s i f) (consumed i p (judged s i f) (verdictsCounted p (unionFlags s i f) s)), ?_, ?_, ?_, ?_,
    fun hmem => ?_⟩
  · rw [passVerdict_eq]
    exact .ite streamsKeep_afterVerdict (.refl _)
  · rw [hclosed]
    rfl
  · rw [hclosed]
    rfl
  · rw [hclosed]
    exact congrArg (List.filter fun g => g.serial != f.serial) hframes
  · rw [passVerdict_eq, if_neg hmem]

theorem serials_of_shown (hst : StreamsKeep shown s t) :
    (stream t i).frames.map (·.serial) = (stream s i).frames.map (·.serial) := by
  have hmarks := congrArg (fun z => z.1.map (·.1)) (hst.kept i)
  simp only [shown, flow, List.map_map] at hmarks
  exact hmarks

/-- The ring and the frames that wait of a stream through memory, once a verdict is passed. -/
theorem passVerdict_ring (hi : i < s.streams.length) (hmem : p.source ≠ 0) (hslot : f.slot = some n)
    (hwf : Tbl.wf (stream s i).ring = true) (hring : frameRing f.cfg i = frameRing (stream s i).cfg i) :
    (bit (unionFlags s i f) 0 = true →
      Tbl.get 0 (stream (passVerdict i p f s) i).ring n = 0 ∧ (stream (passVerdict i p f s) i).ready = (stream s i).ready) ∧
    (bit (unionFlags s i f) 0 = false → Tbl.get 0 (stream (passVerdict i p f s) i).ring n = 2 ∧ ∃ r : ReadyFrame, r.slot = n ∧
      r.serial = f.serial ∧ r.epoch = f.epoch ∧ r.cfg = f.cfg ∧ (stream (passVerdict i p f s) i).ready = (stream s i).ready ++ [r]) := by
  have hstreams : stream (verdictsCounted p (unionFlags s i f) s) i = stream s i := stream_of_streams streams_verdictsCounted
  have hi1 : i < (verdictsCounted p (unionFlags s i f) s).streams.length := by
    rw [streams_verdictsCounted]
    exact hi
  have hi2 : i < (consumed i p (judged s i f) (verdictsCounted p (unionFlags s i f) s)).streams.length := by
    rw [rest_consumed.length]
    exact hi1
  have hsource : (p.source == 0) = false := by simp [hmem]
  rw [passVerdict_eq, if_neg hmem, stream_closeFrame hi2, ← hstreams]
  rw [← hstreams] at hwf hring
  constructor
  · intro hbit
    have hgone : consumed i p (judged s i f) (verdictsCounted p (unionFlags s i f) s) =
        retractSlot i p (judged s i f) (verdictsCounted p (unionFlags s i f) s) := by
      have hbit' : bit (judged s i f).flags 0 = true := hbit
      rw [consumed, hsource, hbit']
    rw [hgone]
    exact retractSlot_frees (f := judged s i f) hi1 hslot hwf hring
  · intro hbit
    have hgood : consumed i p (judged s i f) (verdictsCounted p (unionFlags s i f) s) =
        commitSlot i p (judged s i f) (verdictsCounted p (unionFlags s i f) s) := by
      have hbit' : bit (judged s i f).flags 0 = false := hbit
      rw [consumed, hsource, hbit']
    obtain ⟨hslot2, hready⟩ := commitSlot_hands (f := judged s i f) (p := p) hi1 hslot hwf
    rw [hgood]
    exact ⟨hslot2, _, rfl, rfl, rfl, rfl, hready⟩

end

end Sys2Proof.Machine
end

section
/-! The frame boundaries of the pipes (05 R169-R172), `PIPE.PLAY` (04 R147) and the patches of taps (06 R225). -/
namespace Sys2Proof.Machine

open Sys2Proof

section

variable {i k m n : Nat} {b : List Byte} {f : Frame} {d : Developed} {p : PipeCfg} {r : ReadyFrame} {s t u : State}

/-! ## What a pipe changes -/

/-- From `s` to `t` a pipe ended a frame or started one. -/
def Worked (s t : State) : Prop :=
  t = { reported s t with pipes := t.pipes, mck := t.mck, streams := t.streams, cod := t.cod, hbm := t.hbm }

theorem Worked.refl (s : State) : Worked s s := rfl

theorem Worked.trans (hst : Worked s t) (htu : Worked t u) : Worked s u := by
  unfold Worked at *
  rw [htu, hst]
  rfl

theorem Worked.ite {p : Prop} [Decidable p] (ht : Worked s t) (hu : Worked s u) : Worked s (if p then t else u) := by
  split
  · exact ht
  · exact hu

theorem Written.worked (hst : Written s t) : Worked s t := by
  obtain ⟨hst, -⟩ := hst
  unfold Worked
  rw [hst]
  rfl

theorem Mucked.worked (hst : Mucked s t) : Worked s t := by
  unfold Mucked at hst
  unfold Worked
  rw [hst]
  rfl

theorem Reported.worked (hst : Reported s t) : Worked s t := hst.mucked.worked

theorem worked_modStream {g : StreamSt → StreamSt} : Worked s (modStream i g s) := rfl

theorem worked_notePipe : Worked s (notePipe i s) :=
  foldl_steps Worked.refl Worked.trans _ (fun _ _ _ => written_noteReady.worked) s

theorem worked_writeBack {lost : Bool} : Worked s (writeBack i p f lost d s) := by
  unfold writeBack
  refine .ite (.ite worked_modStream ?_) ?_
  · refine .trans ?_ reported_raise.worked
    exact worked_modStream
  · refine .trans ?_ written_keepTnrThrough.worked
    refine .trans ?_ written_encTapCommitted.worked
    refine .trans ?_ written_commitTapSlots.worked
    exact written_writeTaps.worked

theorem worked_pipeStats {ok : Bool} : Worked s (pipeStats i p f ok d s) := .ite written_publishStats.worked (.refl s)

theorem worked_handOnFinished : Worked s (handOnFinished i p r f d m s) := by
  unfold handOnFinished
  extract_lets s1 s2 s3
  have hmarked : Worked s s2 :=
    .ite worked_modStream (.ite (.trans worked_modStream reported_raise.worked)
      (.ite (.trans worked_modStream reported_raise.worked) worked_modStream))
  have hwritten : Worked s s3 :=
    ((hmarked.trans reported_tellSplit.worked).trans worked_writeBack).trans worked_pipeStats
  exact .ite (.ite (hwritten.trans reported_raise.worked) hwritten) (hwritten.trans reported_raise.worked)

theorem worked_leavePipe : Worked s (leavePipe i r m b s) := .ite rfl rfl

theorem worked_finishFrameIn : Worked s (finishFrameIn i r s) := by
  unfold finishFrameIn
  split
  · exact .refl s
  · refine .trans ?_ worked_leavePipe
    refine .trans ?_ worked_handOnFinished
    exact .ite (.refl s) reported_raise.worked

theorem worked_endPipeFrame : Worked s (endPipeFrame i s) := by
  unfold endPipeFrame
  split
  · exact .refl s
  · refine .trans ?_ rfl
    split
    · exact worked_finishFrameIn
    · exact .refl s

theorem worked_startPipeFrame : Worked s (startPipeFrame i k s) := by
  unfold startPipeFrame
  split
  · exact .refl s
  · split
    · exact .refl s
    · refine .trans ?_ written_openTapSlots.worked
      exact .trans (.ite (.trans worked_modStream worked_modStream) worked_modStream) rfl

/-! ## The next stream of a pipe (05 R171) -/

/-- The stream with the smaller V of two, the first among equals. -/
def lesser (s : State) (m : Option Nat) (i : Nat) : Option Nat :=
  match m with
  | none => some i
  | some k => if (stream s i).v < (stream s k).v then some i else some k

theorem lesser_some (hmem : m ∈ lesser s (some k) i) : (m = k ∨ m = i) ∧ (stream s m).v ≤ (stream s k).v ∧ (stream s m).v ≤ (stream s i).v := by
  simp only [lesser, Option.mem_def] at hmem
  split at hmem <;> obtain rfl := Option.some.inj hmem
  · exact ⟨.inr rfl, by omega, by omega⟩
  · exact ⟨.inl rfl, by omega, by omega⟩

theorem foldl_lesser : ∀ (l : List Nat) (k : Nat), (l.foldl (lesser s) (some k) = some m) →
    (m = k ∨ m ∈ l) ∧ (stream s m).v ≤ (stream s k).v ∧ ∀ j ∈ l, (stream s m).v ≤ (stream s j).v
  | [], k, h => by
    obtain rfl : k = m := by simpa using h
    exact ⟨.inl rfl, by omega, by simp⟩
  | i :: l, k, h => by
    obtain ⟨q, hq⟩ : ∃ q, lesser s (some k) i = some q := by
      simp only [lesser]
      split <;> exact ⟨_, rfl⟩
    obtain ⟨hmem, hk, hi⟩ := lesser_some (m := q) hq
    rw [List.foldl_cons, hq] at h
    obtain ⟨hmem', hle, hrest⟩ := foldl_lesser l q h
    refine ⟨?_, by omega, fun j hj => ?_⟩
    · rcases hmem' with rfl | hin
      · exact hmem.imp id fun h => List.mem_cons.mpr (.inl h)
      · exact .inr (List.mem_cons_of_mem _ hin)
    · rcases List.mem_cons.mp hj with rfl | hj
      · omega
      · exact hrest j hj

theorem nextStream_least (h : nextStream i s = some m) : streamReady s m = true ∧
    ∀ k ∈ streamsIn i, streamReady s k = true → (stream s m).v ≤ (stream s k).v := by
  have hfold : ((streamsIn i).filter (streamReady s)).foldl (lesser s) none = some m := h
  cases hl : (streamsIn i).filter (streamReady s) with
  | nil => rw [hl] at hfold; cases hfold
  | cons j l =>
    rw [hl] at hfold
    obtain ⟨hmem, hj, hrest⟩ := foldl_lesser (s := s) l j hfold
    have hin : m ∈ (streamsIn i).filter (streamReady s) := by
      rw [hl]
      exact List.mem_cons.mpr hmem
    refine ⟨(List.mem_filter.mp hin).2, fun k hk hready => ?_⟩
    have hk' : k ∈ (streamsIn i).filter (streamReady s) := List.mem_filter.mpr ⟨hk, hready⟩
    rw [hl] at hk'
    rcases List.mem_cons.mp hk' with rfl | hk'
    · exact hj
    · exact hrest k hk'

/-- A ready stream that no pipe works on has a frame to start. -/
theorem ready_of_streamReady (h : streamReady s i = true) (hidle : s.pipes.contains (some i) = false) :
    ∃ r l q, (stream s i).ready = r :: l ∧ pipeIn r.cfg i = some q := by
  unfold streamReady untaken inPipe at h
  rw [hidle] at h
  cases hr : (stream s i).ready with
  | nil => simp [hr, b2n] at h
  | cons r l =>
    cases hq : pipeIn r.cfg i with
    | none => simp [hr, b2n, hq] at h
    | some q => exact ⟨r, l, q, rfl, hq⟩

/-- A frame that waits for its pipe, with the tap slots that it takes. -/
def withTaps (slots : List (Option Nat)) (r : ReadyFrame) : ReadyFrame := { r with tapSlots := slots }

/-- A stream's oldest frame takes its tap slots, and the pipe reads its ring slot. -/
def pipeTakes (i : Nat) (r : ReadyFrame) (l : List ReadyFrame) (slots : List (Option Nat)) (s : State) : State :=
  let s1 := modStream i (fun x => { x with ready := withTaps slots r :: l }) s
  if frameRing r.cfg i = frameRing (stream s1 i).cfg i then setRing i r.slot 3 s1 else s1

theorem startPipeFrame_eq {l : List ReadyFrame} (hready : (stream s i).ready = r :: l) (hp : pipeIn r.cfg i = some p) :
    ∃ slots time, startPipeFrame k i s = openTapSlots r.cfg i r.serial time slots
      { pipeTakes i r l slots s with pipes := (pipeTakes i r l slots s).pipes.set k (some i) } := by
  refine ⟨(takeTapSlots s r.cfg i p r.serial r.tapGen).1, timeAt (hbmRead s (ringAddr p r.slot) 64) 8, ?_⟩
  unfold startPipeFrame
  simp only [hready, hp]
  rfl

theorem pipeTakes_facts {l : List ReadyFrame} {slots : List (Option Nat)} (hi : i < s.streams.length) :
    (pipeTakes i r l slots s).pipes = s.pipes ∧ (stream (pipeTakes i r l slots s) i).ready = withTaps slots r :: l := by
  have hi1 : i < (modStream i (fun x => { x with ready := withTaps slots r :: l }) s).streams.length := by
    rw [modStream, List.length_modify]
    exact hi
  have hready := congrArg StreamSt.ready (stream_modStream (g := fun x => { x with ready := withTaps slots r :: l }) hi)
  unfold pipeTakes
  dsimp only
  split
  · exact ⟨rfl, (stream_setRing hi1).2.trans hready⟩
  · exact ⟨rfl, hready⟩

/-- A frame that a pipe starts is the stream's oldest. -/
theorem startPipeFrame_facts {l : List ReadyFrame} (hready : (stream s i).ready = r :: l) (hp : pipeIn r.cfg i = some p) :
    (startPipeFrame k i s).pipes = s.pipes.set k (some i) ∧
      (stream (startPipeFrame k i s) i).ready.map (·.serial) = (stream s i).ready.map (·.serial) := by
  have hi : i < s.streams.length := by
    by_contra hle
    rw [stream, List.getD_eq_getElem?_getD, List.getElem?_eq_none (by omega)] at hready
    cases hready
  obtain ⟨slots, time, heq⟩ := startPipeFrame_eq (k := k) hready hp
  obtain ⟨hpipes, hready'⟩ := pipeTakes_facts (r := r) (l := l) (slots := slots) hi
  obtain ⟨hframe, hflow⟩ := written_openTapSlots (i := i) (n := r.serial) (l := r.cfg) (slots := slots) (time := time)
    (s := { pipeTakes i r l slots s with pipes := (pipeTakes i r l slots s).pipes.set k (some i) })
  rw [heq]
  constructor
  · rw [hframe]
    exact congrArg (·.set k (some i)) hpipes
  · obtain ⟨-, hkept, -⟩ := flow_inj.mp (hflow.kept i)
    rw [hkept, hready]
    exact congrArg (List.map (·.serial)) hready'

theorem Written.pipes (hst : Written s t) : t.pipes = s.pipes := by
  obtain ⟨hst, -⟩ := hst
  rw [hst]
  rfl

theorem pipes_notePipe : (notePipe i s).pipes = s.pipes :=
  foldl_leaves (p := State.pipes) (fun _ _ => written_noteReady.pipes) _ s

theorem getD_set_none {α : Type} {l : List (Option α)} : (l.set i none).getD i none = none := by
  rw [List.getD_eq_getElem?_getD, List.getElem?_set_self']
  cases l[i]? <;> rfl

/-- No frame is in a pipe that has ended its frame. -/
theorem pipes_endPipeFrame : (endPipeFrame i s).pipes.getD i none = none := by
  unfold endPipeFrame
  split
  · assumption
  · exact getD_set_none

/-! ## `PIPE.PLAY` (04 R147) -/

/-- What a stream holds of its play-back. -/
def playing (z : StreamSt) : Option Nat × Nat := (z.play, z.nextSerial)

theorem StreamsKeep.playing (hst : StreamsKeep flow s t) : StreamsKeep Machine.playing s t :=
  hst.less fun z => (z.2.2.2.1, z.2.2.2.2.1)

theorem streamsKeep_startConfig : StreamsKeep playing s (startConfig i s) := by
  have hswitch : StreamsKeep playing s (switchStream i s) := .of_streams rfl
  exact hswitch.trans (.ite (.refl _) (streamsKeep_modStream fun _ => rfl))

theorem stream_takeSerial {time : Time} (hi : i < s.streams.length) :
    playing (stream (takeSerial i time s) i) = ((stream s i).play, ((stream s i).nextSerial + 1) % 65536) := by
  rw [takeSerial, stream_modStream hi]
  rfl

/-- The serial of a play-back frame is taken, and no slot is open. -/
def playTaken (i : Nat) (s : State) : State :=
  modStream i (fun x => { x with play := none }) (takeSerial i (fsStamp s i) (startConfig i s))

theorem playing_playTaken (hi : i < s.streams.length) :
    playing (stream (playTaken i s) i) = (none, ((stream s i).nextSerial + 1) % 65536) := by
  have hconfig := streamsKeep_startConfig (i := i) (s := s)
  have hi1 : i < (startConfig i s).streams.length := hconfig.length ▸ hi
  have hi2 : i < (takeSerial i (fsStamp s i) (startConfig i s)).streams.length := by
    rw [takeSerial, modStream, List.length_modify]
    exact hi1
  have hserial := congrArg Prod.snd (stream_takeSerial (time := fsStamp s i) hi1)
  rw [playTaken, stream_modStream hi2]
  refine Prod.ext rfl (hserial.trans ?_)
  exact congrArg (fun z => (z.2 + 1) % 65536) (hconfig.kept i)

theorem streamsKeep_handOnPlay : StreamsKeep playing (playTaken i s) (handOnPlay i n p s) := by
  have hstats : ∀ {c : Prop} [Decidable c] {v : State}, StreamsKeep playing v (if c then v else dropStats i v) :=
    .ite (.refl _) written_dropStats.2.playing
  have hclear : ∀ v, StreamsKeep playing v (clearOverspeed v) := fun _ => .of_streams rfl
  have hhanded : ∀ {v : State} {r : ReadyFrame}, StreamsKeep playing v (handed i r v) := by
    intro v r
    unfold handed setRing
    refine .trans ?_ (streamsKeep_modStream fun _ => rfl)
    exact streamsKeep_modStream fun _ => rfl
  unfold handOnPlay
  refine .trans ?_ (.of_streams published_publishWhole.streams)
  refine .trans ?_ (hhanded.trans streamsKeep_handOn.playing)
  refine .trans ?_ written_noteRecord.2.playing
  refine .trans ?_ (streamsKeep_modStream fun _ => rfl)
  refine .trans ?_ (hclear _)
  refine .trans ?_ hstats
  exact written_hbmWrite.2.playing

theorem playEffect_eq {c : Cmd} (hp : pipeIn s.cfg.committed c.target = some p) (hw : playWritten s c p = some (n, t)) :
    playEffect c s = if !bit (fieldAt c.region 0 1) 1 then complete c {} t
      else complete c (okReply (stream t c.target).nextSerial 0) (handOnPlay c.target n p t) := by
  simp only [playEffect, hp, hw]

/-- The bytes of `PIPE.PLAY`. -/
def playBytes (c : Cmd) : List Byte := (c.region.drop (blockLen layPipePlay)).take (fieldAt c.region 8 4)

theorem playWritten_open {c : Cmd} (hfirst : bit (fieldAt c.region 0 1) 0 = false) (hplay : (stream s c.target).play = some n) :
    playWritten s c p = some (n, hbmWrite (ringAddr p n + fieldAt c.region 4 4) (playBytes c) s) := by
  unfold playWritten
  simp only [hfirst, Bool.false_eq_true, if_false, hplay, Option.map_some]
  rfl

/-- A free slot is opened for a play-back frame. -/
def playOpened (i n : Nat) (s : State) : State := modStream i (fun x => { x with play := some n, ring := Tbl.put 0 x.ring n 1 }) s

theorem openPlay_eq (hplay : (stream s i).play = none) (hfree : freeRingSlot s i p = some n) : openPlay i p s = playOpened i n s := by
  unfold openPlay
  rw [hplay, hfree]
  simp only [setRing, modStream, playOpened, List.modify_modify_eq]
  rfl

theorem playWritten_first {c : Cmd} (hfirst : bit (fieldAt c.region 0 1) 0 = true) (hplay : (stream s c.target).play = none)
    (hfree : freeRingSlot s c.target p = some n) (hi : c.target < s.streams.length) : playWritten s c p =
      some (n, hbmWrite (ringAddr p n + fieldAt c.region 4 4) (playBytes c) (playOpened c.target n s)) := by
  have hopen : (stream (playOpened c.target n s) c.target).play = some n := by
    rw [playOpened, stream_modStream hi]
  unfold playWritten
  simp only [hfirst, if_true, openPlay_eq hplay hfree, hopen, Option.map_some]
  rfl

/-- At LAST the slot's header suits the stream. -/
theorem playDiffers_none {c : Cmd} (hp : pipeIn s.cfg.committed c.target = some p) (hcheck : playCheck s c = none)
    (hlast : bit (fieldAt c.region 0 1) 1 = true) (hw : playWritten s c p = some (n, t)) :
    playDiffers p (hbmRead t (ringAddr p n) 64) = none := by
  have hmiss : playMismatch s c p = none := by
    unfold playCheck at hcheck
    rw [hp] at hcheck
    have hfirst := firstFail_eq_none.mp hcheck _ List.mem_cons_self
    exact firstFail_eq_none.mp hfirst _ (by simp)
  unfold playMismatch at hmiss
  rw [hlast, hw] at hmiss
  simpa using hmiss

/-! ## Patches of taps (06 R225) -/

theorem find?_modify {α : Type} {v : Tbl α} {g : α → α} :
    Tbl.find? (Tbl.modify v n g) m = (Tbl.find? v m).map fun y => if m = n then g y else y := by
  induction v with
  | nil => rfl
  | cons e v ih =>
    obtain ⟨a, y⟩ := e
    by_cases ha : a = m
    · subst ha
      by_cases hn : a = n <;> simp [Tbl.modify, Tbl.find?, hn]
    · have hkey : Tbl.find? (Tbl.modify ((a, y) :: v) n g) m = Tbl.find? (Tbl.modify v n g) m := by
        by_cases hn : a = n <;> simp [Tbl.modify, Tbl.find?, hn] <;> simp_all
      rw [hkey, ih]
      simp [Tbl.find?, ha]

theorem tapTable_modTapSlot {g : TapSlot → TapSlot} : tapTable (modTapSlot i k m g s) i k = Tbl.modify (tapTable s i k) m g := by
  by_cases hi : i < s.streams.length
  · unfold tapTable modTapSlot
    rw [stream_modStream hi]
    simp only [List.getD_eq_getElem?_getD, List.getElem?_modify]
    cases (stream s i).taps[k]? <;> simp [Tbl.modify]
  · have hout : ∀ v : State, v.streams.length = s.streams.length → stream v i = {} := fun v hv => by
      rw [stream, List.getD_eq_getElem?_getD, List.getElem?_eq_none (by omega)]
      rfl
    unfold tapTable
    rw [hout s rfl, hout _ (List.length_modify ..)]
    match k with
    | 0 | 1 | 2 | 3 => rfl
    | k + 4 => rfl

/-- A slot of a tap whose patch is done. -/
def patchedSlot (y z : TapSlot) : TapSlot := { z with rows := y.cfg.outH, patched := true }

theorem Stored.streams (hst : Stored s t) : t.streams = s.streams := by rw [hst]; rfl

theorem tapTable_of_streams (hst : t.streams = s.streams) : tapTable t i k = tapTable s i k := by
  unfold tapTable
  rw [stream_of_streams hst]

theorem tapTable_patchSlot {y : TapSlot} (hfind : Tbl.find? (tapTable s i k) m = some y) :
    tapTable (patchSlot i k m s) i k = Tbl.modify (tapTable s i k) m (patchedSlot y) := by
  unfold patchSlot
  rw [hfind]
  dsimp only
  rw [tapTable_modTapSlot, tapTable_of_streams stored_writeRows.streams]
  rfl

theorem patchSlot_none (hfind : Tbl.find? (tapTable s i k) m = none) : patchSlot i k m s = s := by
  unfold patchSlot
  rw [hfind]

theorem find?_patchSlot_ne (hm : n ≠ m) : Tbl.find? (tapTable (patchSlot i k m s) i k) n = Tbl.find? (tapTable s i k) n := by
  cases hfind : Tbl.find? (tapTable s i k) m with
  | none => rw [patchSlot_none hfind]
  | some y =>
    rw [tapTable_patchSlot hfind, find?_modify]
    simp [hm]

/-- The keys of a table in canonical form are distinct. -/
theorem keys_nodup {α : Type} : ∀ {v : Tbl α} {a : Nat}, Tbl.above a v = true → (v.map (·.1)).Nodup ∧ ∀ e ∈ v, a ≤ e.1
  | [], _, _ => ⟨List.nodup_nil, by simp⟩
  | (b, y) :: v, a, h => by
    obtain ⟨hab, hrest⟩ : a ≤ b ∧ Tbl.above (b + 1) v = true := by simpa [Tbl.above] using h
    obtain ⟨hnodup, hle⟩ := keys_nodup hrest
    refine ⟨List.nodup_cons.mpr ⟨fun hmem => ?_, hnodup⟩, fun e he => ?_⟩
    · obtain ⟨e, he, heq⟩ := List.mem_map.mp hmem
      exact absurd ((hle e he).trans_eq heq) (Nat.not_succ_le_self b)
    · rcases List.mem_cons.mp he with rfl | he
      · exact hab
      · exact Nat.le_of_lt (Nat.lt_of_le_of_lt hab (hle e he))

theorem mem_of_find? {α : Type} {y : α} : ∀ {v : Tbl α}, Tbl.find? v n = some y → (n, y) ∈ v
  | [], h => by cases h
  | (b, z) :: v, h => by
    by_cases hb : b = n
    · subst hb
      obtain rfl : z = y := by simpa [Tbl.find?] using h
      exact List.mem_cons_self
    · exact List.mem_cons_of_mem _ (mem_of_find? (by simpa [Tbl.find?, hb] using h))

/-- The slots of a tap that wait for their patch. -/
def unpatchedSlots (s : State) (i k : Nat) : List Nat := ((tapTable s i k).filter fun e => e.2.unpatched).map (·.1)

/-- Every slot that waits for its patch takes it once. -/
theorem find?_patches {y : TapSlot} (hwf : Tbl.wf (tapTable s i k) = true) (hfind : Tbl.find? (tapTable s i k) n = some y)
    (hun : y.unpatched = true) : n ∈ unpatchedSlots s i k ∧
      Tbl.find? (tapTable ((unpatchedSlots s i k).foldl (fun t n => patchSlot i k n t) s) i k) n = some (patchedSlot y y) := by
  have hmem : n ∈ unpatchedSlots s i k :=
    List.mem_map.mpr ⟨(n, y), List.mem_filter.mpr ⟨mem_of_find? hfind, hun⟩, rfl⟩
  obtain ⟨u, hu, ht⟩ := foldl_passes (R := fun s t => Tbl.find? (tapTable t i k) n = Tbl.find? (tapTable s i k) n)
    (op := fun t n => patchSlot i k n t) (fun _ => rfl) (fun h h' => h'.trans h)
    (keys_nodup (Tbl.above_filter (p := fun e => e.2.unpatched) hwf)).1 hmem (fun _ _ _ hne => find?_patchSlot_ne hne.symm) s
  refine ⟨hmem, ht.trans ?_⟩
  rw [tapTable_patchSlot (hu.trans hfind), find?_modify, hu, hfind]
  simp

theorem execTapPatchDone_eq (hclk : enginesClocked s = true) (hk : k < 4) (hmem : n ∈ unpatchedSlots s 0 k) :
    exec (.tapPatchDone 0 k) s = .next (raise (104 + k) ((unpatchedSlots s 0 k).foldl (fun t n => patchSlot 0 k n t) s)) := by
  have hrow : exec (.tapPatchDone 0 k) s = .next (patchPending 0 k s) :=
    congrArg Host.Outcome.next (if_neg (by simp [hclk]; omega))
  have hdue : (unpatchedSlots s 0 k).isEmpty = false := by
    cases h : unpatchedSlots s 0 k with
    | nil => rw [h] at hmem; cases hmem
    | cons => rfl
  rw [hrow]
  exact congrArg _ (if_neg (by rw [← unpatchedSlots, hdue]; simp))

/-- From `s` to `t` slots of taps were patched. -/
def Patched (s t : State) : Prop := t = { reported s t with streams := t.streams, hbm := t.hbm }

theorem Patched.trans (hst : Patched s t) (htu : Patched t u) : Patched s u := by
  unfold Patched at *
  rw [htu, hst]
  rfl

theorem Stored.patched (hst : Stored s t) : Patched s t := by
  unfold Stored at hst
  unfold Patched
  rw [hst]
  rfl

theorem patched_patchSlot : Patched s (patchSlot i k m s) := by
  unfold patchSlot
  split
  · rfl
  · exact stored_writeRows.patched.trans rfl

end

/-! ## The obligation -/

/-- Settles O49: the verdict of the oldest frame, what a pipe starts, the cases of `PIPE.PLAY` and the patches of a tap. -/
theorem verdictsAndBoundaries : Obligations.VerdictsAndBoundaries := by
  refine ⟨fun i s f p hhead hpipe hclk hdue => ?_, fun pipe s hclk hprofile hpipe _ => ⟨fun i hnext hidle => ?starts,
    fun hnone => ?idle⟩, fun r s c p hstart hpass hp hi => ⟨fun n hfirst hlast hplay => ?bytes, fun n hfirst hlast hplay hfree => ?first,
    fun n hfirst hlast hplay => ?last⟩, fun s hclk => ⟨fun i hblend => ?blend, fun k n y hk hwf hfind hun => ?patch⟩⟩
  · have hi : i < s.streams.length := by
      by_contra hle
      rw [stream, List.getD_eq_getElem?_getD, List.getElem?_eq_none (by omega)] at hhead
      cases hhead
    have hrow : exec (.frameVerdict i) s = .next (passVerdict i p f s) := by
      simp only [exec, execFrameVerdict, hhead, hpipe, hclk, hdue, Bool.and_self, if_true]
    obtain ⟨v, hshown, hserial, hverdict, hframes, hmem⟩ := passVerdict_shown (p := p) (f := f) hi
    have hkept := hshown.kept i
    refine ⟨_, hrow, ?_, ?_, fun g hg => ?_, fun hsource => ?_, fun n hsource hslot hwf hring =>
      passVerdict_ring hi hsource hslot hwf hring⟩
    · exact (congrArg (fun z => z.2.2.2.2.2.1) hkept).trans hserial
    · exact (congrArg (fun z => z.2.2.2.2.2.2) hkept).trans hverdict
    · have hin : g.serial ∈ (stream v i).frames.map (·.serial) :=
        serials_of_shown hshown ▸ List.mem_map_of_mem hg
      rw [hframes] at hin
      obtain ⟨g', hg', heq⟩ := List.mem_map.mp hin
      simpa [heq] using (List.mem_filter.mp hg').2
    · rw [← hmem hsource]
      exact hframes
  case starts =>
    obtain ⟨hready, hleast⟩ := nextStream_least hnext
    obtain ⟨r, l, q, hfront, hq⟩ := ready_of_streamReady hready hidle
    set s1 := notePipe pipe (endPipeFrame pipe (notePipe pipe s)) with hs1
    have hrow : exec (.pipeFrameBoundary pipe) s = .next (noteReady i (startPipeFrame pipe i (abandonSlice pipe s1))) := by
      simp only [exec, execPipeFrameBoundary]
      rw [if_neg (by simp [hclk, hprofile]; omega), ← hs1, hnext]
    have hslice := mucked_abandonSlice (i := pipe) (s := s1)
    have hstream : stream (abandonSlice pipe s1) i = stream s1 i := stream_of_streams hslice.streams
    obtain ⟨hpipes, hserials⟩ := startPipeFrame_facts (k := pipe) (s := abandonSlice pipe s1) (hstream ▸ hfront) hq
    have hworked : Worked s s1 := (worked_notePipe.trans worked_endPipeFrame).trans worked_notePipe
    refine ⟨_, hrow, ((hworked.trans hslice.worked).trans worked_startPipeFrame).trans written_noteReady.worked, ?_, ?_, hleast⟩
    · rw [written_noteReady.pipes, hpipes, hslice.pipes]
    · rw [(flow_inj.mp (written_noteReady.2.kept i)).2.1, hserials, hstream]
  case idle =>
    set s1 := notePipe pipe (endPipeFrame pipe (notePipe pipe s)) with hs1
    have hnopipe : s1.pipes.getD pipe none = none := by
      rw [hs1, pipes_notePipe]
      exact pipes_endPipeFrame
    have hrow : exec (.pipeFrameBoundary pipe) s =
        .next (if pipe == 0 && (sourced s1.cfg.active 0).any (·.1 == 0) then s1 else idleSlice pipe s1) := by
      simp only [exec, execPipeFrameBoundary]
      rw [if_neg (by simp [hclk, hprofile]; omega), ← hs1, hnone]
    have hslice : Mucked s1 (if pipe == 0 && (sourced s1.cfg.active 0).any (·.1 == 0) then s1 else idleSlice pipe s1) :=
      .ite (.refl s1) mucked_idleSlice
    exact ⟨_, hrow, by rw [hslice.pipes]; exact hnopipe, hslice.streams⟩
  case bytes =>
    have hrow : exec (.pipePlay r) s = .next (playEffect c s) := congrArg Host.Outcome.next (runCmd_effect hstart hpass)
    rw [hrow, playEffect_eq hp (playWritten_open hfirst hplay), hlast]
    rfl
  case first =>
    have hrow : exec (.pipePlay r) s = .next (playEffect c s) := congrArg Host.Outcome.next (runCmd_effect hstart hpass)
    rw [hrow, playEffect_eq hp (playWritten_first hfirst hplay hfree hi), hlast]
    rfl
  case last =>
    have hrow : exec (.pipePlay r) s = .next (playEffect c s) := congrArg Host.Outcome.next (runCmd_effect hstart hpass)
    have hwritten := playWritten_open (p := p) hfirst hplay
    have hstored := stored_hbmWrite (a := ringAddr p n + fieldAt c.region 4 4) (bs := playBytes c) (s := s)
    refine ⟨playDiffers_none hp hpass hlast hwritten, handOnPlay c.target n p (hbmWrite (ringAddr p n + fieldAt c.region 4 4) (playBytes c) s), ?_, ?_⟩
    · rw [hrow, playEffect_eq hp hwritten, hlast, stream_of_streams hstored.streams]
      rfl
    · have hi' : c.target < (hbmWrite (ringAddr p n + fieldAt c.region 4 4) (playBytes c) s).streams.length := by
        rw [hstored.streams]
        exact hi
      have hplaying := (streamsKeep_handOnPlay (n := n) (p := p)).kept c.target |>.trans (playing_playTaken hi')
      rw [stream_of_streams hstored.streams] at hplaying
      exact ⟨congrArg Prod.fst hplaying, congrArg Prod.snd hplaying⟩
  case blend => exact congrArg Host.Outcome.next (if_pos (by simp [hclk, hblend]))
  case patch =>
    obtain ⟨hmem, hpatched⟩ := find?_patches hwf hfind hun
    have hframe := foldl_steps (R := Patched) (op := fun t n => patchSlot 0 k n t) (fun _ => rfl) Patched.trans (unpatchedSlots s 0 k)
      (fun _ _ _ => patched_patchSlot) s
    refine ⟨_, execTapPatchDone_eq hclk hk hmem, hframe.trans reported_raise.stored.patched, ?_, fun hlead hon hlt => ?_⟩
    · rw [tapTable_of_streams reported_raise.streams]
      exact hpatched
    · rw [isPending_raise ?_ hlt]
      · have hroute : routeOf ((unpatchedSlots s 0 k).foldl (fun t n => patchSlot 0 k n t) s) (104 + k) = routeOf s (104 + k) := by
          rw [hframe]
          rfl
        rw [hroute, hon]
        simp
      · rw [hframe]
        exact hlead

end Sys2Proof.Machine
end

section
/-! What the packets of the sensor links change (04 R122-R142, R160-R164): channels, frames and what takes their rows. -/
namespace Sys2Proof.Machine

open Sys2Proof

section

variable {α β : Type} {κ : Chan → α} {g : Chan → Chan} {b : List Byte} {c d i k m n w y fl : Nat} {f : Frame} {h : Frame → Frame}
  {ok : Bool} {p : PipeCfg} {r : RowRec} {s t u : State}

/-! ## Channels -/

/-- From `s` to `t` the channels keep a part of what they hold. -/
structure ChansKeep (κ : Chan → α) (s t : State) : Prop where
  brd : t.brd.chans.length = s.brd.chans.length
  csi : t.csi.length = s.csi.length
  kept : ∀ c, κ (chan t c) = κ (chan s c)

theorem ChansKeep.of_eq (hbrd : t.brd.chans = s.brd.chans) (hcsi : t.csi = s.csi) : ChansKeep κ s t where
  brd := congrArg List.length hbrd
  csi := congrArg List.length hcsi
  kept c := by rw [chan, chan, hbrd, hcsi]

theorem ChansKeep.refl (s : State) : ChansKeep κ s s := .of_eq rfl rfl

theorem ChansKeep.trans (hst : ChansKeep κ s t) (htu : ChansKeep κ t u) : ChansKeep κ s u :=
  ⟨htu.brd.trans hst.brd, htu.csi.trans hst.csi, fun c => (htu.kept c).trans (hst.kept c)⟩

theorem ChansKeep.less (φ : α → β) (hst : ChansKeep κ s t) : ChansKeep (fun x => φ (κ x)) s t :=
  ⟨hst.brd, hst.csi, fun c => congrArg φ (hst.kept c)⟩

theorem ChansKeep.ite {p : Prop} [Decidable p] (ht : ChansKeep κ s t) (hu : ChansKeep κ s u) :
    ChansKeep κ s (if p then t else u) := by
  split
  · exact ht
  · exact hu

/-- A channel that the device has. -/
def HasChan (c : Nat) (s : State) : Prop := if c < 8 then c < s.brd.chans.length else c - 8 < s.csi.length

theorem ChansKeep.hasChan (hst : ChansKeep κ s t) (hc : HasChan c s) : HasChan c t := by
  unfold HasChan at *
  rwa [hst.brd, hst.csi]

theorem chan_modChan (hc : HasChan c s) : chan (modChan c g s) c = g (chan s c) := by
  unfold HasChan at hc
  unfold chan modChan
  split
  · rw [if_pos (by assumption)] at hc
    simp [modBrd, List.getD_eq_getElem?_getD, hc]
  · rw [if_neg (by assumption)] at hc
    simp [List.getD_eq_getElem?_getD, hc]

theorem chan_modChan_ne (hd : d ≠ c) : chan (modChan c g s) d = chan s d := by
  unfold chan modChan
  by_cases hc : c < 8 <;> by_cases hd8 : d < 8
  · simp [hc, hd8, modBrd, List.getD_eq_getElem?_getD, hd.symm]
  · simp [hc, hd8, modBrd]
  · simp [hc, hd8]
  · have hne : c - 8 ≠ d - 8 := by omega
    simp [hc, hd8, List.getD_eq_getElem?_getD, hne]

theorem chan_of_not_hasChan (hc : ¬ HasChan c s) : chan s c = {} := by
  unfold HasChan at hc
  unfold chan
  split <;> rename_i h8
  · rw [if_pos h8] at hc
    simp [List.getD_eq_getElem?_getD, List.getElem?_eq_none (Nat.le_of_not_lt hc)]
  · rw [if_neg h8] at hc
    simp [List.getD_eq_getElem?_getD, List.getElem?_eq_none (Nat.le_of_not_lt hc)]

theorem lengths_modChan : (modChan c g s).brd.chans.length = s.brd.chans.length ∧ (modChan c g s).csi.length = s.csi.length := by
  unfold modChan
  split
  · exact ⟨List.length_modify .., rfl⟩
  · exact ⟨rfl, List.length_modify ..⟩

theorem chansKeep_modChan (hκ : ∀ x, κ (g x) = κ x) : ChansKeep κ s (modChan c g s) := by
  refine ⟨lengths_modChan.1, lengths_modChan.2, fun d => ?_⟩
  by_cases hd : d = c
  · subst hd
    by_cases hhas : HasChan d s
    · rw [chan_modChan hhas, hκ]
    · have hhas' : ¬ HasChan d (modChan d g s) := by
        unfold HasChan at *
        rwa [lengths_modChan.1, lengths_modChan.2]
      rw [chan_of_not_hasChan hhas, chan_of_not_hasChan hhas']
  · rw [chan_modChan_ne hd]

/-- What a channel holds apart from its counters. -/
def uncounted (x : Chan) : Chan := { x with counters := [] }

/-- What a channel holds that only its own packets and its FS change. -/
def chanCore (x : Chan) : Nat × Nat × Bool × Nat := (x.pixels, x.crc, x.isOpen, x.serial)

theorem ChansKeep.core (hst : ChansKeep uncounted s t) : ChansKeep chanCore s t := hst.less chanCore

/-! ## The relation of a packet -/

/-- From `s` to `t` a packet was taken. -/
def Taken (κ : Chan → α) (s t : State) : Prop := ingested s t ∧ ChansKeep κ s t

theorem ingested.trans (hst : Machine.ingested s t) (htu : Machine.ingested t u) : Machine.ingested s u := by
  unfold Machine.ingested at *
  rw [htu, hst]
  rfl

theorem Taken.refl (s : State) : Taken κ s s := ⟨rfl, .refl s⟩

theorem Taken.trans (hst : Taken κ s t) (htu : Taken κ t u) : Taken κ s u := ⟨hst.1.trans htu.1, hst.2.trans htu.2⟩

theorem Taken.ite {p : Prop} [Decidable p] (ht : Taken κ s t) (hu : Taken κ s u) : Taken κ s (if p then t else u) := by
  split
  · exact ht
  · exact hu

theorem Taken.core (hst : Taken uncounted s t) : Taken chanCore s t := ⟨hst.1, hst.2.core⟩

theorem RowsMoved.taken (hst : RowsMoved s t) : Taken κ s t := by
  obtain ⟨hst, -⟩ := hst
  refine ⟨?_, .of_eq (by rw [hst]; rfl) (by rw [hst]; rfl)⟩
  unfold ingested
  rw [hst]
  rfl

theorem Reported.taken (hst : Reported s t) : Taken κ s t := hst.rowsMoved.taken

theorem Stored.taken (hst : Stored s t) : Taken κ s t := hst.written.rowsMoved.taken

theorem taken_modFrame : Taken κ s (modFrame i n h s) := ⟨rfl, .of_eq rfl rfl⟩

theorem ingested_modChan : ingested s (modChan c g s) := by
  unfold modChan
  split <;> rfl

theorem taken_modChan (hκ : ∀ x, κ (g x) = κ x) : Taken κ s (modChan c g s) := ⟨ingested_modChan, chansKeep_modChan hκ⟩

theorem taken_countChan : Taken uncounted s (countChan c k n s) := taken_modChan fun _ => rfl

theorem taken_countLink : Taken κ s (countLink k n s) := ⟨rfl, .of_eq rfl rfl⟩

theorem taken_raise : Taken κ s (raise n s) := reported_raise.taken

/-! ## Retraction -/

theorem FramesMoved.ingested (hst : FramesMoved s t) : Machine.ingested s t := by
  unfold FramesMoved at hst
  unfold Machine.ingested
  rw [hst]
  rfl

theorem chansKeep_dropPackets : ChansKeep chanCore s (dropPackets n f s) := by
  refine foldl_steps ChansKeep.refl ChansKeep.trans _ (fun _ _ _ => chansKeep_modChan fun x => ?_) s
  split <;> rfl

theorem chansKeep_latchLens {l : Tbl CfgVal} : ChansKeep κ s (latchLens l i s) := .ite (.refl s) (.of_eq rfl rfl)

theorem chansKeep_decideFrame : ChansKeep κ s (decideFrame i n s) := by
  unfold decideFrame
  split
  · exact .refl s
  · have hdec : ChansKeep κ s (modFrame i n (fun g => { g with decided := true }) s) := .of_eq rfl rfl
    exact .ite (hdec.trans reported_tthBroadcast.taken.2) hdec

theorem chansKeep_addFlags : ChansKeep κ s (addFlags i n fl f s) := by
  have hadd : ChansKeep κ s (modFrame i n (fun g => { g with flags := g.flags ||| fl }) s) := .of_eq rfl rfl
  exact .ite (hadd.trans reported_tthBroadcast.taken.2) hadd

theorem chansKeep_retract : ChansKeep chanCore s (retract i n fl s) := by
  cases hf : frameOf s i n with
  | none => rw [retract_none hf]; exact .refl s
  | some f =>
    have hin : ChansKeep chanCore s (retractedIn i n fl f s) := taken_modFrame.2.trans chansKeep_dropPackets
    rw [retract_eq hf]
    exact .ite chansKeep_addFlags (.ite hin (hin.trans (chansKeep_decideFrame.trans chansKeep_latchLens)))

theorem taken_retract : Taken chanCore s (retract i n fl s) := ⟨framesMoved_retract.ingested, chansKeep_retract⟩

theorem taken_decideFrame : Taken κ s (decideFrame i n s) := ⟨framesMoved_decideFrame.ingested, chansKeep_decideFrame⟩

theorem taken_latchLens {l : Tbl CfgVal} : Taken κ s (latchLens l i s) := ⟨framesMoved_latchLens.ingested, chansKeep_latchLens⟩

/-! ## Rows (04 R133, R148, R149) -/

theorem taken_placeRow : Taken uncounted s (placeRow i p f r c s) := by
  unfold placeRow
  extract_lets y s1 s2 s3
  have hcounted : Taken uncounted s s2 := (taken_modFrame.trans taken_countChan).trans taken_countChan
  have hstored : Taken uncounted s s3 := by
    simp only [s3]
    split
    · exact hcounted.trans stored_hbmWrite.taken
    · exact hcounted
  exact .ite (hstored.trans reported_sendHalos.taken) hstored

theorem taken_assembleRows : ∀ {n : Nat} {s : State}, Taken uncounted s (assembleRows i m p n s)
  | 0, s => .refl s
  | n + 1, s => by
    unfold assembleRows
    split
    · exact .refl s
    · split
      · exact .refl s
      · exact taken_placeRow.trans taken_assembleRows

theorem taken_advance : Taken uncounted s (advance i n p s) :=
  .ite (taken_assembleRows.trans rowsMoved_releaseRows.taken) taken_assembleRows

theorem taken_checkElastic : Taken chanCore s (checkElastic m n s) := by
  unfold checkElastic
  split
  · exact .refl s
  · split
    · exact .refl s
    · extract_lets fill peak s1
      have hfilled : Taken chanCore s s1 := ⟨rfl, .of_eq rfl rfl⟩
      have hdrained : Taken chanCore s1 (modBrd (fun b => { b with fill := 0 }) s1) := ⟨rfl, .of_eq rfl rfl⟩
      exact .ite hfilled (((hfilled.trans hdrained).trans taken_retract).trans (taken_countLink.trans taken_raise))

theorem taken_checkSkew : Taken chanCore s (checkSkew n p s) := by
  unfold checkSkew
  split
  · exact .refl s
  · exact .ite (.refl s) taken_retract

/-! ## Lines (04 R128, R139-R142) -/

theorem taken_storeLine : Taken κ s (storeLine i p c y r w s) := .ite (.refl s) taken_modFrame

theorem taken_fillLines : ∀ {n y : Nat} {s : State}, Taken κ s (fillLines i p c y n s)
  | 0, _, s => .refl s
  | _ + 1, _, _ => taken_storeLine.trans taken_fillLines

theorem taken_lineLength : Taken uncounted s (lineLength i c n w s) :=
  .ite ((taken_modFrame.trans taken_countChan).trans taken_raise)
    (.ite ((taken_modFrame.trans taken_countChan).trans taken_raise) (.refl s))

theorem taken_flagFrame : Taken κ s (flagFrame i c fl s) := taken_modFrame

theorem taken_countFrame : Taken κ s (countFrame i c k n s) := taken_modFrame

/-- The line in progress of a channel is stored. -/
theorem endLine_none {eol : Bool} (hcur : (chan s c).cur = none) : endLine i p c eol s = s := by
  unfold endLine
  rw [hcur]

/-- A line as its frame takes it. -/
def lineRow (w : Nat) (a : LineAcc) : RowRec :=
  { px := fitLine w a.px, gain := a.gain, split := a.split, short := decide (a.px.length < w)
    long := decide (w < a.px.length), crcBad := a.crcBad }

/-- The line in progress of a channel is counted and joins its frame. -/
def lineTaken (i : Nat) (p : PipeCfg) (c : Nat) (eol : Bool) (a : LineAcc) (s : State) : State :=
  storeLine i p c a.line (lineRow (chanWidth (frameCfg s i c) p) a) a.lastGain
    (lineLength i c a.px.length (chanWidth (frameCfg s i c) p) (if eol then s else countChan c 15 1 s))

/-- A channel whose line has ended. -/
def afterLine (w : Nat) (a : LineAcc) (x : Chan) : Chan :=
  { x with cur := none, lines := a.line + 1, lastGain := a.lastGain
           lastGood := if a.crcBad then x.lastGood else some (fitLine w a.px) }

theorem endLine_some {eol : Bool} {a : LineAcc} (hcur : (chan s c).cur = some a) :
    endLine i p c eol s = modChan c (afterLine (chanWidth (frameCfg s i c) p) a) (lineTaken i p c eol a s) := by
  simp only [endLine, hcur]
  rfl

theorem taken_lineTaken {eol : Bool} {a : LineAcc} : Taken chanCore s (lineTaken i p c eol a s) :=
  (Taken.trans (.ite (.refl s) taken_countChan.core) taken_lineLength.core).trans taken_storeLine

theorem taken_endLine {eol : Bool} : Taken chanCore s (endLine i p c eol s) := by
  cases hcur : (chan s c).cur with
  | none => rw [endLine_none hcur]; exact .refl s
  | some a => rw [endLine_some hcur]; exact taken_lineTaken.trans (taken_modChan fun _ => rfl)

/-- A line that ends is the channel's latest. -/
theorem endLine_line {eol : Bool} {a : LineAcc} (hhas : HasChan c s) (hcur : (chan s c).cur = some a) :
    (chan (endLine i p c eol s) c).lines = a.line + 1 ∧ (chan (endLine i p c eol s) c).cur = none := by
  rw [endLine_some hcur, chan_modChan (taken_lineTaken.2.hasChan hhas)]
  exact ⟨rfl, rfl⟩

theorem taken_skipLines : Taken chanCore s (skipLines i p c y s) := by
  refine .ite (.refl s) (.trans ?_ (taken_modChan fun _ => rfl))
  exact ((taken_fillLines.trans taken_flagFrame).trans taken_countFrame).trans taken_countChan.core

theorem taken_startLine : Taken chanCore s (startLine i p c y n s) := .trans taken_skipLines (taken_modChan fun _ => rfl)

/-- A line that skips none starts with no pixels. -/
theorem startLine_next (hhas : HasChan c s) (hy : y = (chan s c).lines) :
    (chan (startLine i p c y n s) c).cur = some { line := y, px := [], gain := n, lastGain := n } := by
  have hskip : skipLines i p c y s = s := if_pos (by omega)
  rw [startLine, hskip, chan_modChan hhas]

end

end Sys2Proof.Machine
end

section
/-! Packets between two FS (04 R122-R132, R139-R142, R160-R164): lines, embedded data and the end of a frame. -/
namespace Sys2Proof.Machine

open Sys2Proof

section

variable {b : List Byte} {c i k n type y : Nat} {e : Nat × PipeCfg} {f : Frame} {h : Hdr} {handle : Hdr → Bool → State → State}
  {ok bad : Bool} {p : PipeCfg} {q : BrdPacket} {s t u : State}

/-! ## Which stream takes a packet -/

theorem openCfg_of (hchan : chanCore (chan t c) = chanCore (chan s c)) (hstreams : t.streams = s.streams)
    (hcfg : t.cfg.active = s.cfg.active) : openCfg t c = openCfg s c := by
  simp only [chanCore, Prod.mk.injEq] at hchan
  obtain ⟨-, -, hopen, hserial⟩ := hchan
  rw [openCfg, openCfg, hopen, hserial, hstreams, hcfg]

theorem cfg_countChan : (countChan c k n s).cfg = s.cfg := by
  have h := (taken_countChan (c := c) (k := k) (n := n) (s := s)).1
  rw [h]
  rfl

theorem openStream_countChan : openStream (countChan c k n s) c = openStream s c :=
  congrArg (fun v => chanStream v c) (openCfg_of (taken_countChan.core.2.kept c) streams_countChan (by rw [cfg_countChan]))

theorem frameOf_countChan : frameOf (countChan c k n s) i y = frameOf s i y := by
  rw [frameOf, frameOf, stream_of_streams streams_countChan]

theorem core_countChan : chanCore (chan (countChan c k n s) c) = chanCore (chan s c) := taken_countChan.core.2.kept c

theorem uncounted_countChan : uncounted (chan (countChan c k n s) c) = uncounted (chan s c) := taken_countChan.2.kept c

/-! ## Packets of Bridle (04 R123-R132) -/

theorem takePacket_badHeader (hclk : ingestClocked s = true) (hh : hdrOf q.hdr = none) :
    takePacket type q handle s = raise 66 (countLink 0 1 s) := by
  simp only [takePacket, hclk, hh, Bool.not_true, Bool.false_eq_true, if_false]

theorem takePacket_disabled (hclk : ingestClocked s = true) (hh : hdrOf q.hdr = some h) (htype : h.type = type)
    (hoff : bit (fieldAt (brdIn (packetCfg s h.type h.vc)) 2 1) h.vc = false) : takePacket type q handle s = countLink 1 1 s := by
  subst htype
  simp [takePacket, hclk, hh, hoff]

theorem takePacket_handled (hclk : ingestClocked s = true) (hh : hdrOf q.hdr = some h) (htype : h.type = type)
    (hon : bit (fieldAt (brdIn (packetCfg s h.type h.vc)) 2 1) h.vc = true)
    (hok : packetOk (packetCfg s h.type h.vc) h q = true) (hstream : chanStream (packetCfg s h.type h.vc) h.vc = some e) :
    takePacket type q handle s = handle h true (countChan h.vc 0 1 s) := by
  subst htype
  simp [takePacket, hclk, hh, hon, hok, hstream]

theorem not_broken (hok : packetOk u.cfg.active h q = true ∨ ∃ v, packetOk v h q = true) : q.broken = false := by
  rcases hok with hok | ⟨v, hok⟩ <;> simp only [packetOk, Bool.and_eq_true, Bool.not_eq_true'] at hok <;> exact hok.1.1

/-! ## Line packets -/

theorem taken_lineTold {old : Bool} : Taken chanCore s (if old then advance i n p (endLine i p c false s) else s) :=
  .ite (taken_endLine.trans taken_advance.core) (.refl s)

/-- What a line packet leaves of every channel beside the pixels that it counts. -/
theorem taken_linePacket : Taken chanCore (countPixels h.vc h.count b s) (linePacket i p h ok false b s) := by
  unfold linePacket
  extract_lets c s1 old ended same s2 s3 s4 s5 m s6
  have hended : Taken chanCore s1 ended := taken_lineTold
  have h2 : Taken chanCore s1 s2 := .ite (.refl _) (taken_endLine.trans taken_startLine)
  have h3 : Taken chanCore s1 s3 := (h2.trans (.ite (.refl _) taken_flagFrame)).trans (taken_modChan fun _ => rfl)
  have h4 : Taken chanCore s1 s4 := .ite (h3.trans taken_checkElastic) h3
  have h5 : Taken chanCore s1 s5 := .ite (h4.trans taken_endLine) h4
  have h6 : Taken chanCore s1 s6 := h5.trans taken_advance.core
  exact .ite (((hended.trans taken_flagFrame).trans taken_countChan.core).trans taken_raise) (.ite (h6.trans taken_checkSkew) h6)

/-- A whole line in one packet that follows the channel's latest. -/
theorem linePacket_whole (hhas : HasChan h.vc s) (hmem : p.source ≠ 0) (heol : h.eol = true) (hcur : (chan s h.vc).cur = none)
    (hline : h.line = (chan s h.vc).lines) : let t := linePacket i p h true false b s
      (chan t h.vc).lines = h.line + 1 ∧ (chan t h.vc).cur = none := by
  have hhas1 : HasChan h.vc (countPixels h.vc h.count b s) := by
    unfold HasChan at *
    rwa [countPixels, lengths_modChan.1, lengths_modChan.2]
  have hchan1 : chan (countPixels h.vc h.count b s) h.vc = _ := chan_modChan hhas
  have hcur1 : (chan (countPixels h.vc h.count b s) h.vc).cur = none := by rw [hchan1]; exact hcur
  have hlines1 : h.line = (chan (countPixels h.vc h.count b s) h.vc).lines := by rw [hchan1]; exact hline
  generalize hs1 : countPixels h.vc h.count b s = s1 at hhas1 hcur1 hlines1
  have hstart := startLine_next (i := i) (p := p) (n := h.gain) hhas1 hlines1
  have hhas2 : HasChan h.vc (startLine i p h.vc h.line h.gain s1) := taken_startLine.2.hasChan hhas1
  generalize hs3 : modChan h.vc (addPixels (packetPixels p h b) h.gain true) (startLine i p h.vc h.line h.gain s1) = s3
  have hhas3 : HasChan h.vc s3 := by
    rw [← hs3]
    unfold HasChan at *
    rwa [lengths_modChan.1, lengths_modChan.2]
  obtain ⟨a, ha, hal⟩ : ∃ a, (chan s3 h.vc).cur = some a ∧ a.line = h.line := by
    rw [← hs3, chan_modChan hhas2]
    simp only [addPixels, hstart]
    exact ⟨_, rfl, rfl⟩
  have heq : linePacket i p h true false b s = advance i (chan (endLine i p h.vc true s3) h.vc).serial p (endLine i p h.vc true s3) := by
    unfold linePacket
    simp only [Bool.false_eq_true, if_false, hs1, hcur1, endLine_none hcur1, if_true, hs3, heol, Bool.true_and, ha, hmem,
      Option.isSome_some, ← hlines1, Nat.lt_irrefl, decide_false]
  have hkept := (taken_advance (i := i) (p := p) (n := (chan (endLine i p h.vc true s3) h.vc).serial)
    (s := endLine i p h.vc true s3)).2.kept h.vc
  obtain ⟨hlines, hnone⟩ := endLine_line (i := i) (p := p) (eol := true) hhas3 ha
  dsimp only
  rw [heq]
  exact ⟨(congrArg Chan.lines hkept).trans (hlines.trans (by rw [hal])), (congrArg Chan.cur hkept).trans hnone⟩

/-! ## The end of a frame (04 R142) -/

/-- A channel that its FE closes. -/
def shut (x : Chan) : Chan := { x with isOpen := false }

/-- From `s` to `t` the FE of a channel was taken. -/
def Ended (c : Nat) (s t : State) : Prop := ingested s t ∧ (chan t c).isOpen = false

theorem ended_shut (hhas : HasChan c s) (hin : ingested u s) : Ended c u (modChan c shut s) := by
  refine ⟨hin.trans ingested_modChan, ?_⟩
  rw [chan_modChan hhas]
  rfl

theorem Ended.after (hst : Ended c s t) (htu : Taken chanCore t u) : Ended c s u :=
  ⟨hst.1.trans htu.1, (congrArg (fun z => z.2.2.1) (htu.2.kept c)).trans hst.2⟩

theorem ended_endSkipped (hhas : HasChan c s) : Ended c s (endSkipped i c s) :=
  ended_shut (s := modFrame i (chan s c).serial (fun f => { f with ended := f.ended ++ [c] }) s) hhas rfl

/-- A frame's rows go on after an FE, and it is decided with its last member. -/
def feFollowed (i n : Nat) (p : PipeCfg) (s : State) : State :=
  let s4 := advance i n p s
  let s5 := if p.source = 0 then checkSkew n p s4 else s4
  match frameOf s5 i n with
  | some f =>
    if f.decided || !(members p).all f.ended.contains then s5
    else if bit f.flags 3 && p.retractCrc then retract i n 0 s5
    else latchLens s5.cfg.committed i (decideFrame i n s5)
  | none => s5

theorem taken_feFollowed : Taken chanCore s (feFollowed i n p s) := by
  unfold feFollowed
  extract_lets s4 s5
  have h4 : Taken chanCore s s4 := taken_advance.core
  have h5 : Taken chanCore s s5 := .ite (h4.trans taken_checkSkew) h4
  split
  · exact .ite h5 (.ite (h5.trans taken_retract) (h5.trans (taken_decideFrame.trans taken_latchLens)))
  · exact h5

/-- A frame with its FE of a channel that holds `x`. -/
def feTaken (c : Nat) (x : Chan) (fl feLines fePixels : Nat) (mismatch : Bool) (f : Frame) : Frame :=
  { f with flags := f.flags ||| fl ||| (if mismatch then vCrc else 0), ended := f.ended ++ [c], lines := f.lines + x.lines
           feLines := f.feLines + feLines, pixels := f.pixels + x.pixels, fePixels := f.fePixels + fePixels }

theorem endMember_eq {feLines fePixels : Nat} {mismatch : Bool} : ∃ fl bad, ∃ h : Frame → Frame, ∃ y n,
    endMember i p c feLines fePixels mismatch s =
      let s1 := endLine i p c false s
      let s2 := modFrame i (chan s1 c).serial h s1
      let s3 := modChan c shut (if bad = true then s2 else fillLines i p c y n s2)
      if bad = true then retract i (chan s1 c).serial fl s3 else feFollowed i (chan s1 c).serial p s3 :=
  let x := chan (endLine i p c false s) c
  let v := endFlags x.lines (chanHeight (frameCfg s i c) p) p.lineTol
  ⟨0, v.2, feTaken c x v.1 feLines fePixels mismatch, x.lines, chanHeight (frameCfg s i c) p - x.lines, rfl⟩

theorem ended_endMember {feLines fePixels : Nat} {mismatch : Bool} (hhas : HasChan c s) :
    Ended c s (endMember i p c feLines fePixels mismatch s) := by
  obtain ⟨fl, bad, h, y, n, heq⟩ := endMember_eq (i := i) (p := p) (c := c) (feLines := feLines) (fePixels := fePixels)
    (mismatch := mismatch) (s := s)
  rw [heq]
  extract_lets s1 s2 s3
  have h2 : Taken chanCore s s2 := taken_endLine.trans taken_modFrame
  have hfilled : Taken chanCore s (if bad = true then s2 else fillLines i p c y n s2) := .ite h2 (h2.trans taken_fillLines)
  have h3 : Ended c s s3 := ended_shut (hfilled.2.hasChan hhas) hfilled.1
  split
  · exact h3.after taken_retract
  · exact h3.after taken_feFollowed

/-! ## Embedded data (04 R130) -/

/-- A frame whose area `k` takes embedded bytes. -/
def withEmb (k n : Nat) (b : List Byte) (ok : Bool) (f : Frame) : Frame :=
  { f with emb := f.emb.modify k (· ++ b.take n), embErr := f.embErr || !ok }

theorem addEmb_eq {limit : Nat} (hf : frameOf s i (chan s c).serial = some f) : addEmb i p c limit b ok s =
    let n := limit - (f.emb.getD ((members p).idxOf c) []).length
    countChan c 13 (b.length - n) (countFrame i c 3 (b.length - n)
      (modFrame i f.serial (withEmb ((members p).idxOf c) n b ok) s)) := by
  simp only [addEmb, hf]
  rfl

theorem serial_of_frameOf (hf : frameOf s i n = some f) : f.serial = n := by
  simpa using List.find?_some hf

/-- A frame with a count. -/
def withCount (k n : Nat) (f : Frame) : Frame := { f with counts := addAt k n f.counts }

theorem frameOf_countFrame : frameOf (countFrame i c k n s) i (chan s c).serial =
    (frameOf s i (chan s c).serial).map (withCount k n) :=
  frameOf_modFrame (g := withCount k n) fun _ => rfl

theorem emb_withEmb {l : List (List Byte)} (hk : k < l.length) : l.modify k (· ++ b.take n) = l.set k (l.getD k [] ++ b.take n) := by
  rw [List.getD_eq_getElem?_getD, List.getElem?_eq_getElem hk]
  refine List.ext_getElem? fun j => ?_
  by_cases hj : k = j
  · subst hj
    simp [hk]
  · simp [hj]

theorem addEmb_facts {limit : Nat} (hf : frameOf s i (chan s c).serial = some f) (hk : (members p).idxOf c < f.emb.length) :
    let k := (members p).idxOf c
    ingested s (addEmb i p c limit b ok s) ∧ ∃ g, frameOf (addEmb i p c limit b ok s) i (chan s c).serial = some g ∧
      g.emb = f.emb.set k (f.emb.getD k [] ++ b.take (limit - (f.emb.getD k []).length)) := by
  have hserial := serial_of_frameOf hf
  rw [addEmb_eq hf]
  extract_lets k n
  rw [hserial]
  refine ⟨(taken_modFrame.trans (taken_countFrame.trans taken_countChan) : Taken uncounted s _).1, ?_⟩
  have htaken : frameOf (modFrame i (chan s c).serial (withEmb k n b ok) s) i (chan s c).serial =
      some (withEmb k n b ok f) := by
    rw [frameOf_modFrame (g := withEmb k n b ok) (fun _ => rfl), hf]
    rfl
  have hcounted := frameOf_countFrame (i := i) (c := c) (k := 3) (n := b.length - n) (s := modFrame i (chan s c).serial (withEmb k n b ok) s)
  rw [frameOf_countChan]
  refine ⟨withCount 3 (b.length - n) (withEmb k n b ok f), hcounted.trans (congrArg (Option.map _) htaken), ?_⟩
  exact emb_withEmb hk

end

end Sys2Proof.Machine
end

section
/-! The FS of a channel opens a frame (04 R122, R131, R142). -/
namespace Sys2Proof.Machine

open Sys2Proof

section

variable {b : List Byte} {c i k n fl : Nat} {f : Frame} {h : Frame → Frame} {p q : PipeCfg} {s t u : State}

/-! ## What follows the opening of a frame -/

/-- What a stream shows of its frames and of their numbering. -/
def fresh (z : StreamSt) : List (Nat × Time × Tbl CfgVal × List (List Byte)) × Nat := (z.frames.map marks, z.nextSerial)

/-- From `s` to `t` no frame began, and no channel took an FS or an FE. -/
def Followed (s t : State) : Prop := StreamsKeep fresh s t ∧ ChansKeep chanCore s t

theorem Followed.refl (s : State) : Followed s s := ⟨.refl s, .refl s⟩

theorem Followed.trans (hst : Followed s t) (htu : Followed t u) : Followed s u := ⟨hst.1.trans htu.1, hst.2.trans htu.2⟩

theorem Followed.ite {p : Prop} [Decidable p] (ht : Followed s t) (hu : Followed s u) : Followed s (if p then t else u) := by
  split
  · exact ht
  · exact hu

theorem StreamsKeep.fresh (hst : StreamsKeep Machine.shown s t) : StreamsKeep Machine.fresh s t :=
  hst.less fun z => (z.1, z.2.2.2.2.1)

theorem RowsMoved.followed (hst : RowsMoved s t) : Followed s t := ⟨hst.2.fresh, hst.taken.2⟩

theorem Reported.followed (hst : Reported s t) : Followed s t := hst.rowsMoved.followed

theorem Written.followed (hst : Written s t) : Followed s t := hst.rowsMoved.followed

theorem streamsKeep_modFrame (hh : ∀ f, marks (h f) = marks f) : StreamsKeep shown s (modFrame i n h s) := (rowsMoved_modFrame hh).2

theorem followed_modFrame (hh : ∀ f, marks (h f) = marks f) : Followed s (modFrame i n h s) := (rowsMoved_modFrame hh).followed

theorem followed_modStream {g : StreamSt → StreamSt} (hg : ∀ z, fresh (g z) = fresh z) : Followed s (modStream i g s) :=
  ⟨streamsKeep_modStream hg, .of_eq rfl rfl⟩

theorem followed_bump : Followed s (bump s) := ⟨.of_streams rfl, .of_eq rfl rfl⟩

/-! ## Retraction keeps the marks of a frame -/

theorem marks_countOpens {l : List Chan} : marks (l.foldl (fun g x => countOpen x g) f) = marks f := by
  induction l generalizing f with
  | nil => rfl
  | cons x l ih => exact ih (f := countOpen x f)

theorem marks_retractedWith {l : List Chan} : marks (retractedWith l fl f) = marks f := marks_countOpens

theorem streamsKeep_retractedIn : StreamsKeep shown s (retractedIn i n fl f s) :=
  (rowsMoved_modFrame (h := retractedWith (openChans s n f) fl) fun _ => marks_retractedWith).2.trans
    (.of_streams streams_dropPackets)

theorem streamsKeep_decideFrame : StreamsKeep shown s (decideFrame i n s) := by
  unfold decideFrame
  split
  · exact .refl s
  · have hdec : StreamsKeep shown s (modFrame i n (fun g => { g with decided := true }) s) :=
      streamsKeep_modFrame fun _ => rfl
    exact .ite (hdec.trans (.of_streams reported_tthBroadcast.streams)) hdec

theorem streamsKeep_latchLens {l : Tbl CfgVal} : StreamsKeep shown s (latchLens l i s) :=
  .ite (.refl s) (streamsKeep_modStream fun _ => rfl)

theorem streamsKeep_addFlags : StreamsKeep shown s (addFlags i n fl f s) := by
  have hadd : StreamsKeep shown s (modFrame i n (fun g => { g with flags := g.flags ||| fl }) s) :=
    streamsKeep_modFrame fun _ => rfl
  exact .ite (hadd.trans (.of_streams reported_tthBroadcast.streams)) hadd

theorem streamsKeep_retract : StreamsKeep shown s (retract i n fl s) := by
  cases hf : frameOf s i n with
  | none => rw [retract_none hf]; exact .refl s
  | some f =>
    rw [retract_eq hf]
    exact .ite streamsKeep_addFlags (.ite streamsKeep_retractedIn
      (streamsKeep_retractedIn.trans (streamsKeep_decideFrame.trans streamsKeep_latchLens)))

theorem followed_retract : Followed s (retract i n fl s) := ⟨streamsKeep_retract.fresh, chansKeep_retract⟩

/-! ## What an FS takes and tells -/

theorem followed_openStats : Followed s (openStats i n p s) := by
  unfold openStats
  split
  · exact .refl s
  · refine .ite (.refl s) (.trans ?_ written_dropStats.followed)
    exact followed_modFrame fun _ => rfl

theorem followed_openSlot : Followed s (openSlot i p n s).1 := by
  unfold openSlot
  extract_lets stale s1 s2
  have h2 : Followed s s2 := (Followed.ite reported_raise.followed (.refl s)).trans followed_openStats
  split
  · refine .trans ?_ (followed_modStream fun _ => rfl)
    exact h2.trans (followed_modFrame fun _ => rfl)
  · exact h2

theorem followed_tellFrozen {bad : Bool} : Followed s (tellFrozen i n bad s) := by
  refine .ite (.refl s) ?_
  refine .trans ?_ reported_streamSource.followed
  refine .trans ?_ followed_bump
  refine .trans ?_ reported_unitEvent.followed
  exact followed_modStream fun _ => rfl

theorem followed_dropEarly : Followed s (dropEarly i n s) := .ite ⟨.of_streams rfl, .of_eq rfl rfl⟩ (.refl s)

/-! ## A frame opens -/

/-- The FS has been taken: the frame is the stream's latest, and the channel's own. -/
def fsTaken (i : Nat) (f : Frame) (others : List Nat) (c gain : Nat) (s : State) : State :=
  others.foldl (fun t d => modChan d (fun x => { x with owed := [f.serial] }) t)
    (modChan c (openChan f.serial gain)
      (clearOverspeed (takeSerial i f.time (modStream i (fun x => { x with frames := x.frames ++ [f], lensHeld := false }) s))))

theorem followed_openFrame (hmem : p.source ≠ 0) : ∃ f : Frame, ∃ others gain, f.serial = (stream s i).nextSerial ∧
    f.time = fsStamp s i ∧ f.cfg = (stream s i).cfg ∧ c ∉ others ∧ Followed (fsTaken i f others c gain s) (openFrame i p c b s) := by
  refine ⟨newFrame s i p c b, (members p).filter (· != c), fieldAt b 2 1 % 2, ?_, ?_, ?_, by simp, ?_⟩
  · unfold newFrame
    dsimp only
    split <;> rfl
  · unfold newFrame
    dsimp only
    split <;> rfl
  · unfold newFrame
    dsimp only
    split <;> rfl
  · unfold openFrame
    simp only [hmem, if_false]
    refine .trans ?_ followed_dropEarly
    have hbegun : ∀ {v : State} {n : Nat}, Followed v (match frameOf v i n with
        | some g => noteRecord i n (metaRecord v i p g [] [] 8) v
        | none => v) := by
      intro v n
      split
      · exact written_noteRecord.followed
      · exact .refl v
    have hflags : ∀ {v : State} {n m : Nat}, Followed v (if m = 0 then v else retract i n m v) :=
      .ite (.refl _) followed_retract
    refine .trans ?_ hflags
    refine .trans ?_ hbegun
    have htold : ∀ {x : Prop} [Decidable x] {v : State}, Followed v (if x then raise 590 v else v) :=
      .ite reported_raise.followed (.refl _)
    refine .trans ?_ htold
    refine .trans ?_ followed_tellFrozen
    exact followed_openSlot

theorem streams_modChans {l : List Nat} {g : Chan → Chan} : (l.foldl (fun t d => modChan d g t) s).streams = s.streams :=
  foldl_leaves (p := State.streams) (fun _ _ => streams_modChan) l s

theorem fresh_fsTaken {others : List Nat} {gain : Nat} (hi : i < s.streams.length) :
    fresh (stream (fsTaken i f others c gain s) i) =
      (((stream s i).frames ++ [f]).map marks, ((stream s i).nextSerial + 1) % 65536) := by
  have hi' : i < (modStream i (fun x => { x with frames := x.frames ++ [f], lensHeld := false }) s).streams.length := by
    rw [modStream, List.length_modify]
    exact hi
  have hadded : stream (modStream i (fun x => { x with frames := x.frames ++ [f], lensHeld := false }) s) i = _ :=
    stream_modStream hi
  have hstreams : (fsTaken i f others c gain s).streams =
      (takeSerial i f.time (modStream i (fun x => { x with frames := x.frames ++ [f], lensHeld := false }) s)).streams := by
    rw [fsTaken, streams_modChans, streams_modChan]
    rfl
  have hserial : ∀ {v : State} {time : Time}, i < v.streams.length →
      fresh (stream (takeSerial i time v) i) = ((stream v i).frames.map marks, ((stream v i).nextSerial + 1) % 65536) := by
    intro v time hv
    rw [takeSerial, stream_modStream hv]
    rfl
  rw [stream_of_streams hstreams, hserial hi', hadded]

theorem chan_fsTaken {others : List Nat} {gain : Nat} (hhas : HasChan c s) (hc : c ∉ others) :
    (chan (fsTaken i f others c gain s) c).isOpen = true ∧ (chan (fsTaken i f others c gain s) c).serial = f.serial := by
  have hothers : ∀ (l : List Nat) (v : State), c ∉ l →
      chan (l.foldl (fun t d => modChan d (fun x => { x with owed := [f.serial] }) t) v) c = chan v c := by
    intro l
    induction l with
    | nil => exact fun _ _ => rfl
    | cons d l ih =>
      intro v hl
      obtain ⟨hd, hl⟩ := not_or.mp (fun h => hl (List.mem_cons.mpr h))
      exact (ih _ hl).trans (chan_modChan_ne hd)
  have hhas' : HasChan c (clearOverspeed (takeSerial i f.time
      (modStream i (fun x => { x with frames := x.frames ++ [f], lensHeld := false }) s))) := hhas
  rw [fsTaken, hothers _ _ hc, chan_modChan hhas']
  exact ⟨rfl, rfl⟩

/-- What an FS leaves that opens the frame of an idle channel and stream. -/
structure Opened (c i : Nat) (time : Time) (cfg : Tbl CfgVal) (n : Nat) (t : State) : Prop where
  isOpen : (chan t c).isOpen = true
  serial : (chan t c).serial = n
  next : (stream t i).nextSerial = (n + 1) % 65536
  frame : ∃ f, frameOf t i n = some f ∧ f.time = time ∧ f.cfg = cfg

theorem opened_openFrame (hi : i < s.streams.length) (hhas : HasChan c s) (hmem : p.source ≠ 0) (hidle : (stream s i).frames = []) :
    Opened c i (fsStamp s i) (stream s i).cfg (stream s i).nextSerial (openFrame i p c b s) := by
  obtain ⟨f, others, gain, hserial, htime, hcfg, hc, hfresh, hchans⟩ := followed_openFrame (b := b) (c := c) (s := s) (i := i) hmem
  obtain ⟨hopen, hnumber⟩ := chan_fsTaken (i := i) (f := f) (gain := gain) hhas hc
  have hcore := hchans.kept c
  have hstream := (hfresh.kept i).trans (fresh_fsTaken hi)
  rw [hidle] at hstream
  refine ⟨(congrArg (fun z => z.2.2.1) hcore).trans hopen, (congrArg (fun z => z.2.2.2) hcore).trans (hnumber.trans hserial),
    congrArg Prod.snd hstream, ?_⟩
  have hmarks : (stream (openFrame i p c b s) i).frames.map marks = [marks f] := congrArg Prod.fst hstream
  obtain ⟨f', hframes, hf'⟩ : ∃ f', (stream (openFrame i p c b s) i).frames = [f'] ∧ marks f' = marks f := by
    obtain ⟨f', l, heq, hf', hl⟩ := List.map_eq_cons_iff.mp hmarks
    rw [List.map_eq_nil_iff.mp hl] at heq
    exact ⟨f', heq, hf'⟩
  simp only [marks, Prod.mk.injEq] at hf'
  obtain ⟨hn, ht, hv, -⟩ := hf'
  exact ⟨f', by rw [← hserial, ← hn]; exact frameOf_single hframes, ht.trans htime, hv.trans hcfg⟩

/-! ## The FS of an idle channel -/

theorem startConfig_facts : (startConfig i s).brd = s.brd ∧ (startConfig i s).csi = s.csi ∧ fsStamp (startConfig i s) i = fsStamp s i ∧
    StreamsKeep fresh s (startConfig i s) := by
  have hswitch : StreamsKeep fresh s (switchStream i s) := .of_streams rfl
  have hkept : StreamsKeep fresh s (startConfig i s) := hswitch.trans (.ite (.refl _) (streamsKeep_modStream fun _ => rfl))
  have hframe : startConfig i s = { s with cfg := (startConfig i s).cfg, streams := (startConfig i s).streams } := by
    unfold startConfig enterConfig
    extract_lets s1 old
    split <;> rfl
  refine ⟨by rw [hframe], by rw [hframe], ?_, hkept⟩
  have hnext : ((startConfig i s).streams.getD i {}).nextSerial = (s.streams.getD i {}).nextSerial :=
    congrArg Prod.snd (hkept.kept i)
  rw [fsStamp, fsStamp, hnext, hframe]
  rfl

theorem beginFrame_idle (hi : i ≠ 0) (hmem : p.source ≠ 0) (hidle : (stream s i).frames = [])
    (hnow : chanStream (startConfig i s).cfg.active c = some (k, q)) : beginFrame i p c b s = openFrame k q c b (startConfig i s) := by
  have hdue : deliverBefore i s = s := by
    unfold deliverBefore
    rw [hidle]
    exact ite_self _
  simp only [beginFrame, hi, hmem, if_false, hdue, hnow]

theorem frameStart_idle (hstream : chanStream s.cfg.active c = some (i, p)) (hclosed : (chan s c).isOpen = false)
    (howed : (chan s c).owed = []) (hidle : (stream s i).frames = []) (hacc : accepts s c i = true) :
    frameStart c b s = beginFrame i p c b s := by
  have hopen : openStream s c = some (i, p) := by
    rw [openStream, openCfg, hclosed]
    exact hstream
  have hclose : closeOpen i c s = s := by
    have hnone : openFrameOf s i c = none := by rw [openFrameOf, hclosed]; rfl
    simp [closeOpen, hnone, howed, hidle]
  simp only [frameStart, hopen, hclose, hstream, howed, List.head?_nil, hacc, if_true]

/-- The FS of an idle channel opens the next frame of its stream. -/
theorem opened_frameStart (hi : i ≠ 0) (hlt : i < s.streams.length) (hhas : HasChan c s)
    (hstream : chanStream s.cfg.active c = some (i, p)) (hclosed : (chan s c).isOpen = false) (howed : (chan s c).owed = [])
    (hidle : (stream s i).frames = []) (hacc : accepts s c i = true) (hmem : p.source ≠ 0)
    (hnow : chanStream (startConfig i s).cfg.active c = some (i, q)) (hmem' : q.source ≠ 0) :
    Opened c i (fsStamp s i) (stream (startConfig i s) i).cfg (stream s i).nextSerial (frameStart c b s) := by
  obtain ⟨hbrd, hcsi, hstamp, hkept⟩ := startConfig_facts (i := i) (s := s)
  have hfresh := hkept.kept i
  have hframes : (stream (startConfig i s) i).frames = [] := by
    have hnil : (stream (startConfig i s) i).frames.map marks = [] := by
      have h1 : (stream (startConfig i s) i).frames.map marks = (stream s i).frames.map marks := congrArg Prod.fst hfresh
      rw [h1, hidle]
      rfl
    exact List.map_eq_nil_iff.mp hnil
  have hserial : (stream (startConfig i s) i).nextSerial = (stream s i).nextSerial := congrArg Prod.snd hfresh
  have hhas' : HasChan c (startConfig i s) := by
    unfold HasChan at *
    rwa [hbrd, hcsi]
  have hopened := opened_openFrame (b := b) (hkept.length ▸ hlt) hhas' hmem' hframes
  rw [hstamp, hserial] at hopened
  rw [frameStart_idle hstream hclosed howed hidle hacc, beginFrame_idle hi hmem hidle hnow]
  exact hopened

end

end Sys2Proof.Machine
end

section
/-! The packets of Bridle and of the CSI-2 ports. -/
namespace Sys2Proof.Machine

open Sys2Proof

section

variable {b : List Byte} {c i k n port vc y : Nat} {e : Nat × PipeCfg} {f : Frame} {h : Hdr} {p z : PipeCfg} {q : BrdPacket}
  {w : CsiPacket} {s t u : State}

/-! ## The lane map at an FS (04 R122, R153) -/

/-- From `s` to `t` a lane map was taken. -/
def Mapped (s t : State) : Prop := t = { reported s t with brd := t.brd } ∧ t.brd.chans = s.brd.chans

theorem Mapped.refl (s : State) : Mapped s s := ⟨rfl, rfl⟩

theorem Mapped.trans (hst : Mapped s t) (htu : Mapped t u) : Mapped s u := by
  obtain ⟨hst, hchans⟩ := hst
  obtain ⟨htu, hchans'⟩ := htu
  refine ⟨?_, hchans'.trans hchans⟩
  rw [htu, hst]
  rfl

theorem Mapped.ite {x : Prop} [Decidable x] (ht : Mapped s t) (hu : Mapped s u) : Mapped s (if x then t else u) := by
  split
  · exact ht
  · exact hu

theorem Reported.mapped (hst : Reported s t) : Mapped s t := by
  unfold Reported at hst
  constructor <;> rw [hst] <;> rfl

theorem mapped_modBrd {g : Brd → Brd} (hg : ∀ x, (g x).chans = x.chans) : Mapped s (modBrd g s) := ⟨rfl, hg _⟩

theorem mapped_spareEngages {before : List Nat} : Mapped s (spareEngages before s) := by
  refine foldl_steps Mapped.refl Mapped.trans _ (fun t e _ => ?_) s
  obtain ⟨k, old⟩ := e
  have hrest : Mapped t (modBrd (fun b => { b with failed := b.failed.erase (k, old) }) t) := mapped_modBrd fun _ => rfl
  dsimp only
  split
  · refine .ite hrest (.ite ?_ (.refl t))
    refine .trans ?_ reported_raise.mapped
    refine .trans ?_ reported_unitEvent.mapped
    exact hrest.trans (mapped_modBrd fun _ => rfl)
  · exact .refl t

theorem mapped_takeMap : Mapped s (takeMap s) := .trans (mapped_modBrd fun _ => rfl) mapped_spareEngages

theorem Mapped.taken (hst : Mapped s t) : Taken uncounted s t := by
  obtain ⟨hst, hchans⟩ := hst
  refine ⟨?_, .of_eq hchans (by rw [hst]; rfl)⟩
  unfold ingested
  rw [hst]
  rfl

theorem Mapped.streams (hst : Mapped s t) : t.streams = s.streams := by
  obtain ⟨hst, -⟩ := hst
  rw [hst]
  rfl

/-! ## Rows of Bridle packets -/

theorem exec_fsPacket_badHeader (hclk : ingestClocked s = true) (hh : hdrOf q.hdr = none) :
    exec (.fsPacket q) s = .next (raise 66 (countLink 0 1 s)) := by
  refine congrArg Host.Outcome.next ?_
  rw [hh]
  exact takePacket_badHeader hclk hh

theorem exec_fsPacket (hclk : ingestClocked s = true) (hh : hdrOf q.hdr = some h) (htype : h.type = 1) :
    exec (.fsPacket q) s = .next (takePacket 1 q (fun h _ t => frameStart h.vc q.payload t) (takeMap s)) := by
  refine congrArg Host.Outcome.next ?_
  rw [hh, hclk]
  simp [htype]

theorem ingestClocked_takeMap : ingestClocked (takeMap s) = ingestClocked s := by
  obtain ⟨hst, -⟩ := mapped_takeMap (s := s)
  rw [hst]
  rfl

theorem cfg_takeMap : (takeMap s).cfg = s.cfg := by
  obtain ⟨hst, -⟩ := mapped_takeMap (s := s)
  rw [hst]
  rfl

theorem packetCfg_takeMap : packetCfg (takeMap s) 1 c = s.cfg.active := congrArg Cfg.active cfg_takeMap

/-! ## Where an FS finds its stream idle -/

/-- The counting of an FS, after the lane map is taken where it came over Bridle. -/
theorem opened_of_counted (hu : Taken uncounted s u) (hstreams : u.streams = s.streams) (hi : i ≠ 0) (hlt : i < s.streams.length)
    (hhas : HasChan c s) (hstream : chanStream s.cfg.active c = some (i, p)) (hclosed : (chan s c).isOpen = false)
    (howed : (chan s c).owed = []) (hidle : (stream s i).frames = []) (hacc : accepts s c i = true) (hmem : p.source ≠ 0)
    (hnow : chanStream (startConfig i u).cfg.active c = some (i, z)) (hmem' : z.source ≠ 0) :
    Opened c i (fsStamp s i) (stream (startConfig i u) i).cfg (stream s i).nextSerial (frameStart c b u) := by
  have hchan := hu.2.kept c
  have hframe := hu.1
  unfold ingested at hframe
  have hcfg : u.cfg = s.cfg := by rw [hframe]; rfl
  have hacc' : accepts u c i = true := by
    rw [hframe]
    exact hacc
  have hstamp : fsStamp u i = fsStamp s i := by
    rw [fsStamp, fsStamp, hstreams, hframe]
    rfl
  have hst : stream u i = stream s i := stream_of_streams hstreams
  rw [← hstamp, ← hst]
  exact opened_frameStart hi (hstreams ▸ hlt) (hu.2.hasChan hhas) (hcfg ▸ hstream)
    ((congrArg Chan.isOpen hchan).trans hclosed) ((congrArg Chan.owed hchan).trans howed) (hst ▸ hidle) hacc' hmem hnow hmem'

/-- Channels that differ in their counters only. -/
theorem lines_of_uncounted {x y : Chan} (h : uncounted y = uncounted x) :
    y.lines = x.lines ∧ y.cur = x.cur ∧ y.pixels = x.pixels ∧ y.crc = x.crc := by
  simp only [uncounted, Chan.mk.injEq] at h
  obtain ⟨-, -, -, -, hcur, hlines, hpixels, hcrc, -⟩ := h
  exact ⟨hlines, hcur, hpixels, hcrc⟩

/-! ## Rows of packets between two FS -/

theorem exec_ldPacket_open (hclk : ingestClocked s = true) (hh : hdrOf q.hdr = some h) (htype : h.type = 2)
    (hon : bit (fieldAt (brdIn (openCfg s h.vc)) 2 1) h.vc = true) (hok : packetOk (openCfg s h.vc) h q = true)
    (hstream : chanStream (openCfg s h.vc) h.vc = some (i, p)) (hopen : (chan s h.vc).isOpen = true)
    (hskip : (chan s h.vc).skip = false) (hf : frameOf s i (chan s h.vc).serial = some f) (hz : framePipe f i = some z) :
    exec (.ldPacket q) s = .next (linePacket i z h true false q.payload (countChan h.vc 0 1 s)) := by
  have hpc : packetCfg s h.type h.vc = openCfg s h.vc := by rw [htype]; rfl
  have hcounted := uncounted_countChan (c := h.vc) (k := 0) (n := 1) (s := s)
  have hopen' : (chan (countChan h.vc 0 1 s) h.vc).isOpen = true := (congrArg Chan.isOpen hcounted).trans hopen
  have hskip' : (chan (countChan h.vc 0 1 s) h.vc).skip = false := (congrArg Chan.skip hcounted).trans hskip
  have hserial' : (chan (countChan h.vc 0 1 s) h.vc).serial = (chan s h.vc).serial :=
    congrArg (fun x => x.2.2.2) core_countChan
  have hos : openStream (countChan h.vc 0 1 s) h.vc = some (i, p) := openStream_countChan.trans hstream
  have hbroken : q.broken = false := not_broken (u := s) (.inr ⟨_, hok⟩)
  refine congrArg Host.Outcome.next ((takePacket_handled hclk hh htype (hpc ▸ hon) (hpc ▸ hok) (hpc ▸ hstream)).trans ?_)
  simp [hos, hopen', hskip', hserial', frameOf_countChan, hf, hz, hbroken]

theorem exec_ldPacket_closed (hclk : ingestClocked s = true) (hh : hdrOf q.hdr = some h) (htype : h.type = 2)
    (hon : bit (fieldAt (brdIn (openCfg s h.vc)) 2 1) h.vc = true) (hok : packetOk (openCfg s h.vc) h q = true)
    (hstream : chanStream (openCfg s h.vc) h.vc = some (i, p)) (hclosed : (chan s h.vc).isOpen = false) :
    exec (.ldPacket q) s = .next (raise 67 (countChan h.vc 5 1 (countChan h.vc 0 1 s))) := by
  have hpc : packetCfg s h.type h.vc = openCfg s h.vc := by rw [htype]; rfl
  have hclosed' : (chan (countChan h.vc 0 1 s) h.vc).isOpen = false := (congrArg Chan.isOpen uncounted_countChan).trans hclosed
  have hos : openStream (countChan h.vc 0 1 s) h.vc = some (i, p) := openStream_countChan.trans hstream
  refine congrArg Host.Outcome.next ((takePacket_handled hclk hh htype (hpc ▸ hon) (hpc ▸ hok) (hpc ▸ hstream)).trans ?_)
  simp [hos, hclosed']

/-- An FE ends the frame of its channel, one that has retracted too. -/
theorem ended_fe {feLines fePixels : Nat} {mismatch : Bool} {v : State} (hhas : HasChan c s)
    (hv : v = countChan c 0 1 s) : Ended c s (if (chan v c).skip then endSkipped i c v else endMember i z c feLines fePixels mismatch v) := by
  have hcounted : Taken uncounted s v := hv ▸ taken_countChan
  have hhas' : HasChan c v := hcounted.2.hasChan hhas
  split
  · exact ⟨hcounted.1.trans (ended_endSkipped hhas').1, (ended_endSkipped hhas').2⟩
  · exact ⟨hcounted.1.trans (ended_endMember hhas').1, (ended_endMember hhas').2⟩

theorem exec_fePacket_open (hclk : ingestClocked s = true) (hh : hdrOf q.hdr = some h) (htype : h.type = 3)
    (hon : bit (fieldAt (brdIn (openCfg s h.vc)) 2 1) h.vc = true) (hok : packetOk (openCfg s h.vc) h q = true)
    (hstream : chanStream (openCfg s h.vc) h.vc = some (i, p)) (hopen : (chan s h.vc).isOpen = true)
    (hf : frameOf s i (chan s h.vc).serial = some f) (hz : framePipe f i = some z) :
    ∃ feLines fePixels mismatch, exec (.fePacket q) s = .next (if (chan (countChan h.vc 0 1 s) h.vc).skip
      then endSkipped i h.vc (countChan h.vc 0 1 s)
      else endMember i z h.vc feLines fePixels mismatch (countChan h.vc 0 1 s)) := by
  have hpc : packetCfg s h.type h.vc = openCfg s h.vc := by rw [htype]; rfl
  have hopen' : (chan (countChan h.vc 0 1 s) h.vc).isOpen = true := (congrArg Chan.isOpen uncounted_countChan).trans hopen
  have hserial' : (chan (countChan h.vc 0 1 s) h.vc).serial = (chan s h.vc).serial :=
    congrArg (fun x => x.2.2.2) core_countChan
  have hos : openStream (countChan h.vc 0 1 s) h.vc = some (i, p) := openStream_countChan.trans hstream
  have hrow : exec (.fePacket q) s = .next _ :=
    congrArg Host.Outcome.next (takePacket_handled hclk hh htype (hpc ▸ hon) (hpc ▸ hok) (hpc ▸ hstream))
  simp only [hos, hopen', hserial', frameOf_countChan, hf, hz, Bool.not_true, Bool.false_eq_true, if_false,
    Option.bind_some] at hrow
  exact ⟨_, _, _, hrow⟩

theorem exec_embPacket_open (hclk : ingestClocked s = true) (hh : hdrOf q.hdr = some h) (htype : h.type = 4)
    (hon : bit (fieldAt (brdIn (openCfg s h.vc)) 2 1) h.vc = true) (hok : packetOk (openCfg s h.vc) h q = true)
    (hstream : chanStream (openCfg s h.vc) h.vc = some (i, p)) (hopen : (chan s h.vc).isOpen = true)
    (hskip : (chan s h.vc).skip = false) :
    exec (.embPacket q) s = .next (addEmb i p h.vc 4096 q.payload true (countChan h.vc 0 1 s)) := by
  have hpc : packetCfg s h.type h.vc = openCfg s h.vc := by rw [htype]; rfl
  have hopen' : (chan (countChan h.vc 0 1 s) h.vc).isOpen = true := (congrArg Chan.isOpen uncounted_countChan).trans hopen
  have hskip' : (chan (countChan h.vc 0 1 s) h.vc).skip = false := (congrArg Chan.skip uncounted_countChan).trans hskip
  have hos : openStream (countChan h.vc 0 1 s) h.vc = some (i, p) := openStream_countChan.trans hstream
  refine congrArg Host.Outcome.next ((takePacket_handled hclk hh htype (hpc ▸ hon) (hpc ▸ hok) (hpc ▸ hstream)).trans ?_)
  simp [hos, hopen', hskip']

/-! ## Rows of the CSI-2 ports -/

theorem csiPacket_eq {g : List Byte → State → State} (hclk : ingestClocked s = true) (hb : csiBlk s port = some b) :
    csiPacket port vc g s = if fieldAt b 1 1 = vc then g b (countChan (8 + port) 0 1 s) else countChan (8 + port) 14 1 s := by
  simp only [csiPacket, hclk, hb, Bool.not_true, Bool.false_eq_true, if_false]

theorem exec_csiFe_open (hclk : ingestClocked s = true) (hb : csiBlk s port = some b)
    (hstream : openStream s (8 + port) = some (i, p)) (hopen : (chan s (8 + port)).isOpen = true)
    (hf : frameOf s i (chan s (8 + port)).serial = some f) (hz : framePipe f i = some z) :
    exec (.csiFe port (fieldAt b 1 1) n) s = .next (if (chan (countChan (8 + port) 0 1 s) (8 + port)).skip
      then endSkipped i (8 + port) (countChan (8 + port) 0 1 s)
      else endMember i z (8 + port) 0 0 false (countChan (8 + port) 0 1 s)) := by
  have hopen' : (chan (countChan (8 + port) 0 1 s) (8 + port)).isOpen = true :=
    (congrArg Chan.isOpen uncounted_countChan).trans hopen
  have hserial' : (chan (countChan (8 + port) 0 1 s) (8 + port)).serial = (chan s (8 + port)).serial :=
    congrArg (fun x => x.2.2.2) core_countChan
  have hos : openStream (countChan (8 + port) 0 1 s) (8 + port) = some (i, p) := openStream_countChan.trans hstream
  refine congrArg Host.Outcome.next ((csiPacket_eq hclk hb).trans ?_)
  simp only [if_true, hos, hopen', hserial', frameOf_countChan, hf, hz, Bool.not_true, Bool.false_eq_true, if_false,
    Option.bind_some]

/-- A long packet of the configured data type, with a bad CRC counted. -/
def longCounted (port : Nat) (w : CsiPacket) (s : State) : State :=
  if w.crcOk then countChan (8 + port) 0 1 s else raise (77 + 5 * port) (countChan (8 + port) 1 1 (countChan (8 + port) 0 1 s))

theorem taken_longCounted : Taken uncounted s (longCounted port w s) :=
  .ite taken_countChan ((taken_countChan.trans taken_countChan).trans taken_raise)

theorem streams_longCounted : (longCounted port w s).streams = s.streams := by
  unfold longCounted
  split
  · exact streams_countChan
  · rw [reported_raise.streams, streams_countChan, streams_countChan]

theorem exec_csiLongPacket_line (hclk : ingestClocked s = true) (hb : csiBlk s port = some b)
    (hstream : openStream s (8 + port) = some (i, p)) (hheader : w.headerLost = false) (hvc : w.vc = fieldAt b 1 1)
    (htype : w.dataType = fieldAt b 2 1) (hopen : (chan s (8 + port)).isOpen = true) (hskip : (chan s (8 + port)).skip = false)
    (hf : frameOf s i (chan s (8 + port)).serial = some f) (hz : framePipe f i = some z) :
    exec (.csiLongPacket port w) s = .next (csiLine i z (8 + port) w.payload w.crcOk (longCounted port w s)) := by
  have hcounted := taken_longCounted (port := port) (w := w) (s := s)
  have hchan := hcounted.2.kept (8 + port)
  have hcore := hcounted.core.2.kept (8 + port)
  have hcfg : (longCounted port w s).cfg = s.cfg := by
    have hframe := hcounted.1
    unfold ingested at hframe
    rw [hframe]
    rfl
  have hos : openStream (longCounted port w s) (8 + port) = some (i, p) :=
    (congrArg (fun v => chanStream v (8 + port)) (openCfg_of hcore streams_longCounted (by rw [hcfg]))).trans hstream
  have hopen' : (chan (longCounted port w s) (8 + port)).isOpen = true := (congrArg Chan.isOpen hchan).trans hopen
  have hskip' : (chan (longCounted port w s) (8 + port)).skip = false := (congrArg Chan.skip hchan).trans hskip
  have hserial' : (chan (longCounted port w s) (8 + port)).serial = (chan s (8 + port)).serial := congrArg (fun x => x.2.2.2) hcore
  have hf' : frameOf (longCounted port w s) i (chan s (8 + port)).serial = some f := by
    rw [frameOf, stream_of_streams streams_longCounted]
    exact hf
  have hrow : exec (.csiLongPacket port w) s = .next (csiData port b w (longCounted port w s)) := by
    simp only [exec, execCsiLongPacket, hb]
    simp [hclk, hheader, hvc, htype, longCounted]
  rw [hrow]
  simp [csiData, hos, hopen', hskip', hserial', hf', hz, csiLong, htype]

/-- A line of a CSI-2 frame that finds none in progress. -/
theorem csiLine_whole {ok : Bool} (hhas : HasChan c s) : let t := csiLine i z c b ok s
      ingested s t ∧ (chan t c).lines = (chan s c).lines + 1 ∧ (chan t c).cur = none := by
  unfold csiLine
  extract_lets m y s1
  have hpixels : chan (countPixels c m b s) c = _ := chan_modChan hhas
  have hhas0 : HasChan c (countPixels c m b s) := by
    unfold HasChan at *
    rwa [countPixels, lengths_modChan.1, lengths_modChan.2]
  have hlines0 : y = (chan (countPixels c m b s) c).lines := by rw [hpixels]
  have hstart := startLine_next (i := i) (p := z) (n := 0) hhas0 hlines0
  have hhas1 : HasChan c (startLine i z c y 0 (countPixels c m b s)) := taken_startLine.2.hasChan hhas0
  have hhas2 : HasChan c s1 := by
    simp only [s1]
    unfold HasChan at *
    rwa [lengths_modChan.1, lengths_modChan.2]
  obtain ⟨a, ha, hal⟩ : ∃ a, (chan s1 c).cur = some a ∧ a.line = y := by
    simp only [s1]
    rw [chan_modChan hhas1]
    simp only [addPixels, hstart]
    exact ⟨_, rfl, rfl⟩
  have hin1 : ingested s s1 := by
    refine ingested.trans ?_ ingested_modChan
    refine ingested.trans ?_ taken_startLine.1
    exact ingested_modChan
  have hflag : Taken uncounted s1 (if ok then s1 else flagFrame i c vCrc s1) := .ite (.refl _) taken_flagFrame
  obtain ⟨hlines, hnone⟩ := endLine_line (i := i) (p := z) (eol := true) (hflag.2.hasChan hhas2)
    ((congrArg Chan.cur (hflag.2.kept c)).trans ha)
  have hrows := taken_advance (i := i) (p := z) (n := (chan s1 c).serial)
    (s := endLine i z c true (if ok then s1 else flagFrame i c vCrc s1))
  refine ⟨hin1.trans (hflag.1.trans (taken_endLine.1.trans hrows.1)), ?_, ?_⟩
  · exact (congrArg Chan.lines (hrows.2.kept c)).trans (hlines.trans (by rw [hal]))
  · exact (congrArg Chan.cur (hrows.2.kept c)).trans hnone

end

/-! ## The obligation -/

/-- Settles O47: what a retraction keeps, how a packet is discarded or handled, and what its handling leaves of its channel, its
frame and the rest of the device. -/
theorem packetsFillFrames : Obligations.PacketsFillFrames := by
  refine ⟨fun r s c => ⟨fun hstart hpass => ?brdCounters, fun hstart hpass => ?csiCounters⟩,
    fun i n fl s f hf hopen hdec => frameOf_retract hf hopen hdec,
    fun j p s hj hclk => ⟨fun hh => ?badHeader, fun h hh hoff => ?disabled⟩,
    fun j c i p s u hclk hstream hstreams hbrd hcsi hi hlt hc hj hclosed howed hidle hacc hmem => ?opens,
    fun p h i q s hclk hh => ?between, fun s hclk => ⟨fun vc i q hos => ?timeout, fun port b hb hport hcsi => ?csi⟩⟩
  case brdCounters => exact congrArg Host.Outcome.next (runCmd_effect hstart hpass)
  case csiCounters => exact ⟨_, _, congrArg Host.Outcome.next (runCmd_effect hstart hpass)⟩
  case badHeader =>
    simp only [List.mem_cons, List.not_mem_nil, or_false] at hj
    rcases hj with rfl | rfl | rfl | rfl
    · exact exec_fsPacket_badHeader hclk hh
    · exact congrArg Host.Outcome.next (takePacket_badHeader hclk hh)
    · exact congrArg Host.Outcome.next (takePacket_badHeader hclk hh)
    · exact congrArg Host.Outcome.next (takePacket_badHeader hclk hh)
  case disabled =>
    refine ⟨fun htype => ?_, fun htype => ?_, fun htype => ?_, fun htype => ?_⟩
    · rw [exec_fsPacket hclk hh htype, takePacket_disabled (ingestClocked_takeMap.trans hclk) hh htype]
      rw [htype] at hoff ⊢
      rw [packetCfg_takeMap]
      exact hoff
    · exact congrArg Host.Outcome.next (takePacket_disabled hclk hh htype hoff)
    · exact congrArg Host.Outcome.next (takePacket_disabled hclk hh htype hoff)
    · exact congrArg Host.Outcome.next (takePacket_disabled hclk hh htype hoff)
  case opens =>
    intro s1 q hnow hq
    have hhas : HasChan c s := by
      unfold HasChan
      split <;> omega
    obtain ⟨b, hrow, hu, hsame⟩ : ∃ b, exec j s = .next (frameStart c b u) ∧ Taken uncounted s u ∧ u.streams = s.streams := by
      rcases hj with ⟨k, h, rfl, hh, htype, rfl, hc8, hon, hok, rfl⟩ | ⟨port, vc, n, b, rfl, rfl, hb, hvc, rfl⟩
      · have hpc : packetCfg (takeMap s) h.type h.vc = s.cfg.active := by rw [htype]; exact packetCfg_takeMap
        refine ⟨k.payload, ?_, mapped_takeMap.taken.trans taken_countChan, streams_countChan.trans mapped_takeMap.streams⟩
        rw [exec_fsPacket hclk hh htype, takePacket_handled (ingestClocked_takeMap.trans hclk) hh htype (hpc ▸ hon) (hpc ▸ hok)
          (hpc ▸ hstream)]
      · refine ⟨_, congrArg Host.Outcome.next ((csiPacket_eq hclk hb).trans (if_pos hvc)), taken_countChan, streams_countChan⟩
    obtain ⟨hopen, hserial, hnext, f, hf, htime, hcfg⟩ := opened_of_counted (b := b) hu hsame hi (hstreams ▸ hlt) hhas hstream
      hclosed howed hidle hacc hmem hnow hq
    exact ⟨_, f, hrow, hopen, hserial, hnext, hf, htime, hcfg⟩
  case between =>
    intro c u hon hstream hok hbrd hc x
    have hhas : HasChan h.vc s := by
      unfold HasChan
      rw [if_pos hc, hbrd]
      exact hc
    refine ⟨fun htype hclosed => exec_ldPacket_closed hclk hh htype hon hok hstream hclosed,
      fun f z htype hopen hskip hf hz => ?line, fun f z htype hopen hf hz => ?fe, fun f htype hopen hskip hf hk => ?emb⟩
    case line =>
      have hcounted : Taken uncounted s (countChan h.vc 0 1 s) := taken_countChan
      have hhas' : HasChan h.vc (countChan h.vc 0 1 s) := hcounted.2.hasChan hhas
      have hchan := hcounted.2.kept h.vc
      have hpixels : chan (countPixels h.vc h.count p.payload (countChan h.vc 0 1 s)) h.vc = _ := chan_modChan hhas'
      have hline := taken_linePacket (i := i) (p := z) (h := h) (ok := true) (b := p.payload) (s := countChan h.vc 0 1 s)
      obtain ⟨hlines, hnocur, hpix, hcrc⟩ := lines_of_uncounted hchan
      have hcore := hline.2.kept h.vc
      rw [hpixels] at hcore
      refine ⟨_, exec_ldPacket_open hclk hh htype hon hok hstream hopen hskip hf hz,
        hcounted.1.trans (ingested.trans ingested_modChan hline.1), ?_, ?_, fun hmem heol hcur hnext => ?_⟩
      · exact (congrArg (fun z => z.1) hcore).trans (congrArg (· + h.count) hpix)
      · exact (congrArg (fun z => z.2.1) hcore).trans (congrArg (crc32From · p.payload) hcrc)
      · exact linePacket_whole hhas' hmem heol (hnocur.trans hcur) (hnext.trans hlines.symm)
    case fe =>
      obtain ⟨feLines, fePixels, mismatch, hrow⟩ := exec_fePacket_open hclk hh htype hon hok hstream hopen hf hz
      obtain ⟨hin, hclosed⟩ := ended_fe (i := i) (z := z) (feLines := feLines) (fePixels := fePixels) (mismatch := mismatch) hhas rfl
      exact ⟨_, hrow, hin, hclosed⟩
    case emb =>
      have hserial : (chan (countChan h.vc 0 1 s) h.vc).serial = (chan s h.vc).serial := congrArg (fun x => x.2.2.2) core_countChan
      have hf' : frameOf (countChan h.vc 0 1 s) i (chan (countChan h.vc 0 1 s) h.vc).serial = some f := by
        rw [frameOf_countChan, hserial]
        exact hf
      obtain ⟨hin, g, hg, hemb⟩ := addEmb_facts (p := q) (c := h.vc) (b := p.payload) (ok := true) (limit := 4096) hf' hk
      rw [hserial] at hg
      exact ⟨_, g, exec_embPacket_open hclk hh htype hon hok hstream hopen hskip,
        (taken_countChan (s := s)).1.trans hin, hg, hemb⟩
  case timeout =>
    refine ⟨fun hnone => ?_, fun f hf => ?_⟩ <;> refine congrArg Host.Outcome.next ?_
    · simp only [hclk, hos, hnone, Bool.not_true, Bool.false_eq_true, if_false]
    · simp only [hclk, hos, hf, Bool.not_true, Bool.false_eq_true, if_false]
  case csi =>
    intro c x
    have hhas : HasChan (8 + port) s := by
      unfold HasChan
      rw [if_neg (by omega), hcsi]
      omega
    refine ⟨fun vc hvc n kind => ?other, fun kind n => ?short, fun i q hos => ⟨fun hopen => ?phyOpen, fun hclosed => ?phyClosed,
      fun f z n hopen hf hz => ?csiFe, fun p hlost hclosed => ?lost, fun p hheader hvc => ?otherLong,
      fun p f z hheader hvc htype hopen hskip hcur hf hz _ => ?csiLine⟩⟩
    case other =>
      have hne : ¬ fieldAt b 1 1 = vc := fun h => hvc h.symm
      refine ⟨?_, ?_, ?_⟩ <;> exact congrArg Host.Outcome.next ((csiPacket_eq hclk hb).trans (if_neg hne))
    case short => exact congrArg Host.Outcome.next ((csiPacket_eq hclk hb).trans (if_pos rfl))
    case phyOpen =>
      have hos' : openStream (raise (80 + 5 * port) s) (8 + port) = some (i, q) := by rw [raise_eq]; exact hos
      have hopen' : (chan (raise (80 + 5 * port) s) (8 + port)).isOpen = true := by rw [raise_eq]; exact hopen
      have hserial' : (chan (raise (80 + 5 * port) s) (8 + port)).serial = (chan s (8 + port)).serial := by rw [raise_eq]; rfl
      refine congrArg Host.Outcome.next ((if_neg (by simp [hclk, hport])).trans ?_)
      simp only [hos', hopen', hserial', if_true]
      rfl
    case phyClosed =>
      have hos' : openStream (raise (80 + 5 * port) s) (8 + port) = some (i, q) := by rw [raise_eq]; exact hos
      have hclosed' : (chan (raise (80 + 5 * port) s) (8 + port)).isOpen = false := by rw [raise_eq]; exact hclosed
      refine congrArg Host.Outcome.next ((if_neg (by simp [hclk, hport])).trans ?_)
      simp only [hos', hclosed', Bool.false_eq_true, if_false]
    case csiFe =>
      obtain ⟨hin, hclosed⟩ := ended_fe (i := i) (z := z) (feLines := 0) (fePixels := 0) (mismatch := false) hhas rfl
      exact ⟨_, exec_csiFe_open hclk hb hos hopen hf hz, hin, hclosed⟩
    case lost =>
      have hos' : openStream (raise (78 + 5 * port) s) (8 + port) = some (i, q) := by rw [raise_eq]; exact hos
      have hclosed' : (chan (raise (78 + 5 * port) s) (8 + port)).isOpen = false := by rw [raise_eq]; exact hclosed
      simp only [exec, execCsiLongPacket, hb]
      simp [hclk, hlost, hos', hclosed']
    case otherLong =>
      simp only [exec, execCsiLongPacket, hb]
      simp [hclk, hheader, hvc, c]
    case csiLine =>
      have hcounted := taken_longCounted (port := port) (w := p) (s := s)
      have hchan := hcounted.2.kept (8 + port)
      have hlines0 := (lines_of_uncounted hchan).1
      obtain ⟨hin, hlines, hnone⟩ := csiLine_whole (i := i) (z := z) (b := p.payload) (ok := p.crcOk) (hcounted.2.hasChan hhas)
      exact ⟨_, exec_csiLongPacket_line hclk hb hos hheader hvc htype hopen hskip hf hz, hcounted.1.trans hin,
        hlines.trans (congrArg (· + 1) hlines0), hnone⟩

end Sys2Proof.Machine
end

section
/-! What the recorder keeps as it writes its chunks, takes frames and stops (08 R301 to R324): a part of its state that does not
depend on the fields which a step assigns is the same after the step. -/

namespace Sys2Proof.Machine

open Sys2Proof

section

variable {β : Type} {κ : Rec → β} {c : Cmd} {d n z : Nat} {e : RingEntry} {b : List Byte} {s t u : State}

/-- A part of the recorder is the same in two states. -/
def RecKept (κ : Rec → β) (s t : State) : Prop := κ t.recorder = κ s.recorder

theorem RecKept.refl (s : State) : RecKept κ s s := rfl

theorem RecKept.trans (hst : RecKept κ s t) (htu : RecKept κ t u) : RecKept κ s u := Eq.trans htu hst

theorem RecKept.ite {p : Prop} [Decidable p] (ht : RecKept κ s t) (hu : RecKept κ s u) : RecKept κ s (if p then t else u) := by
  split
  · exact ht
  · exact hu

theorem RecKept.of_eq (h : t.recorder = s.recorder) : RecKept κ s t := congrArg κ h

theorem Answered.recKept (h : Answered s t) : RecKept κ s t := .of_eq (by rw [h]; rfl)

theorem Reported.recKept (h : Reported s t) : RecKept κ s t := h.answered.recKept

theorem recKept_modRec {g : Rec → Rec} (hg : ∀ x, κ (g x) = κ x) : RecKept κ s (modRec g s) := hg _

theorem recKept_modGroup {g : Group → Group} : RecKept κ s (modGroup z g s) := rfl

theorem recKept_emit {o : Out} : RecKept κ s (emit o s) := rfl

theorem recorder_lanesTurn {up : Bool} {l : List Nat} : (lanesTurn up l s).recorder = s.recorder := by
  rw [laned_lanesTurn (s := s) (l := l) (up := up)]

theorem recorder_sendAdmin {l : List NvmeAdmin} : (sendAdmin d l s).recorder = s.recorder :=
  foldl_steps (R := fun s t => t.recorder = s.recorder) (op := fun t a => emit (.nvmeAdmin d a) t) (fun _ => rfl)
    (fun h h' => h'.trans h) l (fun _ _ _ => rfl) s

/-! ## Sending to the media (08 R301, R310) -/

/-- A part of the recorder that sending to the media leaves: the Writes, what has been sent, the records, and all of an SSD but its
extents are none of it. -/
structure OutsideSending (κ : Rec → β) : Prop where
  writes : ∀ x l, κ { x with writes := l } = κ x
  sent : ∀ x n, κ { x with sent := n } = κ x
  body : ∀ x l, κ { x with body := l } = κ x
  ssds : ∀ (x : Rec) d (g : Ssd → Ssd), (∀ y, (g y).extents = y.extents) → κ { x with ssds := x.ssds.modify d g } = κ x

section sending
variable (h : OutsideSending κ)
include h

theorem recKept_modSsd {g : Ssd → Ssd} (hg : ∀ y, (g y).extents = y.extents) : RecKept κ s (modSsd d g s) := h.ssds _ _ _ hg

theorem recKept_attachSsd : RecKept κ s (attachSsd d s) :=
  .ite (.refl s) (.trans (.of_eq (recorder_sendAdmin.trans recorder_lanesTurn)) (recKept_modSsd h fun _ => rfl))

theorem recKept_pushWrite {w : NvmeWrite} : RecKept κ s (pushWrite w s) := by
  have hpushed : RecKept κ s (modRec (fun x => { x with writes := x.writes ++ [w] }) (attachSsd w.ssd s)) :=
    (recKept_attachSsd h).trans (recKept_modRec fun _ => h.writes _ _)
  exact .ite (hpushed.trans recKept_emit) hpushed

theorem recKept_sendTo : RecKept κ s (sendTo n s) := by
  unfold sendTo
  refine foldl_steps (R := RecKept κ) RecKept.refl RecKept.trans _ (fun t _ _ => .ite (.refl t) ?_) s
  exact (recKept_pushWrite h).trans (recKept_modRec fun _ => h.sent _ _)

theorem recKept_putBytes : RecKept κ s (putBytes b s) := by
  refine .trans ?_ (recKept_sendTo h)
  exact recKept_modRec fun _ => h.body _ _

theorem recKept_sendPadded : RecKept κ s (sendPadded b n s) := by
  refine .trans (.trans ?_ (recKept_sendTo h)) (recKept_modRec fun _ => h.body _ _)
  exact recKept_modRec fun _ => h.body _ _

theorem recKept_judgeLow : RecKept κ s (judgeLow s) := by
  unfold judgeLow
  refine foldl_steps (R := RecKept κ) RecKept.refl RecKept.trans _ (fun t d _ => ?_) s
  have hlow {v : Bool} : RecKept κ t (modSsd d (fun x => { x with lowTold := v }) t) := recKept_modSsd h fun _ => rfl
  exact .ite (hlow.trans reported_tell.recKept) hlow

end sending

/-! ## Writing records (08 R306 to R310) -/

/-- A part of the recorder that writing records leaves: the index, a record cut in two and the close of a chunk are none of it. -/
structure OutsideWriting (κ : Rec → β) : Prop where
  sending : OutsideSending κ
  index : ∀ x l, κ { x with index := l } = κ x
  carry : ∀ x v, κ { x with carry := v } = κ x
  closing : ∀ x v, κ { x with closing := v } = κ x

section writing
variable (h : OutsideWriting κ)
include h

theorem recKept_beginClose : RecKept κ s (beginClose n s) := by
  refine .trans ?_ (recKept_modRec fun _ => h.closing _ _)
  exact .ite (recKept_putBytes h.sending) (.refl s)

theorem recKept_putIndex {i : IndexEntry} : RecKept κ s (putIndex i s) := recKept_modRec fun _ => h.index _ _

theorem recKept_modCarry {v : Option (RingEntry × List Byte)} : RecKept κ s (modRec (fun x => { x with carry := v }) s) :=
  recKept_modRec fun _ => h.carry _ _

theorem recKept_writeMeta {k : Nat} : RecKept κ s (writeMeta e n k s) := by
  refine .ite (.trans (recKept_putBytes h.sending) (recKept_putIndex h)) (.trans (.trans ?_ (recKept_modCarry h)) (recKept_beginClose h))
  exact recKept_putIndex h

theorem recKept_writeFrame : RecKept κ s (writeFrame e b s) := by
  refine .ite (recKept_writeMeta h) (.ite (.trans (recKept_putBytes h.sending) (recKept_writeMeta h)) (.ite ?_ ?_))
  · exact .trans (recKept_modCarry h) (recKept_beginClose h)
  · refine .trans (.trans (.trans ?_ (recKept_putIndex h)) (recKept_modCarry h)) (recKept_beginClose h)
    exact recKept_putBytes h.sending

theorem recKept_writeGap {k r i : Nat} : RecKept κ s (writeGap n k r i s) :=
  have hput : RecKept κ s (putBytes _ s) := recKept_putBytes h.sending
  .trans hput (recKept_putIndex (κ := κ) h)

theorem recKept_noteLost : RecKept κ s (noteLost z s) := by
  unfold noteLost
  split
  · exact .ite (.trans recKept_modGroup (recKept_writeGap h)) (recKept_beginClose h)
  · exact .refl s

/-- A stop with a chunk open goes on writing in it (08 R310, R315). -/
theorem recKept_stopStep_open (hopen : s.recorder.chunkOpen = true) : RecKept κ s (stopStep s) := by
  unfold stopStep
  dsimp only
  rw [if_neg (by simp [hopen])]
  split
  · rw [if_pos hopen]
    exact .trans (recKept_modCarry h) (recKept_writeFrame h)
  · split
    · rw [if_pos hopen]
      exact recKept_noteLost h
    · rw [if_pos hopen]
      exact recKept_beginClose h

/-- So does every step of a recorder that stops, while the chunk is open. -/
theorem recKept_drainOne_stopping (hopen : s.recorder.chunkOpen = true) (hstate : s.recorder.state = 3) :
    RecKept κ s (drainOne s) := by
  unfold drainOne
  dsimp only
  refine .ite (.refl s) ?_
  rw [if_pos hstate]
  exact recKept_stopStep_open h hopen

end writing

/-! ## A recorder that stops with its chunk open -/

/-- What a recorder that closes its chunk is about: whether it stops, its chunk and the commands that wait for it. -/
def stopOf (x : Rec) : Nat × Bool × List CmdRef := (x.state, x.chunkOpen, x.stopCmds)

theorem stopOf_writing : OutsideWriting stopOf where
  sending := ⟨fun _ _ => rfl, fun _ _ => rfl, fun _ _ => rfl, fun _ _ _ _ => rfl⟩
  index _ _ := rfl
  carry _ _ := rfl
  closing _ _ := rfl

theorem stopOf_drainFor : ∀ (n : Nat) {s : State}, s.recorder.chunkOpen = true → s.recorder.state = 3 →
    RecKept stopOf s (drainFor n s)
  | 0, s, _, _ => .refl s
  | n + 1, s, hopen, hstate => by
    have hone := recKept_drainOne_stopping stopOf_writing hopen hstate
    exact hone.trans (stopOf_drainFor n ((congrArg (fun v => v.2.1) hone).trans hopen) ((congrArg Prod.fst hone).trans hstate))

theorem stopOf_drain (hopen : s.recorder.chunkOpen = true) (hstate : s.recorder.state = 3) : RecKept stopOf s (drain s) :=
  (stopOf_drainFor _ hopen hstate).trans (recKept_judgeLow stopOf_writing.sending)

/-! ## The SSDs' extents and the bytes recorded -/

/-- The extents of the SSDs and the bytes recorded. -/
def mediaOf (x : Rec) : List (List Extent) × Nat := (x.ssds.map (·.extents), x.bytes)

theorem map_modify_same {l : List Ssd} {g : Ssd → Ssd} (hg : ∀ y, (g y).extents = y.extents) :
    (l.modify d g).map (·.extents) = l.map (·.extents) := by
  refine List.ext_getElem? fun i => ?_
  simp only [List.getElem?_map, List.getElem?_modify]
  cases l[i]? with
  | none => rfl
  | some y =>
    by_cases h : d = i
    · simp [h, hg]
    · simp [h]

theorem mediaOf_writing : OutsideWriting mediaOf where
  sending := ⟨fun _ _ => rfl, fun _ _ => rfl, fun _ _ => rfl, fun _ _ _ hg => congrArg (·, _) (map_modify_same hg)⟩
  index _ _ := rfl
  carry _ _ := rfl
  closing _ _ := rfl

theorem media_foldl_modSsd {g : Nat → State → Ssd → Ssd} (hg : ∀ k t y, (g k t y).extents = y.extents) (l : List Nat) (s : State) :
    RecKept mediaOf s (l.foldl (fun t k => modSsd k (g k t) t) s) :=
  foldl_steps (R := RecKept mediaOf) RecKept.refl RecKept.trans l
    (fun t k _ => recKept_modSsd mediaOf_writing.sending (hg k t)) s

/-- An SSD whose next chunk has its place. -/
def placedSsd (x : Ssd) : Ssd :=
  let a := alignUp x.pos 131072
  let b := if tagRun x a < 131072 then a + tagRun x a else a
  { x with pos := b, base := b }

theorem media_placeChunk : RecKept mediaOf s (placeChunk s) := media_foldl_modSsd (g := fun _ _ => placedSsd) (fun _ _ _ => rfl) _ s

theorem media_mediaFull : RecKept mediaOf s (mediaFull s) := by
  refine .trans ?_ reported_tell.recKept
  exact recKept_modRec fun _ => rfl

theorem media_openChunk : RecKept mediaOf s (openChunk s) := by
  refine .ite media_mediaFull (.trans ?_ (recKept_pushWrite mediaOf_writing.sending))
  exact .trans media_placeChunk (recKept_modRec fun _ => rfl)

theorem media_answerStart {k : Nat} : RecKept mediaOf s (answerStart n k s) := by
  unfold answerStart
  split
  · refine .trans ?_ answered_complete.recKept
    exact recKept_modRec fun _ => rfl
  · exact .refl s

theorem recKept_completeAll {l : List Cmd} {r : Cmd → Reply} : RecKept κ s (l.foldl (fun t c => complete c (r c) t) s) :=
  foldl_steps (R := RecKept κ) RecKept.refl RecKept.trans l (fun _ _ _ => answered_complete.recKept) s

/-- The recorder after a stop, as it becomes idle (08 R315). -/
def idleRec (y : Rec) : Rec :=
  { y with
    state := 0, begun := false, stopCmds := [], startCmd := none, stopAt := none, cutoff := none, thermal := false
    carry := none, audio := [] }

theorem recorder_finishStop : (finishStop n s).recorder = idleRec s.recorder := by
  have htold : RecKept id (modRec idleRec s) (finishStop n s) := by
    have hall : ∀ {t u : State} {l : List Cmd} {r : Cmd → Reply}, RecKept id t u →
        RecKept id t (l.foldl (fun t c => complete c (r c) t) u) := fun h => h.trans recKept_completeAll
    unfold finishStop
    dsimp only
    split
    · exact (hall reported_tell.recKept).trans answered_complete.recKept
    · exact hall reported_tell.recKept
  exact htold

theorem media_finishStop : RecKept mediaOf s (finishStop n s) := by
  unfold RecKept
  rw [recorder_finishStop]
  rfl

theorem media_stopFor : RecKept mediaOf s (stopFor n s) := .ite media_finishStop rfl

theorem media_openToStop : RecKept mediaOf s (openToStop s) := .ite media_openChunk (.trans media_openChunk media_finishStop)

theorem media_stopStep : RecKept mediaOf s (stopStep s) := by
  by_cases hopen : s.recorder.chunkOpen = true
  · exact recKept_stopStep_open mediaOf_writing hopen
  · unfold stopStep
    dsimp only
    refine .ite media_finishStop ?_
    split
    · rw [if_neg hopen]
      exact media_openToStop
    · split
      · rw [if_neg hopen]
        exact media_openToStop
      · rw [if_neg hopen]
        exact media_finishStop

theorem recKept_foldl_modGroup {g : Nat → Group → Group} {l : List Nat} :
    RecKept κ s (l.foldl (fun t z => modGroup z (g z) t) s) :=
  foldl_steps (R := RecKept κ) RecKept.refl RecKept.trans l (fun _ _ _ => recKept_modGroup) s

theorem media_thermalEnd : RecKept mediaOf s (thermalEnd s) := by
  unfold thermalEnd
  dsimp only
  split
  · exact .trans (.trans recKept_modGroup recKept_foldl_modGroup) media_stopFor
  · exact .trans recKept_foldl_modGroup media_stopFor

theorem media_openFor : RecKept mediaOf s (openFor e s) := .ite (.trans media_openChunk media_answerStart) media_openChunk

theorem media_takeAudio : RecKept mediaOf s (takeAudio e s).2 := by
  unfold takeAudio
  dsimp only
  split
  · exact .refl s
  · rfl

theorem media_recordEntry : RecKept mediaOf s (recordEntry z e s) :=
  .ite (.ite (.trans (recKept_putIndex mediaOf_writing) recKept_modGroup) (recKept_beginClose mediaOf_writing))
    (.trans (.trans (.trans media_takeAudio recKept_modGroup) recKept_modGroup) (recKept_writeFrame mediaOf_writing))

theorem media_drainOne : RecKept mediaOf s (drainOne s) := by
  unfold drainOne
  dsimp only
  refine .ite (.refl s) (.ite media_stopStep (.ite (.refl s) ?_))
  split
  · exact .ite (.trans (recKept_modCarry mediaOf_writing) (recKept_writeFrame mediaOf_writing)) media_openChunk
  · refine .ite media_stopFor ?_
    split
    · exact .ite media_thermalEnd (.refl s)
    · exact .ite media_stopFor (.ite (.ite media_thermalEnd (.refl s))
        (.ite media_openFor (.ite (recKept_noteLost mediaOf_writing) media_recordEntry)))

theorem media_drainFor : ∀ (n : Nat) {s : State}, RecKept mediaOf s (drainFor n s)
  | 0, s => .refl s
  | n + 1, _ => media_drainOne.trans (media_drainFor n)

/-- Draining the rings leaves the extents of the SSDs and the bytes recorded. -/
theorem media_drain : RecKept mediaOf s (drain s) := (media_drainFor _).trans (recKept_judgeLow mediaOf_writing.sending)

end

end Sys2Proof.Machine
end

section
/-! The commands of the recorder and the relays (08 R299, R300, R302, R313 to R318). -/

namespace Sys2Proof.Machine

open Sys2Proof

section

variable {c : Cmd} {d n z : Nat} {e : RingEntry} {b : List Byte} {s t u : State}

/-! ## An SSD is brought up (08 R301) -/

theorem lanesTurn_eq {up : Bool} {l : List Nat} : lanesTurn up l s = { s with lanes := (lanesTurn up l s).lanes } := by
  refine foldl_steps (R := fun s t => t = { s with lanes := t.lanes }) (fun _ => rfl) (fun h h' => ?_) l (fun _ _ _ => rfl) s
  rw [h', h]

theorem sendAdmin_eq : ∀ (l : List NvmeAdmin) {s : State}, sendAdmin d l s = { s with out := s.out ++ l.map (.nvmeAdmin d) }
  | [], s => by
    simp only [sendAdmin, List.foldl_nil, List.map_nil, List.append_nil]
  | a :: l, s => (sendAdmin_eq l (s := emit (.nvmeAdmin d a) s)).trans (by simp [emit])

/-- The SSDs with one of them brought up. -/
def attachedSsds (s : State) (d : Nat) : List Ssd := s.recorder.ssds.modify d fun y => { y with attached := true }

theorem attachedSsds_of_attached (h : (ssd s d).attached = true) : attachedSsds s d = s.recorder.ssds := by
  refine List.ext_getElem? fun i => ?_
  unfold attachedSsds
  rw [List.getElem?_modify]
  by_cases hi : d = i
  · subst hi
    cases hget : s.recorder.ssds[d]? with
    | none => rfl
    | some y =>
      have hy : y.attached = true := by simpa [ssd, hget] using h
      simp [← hy]
  · simp [hi]

/-- The Admin commands that an SSD needs before a command to it. -/
def broughtUp (s : State) (d : Nat) : List Out := if (ssd s d).attached then [] else (attachCommands (ssd s d)).map (.nvmeAdmin d)

/-- The lanes once an SSD has been brought up. -/
def attachedLanes (s : State) (d : Nat) : List Lane :=
  if (ssd s d).attached then s.lanes else (lanesTurn true ((List.range 4).map (56 + 4 * d + ·)) s).lanes

theorem attachSsd_eq : attachSsd d s = { s with
    recorder := { s.recorder with ssds := attachedSsds s d }, out := s.out ++ broughtUp s d, lanes := attachedLanes s d } := by
  unfold attachSsd broughtUp attachedLanes
  by_cases h : (ssd s d).attached = true
  · simp only [h, if_true, attachedSsds_of_attached h, List.append_nil]
  · simp only [h, if_false, Bool.false_eq_true]
    rw [sendAdmin_eq, lanesTurn_eq]
    rfl

/-! ## Accesses of an SSD (08 R316) -/

/-- The command of I/O pair 2 that an access of an SSD is. -/
def hostOut (h : HostAccess) : Out := .nvmeHost h.ssd h.nsid h.lba h.count h.write h.data

/-- An access that has a place in I/O pair 2 goes to its SSD, which is brought up before. -/
theorem sendHost_place {h : HostAccess} {l : List HostAccess} (hhost : s.recorder.host = l ++ [h])
    (hplace : (l.filter (·.ssd == h.ssd)).length < 64) :
    sendHost h.ssd (l.filter (·.ssd == h.ssd)).length s = emit (hostOut h) (attachSsd h.ssd s) := by
  simp [sendHost, hhost, List.filter_append, hplace, hostOut]

/-- One beyond the 64 waits. -/
theorem sendHost_full (hplace : 64 ≤ n) : sendHost d n s = s := by
  unfold sendHost
  split
  · exact if_neg (by omega)
  · rfl

/-- The access that a `REC.STATUS` asks for. -/
def accessAsked (c : Cmd) (s : State) : HostAccess :=
  { ref := ⟨c.fn, c.seq⟩, write := fieldAt c.region 0 1 == 2, ssd := fieldAt c.region 1 1, nsid := fieldAt c.region 4 4
    lba := fieldAt c.region 8 8, count := fieldAt c.region 0x10 4
    data := if fieldAt c.region 0 1 = 2 then
      (c.region.drop 0x18).take (fieldAt c.region 0x10 4 * (ssd s (fieldAt c.region 1 1)).lbaBytes) else [] }

/-- The state with that access in the list of its SSD. -/
def accessWaits (c : Cmd) (s : State) : State :=
  modRec (fun x => { x with host := x.host ++ [accessAsked c s] }) (setWaiting c s)

theorem effectRecStatus_access (hop : fieldAt c.region 0 1 ≠ 0) : effectRecStatus c s =
    sendHost (accessAsked c s).ssd (s.recorder.host.filter (·.ssd == (accessAsked c s).ssd)).length (accessWaits c s) := by
  unfold effectRecStatus
  dsimp only
  rw [if_neg hop]
  simp only [accessWaits, accessAsked, accessOf, beq_iff_eq]

/-! ## Extents (08 R302) -/

theorem extents_of_media (h : RecKept mediaOf s t) : (ssd t d).extents = (ssd s d).extents := by
  have hmap := congrArg Prod.fst h
  have hget (v : State) : (ssd v d).extents = (v.recorder.ssds.map (·.extents)).getD d [] := by
    simp only [ssd, List.getD_eq_getElem?_getD, List.getElem?_map]
    cases v.recorder.ssds[d]? <;> rfl
  rw [hget, hget]
  exact congrArg (·.getD d []) hmap

theorem ssd_modSsd {g : Ssd → Ssd} (h : d < s.recorder.ssds.length) : ssd (modSsd d g s) d = g (ssd s d) := by
  simp [ssd, modSsd, modRec, List.getD_eq_getElem?_getD, h]

theorem ssd_modSsd_ne {g : Ssd → Ssd} (h : n ≠ d) : ssd (modSsd d g s) n = ssd s n := by
  simp [ssd, modSsd, modRec, List.getD_eq_getElem?_getD, Ne.symm h]

/-- The SSD with the extents that a `REC.EXTENTS` leaves. -/
def newExtents (s : State) (b : List Byte) (x : Ssd) : Ssd :=
  { x with extents := extentsKept s (fieldAt b 0 1) (bit (fieldAt b 1 1) 0) ++ extentsOf b }

/-- The recorder goes on where it waited for extents. -/
def mediaBack (t : State) : State := if t.recorder.state = 2 then modRec (fun x => { x with state := 1 }) t else t

theorem media_mediaBack : RecKept mediaOf s (mediaBack s) := .ite rfl (.refl s)

/-- What `REC.EXTENTS` leaves before it completes. -/
def extentsTaken (b : List Byte) (s : State) : State :=
  let t := mediaBack (modSsd (fieldAt b 0 1) (newExtents s b) s)
  if t.recorder.state = 0 then t else drain t

theorem effectRecExtents_eq : effectRecExtents c s = complete c {} (extentsTaken c.region s) := rfl

theorem extents_extentsTaken (h : fieldAt b 0 1 < s.recorder.ssds.length) : (ssd (extentsTaken b s) (fieldAt b 0 1)).extents =
    (if bit (fieldAt b 1 1) 0 then touched s (fieldAt b 0 1) else (ssd s (fieldAt b 0 1)).extents) ++ extentsOf b := by
  have hmedia : RecKept mediaOf (modSsd (fieldAt b 0 1) (newExtents s b) s) (extentsTaken b s) :=
    .ite media_mediaBack (media_mediaBack.trans media_drain)
  rw [extents_of_media hmedia, ssd_modSsd h]
  rfl

theorem extentsTaken_idle (h : s.recorder.state = 0) : extentsTaken b s = modSsd (fieldAt b 0 1) (newExtents s b) s := by
  have hback : mediaBack (modSsd (fieldAt b 0 1) (newExtents s b) s) = modSsd (fieldAt b 0 1) (newExtents s b) s :=
    if_neg (by simp [modSsd, modRec, h])
  unfold extentsTaken
  dsimp only
  rw [hback]
  exact if_pos h

/-! ## Stops (08 R315) -/

/-- The recorder with a command that waits for its stop. -/
def stopWaits (c : Cmd) (s : State) : State :=
  setWaiting c (modRec (fun x => { x with stopCmds := x.stopCmds ++ [⟨c.fn, c.seq⟩] }) s)

/-- The recorder stops at once: it closes the chunk that it writes. -/
theorem stopNow_facts (hstate : s.recorder.state = 1) (hopen : s.recorder.chunkOpen = true) :
    RecKept stopOf (modRec (fun x => { x with state := 3, stopReason := n }) s) (drain (stopFor n s)) := by
  have hstop : stopFor n s = modRec (fun x => { x with state := 3, stopReason := n }) s := if_neg (by omega)
  rw [hstop]
  exact stopOf_drain hopen rfl

theorem drainFor_closing (h : s.recorder.closing.isSome = true) : ∀ n, drainFor n s = s
  | 0 => rfl
  | n + 1 => by
    have hone : drainOne s = s := if_pos h
    rw [drainFor, hone, drainFor_closing h n]

theorem closing_beginClose : (beginClose n s).recorder.closing = some n := rfl

/-- What the low notice of the extents leaves of the recorder. -/
theorem closing_judgeLow : (judgeLow s).recorder.closing = s.recorder.closing :=
  recKept_judgeLow ⟨fun _ _ => rfl, fun _ _ => rfl, fun _ _ => rfl, fun _ _ _ _ => rfl⟩

/-- With nothing else to write, a recorder that stops begins to close its chunk. -/
theorem closing_drain_stopping (hstate : s.recorder.state = 3) (hopen : s.recorder.chunkOpen = true)
    (hclosing : s.recorder.closing = none) (hcarry : s.recorder.carry = none) (hlost : lostGroup s = none) :
    (drain s).recorder.closing = some s.recorder.stopReason := by
  have hone : drainOne s = beginClose s.recorder.stopReason s := by
    simp [drainOne, stopStep, hstate, hopen, hclosing, hcarry, hlost]
  have hfor (m : Nat) : drainFor (m + 1) s = beginClose s.recorder.stopReason s := by
    rw [drainFor, hone]
    exact drainFor_closing (by rw [closing_beginClose]; rfl) m
  have hsteps : ∀ m, drainFor (8 + m) s = beginClose s.recorder.stopReason s := fun m => by
    rw [show 8 + m = 7 + m + 1 by omega]
    exact hfor _
  unfold drain
  rw [closing_judgeLow, hsteps]
  exact closing_beginClose

/-! ## Relays (08 R299, R300) -/

theorem relay_modRelay {g : Relay → Relay} (hz : z = 14 ∨ z = 15) (hlen : s.relays.length = 2) :
    relay (modRelay z g s) z = g (relay s z) := by
  have hlt : z - 14 < s.relays.length := by omega
  simp [relay, modRelay, List.getD_eq_getElem?_getD, hlt]

theorem relays_flushQueue : (flushQueue n s).relays = s.relays := by
  have h : Answered (modQueue n queueFlush s) (flushQueue n s) :=
    .trans reported_unitEvent.answered (foldl_steps (R := Answered) (fun _ => rfl) Answered.trans _
      (fun _ _ _ => answered_complete) _)
  rw [h]
  rfl

theorem queue_flushQueue (hconf : (queue s n).configured = true) (hreading : (queue s n).reading = false) :
    (queue (flushQueue n s) n).packets = [] := by
  have hq : queue (flushQueue n s) n = queueFlush (queue s n) := by
    rw [← queue_modQueue_of_configured (g := queueFlush) hconf, queue, queue, flushQueue_queues]
  rw [hq]
  simp [queueFlush, hreading]

theorem reported_queueWrite : ∃ v, v = modQueue n (queueAdd b) s ∧ Reported v (queueWrite n b s) := by
  refine ⟨_, rfl, ?_⟩
  unfold queueWrite
  dsimp only
  split
  · exact reported_raise
  · exact .refl _

/-- What a relay has sent, and what it sends next. -/
def relaySent (e : RingEntry) (sent : Nat) (x : Relay) : Relay :=
  if sent = (relayData e).length then { next := e.no + 1, offset := 0, gap := false }
  else { x with next := e.no, offset := sent, gap := false }

/-- A packet of a relay that its queue takes. -/
theorem sendRelay_facts (hz : z = 14 ∨ z = 15) (hlen : s.relays.length = 2) :
    let q := fieldAt (zipBlk s.cfg.active z) 0xE 2
    let pkt := relayPacket e (relay s z).offset ((queue s q).maxPacket - 16) (relay s z).gap
    queueTakes s q pkt = true → sendRelay z e s = { reported s (sendRelay z e s) with
        relays := (sendRelay z e s).relays, queues := (sendRelay z e s).queues } ∧
      (∀ k, k ≠ q → queue (sendRelay z e s) k = queue s k) ∧
      (queue (sendRelay z e s) q).packets = (queue s q).packets ++ [pkt] ∧
      relay (sendRelay z e s) z = relaySent e ((relay s z).offset + (pkt.length - 16)) (relay s z) := by
  intro q pkt htakes
  have hsend : sendRelay z e s = queueWrite q pkt (modRelay z (relaySent e ((relay s z).offset + (pkt.length - 16))) s) := by
    unfold sendRelay
    dsimp only
    rw [if_neg (by rw [htakes]; decide)]
    rfl
  obtain ⟨v, hv, htold⟩ := reported_queueWrite (n := q) (b := pkt)
    (s := modRelay z (relaySent e ((relay s z).offset + (pkt.length - 16))) s)
  have hqueues : (sendRelay z e s).queues = (modQueue q (queueAdd pkt) s).queues := by
    rw [hsend, htold, hv]
    rfl
  have hqueue (k : Nat) : queue (sendRelay z e s) k = queue (modQueue q (queueAdd pkt) s) k := by
    rw [queue, queue, hqueues]
  have hconf : (queueAdd pkt (queue s q)).configured = true := (queueTakes_iff.mp htakes).1
  refine ⟨?_, fun k hk => (hqueue k).trans (queue_modQueue_ne hk), ?_, ?_⟩
  · rw [hsend]
    rw [htold, hv]
    rfl
  · rw [hqueue, queue_modQueue_of_configured hconf]
    rfl
  · rw [hsend, htold, hv]
    exact relay_modRelay hz hlen

theorem exec_relayPacket (hclock : enginesClocked s = true) (hz : z = 14 ∨ z = 15) (hrelay : isRelay s.cfg.active z = true)
    (hlive : unitLive s 0x30 z = true) (hnext : relayNext s z = some e) :
    exec (.relayPacket z) s = .next (sendRelay z e s) := by
  have hport : (z == 14 || z == 15) = true := by simpa using hz
  simp only [exec, execRelayPacket, hclock, hport, hrelay, hlive, hnext, Bool.and_self, if_true]

end

/-! ## The obligation -/

/-- A key set or cleared is read back, and no other changes (08 R318). -/
theorem keys_written {k : Tbl (Nat × List Byte)} {clear : Bool} {n : Nat} {v : Nat × List Byte} (hwf : Tbl.wf k = true) :
    Tbl.find? (if clear then Tbl.erase k n else Tbl.set k n v) n = (if clear then none else some v) ∧
    ∀ j, j ≠ n → Tbl.find? (if clear then Tbl.erase k n else Tbl.set k n v) j = Tbl.find? k j := by
  cases clear with
  | true => exact ⟨Tbl.find?_erase hwf, fun j hj => Tbl.find?_erase_ne hj⟩
  | false => exact ⟨Tbl.find?_set, fun j hj => Tbl.find?_set_ne hj⟩

/-- Settles O50: extents, keys and accesses by the recorder's own steps; a stop by what a stopping recorder keeps; the relays by
their queue's rules. -/
theorem recorderCommandsTakeEffect : Obligations.RecorderCommandsTakeEffect := by
  unfold Obligations.RecorderCommandsTakeEffect
  refine ⟨fun r s c => ⟨fun hstart hpass hd => ?extents, fun hstart hpass => ?start, fun hstart hpass => ⟨?idle, ?stopping, ?later, ?now⟩,
    fun hstart hpass hwf => ?key, fun hstart hpass => ⟨fun hop => ?status, fun hop => ?access⟩,
    fun hstart hpass hz hlen => ?flush⟩, fun z s e hclock hz hrelay hlive hnext hlen => ⟨fun hno => ?full, fun htakes => ?packet⟩⟩
  case extents =>
    refine ⟨extentsTaken c.region s, congrArg Host.Outcome.next ((runCmd_effect hstart hpass).trans effectRecExtents_eq),
      extents_extentsTaken hd, fun hidle => ?_⟩
    rw [extentsTaken_idle hidle]
    exact ⟨rfl, fun k hk => ssd_modSsd_ne hk⟩
  case start =>
    exact ⟨effectRecStart c s, congrArg Host.Outcome.next (runCmd_effect hstart hpass), rfl, rfl, rfl, rfl, rfl, rfl, rfl, rfl, rfl, rfl,
      rfl, rfl, rfl, rfl, rfl, rfl⟩
  case idle =>
    intro hstate
    exact congrArg Host.Outcome.next ((runCmd_effect hstart hpass).trans (if_pos hstate))
  case stopping =>
    intro hstate
    exact congrArg Host.Outcome.next ((runCmd_effect hstart hpass).trans ((if_neg (by omega)).trans (if_pos hstate)))
  case later =>
    intro hidle hstop hop hpassed
    exact congrArg Host.Outcome.next ((runCmd_effect hstart hpass).trans ((if_neg hidle).trans ((if_neg hstop).trans
      (if_pos ⟨hop, by rw [hpassed]; rfl⟩))))
  case now =>
    intro hstate hop hopen
    have heffect : stopEffect c s = drain (stopFor 2 (stopWaits c s)) :=
      (if_neg (by omega)).trans ((if_neg (by omega)).trans (if_neg (by omega)))
    have hkept := stopNow_facts (s := stopWaits c s) (n := 2) hstate hopen
    refine ⟨_, congrArg Host.Outcome.next ((runCmd_effect hstart hpass).trans heffect), congrArg Prod.fst hkept,
      congrArg (fun v => v.2.2) hkept, fun hclosing hcarry hlost => ?_⟩
    have hstop : stopFor 2 (stopWaits c s) = modRec (fun x => { x with state := 3, stopReason := 2 }) (stopWaits c s) :=
      if_neg (by simp [stopWaits, setWaiting, modRec, hstate])
    rw [hstop]
    exact closing_drain_stopping rfl hopen hclosing hcarry hlost
  case key =>
    exact ⟨_, congrArg Host.Outcome.next (runCmd_effect hstart hpass), rfl, keys_written hwf⟩
  case status =>
    exact congrArg Host.Outcome.next ((runCmd_effect hstart hpass).trans (if_pos hop))
  case access =>
    refine ⟨_, accessAsked c s, congrArg Host.Outcome.next ((runCmd_effect hstart hpass).trans (effectRecStatus_access hop)), ?_⟩
    by_cases hfull : 64 ≤ (s.recorder.host.filter (·.ssd == (accessAsked c s).ssd)).length
    · rw [sendHost_full hfull]
      exact ⟨rfl, fun _ => ⟨rfl, rfl, rfl⟩, fun hplace => absurd hfull (by omega), rfl⟩
    · rw [sendHost_place (l := s.recorder.host) rfl (by omega), attachSsd_eq]
      exact ⟨rfl, fun h => absurd h hfull, fun _ => ⟨rfl, rfl, rfl⟩, rfl⟩
  case flush =>
    refine ⟨flushRelay c.target s, nextSerialOf s c.target, congrArg Host.Outcome.next (runCmd_effect hstart hpass), ?_,
      fun hconf hreading => queue_flushQueue hconf hreading⟩
    exact relay_modRelay hz (by rw [relays_flushQueue]; exact hlen)
  case full =>
    exact (exec_relayPacket hclock hz hrelay hlive hnext).trans (congrArg Host.Outcome.next (if_pos (by rw [hno]; decide)))
  case packet =>
    exact ⟨_, exec_relayPacket hclock hz hrelay hlive hnext, sendRelay_facts hz hlen htakes⟩

end Sys2Proof.Machine
end

section
/-! The recorder as its media answer, and the TDM ports (08 R301, R310, R312, R316, R319 to R321). -/

namespace Sys2Proof.Machine

open Sys2Proof

section

variable {c : Cmd} {d n k p f : Nat} {w : NvmeWrite} {b : List Byte} {s t u : State}

/-! ## Writes that end (08 R301, R312) -/

theorem recorder_dropWrite : (dropWrite d w s).recorder = { s.recorder with writes := s.recorder.writes.erase w } := by
  unfold dropWrite
  dsimp only
  split <;> rfl

theorem recorded_dropWrite : recorded s (dropWrite d w s) := by
  unfold dropWrite
  dsimp only
  split
  · exact recorded_modRec.trans recorded_emit
  · exact recorded_modRec

/-- What an answer of the media keeps of the recorder while no chunk closes. -/
def recordsOf (x : Rec) : List NvmeWrite × List Byte × List IndexEntry × Nat := (x.writes, x.body, x.index, x.state)

theorem recordsOf_judgeLow : recordsOf (judgeLow s).recorder = recordsOf s.recorder := by
  unfold judgeLow
  refine foldl_steps (R := RecKept recordsOf) RecKept.refl RecKept.trans _ (fun t d _ => ?_) s
  have hlow {v : Bool} : RecKept recordsOf t (modSsd d (fun x => { x with lowTold := v }) t) := rfl
  exact .ite (hlow.trans reported_tell.recKept) hlow

/-- A Write that has ended while no chunk closes leaves its queue, and the records stay. -/
theorem writeDone_facts (hphase : s.recorder.closePhase = 0) : recorded s (writeDone d w s) ∧
    recordsOf (writeDone d w s).recorder = (s.recorder.writes.erase w, s.recorder.body, s.recorder.index, s.recorder.state) := by
  have hdone : writeDone d w s = judgeLow (dropWrite d w s) := by
    have h : (dropWrite d w s).recorder.closePhase = 0 := by rw [recorder_dropWrite]; exact hphase
    simp only [writeDone, h, if_true]
  rw [hdone, recordsOf_judgeLow, recorder_dropWrite]
  exact ⟨recorded_dropWrite.trans recorded_judgeLow, rfl⟩

/-! ## Writes that fail (08 R312) -/

theorem failWrite_first {st : Nat} (h : w.retried = false) : failWrite d st w s = emit (writeOut w)
    (modRec (fun x => { x with writes := x.writes.map fun q => if q = w then { q with retried := true } else q }) s) :=
  if_neg (by rw [h]; decide)

theorem failWrite_again {st : Nat} (h : w.retried = true) : failWrite d st w s = mediaError d st w s := if_pos h

/-- The state in which a Write that failed twice has been told. -/
def errorTold (d st : Nat) (w : NvmeWrite) (s : State) : State :=
  raise (301 + d) (unitEvent 0x3105 0x31 0 none (d + 2 ^ 16 * (st % 65536) + 2 ^ 32 * (w.lba % 2 ^ 32))
    (sendAdmin d [.getLogPage 1 w.nsid] s))

theorem recorder_errorTold {st : Nat} : (errorTold d st w s).recorder = s.recorder := by
  have h : Reported (sendAdmin d [.getLogPage 1 w.nsid] s) (errorTold d st w s) := reported_tell
  rw [h]
  exact recorder_sendAdmin

/-- The Writes that a failed record Write leaves lie before it. -/
theorem writes_afterError (hfua : w.fua = false) (hflush : w.flush = false) (hoff : w.off ≠ 0) :
    ∀ q ∈ (afterError w s).recorder.writes, q ∈ s.recorder.writes ∧ q.off < w.off := by
  have hcut : (afterError w s).recorder.writes = (s.recorder.writes.erase w).filter fun q => decide (q.off < w.off) := by
    unfold afterError
    rw [if_neg (by simp [hfua, hflush, hoff])]
    rfl
  intro q hq
  rw [hcut, List.mem_filter] at hq
  exact ⟨List.mem_of_mem_erase hq.1, of_decide_eq_true hq.2⟩

/-- The second failure of a Write of an open chunk makes it close with reason 5. -/
theorem mediaError_closes {st : Nat} (hstate : s.recorder.state ≠ 0) (hopen : s.recorder.chunkOpen = true)
    (hfirst : ¬(s.recorder.closing = some 5 ∧ s.recorder.closePhase ≠ 0)) :
    (mediaError d st w s).recorder = { (afterError w (errorTold d st w s)).recorder with
      state := 3, stopReason := 5, closing := some 5, closePhase := 0, carry := none } := by
  have hgo : ¬(s.recorder.state = 0 ∨ (!s.recorder.chunkOpen) = true) := by simp [hstate, hopen]
  have herr : mediaError d st w s = modRec (fun x => { x with
      state := 3, stopReason := 5, closing := some 5, closePhase := 0, carry := none }) (afterError w (errorTold d st w s)) :=
    (if_neg hgo).trans (if_neg hfirst)
  rw [herr]
  rfl

theorem leaveChunk_ends : (leaveChunk n s).recorder.chunkOpen = false ∧
    (leaveChunk n s).recorder.writes = s.recorder.writes := by
  refine ⟨rfl, ?_⟩
  exact foldl_steps (R := fun s t : State => t.recorder.writes = s.recorder.writes)
    (op := fun t d => modSsd d (fun y => { y with pos := y.base + chunkShare s.recorder.stripe d n }) t) (fun _ => rfl)
    (fun h h' => h'.trans h) _ (fun _ _ _ => rfl) s

/-- Without a chunk to close, or where its close fails too, the recorder is idle. -/
theorem mediaError_idle {st : Nat} (hstate : s.recorder.state ≠ 0)
    (hend : s.recorder.chunkOpen = false ∨ s.recorder.closing = some 5 ∧ s.recorder.closePhase ≠ 0) :
    (mediaError d st w s).recorder.state = 0 ∧ (mediaError d st w s).recorder.writes = [] ∧
      (mediaError d st w s).recorder.chunkOpen = false := by
  by_cases hopen : s.recorder.chunkOpen = true
  · have hagain : s.recorder.closing = some 5 ∧ s.recorder.closePhase ≠ 0 := hend.resolve_left (by simp [hopen])
    have hgo : ¬(s.recorder.state = 0 ∨ (!s.recorder.chunkOpen) = true) := by simp [hstate, hopen]
    have herr : mediaError d st w s = finishStop 5 (leaveChunk (alignUp (4096 + s.recorder.body.length) 4096)
        (modRec (fun x => { x with writes := [] }) (errorTold d st w s))) := (if_neg hgo).trans (if_pos hagain)
    rw [herr, recorder_finishStop]
    exact ⟨rfl, leaveChunk_ends.2, rfl⟩
  · have herr : mediaError d st w s = modRec (fun x => { x with writes := [] }) (finishStop 5 (errorTold d st w s)) := by
      unfold mediaError
      dsimp only
      rw [if_pos (.inr (by simp [hopen])), if_neg hstate]
      rfl
    rw [herr]
    dsimp only [modRec]
    rw [recorder_finishStop, recorder_errorTold]
    exact ⟨rfl, rfl, by simpa [idleRec] using hopen⟩

/-! ## A chunk closes (08 R310) -/

/-- What the parts of a close before its last keep of the recorder. -/
def closeOf (x : Rec) : Bool × Option Nat × Nat := (x.chunkOpen, x.closing, x.bytes)

theorem closeOf_sending : OutsideSending closeOf := ⟨fun _ _ => rfl, fun _ _ => rfl, fun _ _ => rfl, fun _ _ _ _ => rfl⟩

theorem writes_attachSsd : (attachSsd d s).recorder.writes = s.recorder.writes := by rw [attachSsd_eq]

theorem writes_pushWrite : (pushWrite w s).recorder.writes = s.recorder.writes ++ [w] := by
  have hpushed : (modRec (fun x => { x with writes := x.writes ++ [w] }) (attachSsd w.ssd s)).recorder.writes =
      s.recorder.writes ++ [w] := congrArg (· ++ [w]) writes_attachSsd
  unfold pushWrite
  dsimp only
  split
  · exact hpushed
  · exact hpushed

theorem writes_foldl_pushWrite (g : Nat → NvmeWrite) : ∀ (l : List Nat) {s : State},
    (l.foldl (fun t d => pushWrite (g d) t) s).recorder.writes = s.recorder.writes ++ l.map g
  | [], s => (List.append_nil _).symm
  | d :: l, s => by
    rw [List.foldl_cons, writes_foldl_pushWrite g l, writes_pushWrite, List.append_assoc]
    rfl

/-- The next phase of a close begins. -/
def phaseNext (m : Nat) (t : State) : State := modRec (fun y => { y with closePhase := m + 1 }) t

/-- The Flush of an SSD after the records of a chunk (08 R310). -/
def chunkFlush (s : State) (total d : Nat) : NvmeWrite :=
  { ssd := d, nsid := 0, lba := 0, fua := false, data := [], chunk := s.recorder.chunkNo, off := total, flush := true }

/-- Bytes of a closed chunk. -/
def chunkTotal (x : Rec) : Nat := alignUp (4096 + x.body.length + (x.index.flatMap indexBytes).length) 4096

theorem length_indexBytes_flatMap (l : List IndexEntry) : (l.flatMap indexBytes).length = 32 * l.length := by
  have hone (e : IndexEntry) : (indexBytes e).length = 32 := by
    simp only [indexBytes, List.length_append, length_leBytes, timeBytes]
  induction l with
  | nil => rfl
  | cons e l ih =>
    rw [List.flatMap_cons, List.length_append, hone, ih, List.length_cons]
    omega

theorem chunkTotal_eq {x : Rec} : chunkTotal x = alignUp (4096 + x.body.length + 32 * x.index.length) 4096 := by
  rw [chunkTotal, length_indexBytes_flatMap]

theorem closePart_flush (h : s.recorder.closePhase = 2) : closePart k s =
    phaseNext 2 ((ssdsOf s.recorder.stripe).foldl (fun t d => pushWrite (chunkFlush s (chunkTotal s.recorder) d) t) s) := by
  simp only [closePart, h]
  rfl

theorem closePart_header (h : s.recorder.closePhase = 3) : closePart k s =
    phaseNext 3 (pushWrite (chunkWrite s 0 true (chunkHeader s true (chunkTotal s.recorder) (4096 + s.recorder.body.length))) s) := by
  simp only [closePart, h]
  rfl

/-- The state after the last part of a close, which is the event. -/
theorem closePart_last (h : 4 ≤ s.recorder.closePhase) : ∃ v, Reported v (closePart k s) ∧
    v = modRec (fun y => { y with bytes := y.bytes + chunkTotal s.recorder }) (leaveChunk (chunkTotal s.recorder) s) := by
  refine ⟨_, ?_, rfl⟩
  obtain ⟨m, hm⟩ := Nat.exists_eq_add_of_le h
  rw [Nat.add_comm] at hm
  simp only [closePart, hm]
  exact reported_tell

theorem ssdsOf_ne_nil {m : Nat} : ssdsOf m ≠ [] := by
  unfold ssdsOf
  split <;> exact List.cons_ne_nil _ _

/-- A part of a close before the last: the chunk stays open and the next part comes; a Flush and the header are outstanding. -/
theorem closePart_early (h : s.recorder.closePhase < 4) : RecKept closeOf s (closePart k s) ∧
    (closePart k s).recorder.closePhase = s.recorder.closePhase + 1 ∧
    (s.recorder.closePhase < 3 ∨ (closePart k s).recorder.writes ≠ []) ∧ recorded s (closePart k s) := by
  have hphase {m : Nat} {v : State} : RecKept closeOf v (phaseNext m v) := rfl
  match hp : s.recorder.closePhase, h with
  | 0, _ =>
    have hpart : closePart k s = phaseNext 0 (sendPadded s.recorder.body (alignUp (4096 + s.recorder.body.length) 4096) s) := by
      simp only [closePart, hp]
      rfl
    rw [hpart]
    exact ⟨(recKept_sendPadded closeOf_sending).trans hphase, rfl, .inl (by omega), recorded_sendPadded.trans recorded_modRec⟩
  | 1, _ =>
    have hpart : closePart k s = phaseNext 1 (sendPadded (s.recorder.body ++ s.recorder.index.flatMap indexBytes)
        (chunkTotal s.recorder) (modRec (fun y => { y with sent := (4096 + s.recorder.body.length) / 4096 * 4096 }) s)) := by
      simp only [closePart, hp]
      rfl
    rw [hpart]
    refine ⟨.trans (.trans ?_ (recKept_sendPadded closeOf_sending)) hphase, rfl, .inl (by omega),
      (recorded_modRec.trans recorded_sendPadded).trans recorded_modRec⟩
    rfl
  | 2, _ =>
    rw [closePart_flush hp]
    refine ⟨.trans ?_ hphase, rfl, .inr ?_, .trans ?_ recorded_modRec⟩
    · exact foldl_steps (R := RecKept closeOf) RecKept.refl RecKept.trans _
        (fun _ _ _ => recKept_pushWrite closeOf_sending) s
    · refine ne_of_eq_of_ne (writes_foldl_pushWrite _ _) ?_
      simp [ssdsOf_ne_nil]
    · exact recorded_foldl _ fun _ _ _ => recorded_pushWrite
  | 3, _ =>
    rw [closePart_header hp]
    refine ⟨.trans (recKept_pushWrite closeOf_sending) hphase, rfl, .inr ?_, recorded_pushWrite.trans recorded_modRec⟩
    refine ne_of_eq_of_ne writes_pushWrite ?_
    simp

theorem recorded_closePart : recorded s (closePart k s) := by
  by_cases h : s.recorder.closePhase < 4
  · exact (closePart_early h).2.2.2
  · obtain ⟨v, htold, rfl⟩ := closePart_last (k := k) (Nat.le_of_not_lt h)
    exact (recorded_leaveChunk.trans recorded_modRec).trans htold.recorded

theorem recorded_closeFor : ∀ (n : Nat) {s : State}, recorded s (closeFor n s)
  | 0, s => recorded_refl s
  | n + 1, s => by
    unfold closeFor
    split
    · split
      · exact recorded_closePart.trans (recorded_closeFor n)
      · exact recorded_refl s
    · exact recorded_refl s

theorem recorded_closeOn : recorded s (closeOn s) := by
  unfold closeOn
  dsimp only
  split
  · exact (recorded_closeFor 5).trans recorded_drain
  · exact recorded_closeFor 5

/-- A close that goes on: with Writes outstanding it waits. -/
theorem closeFor_waits (h : s.recorder.writes ≠ []) (n : Nat) : closeFor n s = s := by
  cases n with
  | zero => rfl
  | succ n =>
    unfold closeFor
    split
    · exact if_neg (by simp [h])
    · rfl

theorem closeFor_step (hclosing : s.recorder.closing = some k) (hopen : s.recorder.chunkOpen = true)
    (hwrites : s.recorder.writes = []) : closeFor (n + 1) s = closeFor n (closePart k s) := by
  simp [closeFor, hclosing, hopen, hwrites]

/-- A close does not end before the header has been taken. -/
theorem closeFor_early : ∀ (n : Nat) {s : State}, s.recorder.closing = some k → s.recorder.chunkOpen = true →
    s.recorder.closePhase < 4 ∨ s.recorder.writes ≠ [] →
    RecKept closeOf s (closeFor n s) ∧ s.recorder.closePhase ≤ (closeFor n s).recorder.closePhase
  | 0, s, _, _, _ => ⟨.refl s, le_rfl⟩
  | n + 1, s, hclosing, hopen, hphase => by
    by_cases hwrites : s.recorder.writes = []
    · have hlt := hphase.resolve_right fun h => h hwrites
      obtain ⟨hkept, hnext, hout, -⟩ := closePart_early (k := k) hlt
      obtain ⟨hrest, hle⟩ := closeFor_early n ((congrArg (fun v => v.2.1) hkept).trans hclosing)
        ((congrArg Prod.fst hkept).trans hopen) (hout.imp (fun h => by omega) id)
      rw [closeFor_step hclosing hopen hwrites]
      exact ⟨hkept.trans hrest, by omega⟩
    · rw [closeFor_waits hwrites]
      exact ⟨.refl s, le_rfl⟩

/-- CHUNK_CLOSE goes on with a close that has begun. -/
theorem exec_chunkClose (hclock : enginesClocked s = true) (hclosing : s.recorder.closing = some k) :
    exec .chunkClose s = .next (closeOn s) := by
  simp [exec, execChunkClose, hclock, hclosing]

/-- Before the last part the chunk stays open. -/
theorem closeOn_early (hclosing : s.recorder.closing = some k) (hopen : s.recorder.chunkOpen = true)
    (hwrites : s.recorder.writes = []) (hphase : s.recorder.closePhase < 4) :
    closeOn s = closeFor 5 s ∧ (closeOn s).recorder.bytes = s.recorder.bytes ∧
      s.recorder.closePhase < (closeOn s).recorder.closePhase := by
  obtain ⟨hkept, hnext, hout, -⟩ := closePart_early (k := k) hphase
  obtain ⟨hrest, hle⟩ := closeFor_early 4 ((congrArg (fun v => v.2.1) hkept).trans hclosing)
    ((congrArg Prod.fst hkept).trans hopen) (hout.imp (fun h => by omega) id)
  have hfive : closeFor 5 s = closeFor 4 (closePart k s) := closeFor_step hclosing hopen hwrites
  have hall : RecKept closeOf s (closeFor 5 s) := hfive ▸ hkept.trans hrest
  have hon : closeOn s = closeFor 5 s := by
    have hstill : (closeFor 5 s).recorder.chunkOpen = true := (congrArg Prod.fst hall).trans hopen
    exact if_neg (by simp [hstill])
  refine ⟨hon, hon ▸ congrArg (fun v => v.2.2) hall, ?_⟩
  rw [hon, hfive]
  omega

/-- A part that leaves Writes outstanding is the last for now. -/
theorem closeFor_part (hclosing : s.recorder.closing = some k) (hopen : s.recorder.chunkOpen = true)
    (hwrites : s.recorder.writes = []) (hout : (closePart k s).recorder.writes ≠ []) : closeFor 5 s = closePart k s :=
  (closeFor_step hclosing hopen hwrites).trans (closeFor_waits hout 4)

/-! ## The end of a chunk -/

theorem drainFor_idle (hclosing : s.recorder.closing = none) (hstate : s.recorder.state = 0) : ∀ n, drainFor n s = s
  | 0 => rfl
  | n + 1 => by
    have hone : drainOne s = s := by simp [drainOne, hclosing, hstate]
    rw [drainFor, hone, drainFor_idle hclosing hstate n]

/-- A recorder that stops and has nothing left to write is idle. -/
theorem drain_ends (hclosing : s.recorder.closing = none) (hstate : s.recorder.state = 3) (hopen : s.recorder.chunkOpen = false)
    (hcarry : s.recorder.carry = none) (hlost : lostGroup s = none) : RecKept stopOf (finishStop s.recorder.stopReason s) (drain s) := by
  have hone : drainOne s = finishStop s.recorder.stopReason s := by
    by_cases h5 : s.recorder.stopReason = 5
    · simp [drainOne, stopStep, hstate, hopen, hclosing, h5]
    · simp [drainOne, stopStep, hstate, hopen, hclosing, hcarry, hlost, h5]
  have hidle : ∀ m, drainFor m (finishStop s.recorder.stopReason s) = finishStop s.recorder.stopReason s :=
    drainFor_idle (by rw [recorder_finishStop]; exact hclosing) (by rw [recorder_finishStop]; rfl)
  have hsteps (m : Nat) : drainFor (8 + m) s = finishStop s.recorder.stopReason s := by
    rw [show 8 + m = 7 + m + 1 by omega, drainFor, hone]
    exact hidle _
  unfold drain
  rw [hsteps]
  exact recKept_judgeLow stopOf_writing.sending

/-- What a chunk that ends leaves of the recorder but its SSDs. -/
def endedChunk (x : Rec) : Nat × Option (RingEntry × List Byte) × Nat × List CmdRef × Nat :=
  (x.state, x.carry, x.stopReason, x.stopCmds, x.zmask)

theorem leaveChunk_keeps {total : Nat} : RecKept endedChunk s (leaveChunk total s) ∧
    (leaveChunk total s).recorder.bytes = s.recorder.bytes ∧ (leaveChunk total s).groups = s.groups := by
  have hfold := foldl_steps (R := fun s t : State => endedChunk t.recorder = endedChunk s.recorder ∧
      t.recorder.bytes = s.recorder.bytes ∧ t.groups = s.groups)
    (op := fun t d => modSsd d (fun y => { y with pos := y.base + chunkShare s.recorder.stripe d total }) t)
    (fun _ => ⟨rfl, rfl, rfl⟩) (fun h h' => ⟨h'.1.trans h.1, h'.2.1.trans h.2.1, h'.2.2.trans h.2.2⟩)
    (ssdsOf s.recorder.stripe) (fun _ _ _ => ⟨rfl, rfl, rfl⟩) s
  exact hfold

/-- The last part of a close: the chunk is not open any more, its bytes count, and the recorder goes on. -/
theorem closeOn_last (hclosing : s.recorder.closing = some k) (hopen : s.recorder.chunkOpen = true)
    (hwrites : s.recorder.writes = []) (hphase : 4 ≤ s.recorder.closePhase) :
    (closeOn s).recorder.bytes = s.recorder.bytes + chunkTotal s.recorder ∧
    (s.recorder.state = 3 → s.recorder.carry = none → lostGroup s = none →
      stopOf (closeOn s).recorder = (0, false, [])) := by
  obtain ⟨v, htold, hv⟩ := closePart_last (k := k) hphase
  obtain ⟨hkept, hbytes, hgroups⟩ := leaveChunk_keeps (s := s) (total := chunkTotal s.recorder)
  have hrec : (closePart k s).recorder = v.recorder := by rw [htold]; rfl
  have hended : (closePart k s).recorder.chunkOpen = false ∧ (closePart k s).recorder.closing = none := by
    rw [hrec, hv]
    exact ⟨rfl, rfl⟩
  have hfour : closeFor 4 (closePart k s) = closePart k s := by
    unfold closeFor
    rw [hended.2]
  have hon : closeOn s = drain (closePart k s) := by
    have hfive : closeFor 5 s = closePart k s := (closeFor_step hclosing hopen hwrites).trans hfour
    unfold closeOn
    dsimp only
    rw [hfive]
    exact if_pos (by rw [hopen, hended.1]; rfl)
  have hcore : endedChunk (closePart k s).recorder = endedChunk s.recorder := by
    rw [hrec, hv]
    exact hkept
  rw [hon]
  refine ⟨?_, fun hstate hcarry hlost => ?_⟩
  · have hdrain : (drain (closePart k s)).recorder.bytes = (closePart k s).recorder.bytes := congrArg Prod.snd media_drain
    rw [hdrain, hrec, hv]
    exact congrArg (· + chunkTotal s.recorder) hbytes
  · have hsame : (closePart k s).groups = s.groups := by
      rw [htold, hv]
      exact hgroups
    have hnone : lostGroup (closePart k s) = none := by
      have hmask : (closePart k s).recorder.zmask = s.recorder.zmask := congrArg (fun v => v.2.2.2.2) hcore
      unfold lostGroup group at *
      rw [hsame, hmask]
      exact hlost
    have hends := drain_ends hended.2 ((congrArg Prod.fst hcore).trans hstate) hended.1
      ((congrArg (fun v => v.2.1) hcore).trans hcarry) hnone
    refine Eq.trans hends ?_
    rw [recorder_finishStop]
    simp only [stopOf, idleRec, hended.1]

end

end Sys2Proof.Machine
end

section
/-! Word-clock frames of the TDM ports reach the recorder and the flows (08 R319 to R321; 13 R462); the recorder follows its
media. -/

namespace Sys2Proof.Machine

open Sys2Proof

section

variable {a p f n : Nat} {gap held marker : Bool} {ts : Nat} {x : FlowCfg} {b data : List Byte} {words : List Nat}
  {s t u : State}

/-- From `s` to `t` flows may have sent packets. -/
def Flowed (s t : State) : Prop := t = { reported s t with net := t.net, cfg := { s.cfg with active := t.cfg.active } }

theorem Flowed.refl (s : State) : Flowed s s := rfl

theorem Flowed.trans (hst : Flowed s t) (htu : Flowed t u) : Flowed s u := by
  unfold Flowed at *
  rw [htu, hst]
  rfl

theorem Flowed.ite {q : Prop} [Decidable q] (ht : Flowed s t) (hu : Flowed s u) : Flowed s (if q then t else u) := by
  split
  · exact ht
  · exact hu

theorem Reported.flowed (h : Reported s t) : Flowed s t := by
  unfold Reported at h
  unfold Flowed
  rw [h]
  rfl

theorem flowed_modFlow {g : FlowSt → FlowSt} : Flowed s (modFlow p f g s) := rfl

theorem flowed_countAt {k : Nat} : Flowed s (countAt p n k s) := rfl

theorem flowed_switchFlow : Flowed s (switchFlow p f s) := rfl

theorem flowed_netTx {sub : Nat} : Flowed s (netTx p sub b s) := by
  unfold netTx
  exact .ite rfl (.refl s)

theorem flowed_sendRtp : Flowed s (sendRtp p f x held ts marker data s) := by
  unfold sendRtp
  extract_lets q s1
  have hnumber : Flowed s s1 := flowed_modFlow
  refine .ite (.trans (.trans hnumber flowed_countAt) reported_raise.flowed) (hnumber.trans ?_)
  exact foldl_steps (R := Flowed) Flowed.refl Flowed.trans _ (fun t _ _ => .ite flowed_netTx (.refl t)) _

theorem flowed_audioPacket : Flowed s (audioPacket a p f x s) := by
  unfold audioPacket
  dsimp only
  split
  · exact .trans flowed_modFlow flowed_sendRtp
  · exact flowed_modFlow

theorem flowed_audioFlow : Flowed s (audioFlow a gap p f s) := by
  unfold audioFlow
  split
  · refine .ite (.refl s) ?_
    extract_lets had s1
    have hswitch : Flowed s s1 := .ite flowed_switchFlow (.refl s)
    split
    · exact .ite (hswitch.trans flowed_modFlow) (.ite (hswitch.trans flowed_modFlow) (hswitch.trans flowed_audioPacket))
    · exact hswitch
  · exact .refl s

theorem flowed_audioFlows : Flowed s (audioFlows a gap s) :=
  foldl_steps (R := Flowed) (op := fun t p => (List.range 32).foldl (fun u f => audioFlow a gap p f u) t) Flowed.refl Flowed.trans _
    (fun t _ _ => foldl_steps (R := Flowed) Flowed.refl Flowed.trans _ (fun _ _ _ => flowed_audioFlow) t) s

/-- The samples of a word-clock frame with the time of its sync edge. -/
def samplesIn (a : Nat) (b : List Byte) (words : List Nat) (s : State) : Time × List Nat :=
  (stampTime s (44 + a) (s.tdm.getD a {}).recent.length, samplesOfFrame b words)

/-- A TDM port that has taken a frame of samples. -/
def tdmTook (one : Time × List Nat) (y : Tdm) : Tdm :=
  { y with recent := (one :: (if y.restart then [] else y.recent)).take 48, restart := false }

/-- The recorder that has taken one. -/
def recTook (a : Nat) (one : Time × List Nat) (s : State) : Rec :=
  if s.recorder.state = 0 ∨ (audioChans s).1 / 256 ^ a % 256 = 0 then s.recorder
  else { s.recorder with audio := addSample (audioChans s) a (s.tdm.getD a {}).restart one s.recorder.audio }

theorem audioFrameIn_eq : audioFrameIn a b words s = audioFlows a (s.tdm.getD a {}).restart
    { s with tdm := s.tdm.modify a (tdmTook (samplesIn a b words s)), recorder := recTook a (samplesIn a b words s) s } := by
  unfold audioFrameIn recTook
  dsimp only
  congr 1
  split <;> rfl

/-- A frame of samples reaches the port's newest frames and the recorder; the flows leave both. -/
theorem audioFrameIn_facts (ha : a < s.tdm.length) :
    audioFrameIn a b words s = { reported s (audioFrameIn a b words s) with
      tdm := (audioFrameIn a b words s).tdm, net := (audioFrameIn a b words s).net
      recorder := (audioFrameIn a b words s).recorder
      cfg := { s.cfg with active := (audioFrameIn a b words s).cfg.active } } ∧
    (audioFrameIn a b words s).tdm.getD a {} = tdmTook (samplesIn a b words s) (s.tdm.getD a {}) ∧
    (audioFrameIn a b words s).recorder = recTook a (samplesIn a b words s) s := by
  have hflow := flowed_audioFlows (a := a) (gap := (s.tdm.getD a {}).restart) (s :=
    { s with tdm := s.tdm.modify a (tdmTook (samplesIn a b words s)), recorder := recTook a (samplesIn a b words s) s })
  rw [← audioFrameIn_eq] at hflow
  generalize audioFrameIn a b words s = t at hflow ⊢
  refine ⟨?_, ?_, by rw [hflow]; rfl⟩
  · unfold Flowed at hflow
    rw [hflow]
    rfl
  · have htdm : t.tdm = s.tdm.modify a (tdmTook (samplesIn a b words s)) := by
      rw [hflow]
      rfl
    rw [htdm]
    simp [List.getD_eq_getElem?_getD, ha]

theorem exec_audWordClockFrame (hclock : enginesClocked s = true) (hblk : activeBlk s 0x3201 a 0 = some b)
    (hlost : (s.tdm.getD a {}).lost = false) (hshed : portShed s 14 = false) (hsafe : safeOf s (myUnit s 0x32 a) ≠ 2) :
    exec (.audWordClockFrame a words) s = .next (audioFrameIn a b words s) := by
  have hport : portBlk s a = some b := (if_neg (by rw [hlost]; simpa using hsafe)).trans hblk
  simp [exec, execAudWordClockFrame, hport, hclock, hshed]

end

/-! ## Answers of the media -/

section

variable {d : Nat} {w : NvmeWrite} {i : Instr} {s : State}

/-- A Write fails, by its status or by its timeout: but for a free value of the status, the row is the recorder's answer to it. -/
theorem exec_writeFails (hclock : enginesClocked s = true) (hold : oldestWrite s d = some w)
    (hi : i = .nvmeWriteTimeout d ∨ ∃ st, st ≠ 0 ∧ i = .nvmeWriteComplete d st) :
    ∃ st t, exec i s = .next t ∧ t.recorder = (failWrite d st w s).recorder ∧ t.out = (failWrite d st w s).out := by
  obtain rfl | ⟨st, hst, rfl⟩ := hi
  · refine ⟨draw s 65535, bump (failWrite d (draw s 65535) w s), ?_, rfl, rfl⟩
    simp [exec, execNvmeWriteTimeout, hold, hclock]
  · refine ⟨st, failWrite d st w s, ?_, rfl, rfl⟩
    simp [exec, execNvmeWriteComplete, hold, hclock, hst]

end

/-! ## The obligation -/

/-- Settles O51: a Write that ends or fails, the parts of a close, an access of an SSD, and the word-clock frames. -/
theorem recorderFollowsMedia : Obligations.RecorderFollowsMedia := by
  unfold Obligations.RecorderFollowsMedia
  refine ⟨fun d s w hclock hold => ⟨fun hphase => ?done, fun i hi => ⟨fun hretried => ?first, fun hretried hstate => ?again⟩⟩,
    fun s k hclock hclosing hopen hwrites => ?close,
    fun q ok data h s c hclock hfind hplace hcmd => ⟨fun hok => ?ok, fun hok => ?failed⟩,
    fun a s hclock ha hlen => ⟨fun b words hblk hlost hshed hsafe => ?frame, fun hlost hblk => ?lost, fun hlost => ?restored⟩⟩
  case done =>
    obtain ⟨hframe, hrecords⟩ := writeDone_facts (d := d) (w := w) hphase
    refine ⟨writeDone d w s, ?_, hframe, congrArg Prod.fst hrecords, congrArg (fun v => v.2.1) hrecords,
      congrArg (fun v => v.2.2.1) hrecords, congrArg (fun v => v.2.2.2) hrecords⟩
    simp [exec, execNvmeWriteComplete, hold, hclock]
  case first =>
    obtain ⟨st, t, hexec, hrec, hout⟩ := exec_writeFails hclock hold hi
    rw [failWrite_first hretried] at hrec hout
    exact ⟨t, hexec, hout, hrec⟩
  case again =>
    obtain ⟨st, t, hexec, hrec, -⟩ := exec_writeFails hclock hold hi
    rw [failWrite_again hretried] at hrec
    refine ⟨t, hexec, fun hopen hfirst => ?_, fun hend => ?_⟩
    · rw [hrec, mediaError_closes hstate hopen hfirst]
      refine ⟨rfl, rfl, rfl, fun hfua hflush hoff x hx => ?_⟩
      have hmem := writes_afterError hfua hflush hoff x hx
      rwa [recorder_errorTold] at hmem
    · rw [hrec]
      exact mediaError_idle hstate hend
  case close =>
    refine ⟨closeOn s, exec_chunkClose hclock hclosing, recorded_closeOn, fun hphase => ?_, fun hphase => ?_, fun hphase => ?_,
      fun hphase => ?_⟩
    · exact (closeOn_early hclosing hopen hwrites hphase).2
    · rw [(closeOn_early hclosing hopen hwrites (by omega)).1]
      have hflush := closePart_flush (k := k) hphase
      have hout : (closePart k s).recorder.writes = (ssdsOf s.recorder.stripe).map (chunkFlush s (chunkTotal s.recorder)) := by
        rw [hflush]
        exact (writes_foldl_pushWrite _ _).trans (by rw [hwrites]; rfl)
      rw [closeFor_part hclosing hopen hwrites (by rw [hout]; simp [ssdsOf_ne_nil]), hout, List.map_map]
      rfl
    · rw [(closeOn_early hclosing hopen hwrites (by omega)).1]
      have hheader := closePart_header (k := k) hphase
      have hout : (closePart k s).recorder.writes =
          [chunkWrite s 0 true (chunkHeader s true (chunkTotal s.recorder) (4096 + s.recorder.body.length))] := by
        rw [hheader]
        exact writes_pushWrite.trans (by rw [hwrites]; rfl)
      rw [closeFor_part hclosing hopen hwrites (by rw [hout]; exact List.cons_ne_nil _ _), hout, chunkTotal_eq]
    · obtain ⟨hbytes, hends⟩ := closeOn_last hclosing hopen hwrites hphase
      refine ⟨by rw [hbytes, chunkTotal_eq], fun hstate hcarry hlost => ?_⟩
      have hstop := hends hstate hcarry hlost
      exact ⟨congrArg Prod.fst hstop, congrArg (fun v => v.2.1) hstop, congrArg (fun v => v.2.2) hstop⟩
  case ok =>
    simp [exec, execNvmeHostAccessDone, hfind, hclock, hplace, hcmd, hok, modRec]
  case failed =>
    refine ⟨draw s 65535, ?_⟩
    simp [exec, execNvmeHostAccessDone, hfind, hclock, hplace, hcmd, hok, modRec, bump]
  case frame =>
    obtain ⟨hframe, htdm, hrec⟩ := audioFrameIn_facts (b := b) (words := words) (by omega : a < s.tdm.length)
    exact ⟨_, exec_audWordClockFrame hclock hblk hlost hshed hsafe, hframe, htdm, fun hnone => hrec.trans (if_pos hnone),
      fun hstate hgiven => hrec.trans (if_neg fun h => h.elim hstate hgiven)⟩
  case lost =>
    exact congrArg Host.Outcome.next (if_pos (by rw [hclock, hblk, hlost, decide_eq_true ha]; rfl))
  case restored =>
    exact congrArg Host.Outcome.next (if_pos (by rw [hclock, hlost, decide_eq_true ha]; rfl))

end Sys2Proof.Machine
end

section
/-! Decode sessions: what parsing leaves of a session, and the next picture in output order (09 R355 to R360). -/

namespace Sys2Proof.Machine

open Sys2Proof

section

variable {errs : List DecFault} {o : Nat} {nal sps pps : List Byte} {y z : DecSess}

/-! ## Parsing (09 R357, R358) -/

/-- What a session is and what its ring holds. -/
def decRing (y : DecSess) : Nat × Nat × List Byte × Nat × Nat × Nat × Tbl DecPic := (y.id, y.core, y.blk, y.rd, y.wr, y.count, y.pics)

/-- The ring of a session and its parameter sets. -/
def headOf (y : DecSess) : (Nat × Nat × List Byte × Nat × Nat × Nat × Tbl DecPic) × List (List Byte) := (decRing y, y.sets)

theorem headOf_breakAu : headOf (breakAu y) = headOf y := by
  unfold breakAu
  split <;> rfl

theorem headOf_withErrors {gap : Bool} : headOf (withErrors errs gap o y).1 = headOf y := by
  unfold withErrors
  split
  · extract_lets found l
    by_cases h : l.isEmpty = true
    · rw [if_pos h]
    · rw [if_neg h]
      exact headOf_breakAu
  · rfl

theorem headOf_beginAu {typ tid1 : Nat} {q : Sps} {h : SliceHead} : headOf (beginAu typ tid1 o sps pps q h y) = headOf y := by
  unfold beginAu
  extract_lets irap idr start rasl y0
  split
  · rfl
  · have hflushed : headOf (if start = true then flushAus y0 else y0) = headOf y := by split <;> rfl
    exact hflushed

theorem headOf_takeSlice : headOf (takeSlice errs y o nal).1 = headOf y := by
  unfold takeSlice
  extract_lets typ bad
  split
  · rfl
  · extract_lets y0
    have hy0 : headOf y0 = headOf y := by
      unfold y0
      split <;> rfl
    split
    · rfl
    · split
      · rfl
      · split
        · exact headOf_breakAu.trans hy0
        · extract_lets joins
          split
          · rfl
          · split
            · exact headOf_withErrors
            · split
              · rfl
              · exact headOf_withErrors.trans headOf_beginAu

theorem headOf_takeHash : headOf (takeHash o nal y) = headOf y := by
  unfold takeHash
  split <;> rfl

/-- A parameter set is the only one that joins the sets of a session. -/
theorem takeSet_facts : decRing (takeSet y o nal).1 = decRing y ∧ ∀ n ∈ (takeSet y o nal).1.sets, n = nal ∨ n ∈ y.sets := by
  have hkept {n : List Byte} : n ∈ (y.sets.filter fun n => !(nalType n == nalType nal && setNumber n == setNumber nal)) → n ∈ y.sets :=
    fun h => (List.mem_filter.mp h).1
  unfold takeSet
  dsimp only
  split
  · exact ⟨rfl, fun n hn => .inr (hkept hn)⟩
  · refine ⟨rfl, fun n hn => ?_⟩
    obtain hn | hn := List.mem_append.mp hn
    · exact .inr (hkept hn)
    · exact .inl (List.mem_singleton.mp hn)

/-- From `y` to `z` a session has parsed some NAL units: its ring is as it was, and its sets are of these or of before. -/
def Parsed (l : List (List Byte)) (y z : DecSess) : Prop := decRing z = decRing y ∧ ∀ n ∈ z.sets, n ∈ l ∨ n ∈ y.sets

theorem Parsed.of_head {l : List (List Byte)} (h : headOf z = headOf y) : Parsed l y z :=
  ⟨congrArg Prod.fst h, fun n hn => .inr (by rwa [show z.sets = y.sets from congrArg Prod.snd h] at hn)⟩

theorem parsed_takeNal {a : DecSess × List DecFault} {n : Nat × List Byte} : Parsed [n.2] a.1 (takeNal errs a n).1 := by
  obtain ⟨y, l⟩ := a
  dsimp only [takeNal]
  split
  · exact .of_head rfl
  · split
    · exact .of_head rfl
    · split
      · exact ⟨takeSet_facts.1, fun m hm => (takeSet_facts.2 m hm).imp (fun h => List.mem_singleton.mpr h) id⟩
      · split
        · exact .of_head headOf_takeSlice
        · split
          · exact .of_head rfl
          · split
            · exact .of_head headOf_takeHash
            · split <;> exact .of_head rfl

theorem parsed_foldl : ∀ (l : List (Nat × List Byte)) {a : DecSess × List DecFault},
    Parsed (l.map (·.2)) a.1 (l.foldl (takeNal errs) a).1
  | [], _ => .of_head rfl
  | n :: l, a => by
    obtain ⟨hring, hsets⟩ := parsed_takeNal (errs := errs) (a := a) (n := n)
    obtain ⟨hring', hsets'⟩ := parsed_foldl l (a := takeNal errs a n)
    refine ⟨hring'.trans hring, fun m hm => ?_⟩
    obtain hm | hm := hsets' m hm
    · exact .inl (List.mem_cons_of_mem _ hm)
    · exact (hsets m hm).imp (fun h => List.mem_cons.mpr (.inl (List.mem_singleton.mp h))) id

/-- What a session keeps of itself as submitted data is parsed; DISCONT leaves no set of before. -/
theorem takeSubmitted_facts {flags : Nat} {data : List Byte} : decRing (takeSubmitted errs flags data y).1 = decRing y ∧
    ∀ n ∈ (takeSubmitted errs flags data y).1.sets, n ∈ (nalUnits data).map (·.2) ∨ (bit flags 1 = false ∧ n ∈ y.sets) := by
  unfold takeSubmitted
  extract_lets y0
  obtain ⟨hring, hsets⟩ := parsed_foldl (errs := errs) (nalUnits data) (a := (y0, []))
  have hstart : decRing y0 = decRing y ∧ ∀ n ∈ y0.sets, bit flags 1 = false ∧ n ∈ y.sets := by
    unfold y0
    split
    · exact ⟨rfl, fun n hn => absurd hn List.not_mem_nil⟩
    · next hflag => exact ⟨rfl, fun n hn => ⟨Bool.eq_false_iff.mpr hflag, hn⟩⟩
  generalize (nalUnits data).foldl (takeNal errs) (y0, []) = a at hring hsets ⊢
  obtain ⟨y1, l⟩ := a
  have hend {v : DecSess} (hv : headOf v = headOf y1) : decRing v = decRing y ∧
      ∀ n ∈ v.sets, n ∈ (nalUnits data).map (·.2) ∨ (bit flags 1 = false ∧ n ∈ y.sets) := by
    refine ⟨(congrArg Prod.fst hv).trans (hring.trans hstart.1), fun n hn => ?_⟩
    rw [show v.sets = _ from congrArg Prod.snd hv] at hn
    exact (hsets n hn).imp id (hstart.2 n)
  dsimp only
  by_cases h : bit flags 0 = true
  · rw [if_pos h]
    exact hend rfl
  · rw [if_neg h]
    exact hend rfl

end

/-! ## Pictures (09 R355 to R360) -/

section

variable {id : Nat} {s : State} {x : DecSess} {pic : DecodedPic} {a : DecAu} {q : Sps} {r : Pps}

/-- DEC_PICTURE of a session that may work, where a picture is to come. -/
theorem exec_decPicture (hclock : enginesClocked s = true) (hsess : decSession s id = some x) (hthrottle : throttled s = false)
    (hsafe : safeOf s (myUnit s 0x40 x.core) = 0) (hnext : nextAu x = some (a, q, r)) :
    exec (.decPicture id pic) s = .next (if !decodes x a q pic then s
      else if decOutputs x a pic && (decide (fieldAt x.blk 0x10 2 ≤ (x.wr + 65536 - x.rd) % 65536) ||
          headHolds s x.id (x.wr % fieldAt x.blk 0x10 2)) then s
      else decPicture x a q r pic s) := by
  simp [exec, execDecPicture, hsess, hclock, hthrottle, hsafe, hnext]

end

/-- Settles O54: the branches of the row, by whether the picture may come, goes out and finds a slot. -/
theorem decodedPicturesFlow : Obligations.DecodedPicturesFlow := by
  unfold Obligations.DecodedPicturesFlow
  refine fun id s x pic hclock hsess hthrottle hsafe => ⟨fun hnone => ?none, fun a q r hnext => ?some⟩
  case none =>
    simp [exec, execDecPicture, hsess, hclock, hthrottle, hsafe, hnone]
  case some =>
    have hexec := exec_decPicture (pic := pic) hclock hsess hthrottle hsafe hnext
    refine ⟨fun hdec => ?other, fun hdec hout => ?kept, fun hdec hout hfull => ?full, fun hdec hout hroom hfree => ?shown⟩
    case other =>
      exact hexec.trans (congrArg Host.Outcome.next (if_pos (by rw [hdec]; rfl)))
    case kept =>
      refine hexec.trans (congrArg Host.Outcome.next ((if_neg (by rw [hdec]; decide)).trans ((if_neg (by rw [hout]; simp)).trans ?_)))
      exact if_pos (by rw [hout]; rfl)
    case full =>
      refine hexec.trans (congrArg Host.Outcome.next ((if_neg (by rw [hdec]; decide)).trans (if_pos ?_)))
      rw [hout, Bool.true_and, Bool.or_eq_true, decide_eq_true_eq]
      exact hfull
    case shown =>
      refine hexec.trans (congrArg Host.Outcome.next ((if_neg (by rw [hdec]; decide)).trans ((if_neg ?_).trans ?_)))
      · rw [hout, hfree, Bool.or_false, Bool.true_and, decide_eq_true_eq]
        exact Nat.not_le.mpr hroom
      · exact if_neg (by rw [hout]; decide)

end Sys2Proof.Machine
end

section
/-! Coding sessions open, change their rate and close (09 R329, R334, R341, R354 to R357). -/

namespace Sys2Proof.Machine

open Sys2Proof

section

variable {id : Nat} {g : EncSess → EncSess} {c : Cmd} {x : EncSess} {r : CmdRef} {s t : State}

/-! ## A session by its number -/

/-- The encode session of a number. -/
def encSess (s : State) (id : Nat) : Option EncSess := s.cod.enc.find? (·.id == id)

theorem encSess_modEnc (hg : ∀ y, (g y).id = y.id) : encSess (modEnc id g s) id = (encSess s id).map g := by
  have hkey : ((fun y : EncSess => y.id == id) ∘ fun y => if y.id = id then g y else y) = fun y => y.id == id := by
    funext y
    by_cases h : y.id = id
    · simp [h, hg]
    · simp [h]
  unfold encSess modEnc
  rw [List.find?_map, hkey]
  cases hfind : s.cod.enc.find? (·.id == id) with
  | none => rfl
  | some y =>
    have hid : y.id = id := by simpa using List.find?_some hfind
    simp [hid]

theorem filter_modEnc (hg : ∀ y, (g y).id = y.id) :
    (modEnc id g s).cod.enc.filter (·.id != id) = s.cod.enc.filter (·.id != id) := by
  have hkey : ((fun y : EncSess => y.id != id) ∘ fun y => if y.id = id then g y else y) = fun y => y.id != id := by
    funext y
    by_cases h : y.id = id
    · simp [h, hg]
    · simp [h]
  unfold modEnc
  rw [List.filter_map, hkey]
  refine (List.map_congr_left fun y hy => ?_).trans (List.map_id _)
  have hne : y.id ≠ id := by simpa using (List.mem_filter.mp hy).2
  exact if_neg hne

/-! ## The command that waits -/

theorem mem_of_findCmd (h : findCmd s r = some c) : s.cmds.find? (fun y => y.fn == c.fn && y.seq == c.seq) = some c := by
  have hfirst {p : Cmd → Bool} (hp : s.cmds.find? p = some c) (hweak : ∀ y, y.fn = c.fn → y.seq = c.seq → p y = true) :
      s.cmds.find? (fun y => y.fn == c.fn && y.seq == c.seq) = some c := by
    obtain ⟨-, l, l', hl, hbefore⟩ := List.find?_eq_some_iff_append.mp hp
    refine List.find?_eq_some_iff_append.mpr ⟨by simp, l, l', hl, fun y hy => ?_⟩
    have hno := hbefore y hy
    by_contra hyes
    simp only [Bool.not_eq_true', Bool.not_eq_false, Bool.and_eq_true, beq_iff_eq] at hyes
    simp [hweak y hyes.1 hyes.2] at hno
  unfold findCmd at h
  split at h
  next d hd =>
    cases h
    have hc := List.find?_some hd
    simp only [Bool.and_eq_true, beq_iff_eq] at hc
    exact hfirst hd fun y hfn hseq => by simp [hfn, hseq, hc.1, hc.2]
  next =>
    have hc := List.find?_some h
    simp only [Bool.and_eq_true, beq_iff_eq] at hc
    exact hfirst h fun y hfn hseq => by simp [hfn, hseq, hc.1, hc.2]

/-- A command that waits is found by its number. -/
theorem findCmd_setWaiting (h : findCmd s r = some c) : findCmd (setWaiting c s) ⟨c.fn, c.seq⟩ = some { c with waiting := true } := by
  have hkey : ((fun y : Cmd => y.fn == c.fn && y.seq == c.seq) ∘ fun y : Cmd => if y.same c then { y with waiting := true } else y) =
      fun y => y.fn == c.fn && y.seq == c.seq := by
    funext y
    by_cases hy : y.same c = true
    · simp [hy]
    · simp [hy]
  have hfind : (setWaiting c s).cmds.find? (fun y => y.fn == c.fn && y.seq == c.seq) = some { c with waiting := true } := by
    unfold setWaiting
    rw [List.find?_map, hkey, mem_of_findCmd h]
    simp [Cmd.same]
  unfold findCmd
  rw [hfind]

theorem findCmd_of_startable {op : Nat} (h : startable s r op = some c) : findCmd s r = some c := by
  unfold startable at h
  split at h
  next => exact absurd h (by simp)
  next d hd =>
    split at h
    · cases h
      exact hd
    · exact absurd h (by simp)

/-! ## Closing (09 R354) -/

/-- The session that a close leaves to code and send what it still may. -/
def closingSess (c : Cmd) (source : Nat) (y : EncSess) : EncSess := { stopSession source y with closing := some ⟨c.fn, c.seq⟩ }

/-- The source of a session's frames. -/
def sessSource (s : State) (x : EncSess) : Nat := ((encIn s.cfg.active x.core).map (·.source)).getD 0

/-- The state in which a session has been told to close. -/
def toldToClose (c : Cmd) (x : EncSess) (s : State) : State := modEnc x.id (closingSess c (sessSource s x)) (setWaiting c s)

theorem effectEncClose_eq (h : encAt s c.target = some x) : effectEncClose c s = tryClose x.id (toldToClose c x s) := by
  unfold effectEncClose
  rw [h]
  rfl

theorem encSess_toldToClose (h : encSess s x.id = some x) :
    encSess (toldToClose c x s) x.id = some (closingSess c (sessSource s x) x) := by
  rw [toldToClose, encSess_modEnc (g := closingSess c (sessSource s x)) fun _ => rfl, show encSess (setWaiting c s) x.id = some x from h]
  rfl

/-- A session with nothing left is gone, and its close completes. -/
theorem tryClose_idle (hsess : encSess s x.id = some x) (hcmd : findCmd s r = some c) (hpics : x.pics = []) (hpackets : x.packets = [])
    (hdue : x.due = []) : tryClose x.id (toldToClose c x s) = complete { c with waiting := true } (okReply (x.pictures % 2 ^ 32) 0)
      (dropSession (closingSess c (sessSource s x) x) (toldToClose c x s)) := by
  have hfind : (toldToClose c x s).cod.enc.find? (·.id == x.id) = some (closingSess c (sessSource s x) x) := encSess_toldToClose hsess
  have hnone : ((closingSess c (sessSource s x) x).pics.isEmpty && (closingSess c (sessSource s x) x).packets.isEmpty &&
      (closingSess c (sessSource s x) x).due.isEmpty) = true := by
    simp [closingSess, stopSession, hpics, hpackets, hdue]
  have hfound : findCmd (dropSession (closingSess c (sessSource s x) x) (toldToClose c x s)) ⟨c.fn, c.seq⟩ =
      some { c with waiting := true } := findCmd_setWaiting hcmd
  unfold tryClose
  rw [hfind]
  dsimp only [closingSess] at hnone hfound ⊢
  rw [if_pos hnone, hfound]
  rfl

/-- One that still has output to send waits. -/
theorem tryClose_busy (hsess : encSess t id = some x) (h : x.closing = none ∨ x.packets ≠ []) : tryClose id t = t := by
  have hfind : t.cod.enc.find? (·.id == id) = some x := hsess
  unfold tryClose
  rw [hfind]
  obtain hnone | hout := h
  · simp [hnone]
  · dsimp only
    split
    · exact if_neg (by simp [hout])
    · rfl

theorem enc_complete {rep : Reply} : (complete c rep s).cod = s.cod := by rw [complete_eq]

/-- A staged block whose bulk is empty. -/
theorem valOf_zero {lay : List Fld} : valOf lay c 0 = { blk := c.region.take (blockLen lay) } := rfl

end

/-- Settles O52: what opening stages and adds, what a close does to a session idle or not, and what parsing keeps. -/
theorem codingSessionsOpenAndClose : Obligations.CodingSessionsOpenAndClose := by
  unfold Obligations.CodingSessionsOpenAndClose
  refine fun r s c => ⟨fun hstart hpass => ?opened, fun hstart hpass => ?rated, fun x hstart hpass hat hsess => ⟨?idle, ?busy⟩,
    fun hstart hpass => ?decOpened, fun errs x hstart hpass hat => ⟨?parsed, ?ring, ?sets⟩, fun hstart hpass => ?decClosed⟩
  case opened =>
    refine ⟨stagePut c.fn (cfgKey 0x4001 c.target 0) (valOf layEncOpen c 0) { s with cod := { s.cod with
      nextId := s.cod.nextId + 1, enc := s.cod.enc ++ [{ id := sessionId s, core := c.target, cores := fieldAt c.region 0 1 }] } },
      congrArg Host.Outcome.next (runCmd_effect hstart hpass), rfl, ?_⟩
    rw [stagePut_staged, valOf_zero]
  case rated =>
    exact ⟨stagePut c.fn (cfgKey 0x4004 c.target 0) { blk := resolvedRate s c } s,
      congrArg Host.Outcome.next (runCmd_effect hstart hpass), rfl, stagePut_staged⟩
  case idle =>
    intro hpics hpackets hdue hlead hdet hcopy hfn
    have hclose := tryClose_idle hsess (findCmd_of_startable hstart) hpics hpackets hdue
    refine ⟨_, congrArg Host.Outcome.next ((runCmd_effect hstart hpass).trans ((effectEncClose_eq hat).trans hclose)), ?_, ?_⟩
    · rw [enc_complete]
      exact filter_modEnc fun _ => rfl
    · exact ⟨_, complete_entry (s := dropSession (closingSess c (sessSource s x) x) (toldToClose c x s))
        (c := { c with waiting := true }) hlead hdet hcopy hfn, rfl, rfl, rfl⟩
  case busy =>
    intro hout
    have hclosing := encSess_toldToClose (c := c) hsess
    refine ⟨_, closingSess c (sessSource s x) x, congrArg Host.Outcome.next ((runCmd_effect hstart hpass).trans
      ((effectEncClose_eq hat).trans (tryClose_busy hclosing (.inr hout)))), rfl, rfl, hclosing, rfl, rfl, rfl⟩
  case decOpened =>
    exact ⟨_, congrArg Host.Outcome.next (runCmd_effect hstart hpass), rfl⟩
  case parsed =>
    refine congrArg Host.Outcome.next ((runCmd_effect hstart hpass).trans ?_)
    simp only [effectDecSubmit, hat]
    rfl
  case ring =>
    have hring := (takeSubmitted_facts (errs := errs) (flags := fieldAt c.region 2 1)
      (data := (c.region.drop 16).take (fieldAt c.region 4 4)) (y := x)).1
    simpa [decRing] using hring
  case sets =>
    exact takeSubmitted_facts.2
  case decClosed =>
    exact congrArg Host.Outcome.next (runCmd_effect hstart hpass)

end Sys2Proof.Machine
end

section
/-! A session takes the next frame: its picture starts, or is dropped (06 R219; 09 R337 to R343, R351). -/

namespace Sys2Proof.Machine

open Sys2Proof

section

variable {id n k : Nat} {g : EncSess → EncSess} {x y : EncSess} {now e : EncCfg} {r : RateCfg} {fr : EncFrame} {rest : List EncFrame}
  {s t u : State}

/-! ## What the cores change -/

/-- From `s` to `t` the coding cores alone have changed, but for what they report. -/
def CodTold (s t : State) : Prop := t = { reported s t with cod := t.cod }

theorem CodTold.refl (s : State) : CodTold s s := rfl

theorem CodTold.trans (hst : CodTold s t) (htu : CodTold t u) : CodTold s u := by
  unfold CodTold at *
  rw [htu, hst]
  rfl

theorem CodTold.ite {p : Prop} [Decidable p] (ht : CodTold s t) (hu : CodTold s u) : CodTold s (if p then t else u) := by
  split
  · exact ht
  · exact hu

theorem Reported.codTold (h : Reported s t) : CodTold s t := by
  unfold Reported at h
  unfold CodTold
  rw [h]
  rfl

theorem codTold_modEnc : CodTold s (modEnc n g s) := rfl

theorem encSess_of_cod (h : t.cod = s.cod) : encSess t id = encSess s id := by rw [encSess, encSess, h]

theorem Reported.encSess (h : Reported s t) : encSess t id = Machine.encSess s id := encSess_of_cod (by rw [h]; rfl)

theorem encSess_modEnc_of (h : encSess s id = some x) (hg : ∀ y, (g y).id = y.id) : encSess (modEnc id g s) id = some (g x) := by
  rw [encSess_modEnc hg, h]
  rfl

theorem id_of_encSess (h : encSess s id = some x) : x.id = id := by simpa using List.find?_some h

/-- A session with its configuration in use. -/
theorem sessionNow_iff : sessionNow s id = some (x, now) ↔ encSess s id = some x ∧ encIn s.cfg.active x.core = some now := by
  unfold sessionNow encSess
  cases s.cod.enc.find? (·.id == id) with
  | none => simp
  | some z =>
    simp only [Option.map_eq_some_iff, Prod.mk.injEq, Option.some.injEq]
    constructor
    · rintro ⟨v, hv, rfl, rfl⟩
      exact ⟨rfl, hv⟩
    · rintro ⟨rfl, hv⟩
      exact ⟨now, hv, rfl, rfl⟩

/-! ## A frame that is dropped (09 R351) -/

/-- The session once it has taken a frame that waited. -/
def tookFrame (id : Nat) (rest : List EncFrame) (s : State) : State := modEnc id (fun y => { y with waiting := rest }) s

/-- The frame that a session takes next is dropped, or its picture starts. -/
theorem exec_encPictureStart (hsess : sessionNow s id = some (x, now)) (hclock : enginesClocked s = true)
    (hwaiting : x.waiting = fr :: rest) (he : e = (encIn fr.cfg x.core).getD now) (hr : r = rateIn fr.cfg x.core e)
    (hfree : coresFree x = true) (hrow : firstRowIn s e fr = true) (hstop : s.thm.stop = 0) :
    exec (.encPictureStart id) s = .next (if 8 * holdBytes e r.maxKbps < heldBits x + capOf x r e ∨
        (e.source == 0 && portShed s 2) = true then stallPicture x r e fr.serial (tookFrame x.id rest s)
      else beginPicture x r e (((tapIn fr.cfg e.stream e.tap).map (·.div)).getD 1) fr (tookFrame x.id rest s)) := by
  subst he hr
  simp only [exec, execEncPictureStart, hsess, hwaiting, hclock, hfree, hrow, hstop, Bool.and_true, Bool.not_true, if_false,
    bne_self_eq_false, Bool.false_and, Bool.false_eq_true]
  rfl

/-- The session of a frame that is dropped: an empty period, and a gap before the next. -/
def stalledSess (r : RateCfg) (e : EncCfg) (y : EncSess) : EncSess := idlePeriod r e { y with gap := true }

theorem serials_idle {l : List EncPic} : (l.modify k fun q => { q with idle := q.idle + 1 }).map (·.serial) = l.map (·.serial) := by
  refine List.ext_getElem? fun i => ?_
  simp only [List.getElem?_map, List.getElem?_modify]
  cases l[i]? with
  | none => rfl
  | some q => by_cases h : k = i <;> simp [h]

/-! ## A picture that starts -/

/-- The target of a picture and whether the array's statistics are late. -/
def aimOf (x : EncSess) (r : RateCfg) (e : EncCfg) (div serial : Nat) (s : State) : Nat × Nat × Bool :=
  let own := if e.rcMode = 0 then 0 else Config.rateTarget (r.kbps * e.period / 1000000) (fullnessOf x r) x.qpModel x.recent
  (own, if e.rcMode = 3 then arrayTarget s x e div serial own else (own, false))

/-- Whether a picture refers to another than the one before it. -/
def substOf (x : EncSess) : Bool := !nextIrap x && match x.lastCoded with
  | some l => !x.refs.contains l
  | none => false

/-- Whether a picture refreshes a band. -/
def bandNext (x : EncSess) (e : EncCfg) : Bool := e.gradual && !nextIrap x

/-- The picture that starts of a frame. -/
def newPic (x : EncSess) (r : RateCfg) (e : EncCfg) (div : Nat) (fr : EncFrame) (s : State) : EncPic :=
  { serial := fr.serial, time := fr.time, epoch := fr.epoch, ckpt := checkpoint x r, irap := nextIrap x, subst := substOf x
    late := (aimOf x r e div fr.serial s).2.2, poc := pocOf x div fr.serial (nextIrap x)
    target := (aimOf x r e div fr.serial s).2.1, total := (aimOf x r e div fr.serial s).1, cap := capOf x r e, cfg := fr.cfg
    gap := x.gap, ticks := x.lastCoded.map fun l => x.poc + framesApart div fr.serial l
    cycle := if nextIrap x || (bandNext x e && x.refresh == 0) then x.cycle + 1 else x.cycle
    refs := if nextIrap x then [] else x.refs.take (if bandNext x e && x.refresh == 0 then r.refs else x.numRefs)
    band := if bandNext x e then some (bandOf e x.refresh) else none, tiles := tileColumns s fr.cfg x e
    verdict := if e.source = 1 then some 0 else none, rows := fr.rows, input := fr.input }

/-- The session with a picture more in its cores. -/
def beganSess (x : EncSess) (r : RateCfg) (e : EncCfg) (p : EncPic) (y : EncSess) : EncSess :=
  startedPicture r e p { y with pics := y.pics ++ [p], roi := (blkIn p.cfg 0x4003 x.core 0).getD [], gap := false }

theorem beginPicture_eq {div : Nat} : beginPicture x r e div fr s =
    let p := newPic x r e div fr s
    let s1 := modEnc x.id (beganSess x r e p) s
    let s2 := if p.subst then raise (197 + 12 * x.core) s1 else s1
    if e.rcMode = 3 then tellLate x div fr.serial p.late s2 else s2 := rfl

/-- That statistics are late changes no more of a session than its mark of it. -/
theorem tellLate_facts {div : Nat} {late : Bool} (h : encSess s x.id = some y) : CodTold s (tellLate x div k late s) ∧
    ∃ v, encSess (tellLate x div k late s) x.id = some { y with lateTold := v } := by
  have hmark := encSess_modEnc_of (g := fun y => { y with lateTold := late }) h fun _ => rfl
  unfold tellLate
  dsimp only
  split
  · exact ⟨.trans codTold_modEnc reported_tell.codTold, late, reported_tell.encSess.trans hmark⟩
  · exact ⟨codTold_modEnc, late, hmark⟩

/-- A picture that starts joins its session's pictures. -/
theorem beginPicture_facts {div : Nat} (h : encSess s x.id = some y) : CodTold s (beginPicture x r e div fr s) ∧
    ∃ v, encSess (beginPicture x r e div fr s) x.id = some { beganSess x r e (newPic x r e div fr s) y with lateTold := v } := by
  rw [beginPicture_eq]
  extract_lets p s1 s2
  have hs1 := encSess_modEnc_of (g := beganSess x r e p) h fun _ => rfl
  have hs2 : CodTold s s2 ∧ encSess s2 x.id = some (beganSess x r e p y) := by
    unfold s2
    split
    · exact ⟨.trans codTold_modEnc reported_raise.codTold, reported_raise.encSess.trans hs1⟩
    · exact ⟨codTold_modEnc, hs1⟩
  split
  · obtain ⟨hframe, v, hv⟩ := tellLate_facts (div := div) (k := fr.serial) (late := p.late) hs2.2
    exact ⟨hs2.1.trans hframe, v, hv⟩
  · exact ⟨hs2.1, (beganSess x r e p y).lateTold, hs2.2⟩

theorem pocOf_irap {div : Nat} : pocOf x div n true = 0 := by
  unfold pocOf
  split <;> rfl

end

/-- The clause of ENC_PICTURE_START in O53. -/
theorem encPictureStart_rule {id : Nat} {s : State} {x : EncSess} {now : EncCfg} {fr : EncFrame} {rest : List EncFrame}
    (hsess : sessionNow s id = some (x, now)) (hclock : enginesClocked s = true) (hwaiting : x.waiting = fr :: rest) :
    let e := (encIn fr.cfg x.core).getD now
    let r := rateIn fr.cfg x.core e
    (coresFree x = false ∨ firstRowIn s e fr = false → exec (.encPictureStart id) s = .next s) ∧
    (coresFree x = true → firstRowIn s e fr = true → s.thm.stop = 0 →
      (8 * holdBytes e r.maxKbps < heldBits x + capOf x r e ∨ (e.source = 0 ∧ portShed s 2 = true) →
        ∃ u y, exec (.encPictureStart id) s =
          .next (raise (195 + 12 * x.core) (unitEvent 0x4005 0x40 x.core (some fr.serial) fr.serial u)) ∧
          u = { s with cod := { s.cod with enc := u.cod.enc } } ∧ encSess u id = some y ∧ y.waiting = rest ∧ y.gap = true ∧
          y.fullness = some (elapse x r e 0) ∧ y.recent = 0 :: x.recent.take 255 ∧
          y.pics.map (·.serial) = x.pics.map (·.serial)) ∧
      (heldBits x + capOf x r e ≤ 8 * holdBytes e r.maxKbps → (e.source = 0 → portShed s 2 = false) →
        ∃ t v, exec (.encPictureStart id) s = .next t ∧ CodTold s t ∧
          encSess t id = some { beganSess x r e (newPic x r e (((tapIn fr.cfg e.stream e.tap).map (·.div)).getD 1) fr
            (tookFrame id rest s)) { x with waiting := rest } with lateTold := v })) := by
  intro e r
  obtain ⟨hx, -⟩ := sessionNow_iff.mp hsess
  obtain rfl := id_of_encSess hx
  have htook : encSess (tookFrame x.id rest s) x.id = some { x with waiting := rest } := encSess_modEnc_of hx fun _ => rfl
  refine ⟨fun hno => ?wait, fun hfree hrow hstop => ⟨fun hdrop => ?drop, fun hfits hunshed => ?start⟩⟩
  case wait =>
    have hblocked : (!(enginesClocked s && coresFree x && firstRowIn s e fr)) = true := by
      rcases hno with h | h <;> simp [h]
    simp only [exec, execEncPictureStart, hsess, hwaiting]
    exact congrArg Host.Outcome.next (if_pos hblocked)
  case drop =>
    have hexec := (exec_encPictureStart hsess hclock hwaiting rfl rfl hfree hrow hstop).trans
      (congrArg Host.Outcome.next (if_pos (by simpa using hdrop)))
    refine ⟨modEnc x.id (stalledSess r e) (tookFrame x.id rest s), stalledSess r e { x with waiting := rest }, hexec, rfl,
      encSess_modEnc_of htook fun _ => rfl, rfl, rfl, rfl, rfl, serials_idle⟩
  case start =>
    have hexec := (exec_encPictureStart hsess hclock hwaiting rfl rfl hfree hrow hstop).trans
      (congrArg Host.Outcome.next (if_neg (by simpa using And.intro hfits hunshed)))
    obtain ⟨hframe, v, hv⟩ := beginPicture_facts (r := r) (e := e) (fr := fr)
      (div := ((tapIn fr.cfg e.stream e.tap).map (·.div)).getD 1) htook
    exact ⟨_, v, hexec, .trans codTold_modEnc hframe, hv⟩

end Sys2Proof.Machine
end

section
/-! Pictures are coded, released, undone or lack slices (06 R219 to R222; 09 R343 to R353; 14 R493). -/

namespace Sys2Proof.Machine

open Sys2Proof

section

variable {β : Type} {κ : EncSess → β} {id n k q : Nat} {g : EncSess → EncSess} {x y : EncSess} {now e : EncCfg} {r : RateCfg}
  {p : EncPic} {pic c : CodedPic} {l : List (List Byte)} {s t u : State}

/-! ## What a picture's way out changes -/

/-- From `s` to `t` pictures may have gone out: the coding cores, the queues, HBM, and what is reported. -/
def Pictured (s t : State) : Prop := t = { reported s t with cod := t.cod, queues := t.queues, hbm := t.hbm }

theorem Pictured.refl (s : State) : Pictured s s := rfl

theorem Pictured.trans (hst : Pictured s t) (htu : Pictured t u) : Pictured s u := by
  unfold Pictured at *
  rw [htu, hst]
  rfl

theorem Pictured.ite {b : Prop} [Decidable b] (ht : Pictured s t) (hu : Pictured s u) : Pictured s (if b then t else u) := by
  split
  · exact ht
  · exact hu

theorem Stored.pictured (h : Stored s t) : Pictured s t := by
  unfold Stored at h
  unfold Pictured
  rw [h]
  rfl

theorem CodTold.pictured (h : CodTold s t) : Pictured s t := by
  unfold CodTold at h
  unfold Pictured
  rw [h]
  rfl

theorem Reported.pictured (h : Reported s t) : Pictured s t := h.codTold.pictured

theorem Stored.cod (h : Stored s t) : t.cod = s.cod := by rw [h]; rfl

theorem Pictured.cfg (h : Pictured s t) : t.cfg = s.cfg := by rw [h]; rfl

/-- A part of a session is the same in two states. -/
def SessKept (κ : EncSess → β) (id : Nat) (s t : State) : Prop := (encSess t id).map κ = (encSess s id).map κ

theorem SessKept.refl (s : State) : SessKept κ id s s := rfl

theorem SessKept.trans (hst : SessKept κ id s t) (htu : SessKept κ id t u) : SessKept κ id s u := Eq.trans htu hst

theorem SessKept.of_cod (h : t.cod = s.cod) : SessKept κ id s t := congrArg (Option.map κ) (encSess_of_cod h)

theorem Reported.sessKept (h : Reported s t) : SessKept κ id s t := .of_cod (by rw [h]; rfl)

theorem sessKept_modEnc (hg : ∀ y, (g y).id = y.id) (hκ : ∀ y, κ (g y) = κ y) : SessKept κ id s (modEnc id g s) := by
  unfold SessKept
  rw [encSess_modEnc hg, Option.map_map]
  exact congrArg (fun f => Option.map f _) (funext hκ)

theorem SessKept.exists (h : SessKept κ id s t) (hx : encSess s id = some x) : ∃ y, encSess t id = some y ∧ κ y = κ x := by
  unfold SessKept at h
  rw [hx] at h
  simpa using h

/-! ## Output (09 R345, R351) -/

/-- What the way out leaves of a session: all but its output and its statistics' indexes. -/
def pictureState (y : EncSess) : Nat × Option CmdRef × List EncPic × Nat × List RefPic := (y.core, y.closing, y.pics, y.pictures, y.dpb)

theorem pictured_queueWrite {b : List Byte} : Pictured s (queueWrite q b s) := by
  obtain ⟨v, hv, h⟩ := reported_queueWrite (n := q) (b := b) (s := s)
  refine .trans ?_ h.pictured
  rw [hv]
  rfl

theorem cod_queueWrite {b : List Byte} : (queueWrite q b s).cod = s.cod := by
  obtain ⟨v, hv, h⟩ := reported_queueWrite (n := q) (b := b) (s := s)
  rw [h, hv]
  rfl

theorem pump_facts : ∀ (n : Nat) {s : State}, Pictured s (pump id q n s) ∧ SessKept pictureState id s (pump id q n s)
  | 0, s => ⟨.refl s, .refl s⟩
  | n + 1, s => by
    unfold pump
    split
    next b l hfind =>
      split
      · have hone : Pictured s (queueWrite q b (modEnc id (fun y => { y with packets := l }) s)) :=
          codTold_modEnc.pictured.trans pictured_queueWrite
        have hkept : SessKept pictureState id s (queueWrite q b (modEnc id (fun y => { y with packets := l }) s)) :=
          .trans (sessKept_modEnc (g := fun y => { y with packets := l }) (fun _ => rfl) fun _ => rfl) (.of_cod cod_queueWrite)
        exact ⟨hone.trans (pump_facts n).1, hkept.trans (pump_facts n).2⟩
      · exact ⟨.refl s, .refl s⟩
    · exact ⟨.refl s, .refl s⟩

theorem exportStats_facts : Pictured s (exportStats x e p c s) ∧ SessKept pictureState x.id s (exportStats x e p c s) := by
  unfold exportStats
  split
  · exact ⟨.refl s, .refl s⟩
  · extract_lets slots shed
    split
    · exact ⟨.refl s, .refl s⟩
    · split
      · exact ⟨rfl, sessKept_modEnc (g := fun y => { y with statDropped := y.statDropped + 1 }) (fun _ => rfl) fun _ => rfl⟩
      · have hstored {a : Nat} {d : List Byte} : Stored s (hbmWrite a d s) := stored_hbmWrite
        have hindex {v : State} : SessKept pictureState x.id v (modEnc x.id (fun y => { y with statWr := (y.statWr + 1) % 65536 }) v) :=
          sessKept_modEnc (g := fun y => { y with statWr := (y.statWr + 1) % 65536 }) (fun _ => rfl) fun _ => rfl
        refine ⟨.trans (.trans hstored.pictured codTold_modEnc.pictured) reported_tell.pictured,
          .trans (.trans ?_ hindex) reported_tell.sessKept⟩
        exact .of_cod hstored.cod

/-! ## A COMMITTED picture goes out (06 R220, R221) -/

/-- The session without a picture that goes out; its reconstruction may be referred to. -/
def releasedSess (p : EncPic) (y : EncSess) : EncSess :=
  { y with pics := y.pics.filter (·.serial != p.serial), dpb := keepReference p (refsInUse y) y.dpb }

/-- The session with the packets of a picture more. -/
def sentSess (l : List (List Byte)) (y : EncSess) : EncSess := { y with packets := y.packets ++ l, pictures := y.pictures + 1 }

theorem releasePicture_alone (hmode : e.rcMode ≠ 3) : releasePicture x e p c s =
    sendPicture x e p c (exportStats x e p c (modEnc x.id (releasedSess p) s)) := if_neg fun h => hmode h.1

theorem pumpSession_facts (hy : encSess s x.id = some y) (hclosing : y.closing = none) : Pictured s (pumpSession x q s) ∧
    SessKept pictureState x.id s (pumpSession x q s) := by
  obtain ⟨hframe, hkept⟩ := pump_facts (id := x.id) (q := q) (s := s)
    (((s.cod.enc.find? (·.id == x.id)).map fun y => y.packets.length).getD 0)
  obtain ⟨z, hz, hsame⟩ := hkept.exists hy
  have hdone : z.closing = none := (congrArg (fun v => v.2.1) hsame).trans hclosing
  unfold pumpSession
  rw [tryClose_busy hz (.inl hdone)]
  exact ⟨hframe, hkept⟩

/-- What the release of a picture leaves of its session, which is not closing. -/
theorem releasePicture_facts (hmode : e.rcMode ≠ 3) (hy : encSess s x.id = some y) (hclosing : y.closing = none) :
    Pictured s (releasePicture x e p c s) ∧ ∃ z, encSess (releasePicture x e p c s) x.id = some z ∧
      pictureState z = (y.core, none, y.pics.filter (·.serial != p.serial), y.pictures + 1, keepReference p (refsInUse y) y.dpb) := by
  rw [releasePicture_alone hmode]
  have hreleased := encSess_modEnc_of (g := releasedSess p) hy fun _ => rfl
  obtain ⟨hframe, hkept⟩ := exportStats_facts (x := x) (e := e) (p := p) (c := c) (s := modEnc x.id (releasedSess p) s)
  obtain ⟨v, hv, hsame⟩ := hkept.exists hreleased
  have hsent := encSess_modEnc_of (g := sentSess
    (codedPackets (exportStats x e p c (modEnc x.id (releasedSess p) s)) x e p c)) hv fun _ => rfl
  have hopen : v.closing = none := (congrArg (fun w => w.2.1) hsame).trans hclosing
  obtain ⟨hout, hkeep⟩ := pumpSession_facts (q := e.queue) hsent hopen
  obtain ⟨z, hz, hfinal⟩ := hkeep.exists hsent
  refine ⟨.trans (.trans (.trans codTold_modEnc.pictured hframe) codTold_modEnc.pictured) hout, z, hz, hfinal.trans ?_⟩
  simp only [pictureState, Prod.mk.injEq] at hsame
  obtain ⟨hcore, -, hpics, hpictures, hdpb⟩ := hsame
  simp only [pictureState, sentSess, hcore, hopen, hpics, hpictures, hdpb]
  rfl

/-! ## The decoded picture buffer (06 R221) -/

/-- The reconstruction of a COMMITTED picture is the newest that may be referred to. -/
theorem keepReference_cons {f : RefPic} {d : List RefPic} {used : List Nat} (hf : f.serial = p.serial) :
    ∃ d', keepReference p used (f :: d) = { f with good := true } :: d' := by
  unfold keepReference
  extract_lets l1 l2 keep
  have hl1 : l1 = { f with good := true } :: d.map fun q => if q.serial = p.serial then { q with good := true } else q := by
    simp [l1, hf]
  have hl2 : ∃ d2, l2 = { f with good := true } :: d2 := by
    unfold l2
    rw [hl1]
    split
    · exact ⟨_, List.filter_cons_of_pos (by simp [hf])⟩
    · exact ⟨_, rfl⟩
  obtain ⟨d2, hd2⟩ := hl2
  have hkeep : f.serial ∈ keep := by
    unfold keep
    rw [hd2]
    simp
  rw [hd2]
  exact ⟨_, List.filter_cons_of_pos (by simp [hkeep])⟩

/-- With an IRAP picture that no picture in the cores precedes, it alone may be referred to. -/
theorem keepReference_irap {d : List RefPic} (hirap : p.irap = true) : ∀ f ∈ keepReference p [] d, f.good = true → f.serial = p.serial := by
  unfold keepReference
  extract_lets l1 l2 keep
  intro f hf hgood
  have hmem : f ∈ l1.filter fun q => !q.good || q.serial == p.serial || ([] : List Nat).contains q.serial := by
    have hl2 := (List.mem_filter.mp hf).1
    unfold l2 at hl2
    rwa [if_pos hirap] at hl2
  simpa [hgood] using (List.mem_filter.mp hmem).2

end

end Sys2Proof.Machine
end

section
/-! Coded pictures: what ends one, what sends its output, and what undoes it (06 R220 to R223; 09 R343 to R353; 14 R493). -/

namespace Sys2Proof.Machine

open Sys2Proof

section

variable {id n k : Nat} {x y : EncSess} {now e : EncCfg} {r : RateCfg} {p : EncPic} {pic : CodedPic} {l : List (List Byte)} {v : Nat}
  {s t u : State}

/-! ## A picture is coded (06 R220, 09 R343) -/

/-- A picture with what the cores have made of it. -/
def codedAs (pic : CodedPic) (fill : Nat) (p : EncPic) : EncPic := { p with coded := some pic, filler := fill }

/-- The session that counts a coded picture and keeps its reconstruction. -/
def codedSess (r : RateCfg) (e : EncCfg) (fill : Nat) (p : EncPic) (pic : CodedPic) (y : EncSess) : EncSess :=
  countPicture r e (picBits pic) fill (qpMean pic)
    { y with
      pics := y.pics.map fun q => if q.serial = p.serial then codedAs pic fill q else q
      dpb := refPic e p (pic.recon.headD []) :: y.dpb, sets := if pic.paramSets.isEmpty then y.sets else pic.paramSets }

/-- The state in which a picture has been coded. -/
def codedState (x : EncSess) (now : EncCfg) (p : EncPic) (pic : CodedPic) (s : State) : State :=
  modEnc x.id (codedSess (p.rate x now) (p.enc x now) (fillerBytes x (p.rate x now) (p.enc x now) (picBits pic)) p pic) s

/-- It is told. -/
def codedTold (x : EncSess) (p : EncPic) (pic : CodedPic) (t : State) : State :=
  raise (192 + 12 * x.core) (unitEvent 0x4001 0x40 x.core (some p.serial)
    (p.serial + 2 ^ 16 * b2n p.irap + 2 ^ 24 * unsigned 8 (qpMean pic) + 2 ^ 32 * (picBits pic / 8 % 2 ^ 32)) t)

/-- So is a cap that it has met (09 R343). -/
def cappedTold (x : EncSess) (p : EncPic) (pic : CodedPic) (t : State) : State :=
  match pic.cappedAt with
  | some n => raise (196 + 12 * x.core) (unitEvent 0x4004 0x40 x.core (some p.serial) (p.serial + 2 ^ 16 * (n % 65536)) t)
  | none => t

theorem reported_cappedTold : Reported s (cappedTold x p pic s) := by
  unfold cappedTold
  split
  · exact reported_tell
  · exact .refl s

theorem exec_encPictureDone (hsess : sessionNow s id = some (x, now)) (hpics : x.pics = [p]) (hcoded : p.coded = none) :
    exec (.encPictureDone id pic) s = .next (if !enginesClocked s || p.bad || !inputWhole (p.enc x now) p ||
        decide (p.cap < picBits pic) || !pictureOk s x (p.enc x now) p pic then s
      else tryClose x.id (releaseReady x.id 1 (cappedTold x p pic (codedTold x p pic (codedState x now p pic s))))) := by
  have hfind : x.pics.find? (·.coded.isNone) = some p := by simp [hpics, hcoded]
  have hlen : x.pics.length = 1 := by simp [hpics]
  simp only [exec, execEncPictureDone, hsess, hfind, hlen]
  rfl

/-- Where the picture is whole, within its cap and as the cores may make it, and its frame is not retracted, it is coded. -/
theorem exec_encPictureDone_ok (hsess : sessionNow s id = some (x, now)) (hclock : enginesClocked s = true) (hpics : x.pics = [p])
    (hcoded : p.coded = none) (hgood : p.bad = false) (hwhole : inputWhole (p.enc x now) p = true) (hcap : picBits pic ≤ p.cap)
    (hok : pictureOk s x (p.enc x now) p pic = true) : exec (.encPictureDone id pic) s =
      .next (tryClose x.id (releaseReady x.id 1 (cappedTold x p pic (codedTold x p pic (codedState x now p pic s))))) := by
  refine (exec_encPictureDone hsess hpics hcoded).trans (congrArg Host.Outcome.next (if_neg ?_))
  simp [hclock, hgood, hwhole, hcap, hok]

/-- Where one of these is missing, nothing happens. -/
theorem exec_encPictureDone_not (hsess : sessionNow s id = some (x, now)) (hpics : x.pics = [p]) (hcoded : p.coded = none)
    (hno : inputWhole (p.enc x now) p = false ∨ p.cap < picBits pic ∨ pictureOk s x (p.enc x now) p pic = false) :
    exec (.encPictureDone id pic) s = .next s := by
  refine (exec_encPictureDone hsess hpics hcoded).trans (congrArg Host.Outcome.next (if_pos ?_))
  rcases hno with h | h | h <;> simp [h]

/-- The session of a picture that has just been coded. -/
theorem codedTold_facts (hx : encSess s x.id = some x) (hpics : x.pics = [p]) :
    ∃ y fill, encSess (codedState x now p pic s) x.id = some y ∧
      encSess (cappedTold x p pic (codedTold x p pic (codedState x now p pic s))) x.id = some y ∧
      Reported (codedState x now p pic s) (cappedTold x p pic (codedTold x p pic (codedState x now p pic s))) ∧
      y.pics = [codedAs pic fill p] ∧ y.recent.head? = some (picBits pic) ∧ y.core = x.core ∧ y.closing = x.closing ∧
      y.pictures = x.pictures ∧ y.dpb = refPic (p.enc x now) p (pic.recon.headD []) :: x.dpb ∧ y.id = x.id := by
  have hmod : encSess (codedState x now p pic s) x.id =
      some (codedSess (p.rate x now) (p.enc x now) (fillerBytes x (p.rate x now) (p.enc x now) (picBits pic)) p pic x) :=
    encSess_modEnc_of hx fun _ => rfl
  have htold : Reported (codedState x now p pic s) (cappedTold x p pic (codedTold x p pic (codedState x now p pic s))) :=
    .trans reported_tell reported_cappedTold
  refine ⟨_, fillerBytes x (p.rate x now) (p.enc x now) (picBits pic), hmod, htold.encSess.trans hmod, htold, ?_, rfl, rfl, rfl, rfl, rfl, rfl⟩
  simp [codedSess, countPicture, hpics]

/-- The oldest picture waits for its frame's verdict. -/
theorem releaseReady_waits (hsess : sessionNow s id = some (y, now)) (hpics : y.pics = [p]) (hverdict : p.verdict = none) :
    releaseReady id (n + 1) s = s := by
  simp only [releaseReady, hsess, hpics]
  split
  next hv => rw [hverdict] at hv; cases hv
  next => rfl

theorem releaseReady_nil (hsess : sessionNow s id = some (y, now)) (hpics : y.pics = []) : releaseReady id (n + 1) s = s := by
  simp only [releaseReady, hsess, hpics]

/-- It goes out once its frame is COMMITTED. -/
theorem releaseReady_one (hsess : sessionNow s id = some (y, now)) (hpics : y.pics = [p]) (hcoded : p.coded = some pic)
    (hverdict : p.verdict = some v) (hgood : bit v 0 = false) : releaseReady id 1 s = releasePicture y (p.enc y now) p pic s := by
  simp only [releaseReady, hsess, hpics, hcoded, hverdict, hgood]
  rfl

theorem sessionNow_of (hsess : sessionNow s id = some (x, now)) (hy : encSess t id = some y) (hcore : y.core = x.core)
    (hcfg : t.cfg = s.cfg) : sessionNow t id = some (y, now) := by
  rw [sessionNow_iff, hcore, hcfg]
  exact ⟨hy, (sessionNow_iff.mp hsess).2⟩

/-- A picture whose verdict is to come is told and kept. -/
theorem done_undecided (hsess : sessionNow s id = some (x, now)) (hclock : enginesClocked s = true) (hpics : x.pics = [p])
    (hcoded : p.coded = none) (hopen : x.closing = none) (hwhole : inputWhole (p.enc x now) p = true) (hcap : picBits pic ≤ p.cap)
    (hok : pictureOk s x (p.enc x now) p pic = true) (hverdict : p.verdict = none) (hcapped : pic.cappedAt = none) :
    exec (.encPictureDone id pic) s = .next (codedTold x p pic (codedState x now p pic s)) := by
  obtain ⟨hx, -⟩ := sessionNow_iff.mp hsess
  obtain rfl := id_of_encSess hx
  obtain ⟨y, fill, -, hy, htold, hone, -, hcore, hclosing, -⟩ := codedTold_facts (now := now) (pic := pic) hx hpics
  have hcap0 : cappedTold x p pic (codedTold x p pic (codedState x now p pic s)) = codedTold x p pic (codedState x now p pic s) := by
    simp only [cappedTold, hcapped]
  rw [exec_encPictureDone_ok hsess hclock hpics hcoded (by simp [EncPic.bad, hverdict]) hwhole hcap hok]
  rw [hcap0] at hy htold ⊢
  have hnow := sessionNow_of hsess hy hcore (by rw [htold]; rfl)
  rw [releaseReady_waits hnow hone hverdict, tryClose_busy hy (.inl (hclosing.trans hopen))]

/-- One of a COMMITTED frame counts and becomes a reference. -/
theorem done_committed (hsess : sessionNow s id = some (x, now)) (hclock : enginesClocked s = true) (hpics : x.pics = [p])
    (hcoded : p.coded = none) (hopen : x.closing = none) (hwhole : inputWhole (p.enc x now) p = true) (hcap : picBits pic ≤ p.cap)
    (hok : pictureOk s x (p.enc x now) p pic = true) (hverdict : p.verdict = some v) (hgood : bit v 0 = false)
    (hmode : (p.enc x now).rcMode ≠ 3) : ∃ t y d, exec (.encPictureDone id pic) s = .next t ∧ Pictured s t ∧
      encSess t id = some y ∧ y.pics = [] ∧ y.pictures = x.pictures + 1 ∧ y.dpb = keepReference p [] (refPic (p.enc x now) p d :: x.dpb) := by
  obtain ⟨hx, -⟩ := sessionNow_iff.mp hsess
  obtain rfl := id_of_encSess hx
  obtain ⟨y, fill, -, hy, htold, hone, -, hcore, hclosing, hpictures, hdpb, hid⟩ := codedTold_facts (now := now) (pic := pic) hx hpics
  have hclosed : y.closing = none := hclosing.trans hopen
  rw [exec_encPictureDone_ok hsess hclock hpics hcoded (by simp [EncPic.bad, hverdict, hgood]) hwhole hcap hok]
  have hframe : Pictured s (cappedTold x p pic (codedTold x p pic (codedState x now p pic s))) :=
    codTold_modEnc.pictured.trans htold.pictured
  generalize cappedTold x p pic (codedTold x p pic (codedState x now p pic s)) = w at hy htold hframe ⊢
  have hnow := sessionNow_of hsess hy hcore hframe.cfg
  have henc : (codedAs pic fill p).enc y now = p.enc x now := by simp only [EncPic.enc, codedAs, hcore]
  rw [releaseReady_one hnow hone rfl hverdict hgood, henc]
  rw [← hid] at hy
  obtain ⟨hout, z, hz, hstate⟩ := releasePicture_facts (x := y) (p := codedAs pic fill p) (c := pic) hmode hy hclosed
  rw [hid] at hz
  simp only [pictureState, Prod.mk.injEq] at hstate
  obtain ⟨-, hzclosing, hzpics, hzpictures, hzdpb⟩ := hstate
  rw [tryClose_busy hz (.inl hzclosing)]
  refine ⟨_, z, pic.recon.headD [], rfl, hframe.trans hout, hz, ?_, by rw [hzpictures, hpictures], ?_⟩
  · simp [hzpics, hone, codedAs]
  · have hused : refsInUse y = [] := by simp [refsInUse, hone, codedAs]
    rw [hzdpb, hused, hdpb]
    rfl

theorem refs_keepReference {f : RefPic} {d : List RefPic} (hf : f.serial = p.serial) (h : y.dpb = keepReference p [] (f :: d)) :
    y.refs.head? = some p.serial ∧ (p.irap = true → ∀ k ∈ y.refs, k = p.serial) := by
  refine ⟨?_, fun hirap k hk => ?_⟩
  · obtain ⟨d', hd'⟩ := keepReference_cons (used := []) (d := d) hf
    rw [EncSess.refs, h, hd', List.filter_cons_of_pos rfl]
    simp [hf]
  · rw [EncSess.refs, h] at hk
    obtain ⟨q, hq, rfl⟩ := List.mem_map.mp hk
    obtain ⟨hmem, hgood⟩ := List.mem_filter.mp hq
    exact keepReference_irap hirap q hmem hgood

/-! ## Output (09 R351) -/

theorem exec_encOutputRelease (hsess : sessionNow s id = some (x, now)) (hclock : enginesClocked s = true)
    {b : List Byte} (hpackets : x.packets = b :: l) : exec (.encOutputRelease id) s =
      .next (tryClose id (pump id now.queue (l.length + 1) s)) := by
  obtain ⟨hx, -⟩ := sessionNow_iff.mp hsess
  obtain rfl := id_of_encSess hx
  have hfind : s.cod.enc.find? (·.id == x.id) = some x := hx
  simp only [exec, execEncOutputRelease, hsess, hclock, pumpSession, hfind, Option.map_some, hpackets, List.length_cons,
    Option.getD_some, if_true]

theorem pump_step {b : List Byte} (hx : encSess s id = some x) (hpackets : x.packets = b :: l) :
    pump id k (n + 1) s = if queueTakes s k b then pump id k n (queueWrite k b (modEnc id (fun y => { y with packets := l }) s)) else s := by
  have hfind : s.cod.enc.find? (·.id == id) = some x := hx
  simp only [pump, hfind, Option.map_some, hpackets]

theorem queue_queueWrite {b : List Byte} (h : queueTakes s k b = true) :
    (queue (queueWrite k b s) k).packets = (queue s k).packets ++ [b] := by
  have hq : queue (queueWrite k b s) k = queueAdd b (queue s k) := by
    rw [← queue_modQueue_of_configured (g := queueAdd b) (queueTakes_iff.mp h).1, queue, queue, queueWrite_queues]
  rw [hq]
  rfl

/-! ## Rollbacks (06 R222) -/

theorem emptyPeriods_eq : ∀ (n : Nat) {y : EncSess}, emptyPeriods r e n y =
    { y with fullness := (emptyPeriods r e n y).fullness, recent := (emptyPeriods r e n y).recent }
  | 0, _ => rfl
  | n + 1, y => by
    rw [emptyPeriods, emptyPeriods_eq n (y := emptyPeriod r e y)]
    rfl

theorem recent_emptyPeriods : ∀ (n : Nat) {y : EncSess}, (emptyPeriods r e (n + 1) y).recent.head? = some 0
  | 0, _ => rfl
  | n + 1, y => recent_emptyPeriods n (y := emptyPeriod r e y)

/-- The session set back to before its only picture, whose periods are still to count. -/
def setBackSess (p : EncPic) (y : EncSess) : EncSess :=
  setBack p.ckpt { y with pics := [], dpb := y.dpb.filter (·.serial != p.serial), gap := y.gap || p.gap }

theorem restore_only (hpics : y.pics = [p]) : restore p r e y = emptyPeriods r e (p.idle + 1) (setBackSess p y) := by
  simp [restore, hpics, passGap, setBackSess, Nat.add_comm]

/-- The state after a rollback, and what it tells. -/
def undoneState (x : EncSess) (now : EncCfg) (p : EncPic) (s : State) : State := modEnc x.id (restore p (p.rate x now) (p.enc x now)) s

theorem id_emptyPeriods : (emptyPeriods r e n y).id = y.id := by
  rw [emptyPeriods_eq]

theorem id_replay {q : EncPic} : (replay r e y q).id = y.id := by
  unfold replay
  extract_lets q1 y1 y2
  have hy2 : y2.id = y.id := by
    unfold y2
    split <;> rfl
  rw [id_emptyPeriods]
  split
  · exact hy2
  · exact hy2

theorem id_restore : (restore p r e y).id = y.id := by
  have hfold : ∀ (l : List EncPic) (z : EncSess), (l.foldl (replay r e) z).id = z.id := by
    intro l
    induction l with
    | nil => exact fun _ => rfl
    | cons q l ih => exact fun z => (ih _).trans id_replay
  unfold restore
  dsimp only
  rw [hfold, id_emptyPeriods]
  rfl

/-- The only picture of a session is undone. -/
theorem rollback_only (hsess : sessionNow s id = some (x, now)) (hclock : enginesClocked s = true) (hpics : x.pics = [p])
    (hverdict : p.verdict = some v) (hbad : bit v 0 = true) (hopen : x.closing = none) :
    ∃ y, exec (.encRollback id) s = .next (raise (193 + 12 * x.core) (unitEvent 0x4002 0x40 x.core (some p.serial)
        (p.serial + 2 ^ 16 * (rowsDone (p.enc x now) p % 65536) + 2 ^ 32 * v) (undoneState x now p s))) ∧
      encSess (undoneState x now p s) id = some y ∧
      y = emptyPeriods (p.rate x now) (p.enc x now) (p.idle + 1) (setBackSess p x) := by
  obtain ⟨hx, -⟩ := sessionNow_iff.mp hsess
  obtain rfl := id_of_encSess hx
  have hy : encSess (undoneState x now p s) x.id = some (emptyPeriods (p.rate x now) (p.enc x now) (p.idle + 1) (setBackSess p x)) := by
    rw [← restore_only hpics]
    exact encSess_modEnc_of hx fun _ => id_restore
  refine ⟨_, ?_, hy, rfl⟩
  have hfind : x.pics.find? (·.bad) = some p := by simp [hpics, EncPic.bad, hverdict, hbad]
  have hexec : exec (.encRollback x.id) s = .next (tryClose x.id (releaseReady x.id 1 (raise (193 + 12 * x.core)
      (unitEvent 0x4002 0x40 x.core (some p.serial)
        (p.serial + 2 ^ 16 * (rowsDone (p.enc x now) p % 65536) + 2 ^ 32 * v) (undoneState x now p s))))) := by
    have hlen : x.pics.length = 1 := by rw [hpics, List.length_singleton]
    simp only [exec, execEncRollback, hsess, hfind, hclock, hlen, hverdict]
    rfl
  have htold : Reported (undoneState x now p s) (raise (193 + 12 * x.core) (unitEvent 0x4002 0x40 x.core (some p.serial)
      (p.serial + 2 ^ 16 * (rowsDone (p.enc x now) p % 65536) + 2 ^ 32 * v) (undoneState x now p s))) := reported_tell
  rw [hexec]
  generalize raise (193 + 12 * x.core) _ = w at htold ⊢
  have hw := htold.encSess.trans hy
  rw [emptyPeriods_eq] at hw
  rw [releaseReady_nil (sessionNow_of hsess hw rfl (by rw [htold]; rfl)) rfl, tryClose_busy hw (.inl hopen)]

/-! ## Slices that are missing (14 R493) -/

/-- The session without the only picture that waits for slices. -/
def lackedSess (p : EncPic) (y : EncSess) : EncSess :=
  { y with
    due := [], pics := y.pics.modify 0 fun q => { q with gap := true }, gap := y.gap || y.pics.isEmpty
    slices := Tbl.erase y.slices p.serial }

theorem dropDue_nil : { dropDue y [] with slices := Tbl.erase y.slices p.serial } = lackedSess p y := by
  simp [dropDue, lackedSess, passGap]

theorem slicesMissing_only (hsess : sessionNow s id = some (x, now)) (hclock : enginesClocked s = true) (hdue : x.due = [p])
    (hlead : isLeader s = true) : exec (.arraySlicesMissing id) s = .next
      (raise (195 + 12 * x.core) (unitEvent 0x4005 0x40 x.core (some p.serial) p.serial (modEnc id (lackedSess p) s))) := by
  obtain ⟨hx, -⟩ := sessionNow_iff.mp hsess
  obtain rfl := id_of_encSess hx
  have hexec : exec (.arraySlicesMissing x.id) s = .next (assemble x.id (raise (195 + 12 * x.core)
      (unitEvent 0x4005 0x40 x.core (some p.serial) p.serial (modEnc x.id (lackedSess p) s)))) := by
    simp only [exec, execArraySlicesMissing, hsess, hdue, hclock, hlead, Bool.and_self, if_true, dropDue_nil]
  have htold : Reported (modEnc x.id (lackedSess p) s) (raise (195 + 12 * x.core)
      (unitEvent 0x4005 0x40 x.core (some p.serial) p.serial (modEnc x.id (lackedSess p) s))) := reported_tell
  rw [hexec]
  generalize raise (195 + 12 * x.core) _ = w at htold ⊢
  have hw := htold.encSess.trans (encSess_modEnc_of (g := lackedSess p) hx fun _ => rfl)
  have hnow := sessionNow_of hsess hw rfl (by rw [htold]; rfl)
  simp only [assemble, hnow, lackedSess]

end

/-- Settles O53: the start of a picture, its end with and without its verdict, its output, its rollback, and slices that are
missing. -/
theorem codedPicturesFlow : Obligations.CodedPicturesFlow := by
  unfold Obligations.CodedPicturesFlow
  refine fun id s x now hsess hclock => ⟨fun fr rest hwaiting => ?start, fun p pic hpics hcoded hopen => ⟨fun hno => ?not, ?undecided, ?committed⟩,
    fun p l hpackets hopen => ⟨fun hfull => ?waits, fun htakes hl => ?sent⟩, fun p v hpics hverdict hbad hopen => ?undone,
    fun p hdue hlead => slicesMissing_only hsess hclock hdue hlead⟩
  case start =>
    obtain ⟨hwait, hgo⟩ := encPictureStart_rule hsess hclock hwaiting
    refine ⟨hwait, fun hfree hrow hstop => ⟨(hgo hfree hrow hstop).1, fun hfits hunshed => ?_⟩⟩
    obtain ⟨t, v, hexec, hframe, hy⟩ := (hgo hfree hrow hstop).2 hfits hunshed
    refine ⟨t, _, _, hexec, hframe, hy, rfl, rfl, rfl, rfl, rfl, rfl, rfl, rfl, rfl, rfl, rfl, rfl, rfl, fun hirap => ?_⟩
    have hnext : nextIrap x = true := hirap
    exact ⟨by simp only [newPic, hnext, pocOf_irap], by simp only [newPic, hnext, if_true]⟩
  case not =>
    exact exec_encPictureDone_not hsess hpics hcoded hno
  case undecided =>
    intro hwhole hcap hok hverdict hcapped
    obtain ⟨hx, -⟩ := sessionNow_iff.mp hsess
    obtain rfl := id_of_encSess hx
    obtain ⟨y, fill, hy, -, -, hone, hrecent, -⟩ := codedTold_facts (now := now) (pic := pic) hx hpics
    exact ⟨codedState x now p pic s, y, fill,
      done_undecided hsess hclock hpics hcoded hopen hwhole hcap hok hverdict hcapped, rfl, hy, hone, hrecent⟩
  case committed =>
    intro v hwhole hcap hok hverdict hgood hmode
    obtain ⟨t, y, d, hexec, hframe, hy, hnone, hcount, hdpb⟩ :=
      done_committed hsess hclock hpics hcoded hopen hwhole hcap hok hverdict hgood hmode
    obtain ⟨hhead, hirap⟩ := refs_keepReference rfl hdpb
    exact ⟨t, y, hexec, hframe, hy, hnone, hcount, hhead, hirap⟩
  case waits =>
    obtain ⟨hx, -⟩ := sessionNow_iff.mp hsess
    rw [exec_encOutputRelease hsess hclock hpackets, pump_step hx hpackets, if_neg (by rw [hfull]; decide),
      tryClose_busy hx (.inl hopen)]
  case sent =>
    obtain ⟨hx, -⟩ := sessionNow_iff.mp hsess
    have hsent : encSess (queueWrite now.queue p (modEnc id (fun y => { y with packets := l }) s)) id =
        some { x with packets := l } :=
      (encSess_of_cod cod_queueWrite).trans (encSess_modEnc_of (g := fun y => { y with packets := l }) hx fun _ => rfl)
    obtain ⟨v, hv, htold⟩ := reported_queueWrite (n := now.queue) (b := p) (s := modEnc id (fun y => { y with packets := l }) s)
    have hqueue := queue_queueWrite (s := modEnc id (fun y => { y with packets := l }) s) htakes
    refine ⟨queueWrite now.queue p (modEnc id (fun y => { y with packets := l }) s), { x with packets := l }, ?_, ?_, hsent, hl, hqueue⟩
    · rw [exec_encOutputRelease hsess hclock hpackets, pump_step hx hpackets, if_pos htakes, hl, List.length_nil, pump, ← hl,
        tryClose_busy hsent (.inl hopen)]
    · rw [htold, hv]
      rfl
  case undone =>
    obtain ⟨y, hexec, hy, heq⟩ := rollback_only hsess hclock hpics hverdict hbad hopen
    have hrecent : y.recent.head? = some 0 := by
      rw [heq]
      exact recent_emptyPeriods _
    refine ⟨undoneState x now p s, y, hexec, rfl, hy, ?_⟩
    have hidle : p.idle = 0 → y.recent = 0 :: p.ckpt.recent.take 255 := by
      intro h
      rw [heq, h]
      rfl
    rw [emptyPeriods_eq] at heq
    refine ⟨by rw [heq]; rfl, by rw [heq]; rfl, by rw [heq]; rfl, by rw [heq]; rfl, by rw [heq]; rfl, by rw [heq]; rfl, by rw [heq]; rfl,
      by rw [heq]; rfl, by rw [heq]; rfl, by rw [heq]; rfl, by rw [heq]; rfl, by rw [heq]; rfl, hrecent, hidle, fun k hk => ?_⟩
    have hdpb : y.dpb = x.dpb.filter (·.serial != p.serial) := by rw [heq]; rfl
    rw [EncSess.refs, hdpb] at hk
    obtain ⟨q, hq, rfl⟩ := List.mem_map.mp hk
    simpa using (List.mem_filter.mp (List.mem_filter.mp hq).1).2

end Sys2Proof.Machine
end

section
/-! What a shed or overflowing port costs leaves the memory fabric and every pending source (10 R384, R385). -/

namespace Sys2Proof.Machine

open Sys2Proof

section

variable {c i k n p fl : Nat} {l : List Nat} {x : EncSess} {s t u : State}

/-- From `s` to `t` the memory fabric is as it was, and a source that was pending still is. -/
structure Calm (s t : State) : Prop where
  fabric : t.fabric = s.fabric
  pend : ∀ n, isPending s n = true → isPending t n = true

theorem Calm.refl (s : State) : Calm s s := ⟨rfl, fun _ => id⟩

theorem Calm.trans (hst : Calm s t) (htu : Calm t u) : Calm s u :=
  ⟨htu.fabric.trans hst.fabric, fun n h => htu.pend n (hst.pend n h)⟩

theorem Calm.ite {q : Prop} [Decidable q] (ht : Calm s t) (hu : Calm s u) : Calm s (if q then t else u) := by
  split
  · exact ht
  · exact hu

/-- A change of neither the fabric nor the pending sources. -/
theorem Calm.of_eq (hfabric : t.fabric = s.fabric) (hpend : t.ints.pend = s.ints.pend) : Calm s t :=
  ⟨hfabric, fun n h => by unfold isPending at *; rwa [hpend]⟩

theorem calm_foldl {α : Type} {op : State → α → State} (l : List α) (h : ∀ t, ∀ a ∈ l, Calm t (op t a)) : Calm s (l.foldl op s) :=
  foldl_steps Calm.refl Calm.trans l h s

/-! ## Events and sources -/

theorem calm_postEvent {f : Nat} {e : Event} : Calm s (postEvent f e s) := .of_eq (by rw [postEvent_eq]) (by rw [postEvent_eq])

theorem calm_trySignal {f : Nat} : Calm s (trySignal f n s) := by
  unfold trySignal
  exact .ite (.of_eq rfl rfl) (.refl s)

theorem calm_raise : Calm s (raise n s) := by
  unfold raise
  refine .ite (.refl s) (.ite calm_postEvent ?_)
  have hset : Calm s { s with ints := { s.ints with pend := s.ints.pend ||| (1#640 <<< n) } } :=
    ⟨rfl, fun m h => by
      unfold isPending at *
      rw [BitVec.getLsbD_or, h, Bool.true_or]⟩
  exact .ite hset (hset.trans calm_trySignal)

theorem calm_tell {code cls inst detail : Nat} {frame : Option Nat} : Calm s (raise n (unitEvent code cls inst frame detail s)) :=
  calm_postEvent.trans calm_raise

theorem calm_tthSend {cls d : Nat} {b : TthBody} {v : Bool} : Calm s (tthSend p cls b d v s) :=
  .of_eq (by rw [tthSend_eq]) (by rw [tthSend_eq])

theorem calm_tthBroadcast {cls : Nat} {b : TthBody} : Calm s (tthBroadcast cls b s) := by
  have hfirst : Calm s (if s.sys.device = 0 then s else tthSend 0 cls b 0 true s) := .ite (.refl s) calm_tthSend
  exact .ite (hfirst.trans calm_tthSend) hfirst

theorem calm_complete {d : Cmd} {r : Reply} : Calm s (complete d r s) := .of_eq (by rw [complete_eq]) (by rw [complete_eq])

/-! ## Frames that retract -/

theorem calm_modStream {g : StreamSt → StreamSt} : Calm s (modStream i g s) := .of_eq rfl rfl

theorem calm_modFrame {g : Frame → Frame} : Calm s (modFrame i n g s) := .of_eq rfl rfl

theorem calm_modChan {g : Chan → Chan} : Calm s (modChan c g s) := by
  unfold modChan
  exact .ite (.of_eq rfl rfl) (.of_eq rfl rfl)

theorem calm_latchLens {m : Tbl CfgVal} : Calm s (latchLens m i s) := .ite (.refl s) calm_modStream

theorem calm_decideFrame : Calm s (decideFrame i n s) := by
  unfold decideFrame
  split
  · exact .refl s
  · exact .ite (calm_modFrame.trans calm_tthBroadcast) calm_modFrame

theorem calm_addFlags {f : Frame} : Calm s (addFlags i n fl f s) := .ite (calm_modFrame.trans calm_tthBroadcast) calm_modFrame

theorem calm_retract : Calm s (retract i n fl s) := by
  cases hf : frameOf s i n with
  | none => rw [retract_none hf]; exact .refl s
  | some f =>
    have hin : Calm s (retractedIn i n fl f s) := calm_modFrame.trans (calm_foldl _ fun _ _ _ => calm_modChan)
    rw [retract_eq hf]
    exact .ite calm_addFlags (.ite hin (hin.trans (calm_decideFrame.trans calm_latchLens)))

theorem calm_retractAll : Calm s (retractAll i fl s) := calm_foldl _ fun _ _ _ => calm_retract

/-! ## The rows of 10 R384 -/

theorem calm_failWriteBack : Calm s (failWriteBack s) := .ite calm_retractAll (.ite calm_modStream (.refl s))

theorem calm_modEnc {g : EncSess → EncSess} : Calm s (modEnc n g s) := .of_eq rfl rfl

theorem calm_tryClose : Calm s (tryClose n s) := by
  unfold tryClose
  split
  next x _ =>
    split
    · have hgone : Calm s (dropSession x s) := .of_eq rfl rfl
      refine .ite ?_ (.refl s)
      dsimp only
      split
      · exact hgone.trans calm_complete
      · exact hgone
    · exact .refl s
  · exact .refl s

theorem calm_dropPicture : Calm s (dropPicture x s) := by
  unfold dropPicture
  split
  · exact .ite (.refl s) (.trans (calm_modEnc.trans calm_tell) calm_tryClose)
  · exact .refl s

theorem calm_dropEncStats : Calm s (dropEncStats s) := calm_foldl _ fun _ _ _ => calm_modEnc

theorem calm_dropInlineStats : Calm s (dropInlineStats s) := by
  unfold dropInlineStats
  split
  next f _ =>
    refine .ite ?_ (.refl s)
    have hmarked : Calm s (modFrame 0 f.serial (fun g => { g with colour := g.colour ||| 8 }) s) := calm_modFrame
    exact hmarked.trans (.trans calm_modStream calm_raise)
  · exact .refl s

theorem calm_stripesLose : Calm s (stripesLose k s) := .ite calm_retractAll (.refl s)

theorem calm_modHead {g : Head → Head} : Calm s (modHead k g s) := .of_eq rfl rfl

theorem calm_markAll : Calm s (markAll k s) := by
  unfold markAll
  split
  · exact .ite (.refl s) calm_modHead
  · exact .refl s

theorem calm_setFallback : Calm s (setFallback k l s) := .ite calm_modHead (calm_modHead.trans calm_markAll)

theorem calm_fallBackRow : Calm s (fallBackRow k s) := .ite (.refl s) (.of_eq rfl rfl)

theorem calm_fallBack : Calm s (fallBack k n s) := .ite (.refl s) (.trans (calm_setFallback.trans calm_fallBackRow) calm_tell)

/-- What the port's work in progress suffers is none of the fabric's. -/
theorem calm_portFails : Calm s (portFails k n s) := by
  unfold portFails
  split
  · exact calm_foldl _ fun _ _ _ => calm_retractAll
  · exact calm_failWriteBack
  · exact calm_foldl _ fun _ _ _ => calm_dropPicture
  · exact calm_foldl _ fun _ _ _ => calm_retractAll
  · exact .of_eq rfl rfl
  · exact calm_dropInlineStats.trans calm_dropEncStats
  · have hcounted : Calm s (countAt (k - 10) 14 1 s) := .of_eq rfl rfl
    exact .ite (.ite calm_fallBack (.refl s)) (.ite calm_stripesLose (.ite (.of_eq rfl rfl) (.ite (hcounted.trans calm_raise) (.refl s))))

theorem calm_portEvent {code d : Nat} : Calm s (portEvent code k d s) := by
  unfold portEvent
  split
  · exact calm_postEvent
  · exact calm_foldl _ fun _ _ _ => calm_postEvent

end

end Sys2Proof.Machine
end

section
/-! The memory fabric: panic, escalation, shedding, and the way back (10 R371, R380 to R385, R390). -/

namespace Sys2Proof.Machine

open Sys2Proof

section

variable {h i j k n fl cause : Nat} {g : RtPort → RtPort} {s t u v : State}

/-! ## Ports -/

theorem rtPort_of_fabric (hf : t.fabric = s.fabric) : rtPort t k = rtPort s k := by rw [rtPort, rtPort, hf]

/-- The fill of a port, and the states that it is in by it. -/
def fillState (x : RtPort) : Nat × Bool × Bool := (x.fill, x.panic, x.critical)

theorem fillState_modRt (hg : ∀ x, fillState (g x) = fillState x) : fillState (rtPort (modRt j g s) k) = fillState (rtPort s k) := by
  by_cases hk : k = j
  · subst hk
    by_cases hlt : k < s.fabric.ports.length
    · rw [rtPort_modRt hlt, hg]
    · simp [rtPort, modRt, List.getD_eq_getElem?_getD, List.getElem?_eq_none (Nat.le_of_not_lt hlt)]
  · rw [rtPort_modRt_ne hk]

/-! ## Steps of the escalation (10 R381) -/

/-- The fabric in step 1. -/
def begunFabric (s : State) (f : Fabric) : Fabric :=
  { f with step := 1, beStopped := true, since := s.tick, lastShed := none, order := ((shedBlk s.cfg.active).take 16).map (·.toNat) }

/-- A port that is shed. -/
def shedRt (x : RtPort) : RtPort := { x with shed := true, due := false }

/-- The state with a port shed, before what that costs. -/
def shedState (k : Nat) (s : State) : State :=
  modFabric (fun f => { f with step := 3, lastShed := some s.tick }) (modRt k shedRt s)

theorem calm_tellEscalation : Calm s (tellEscalation n s) := calm_postEvent.trans calm_raise

theorem calm_escalate : Calm (modFabric (begunFabric s) s) (escalate s) := calm_tellEscalation

theorem calm_shedPort : Calm (shedState k s) (shedPort k s) :=
  .trans (calm_portEvent.trans (calm_raise.trans calm_raise)) calm_portFails

/-- What a change of the ports brings: nothing, step 1, or the next port shed. -/
theorem portsChanged_facts : ∃ v, Calm v (portsChanged s) ∧ (v = s ∨
    (s.fabric.step = 0 ∧ v = modFabric (begunFabric s) s) ∨ (s.fabric.step ≠ 0 ∧ ∃ j, v = shedState j s)) := by
  unfold portsChanged
  split
  next hstep =>
    split
    · exact ⟨_, calm_escalate, .inr (.inl ⟨hstep, rfl⟩)⟩
    · exact ⟨s, .refl s, .inl rfl⟩
  next hstep =>
    split
    · unfold shedNext
      split
      next j _ =>
        split
        · exact ⟨_, calm_shedPort, .inr (.inr ⟨hstep, j, rfl⟩)⟩
        · exact ⟨s, .refl s, .inl rfl⟩
      · exact ⟨s, .refl s, .inl rfl⟩
    · exact ⟨s, .refl s, .inl rfl⟩

theorem fillState_portsChanged : fillState (rtPort (portsChanged s) k) = fillState (rtPort s k) := by
  obtain ⟨v, hcalm, rfl | ⟨-, rfl⟩ | ⟨-, j, rfl⟩⟩ := portsChanged_facts (s := s) <;> rw [rtPort_of_fabric hcalm.fabric]
  · rfl
  · exact fillState_modRt (g := shedRt) fun _ => rfl

theorem pend_portsChanged (hp : isPending s n = true) : isPending (portsChanged s) n = true := by
  obtain ⟨v, hcalm, rfl | ⟨-, rfl⟩ | ⟨-, j, rfl⟩⟩ := portsChanged_facts (s := s) <;> exact hcalm.pend n hp

/-- Step 1 begins with the second port in panic. -/
theorem portsChanged_first (hstep : s.fabric.step = 0) :
    ((portsChanged s).fabric.step = 1 ↔ 2 ≤ ((portsChanged s).fabric.ports.filter (·.panic)).length) ∧
    ((portsChanged s).fabric.step = 1 → (portsChanged s).fabric.beStopped = true ∧
      (portsChanged s).fabric.order = ((shedBlk s.cfg.active).take 16).map (·.toNat)) := by
  unfold portsChanged
  rw [if_pos hstep]
  by_cases htwo : 2 ≤ (s.fabric.ports.filter (·.panic)).length
  · rw [if_pos htwo, calm_escalate.fabric]
    exact ⟨⟨fun _ => htwo, fun _ => rfl⟩, fun _ => ⟨rfl, rfl⟩⟩
  · rw [if_neg htwo, hstep]
    exact ⟨⟨fun hone => absurd hone (by decide), fun h => absurd h htwo⟩, fun hone => absurd hone (by decide)⟩

/-- A port that is shed, and every other as it was. -/
theorem shedPort_facts (hk : k < s.fabric.ports.length) : (rtPort (shedPort k s) k).shed = true ∧ (shedPort k s).fabric.step = 3 ∧
    (shedPort k s).fabric.scale = s.fabric.scale ∧ ∀ j, j ≠ k → rtPort (shedPort k s) j = rtPort s j := by
  have hfabric := (calm_shedPort (k := k) (s := s)).fabric
  have hport (j : Nat) : rtPort (shedPort k s) j = rtPort (modRt k shedRt s) j := (rtPort_of_fabric hfabric).trans rfl
  refine ⟨?_, by rw [hfabric]; rfl, by rw [hfabric]; rfl, fun j hj => ?_⟩
  · rw [hport, rtPort_modRt hk]
    rfl
  · rw [hport, rtPort_modRt_ne hj]

/-- The state whose GR scale has fallen, before it is told. -/
def loweredState (s : State) : State := modFabric (fun f => { f with step := 2, scale := f.scale - 25 }) s

theorem reported_lowerScale : Reported (loweredState s) (lowerScale s) := reported_sysEvent.trans reported_raise

theorem nextShed_of_reported (ht : Reported s t) : nextShed t = nextShed s :=
  (congrArg nextShed ht).trans rfl

theorem nextShed_lowerScale : nextShed (lowerScale s) = nextShed s := (nextShed_of_reported reported_lowerScale).trans rfl

theorem fabric_lowerScale : (lowerScale s).fabric = { s.fabric with step := 2, scale := s.fabric.scale - 25 } := by
  rw [reported_lowerScale]
  rfl

theorem shedNext_none (hno : s.fabric.scale ≠ 0 ∨ s.fabric.ports.any (·.critical) = false ∨ nextShed s = none) : shedNext s = s := by
  unfold shedNext
  split
  next k hk =>
    refine if_neg ?_
    rintro ⟨hscale, hcritical⟩
    rcases hno with h | h | h
    · exact h hscale
    · rw [h] at hcritical
      cases hcritical
    · rw [h] at hk
      cases hk
  · rfl

theorem shedNext_some (hnext : nextShed s = some k) (hscale : s.fabric.scale = 0) (hcritical : s.fabric.ports.any (·.critical) = true) :
    shedNext s = shedPort k s := by
  unfold shedNext
  rw [hnext]
  exact if_pos ⟨hscale, hcritical⟩

/-- MEM_ESCALATION with a port in panic. -/
theorem exec_memEscalation (hclock : enginesClocked s = true) (hpanic : anyPanic s = true) : exec .memEscalation s =
    .next (if s.fabric.step = 0 then escalate s else if s.fabric.scale ≠ 0 then shedNext (lowerScale s) else shedNext s) := by
  simp only [exec, execMemEscalation, hclock, hpanic, Bool.and_self, Bool.not_true, Bool.false_eq_true, if_false]

/-! ## PORT_PANIC (10 R380) -/

/-- The port judged by its fill. -/
def judgedState (k fillKib : Nat) (s : State) : State :=
  modRt k (judgePort (shedBlk s.cfg.active) k (min fillKib (portKib k))) s

theorem danger_eq {fill : Nat} : danger k fill = 100 * if 4 ≤ k ∧ k ≤ 9 then portKib k - fill else fill := by
  simp [danger, portReads]

/-- A port that enters panic raises its source. -/
def panicTold (k : Nat) (s t : State) : State := if (rtPort t k).panic && !(rtPort s k).panic then raise (320 + k) t else t

theorem exec_portPanic (hclock : enginesClocked s = true) (hk : k < 16) :
    exec (.portPanic k n) s = .next (portsChanged (panicTold k s (judgedState k n s))) := by
  simp only [exec, execPortPanic, hclock, hk, decide_true, Bool.and_self, Bool.not_true, Bool.false_eq_true, if_false]
  rfl

theorem calm_panicTold : Calm t (panicTold k s t) := .ite calm_raise (.refl t)

theorem fillState_portPanic (hk : k < s.fabric.ports.length) :
    fillState (rtPort (portsChanged (panicTold k s (judgedState k n s))) k) =
      fillState (judgePort (shedBlk s.cfg.active) k (min n (portKib k)) (rtPort s k)) := by
  rw [fillState_portsChanged, rtPort_of_fabric calm_panicTold.fabric, judgedState, rtPort_modRt hk]

/-! ## Restoration (10 R383) -/

/-- From `s` to `t` a port may have been restored. -/
def Restored (s t : State) : Prop := t = { reported s t with fabric := t.fabric, tdm := t.tdm, freeCtr := t.freeCtr }

theorem Restored.trans (hst : Restored s t) (htu : Restored t u) : Restored s u := by
  unfold Restored at *
  rw [htu, hst]
  rfl

theorem Reported.restored (ht : Reported s t) : Restored s t := by
  unfold Reported at ht
  unfold Restored
  rw [ht]
  rfl

theorem reported_emit {o : Out} : Reported s (emit o s) := rfl

theorem reported_tthResend {p cls : Nat} : Reported s (tthResend p cls s) := by
  unfold tthResend
  split
  · exact foldl_steps Reported.refl Reported.trans _ (fun _ _ _ => reported_emit) s
  · exact .refl s

theorem reported_portEvent {code d : Nat} : Reported s (portEvent code k d s) := by
  unfold portEvent
  split
  · exact reported_postEvent
  · exact foldl_steps Reported.refl Reported.trans _ (fun _ _ _ => reported_postEvent) s

/-- The work of a restored port: the TDM ports start new runs, a tether port sends again. -/
def workRestored (k : Nat) (s : State) : State :=
  if k = 14 then { s with tdm := s.tdm.map fun x => { x with restart := true } }
  else if k = 12 ∨ k = 13 then [2, 3, 4].foldl (fun t cls => tthResend (k - 12) cls t) s
  else s

theorem workRestored_facts : Restored s (workRestored k s) ∧ (workRestored k s).fabric = s.fabric ∧
    (k = 14 → ∀ x ∈ (workRestored k s).tdm, x.restart = true) ∧ (k ≠ 14 → (workRestored k s).tdm = s.tdm) := by
  unfold workRestored
  split
  next hk =>
    refine ⟨rfl, rfl, fun _ x hx => ?_, fun hne => absurd hk hne⟩
    obtain ⟨y, -, rfl⟩ := List.mem_map.mp hx
    rfl
  next hk =>
    split
    · have hsent : Reported s ([2, 3, 4].foldl (fun t cls => tthResend (k - 12) cls t) s) :=
        foldl_steps Reported.refl Reported.trans _ (fun _ _ _ => reported_tthResend) s
      exact ⟨hsent.restored, by rw [hsent]; rfl, fun h => absurd h hk, fun _ => by rw [hsent]; rfl⟩
    · exact ⟨rfl, rfl, fun h => absurd h hk, fun _ => rfl⟩

/-- A port that is not shed any more. -/
def restoredRt (x : RtPort) : RtPort := { x with shed := false, due := false }

theorem exec_rtRestored (hclock : enginesClocked s = true) (hdue : (rtPort s k).due = true) :
    ∃ d, exec (.rtRestored k) s = .next (raise (336 + k) (portEvent 0x5004 k d (bump (workRestored k (modRt k restoredRt s))))) := by
  refine ⟨draw s (2 ^ 64 - 1), ?_⟩
  simp only [exec, execRtRestored, hclock, hdue, Bool.and_self, Bool.not_true, Bool.false_eq_true, if_false]
  rfl

/-! ## Buffers that overflow (10 R384) -/

theorem exec_rtBufferOverflow (hclock : enginesClocked s = true) (hk : k < 16) (hshed : portShed s k = false) :
    exec (.rtBufferOverflow k) s = .next (portFails k 2 s) := by
  simp only [exec, execRtBufferOverflow, hclock, hk, hshed, decide_true, Bool.and_self, Bool.not_false, if_true]

theorem portFails_head (hh : h < 4) : portFails (4 + h) cause s = if headReads s.cfg.active h then fallBack h cause s else s := by
  interval_cases h <;> rfl

theorem portFails_transmit (hn : n < 2) : portFails (8 + n) cause s = stopFrames n s := by
  interval_cases n <;> rfl

theorem portFails_receive (hn : n < 2) : portFails (10 + n) cause s = raise (528 + 8 * n + 6) (countAt n 14 1 s) := by
  interval_cases n <;> rfl

/-- A flow whose frame stops where it is. -/
def stoppedFlow (y : FlowSt) : FlowSt := { y with stopped := y.stopped || decide (y.sent < y.total) }

theorem flowSt_stopFrames {f : Nat} {y : FlowSt} (hf : (netPort s n).flows[f]? = some y) :
    flowSt (stopFrames n s) n f = stoppedFlow y := by
  by_cases hn : n < s.net.length
  · have hport : netPort (stopFrames n s) n = { netPort s n with flows := (netPort s n).flows.map stoppedFlow } := netPort_modNet hn
    simp [flowSt, hport, List.getD_eq_getElem?_getD, hf]
  · have hnone : netPort s n = {} := by simp [netPort, List.getD_eq_getElem?_getD, List.getElem?_eq_none (Nat.le_of_not_lt hn)]
    have hsame : netPort (stopFrames n s) n = {} := by
      simp [netPort, stopFrames, modNet, List.getD_eq_getElem?_getD, List.getElem?_eq_none (Nat.le_of_not_lt hn)]
    have hdefault : y = {} := by
      rw [hnone] at hf
      exact List.eq_of_mem_replicate (List.mem_of_getElem? hf)
    simp only [flowSt, hsame]
    rw [hnone] at hf
    simp only [List.getD_eq_getElem?_getD, hf, hdefault]
    rfl

/-- The open frames of some streams retract with OVERRUN. -/
theorem oneGone_overrun {f : Frame} (hone : (stream s i).frames = [f]) (hopen : bit f.flags 0 = false) (hdec : f.decided = false)
    {l : List Nat} (hi : i ∈ l) : ∃ g, (stream (l.foldl (fun t i => retractAll i vOverrun t) s) i).frames = [g] ∧ g.serial = f.serial ∧
      g.flags = f.flags ||| vOverrun ||| vRetracted := by
  obtain ⟨g, hg, hflags, hserial, -⟩ := oneGone_foldl (fl := vOverrun) hopen hdec l s (.inr ⟨hone, hi⟩)
  exact ⟨g, hg, hserial, hflags⟩

theorem lt_of_ready {f : ReadyFrame} {l : List ReadyFrame} (hready : (stream s i).ready = f :: l) : i < s.streams.length := by
  by_contra hge
  have hnone : stream s i = {} := by simp [stream, List.getD_eq_getElem?_getD, List.getElem?_eq_none (Nat.le_of_not_lt hge)]
  rw [hnone] at hready
  cases hready

end

/-- Settles O55: the fabric's own steps, what a shed port costs leaving them, and the rows of the stacks. -/
theorem memoryEscalatesAndRecovers : Obligations.MemoryEscalatesAndRecovers := by
  unfold Obligations.MemoryEscalatesAndRecovers
  refine fun s hclock hports => ⟨fun k fillKib hk => ?panic, fun hpanic => ⟨fun hstep => ?first, fun hstep hscale => ⟨fun hno => ?lower,
      fun k hlow hcritical hnext hk => ?lowerShed⟩, fun k hstep hscale hnext hcritical hk => ?shed⟩,
    fun hcalm hstep => ?recovered, fun k hk hdue => ?restored, ⟨fun n hn hshed => ?receive, fun hshed => ?audio, fun n hn hshed => ?transmit,
      fun f l hshed hinline hpipe hready => ?writeBack, fun h hh hshed hreads => ?head, fun k i f hk hshed hone hdec hopen => ?frames⟩,
    fun n hn => ⟨fun hcool => ?hot, ?cleared⟩, fun pc row corrected hpc => ?ecc⟩
  case panic =>
    intro b x fill d enters
    have hlt : k < s.fabric.ports.length := by omega
    have hstate := fillState_portPanic (s := s) (n := fillKib) hlt
    have hjudge : (judgePort (shedBlk s.cfg.active) k fill x).panic =
        (enters || (x.panic && decide (d > (fieldAt b 0x11 1 - 6) * portKib k))) := by
      simp only [judgePort, danger_eq]
      rfl
    refine ⟨_, exec_portPanic hclock hk, congrArg Prod.fst hstate, ?_, ?_, fun henters hbefore hon hlead => ?_,
      fun hstep => ?_⟩
    · exact (congrArg (fun v => v.2.1) hstate).trans hjudge
    · exact (congrArg (fun v => v.2.2) hstate).trans (by simp only [fillState, judgePort, danger_eq]; rfl)
    · refine pend_portsChanged ?_
      have hin : (rtPort (judgedState k fillKib s) k).panic = true := by
        rw [judgedState, rtPort_modRt hlt]
        exact hjudge.trans (by rw [henters, Bool.true_or])
      have htold : panicTold k s (judgedState k fillKib s) = raise (320 + k) (judgedState k fillKib s) :=
        if_pos (by rw [hin, show (rtPort s k).panic = false from hbefore]; rfl)
      rw [htold, isPending_raise (s := judgedState k fillKib s) hlead (by omega), show (routeOf (judgedState k fillKib s) _).enable = _ from hon]
      simp
    · have hzero : (panicTold k s (judgedState k fillKib s)).fabric.step = 0 := by
        rw [calm_panicTold.fabric]
        exact hstep
      have hactive : (panicTold k s (judgedState k fillKib s)).cfg = s.cfg := by
        unfold panicTold
        split
        · rw [raise_eq]
          rfl
        · rfl
      have hfirst := portsChanged_first hzero
      rwa [hactive] at hfirst
  case first =>
    refine ⟨escalate s, (exec_memEscalation hclock hpanic).trans (congrArg Host.Outcome.next (if_pos hstep)), ?_⟩
    rw [calm_escalate.fabric]
    rfl
  case lower =>
    have hnone : shedNext (lowerScale s) = lowerScale s := by
      refine shedNext_none ?_
      rw [fabric_lowerScale, nextShed_lowerScale]
      exact hno.imp (fun h => by dsimp only; omega) id
    exact (exec_memEscalation hclock hpanic).trans
      (congrArg Host.Outcome.next ((if_neg hstep).trans ((if_pos hscale).trans hnone)))
  case lowerShed =>
    have hsome : shedNext (lowerScale s) = shedPort k (lowerScale s) :=
      shedNext_some (nextShed_lowerScale.trans hnext) (by rw [fabric_lowerScale]; dsimp only; omega) (by rw [fabric_lowerScale]; exact hcritical)
    obtain ⟨hshed, hthree, hzero, hothers⟩ := shedPort_facts (k := k) (s := lowerScale s)
      (by rw [fabric_lowerScale]; dsimp only; omega)
    refine ⟨_, (exec_memEscalation hclock hpanic).trans (congrArg Host.Outcome.next ((if_neg hstep).trans ((if_pos hscale).trans hsome))),
      hshed, hthree, ?_, fun j hj => (hothers j hj).trans ?_⟩
    · rw [hzero, fabric_lowerScale]
      dsimp only
      omega
    · rw [rtPort, rtPort, fabric_lowerScale]
  case shed =>
    obtain ⟨hshed, hthree, -, hothers⟩ := shedPort_facts (k := k) (s := s) (by omega)
    exact ⟨shedPort k s, (exec_memEscalation hclock hpanic).trans (congrArg Host.Outcome.next ((if_neg hstep).trans
      ((if_neg (not_not.mpr hscale)).trans (shedNext_some hnext hscale hcritical)))), hshed, hthree, hothers⟩
  case recovered =>
    exact congrArg Host.Outcome.next (if_neg (by simp [hclock, hcalm, hstep]))
  case restored =>
    obtain ⟨detail, hexec⟩ := exec_rtRestored hclock hdue
    obtain ⟨hframe, hfabric, haudio, hother⟩ := workRestored_facts (k := k) (s := modRt k restoredRt s)
    have htold : Reported (bump (workRestored k (modRt k restoredRt s)))
        (raise (336 + k) (portEvent 0x5004 k detail (bump (workRestored k (modRt k restoredRt s))))) := reported_portEvent.trans reported_raise
    generalize raise (336 + k) (portEvent 0x5004 k detail (bump (workRestored k (modRt k restoredRt s)))) = t at hexec htold
    have hport (j : Nat) : rtPort t j = rtPort (modRt k restoredRt s) j := by
      rw [rtPort, rtPort, htold]
      exact congrArg (fun f : Fabric => f.ports.getD j {}) hfabric
    have htdm : t.tdm = (workRestored k (modRt k restoredRt s)).tdm := by
      rw [htold]
      rfl
    refine ⟨t, hexec, ?_, ?_, fun j hj => ?_, fun h => ?_, fun h => ?_⟩
    · have hmod : Restored s (modRt k restoredRt s) := rfl
      have hbump {v : State} : Restored v (bump v) := rfl
      exact (hmod.trans hframe).trans (hbump.trans htold.restored)
    · rw [hport, rtPort_modRt (by omega)]
      rfl
    · rw [hport, rtPort_modRt_ne hj]
    · rw [htdm]
      exact haudio h
    · rw [htdm, hother h]
      rfl
  case receive =>
    exact (exec_rtBufferOverflow hclock (by omega) hshed).trans (congrArg Host.Outcome.next (portFails_receive hn))
  case audio =>
    exact exec_rtBufferOverflow hclock (by decide) hshed
  case transmit =>
    exact ⟨stopFrames n s, (exec_rtBufferOverflow hclock (by omega) hshed).trans (congrArg Host.Outcome.next (portFails_transmit hn)), rfl,
      fun f y hf => flowSt_stopFrames hf⟩
  case writeBack =>
    have hfail : portFails 1 2 s = modStream 0 (fun x => { x with ready := x.ready.modify 0 fun f => { f with unwritten := true } }) s :=
      (if_neg (by rw [hinline]; decide)).trans (if_pos hpipe)
    refine ⟨_, (exec_rtBufferOverflow hclock (by decide) hshed).trans (congrArg Host.Outcome.next hfail), ?_⟩
    rw [stream_modStream (lt_of_ready hready)]
    simp [hready]
  case head =>
    exact (exec_rtBufferOverflow hclock (by omega) hshed).trans
      (congrArg Host.Outcome.next ((portFails_head hh).trans (if_pos hreads)))
  case frames =>
    have hlt : k < 16 := by rcases hk with ⟨rfl, -⟩ | ⟨rfl, -⟩ <;> decide
    have hfold : ∃ l : List Nat, i ∈ l ∧ portFails k 2 s = l.foldl (fun t i => retractAll i vOverrun t) s := by
      rcases hk with ⟨rfl, hi⟩ | ⟨rfl, hi⟩
      · exact ⟨_, hi, rfl⟩
      · exact ⟨_, hi, (List.foldl_map (g := fun t i => retractAll i vOverrun t)).symm⟩
    obtain ⟨l, hi, hfold⟩ := hfold
    obtain ⟨g, hg, hserial, hflags⟩ := oneGone_overrun hone hopen hdec hi
    exact ⟨_, g, (exec_rtBufferOverflow hclock hlt hshed).trans (congrArg Host.Outcome.next hfold), hg, hserial, hflags⟩
  case hot =>
    exact congrArg Host.Outcome.next (if_neg (by simp [hclock, hcool, Nat.not_le.mpr hn, -List.getD_eq_getElem?_getD]))
  case cleared =>
    exact congrArg Host.Outcome.next (if_pos hclock)
  case ecc =>
    exact congrArg Host.Outcome.next (if_neg (by simp [hclock, hpc]))

end Sys2Proof.Machine
end

section
/-! Power: the meters and the cap, and the snubs of the power domains (17 R557 to R565). -/

namespace Sys2Proof.Machine

open Sys2Proof

section

variable {n k v source code detail : Nat} {g : Droop → Droop} {s t u : State}

theorem reported_tellF0 : Reported s (tellF0 source code detail s) := .ite (reported_sysEvent.trans reported_raise) (.refl s)

theorem Reported.pwr (h : Reported s t) : t.pwr = s.pwr := by
  rw [h]
  rfl

/-! ## Meters and the cap (17 R559, R560) -/

/-- The meters with a sample taken, and the time below the cap kept. -/
def sampledPwr (mw : List Nat) (s : State) : Pwr :=
  let w := (mw :: s.pwr.window).take (windowSamples s)
  { s.pwr with
    meters := mw, window := w
    below := if decide (100 * (w.map List.sum).sum < 95 * (capMw s * w.length)) then s.pwr.below + 1 else 0 }

/-- A sample enters cap throttle where the mean lies above the cap, and else only moves the meters. -/
theorem powerMeterSample_facts {mw : List Nat} (hon : aonOn s = true) (hlen : mw.length = 24) :
    let w := (mw :: s.pwr.window).take (windowSamples s)
    let above := capMw s * w.length < (w.map List.sum).sum
    ∃ t, exec (.powerMeterSample mw) s = .next t ∧ t.pwr.meters = mw ∧ t.pwr.window = w ∧
      t.pwr.throttle = (s.pwr.throttle || decide above) ∧ t.pwr.droops = s.pwr.droops ∧
      (s.pwr.throttle = true ∨ ¬ above → t = { s with pwr := t.pwr }) := by
  intro w above
  have hrow : ¬ (!(aonOn s && mw.length == 24)) = true := by simp [hon, hlen]
  by_cases henter : above ∧ !s.pwr.throttle
  · refine ⟨_, congrArg Host.Outcome.next ((if_neg hrow).trans (if_pos henter)), ?_⟩
    rw [reported_tellF0.pwr]
    obtain ⟨habove, hthrottle⟩ := henter
    refine ⟨rfl, rfl, (by rw [decide_eq_true habove, Bool.or_true]; rfl), rfl, fun h => ?_⟩
    rcases h with h | h
    · simp [h] at hthrottle
    · exact absurd habove h
  · refine ⟨{ s with pwr := sampledPwr mw s }, congrArg Host.Outcome.next ((if_neg hrow).trans (if_neg henter)),
      rfl, rfl, ?_, rfl, fun _ => rfl⟩
    show s.pwr.throttle = _
    cases hthrottle : s.pwr.throttle
    · have hbelow : ¬ above := fun h => henter ⟨h, by rw [hthrottle]; rfl⟩
      rw [decide_eq_false hbelow, Bool.or_false]
    · rfl

/-! ## Snubs (17 R561 to R565) -/

theorem domain_of_pwr (h : t.pwr = s.pwr) : domain t k = domain s k := by rw [domain, domain, h]

theorem length_modDomain : (modDomain n g s).pwr.droops.length = s.pwr.droops.length := by simp [modDomain, modPwr]

/-- From `s` to `t` the power domains have changed, and events and sources have told of it. -/
def PwrTold (s t : State) : Prop := t = { reported s t with pwr := t.pwr }

theorem PwrTold.refl (s : State) : PwrTold s s := rfl

theorem PwrTold.trans (hst : PwrTold s t) (htu : PwrTold t u) : PwrTold s u := by
  unfold PwrTold at *
  rw [htu, hst]
  rfl

theorem Reported.pwrTold (h : Reported s t) : PwrTold s t := by
  unfold Reported PwrTold at *
  rw [h]
  rfl

theorem pwrTold_modDomain : PwrTold s (modDomain n g s) := rfl

/-- The droop and the stage of a domain. -/
def droopStage (d : Droop) : Nat × Nat := (d.v, d.stage)

theorem inInterval_kept (d : Droop) : droopStage (inInterval k d) = droopStage d ∧ (inInterval k d).count = d.count := by
  unfold inInterval
  split <;> exact ⟨rfl, rfl⟩

/-- A domain with one more entry. -/
def enteredDroop (i : Nat) (d : Droop) : Droop :=
  { inInterval i d with count := min 0xFFFFFFFF ((inInterval i d).count + 1), entries := (inInterval i d).entries + 1 }

/-- An entry is counted in its domain, told once an interval, and changes neither a droop nor a stage. -/
theorem countSnub_facts (h : n < s.pwr.droops.length) : PwrTold s (countSnub n s) ∧
    (∀ k, k ≠ n → domain (countSnub n s) k = domain s k) ∧
    droopStage (domain (countSnub n s) n) = droopStage (domain s n) ∧
    (domain (countSnub n s) n).count = min 0xFFFFFFFF ((domain s n).count + 1) := by
  have hentered := domain_modDomain (g := enteredDroop (interval10ms s)) h
  obtain ⟨hkept, hcount⟩ := inInterval_kept (k := interval10ms s) (domain s n)
  have hkept' : droopStage (enteredDroop (interval10ms s) (domain s n)) = droopStage (domain s n) := hkept
  have hcount' : (enteredDroop (interval10ms s) (domain s n)).count = min 0xFFFFFFFF ((domain s n).count + 1) := by
    rw [← hcount]
    rfl
  unfold countSnub
  extract_lets free s1 d s2
  have hs1 : PwrTold s s1 := pwrTold_modDomain
  have hs2 : Reported s1 s2 := .ite reported_raise (.refl s1)
  have hn1 : domain s1 n = enteredDroop (interval10ms s) (domain s n) := hentered
  have hlen1 : n < s1.pwr.droops.length := by
    rw [show s1 = modDomain n (enteredDroop (interval10ms s)) s from rfl, length_modDomain]
    exact h
  have hother (k) (hk : k ≠ n) : domain s1 k = domain s k := domain_modDomain_ne hk
  split
  · refine ⟨hs1.trans hs2.pwrTold, fun k hk => ?_, ?_, ?_⟩ <;> rw [domain_of_pwr hs2.pwr]
    · exact hother k hk
    · rw [hn1, hkept']
    · rw [hn1, hcount']
  · next s3 _ =>
    have hs3 : Reported s1 s3 := hs2.trans (.ite reported_sysEvent (.refl s2))
    refine ⟨(hs1.trans hs3.pwrTold).trans pwrTold_modDomain, fun k hk => ?_, ?_⟩
    · rw [domain_modDomain_ne hk, domain_of_pwr hs3.pwr, hother k hk]
    · rw [domain_modDomain (by rw [hs3.pwr]; exact hlen1), domain_of_pwr hs3.pwr, hn1]
      exact ⟨hkept', hcount'⟩

/-- A domain with a droop sampled. -/
def sampledDroop (limit n v : Nat) (d : Droop) : Droop := { d with v := v, stage := if n < 10 then stageOf limit v d.stage else d.stage }

/-- What a sample of a droop leaves in every domain. -/
theorem droopSample_facts (hon : aonOn s = true) (hn : n < 24) (hlen : s.pwr.droops.length = 24) :
    let d := domain s n
    let limit := snubThreshold s.cfg.active s.sys.profile
    let enters := if n < 10 then d.stage == 0 && decide (limit < v) else decide (d.v ≤ limit) && decide (limit < v)
    ∃ t, exec (.droopSample n v) s = .next t ∧ PwrTold s t ∧ (∀ k, k ≠ n → domain t k = domain s k) ∧
      droopStage (domain t n) = droopStage (sampledDroop limit n v d) ∧
      (enters = true → (domain t n).count = min 0xFFFFFFFF (d.count + 1)) ∧
      (enters = false → (domain t n).count = d.count ∧ t = { s with pwr := t.pwr }) := by
  intro d limit enters
  have hrow : ¬ (!(aonOn s && decide (n < 24))) = true := by simp [hon, hn]
  have hin : n < s.pwr.droops.length := by omega
  have hsampled := domain_modDomain (g := sampledDroop limit n v) hin
  have hother (k) (hk : k ≠ n) : domain (modDomain n (sampledDroop limit n v) s) k = domain s k := domain_modDomain_ne hk
  cases henters : enters
  case false =>
    refine ⟨_, congrArg Host.Outcome.next ((if_neg hrow).trans (if_neg fun h => Bool.noConfusion (henters.symm.trans h))),
      pwrTold_modDomain, hother, congrArg droopStage hsampled, (nomatch ·), fun _ => ⟨(congrArg Droop.count hsampled).trans rfl, rfl⟩⟩
  case true =>
    obtain ⟨htold, hkept, hstage, hcount⟩ := countSnub_facts (n := n) (s := modDomain n (sampledDroop limit n v) s)
      (by rw [length_modDomain]; exact hin)
    rw [hsampled] at hstage hcount
    exact ⟨_, congrArg Host.Outcome.next ((if_neg hrow).trans (if_pos henters)), pwrTold_modDomain.trans htold,
      fun k hk => (hkept k hk).trans (hother k hk), hstage, fun _ => hcount, (nomatch ·)⟩

/-! ## The stage of a clock domain (17 R563) -/

theorem clockStage_eq {d : Stretched} : clockStage s d = ((stretchedBy d).map fun k => (domain s k).stage).foldl max 0 := rfl

theorem foldl_max_mem : ∀ (l : List Nat) (a : Nat), (∀ x ∈ l, x ≤ l.foldl max a) ∧ a ≤ l.foldl max a ∧
    (l.foldl max a = a ∨ l.foldl max a ∈ l)
  | [], a => ⟨by simp, Nat.le_refl a, .inl rfl⟩
  | b :: l, a => by
    obtain ⟨hle, hstart, hmem⟩ := foldl_max_mem l (max a b)
    simp only [List.foldl_cons, List.mem_cons, forall_eq_or_imp]
    refine ⟨⟨by omega, hle⟩, by omega, ?_⟩
    rcases hmem with h | h
    · rw [h]
      rcases Nat.le_total a b with hab | hab
      · exact .inr (.inl (by omega))
      · exact .inl (by omega)
    · exact .inr (.inr h)

theorem stretchedBy_ne_nil (d : Stretched) : stretchedBy d ≠ [] := by cases d <;> simp [stretchedBy]

theorem clockStage_deepest (d : Stretched) : (∀ k ∈ stretchedBy d, (domain s k).stage ≤ clockStage s d) ∧
    ∃ k ∈ stretchedBy d, (domain s k).stage = clockStage s d := by
  obtain ⟨hle, -, hmem⟩ := foldl_max_mem ((stretchedBy d).map fun k => (domain s k).stage) 0
  rw [← clockStage_eq] at hle hmem
  have hdeep : ∀ k ∈ stretchedBy d, (domain s k).stage ≤ clockStage s d := fun k hk => hle _ (List.mem_map_of_mem hk)
  refine ⟨hdeep, ?_⟩
  rcases hmem with hzero | hin
  · obtain ⟨k, hk⟩ := List.exists_mem_of_ne_nil _ (stretchedBy_ne_nil d)
    have hk0 := hdeep k hk
    exact ⟨k, hk, by omega⟩
  · obtain ⟨k, hk, heq⟩ := List.mem_map.mp hin
    exact ⟨k, hk, heq⟩

theorem clockStage_congr {d : Stretched} (h : ∀ k ∈ stretchedBy d, domain t k = domain s k) : clockStage t d = clockStage s d := by
  rw [clockStage_eq, clockStage_eq, List.map_congr_left fun k hk => congrArg Droop.stage (h k hk)]

/-- A sample of a droop: the domain's stage and count, and the clock domains that it slows. -/
theorem droopSample_rule (hon : aonOn s = true) (hn : n < 24) (hlen : s.pwr.droops.length = 24) :
    let d := domain s n
    let limit := snubThreshold s.cfg.active s.sys.profile
    ∃ t, exec (.droopSample n v) s = .next t ∧ t = { reported s t with pwr := t.pwr } ∧ (domain t n).v = v ∧
      (∀ k, k ≠ n → domain t k = domain s k) ∧ (10 ≤ n → (domain t n).stage = d.stage) ∧
      (n < 10 → (domain t n).stage = if 2 * limit < v then 2 else if limit < v then max 1 d.stage else d.stage) ∧
      ((n < 10 ∧ d.stage = 0 ∧ limit < v) ∨ (10 ≤ n ∧ d.v ≤ limit ∧ limit < v) →
        (domain t n).count = min 0xFFFFFFFF (d.count + 1)) ∧
      (v ≤ limit → (domain t n).count = d.count ∧ t = { s with pwr := t.pwr }) ∧
      (n < 10 →
        (∀ d, (∀ k ∈ stretchedBy d, (domain t k).stage ≤ clockStage t d) ∧
          (∃ k ∈ stretchedBy d, (domain t k).stage = clockStage t d) ∧
          (n ∉ stretchedBy d → clockStage t d = clockStage s d)) ∧
        (limit < v → ∀ d, n ∈ stretchedBy d → 1 ≤ clockStage t d) ∧
        (2 * limit < v → ∀ d, n ∈ stretchedBy d → 2 ≤ clockStage t d) ∧
        (n = 1 → limit < v → 1 ≤ clockStage t .pipe)) := by
  intro d limit
  obtain ⟨t, hexec, htold, hother, hkept, hcounted, hquiet⟩ := droopSample_facts (v := v) hon hn hlen
  have hv : (domain t n).v = v := congrArg Prod.fst hkept
  have hstage : (domain t n).stage = if n < 10 then stageOf limit v d.stage else d.stage := congrArg Prod.snd hkept
  have hlow (h : n < 10) : (domain t n).stage = if 2 * limit < v then 2 else if limit < v then max 1 d.stage else d.stage :=
    hstage.trans (if_pos h)
  have hdeep (e : Stretched) (he : n ∈ stretchedBy e) : (domain t n).stage ≤ clockStage t e := (clockStage_deepest e).1 n he
  have hslow (h : n < 10) (habove : limit < v) : 1 ≤ (domain t n).stage := by
    rw [hlow h, if_pos habove]
    split <;> omega
  have hslower (h : n < 10) (habove : 2 * limit < v) : 2 ≤ (domain t n).stage := by rw [hlow h, if_pos habove]
  refine ⟨t, hexec, htold, hv, hother, fun h => hstage.trans (if_neg (by omega)), hlow, fun h => hcounted ?_,
    fun h => hquiet ?_, fun h => ⟨fun e => ⟨(clockStage_deepest e).1, (clockStage_deepest e).2, fun he => clockStage_congr fun k hk =>
      hother k fun hkn => he (hkn ▸ hk)⟩, fun habove e he => (hslow h habove).trans (hdeep e he),
      fun habove e he => (hslower h habove).trans (hdeep e he), fun hone habove => (hslow h habove).trans (hdeep .pipe ?_)⟩⟩
  · rcases h with ⟨h, hzero, habove⟩ | ⟨h, hbefore, habove⟩
    · rw [if_pos h]
      simp [d, limit] at hzero habove ⊢
      exact ⟨hzero, habove⟩
    · rw [if_neg (by omega)]
      simp [d, limit] at hbefore habove ⊢
      exact ⟨hbefore, habove⟩
  · have hnot : ¬ limit < v := by omega
    split <;> simp [limit] at hnot ⊢ <;> omega
  · subst hone
    decide

end

end Sys2Proof.Machine
end

section
/-! Heat: the thermal model and its actions (17 R566 to R578). -/

namespace Sys2Proof.Machine

open Sys2Proof

section

variable {h k cause : Nat} {b : Bool} {s t u v : State}

/-! ## Fallback of a head at a stop (12 R437) -/

/-- From `s` to `t` heads may have fallen back, and events and sources have told of it. -/
def FellBack (s t : State) : Prop := t = { reported s t with heads := t.heads, freeCtr := t.freeCtr }

theorem FellBack.refl (s : State) : FellBack s s := rfl

theorem FellBack.trans (hst : FellBack s t) (htu : FellBack t u) : FellBack s u := by
  unfold FellBack at *
  rw [htu, hst]
  rfl

theorem FellBack.ite {p : Prop} [Decidable p] (ht : FellBack s t) (hu : FellBack s u) : FellBack s (if p then t else u) := by
  split
  · exact ht
  · exact hu

theorem Reported.fellBack (hst : Reported s t) : FellBack s t := by
  unfold Reported FellBack at *
  rw [hst]
  rfl

theorem fellBack_modHead {g : Head → Head} : FellBack s (modHead h g s) := rfl

theorem fellBack_markAll : FellBack s (markAll h s) := by
  unfold markAll
  split
  · exact .ite (.refl s) fellBack_modHead
  · exact .refl s

theorem fellBack_setFallback {l : List Nat} : FellBack s (setFallback h l s) :=
  .ite fellBack_modHead (fellBack_modHead.trans fellBack_markAll)

theorem fellBack_fallBackRow : FellBack s (fallBackRow h s) := .ite (.refl s) rfl

theorem fellBack_fallBack : FellBack s (fallBack h cause s) :=
  .ite (.refl s) ((fellBack_setFallback.trans fellBack_fallBackRow).trans reported_tell.fellBack)

/-! ## The actions (17 R571 to R577) -/

/-- From `s` to `t` the thermal actions may have run. -/
def HeatTold (s t : State) : Prop :=
  t = { reported s t with thm := t.thm, sys := t.sys, heads := t.heads, recorder := t.recorder, freeCtr := t.freeCtr }

theorem HeatTold.refl (s : State) : HeatTold s s := rfl

theorem HeatTold.trans (hst : HeatTold s t) (htu : HeatTold t u) : HeatTold s u := by
  unfold HeatTold at *
  rw [htu, hst]
  rfl

theorem FellBack.heatTold (hst : FellBack s t) : HeatTold s t := by
  unfold FellBack HeatTold at *
  rw [hst]
  rfl

theorem Reported.heatTold (hst : Reported s t) : HeatTold s t := hst.fellBack.heatTold

theorem heatTold_modThm {g : Thm → Thm} : HeatTold s (modThm g s) := rfl

theorem FellBack.thm (hst : FellBack s t) : t.thm = s.thm := by
  rw [hst]
  rfl

theorem Reported.thm (hst : Reported s t) : t.thm = s.thm := hst.fellBack.thm

theorem usedTj_of_thm (hnodes : t.thm.nodes = s.thm.nodes) (hdiodes : t.thm.diodes = s.thm.diodes) (hdrift : t.thm.drift = s.thm.drift) :
    usedTj t = usedTj s := by
  rw [usedTj, usedTj, modelTj, modelTj, hnodes, hdiodes, hdrift]

/-- WARN and THROTTLE as the temperature has them. -/
def warmThm (s : State) (x : Thm) : Thm :=
  { x with warn := holdsAt 100 97 (usedTj s) s.thm.warn, hot := holdsAt 105 102 (usedTj s) s.thm.hot }

theorem judgeWarm_facts : HeatTold s (judgeWarm s) ∧ (judgeWarm s).thm = warmThm s s.thm ∧ (judgeWarm s).sys = s.sys ∧
    (judgeWarm s).time = s.time := by
  unfold judgeWarm
  extract_lets temp w h s1
  have hs1 : HeatTold s s1 ∧ s1.thm = { s.thm with warn := w } ∧ s1.sys = s.sys ∧ s1.time = s.time := by
    by_cases hw : w = s.thm.warn
    · rw [show s1 = s from if_pos hw, hw]
      exact ⟨.refl s, rfl, rfl, rfl⟩
    · rw [show s1 = tellF0 _ _ _ _ from if_neg hw]
      refine ⟨.trans (t := modThm _ s) heatTold_modThm reported_tellF0.heatTold, ?_, ?_, ?_⟩ <;> rw [reported_tellF0] <;> rfl
  obtain ⟨htold, hthm, hsys, htime⟩ := hs1
  by_cases hh : h = s.thm.hot
  · rw [if_pos hh]
    refine ⟨htold, ?_, hsys, htime⟩
    rw [hthm, warmThm, show holdsAt 105 102 (usedTj s) s.thm.hot = s.thm.hot from hh]
  · rw [if_neg hh]
    refine ⟨htold.trans (.trans (t := modThm _ s1) heatTold_modThm reported_tellF0.heatTold), ?_, ?_, ?_⟩ <;> rw [reported_tellF0]
    · show { s1.thm with hot := h } = _
      rw [hthm]
      rfl
    · exact hsys
    · exact htime

theorem reported_tellStop : Reported s (tellStop b s) := by
  unfold tellStop
  split
  · exact .refl s
  · exact .trans (foldl_steps Reported.refl Reported.trans _ (fun _ _ _ => reported_postEvent) s) reported_raise

/-- The device in STOPPING, before what that tells. -/
def stoppingState (z : Time) (s : State) : State :=
  modThm (fun x => { x with stop := 1, stopAt := z, cooled := false })
    (modRec (fun x => { x with cutoff := if x.state = 0 then none else some (nsTime (timeNs z + 200000000)) }) s)

/-- A stop signal begins the stop, once. -/
theorem fellBack_stopAtSignal {z : Time} (hstop : s.thm.stop = 0) : FellBack (stoppingState z s) (stopAtSignal z s) := by
  unfold stopAtSignal
  rw [if_neg (by simp [hstop])]
  refine .trans (reported_tellStop (b := false)).fellBack ?_
  exact foldl_steps FellBack.refl FellBack.trans _ (fun u _ _ => .ite fellBack_fallBack (.refl u)) _

theorem stopAtSignal_facts {z : Time} (hstop : s.thm.stop = 0) : HeatTold s (stopAtSignal z s) ∧
    (stopAtSignal z s).thm = { s.thm with stop := 1, stopAt := z, cooled := false } :=
  have hstopping : HeatTold s (stoppingState z s) := rfl
  ⟨hstopping.trans (fellBack_stopAtSignal hstop).heatTold, (fellBack_stopAtSignal hstop).thm⟩

theorem beginStop_facts (hon : groomOn s = true) (hstop : s.thm.stop = 0) : HeatTold s (beginStop s) ∧
    (beginStop s).thm = { s.thm with stop := 1, stopAt := now s, cooled := false } := by
  obtain ⟨htold, hthm⟩ := stopAtSignal_facts (z := now s) hstop
  have hsent : Reported (stopAtSignal (now s) s) (beginStop s) := by
    unfold beginStop
    rw [if_neg (by simp [hon, hstop])]
    exact .ite (.ite reported_tthBroadcast reported_tthSend) (.refl _)
  exact ⟨htold.trans hsent.heatTold, hsent.thm.trans hthm⟩

theorem beginStop_idle (h : groomOn s = false ∨ s.thm.stop ≠ 0) : beginStop s = s := by
  refine if_pos ?_
  rcases h with h | h
  · exact .inr (by simp [h])
  · exact .inl h

/-- What of the thermal state no action changes: the temperatures, and the drift. -/
def heatRead (x : Thm) : List Rat × List Rat × Bool := (x.nodes, x.diodes, x.drift)

theorem judgeCool_facts : HeatTold s (judgeCool s) ∧ heatRead (judgeCool s).thm = heatRead s.thm ∧
    (judgeCool s).thm.warn = s.thm.warn ∧ (judgeCool s).thm.hot = s.thm.hot ∧ (judgeCool s).thm.stop = s.thm.stop := by
  unfold judgeCool
  split
  · exact ⟨rfl, rfl, rfl, rfl, rfl⟩
  · exact ⟨.refl s, rfl, rfl, rfl, rfl⟩

/-- The actions at the present temperatures: a stop from 110 °C on, neither WARN nor THROTTLE below 97 °C. -/
theorem judgeThermal_facts : HeatTold s (judgeThermal s) ∧ heatRead (judgeThermal s).thm = heatRead s.thm ∧
    (110 ≤ usedTj s → groomOn s = true → s.thm.stop = 0 →
      (judgeThermal s).thm.stop = 1 ∧ (judgeThermal s).thm.stopAt = now s ∧ (judgeThermal s).thm.warn = true) ∧
    (usedTj s < 97 → (judgeThermal s).thm.warn = false ∧ (judgeThermal s).thm.hot = false ∧
      (judgeThermal s).thm.stop = s.thm.stop) := by
  obtain ⟨htold, hthm, hsys, htime⟩ := judgeWarm_facts (s := s)
  have hused : usedTj (judgeWarm s) = usedTj s := usedTj_of_thm (by rw [hthm]; rfl) (by rw [hthm]; rfl) (by rw [hthm]; rfl)
  have hmeasured : heatRead (judgeWarm s).thm = heatRead s.thm := by rw [hthm]; rfl
  have hstop : (judgeWarm s).thm.stop = s.thm.stop := by rw [hthm]; rfl
  have hon : groomOn (judgeWarm s) = groomOn s := by
    rw [groomOn, groomOn, hsys, show (judgeWarm s).thm.cooled = s.thm.cooled by rw [hthm]; rfl]
  have hnow : now (judgeWarm s) = now s := by rw [now, now, selectedUnits, selectedUnits, engineE, engineE, htime]
  unfold judgeThermal
  dsimp only
  rw [hused]
  by_cases htemp : 110 ≤ usedTj s
  · rw [if_pos htemp]
    have hwarn : holdsAt 100 97 (usedTj s) s.thm.warn = true := by
      unfold holdsAt
      split <;> exact decide_eq_true (by linarith)
    have hcold : ¬ usedTj s < 97 := by linarith
    by_cases hbegin : groomOn s = true ∧ s.thm.stop = 0
    · obtain ⟨hbegun, hthm'⟩ := beginStop_facts (s := judgeWarm s) (hon.trans hbegin.1) (hstop.trans hbegin.2)
      refine ⟨htold.trans hbegun, ?_, fun _ _ _ => ?_, fun h => absurd h hcold⟩ <;> rw [hthm']
      · exact hmeasured
      · exact ⟨rfl, hnow, by rw [hthm]; exact hwarn⟩
    · rw [beginStop_idle (by rw [hon, hstop, ← Bool.not_eq_true]; tauto)]
      exact ⟨htold, hmeasured, fun _ hg hz => absurd ⟨hg, hz⟩ hbegin, fun h => absurd h hcold⟩
  · rw [if_neg htemp]
    obtain ⟨hcooled, hmeasured', hwarn, hhot, hstop'⟩ := judgeCool_facts (s := judgeWarm s)
    refine ⟨htold.trans hcooled, hmeasured'.trans hmeasured, fun h => absurd h htemp, fun hlow => ⟨?_, ?_, hstop'.trans hstop⟩⟩
    · rw [hwarn, hthm]
      show holdsAt 100 97 (usedTj s) s.thm.warn = false
      unfold holdsAt
      split <;> exact decide_eq_false (by linarith)
    · rw [hhot, hthm]
      show holdsAt 105 102 (usedTj s) s.thm.hot = false
      unfold holdsAt
      split <;> exact decide_eq_false (by linarith)

end

end Sys2Proof.Machine
end

section
/-! The end of a thermal stop (17 R573, R575; 18 R586), and what the rows of power and heat do. -/

namespace Sys2Proof.Machine

open Sys2Proof

section

variable {k n : Nat} {s t u v : State}

/-! ## What ends with a stop leaves a retention entry that waits -/

/-- From `s` to `t` a retention entry that waits still waits, and none begins. -/
def EntryKept (s t : State) : Prop := t.sys.entryDue = s.sys.entryDue

theorem EntryKept.refl (s : State) : EntryKept s s := rfl

theorem EntryKept.trans (hst : EntryKept s t) (htu : EntryKept t u) : EntryKept s u := Eq.trans htu hst

theorem EntryKept.ite {p : Prop} [Decidable p] (ht : EntryKept s t) (hu : EntryKept s u) : EntryKept s (if p then t else u) := by
  split
  · exact ht
  · exact hu

theorem EntryKept.of_sys (h : t.sys = s.sys) : EntryKept s t := by rw [EntryKept, h]

theorem Reported.entryKept (h : Reported s t) : EntryKept s t := .of_sys (by rw [h]; rfl)

theorem SafeEntered.entryKept (h : SafeEntered s t) : EntryKept s t := .of_sys (by rw [h]; rfl)

theorem Pictured.entryKept (h : Pictured s t) : EntryKept s t := .of_sys (by rw [h]; rfl)

theorem entryKept_complete {c : Cmd} {r : Reply} : EntryKept s (complete c r s) := .of_sys (by rw [complete_eq])

theorem entryKept_stopCommits : EntryKept s (stopCommits s) := by
  unfold stopCommits
  extract_lets s1
  have hcommits : EntryKept s s1 := by
    refine foldl_steps EntryKept.refl EntryKept.trans _ (fun t x _ => ?_) s
    have hback : EntryKept t (returnImage x (dropSched x.ref t)) := .of_sys rfl
    dsimp only
    split
    · exact hback.trans entryKept_complete
    · exact hback
  split
  · exact hcommits
  · have hgone : EntryKept s1 { s1 with sys := { s1.sys with profileReq := none } } := rfl
    split
    · exact (hcommits.trans hgone).trans entryKept_complete
    · exact hcommits.trans hgone

theorem entryKept_tryClose : EntryKept s (tryClose n s) := by
  unfold tryClose
  split
  next x _ =>
    split
    · have hgone : EntryKept s (dropSession x s) := .of_sys rfl
      refine .ite ?_ (.refl s)
      dsimp only
      split
      · exact hgone.trans entryKept_complete
      · exact hgone
    · exact .refl s
  · exact .refl s

theorem entryKept_endStream {x : EncSess} : EntryKept s (endStream x s) := by
  unfold endStream
  split
  · have hmod {g : EncSess → EncSess} : EntryKept s (modEnc x.id g s) := rfl
    exact hmod.trans ((pump_facts _).1.entryKept.trans entryKept_tryClose)
  · exact .refl s

theorem entryKept_reachSafe : EntryKept s (reachSafe k s) := by
  have hsafe : EntryKept s { s with bind := { s.bind with safe := Tbl.set s.bind.safe k 2 } } := rfl
  exact hsafe.trans (safeEntered_enterSafe.entryKept.trans reported_tellConsumers.entryKept)

theorem entryKept_allSafe : EntryKept s (allSafe s) :=
  foldl_steps EntryKept.refl EntryKept.trans _ (fun t _ _ => .ite (.refl t) entryKept_reachSafe) s

theorem entryKept_detachSsds : EntryKept s (detachSsds s) := .of_sys (by rw [detachSsds_frame])

/-- The device as the stop leaves it, its sessions ended and its units safe. -/
def endedState (s : State) : State := detachSsds (tellStop true (allSafe (s.cod.enc.foldl (fun t x => endStream x t) (stopCommits s))))

theorem entryKept_endedState : EntryKept s (endedState s) :=
  have hstreams : EntryKept (stopCommits s) (s.cod.enc.foldl (fun t x => endStream x t) (stopCommits s)) :=
    foldl_steps EntryKept.refl EntryKept.trans _ (fun _ _ _ => entryKept_endStream) _
  ((entryKept_stopCommits.trans hstreams).trans entryKept_allSafe).trans
    (reported_tellStop.entryKept.trans entryKept_detachSsds)

/-- The device in STOPPED. -/
def stoppedState (s : State) : State :=
  modThm (fun x => { x with stop := 2 }) (msixOff (lanesTurn false endpointLanes
    { s with sys := { s.sys with phase := .stopped, selfRefresh := true, linkUp := false } }))

theorem msixEnable_msixOff (f : Nat) : (fnInt (msixOff s) f).msixEnable = false := by
  unfold fnInt msixOff
  rw [List.getD_eq_getElem?_getD, List.getElem?_map]
  cases s.ints.fns[f]? <;> rfl

theorem stoppedState_facts : let t := stoppedState s
    t.thm.stop = 2 ∧ t.sys = { s.sys with phase := .stopped, selfRefresh := true, linkUp := false } ∧
      ∀ f, (fnInt t f).msixEnable = false := by
  unfold stoppedState
  rw [lanesTurn_eq]
  exact ⟨rfl, rfl, msixEnable_msixOff⟩

/-- A stop with the recorder closed ends in STOPPED, or in the retention that waited. -/
theorem thmStopComplete_rule (hon : groomOn s = true) (hstop : s.thm.stop = 1) (hrec : s.recorder.state = 0) :
    ∃ t, exec .thmStopComplete s = .next t ∧ t.thm.stop = 2 ∧
      t.sys.selfRefresh = true ∧ t.sys.linkUp = false ∧ (∀ f, (fnInt t f).msixEnable = false) ∧
      (s.sys.entryDue = false → t.sys.phase = .stopped) ∧ (s.sys.entryDue = true → t.sys.phase = .retained) := by
  show ∃ t, execThmStopComplete s = .next t ∧ _
  unfold execThmStopComplete
  rw [if_neg (by simp [hon, hstop]), if_neg (by simp [hrec])]
  extract_lets s1 e y v
  have hkept : EntryKept s e := entryKept_endedState
  have hv : v = stoppedState e := rfl
  clear_value v
  subst hv
  clear_value e
  obtain ⟨hstop2, hsys, hmsix⟩ := stoppedState_facts (s := e)
  have hdetach : (detachSsds (stoppedState e)).thm.stop = 2 := by
    rw [detachSsds_frame]
    exact hstop2
  generalize stoppedState e = v at *
  have hentry : v.sys.entryDue = s.sys.entryDue := by
    rw [hsys]
    exact hkept
  rw [hentry]
  cases hdue : s.sys.entryDue
  case false =>
    refine ⟨v, congrArg Host.Outcome.next (if_neg (by decide)), hstop2, ?_, ?_, hmsix, fun _ => ?_, (nomatch ·)⟩ <;> rw [hsys]
  case true =>
    exact ⟨_, congrArg Host.Outcome.next (if_pos rfl), hdetach, enterRetention_facts.2.2.1, enterRetention_facts.2.2.2.1,
      msixEnable_msixOff, (nomatch ·), fun _ => enterRetention_facts.2.1⟩

/-- A recorder that still runs is told to end. -/
theorem thmStopComplete_recording (hon : groomOn s = true) (hstop : s.thm.stop = 1) (hrec : s.recorder.state = 1)
    (hbegun : s.recorder.begun = true) : ∃ t, exec .thmStopComplete s = .next t ∧
      t = drain { s with recorder := { s.recorder with thermal := true } } ∧ t.sys.phase = s.sys.phase := by
  refine ⟨_, congrArg Host.Outcome.next ((if_neg (by simp [hon, hstop])).trans ((if_pos (by simp [hrec])).trans
    ((if_neg (by simp [hrec])).trans (if_pos ⟨hrec, hbegun⟩)))), rfl, ?_⟩
  have hdrained := recorded_drain (s := modRec (fun x => { x with thermal := true }) s)
  unfold recorded at hdrained
  rw [hdrained]
  rfl

/-! ## The thermal rows (17 R566, R570, R578) -/

theorem thermalModelUpdate_rule (hon : aonOn s = true) :
    let u : State := { s with thm := { s.thm with nodes := (List.range 12).map (nodeStep s) } }
    ∃ t, exec .thermalModelUpdate s = .next t ∧
      t = { reported s t with thm := t.thm, sys := t.sys, heads := t.heads, recorder := t.recorder, freeCtr := t.freeCtr } ∧
      t.thm.nodes = u.thm.nodes ∧ t.thm.diodes = s.thm.diodes ∧
      (110 ≤ usedTj u → groomOn s = true → s.thm.stop = 0 → t.thm.stop = 1 ∧ t.thm.stopAt = now s ∧ t.thm.warn = true) ∧
      (usedTj u < 97 → t.thm.warn = false ∧ t.thm.hot = false ∧ (s.thm.stop ≠ 2 → t.thm.stop = s.thm.stop)) := by
  intro u
  obtain ⟨htold, hread, hhot, hcool⟩ := judgeThermal_facts (s := u)
  have hnew : HeatTold s u := rfl
  have hdiodes := congrArg (fun x => x.2.1) hread
  refine ⟨judgeThermal u, congrArg Host.Outcome.next (if_pos hon), hnew.trans htold, congrArg Prod.fst hread, hdiodes, hhot,
    fun hlow => ?_⟩
  obtain ⟨hwarn, hthrottle, hstop⟩ := hcool hlow
  exact ⟨hwarn, hthrottle, fun _ => hstop⟩

/-- Whether the model has drifted, by how far the diodes lie from it. -/
def driftNow (s : State) : Bool :=
  if s.thm.drift then decide (3 < diodeGap s 0) || decide (3 < diodeGap s 1)
  else decide (5 < diodeGap s 0) || decide (5 < diodeGap s 1)

theorem modelDriftCheck_rule (hon : aonOn s = true) : ∃ t, exec .modelDriftCheck s = .next t ∧
    t = { reported s t with thm := t.thm, sys := t.sys, heads := t.heads, recorder := t.recorder, freeCtr := t.freeCtr } ∧
    t.thm.drift = driftNow s := by
  have hrow : ¬ (!aonOn s) = true := by simp [hon]
  by_cases hsame : driftNow s = s.thm.drift
  · exact ⟨s, congrArg Host.Outcome.next ((if_neg hrow).trans (if_pos hsame)), rfl, hsame.symm⟩
  · refine ⟨_, congrArg Host.Outcome.next ((if_neg hrow).trans (if_neg hsame)), ?_, ?_⟩
    · refine HeatTold.trans ?_ judgeThermal_facts.1
      refine HeatTold.trans ?_ reported_tellF0.heatTold
      exact heatTold_modThm
    · refine (congrArg (fun x => x.2.2) judgeThermal_facts.2.1).trans ?_
      exact congrArg Thm.drift reported_tellF0.thm

theorem diodeRead_rule {q : Int} (hon : aonOn s = true) (hk : k < 2) : ∃ t, exec (.diodeRead k q) s = .next t ∧
    t.thm.diodes = s.thm.diodes.set k ((q : Rat) / 4) ∧
    (118 ≤ (q : Rat) / 4 → t.sys.phase = .tripped ∧ t.sys.ready = false ∧ t.sys.linkUp = false ∧ t.thm.tripLow = true ∧
      t.out = s.out) := by
  have hrow : ¬ (!decide (k < 2)) = true := by simp [hk]
  by_cases htrip : 118 ≤ (q : Rat) / 4
  · exact ⟨_, congrArg Host.Outcome.next ((if_neg hrow).trans ((if_neg (by simpa using hon)).trans (if_pos htrip))), rfl,
      fun _ => ⟨rfl, rfl, rfl, rfl, rfl⟩⟩
  · exact ⟨_, congrArg Host.Outcome.next ((if_neg hrow).trans ((if_neg (by simpa using hon)).trans (if_neg htrip))),
      congrArg (fun x => x.2.1) judgeThermal_facts.2.1, fun h => absurd h htrip⟩

end

/-- Settles O57: the rows of power, of the snubs and of the thermal model, and the two ways in which a stop ends. -/
theorem powerAndHeatFollowed : Obligations.PowerAndHeatFollowed := by
  unfold Obligations.PowerAndHeatFollowed
  refine ⟨fun r s c => ⟨fun hstart hpass => ?model, fun hstart hpass => ?read⟩,
    fun s hon => ⟨fun mw hlen => powerMeterSample_facts hon hlen, fun hthrottle hbelow => ?leave,
      fun n v hn hlen => droopSample_rule hon hn hlen, fun n => ⟨fun hstage hlow => ?deep, fun hstage hlow => ?first⟩,
      thermalModelUpdate_rule hon, modelDriftCheck_rule hon, fun k q hk _ => diodeRead_rule hon hk⟩,
    fun s hon => ⟨congrArg Host.Outcome.next (if_pos hon), fun which hwhich => ?reference, fun e hclock he => ?pps,
      thmStopComplete_rule hon, thmStopComplete_recording hon⟩⟩
  case model => exact congrArg Host.Outcome.next (runCmd_effect hstart hpass)
  case read => exact congrArg Host.Outcome.next (runCmd_effect hstart hpass)
  case leave => exact congrArg Host.Outcome.next (if_pos (by simp [hon, hthrottle, hbelow]))
  case deep => exact congrArg Host.Outcome.next ((if_neg (by simp [hon])).trans (if_pos ⟨hstage, hlow⟩))
  case first =>
    exact congrArg Host.Outcome.next ((if_neg (by simp [hon])).trans
      ((if_neg fun h => absurd (hstage.symm.trans h.1) (by decide)).trans (if_pos ⟨hstage, hlow⟩)))
  case reference => exact congrArg Host.Outcome.next (if_pos (by simp [hon, hwhich]))
  case pps => exact congrArg Host.Outcome.next (if_pos (by simp [hclock, he]))

end Sys2Proof.Machine
end

section
/-! Muck-out and the lane tests (15 R521 to R526; 18 R599 to R607). -/

namespace Sys2Proof.Machine

open Sys2Proof

section

variable {k l n p q : Nat} {b : Bool} {g : MckPipe → MckPipe} {m : Margins} {s t u v : State}

theorem isPending_raise_self (hlead : isLeader s = true) (hon : (routeOf s n).enable = true) (hn : n < 640) :
    isPending (raise n s) n = true := by
  rw [isPending_raise hlead hn, hon]
  simp

theorem Reported.tells (h : Reported s t) : isLeader t = isLeader s ∧ routeOf t n = routeOf s n := by
  rw [h]
  exact ⟨rfl, rfl⟩

/-! ## The results that a cycle leaves (18 R603, R604, R607) -/

/-- From `s` to `t` Muck-out may have ended a cycle or begun a slice: its results stay, and no pending source clears. -/
structure ResultsKept (s t : State) : Prop where
  mucked : Mucked s t
  calm : Calm s t
  ecc : t.mck.ecc = s.mck.ecc
  badRows : t.mck.badRows = s.mck.badRows
  failed : ∀ q, (mckPipe t q).failed = (mckPipe s q).failed

theorem ResultsKept.refl (s : State) : ResultsKept s s := ⟨.refl s, .refl s, rfl, rfl, fun _ => rfl⟩

theorem ResultsKept.trans (hst : ResultsKept s t) (htu : ResultsKept t u) : ResultsKept s u :=
  ⟨hst.mucked.trans htu.mucked, hst.calm.trans htu.calm, htu.ecc.trans hst.ecc, htu.badRows.trans hst.badRows,
    fun q => (htu.failed q).trans (hst.failed q)⟩

theorem ResultsKept.ite {c : Prop} [Decidable c] (ht : ResultsKept s t) (hu : ResultsKept s u) : ResultsKept s (if c then t else u) := by
  split
  · exact ht
  · exact hu

theorem Reported.mck (h : Reported s t) : t.mck = s.mck := by
  rw [h]
  rfl

/-- A report that leaves pending sources pending. -/
theorem ResultsKept.of_reported (h : Reported s t) (hcalm : Calm s t) : ResultsKept s t :=
  ⟨h.mucked, hcalm, by rw [h.mck], by rw [h.mck], fun q => by rw [mckPipe, mckPipe, h.mck]⟩

theorem resultsKept_told {code detail : Nat} : ResultsKept s (raise n (testEvent code detail s)) :=
  .of_reported (reported_sysEvent.trans reported_raise) (calm_postEvent.trans calm_raise)

theorem mckPipe_covered : (mckPipe { s with mck := { s.mck with pipes := s.mck.pipes.map fun x => { x with covered := 0 } } } q).failed =
    (mckPipe s q).failed := by
  simp only [mckPipe, List.getD_eq_getElem?_getD, List.getElem?_map]
  cases s.mck.pipes[q]? <;> rfl

theorem resultsKept_endCycle : ResultsKept s (endCycle s) := by
  unfold endCycle
  refine .trans ?_ resultsKept_told
  exact ⟨rfl, .of_eq rfl rfl, rfl, rfl, fun _ => mckPipe_covered⟩

theorem resultsKept_checkCycle : ResultsKept s (checkCycle s) := .ite resultsKept_endCycle (.refl s)

theorem resultsKept_modMckPipe (hg : ∀ x, (g x).failed = x.failed) : ResultsKept s (modMckPipe p g s) := by
  refine ⟨rfl, .of_eq rfl rfl, rfl, rfl, fun q => ?_⟩
  simp only [mckPipe, modMckPipe, modMck, List.getD_eq_getElem?_getD, List.getElem?_modify]
  cases s.mck.pipes[q]?
  · rfl
  · simp only [Option.getD_some]
    split
    · exact hg _
    · rfl

theorem failed_pickSlice : ∀ (n : Nat) (x : MckPipe), (pickSlice p n x).failed = x.failed
  | 0, _ => rfl
  | n + 1, x => by
    unfold pickSlice
    split
    · split
      · rfl
      · split
        · exact failed_pickSlice n _
        · rfl
    · split
      · rfl
      · split
        · exact failed_pickSlice n _
        · rfl

/-! ## Pipe slices (18 R603) -/

/-- The marks of a pipe after a slice. -/
def marksAfter (k : Nat) (again good : Bool) (failed : Nat) : Nat :=
  if good then (if bit failed k then failed - 2 ^ k else failed) else if again then failed ||| 2 ^ k else failed

/-- The state in which a slice has ended, and a difference that came twice is told. -/
def sliceTold (p k : Nat) (again good : Bool) (s : State) : State :=
  if !good && again then
    raise 636 (testEvent 0xB002 (1 + 2 ^ 8 * p + 2 ^ 16 * k)
      (modMck (fun m => { m with faults := m.faults + 1 }) (modMckPipe p (sliceResult p k again good) s)))
  else modMckPipe p (sliceResult p k again good) s

/-- The window goes on with the next slice that fits. -/
def windowTaken (p : Nat) (s : State) : State :=
  if windowOpen s p && mckRuns s 0 then modMckPipe p (pickSlice p 49) s else s

theorem exec_muckoutSliceDone {again good : Bool} (hclock : enginesClocked s = true) (hcur : (mckPipe s p).cur = some (k, again)) :
    exec (.muckoutSliceDone p good) s = .next (checkCycle (windowTaken p (sliceTold p k again good s))) := by
  simp only [exec, execMuckoutSliceDone, hcur, hclock, Bool.not_true, Bool.false_eq_true, if_false]
  rfl

theorem resultsKept_sliceTold {again good : Bool} :
    ResultsKept (modMckPipe p (sliceResult p k again good) s) (sliceTold p k again good s) := by
  refine .ite ?_ (.refl _)
  refine .trans ?_ resultsKept_told
  exact ⟨rfl, .of_eq rfl rfl, rfl, rfl, fun _ => rfl⟩

theorem pend_sliceTold (hlead : isLeader s = true) (hon : (routeOf s 636).enable = true) :
    isPending (sliceTold p k true false s) 636 = true := by
  refine isPending_raise_self ?_ ?_ (by decide)
  · exact (reported_sysEvent.tells (n := 636)).1.trans hlead
  · exact (congrArg Route.enable (reported_sysEvent.tells (n := 636)).2).trans hon

theorem lt_of_cur (hcur : (mckPipe s p).cur = some (k, b)) : p < s.mck.pipes.length := by
  by_contra hout
  rw [mckPipe, List.getD_eq_getElem?_getD, List.getElem?_eq_none (by omega)] at hcur
  exact absurd hcur (by simp)

theorem muckoutSliceDone_rule {again good : Bool} (hclock : enginesClocked s = true) (hcur : (mckPipe s p).cur = some (k, again)) :
    ∃ t, exec (.muckoutSliceDone p good) s = .next t ∧ t = { reported s t with mck := t.mck } ∧
      (mckPipe t p).failed = marksAfter k again good (mckPipe s p).failed ∧
      (∀ q, q ≠ p → (mckPipe t q).failed = (mckPipe s q).failed) ∧
      (good = false → again = true → (routeOf s 636).enable = true → isLeader s = true → isPending t 636 = true) := by
  have hended : Mucked s (modMckPipe p (sliceResult p k again good) s) := rfl
  have hmark := congrArg MckPipe.failed (mckPipe_modMckPipe (g := sliceResult p k again good) (lt_of_cur hcur))
  have hgone : ResultsKept (sliceTold p k again good s) (checkCycle (windowTaken p (sliceTold p k again good s))) :=
    .trans (.ite (resultsKept_modMckPipe (failed_pickSlice 49)) (.refl _)) resultsKept_checkCycle
  have hkept := resultsKept_sliceTold.trans hgone
  refine ⟨_, exec_muckoutSliceDone hclock hcur, hended.trans hkept.mucked, (hkept.failed p).trans hmark,
    fun q hq => (hkept.failed q).trans (congrArg MckPipe.failed (mckPipe_modMckPipe_ne hq)), fun hbad hagain hon hlead =>
      hgone.calm.pend 636 ?_⟩
  subst hbad hagain
  exact pend_sliceTold hlead hon

/-! ## HBM spare rows (18 R604) -/

/-- Muck-out with a spare row read back: the row counts, and what its result adds. -/
def scrubbed (key : Nat) (res : ScrubResult) (m : Mck) : Mck :=
  match res with
  | .clean => { m with rows := Tbl.set m.rows key true }
  | .corrected n => { m with rows := Tbl.set m.rows key true, ecc := min 0xFFFFFFFF (m.ecc + n) }
  | .bad => { m with rows := Tbl.set m.rows key true, badRows := Tbl.set m.badRows key true, faults := m.faults + 1 }

theorem spareRowScrub_facts {pc bank row : Nat} {res : ScrubResult} (hruns : mckRuns s 1 = true) (hpc : pc < 64) (hbank : bank < 48)
    (hrow : row < 8) : ∃ t, exec (.spareRowScrub pc bank row res) s = .next t ∧
      ResultsKept { s with mck := scrubbed (rowKey pc bank row) res s.mck } t := by
  have hrow : ¬ (!(mckRuns s 1 && decide (pc < 64) && decide (bank < 48) && decide (row < 8))) = true := by
    simp [hruns, hpc, hbank, hrow]
  cases res with
  | clean => exact ⟨_, congrArg Host.Outcome.next (if_neg hrow), resultsKept_checkCycle⟩
  | corrected n => exact ⟨_, congrArg Host.Outcome.next (if_neg hrow), resultsKept_checkCycle⟩
  | bad => exact ⟨_, congrArg Host.Outcome.next (if_neg hrow), resultsKept_told.trans resultsKept_checkCycle⟩

theorem spareRowScrub_rule {pc bank row : Nat} {res : ScrubResult} (hruns : mckRuns s 1 = true) (hpc : pc < 64) (hbank : bank < 48)
    (hrow : row < 8) : ∃ t, exec (.spareRowScrub pc bank row res) s = .next t ∧ t = { reported s t with mck := t.mck } ∧
      t.mck.ecc = (match res with
        | .corrected n => min 0xFFFFFFFF (s.mck.ecc + n)
        | _ => s.mck.ecc) ∧
      t.mck.badRows = (if res = .bad then Tbl.set s.mck.badRows (rowKey pc bank row) true else s.mck.badRows) := by
  obtain ⟨t, hexec, hkept⟩ := spareRowScrub_facts (res := res) hruns hpc hbank hrow
  have hscrubbed : Mucked s { s with mck := scrubbed (rowKey pc bank row) res s.mck } := rfl
  refine ⟨t, hexec, hscrubbed.trans hkept.mucked, hkept.ecc.trans ?_, hkept.badRows.trans ?_⟩ <;> cases res <;> rfl

/-! ## Lane margins (18 R605) -/

/-- A lane with its margins read. -/
def readLane (m : Margins) (low : Bool) (x : Lane) : Lane := { x with margin := marginWord m, low := low }

theorem mem_liveLanes (h : l ∈ liveLanes s) : l < s.lanes.length := by
  by_contra hout
  have hlive := (List.mem_filter.mp h).2
  rw [List.getElem?_eq_none (by omega)] at hlive
  exact Bool.noConfusion hlive

/-- The state with a lane read, before what that tells. -/
def marginRead (l : Nat) (m : Margins) (s : State) : State :=
  modLane l (readLane m (marginLow s m))
    (modMck (fun x => { x with lanes := Tbl.set x.lanes l true, lowNow := x.lowNow + b2n (marginLow s m) }) s)

theorem laneMarginReading_rule (hruns : mckRuns s 2 = true) (hlive : l ∈ liveLanes s) (hnew : Tbl.find? s.mck.lanes l = none)
    (hfree : (lane s l).reading = none) :
    let low := decide (m.left + m.right < s.mck.minWidth) || decide (m.top + m.bottom < s.mck.minHeight)
    ∃ t, exec (.laneMarginReading l m) s = .next t ∧ t = { reported s t with mck := t.mck, lanes := t.lanes } ∧
      lane t l = { lane s l with margin := marginWord m, low := low } ∧ (∀ k, k ≠ l → lane t k = lane s k) ∧
      (low ≠ (lane s l).low → (routeOf s 638).enable = true → isLeader s = true → isPending t 638 = true) := by
  intro low
  have hrow : ¬ (!(mckRuns s 2 && (liveLanes s).contains l) || (Tbl.find? s.mck.lanes l).isSome) = true := by
    simp [hruns, hlive, hnew]
  have hlane : lane (marginRead l m s) l = readLane m low (lane s l) := lane_modLane (mem_liveLanes hlive)
  have hother (k) (hk : k ≠ l) : lane (marginRead l m s) k = lane s k := lane_modLane_ne hk
  have hlanes {t} (h : Mucked (marginRead l m s) t) : t = { reported s t with mck := t.mck, lanes := t.lanes } ∧
      t.lanes = (marginRead l m s).lanes := by
    rw [h]
    exact ⟨rfl, rfl⟩
  have hread {t} (h : Mucked (marginRead l m s) t) (k) : lane t k = lane (marginRead l m s) k := by rw [lane, lane, (hlanes h).2]
  by_cases hsame : low = (lane s l).low
  · have hkept : Mucked (marginRead l m s) (checkCycle (marginRead l m s)) := mucked_checkCycle
    exact ⟨_, congrArg Host.Outcome.next ((if_neg hrow).trans ((if_neg (by simp [hfree])).trans (congrArg checkCycle (if_pos hsame)))),
      (hlanes hkept).1, (hread hkept l).trans hlane, fun k hk => (hread hkept k).trans (hother k hk), fun h => absurd hsame h⟩
  · have hkept := (resultsKept_told (s := marginRead l m s) (n := 638) (code := 0xB003)
      (detail := l + 2 ^ 8 * marginWord m + 2 ^ 48 * b2n low)).trans resultsKept_checkCycle
    refine ⟨_, congrArg Host.Outcome.next ((if_neg hrow).trans ((if_neg (by simp [hfree])).trans (congrArg checkCycle (if_neg hsame)))),
      (hlanes hkept.mucked).1, (hread hkept.mucked l).trans hlane, fun k hk => (hread hkept.mucked k).trans (hother k hk),
      fun _ hon hlead => resultsKept_checkCycle.calm.pend 638 (isPending_raise_self ?_ ?_ (by decide))⟩
    · exact (reported_sysEvent.tells (n := 638)).1.trans hlead
    · exact (congrArg Route.enable (reported_sysEvent.tells (n := 638)).2).trans hon

/-! ## PRBS (15 R522, R523) -/

theorem errors_of_result {x : Lane} (h : x.errors ≤ 0xFFFFFFFF) : (prbsReply x).result0 % 2 ^ 32 = x.errors := by
  simp only [prbsReply, okReply]
  omega

/-- What an ACTION leaves of a lane's counts. -/
theorem setPrbs_counts {bs : List Byte} {x : Lane} : (setPrbs bs x).errors = x.errors ∧ (setPrbs bs x).bits = x.bits := by
  unfold setPrbs
  dsimp only
  split <;> exact ⟨rfl, rfl⟩

theorem setPrbs_action {bs : List Byte} {x : Lane} (h : fieldAt bs 1 1 < 4) :
    (setPrbs bs x).gen = (fieldAt bs 1 1 == 1 || fieldAt bs 1 1 == 3) ∧
    (setPrbs bs x).chk = (fieldAt bs 1 1 == 2 || fieldAt bs 1 1 == 3) ∧ (setPrbs bs x).pattern = fieldAt bs 2 1 ∧
    (setPrbs bs x).loopback = if fieldAt bs 1 1 = 0 then 0 else fieldAt bs 3 1 := by
  unfold setPrbs
  dsimp only
  rw [if_neg (by omega)]
  exact ⟨rfl, rfl, rfl, rfl⟩

theorem countPrbs_locked {seen : PrbsSeen} {x : Lane} (hchk : x.chk = true) (hlock : x.prbsLock = true) : countPrbs seen x =
    { x with errors := min 0xFFFFFFFF (x.errors + seen.errors), bits := min (2 ^ 48 - 1) (x.bits + seen.bits), prbsLock := seen.lock } := by
  simp [countPrbs, hchk, hlock]

/-- The counts of a lane, cleared where the command says so. -/
def keptCounts (bs : List Byte) (x : Lane) : Lane := if bit (fieldAt bs 4 1) 1 then { x with errors := 0, bits := 0 } else x

theorem testPrbs_rule {r : CmdRef} {seen : PrbsSeen} {c : Cmd} (hstart : startable s r 0xB002 = some c) (hpass : prbsCheck s c = none)
    (hl : fieldAt c.region 0 1 < s.lanes.length) :
    let bs := c.region
    let l := fieldAt bs 0 1
    let x := lane s l
    ∃ u rep, exec (.testPrbs r seen) s = .next (complete c rep u) ∧ rep.status = 0 ∧ u = { s with lanes := u.lanes } ∧
      (∀ k, k ≠ l → lane u k = lane s k) ∧
      (fieldAt bs 1 1 < 4 → (lane u l).gen = (fieldAt bs 1 1 == 1 || fieldAt bs 1 1 == 3) ∧
        (lane u l).chk = (fieldAt bs 1 1 == 2 || fieldAt bs 1 1 == 3) ∧ (lane u l).pattern = fieldAt bs 2 1 ∧
        (lane u l).loopback = if fieldAt bs 1 1 = 0 then 0 else fieldAt bs 3 1) ∧
      (x.chk = true → x.prbsLock = true → rep.result0 % 2 ^ 32 = min 0xFFFFFFFF (x.errors + seen.errors) ∧
        rep.result1 = min (2 ^ 48 - 1) (x.bits + seen.bits)) ∧
      (bit (fieldAt bs 4 1) 1 = true → (lane u l).errors = 0 ∧ (lane u l).bits = 0) := by
  intro bs l x
  let kept := keptCounts bs (countPrbs seen x)
  have hlane : lane (modLane l (fun _ => setPrbs bs kept) s) l = setPrbs bs kept := lane_modLane hl
  refine ⟨modLane l (fun _ => setPrbs bs kept) s, prbsReply (countPrbs seen x),
    congrArg Host.Outcome.next (runCmd_effect hstart hpass), rfl, rfl, fun k hk => lane_modLane_ne hk, fun hact => ?_,
    fun hchk hlock => ?_, fun hclear => ?_⟩
  · rw [hlane]
    exact setPrbs_action hact
  · rw [countPrbs_locked hchk hlock]
    exact ⟨errors_of_result (Nat.min_le_left _ _), rfl⟩
  · rw [hlane, setPrbs_counts.1, setPrbs_counts.2, show kept = { countPrbs seen x with errors := 0, bits := 0 } from if_pos hclear]
    exact ⟨rfl, rfl⟩

end

/-- Settles O58: the commands of class TEST, and the rows of Muck-out. -/
theorem testsTakeEffect : Obligations.TestsTakeEffect := by
  unfold Obligations.TestsTakeEffect
  refine ⟨fun r seen s c => ⟨fun hstart hpass => ⟨fun hact => ?settings, fun hact => ?results, fun hact => ?restart⟩,
      fun hstart hpass hl => testPrbs_rule hstart hpass hl,
      fun hstart hpass => ⟨fun hact => ?reading, fun hact => ?override, fun hact => ?released⟩⟩,
    fun s hclock => ⟨fun p k again good hcur => muckoutSliceDone_rule hclock hcur,
      fun pc bank row res hruns hpc hbank hrow => spareRowScrub_rule hruns hpc hbank hrow,
      fun l m hruns hlive hnew hfree => laneMarginReading_rule hruns hlive hnew hfree,
      fun l m q c hon hread hfind => ?done⟩⟩
  case settings =>
    refine (congrArg Host.Outcome.next (runCmd_effect hstart hpass)).trans ?_
    simp only [effectTestMuckout, hact]
    rfl
  case results =>
    refine (congrArg Host.Outcome.next (runCmd_effect hstart hpass)).trans ?_
    simp only [effectTestMuckout, hact]
    rfl
  case restart =>
    refine ⟨modMck (restartCycle s.tick) s, (congrArg Host.Outcome.next (runCmd_effect hstart hpass)).trans ?_, rfl, rfl, rfl, rfl,
      fun x hx => ?_⟩
    · simp only [effectTestMuckout, hact]
    · obtain ⟨y, -, rfl⟩ := List.mem_map.mp hx
      exact ⟨rfl, rfl, rfl⟩
  case reading =>
    refine (congrArg Host.Outcome.next (runCmd_effect hstart hpass)).trans ?_
    simp only [effectTestMargin, hact]
    rfl
  case override =>
    refine (congrArg Host.Outcome.next (runCmd_effect hstart hpass)).trans ?_
    simp only [effectTestMargin, hact]
    rfl
  case released =>
    refine (congrArg Host.Outcome.next (runCmd_effect hstart hpass)).trans ?_
    simp only [effectTestMargin, hact]
    rfl
  case done =>
    have hsame : findCmd (modLane l (fun x => { x with reading := none, margin := marginWord m }) s) q = some c := hfind
    simp only [exec, execTestMarginDone, hread, hon, Bool.not_true, Bool.false_eq_true, if_false, hsame]
    rfl

end Sys2Proof.Machine
end

section
/-! Links and packets of the tether (14 R477 to R480, R486, R487). -/

namespace Sys2Proof.Machine

open Sys2Proof

section

variable {cls d k l n p route seq : Nat} {b : TthBody} {g : Lane → Lane} {x : TthPacket} {s t u : State}

/-! ## Links that stay up or down while events and sources are told -/

/-- From `s` to `t` every link of the tether is up or down as it was. -/
def UpKept (s t : State) : Prop := ∀ q, (tthPort t q).up = (tthPort s q).up

theorem UpKept.refl (s : State) : UpKept s s := fun _ => rfl

theorem UpKept.trans (hst : UpKept s t) (htu : UpKept t u) : UpKept s u := fun q => (htu q).trans (hst q)

theorem UpKept.ite {c : Prop} [Decidable c] (ht : UpKept s t) (hu : UpKept s u) : UpKept s (if c then t else u) := by
  split
  · exact ht
  · exact hu

theorem UpKept.of_tth (h : t.tth = s.tth) : UpKept s t := fun q => by rw [tthPort, tthPort, h]

theorem upKept_modPort {g : TthPort → TthPort} (hg : ∀ y, (g y).up = y.up) : UpKept s (modPort p g s) := by
  intro q
  simp only [tthPort, modPort, List.getD_eq_getElem?_getD, List.getElem?_modify]
  cases s.tth.ports[q]?
  · rfl
  · simp only [Option.map_eq_map, Option.map_some, Option.getD_some]
    split
    · exact hg _
    · rfl

theorem upKept_tthSend {v : Bool} : UpKept s (tthSend p cls b d v s) := by
  unfold tthSend tthPut
  refine .ite (.trans ?_ (.of_tth rfl)) ?_ <;> exact upKept_modPort fun _ => rfl

theorem upKept_memberEvent {f : Nat} {e : Event} : UpKept s (memberEvent f e s) := by
  unfold memberEvent
  exact .ite upKept_tthSend (.ite (fun _ => rfl) fun _ => rfl)

theorem upKept_postEvent {f : Nat} {e : Event} : UpKept s (postEvent f e s) := by
  unfold postEvent
  refine .ite upKept_memberEvent (.ite (.refl s) (.ite (.of_tth rfl) (.of_tth ?_)))
  rw [writeEvent_eq]

theorem upKept_raise : UpKept s (raise n s) := by
  unfold raise
  refine .ite (.refl s) (.ite upKept_postEvent ?_)
  have hset : UpKept s { s with ints := { s.ints with pend := s.ints.pend ||| (1#640 <<< n) } } := .of_tth rfl
  refine .ite hset (hset.trans (.of_tth ?_))
  rw [trySignal_eq]

theorem upKept_tellLink {v : Bool} : UpKept s (tellLink p v n s) := upKept_postEvent.trans upKept_raise

theorem reported_tellLink {v : Bool} : Reported s (tellLink p v n s) := reported_sysEvent.trans reported_raise

theorem isPending_tellLink {v : Bool} (hlead : isLeader s = true) (hon : (routeOf s (568 + 8 * p)).enable = true) (hp : p < 9) :
    isPending (tellLink p v n s) (568 + 8 * p) = true := by
  refine isPending_raise_self ?_ ?_ (by omega)
  · exact (reported_sysEvent.tells (n := 568 + 8 * p)).1.trans hlead
  · exact (congrArg Route.enable (reported_sysEvent.tells (n := 568 + 8 * p)).2).trans hon

theorem wired_lt (h : tthWired s p = true) : p < 2 := by
  unfold tthWired at h
  split at h
  · omega
  · simp at h
    omega

/-! ## Packets (14 R477 to R479) -/

theorem foldl_emit {α : Type} {f : α → Out} : ∀ (l : List α) (s : State),
    l.foldl (fun t e => emit (f e) t) s = { s with out := s.out ++ l.map f }
  | [], s => by simp
  | a :: l, s => by
    rw [List.foldl_cons, foldl_emit l]
    simp [emit]

theorem exec_tthPacket_taken (hon : groomOn s = true) (hwired : tthWired s p = true) (hup : (tthPort s p).up = true)
    (hwhole : crc8 (x.hdr.take 7) = fieldAt x.hdr 7 1) (htype : fieldAt x.hdr 0 1 = bodyType x.body)
    (hslack : s.sys.profile ≠ 3 ∨ typeClass (fieldAt x.hdr 0 1) = 0 ∨ typeClass (fieldAt x.hdr 0 1) = 2) :
    exec (.tthPacket p x) s = .next (if !(x.crcOk && lengthOk x) then
        match x.body with
        | .halo h => onHalo p { h with crcOk := false } (discardTether p (fieldAt x.hdr 0 1) s)
        | _ => discardTether p (fieldAt x.hdr 0 1) s
      else match x.body with
        | .ack c q => onAck p c q s
        | .verdict _ _ => takeTether p (fieldAt x.hdr 1 1) (typeClass (fieldAt x.hdr 0 1)) x.body (sendAck p 0 (fieldAt x.hdr 2 2) s)
        | y => if tthKept (typeClass (fieldAt x.hdr 0 1)) y then
            inOrderTake p (fieldAt x.hdr 1 1) (typeClass (fieldAt x.hdr 0 1)) (fieldAt x.hdr 2 2) y s
          else takeTether p (fieldAt x.hdr 1 1) (typeClass (fieldAt x.hdr 0 1)) y s) := by
  have hrow : ¬ (!(groomOn s && tthWired s p && (tthPort s p).up)) = true := by simp [hon, hwired, hup]
  have htaken : ¬ (fieldAt x.hdr 0 1 ≠ bodyType x.body ∨
      (s.sys.profile = 3 ∧ typeClass (fieldAt x.hdr 0 1) ≠ 0 ∧ typeClass (fieldAt x.hdr 0 1) ≠ 2)) := by
    rintro (h | ⟨hprofile, hcls, hcls'⟩)
    · exact h htype
    · rcases hslack with h | h | h
      · exact h hprofile
      · exact hcls h
      · exact hcls' h
  exact congrArg Host.Outcome.next ((if_neg hrow).trans ((if_neg (by simp [hwhole])).trans (if_neg htaken)))

theorem exec_tthPacket_broken (hon : groomOn s = true) (hwired : tthWired s p = true) (hup : (tthPort s p).up = true)
    (hbroken : ¬ crc8 (x.hdr.take 7) = fieldAt x.hdr 7 1) :
    exec (.tthPacket p x) s = .next (discardTether p (fieldAt x.hdr 0 1) s) :=
  congrArg Host.Outcome.next ((if_neg (by simp [hon, hwired, hup])).trans (if_pos hbroken))

/-- The class of a body's type tells a halo row, an acknowledgement and a verdict from the rest. -/
theorem class_of_halo {h : HaloRow} (hbody : b = .halo h) : typeClass (bodyType b) = 1 := by
  rw [hbody]
  rfl

/-- A packet kept in a window is neither a halo row nor an acknowledgement; of a class from 2 on it is no verdict. -/
theorem exec_tthPacket_kept (hon : groomOn s = true) (hwired : tthWired s p = true) (hup : (tthPort s p).up = true)
    (hwhole : crc8 (x.hdr.take 7) = fieldAt x.hdr 7 1) (htype : fieldAt x.hdr 0 1 = bodyType x.body)
    (hslack : s.sys.profile ≠ 3 ∨ typeClass (fieldAt x.hdr 0 1) = 0 ∨ typeClass (fieldAt x.hdr 0 1) = 2)
    (hcrc : x.crcOk = true) (hlen : lengthOk x = true) (hkept : tthKept (typeClass (fieldAt x.hdr 0 1)) x.body = true)
    (hcls : 2 ≤ typeClass (fieldAt x.hdr 0 1)) : exec (.tthPacket p x) s =
      .next (inOrderTake p (fieldAt x.hdr 1 1) (typeClass (fieldAt x.hdr 0 1)) (fieldAt x.hdr 2 2) x.body s) := by
  rw [exec_tthPacket_taken hon hwired hup hwhole htype hslack, if_neg (by simp [hcrc, hlen])]
  congr 1
  split
  next c q hbody => rw [hbody] at hkept; exact Bool.noConfusion hkept
  next hbody =>
    rw [htype, hbody] at hcls
    exact absurd hcls (by simp [bodyType, typeClass])
  next hbody => exact if_pos hkept

theorem exec_tthPacket_discarded (hon : groomOn s = true) (hwired : tthWired s p = true) (hup : (tthPort s p).up = true)
    (hwhole : crc8 (x.hdr.take 7) = fieldAt x.hdr 7 1) (htype : fieldAt x.hdr 0 1 = bodyType x.body)
    (hslack : s.sys.profile ≠ 3 ∨ typeClass (fieldAt x.hdr 0 1) = 0 ∨ typeClass (fieldAt x.hdr 0 1) = 2)
    (hfailed : x.crcOk = false ∨ lengthOk x = false) (hcls : typeClass (fieldAt x.hdr 0 1) ≠ 1) :
    exec (.tthPacket p x) s = .next (discardTether p (fieldAt x.hdr 0 1) s) := by
  rw [exec_tthPacket_taken hon hwired hup hwhole htype hslack, if_pos (by rcases hfailed with h | h <;> simp [h])]
  congr 1
  split
  next h hbody => exact absurd (htype ▸ class_of_halo hbody) hcls
  next => rfl

/-! ## Classes taken in order, and their acknowledgements (14 R479) -/

theorem inOrderTake_gap (hseq : seq ≠ Tbl.get 0 (tthPort s p).rxSeq cls) (hlater : later (Tbl.get 0 (tthPort s p).rxSeq cls) seq = false) :
    inOrderTake p route cls seq b s = s := (if_neg hseq).trans (if_neg (by rw [hlater]; decide))

theorem sendAck_facts : ∃ o, sendAck p cls seq s = { s with out := s.out ++ o } ∧
    (tthOpen s p 2 = true → ∃ n d, o = [tthOut p 2 n (.ack cls seq) d]) := by
  unfold sendAck
  split
  next hopen => exact ⟨_, rfl, fun _ => ⟨_, _, rfl⟩⟩
  next hshut => exact ⟨[], by simp, fun h => absurd h hshut⟩

theorem inOrderTake_again (hseq : seq ≠ Tbl.get 0 (tthPort s p).rxSeq cls) (hlater : later (Tbl.get 0 (tthPort s p).rxSeq cls) seq = true) :
    ∃ o, inOrderTake p route cls seq b s = { s with out := s.out ++ o } ∧ (tthOpen s p 2 = true →
      ∃ n d, o = [tthOut p 2 n (.ack cls ((Tbl.get 0 (tthPort s p).rxSeq cls + 65535) % 65536)) d]) := by
  rw [show inOrderTake p route cls seq b s = sendAck p cls ((Tbl.get 0 (tthPort s p).rxSeq cls + 65535) % 65536) s from
    (if_neg hseq).trans (if_pos hlater)]
  exact sendAck_facts

/-- A member's count of lost events, taken in order by the leader. -/
theorem inOrderTake_lostEvents {f : Nat} (hp : p < s.tth.ports.length) (hlead : isLeader s = true) (hf : f < s.stalls.length)
    (hroute : bit route 4 = false) (hmine : route / 4 % 4 = s.sys.device) :
    let want := Tbl.get 0 (tthPort s p).rxSeq cls
    let t := inOrderTake p route cls want (.lostEvents f n) s
    (stall t f).memberLost = (stall s f).memberLost + n ∧ Tbl.get 0 (tthPort t p).rxSeq cls = (want + 1) % 65536 ∧
      t = { s with stalls := t.stalls, tth := t.tth, out := t.out } := by
  intro want t
  let s1 := modPort p (fun y => { y with rxSeq := Tbl.set y.rxSeq cls ((want + 1) % 65536) }) s
  have hport : Tbl.get 0 (tthPort s1 p).rxSeq cls = (want + 1) % 65536 := by
    rw [show tthPort s1 p = _ from tthPort_modPort hp]
    exact Tbl.get_set
  obtain ⟨o, hack, -⟩ := sendAck_facts (p := p) (cls := cls) (seq := want) (s := s1)
  have htaken : t = modStall f (fun y => { y with memberLost := y.memberLost + n }) { s1 with out := s1.out ++ o } := by
    show inOrderTake p route cls want (.lostEvents f n) s = _
    unfold inOrderTake
    dsimp only
    rw [if_pos rfl, if_neg (by simp [routeFits]), hack]
    unfold takeTether
    dsimp only
    rw [hroute]
    rw [if_pos (by simp [s1, modPort, hmine]), if_neg (by simp [s1, modPort, hmine])]
    exact if_pos hlead
  rw [htaken]
  refine ⟨?_, hport, rfl⟩
  exact congrArg Stall.memberLost (stall_modStall (s := { s1 with out := s1.out ++ o }) hf)

/-- What an acknowledgement leaves of a window. -/
def leftOf (cls seq : Nat) (w : List (Nat × TthBody × Nat)) : List (Nat × TthBody × Nat) :=
  if cls = 0 then w.filter (·.1 != seq) else if w.any (·.1 == seq) then (w.dropWhile (·.1 != seq)).drop 1 else w

/-- A port with its window of a class shortened. -/
def ackedPort (cls : Nat) (left : List (Nat × TthBody × Nat)) (y : TthPort) : TthPort := { y with window := Tbl.set y.window cls left }

theorem onAck_facts (hp : p < s.tth.ports.length) : let t := onAck p cls seq s
    t = { s with tth := t.tth, out := t.out } ∧
      Tbl.get [] (tthPort t p).window cls = leftOf cls seq (Tbl.get [] (tthPort s p).window cls) := by
  have hport {left} : Tbl.get [] (tthPort (modPort p (ackedPort cls left) s) p).window cls = left := by
    rw [tthPort_modPort hp]
    exact Tbl.get_set
  by_cases hopen : tthOpen (modPort p (ackedPort cls (leftOf cls seq (Tbl.get [] (tthPort s p).window cls))) s) p cls = true
  · rw [show onAck p cls seq s = _ from if_pos hopen, foldl_emit]
    exact ⟨rfl, hport⟩
  · rw [show onAck p cls seq s = _ from if_neg hopen]
    exact ⟨rfl, hport⟩

theorem exec_tthAckTimeout (hon : groomOn s = true) (hopen : tthOpen s p cls = true) (hwin : Tbl.get [] (tthPort s p).window cls ≠ []) :
    exec (.tthAckTimeout p cls) s = .next (raise (570 + 8 * p) { s with
      out := s.out ++ ((Tbl.get [] (tthPort s p).window cls).take 64).map fun e => tthOut p cls e.1 e.2.1 e.2.2 }) := by
  have hsent : tthResend p cls s = { s with
      out := s.out ++ ((Tbl.get [] (tthPort s p).window cls).take 64).map fun e => tthOut p cls e.1 e.2.1 e.2.2 } :=
    (if_pos hopen).trans (foldl_emit _ s)
  rw [← hsent]
  exact congrArg Host.Outcome.next (if_pos (by simp [hon, hopen, hwin]))

end

end Sys2Proof.Machine
end

section
/-! Halo rows, and the links of the tether that fail and come up (14 R480, R486, R487, R505). -/

namespace Sys2Proof.Machine

open Sys2Proof

section

variable {a i k l m n p : Nat} {g : Lane → Lane} {h : HaloRow} {f : Frame} {s t u : State}

/-! ## The lanes of a link -/

/-- The lanes of a list, counted from a first one, change. -/
def modLanesFrom (a : Nat) (g : Lane → Lane) (js : List Nat) (s : State) : State := js.foldl (fun t j => modLane (a + j) g t) s

theorem modLanesFrom_frame {js : List Nat} : modLanesFrom a g js s = { s with lanes := (modLanesFrom a g js s).lanes } :=
  foldl_steps (R := fun s t => t = { s with lanes := t.lanes }) (fun _ => rfl) (fun hst htu => by rw [htu, hst]) js (fun _ _ _ => rfl) s

theorem lane_modLanesFrom {js : List Nat} (hnodup : js.Nodup) (hi : i ∈ js) (hlt : a + i < s.lanes.length) :
    lane (modLanesFrom a g js s) (a + i) = g (lane s (a + i)) := by
  have hread := foldl_reads (op := fun t j => modLane (a + j) g t) (read := fun t j => lane t (a + j)) (new := fun t j => g (lane t (a + j)))
    (Inv := fun t => t.lanes.length = s.lanes.length) (b := s.lanes.length - a) (fun j h => by simpa [modLane] using h)
    (fun j hj h => lane_modLane (by omega))
    (fun i j _ _ hij => ⟨lane_modLane_ne (fun heq => hij (by omega)), by rw [lane_modLane_ne (fun heq => hij (by omega))]⟩)
    js s rfl hnodup i (by omega)
  exact hread.trans (if_pos hi)

theorem lane_modLanesFrom_out {js : List Nat} (hi : i ∉ js) : lane (modLanesFrom a g js s) (a + i) = lane s (a + i) :=
  foldl_steps (R := fun s t => lane t (a + i) = lane s (a + i)) (fun _ => rfl) (fun hst htu => htu.trans hst) js
    (fun _ j hj => lane_modLane_ne (k := a + j) fun heq => hi ((show i = j by omega) ▸ hj)) s

theorem Reported.lanes (hst : Reported s t) : t.lanes = s.lanes := by
  rw [hst]
  rfl

theorem lane_of_lanes (hlanes : t.lanes = s.lanes) : lane t k = lane s k := by rw [lane, lane, hlanes]

/-! ## A link that fails (14 R480) -/

/-- A lane that failed. -/
def failedLane (x : Lane) : Lane := { x with locked := false, downs := min 255 (x.downs + 1), syncErr := min 65535 (x.syncErr + 4) }

/-- The state with a link down, its failed lanes out of lock, before that is told. -/
def linkDownState (p m : Nat) (s : State) : State :=
  modPort p (fun x => { x with up := false }) (modLanesFrom (32 + 8 * p) failedLane ((List.range 8).filter (bit m)) s)

/-- The link down, and told; a link that failed without a lane is one whose deskew failed. -/
def linkDownTold (p m : Nat) (s : State) : State :=
  tellLink p false m (if ((List.range 8).filter (bit m)).isEmpty then raise (572 + 8 * p) (linkDownState p m s)
    else linkDownState p m s)

theorem reported_linkDownTold : Reported (linkDownState p m s) (linkDownTold p m s) := .trans (.ite reported_raise (.refl _)) reported_tellLink

theorem upKept_linkDownTold : UpKept (linkDownState p m s) (linkDownTold p m s) := .trans (.ite upKept_raise (.refl _)) upKept_tellLink

theorem isPending_linkDownTold (hlead : isLeader s = true) (hon : (routeOf s (568 + 8 * p)).enable = true) (hp : p < 9) :
    isPending (linkDownTold p m s) (568 + 8 * p) = true := by
  have hdown : Reported (linkDownState p m s) (if ((List.range 8).filter (bit m)).isEmpty then
      raise (572 + 8 * p) (linkDownState p m s) else linkDownState p m s) := .ite reported_raise (.refl _)
  have hframe : isLeader (linkDownState p m s) = isLeader s ∧ routeOf (linkDownState p m s) (568 + 8 * p) = routeOf s (568 + 8 * p) := by
    unfold linkDownState
    rw [modLanesFrom_frame]
    exact ⟨rfl, rfl⟩
  refine isPending_tellLink ?_ ?_ hp
  · exact (hdown.tells (n := 568 + 8 * p)).1.trans (hframe.1.trans hlead)
  · exact (congrArg Route.enable ((hdown.tells (n := 568 + 8 * p)).2.trans hframe.2)).trans hon

theorem tthLinkDown_rule (hon : groomOn s = true) (hwired : tthWired s p = true) (hport : p < s.tth.ports.length)
    (hup : (tthPort s p).up = true) : ∃ u, exec (.tthLinkDown p m) s = .next (noteReach (if striped s.cfg.active 0 then
        (if s.tth.retractOnLink then retractAll 0 vOverrun u else releaseRows u) else u)) ∧
      (tthPort u p).up = false ∧
      (∀ l, l < 8 → 32 + 8 * p + l < s.lanes.length → bit m l = true → (lane u (32 + 8 * p + l)).locked = false ∧
        (lane u (32 + 8 * p + l)).downs = min 255 ((lane s (32 + 8 * p + l)).downs + 1)) ∧
      (∀ l, l < 8 → bit m l = false → lane u (32 + 8 * p + l) = lane s (32 + 8 * p + l)) ∧
      ((routeOf s (568 + 8 * p)).enable = true → isLeader s = true → isPending u (568 + 8 * p) = true) := by
  have hlane (k) : lane (linkDownTold p m s) k =
      lane (modLanesFrom (32 + 8 * p) failedLane ((List.range 8).filter (bit m)) s) k :=
    lane_of_lanes reported_linkDownTold.lanes
  have hin : p < (modLanesFrom (32 + 8 * p) failedLane ((List.range 8).filter (bit m)) s).tth.ports.length := by
    rw [modLanesFrom_frame]
    exact hport
  refine ⟨linkDownTold p m s, congrArg Host.Outcome.next (if_neg (by simp [hon, hwired, hup])), ?_, fun l hl hlt hbad => ?_,
    fun l hl hgood => ?_, fun henable hlead => isPending_linkDownTold hlead henable (by have := wired_lt hwired; omega)⟩
  · rw [upKept_linkDownTold p, linkDownState, tthPort_modPort hin]
  · have hmem : l ∈ (List.range 8).filter (bit m) := List.mem_filter.mpr ⟨List.mem_range.mpr hl, hbad⟩
    rw [hlane, lane_modLanesFrom ((List.nodup_range).filter _) hmem hlt]
    exact ⟨rfl, rfl⟩
  · have hout : l ∉ (List.range 8).filter (bit m) := by simp [hgood]
    rw [hlane, lane_modLanesFrom_out hout]

/-! ## A link that comes up (14 R480, R482) -/

/-- A lane in lock. -/
def lockedLane (x : Lane) : Lane := { x with locked := true }

/-- The state with a link up and its lanes in lock. -/
def linkUpState (p : Nat) (s : State) : State :=
  modPort p (fun x => { x with up := true }) (modLanesFrom (32 + 8 * p) lockedLane (List.range 8) s)

/-- What waited goes out. -/
def linkUpResent (p : Nat) (s : State) : State := [0, 2, 3, 4].foldl (fun t cls => tthResend p cls t) (linkUpState p s)

theorem reported_linkUpResent : Reported (linkUpState p s) (linkUpResent p s) :=
  foldl_steps Reported.refl Reported.trans _ (fun _ _ _ => reported_tthResend) _

theorem upKept_tthResend {cls : Nat} : UpKept s (tthResend p cls s) := by
  unfold tthResend
  refine .ite (.of_tth ?_) (.refl s)
  rw [foldl_emit]

theorem upKept_linkUpResent : UpKept (linkUpState p s) (linkUpResent p s) :=
  foldl_steps UpKept.refl UpKept.trans _ (fun _ _ _ => upKept_tthResend) _

theorem tthLinkUp_rule (hon : groomOn s = true) (hwired : tthWired s p = true) (hport : p < s.tth.ports.length)
    (hdown : (tthPort s p).up = false) (hfree : ∀ l, l < 8 → forcedOff s (32 + 8 * p + l) = false) :
    ∃ u, exec (.tthLinkUp p) s = .next (noteReach (if p = 0 then deliverBacklog u else u)) ∧ (tthPort u p).up = true ∧
      (∀ l, l < 8 → 32 + 8 * p + l < s.lanes.length → (lane u (32 + 8 * p + l)).locked = true) ∧
      ((routeOf s (568 + 8 * p)).enable = true → isLeader s = true → isPending u (568 + 8 * p) = true) := by
  have hlane (k) : lane (tellLink p true 0 (linkUpResent p s)) k = lane (modLanesFrom (32 + 8 * p) lockedLane (List.range 8) s) k :=
    lane_of_lanes (reported_linkUpResent.trans reported_tellLink).lanes
  have hframe : isLeader (linkUpState p s) = isLeader s ∧ routeOf (linkUpState p s) (568 + 8 * p) = routeOf s (568 + 8 * p) := by
    unfold linkUpState
    rw [modLanesFrom_frame]
    exact ⟨rfl, rfl⟩
  have hin : p < (modLanesFrom (32 + 8 * p) lockedLane (List.range 8) s).tth.ports.length := by
    rw [modLanesFrom_frame]
    exact hport
  have hoff : (List.range 8).any (fun l => forcedOff s (32 + 8 * p + l)) = false := by
    rw [List.any_eq_false]
    intro l hl
    simp [hfree l (List.mem_range.mp hl)]
  refine ⟨tellLink p true 0 (linkUpResent p s), congrArg Host.Outcome.next (if_neg (by rw [hoff]; simp [hon, hwired, hdown])), ?_,
    fun l hl hlt => ?_, fun henable hlead => isPending_tellLink ?_ ?_ (by have := wired_lt hwired; omega)⟩
  · rw [(upKept_linkUpResent.trans upKept_tellLink) p, linkUpState, tthPort_modPort hin]
  · rw [hlane, lane_modLanesFrom List.nodup_range (List.mem_range.mpr hl) hlt]
    rfl
  · exact (reported_linkUpResent.tells (n := 568 + 8 * p)).1.trans (hframe.1.trans hlead)
  · exact (congrArg Route.enable ((reported_linkUpResent.tells (n := 568 + 8 * p)).2.trans hframe.2)).trans henable

/-! ## Halo rows (14 R486, R487) -/

/-- A row joins those of its port. -/
def putHalo (p : Nat) (h : HaloRow) (m : Tbl (List HaloRow)) : Tbl (List HaloRow) := Tbl.set m p (Tbl.get [] m p ++ [h])

theorem exec_haloRow (hclock : enginesClocked s = true) (hprofile : s.sys.profile ≠ 3) (hwired : tthWired s p = true)
    (hup : (tthPort s p).up = true) (hshed : portShed s (12 + p) = false) (hstriped : striped s.cfg.active 0 = true) :
    exec (.haloRow p h) s = .next (
      let s1 := if h.crcOk then s else raise (571 + 8 * p) s
      match frameOf s1 0 h.serial with
      | some f => releaseRows (modFrame 0 h.serial (fun g =>
          { g with halo := putHalo p h g.halo, flags := g.flags ||| if h.crcOk || bit f.flags 0 then 0 else vCrc }) s1)
      | none => if later (stream s1 0).nextSerial h.serial then s1 else modTth (fun x => { x with early := putHalo p h x.early }) s1) :=
  congrArg Host.Outcome.next ((if_pos (by simp [hclock, hprofile, hwired, hup])).trans (if_neg (by simp [hshed, hstriped])))

theorem haloRow_joins (hclock : enginesClocked s = true) (hprofile : s.sys.profile ≠ 3) (hwired : tthWired s p = true)
    (hup : (tthPort s p).up = true) (hshed : portShed s (12 + p) = false) (hstriped : striped s.cfg.active 0 = true)
    (hframe : frameOf s 0 h.serial = some f) (hcrc : h.crcOk = true) : exec (.haloRow p h) s =
      .next (releaseRows (modFrame 0 h.serial (fun g => { g with halo := putHalo p h g.halo }) s)) := by
  simp only [exec_haloRow hclock hprofile hwired hup hshed hstriped, hcrc, if_true, hframe, Bool.true_or, Nat.or_zero]

theorem haloRow_waits (hclock : enginesClocked s = true) (hprofile : s.sys.profile ≠ 3) (hwired : tthWired s p = true)
    (hup : (tthPort s p).up = true) (hshed : portShed s (12 + p) = false) (hstriped : striped s.cfg.active 0 = true)
    (hframe : frameOf s 0 h.serial = none) (hlater : later (stream s 0).nextSerial h.serial = false) (hcrc : h.crcOk = true) :
    exec (.haloRow p h) s = .next { s with tth := { s.tth with early := putHalo p h s.tth.early } } := by
  simp only [exec_haloRow hclock hprofile hwired hup hshed hstriped, hcrc, if_true, hframe, hlater, Bool.false_eq_true, if_false]
  rfl

theorem haloRow_broken (hclock : enginesClocked s = true) (hprofile : s.sys.profile ≠ 3) (hwired : tthWired s p = true)
    (hup : (tthPort s p).up = true) (hshed : portShed s (12 + p) = false) (hstriped : striped s.cfg.active 0 = true)
    (hframe : frameOf (raise (571 + 8 * p) s) 0 h.serial = some f) (hcrc : h.crcOk = false) (hopen : bit f.flags 0 = false) :
    exec (.haloRow p h) s = .next (releaseRows (modFrame 0 h.serial
      (fun g => { g with halo := putHalo p h g.halo, flags := g.flags ||| vCrc }) (raise (571 + 8 * p) s))) := by
  simp only [exec_haloRow hclock hprofile hwired hup hshed hstriped, hcrc, Bool.false_eq_true, if_false, hframe, hopen, Bool.or_self]

end

/-- Settles O59: packets in and out of order, acknowledgements, halo rows, and the links that fail and come up. -/
theorem tetherLinksFollowed : Obligations.TetherLinksFollowed := by
  unfold Obligations.TetherLinksFollowed
  intro s p hon hwired hport
  refine ⟨fun hup => ⟨fun k => ?packets, fun cls hopen hwin => exec_tthAckTimeout hon hopen hwin,
      fun h f hclock hprofile hshed hstriped => ⟨fun hframe hcrc => haloRow_joins hclock hprofile hwired hup hshed hstriped hframe hcrc,
        fun hframe hlater hcrc => haloRow_waits hclock hprofile hwired hup hshed hstriped hframe hlater hcrc,
        fun hframe hcrc hopen => haloRow_broken hclock hprofile hwired hup hshed hstriped hframe hcrc hopen⟩,
      fun _ => tthLinkDown_rule hon hwired hport hup⟩,
    fun hdown hfree => tthLinkUp_rule hon hwired hport hdown hfree⟩
  refine ⟨fun hbroken => exec_tthPacket_broken hon hwired hup hbroken, fun htaken hfailed hcls => ?discarded,
    fun htaken hcrc hlen hkept hcls => ?kept, fun cls q htaken hcrc hlen hbody => ?acked⟩ <;>
  obtain ⟨hwhole, htype, hslack⟩ := htaken
  case discarded => exact exec_tthPacket_discarded hon hwired hup hwhole htype hslack hfailed hcls
  case kept =>
    have hexec := exec_tthPacket_kept hon hwired hup hwhole htype hslack hcrc hlen hkept hcls
    refine ⟨fun hseq hlater => hexec.trans (congrArg Host.Outcome.next (inOrderTake_gap hseq hlater)), fun hseq hlater => ?_,
      fun f n hseq hbody hlead hf hbcast hmine => ⟨_, hexec, ?_⟩⟩
    · obtain ⟨o, hagain, hack⟩ := inOrderTake_again (b := k.body) (route := fieldAt k.hdr 1 1) hseq hlater
      exact ⟨o, hexec.trans (congrArg Host.Outcome.next hagain), hack⟩
    · rw [hbody, hseq]
      exact inOrderTake_lostEvents hport hlead hf hbcast hmine
  case acked =>
    refine ⟨onAck p cls q s, ?_, onAck_facts hport⟩
    rw [exec_tthPacket_taken hon hwired hup hwhole htype hslack, if_neg (by simp [hcrc, hlen]), hbody]

end Sys2Proof.Machine
end

section
/-! A commit of an array whose command a function-level reset has detached (02 R66, 14 R496). -/

namespace Sys2Proof.Machine

open Sys2Proof

/-- A commit of the array without GO, whose command function 0 gave before a function-level reset: its reference is kept apart from
that of a later command with the same SEQ. -/
def elderSched : Sched :=
  { ref := ⟨16, 1⟩, detached := true, mode := 0, stream := 0, scope := 2, frame := 0, time := ⟨0, 0⟩, expect := 0, img := [] }

/-- The command of that commit. -/
def elderCmd : Cmd :=
  { fn := 16, seq := 1, opcode := 0x0302, flags := 0, target := 0, device := 0, bind := 0, region := [], waiting := true, detached := true }

/-- The leader of an array of two devices with that commit scheduled. -/
def elderArray : State :=
  { State.reset with sys := { State.reset.sys with arraySize := 2 }, cfg := { sched := [elderSched] }, cmds := [elderCmd] }

/-- At its deadline the commit is gone. -/
theorem prepareDeadline_elderArray : exec (.prepareDeadline ⟨0, 1⟩) elderArray = .next (abortCommit elderSched 0x61 elderArray) ∧
    (abortCommit elderSched 0x61 elderArray).cfg.sched = [] := ⟨rfl, by decide +kernel⟩

/-- The state that the statement names: it drops the commits of the reference by which the deadline's row finds this one. -/
def elderKept : State :=
  returnImage elderSched { elderArray with cfg := { elderArray.cfg with sched := elderArray.cfg.sched.filter (·.ref != ⟨0, 1⟩) } }

theorem sched_elderKept : elderKept.cfg.sched = [elderSched] := by decide +kernel

/-- Refutes O60: a row finds a detached commit by the reference that its function gave it, which is not the one under which the
commit is kept (02 R66); the statement drops the commits of the former, so the commit that ends at its deadline stays scheduled. -/
theorem not_arrayCommandsAndTimeFollowed : ¬ Obligations.ArrayCommandsAndTimeFollowed := by
  intro ⟨_, hcommits, _⟩
  obtain ⟨-, -, hdeadline, -⟩ := hcommits elderArray ⟨0, 1⟩ elderSched rfl rfl
  have hstated := hdeadline (by decide +kernel) rfl rfl elderCmd elderKept rfl (by decide +kernel)
  obtain ⟨hexec, hgone⟩ := prepareDeadline_elderArray
  have hsame := Host.Outcome.next.inj (hexec.symm.trans hstated)
  have hkept : (complete elderCmd { status := 0x61 } elderKept).cfg.sched = [elderSched] := by
    rw [complete_eq]
    exact sched_elderKept
  rw [hsame, hkept] at hgone
  exact absurd hgone (by simp)

end Sys2Proof.Machine
end
